-- ==== Sys2Proof/Word.lean ====
section
/-!
DEFINITION. Word.lean: the word types and the plainest arithmetic, used by every other file.
-/

namespace Sys2Proof

/-- One byte. -/
abbrev Byte := BitVec 8

/-- A 64-bit word: tallies' operands, masks, registers (R47, R92, R115). -/
abbrev Word := BitVec 64

/-- Add 1 and stay at the largest value of a saturating counter (R36, R142, R442). -/
def satAdd (top n d : Nat) : Nat := min top (n + d)

/-- `⌈a ÷ b⌉`. -/
def ceilDiv (a b : Nat) : Nat := (a + b - 1) / b

/-- Round up to a multiple of `m`. -/
def roundUp (a m : Nat) : Nat := ceilDiv a m * m

/-- `(a − b) mod m`, the distance R145 and R175 compute. -/
def modSub (m a b : Nat) : Nat := (a % m + m - b % m) % m

/-- The number of ones in the low `n` bits. -/
def popCount (n : Nat) (w : Nat) : Nat :=
  ((List.range n).filter fun i => w.testBit i).length

/-- The indices of the ones in the low `n` bits, ascending. -/
def bitList (n : Nat) (w : Nat) : List Nat :=
  (List.range n).filter fun i => w.testBit i

/-- Bits `lo .. lo + w − 1` of a number. -/
def bitsOf (v lo w : Nat) : Nat := (v >>> lo) % 2 ^ w

/-- Two's-complement reading of the low `w` bits. -/
def signedOf (w v : Nat) : Int :=
  if v % 2 ^ w < 2 ^ (w - 1) then ((v % 2 ^ w : Nat) : Int) else ((v % 2 ^ w : Nat) : Int) - ((2 ^ w : Nat) : Int)

/-- Two's-complement writing in `w` bits. -/
def unsignedOf (w : Nat) (v : Int) : Nat := (v % ((2 ^ w : Nat) : Int)).toNat

/-- 0 or 1. -/
def bit (b : Bool) : Nat := if b then 1 else 0

/-- A value clamped to a range, as the "acts as" clauses of register fields do. -/
def clamp (lo hi v : Nat) : Nat := max lo (min hi v)

/-- 0 acts as 1 (R168, R200, R354, R473). -/
def atLeast1 (v : Nat) : Nat := if v = 0 then 1 else v

end Sys2Proof
end

