-- ==== Sys2Proof/Syntax.lean ====
section
/-!
DEFINITION. Syntax.lean: the commands of the block, one constructor of Instr for each row of spec/opcode_table.json, and the
operand structures they carry. Field names are the manual's. No meaning is given here.
-/

namespace Sys2Proof

/-! ### Parties and common operands -/

/-- A PCIe function: the physical function of a host link, or VF v, the instance of partition v (R357). -/
inductive Fn where
  | pf (link : Fin 4)
  | vf (part : Fin 16)
  deriving DecidableEq, Repr

/-- Who asks for a register access, as journal records name it (R436). -/
inductive Origin where
  | host (link : Fin 4) (fnId : Nat)
  | bus (node : Nat)
  | firmware
  | inst (part : Fin 16)
  deriving DecidableEq, Repr

/-- The status codes of R7. -/
inductive Status where
  | ok | state | range | prot | revoked | faulted | poison | auth
  | peerLost | flushed | busy | tooLong | exhausted | late | degraded | internal
  deriving DecidableEq, Repr

/-- The header of a submission entry at the head of a ring (R50), with the ring it stands on. `rsv` tells that a reserved bit of
the entry is non-zero (R12). -/
structure Entry where
  fn    : Fn
  ring  : Nat
  tag   : BitVec 32
  gen   : Nat
  slots : Nat
  rsv   : Bool
  deriving DecidableEq, Repr

/-- The body shared by the one-sided operations and TSEND (R80). -/
structure OneSided where
  conn   : Nat
  lspace : Bool
  ltEn   : Bool
  laddr  : Nat
  len    : Nat
  wref   : Nat
  roff   : Nat
  opnd1  : Word
  opnd2  : Word
  ltally : Nat
  deriving DecidableEq, Repr

/-- The body of WIN_OPEN (R95). -/
structure WinOpenBody where
  base    : Nat
  length  : Nat
  rd      : Bool
  wr      : Bool
  atom    : Bool
  notify  : Bool
  space   : Bool
  nring   : Nat
  oneConn : Bool
  scope   : Nat
  btally  : Nat
  btEn    : Bool
  deriving DecidableEq, Repr

/-- The body of TRECV (R104). -/
structure TrecvBody where
  list   : Nat
  any    : Bool
  src    : Nat
  laddr  : Nat
  len    : Nat
  lspace : Bool
  tag    : Word
  ignore : Word
  info   : Nat
  deriving DecidableEq, Repr

/-- The trigger of an ARM (R119). -/
inductive Trigger where
  | tally (index : Nat) (thresh : Nat)
  | msg (r : TrecvBody)
  | time (t : Nat)
  | reserved (code : Nat)
  deriving DecidableEq, Repr

/-- The embedded entry of an ARM (R120): its header fields and its body, one-sided or tally. -/
structure Embed where
  opcode : Nat
  slots  : Nat
  gen    : Nat
  phase  : Bool
  rsv    : Bool
  body   : OneSided
  imm    : BitVec 32
  tally  : Nat
  value  : Word
  deriving DecidableEq, Repr

/-- The body of CONN_CONNECT (R136). -/
structure ConnectBody where
  peerIp   : Nat
  service  : Nat
  peerPort : Nat
  ports    : Nat
  paths    : Nat
  pmtu     : Nat
  cls      : Nat
  vid      : Nat
  pcp      : Nat
  ven      : Bool
  laddrIdx : Nat
  tsel     : Nat
  deriving DecidableEq, Repr

/-- A grant field (R174). -/
structure Grant where
  gseq : Nat
  gwin : Nat
  stop : Bool
  deriving DecidableEq, Repr

/-- A received TLT packet's base header (R129) with the port it came in by, the CE mark, whether it authenticates (R417), and the source
address of its datagram. -/
structure Rx where
  port   : Fin 8
  bp     : Nat
  part   : Fin 16
  dconn  : Nat
  dinc   : Nat
  dgen   : Nat
  kepoch : Nat
  pctr   : Nat
  psn    : Nat
  msn    : Nat
  first  : Bool
  last   : Bool
  ackreq : Bool
  cls    : Nat
  path   : Nat
  plen   : Nat
  tstamp : Nat
  ce     : Bool
  authOk : Bool
  wep    : Bool := false
  retx   : Bool := false
  src    : Nat := 0
  deriving DecidableEq, Repr

/-- A received CONN SYN (R140, R416, R406): who it comes from and what it asks for. `herdLabel` is set for herd connections (R237);
`resume` names the saved handle, incarnation and DGEN of a resume handshake (R406). `cls` is the connection's class, `wcls` the CLASS of
the packet. -/
structure Syn where
  port      : Fin 8
  part      : Fin 16
  laddrIdx  : Nat
  peerIp    : Nat
  peerPart  : Nat
  peerConn  : Nat
  peerInc   : Nat
  peerGen   : Nat
  peerDev   : Nat
  service   : Nat
  pmtu      : Nat
  cls       : Nat
  paths     : Nat
  nonce     : Nat
  cchk      : BitVec 64
  herdLabel : Option Nat
  herdRank  : Nat
  resume    : Option (Nat × Nat × Nat)
  authOk    : Bool
  wcls      : Nat := 7
  deriving DecidableEq, Repr

/-- A SYN_ACK (R140, R174, R416); `wcls` is the CLASS of the packet. -/
structure SynAck where
  fn       : Fn
  handle   : Nat
  inc      : Nat
  peerPart : Nat
  peerConn : Nat
  peerInc  : Nat
  peerGen  : Nat
  nonce    : Nat
  grant    : Grant
  authOk   : Bool
  port     : Fin 8 := 0
  wcls     : Nat := 7
  deriving DecidableEq, Repr

/-- An ACK's extension header (R152). -/
structure AckExt where
  cum      : Nat
  sacks    : List (Nat × Nat)
  echoTs   : Nat
  echoPath : Nat
  cemap    : BitVec 64
  grant    : Grant
  deriving DecidableEq, Repr

/-- An arriving ACK: its extension, and the messages of this end whose refusal is still to come as a NAK (log 25). -/
structure AckRx where
  ack     : AckExt
  refused : List Nat
  deriving DecidableEq, Repr

/-- An ABORT's extension header (R131): its cause, and the handle and incarnation of the end that sent it. -/
structure AbortExt where
  cause  : Nat
  handle : Nat
  inc    : Nat
  deriving DecidableEq, Repr

/-- The rail that deviates: a compute domain's, the chip rail, or the always-on rail (R577). -/
inductive RailRef where
  | region (n : Fin 4)
  | chip
  | alwaysOn
  deriving DecidableEq, Repr

/-- What the PHY and the MAC of the management bus see of an attempt to transmit (R534, R535): the current limit, inverted delimiters, no echo of
its own transmission, and the collisions of the frame. -/
structure MbusTry where
  short : Bool
  rev   : Bool
  open_ : Bool
  colls : Nat
  deriving DecidableEq, Repr

/-- The breakout port that goes down, and the lane that is lost, if that is why (R444). -/
structure PortLoss where
  bp   : Nat
  lane : Option Nat
  deriving DecidableEq, Repr

/-- What a first-contact datagram shows of its sender (R423): whether it starts a session of the peer's, whether its certificate chain verifies to the
root in boot ROM, and the firmware security version of measurement block 2. -/
structure ContactProof where
  opens : Bool
  chain : Bool
  svn   : Nat
  deriving DecidableEq, Repr

/-- What the host writes of a function's ATS control: the enable, and the smallest translation unit (R335). -/
structure AtsCtl where
  enable : Bool
  stu    : Nat
  deriving DecidableEq, Repr

/-- The body of HERD_CREATE (R235). -/
structure HerdBody where
  nmemb    : Nat
  rank     : Nat
  hring    : Nat
  defalg   : Nat
  defchunk : Nat
  ports    : Nat
  paths    : Nat
  pmtu     : Nat
  rblk     : Nat
  a2a      : Bool
  laddrIdx : Nat
  tsel     : Nat
  label    : Word
  mtab     : Nat
  soff     : Nat
  slen     : Nat
  hb       : Nat
  deriving DecidableEq, Repr

/-- The quantisation block (R227). -/
structure QBlk where
  wfmt   : Nat
  ef     : Bool
  reset  : Bool
  resOff : Nat
  deriving DecidableEq, Repr

/-- The body of every collective (R240), with bytes 72-127 of dispatch and combine (R257). -/
structure CollBody where
  herd    : Nat
  alg     : Nat
  ifmt    : Nat
  ofmt    : Nat
  op      : Nat
  mode    : Nat
  pacc    : Bool
  sat     : Bool
  sspace  : Bool
  dspace  : Bool
  ltEn    : Bool
  ptEn    : Bool
  qen     : Bool
  root    : Nat
  src     : Nat
  dst     : Nat
  count   : Nat
  ltally  : Nat
  ptally  : Nat
  chunk   : Nat
  qblk    : QBlk
  recaddr : Nat
  ntok    : Nat
  rowb    : Nat
  k       : Nat
  rtab    : Nat
  emap    : Nat
  nexp    : Nat
  cap     : Nat
  cnt     : Nat
  wtab    : Nat
  mta     : Nat
  deriving DecidableEq, Repr

/-- The BULK extension of a collective packet (R250). -/
structure BulkExt where
  kind   : Nat
  mepoch : Nat
  cseq   : Nat
  sig    : Nat
  srank  : Nat
  step   : Nat
  eoff   : Nat
  nelem  : Nat
  chunk  : Nat
  esc0   : Nat
  nesc   : Nat
  pfmt   : Nat
  exact  : Bool
  deriving DecidableEq, Repr

/-- A re-formation token (R449). `bits` lists the original ranks whose bit is set. -/
structure Token where
  base   : Nat
  cseq   : Nat
  srank  : Nat
  lap    : Nat
  origin : Nat
  cbase  : Option Nat
  cmap   : BitVec 64
  visited : Nat
  bits   : List Nat
  deriving DecidableEq, Repr

/-- The body of ATTN_OPEN (R261). -/
structure AttnBody where
  sess    : Nat
  skey    : Nat
  dcode   : Nat
  nqh     : Nat
  nkvh    : Nat
  qfmt    : Nat
  ofmt    : Nat
  kvfmt   : Nat
  cmode   : Bool
  sat     : Bool
  omode   : Bool
  causal  : Bool
  window  : Bool
  nbuf    : Nat
  cunits  : Nat
  scale   : BitVec 32
  win     : Nat
  nq      : Nat
  qspace  : Bool
  ospace  : Bool
  ltEn    : Bool
  rtEn    : Bool
  lseEn   : Bool
  blks    : Nat
  qaddr   : Nat
  qpos    : Nat
  oaddr   : Nat
  qstride : Nat
  ostride : Nat
  laddr   : Nat
  expect  : Nat
  ltally  : Nat
  rtally  : Nat
  deriving DecidableEq, Repr

/-- The body of ATTN_FEED (R267). -/
structure FeedBody where
  conn    : Nat
  local_  : Bool
  sref    : Nat
  kvh     : Nat
  kvfmt   : Nat
  space   : Bool
  ltEn    : Bool
  dcode   : Nat
  ntok    : Nat
  pos0    : Nat
  kaddr   : Nat
  vaddr   : Nat
  kstride : Nat
  vstride : Nat
  ltally  : Nat
  deriving DecidableEq, Repr

/-- The BULK extension of a KV packet (R269). -/
structure KvExt where
  values : Bool
  sref   : Nat
  kvh    : Nat
  kvfmt  : Nat
  dcode  : Nat
  ntokb  : Nat
  bpos   : Nat
  eoff   : Nat
  nelem  : Nat
  bseq   : Nat
  rsv    : Bool
  deriving DecidableEq, Repr

/-- The body of PROG_LAUNCH (R309). -/
structure LaunchBody where
  handle  : Nat
  lref    : Nat
  blks    : Nat
  saveOff : Nat
  saveLen : Nat
  args    : Nat
  ptab    : Nat
  ttab    : Nat
  spwait  : Nat
  ltally  : Nat
  ltEn    : Bool
  deriving DecidableEq, Repr

/-- A program copy of a launch: the agent that issues TPF instructions (R293). -/
structure CopyRef where
  fn     : Fn
  launch : Nat
  copy   : Nat
  deriving DecidableEq, Repr

/-- How a host answers a Translation Request (R338). -/
inductive XlateReply where
  | granted (r w : Bool) (size : Nat)
  | denied
  | urca
  deriving DecidableEq, Repr

/-- How a host answers a page request group (R341). -/
inductive PriReply where
  | success | invalid | failure
  deriving DecidableEq, Repr

/-- How a host read completes (R336, R491). -/
inductive ReadReply where
  | ok | poison | urca
  deriving DecidableEq, Repr

/-- A completion, and the function and address of the Untranslated read that it answers where it is not that of a packet's data (log 152). -/
structure ReadAns where
  reply : ReadReply
  page  : Option (Fn × Nat)
  deriving DecidableEq, Repr

/-- A frame that passed FEC and FCS: the breakout port, the bytes from the destination address on, without FCS, and the PCS timestamp. -/
structure Frame where
  port    : Fin 8
  bp      : Nat
  bytes   : List Byte
  stamp   : Nat
  deriving DecidableEq, Repr

/-- An error report (R465, R466): the detecting unit, the code and its INFO. -/
structure ErrReport where
  block : Nat
  cell  : Nat
  code  : Nat
  info  : Nat
  at_   : Nat
  deriving DecidableEq, Repr

/-- Where an error record is kept (R467). -/
inductive RecRef where
  | chip
  | region (n : Fin 4)
  | block (b : Nat)
  deriving DecidableEq, Repr

/-- What a scrubber finds at the line it visits (R483, R486): corrected words, one of them hard-faulted or not; or an uncorrectable
error, with what the location holds (0 valid data, 1 a free word, 2 a live context, 3 a clean copy). `loc` is the macro number and
word index of R486 for SRAM. -/
inductive ScrubFind where
  | clean
  | corrected (words : Nat) (hard : Bool) (loc : Nat)
  | uncorrectable (holds : Nat) (loc : Nat)
  deriving DecidableEq, Repr

/-- A live context that an uncorrectable error strikes (R488). -/
inductive CtxRef where
  | none
  | conn (fn : Fn) (handle : Nat)
  | window (fn : Fn) (index : Nat)
  | ring (fn : Fn) (ring : Nat)
  | herd (fn : Fn) (index : Nat)
  | tally (fn : Fn) (index : Nat)
  | mlist (fn : Fn) (list : Nat)
  | inflight (fn : Fn) (op : Nat)
  deriving DecidableEq, Repr

/-- An SPDM endpoint (R432). -/
inductive SpdmEnd where
  | pf (link : Fin 4)
  | vf (part : Fin 16)
  | bus
  deriving DecidableEq, Repr

/-- SPDM requests that change or report state (R432, R433). -/
inductive SpdmReq where
  | openSession
  | closeSession (id : Nat)
  | measurement (index : Nat)
  | ideKey (link : Fin 4) (stream : Nat)
  deriving DecidableEq, Repr

/-- TDISP requests (R434). -/
inductive TdispReq where
  | lock (session : Nat)
  | start
  | stop
  deriving DecidableEq, Repr

/-- What the card monitor reads of the sensors on J10 (R593): the flow in 0.01 L/min and the temperatures in 1/16 °C; the current of FLOW_PWR in µA,
and whether FLOW has been low for 1 s; the sense voltages of TIN and TOUT in per mille of the excitation. -/
structure Sensors where
  flow   : Nat
  tin    : Int
  tout   : Int
  flowUa : Nat
  held   : Bool
  tinPm  : Nat
  toutPm : Nat
  deriving DecidableEq, Repr

/-! ### The commands -/

/-- A command of the block: one constructor for each row of spec/opcode_table.json. A ring command carries the
entry at its ring's head (`e`); a timer carries the elapsed time at which it is looked at (`now`, in nanoseconds). -/
inductive Instr where
  -- rings (R45-R78)
  | nop (e : Entry)
  | fence (e : Entry) (hostVis remoteVis : Bool) (inst : Bool)
  | fenceRelease (fn : Fn) (ring : Nat)
  | ringInval (e : Entry) (ring first count : Nat)
  | ringCreate (e : Entry) (ring sqLog cqLog cls sqBase cqBase : Nat)
  | ringDestroy (e : Entry) (ring : Nat)
  | ringDrained (fn : Fn) (ring : Nat)
  | ringPause (e : Entry) (ring : Nat)
  | ringResume (e : Entry) (ring : Nat)
  | ringFlush (e : Entry) (ring : Nat)
  | dbgCfg (e : Entry) (group vector : Nat)
  | cqModerate (e : Entry) (ring count time : Nat)
  | adminRingEnable (fn : Fn) (o : Origin) (value : Nat)
  | adminRingResume (fn : Fn) (o : Origin)
  | ringSqdb (fn : Fn) (ring tail : Nat)
  | entryStart (fn : Fn) (ring : Nat)
  | cqHeadRelease (fn : Fn) (ring head : Nat)
  | cqEventArm (fn : Fn) (ring head : Nat)
  | dbgRingSet (fn : Fn) (group : Nat) (bits : Nat)
  | dbgMaskWrite (fn : Fn) (group : Nat) (bits : Nat)
  | dbgEvtClear (fn : Fn) (group : Nat) (bits : Nat)
  | dbgEmaskWrite (fn : Fn) (group : Nat) (bits : Nat)
  | pendingCompletionWrite (fn : Fn) (ring : Nat)
  | cqEventTimer (fn : Fn) (ring : Nat) (now : Nat)
  | stateRecordCommit (now : Nat)
  | registerFence (fn : Fn) (o : Origin) (token : Nat) (hostVis remoteVis : Bool) (vector : Nat) (irq : Bool)
  | registerFenceDone (fn : Fn)
  -- raw frames and setup registers (R531, R532, R599-R613)
  | frameTx (e : Entry) (port bp : Nat) (space : Bool) (addr len : Nat)
  | frameRxbuf (e : Entry) (addr len : Nat)
  | rcRegisterRead (o : Origin) (off width : Nat)
  | setupRegWrite (o : Origin) (off width value : Nat)
  -- one-sided, tagged, windows, tallies, armed requests (R79-R126)
  | write (e : Entry) (b : OneSided)
  | read (e : Entry) (b : OneSided)
  | writeNotify (e : Entry) (b : OneSided) (imm : BitVec 32)
  | atFadd (e : Entry) (b : OneSided)
  | atFand (e : Entry) (b : OneSided)
  | atFor (e : Entry) (b : OneSided)
  | atFxor (e : Entry) (b : OneSided)
  | atSwap (e : Entry) (b : OneSided)
  | atCas (e : Entry) (b : OneSided)
  | tsend (e : Entry) (b : OneSided)
  | trecv (e : Entry) (b : TrecvBody)
  | trecvCancel (e : Entry) (list : Nat) (tag : BitVec 32)
  | mlistCreate (e : Entry) (list uq : Nat)
  | mlistDestroy (e : Entry) (list : Nat)
  | winOpen (e : Entry) (b : WinOpenBody)
  | winRevoke (e : Entry) (wref : Nat)
  | tallyAlloc (e : Entry) (value : Word)
  | tallyFree (e : Entry) (tally : Nat)
  | tallyAdd (e : Entry) (tally : Nat) (value : Word)
  | tallySet (e : Entry) (tally : Nat) (value : Word)
  | tallyRead (e : Entry) (tally : Nat) (addr : Nat)
  | arm (e : Entry) (trig : Trigger) (emb : Embed)
  | armCancel (e : Entry) (tag : BitVec 32)
  | armedTimeFire (fn : Fn) (ring : Nat) (tag : BitVec 32) (now : Nat)
  -- connections and packets (R127-R168)
  | connConnect (e : Entry) (b : ConnectBody)
  | connListen (e : Entry) (service laddrIdx nring maxConn : Nat)
  | connUnlisten (e : Entry) (service laddrIdx : Nat)
  | connClose (e : Entry) (conn : Nat)
  | connAbort (e : Entry) (conn : Nat)
  | connQuery (e : Entry) (conn addr : Nat)
  | connModify (e : Entry) (conn ports paths : Nat)
  | synReceive (x : Syn)
  | synAckReceive (x : SynAck)
  | connAckReceive (rx : Rx) (fn : Fn) (grant : Grant)
  | finReceive (rx : Rx) (fn : Fn)
  | finAckReceive (rx : Rx) (fn : Fn)
  | abortReceive (rx : Rx) (fn : Fn) (ext : AbortExt)
  | synRetryTimer (fn : Fn) (conn : Nat) (now : Nat)
  | slowpathDone (fn : Fn) (conn : Nat)
  | slowpathFail (fn : Fn) (conn : Nat)
  | lostTimeExpiry (fn : Fn) (conn : Nat) (now : Nat)
  | rekeyKeyInstalled (fn : Fn) (conn : Nat)
  | dataReceive (rx : Rx) (fn : Fn) (wref roff moff mlen : Nat) (notify : Bool) (imm : BitVec 32) (payload : List Byte)
  | readReqReceive (rx : Rx) (fn : Fn) (wref roff len req : Nat)
  | readRespReceive (rx : Rx) (fn : Fn) (req moff : Nat) (payload : List Byte)
  | atomicReqReceive (rx : Rx) (fn : Fn) (op wref roff : Nat) (opnd1 opnd2 : Word)
  | atomicRespReceive (rx : Rx) (fn : Fn) (req : Nat) (old : Word)
  | tsendReceive (rx : Rx) (fn : Fn) (list : Nat) (tag : Word) (mlen moff : Nat) (rdv : Bool) (payload : List Byte)
  | rdvReqReceive (rx : Rx) (fn : Fn) (req moff len : Nat)
  | rdvRespReceive (rx : Rx) (fn : Fn) (req moff : Nat) (payload : List Byte)
  | nakReceive (rx : Rx) (fn : Fn) (msn : Nat) (status : Status) (detail : Nat)
  | abandonNoticeReceive (rx : Rx) (fn : Fn) (msn : Nat) (status : Status)
  | ackDelayTimer (fn : Fn) (conn : Nat) (now : Nat)
  | ackReceive (rx : Rx) (fn : Fn) (x : AckRx)
  | retxTimerExpiry (fn : Fn) (conn psn : Nat) (now : Nat)
  | pathStrikeEval (fn : Fn) (conn : Nat) (now : Nat)
  | pathProbeTimer (fn : Fn) (conn path : Nat) (now : Nat)
  | probeReceive (rx : Rx) (fn : Fn)
  | silenceProbeTimer (fn : Fn) (conn : Nat) (now : Nat)
  | abortRepeatTimer (fn : Fn) (conn : Nat) (now : Nat)
  -- credits, scheduler, gates (R169-R202)
  | grantInterval (now : Nat)
  | creditChangeTimer (fn : Fn) (conn : Nat) (now : Nat)
  | creditGrantReceive (rx : Rx) (fn : Fn) (grant : Grant)
  | creditReqReceive (rx : Rx) (fn : Fn)
  | creditReqTimer (fn : Fn) (conn : Nat) (now : Nat)
  | packetSelect (port : Fin 8) (now : Nat)
  | frameTransmit (port : Fin 8) (bp : Nat) (now : Nat)
  | queueEscalationTimer (port : Fin 8) (part : Fin 16) (cls : Nat) (now : Nat)
  | queueSampleTimer (now : Nat)
  | gateLoad (e : Entry) (port count addr start : Nat)
  | gateTakeover (port : Fin 8) (now : Nat)
  | gateEntryAdvance (port : Fin 8) (now : Nat)
  | qStop (e : Entry) (scope arg : Nat)
  | qStart (e : Entry) (scope arg : Nat)
  | qSample (e : Entry) (addr : Nat)
  -- herds and collectives (R232-R258)
  | herdCreate (e : Entry) (b : HerdBody)
  | herdFormTimeout (fn : Fn) (herd : Nat) (now : Nat)
  | herdDestroy (e : Entry) (herd : Nat)
  | herdQuery (e : Entry) (herd addr : Nat)
  | collAllreduce (e : Entry) (b : CollBody)
  | collReduceScatter (e : Entry) (b : CollBody)
  | collAllgather (e : Entry) (b : CollBody)
  | collBcast (e : Entry) (b : CollBody)
  | collReduce (e : Entry) (b : CollBody)
  | collAlltoall (e : Entry) (b : CollBody)
  | collDispatch (e : Entry) (b : CollBody)
  | collCombine (e : Entry) (b : CollBody)
  | collBarrier (e : Entry) (b : CollBody)
  | collStart (fn : Fn) (herd : Nat)
  | bulkCollReceive (rx : Rx) (fn : Fn) (x : BulkExt) (npk : Nat) (pidx : Nat) (payload : List Byte)
  | haltReceive (rx : Rx) (fn : Fn) (mepoch cseq origin cause : Nat)
  | barrierTokenReceive (rx : Rx) (fn : Fn) (mepoch cseq sig srank step : Nat)
  | heartbeatTimer (fn : Fn) (herd : Nat) (now : Nat)
  | heartbeatMiss (fn : Fn) (herd : Nat) (now : Nat)
  | tokenProposeReceive (rx : Rx) (fn : Fn) (t : Token)
  | tokenCommitReceive (rx : Rx) (fn : Fn) (t : Token)
  | proposeLapTimer (fn : Fn) (herd : Nat) (now : Nat)
  | settleTimer (fn : Fn) (herd : Nat) (now : Nat)
  | agreeTimer (fn : Fn) (herd : Nat) (now : Nat)
  | collectiveResume (fn : Fn) (herd : Nat) (sources : List (Nat × Nat))
  -- streamed attention (R259-R283)
  | attnOpen (e : Entry) (b : AttnBody)
  | attnLoadingDone (fn : Fn) (sess : Nat)
  | attnFeed (e : Entry) (b : FeedBody)
  | attnFinish (e : Entry) (sref : Nat)
  | attnAbort (e : Entry) (sref : Nat)
  | attnQuery (e : Entry) (sess addr : Nat)
  | bulkKvReceive (rx : Rx) (fn : Fn) (x : KvExt) (npk : Nat) (pidx : Nat) (payload : List Byte)
  | kvBlockMerge (fn : Fn) (sess : Nat) (block slot : Nat)
  | attnOutputWrite (fn : Fn) (sess : Nat)
  -- programs (R284-R320)
  | progLoad (e : Entry) (slice : Bool) (image len codeOff codeLen : Nat)
  | progUnload (e : Entry) (handle : Nat)
  | progLaunch (e : Entry) (b : LaunchBody)
  | launchRunning (fn : Fn) (launch : Nat)
  | progStop (e : Entry) (lref : Nat)
  | progQuery (e : Entry) (launch addr : Nat)
  | launchStopped (fn : Fn) (launch : Nat)
  | launchEnded (fn : Fn) (launch : Nat)
  -- memory and translation (R321-R354)
  | atcPrefetch (e : Entry) (addr len : Nat) (wr : Bool) (faultOk : Bool)
  | sliceRekey (e : Entry) (first count ksel : Nat)
  | sliceRekeyPage (page : Nat)
  | sliceInfo (e : Entry) (addr : Nat)
  | atsTranslationCompletion (fn : Fn) (addr : Nat) (reply : XlateReply)
  | pageRequestBatchSend (fn : Fn) (now : Nat)
  | priResponseReceive (fn : Fn) (group : Nat) (gen : Nat) (reply : PriReply)
  | priTimeout (fn : Fn) (group : Nat) (now : Nat)
  | atsInvalidateRequest (fn : Fn) (tag addr len : Nat)
  | atsInvalidateComplete (fn : Fn) (tag : Nat)
  -- host links and mailboxes (R355-R386)
  | hostReadCompletion (link : Fin 4) (tag : Nat) (gen : Nat) (data : List Byte) (ans : ReadAns)
  | completionTimeout (link : Fin 4) (tag : Nat) (now : Nat)
  | vfFlr (link : Fin 4) (part : Fin 16)
  | pfFlr (link : Fin 4)
  | linkDlDown (link : Fin 4)
  | linkUp (link : Fin 4) (speed width : Nat) (cxl : Bool)
  | cxlMemRead (link : Fin 4) (addr : Nat)
  | cxlMemWrite (link : Fin 4) (addr : Nat) (data : List Byte)
  | hostSnoop (link : Fin 4) (addr : Nat) (inval : Bool)
  | directoryRecall (link : Fin 4) (addr : Nat) (dirty : Option (List Byte))
  | lineCacheDisable (link : Fin 4) (o : Origin)
  | instMbx (part : Fin 16) (link : Fin 4) (gen opcode tag : Nat) (args : List Byte) (deferrable : Bool)
  | mailboxTake (part : Fin 16)
  | mailboxReplyWrite (part : Fin 16) (index : Nat)
  | mbxReplyHead (fn : Fn) (head : Nat)
  | mbxEcho (part : Fin 16)
  | mbxInfo (part : Fin 16)
  | mbxQuota (part : Fin 16)
  | mbxKeystat (part : Fin 16)
  | mbxHealth (part : Fin 16)
  -- partitions (R387-R408)
  | partApply (e : Entry) (part limit ptab : Nat)
  | partApplyCommit (part : Fin 16)
  | partApplyLimit (part : Fin 16) (now : Nat)
  | partReset (e : Entry) (part : Nat)
  | instanceResetComplete (part : Fin 16)
  | partFreeze (e : Entry) (part limit : Nat)
  | freezePoint (part : Fin 16) (now : Nat)
  | freezeCancel (part : Fin 16) (now : Nat)
  | partSave (e : Entry) (part addr len slot : Nat)
  | partRestore (e : Entry) (part addr len slot : Nat)
  | partThaw (e : Entry) (part : Nat)
  | partQuery (e : Entry) (part addr : Nat)
  | partAddrWrite (part : Fin 16) (o : Origin) (index : Nat) (ip vid pcp : Nat) (ven : Bool) (ports : Nat) (valid : Bool)
  | quietExpiry (part : Fin 16) (now : Nat)
  -- keys and the journal (R409-R443)
  | keySelSet (e : Entry) (sel tsel : Nat)
  | keySelClear (e : Entry) (sel : Nat)
  | keyAdvance (e : Entry) (conn : Nat)
  | keySeal (e : Entry) (slot : Nat) (ispace ospace : Bool) (src dst len : Nat)
  | keyUnseal (e : Entry) (slot : Nat) (ispace ospace : Bool) (src dst len : Nat)
  | keyStatus (e : Entry) (addr : Nat)
  | contribSet (part : Fin 16) (session kind slot : Nat) (value : Nat)
  | contribClear (part : Fin 16) (session kind slot : Nat)
  | spdmRequest (ep : SpdmEnd) (r : SpdmReq)
  | firstContactDatagram (peerIp peerDev : Nat) (ok : ContactProof) (final : Bool) (now : Nat)
  | firstContactRetry (peerIp : Nat) (now : Nat)
  | rxNextKeyDerived (fn : Fn) (conn : Nat)
  | entropyWindowEnd (ok : Bool)
  | drbgReseed (now : Nat)
  | ideIntegrityFail (link : Fin 4) (stream : Nat)
  | tdispRequest (part : Fin 16) (r : TdispReq)
  | jrnlExportWrite
  | jrnlExportVisible
  | jrnlExpHead (o : Origin) (head : Nat)
  | jrnlExpEnable (o : Origin) (value : Nat)
  | jrnlTailRead (o : Origin)
  -- failures (R444-R473)
  | portDown (port : Fin 8) (loss : PortLoss) (now : Nat)
  | portUp (port : Fin 8) (bp : Nat) (lanes : Nat)
  | orderlyFenceProceed (region : Fin 4)
  | fenceWaitExpiry (region : Fin 4) (now : Nat)
  | errFenceReq (o : Origin) (mask : Nat)
  | errFenceUnfence (o : Origin) (mask : Nat)
  | errorArrival (r : ErrReport) (strikes : CtxRef)
  | errorActionEnd (rec_ : RecRef)
  | errRecordClear (o : Origin) (rec_ : RecRef)
  | saigaWatchdogExpiry
  -- stored data (R474-R494)
  | scrubVisit (scrubber : Nat) (f : ScrubFind) (now : Nat)
  | scrubStarve (scrubber : Nat) (now : Nat)
  -- Ethernet ports and time (R495-R519)
  | frameReceive (f : Frame)
  | pauseFrameReceive (port : Fin 8) (bp quanta : Nat) (now : Nat)
  | pfcFrameReceive (port : Fin 8) (bp enables : Nat) (times : List Nat) (now : Nat)
  | pauseTimerExpiry (port : Fin 8) (bp prio : Nat) (now : Nat)
  | pfcRepeatTimer (port : Fin 8) (bp : Nat) (now : Nat)
  | overloadInterval (port : Fin 8) (bp total corr uncorr : Nat) (now : Nat)
  | shedCapReceive (port : Fin 8) (bp lanes : Nat)
  | shedSample (port : Fin 8) (bp rx : Nat) (now : Nat)
  | shedReqReceive (port : Fin 8) (bp seq lanes peerMac : Nat)
  | shedAckReceive (port : Fin 8) (bp seq : Nat)
  | shedNakReceive (port : Fin 8) (bp seq : Nat)
  | shedReqTimeout (port : Fin 8) (bp : Nat) (now : Nat)
  | shedLanesTrained (port : Fin 8) (bp : Nat)
  | shedMarkReceive (port : Fin 8) (bp : Nat)
  | shedMarkTimeout (port : Fin 8) (bp : Nat) (now : Nat)
  | moduleInsert (port : Fin 8) (power : Nat) (now : Nat)
  | moduleRemove (port : Fin 8)
  | moduleIntl (port : Fin 8) (flags : Nat)
  | portModeWrite (o : Origin) (port : Fin 8) (value : Nat)
  | fltCommit (o : Origin) (index : Nat)
  | fltRetire (index : Nat)
  | timeAdj (o : Origin) (delta : Int)
  | ptpSyncReceive (port : Fin 8) (bp domain : Nat) (offset : Int) (now : Nat)
  | timeNowRead (o : Origin)
  -- saiga, management bus, stand-alone (R520-R546)
  | saigaDoze (now : Nat)
  | saigaWake (source : Nat)
  | boot (bad : List Nat)
  | trialConfirm (now : Nat)
  | id (node seq : Nat)
  | regRead (node seq addr width session : Nat)
  | regWrite (node seq addr width value session : Nat)
  | flashWrite (node seq addr : Nat) (data : List Byte) (session : Nat)
  | imageSwitch (node seq : Nat) (restart : Bool) (session : Nat)
  | jrnlRead (node seq rec_ session : Nat)
  | healthMulticast (now : Nat)
  | telemetrySnapshot (now : Nat)
  | loadShedWindow (busy : Nat) (now : Nat)
  | mbusShortRetry (ok : MbusTry) (now : Nat)
  | mgmtModeExit (o : Origin)
  | mgmtSaEnable (o : Origin) (value : Nat)
  -- self-test (R547-R556)
  | bistRegionStart (o : Origin) (mask : Nat)
  | bistRegionEnd (region : Fin 4) (fails spares funit : Nat) (now : Nat)
  | bistChipStart (o : Origin) (bad : List Nat)
  | tapScanSelect
  -- clocks and power (R557-R582)
  | refStable (restarts : Nat)
  | refLoss
  | clkRampStep (domain : Nat)
  | clkSourceSwitch (domain : Nat)
  | pllLockLoss (pll : Nat)
  | clkDomSel (o : Origin) (value : Nat)
  | regionIdle (region : Fin 4) (now : Nat)
  | regionIdleWake (region : Fin 4)
  | regionDoze (region : Fin 4) (now : Nat)
  | regionWake (region : Fin 4)
  | railSettled (region : Fin 4) (mv : Nat)
  | powerSwitchClosed (region : Fin 4)
  | pllLocked (region : Fin 4)
  | pwrSleep (o : Origin)
  | sleepExit (source : Nat)
  | powerLimitEval (power : Nat) (now : Nat)
  | powerLimitFence (now : Nat)
  | thermalSample (temps : List Int) (now : Nat)
  | railFault (region : RailRef) (mv : Nat)
  -- the card (R583-R598)
  | perstAssert (link : Fin 4)
  | auxVoltageChange (mv : Int) (now : Nat)
  | auxUvRecover (now : Nat)
  | auxPowerLoss (now : Nat)
  | cageInsertPower (port : Fin 8) (now : Nat)
  | cageOvercurrent (port : Fin 8) (now : Nat)
  | cageRetry (port : Fin 8) (now : Nat)
  | coolantSensorRead (x : Sensors) (now : Nat)
  | coolingCapLift (now : Nat)
  -- rows of later numbers in the table
  | connRefusalReceive (rx : Rx) (fn : Fn) (kind hint : Nat) (now : Nat)
  | priReset (fn : Fn)
  | vfEnableWrite (link : Fin 4) (on : Bool)
  | atsEnableWrite (fn : Fn) (ctl : AtsCtl)
  | sleepExportTimeout (now : Nat)
  | slewAbsorbed (now : Nat)
  -- programs, TPF instructions and copies (R284-R320)
  | tpfNop (r : CopyRef)
  | tpfEnd (r : CopyRef)
  | tpfJmp (r : CopyRef)
  | tpfBr (r : CopyRef)
  | tpfLoop (r : CopyRef)
  | tpfSafepoint (r : CopyRef)
  | tpfMovi (r : CopyRef)
  | tpfAlu (r : CopyRef)
  | tpfArg (r : CopyRef)
  | tpfId (r : CopyRef)
  | tpfTime (r : CopyRef)
  | tpfExc (r : CopyRef)
  | tpfTread (r : CopyRef)
  | tpfTload (r : CopyRef)
  | tpfTstore (r : CopyRef)
  | tpfTcopy (r : CopyRef)
  | tpfTfill (r : CopyRef)
  | tpfMma (r : CopyRef)
  | tpfVop (r : CopyRef)
  | tpfVfn (r : CopyRef)
  | tpfVred (r : CopyRef)
  | tpfQuant (r : CopyRef)
  | tpfSend (r : CopyRef)
  | tpfRecv (r : CopyRef)
  | tpfTadd (r : CopyRef)
  | tpfTwait (r : CopyRef)
  | tpfTset (r : CopyRef)
  | asyncOpEnd (r : CopyRef) (op : Nat)
  | sendRetry (r : CopyRef) (op : Nat) (now : Nat)
  | peerMessageTransfer (r : CopyRef) (op : Nat)
  | copySave (r : CopyRef)
  | copyResume (r : CopyRef) (block : Nat)
  | spwaitExpiry (r : CopyRef) (now : Nat)
  deriving DecidableEq, Repr

end Sys2Proof
end

