-- ==== Sys2Proof/Decode.lean ====
section
/-!
DEFINITION. Decode.lean: the command that a word spells by the bits of spec/opcode_table.json. The table gives no row any bits (a
command's operands come as fields of ring entries, packets and registers), so no word spells a command.
-/

namespace Sys2Proof

/-- The command a word of the opcode table spells: none, since the table gives bits to no row. -/
def decodeTableWord (_nbits _w : Nat) : Option Instr := none

end Sys2Proof
end

