-- ==== Sys2Proof/Config.lean ====
section
/-!
DEFINITION. Config.lean: what one card fixes, and the values the manual leaves open. Every constant here is opaque: no proof
can see its value, so a theorem that mentions one holds whatever it is.
-/

namespace Sys2Proof.Config

/-- The n-th open value of a run: DRBG output, a hint, an unfixed order (R58, R108, R430). State.free counts them. -/
opaque freeWord : Nat → BitVec 64

/-- Byte i of the n-th run of open bytes: the layout of a saved copy, native code (R307, R315), elements of a raced tile (R294). -/
opaque freeByte : Nat → Nat → BitVec 8

/-- DEVID of this device: the first eight digest bytes, byte 0 in bits 7:0 (R409, R441). -/
opaque devId : BitVec 64

/-- CARD strap of GLB_ID: true for the engineering card TTR-8160-CE (R5, R605). -/
opaque cardIsCE : Bool

/-- MAC of breakout port k of port q in the card data (R517). -/
opaque cardMac : Nat → Nat → BitVec 48

/-- SHA-384 as a function of a byte string (R437); the spec names the standard and does not state the algorithm. -/
opaque sha384 : List Nat → BitVec 384

/-- The AES-256 block cipher: key, block (R410, R417, R431); the spec names the standard and does not state the algorithm. -/
opaque aes256 : BitVec 256 → BitVec 128 → BitVec 128

/-- Byte i of the AES-256-GCM key stream, by key and IV (R417, R427). -/
opaque gcmStream : BitVec 256 → Nat → Nat → BitVec 8

/-- The 16 tag bytes of AES-256-GCM: key, IV, additional data, ciphertext (R417, R427). -/
opaque gcmTag : BitVec 256 → Nat → List Nat → List Nat → BitVec 128

/-- The device root, fused at manufacture (R409). -/
opaque drk : BitVec 256

/-- Bytes 0 to 31 of the SPDM export master secret of the n-th first contact with a device (R411, R423). -/
opaque exportSecret : Nat → Nat → BitVec 256

/-- The SPDM message of first contact that goes to a peer's address under a sequence number (R423). -/
opaque spdmMsg : Nat → Nat → List (BitVec 8)

/-- The nonce of the n-th power-on (R411, R333). -/
opaque powerNonce : Nat → BitVec 128

/-- Bytes of a CONN extension that no rule lays out: the numbers the packet must tell, the byte's offset (R130, R416). -/
opaque connByte : List Nat → Nat → BitVec 8

/-- The MAC address that the neighbour table gives an IP address (R135). -/
opaque neighMac : Nat → BitVec 48

/-- TTL or hop limit of sent packets, the IPv6 flow label and the IPv4 identification: no rule gives them (R127). -/
opaque hopLimit : BitVec 8
opaque flowLabel : BitVec 20
opaque ipIdent : BitVec 16

/-- Card input power in W, and a cage's power in units of 10 mW, at a moment: measurements that no row carries (R597). -/
opaque cardWatts : Nat → Nat
opaque cagePower : Nat → Nat → Nat

/-- Bytes that the ingress buffer of a port has passed on between two moments of elapsed time (R178, R179). -/
opaque drained : Nat → Nat → Nat → Nat

/-- TYPE and plaintext body of the records of the n-th migration image: they are internal to the device (R404). -/
opaque imageRecs : Nat → List (Nat × List (BitVec 8))

/-- Measurement blocks 1 to 3 (R432): the block, and the mark of the running image. -/
opaque measured : Nat → Nat → BitVec 384

/-- The stack (0 or 1) that holds a 64 KiB block of DRAM: the manual does not say how addresses map to the two stacks (R476, R482). -/
opaque stackOf : Nat → Nat

/-- Where in a code area the copy of the constant pool lies, by the lengths of both: the manual does not lay the area out (R307). -/
opaque constAt : Nat → Nat → Nat

/-- EXP2 of the vector unit on FP32 bit patterns: a fixed function (R206). -/
opaque exp2 : BitVec 32 → BitVec 32

/-- LOG2 of the vector unit (R206). -/
opaque log2 : BitVec 32 → BitVec 32

/-- RCP of the vector unit (R206). -/
opaque rcp : BitVec 32 → BitVec 32

/-- RSQRT of the vector unit (R206). -/
opaque rsqrt : BitVec 32 → BitVec 32

/-- Whether the ECDSA signature of a firmware image with this content mark verifies (R524). -/
opaque imageSigned : Nat → Bool

/-- The security version of an image content (R524, R607). -/
opaque imageSvn : Nat → Nat

/-- The build number of an image content (R607). -/
opaque imageBuild : Nat → Nat

end Sys2Proof.Config
end

