-- ==== Sys2Proof/Machine/State.lean ====
section
/-!
DEFINITION. State.lean: everything the manual gives the machine, as plain data, with the reset value of each piece. Three fields
are the model's own and not the manual's: `pending` (the queue of commands), `out` (what has left the block, oldest first) and
`free` (the counter behind the open values). Setup registers of type RW are held whole, by offset, in `regs`; an offset that is
not listed holds its reset value (Regs.lean), and named accessors read their fields.
-/

namespace Sys2Proof.Machine

/-- A finite map with Nat keys, in ascending key order. -/
abbrev AMap (α : Type) := List (Nat × α)

/-! ### Faults and refusals -/

/-- Faults of a command. The block has none: every failure the manual describes is a status, an error record or a state (R7,
R462), so no meaning of this model raises one. The one constructor stands for a command that the block could not carry out. -/
inductive Fault where
  /-- Raised by no meaning. Safe: a model that stopped here would allow less than the hardware. -/
  | stopped
  deriving DecidableEq, Repr

/-- Refusals of a command. -/
inductive Refusal where
  /-- Raised by the dispatch arm of a command that has no meaning yet. Safe: the hardware goes on. -/
  | notModelled (mnemonic : String)
  deriving DecidableEq, Repr

/-! ### Packets and what leaves the block -/

/-- The extension header and kind of a TLT packet (R130, R131, R140, R152, R176, R250, R269). -/
inductive Ext where
  | data (wref roff mlen : Nat) (imm : BitVec 32) (notify : Bool)
  | readReq (wref roff len : Nat)
  | readResp (req moff : Nat)
  | atomicReq (wref roff op : Nat) (opnd1 opnd2 : Word)
  | atomicResp (req : Nat)
  | tsend (list : Nat) (rdv : Bool) (tag : Word) (mlen moff : Nat)
  | rdvReq (msn moff len : Nat)
  | rdvResp (req moff : Nat)
  | ack (x : AckExt)
  | nak (msn : Nat) (status : Status) (abandon : Bool) (detail : Nat)
  | credit (g : Grant) (backlog : Nat) (req : Bool)
  | probe
  | syn (nonce : Nat) (cchk : BitVec 64) (service handle inc : Nat) (herd : Option Nat) (resume : Option (Nat × Nat × Nat))
  | synAck (nonce handle inc : Nat) (g : Grant)
  | connAck (g : Grant)
  | connRefuse (kind hint : Nat)
  | fin
  | finAck
  | abort (cause handle inc : Nat)
  | coll (x : BulkExt)
  | kv (x : KvExt)
  | halt (mepoch cseq origin cause : Nat)
  | barrier (mepoch cseq sig srank step : Nat)
  | token (commit : Bool) (t : Token)
  deriving DecidableEq, Repr

/-- The base header of a TLT packet (R129). -/
structure BaseHdr where
  typ    : Nat
  first  : Bool
  last   : Bool
  wep    : Bool
  ackreq : Bool
  retx   : Bool
  cls    : Nat
  part   : Nat
  path   : Nat
  dconn  : Nat
  dinc   : Nat
  dgen   : Nat
  kepoch : Nat
  pctr   : Nat
  psn    : Nat
  msn    : Nat
  plen   : Nat
  tstamp : Nat
  deriving DecidableEq, Repr

/-- A TLT packet as it is sent (R127-R129, R159, R172): addresses and UDP ports, the tag's VID and PCP, DSCP and ECT(0), and the packet
itself. -/
structure Pkt where
  peerIp  : Nat
  srcIp   : Nat
  dstPort : Nat
  vid     : Option Nat
  pcp     : Nat
  dscp    : Nat
  ect     : Bool
  part    : Nat
  dconn   : Nat
  dinc    : Nat
  dgen    : Nat
  kepoch  : Nat
  pctr    : Nat
  psn     : Nat
  wep     : Bool
  msn     : Nat
  first   : Bool
  last    : Bool
  ackreq  : Bool
  retx    : Bool
  cls     : Nat
  path    : Nat
  srcPort : Nat
  tstamp  : Nat
  ext     : Ext
  payload : List Byte
  deriving DecidableEq, Repr

/-- What leaves the block; the model's own trace (DESIGN CHOICE, log 2). -/
inductive Output where
  | packet (port bp : Nat) (p : Pkt) (frame : List Byte)
  | raw (port bp : Nat) (bytes : List Byte)
  | pfc (port bp : Nat) (prio : Nat) (on : Bool)
  | shed (port bp : Nat) (frame : List Byte)
  | msix (fn vector : Nat)
  | ur (fn : Nat)
  | ca (fn : Nat)
  | errNonfatal (fn : Nat)
  | errFatal (link : Nat)
  | value (o : Origin) (off v : Nat)
  | hostRead (link tag fn addr len : Nat) (translated : Bool)
  | xlateReq (fn addr : Nat) (wr : Bool)
  | pageGroup (fn group : Nat) (reqs : List (Nat × Bool))
  | invalDone (fn tag : Nat)
  | memData (link addr : Nat) (poison : Bool) (data : List Byte)
  | memCmp (link addr : Nat)
  | biSnp (link addr : Nat)
  | snoopRsp (link addr : Nat) (dirty : Bool)
  | mbxStatus (part : Nat) (retry : Bool)
  | spdm (code : Nat) (status : Status) (hint : Nat) (value : List Nat)
  | datagram (peerIp port : Nat) (bytes : List Byte)
  | busReply (node seq : Nat) (status : Nat) (data : List Nat)
  | busMulticast (data : List Nat)
  | aer (fn code : Nat)
  | pin (name : Nat) (level : Bool)
  deriving DecidableEq, Repr

/-- An unsequenced class-7 packet that waits for selection: the connection with its incarnation, if it is one's, the path, since when it
waits, and the device it goes to. -/
structure CtlPkt where
  fn   : Nat
  part : Nat
  conn : Option (Nat × Nat)
  path : Nat
  at_  : Nat
  dev  : Nat
  pkt  : Pkt
  deriving DecidableEq, Repr

/-- ABORTs of a reset instance's connection still to be sent, each with its port, and when the last one went (R165). -/
structure AbortRpt where
  handle : Nat
  at_    : Nat
  left   : List (Nat × CtlPkt)
  deriving DecidableEq, Repr

/-! ### Rings (R45-R78) -/

/-- States of a ring pair (R61). -/
inductive RingSt where
  | free | active | paused | error | draining
  deriving DecidableEq, Repr

/-- A completion before it is written (R73). `slot` tells that the entry holds a reserved completion slot; `op` is the operation
whose in-flight entry it holds while it waits. -/
structure Compl where
  status : Status
  gen    : Nat
  tag    : BitVec 32
  sqhead : Option Nat
  bytes  : Nat
  opcode : Nat
  detail : Nat
  slot   : Bool
  time   : Nat
  tepoch : Nat
  op     : Option Nat := none
  deriving DecidableEq, Repr

/-- A receive buffer posted on a raw-frame ring (R532): operation, address, length. -/
structure RxBuf where
  op   : Nat
  addr : Nat
  len  : Nat
  deriving DecidableEq, Repr

/-- A ring pair. `cqBad` tells that its completion ring's memory was refused (R62); `flushOp` is the RING_FLUSH in progress and `flushNext` those
that wait for it. -/
structure Ring where
  state    : RingSt := .free
  sqLog    : Nat := 0
  cqLog    : Nat := 0
  cls      : Nat := 0
  sqBase   : Nat := 0
  cqBase   : Nat := 0
  head     : Nat := 0
  phase    : Bool := true
  tail     : Nat := 0
  scan     : Bool := false
  lap      : Option Nat := none
  cache    : AMap (List Byte) := []
  sqPark   : Option Nat := none
  cqTail   : Nat := 0
  cqPhase  : Bool := true
  cqHead   : Nat := 0
  reserved : Nat := 0
  waiting  : List Compl := []
  cqPark   : Option Nat := none
  cqBad    : Bool := false
  parkTries : Nat := 0
  armed    : Bool := false
  armedN   : Nat := 0
  armedAt  : Option Nat := none
  count    : Nat := 1
  time     : Nat := 0
  fence    : Option Nat := none
  badEnds  : Nat := 0
  flushOp  : Option Nat := none
  flushNext : List Nat := []
  flushed  : Nat := 0
  destroy  : Option Nat := none
  raw      : Bool := false
  rxbufs   : List RxBuf := []
  bell     : Option Nat := none
  deriving DecidableEq, Repr

/-- A doorbell group (R70, R71) with the vector of DBG_CFG. -/
structure Dbg where
  pend   : Nat := 0
  mask   : Nat := 0
  evt    : Nat := 0
  emask  : Nat := 0xFFFFFFFF
  vector : Nat := 0
  deriving DecidableEq, Repr

/-- A register fence still pending (R363, R364): the operations it covers that have not ended. -/
structure RegFence where
  token     : Nat
  remoteVis : Bool
  vector    : Nat
  irq       : Bool
  covered   : List Nat
  deriving DecidableEq, Repr

/-- A further channel of an operation that waits for a page (R343): the page, whether it is to be written, how often it was requested, and
whether its interim FAULTED is written (R346). -/
structure ChanPark where
  page    : Nat
  wr      : Bool
  tries   : Nat := 0
  faulted : Bool := false
  deriving DecidableEq, Repr

/-- An operation in flight (R75, R78). `park`, `tries` and `faulted` are of its channel that waits for a page, `chans` the further ones that do (R343). `cmd` is its command, run again when a page it waits for is resolved; an armed request's is
its embedded operation's. -/
structure Op where
  id      : Nat
  gen     : Nat
  ring    : Nat
  tag     : BitVec 32
  opcode  : Nat
  cmd     : Instr
  slot    : Bool := true
  ltally  : Option Nat := none
  placed  : Nat := 0
  need    : Nat := 0
  late    : Bool := false
  degraded : Bool := false
  effect  : Bool := false
  waiting : Bool := false
  conn    : Option Nat := none
  msn     : Option Nat := none
  park    : Option (Nat × Bool) := none
  tries   : Nat := 0
  faulted : Bool := false
  chans   : List ChanPark := []
  covered : List Nat := []
  bad     : Nat := 0
  aux     : List Nat := []
  deriving DecidableEq, Repr

/-! ### Tallies, windows, match lists, armed requests (R79-R126) -/

/-- A tally (R115): its count, and whether an uncorrectable error has struck it (R488). -/
structure Tally where
  count : Nat
  bad   : Bool := false
  deriving DecidableEq, Repr

/-- States of a window index (R98). -/
inductive WinSt where
  | closed | open_ | closing
  deriving DecidableEq, Repr

/-- A memory window (R95-R98). `closedSeq` orders closings; `revoke` is the pending WIN_REVOKE. -/
structure Win where
  state     : WinSt := .closed
  incarn    : Nat := 0
  base      : Nat := 0
  length    : Nat := 0
  rd        : Bool := false
  wr        : Bool := false
  atom      : Bool := false
  notify    : Bool := false
  slice     : Bool := false
  nring     : Nat := 0
  scope     : Option Nat := none
  btally    : Option Nat := none
  places    : Nat := 0
  refused   : Nat := 0
  revoke    : Option Nat := none
  closedSeq : Nat := 0
  poisoned  : Bool := false
  deriving DecidableEq, Repr

/-- Where a matched message is delivered: a TRECV's or armed request's operation, or a RECV of a program copy (launch, copy,
operation). -/
inductive RecvTo where
  | op (id : Nat) (info : Nat) (armed : Bool)
  | prog (launch copy op : Nat)
  deriving DecidableEq, Repr

/-- A posted receive (R104-R106). `src` none matches any connection. -/
structure Posted where
  to_    : RecvTo
  ctag   : BitVec 32
  src    : Option Nat
  laddr  : Nat
  len    : Nat
  slice  : Bool
  tag    : Word
  ignore : Word
  deriving DecidableEq, Repr

/-- A message of the unexpected queue (R107): connection, MSN, tag, length, and its data when it is eager. -/
structure Unexp where
  conn : Nat
  msn  : Nat
  tag  : Word
  len  : Nat
  rdv  : Bool
  data : List Byte
  deriving DecidableEq, Repr

/-- A match list (R102); `bound` holds messages matched to a receive (by its operation) whose copy out of eager space is parked
(R343); `wait` holds messages that have passed the watermark, each with its place in the order of arrivals, until those that reached the
function before them have met the list (R106). -/
structure MList where
  uq     : Nat
  posted : List Posted := []
  unexp  : List Unexp := []
  bound  : AMap Unexp := []
  wait   : List (Nat × Unexp) := []
  deriving DecidableEq, Repr

/-- An armed request that is WAITING (R119-R123), by its operation; `emb` is the embedded operation's command. -/
structure Armed where
  op     : Nat
  trig   : Trigger
  emb    : Instr
  opcode : Nat
  seq    : Nat
  deriving DecidableEq, Repr

/-! ### Connections (R133-R166) -/

/-- States of a connection (R134). -/
inductive ConnSt where
  | free | connecting | slowpath | established | rekey | closing | lost | exhausted
  deriving DecidableEq, Repr

/-- Where the payload of an outgoing message comes from (R154): memory of this function (slice or host) or bytes the device holds
(replay area, registers, a tile). Bytes that stop short of the message's length stop at a poisoned granule (R491). -/
inductive Src where
  | none
  | mem (slice : Bool) (addr : Nat)
  | gather (slice : Bool) (pieces : List (Nat × Nat))
  | bytes (l : List Byte)
  deriving DecidableEq, Repr

/-- What a message is for, beyond its header: nothing more, an operation of this end, a window served (R87, R154), an attention
feed, a collective chunk, a program send. -/
inductive MsgFor where
  | op (id : Nat)
  | serve (win : Nat) (req : Nat)
  | rdv (tsend req : Nat)
  | nak
  | feed (id : Nat)
  | coll (herd : Nat) (chunk : Nat)
  | prog (launch copy op : Nat)
  deriving DecidableEq, Repr

/-- An outgoing message: its kind (the extension of its first packet), length, source, and
how far it has been cut into packets. `pkts` gives
the lengths and extensions of the packets still to come where they are not PMTU pieces (R250, R268). -/
structure SendMsg where
  msn    : Nat
  ext    : Ext
  len    : Nat
  src    : Src
  for_   : MsgFor
  pkts   : List (Nat × Ext) := []
  off    : Nat := 0
  begun  : Bool := false
  park   : Option Nat := none
  tries  : Nat := 0
  deriving DecidableEq, Repr

/-- A sequenced packet sent and not yet acknowledged (R152-R155). `xpsn` is the extended number (R144); `out` tells that its cost
is charged (R173); `lost` that it waits to be sent again; `idx` is the order of transmissions. -/
structure Sent where
  xpsn    : Nat
  msn     : Nat
  ext     : Ext
  src     : Src
  plen    : Nat
  first   : Bool
  last    : Bool
  cost    : Nat
  path    : Nat
  port    : Nat
  idx     : Nat
  later   : Nat := 0
  at_     : Nat
  rto     : Nat
  out     : Bool := true
  lost    : Bool := false
  acked   : Bool := false
  retx    : Bool := false
  for_    : MsgFor
  deriving DecidableEq, Repr

/-- An inbound message (R86, R87, R149): its kind by `ext` of its first packet, first PSN and packet count in extended numbers, how
many bytes and packets have been placed, whether it was refused or abandoned, and the TSEND data held for it. `arr` numbers the arrivals of first
packets at the function (R106); `nring` and `btally` are those of the window that admitted it (R90, R91). -/
structure InMsg where
  msn    : Nat
  ext    : Ext
  first  : Nat
  npk    : Nat
  got    : Nat := 0
  placed : Nat := 0
  status : Status := .ok
  hint   : Nat := 0
  aband  : Bool := false
  passed : Bool := false
  held   : Bool := false
  park   : Option (Nat × Bool) := none
  data   : AMap (List Byte) := []
  posted : Option Posted := none
  tries  : Nat := 0
  arr    : Nat := 0
  nring  : Nat := 0
  btally : Option Nat := none
  deriving DecidableEq, Repr

/-- A path of a connection (R159-R161). -/
structure Path where
  strikes : Nat := 0
  incl    : Bool := true
  carried : Nat := 0
  lost    : Nat := 0
  acked   : Nat := 0
  ces     : Nat := 0
  acks    : Nat := 0
  probeAt : Nat := 0
  probeTs : Option Nat := none
  good    : Nat := 0
  downed  : Bool := false
  deriving DecidableEq, Repr

/-- Identity and set-up of a connection (R133-R140, R411-R416); `nring` is where its accept completion goes (R138). -/
structure ConnId where
  inc      : Nat := 0
  init     : Bool := false
  op       : Option Nat := none
  cause    : Nat := 0
  peerIp   : Nat := 0
  peerPort : Nat := 0
  peerPart : Nat := 0
  peerConn : Nat := 0
  peerInc  : Nat := 0
  peerGen  : Nat := 0
  peerDev  : Nat := 0
  service  : Nat := 0
  pmtu     : Nat := 0
  cls      : Nat := 0
  ports    : Nat := 0
  paths    : Nat := 1
  vid      : Nat := 0
  pcp      : Nat := 0
  ven      : Bool := false
  laddrIdx : Nat := 0
  tsel     : Nat := 0xFF
  tc       : Option Nat := none
  nonce    : Nat := 0
  peerNonce : Nat := 0
  spbase   : Nat := 0
  herd     : Option (Nat × Nat) := none
  nring    : Option Nat := none
  resume   : Bool := false
  port0    : Nat := 0
  deriving DecidableEq, Repr

/-- The sending side of a connection. -/
structure ConnTx where
  kepoch  : Nat := 0
  pctr    : Nat := 0
  una     : Nat := 0
  nxt     : Nat := 0
  msn     : Nat := 0
  sendq   : List SendMsg := []
  sent    : List Sent := []
  idx     : Nat := 0
  gwin    : Nat := 0
  gseq    : Nat := 0
  stop    : Bool := false
  stopped : Bool := false
  rr      : Nat := 0
  paths   : AMap Path := []
  srtt    : Nat := 0
  retx    : Nat := 0
  intervalAt : Nat := 0
  finSent : Bool := false
  finAckSent : Bool := false
  reqAt   : Nat := 0
  grantAt : Nat := 0
  poisoned : List (Nat × Bool) := []
  deriving DecidableEq, Repr

/-- The receiving side of a connection. `ports` masks the ports by which its packets have arrived. -/
structure ConnRx where
  epoch    : Nat := 0
  nextKey  : Nat := 0
  prev     : Bool := false
  base     : Nat := 0
  top      : Nat := 0
  got      : List Nat := []
  msgs     : List InMsg := []
  sinceAck : Nat := 0
  firstAt  : Option Nat := none
  lastTs   : Nat := 0
  lastPath : Nat := 0
  cemap    : Nat := 0
  outside  : Nat := 0
  gwin     : Nat := 0
  gseq     : Nat := 0
  gstop    : Bool := false
  sentWin  : Nat := 0
  sentStop : Bool := false
  changeAt : Option Nat := none
  activeAt : Option Nat := none
  ports    : Nat := 0
  finRcvd  : Bool := false
  finAckRcvd : Bool := false
  naks     : List (Nat × Status × Nat) := []
  deriving DecidableEq, Repr

/-- Timers of a connection, in elapsed time. `susp` is since when LOST_TIME is suspended (R180). -/
structure ConnTm where
  susp     : Option Nat := none
  progress : Nat := 0
  receipt  : Nat := 0
  synAt    : Nat := 0
  synWait  : Nat := 0
  synFirst : Nat := 0
  synPath  : Nat := 0
  probeAt  : Nat := 0
  abortAt  : Nat := 0
  deriving DecidableEq, Repr

/-- A connection context. -/
structure Conn where
  state  : ConnSt := .free
  cid    : ConnId := {}
  tx     : ConnTx := {}
  rx     : ConnRx := {}
  tm     : ConnTm := {}
  closes : List Nat := []
  freedSeq : Nat := 0
  deriving DecidableEq, Repr

/-- A listener (R138). -/
structure Listener where
  service  : Nat
  laddrIdx : Nat
  nring    : Nat
  maxConn  : Nat
  deriving DecidableEq, Repr


/-- Stops set by Q_STOP on a function (R198). -/
structure Stops where
  conns : List Nat := []
  cls   : Nat := 0
  all   : Bool := false
  deriving DecidableEq, Repr

/-! ### Translation and page requests of one function (R335-R349) -/

/-- A page request group that is outstanding (R340, R341). -/
structure PriGroup where
  index : Nat
  gen   : Nat
  reqs  : List (Nat × Bool)
  sentAt : Nat
  tmo   : Nat
  deriving DecidableEq, Repr

/-- A function's ATS and PRI state. `cap` is the ATS capability: Invalidate Queue Depth 0 in bits 4:0, Page Aligned Request in bit 5 (R335); `stu` the
smallest translation unit that the host has set, 4,096 · 2^STU bytes; `ur` the pages whose Untranslated reads the host completes with Unsupported
Request or Completer Abort (R336). `reqs` are Translation Requests outstanding; `batch` is the open batch with its opening time and the MEM_PRI_CFG it
opened under (R354), `closed` the closed batches that wait, with theirs; `invals` the Invalidate Requests not yet completed. -/
structure Ats where
  cap     : Nat := 32
  stu     : Nat := 0
  ur      : List Nat := []
  enable  : Bool := false
  pri     : Bool := false
  stopped : Bool := false
  alloc   : Nat := 512
  reqs    : List (Nat × Bool) := []
  batch   : List (Nat × Bool) := []
  batchAt : Nat := 0
  batchCfg : Nat := 0
  closed  : List (Nat × List (Nat × Bool)) := []
  groups  : List PriGroup := []
  invals  : List (Nat × Nat × Nat) := []
  deriving DecidableEq, Repr

/-! ### Mailbox (R370-R376) -/

/-- A mailbox message (R371). -/
structure MbxMsg where
  cmd  : Nat
  gen  : Nat
  tag  : Nat
  args : List Byte
  deriving DecidableEq, Repr

/-- A reply not yet written (R375). -/
structure MbxReply where
  status : Status
  cmd    : Nat
  gen    : Nat
  tag    : Nat
  detail : Nat
  result : List Nat
  deriving DecidableEq, Repr

/-- An instance's mailbox. `queue` holds accepted messages not yet taken, `taken` the one being served, `replies` those answered. -/
structure Mbx where
  rbase   : Nat := 0
  rlog    : Nat := 0
  vector  : Nat := 0
  head    : Nat := 0
  tail    : Nat := 0
  phase   : Bool := true
  queue   : List MbxMsg := []
  taken   : Option MbxMsg := none
  replies : List MbxReply := []
  park    : Option Nat := none
  tries   : Nat := 0
  defers  : Nat := 0
  drops   : Nat := 0
  stale   : Nat := 0
  deriving DecidableEq, Repr

/-- Counters of a function's telemetry that the manual names (R69, R75, R95, R613, R128, R145, R163, R271). -/
structure FnCnt where
  bellsDropped : Nat := 0
  complDropped : Nat := 0
  faultedOmit  : Nat := 0
  notifyDrop   : Nat := 0
  barDrop      : Nat := 0
  stalePkts    : Nat := 0
  class7       : Nat := 0
  oldEpoch     : Nat := 0
  unmatched    : Nat := 0
  slotMiss     : Nat := 0
  deriving DecidableEq, Repr

/-- The journal record of STATE completions of one ring pair and opcode while it gathers (R64). -/
structure StateRec where
  fn     : Nat
  ring   : Nat
  opcode : Nat
  tag    : BitVec 32
  time   : Nat
  tepoch : Nat
  count  : Nat
  at_    : Nat
  deriving DecidableEq, Repr

/-! ### Partitions (R387-R408) -/

/-- A partition record (R388). -/
structure PartRec where
  blks     : Nat := 0
  rings    : Nat := 0
  herds    : Nat := 0
  tallies  : Nat := 0
  conns    : Nat := 0
  windows  : Nat := 0
  precv    : Nat := 0
  inflight : Nat := 0
  sbase    : Nat := 0
  spages   : Nat := 0
  replay   : Nat := 0
  atc      : Nat := 0
  link     : Nat := 0
  ports    : Nat := 0
  share    : Nat := 0
  deriving DecidableEq, Repr

/-- An address entry (R389). -/
structure AddrEntry where
  ip    : Nat := 0
  vid   : Nat := 0
  pcp   : Nat := 0
  ven   : Bool := false
  ports : Nat := 0
  valid : Bool := false
  deriving DecidableEq, Repr

/-- Partition states (R397). -/
inductive PartSt where
  | empty | active | resizing | resetting | freezing | frozen | restoring
  deriving DecidableEq, Repr

/-- A PART_APPLY in progress (R393-R396): its record, the page entries it brings, the function and operation that posted it, and
when LIMIT passes. -/
structure Applying where
  rec_    : PartRec
  pages   : List Nat
  fn      : Nat
  op      : Nat
  limitAt : Nat
  release : Bool
  ptab    : Bool
  wasEmpty : Bool
  deriving DecidableEq, Repr

/-- A PART_FREEZE in progress (R399, R400). -/
structure Freezing where
  fn      : Nat
  op      : Nat
  limitAt : Nat
  drainAt : Nat
  deriving DecidableEq, Repr

/-- A tenant contribution slot (R413, R427). -/
structure Slot where
  value : Option Nat := none
  spent : Bool := false
  seals : Nat := 0
  deriving DecidableEq, Repr

/-- A partition. -/
structure Part where
  state    : PartSt := .empty
  clean    : Bool := false
  saved    : Bool := false
  cur      : PartRec := {}
  addrs    : AMap AddrEntry := []
  apply    : Option Applying := none
  freeze   : Option Freezing := none
  newGen   : Option Nat := none
  release  : Bool := false
  noAbort  : Bool := false
  quietTil : Nat := 0
  formerIps : List (Nat × Nat × Bool × Nat) := []
  slots    : AMap Slot := []
  mslots   : AMap Slot := []
  tdi      : Nat := 0
  lockedBy : Option Nat := none
  neigh    : List Nat := []
  flr      : Bool := false
  restoreOp : Option (Nat × Nat) := none
  restored : Bool := false
  imgLen   : Nat := 0
  imgSeed  : Nat := 0
  deriving DecidableEq, Repr

/-! ### Memory (R321-R354, R474-R494) -/

/-- A slice page table entry (R326). -/
structure PageEnt where
  valid : Bool := false
  host  : Bool := false
  rk    : Bool := false
  ksel  : Nat := 0
  ppn   : Nat := 0
  part  : Nat := 0
  deriving DecidableEq, Repr

/-- A page under re-encryption (R352): entry, new selector, operation. -/
structure Rekey where
  page : Nat
  ksel : Nat
  fn   : Nat
  op   : Nat
  deriving DecidableEq, Repr

/-- A translation cache entry (R337); least recently used first. -/
structure AtcEnt where
  fn   : Nat
  gen  : Nat
  addr : Nat
  size : Nat
  r    : Bool
  w    : Bool
  deriving DecidableEq, Repr

/-- A scrubber's state (R483-R485, R494). -/
structure Scrub where
  last    : Nat := 0
  cur     : Nat := 0
  urgent  : Bool := false
  urgLaps : Nat := 0
  ue      : Nat := 0
  ce      : Nat := 0
  next    : Nat := 0
  lapAt   : Nat := 0
  woke    : Option Nat := none
  deriving DecidableEq, Repr

/-- A line of host memory in the line cache (R365), tagged with its link. -/
structure Line where
  link : Nat
  fn   : Nat
  addr : Nat
  dirty : Bool
  deriving DecidableEq, Repr

/-- Device memory and everything that guards it. `bytes` is the one memory of the model: key space · 2^64 + address.
`spares` are the words that each macro's spare table has remapped, in order of its entries (R480).
`lines` is the line cache of the chip, least recently used first; `devKey` is the power-on whose nonce the device key comes from (R333),
`powerOns` counts power-ons. -/
structure Mem where
  bytes   : List Host.Cell := []
  poison  : List Nat := []
  pages   : AMap PageEnt := []
  rekeys  : List Rekey := []
  keys    : AMap (Option Nat × Nat) := []
  devKey  : Option Nat := some 0
  powerOns : Nat := 0
  drk     : Bool := true
  touched : List Nat := []
  atc     : List AtcEnt := []
  batches : Nat := 0
  timeouts : Nat := 0
  stale   : Nat := 0
  refused : Nat := 0
  scrubs  : AMap Scrub := []
  spares  : AMap (List Nat) := []
  dir     : List (Nat × Nat) := []
  lines   : List Line := []
  deriving DecidableEq, Repr

/-! ### Host links (R355-R386) -/

/-- A host read outstanding (R380, R382): what its data is for. -/
structure HRead where
  tag    : Nat
  fn     : Nat
  gen    : Nat
  addr   : Nat
  len    : Nat
  at_    : Nat
  port   : Nat
  fifo   : Nat
  timed  : Bool := false
  deriving DecidableEq, Repr

/-- A host link. `detect` tells that it may leave Detect. -/
structure Link where
  up       : Bool := false
  speed    : Nat := 0
  width    : Nat := 0
  cxl      : Bool := false
  vfEnable : Bool := false
  detect   : Bool := true
  perst    : Bool := false
  disabled : Bool := false
  mbxDrops : Nat := 0
  mbxUr    : Nat := 0
  memRef   : Nat := 0
  staleCpl : Nat := 0
  cto      : Nat := 0
  reads    : List HRead := []
  nextTag  : Nat := 0
  ideBad   : List Nat := []
  ideKeys  : List Nat := []
  deriving DecidableEq, Repr

/-! ### Mesh circuits (R31, R32, R36) -/

/-- A circuit: source region, destination region, branches, units, owner. -/
structure Circuit where
  src   : Nat
  dst   : Nat
  branches : List Nat
  units : Nat
  owner : Nat × Nat × Nat
  deriving DecidableEq, Repr

/-- The counters of a router port (R37): by virtual channel, in the order control, request, response, bulk, and the stall cycles. -/
structure MeshPort where
  sent  : List Nat := [0, 0, 0, 0]
  rcvd  : List Nat := [0, 0, 0, 0]
  depth : List Nat := [0, 0, 0, 0]
  high  : List Nat := [0, 0, 0, 0]
  stall : Nat := 0
  deriving DecidableEq, Repr

/-- The mesh. `ports` are the router ports' counters, 35 for each region, as the telemetry read port last saw them. -/
structure Mesh where
  circs   : List Circuit := []
  peak    : Nat := 0
  refused : Nat := 0
  ports   : AMap MeshPort := []
  deriving DecidableEq, Repr

/-! ### Scheduler and ports (R169-R202, R495-R519) -/

/-- A packet selected and not yet transmitted (R181). `ready` tells that its data has been fetched; `key` and `ntype` are its key and the
NTYPE of its IV (R417). -/
structure FifoPkt where
  fn     : Nat
  conn   : Option Nat
  part   : Nat
  cls    : Nat
  bytes  : Nat
  seq    : Nat
  id     : Nat
  ready  : Bool
  poison : Bool := false
  waited : Bool := false
  pkt    : Option Pkt
  raw    : Option (Nat × List Byte) := none
  bp     : Nat
  dev    : Nat := 0
  key    : BitVec 256 := 0
  ntype  : Nat := 0
  deriving DecidableEq, Repr


/-- A raw frame that waits for selection (R172, R531): its operation, class, port and bytes. -/
structure RawPkt where
  fn    : Nat
  op    : Nat
  cls   : Nat
  part  : Nat
  bp    : Nat
  bytes : List Byte
  deriving DecidableEq, Repr

/-- Buckets of one class queue (R183, R184), in whole bytes with the remainder kept in `rem`; times of R186; and its last
sample (R189, R199): head delay, largest delay, depth, colour and flags. -/
structure ClsQ where
  c     : Nat := 65536
  p     : Nat := 65536
  crem  : Nat := 0
  prem  : Nat := 0
  at_   : Nat := 0
  since : Option Nat := none
  escal : Option Nat := none
  head  : Nat := 0
  largest : Nat := 0
  depth : Nat := 0
  col   : Nat := 3
  flags : Nat := 0
  rr    : Nat := 0
  deriving DecidableEq, Repr

/-- A gate-list entry (R197). -/
structure Gate where
  dur  : Nat
  mask : Nat
  deriving DecidableEq, Repr

/-- A pending gate list (R193). -/
structure GatePend where
  list  : List Gate
  at_   : Nat
  start : Nat
  fn    : Nat
  op    : Nat
  late  : Bool
  deriving DecidableEq, Repr

/-- A breakout port (R496-R511). `dropped` counts frames dropped without a counter of their own; `samp…` and `ms…` hold the 100 µs and the
1 ms sample of R510; `belowAt` is since when every 1 ms sample has been below DOWN. -/
structure Bp where
  up       : Bool := false
  degraded : Bool := false
  lanes    : Nat := 0
  training : Bool := false
  shedPeer : Bool := false
  pauseAll : Nat := 0
  pauseEnd : AMap Nat := []
  pfcOn    : Bool := false
  pfcAt    : Nat := 0
  overs     : Nat := 0
  clear    : Nat := 0
  sheds    : Nat := 0
  corr     : Nat := 0
  uncorr   : Nat := 0
  degrades : Nat := 0
  shedSeq  : Nat := 0
  shedReq  : Option (Nat × Nat × Nat) := none
  target   : Option Nat := none
  trained  : Bool := false
  markSent : Bool := false
  markRcvd : Bool := false
  markAt   : Nat := 0
  belowAt  : Option Nat := none
  holdTil  : Nat := 0
  sagaN    : Nat := 0
  sagaAt   : Nat := 0
  sentBytes : Nat := 0
  upAt     : Nat := 0
  dropped  : Nat := 0
  alarm    : Bool := false
  sampAt   : Nat := 0
  sampTx   : Nat := 0
  sampSel  : Nat := 0
  msAt     : Nat := 0
  msTx     : Nat := 0
  msRx     : Nat := 0
  markSeq  : Nat := 0
  deriving DecidableEq, Repr

/-- An Ethernet port. `ingress` is what the ingress buffer held at `ingAt`, `ingMax` the most it held in the present grant interval (R178). -/
structure Port where
  mode     : Nat := 0
  bps      : AMap Bp := []
  noMatch  : Nat := 0
  saigaDrop : Nat := 0
  ctl      : List CtlPkt := []
  raws     : List RawPkt := []
  fifo     : List FifoPkt := []
  fifoId   : Nat := 0
  stopped  : Bool := false
  ingress  : Nat := 0
  ingAt    : Nat := 0
  ingMax   : Nat := 0
  ingDrop  : Nat := 0
  gates    : List Gate := []
  running  : Bool := false
  anchor   : Nat := 0
  cursor   : Nat := 0
  pend     : Option GatePend := none
  overrun  : Nat := 0
  waits    : Nat := 0
  holdTil  : Nat := 0
  cls7At   : Nat := 0
  rr7      : Nat := 0
  txFrames : Nat := 0
  rxFrames : Nat := 0
  defC     : AMap Nat := []
  defP     : AMap Nat := []
  deriving DecidableEq, Repr

/-- The scheduler's chip-wide state. `full` masks the ports whose ingress buffer has been full in the present grant interval (R179). -/
structure Sched where
  full     : Nat := 0
  pool     : Nat := 32768
  grantAt  : Nat := 0
  sampleAt : Nat := 0
  rr       : AMap Nat := []
  queues   : AMap ClsQ := []
  seq      : Nat := 0
  deriving DecidableEq, Repr

/-! ### Time (R513-R519) -/

/-- `slew` is what is left of a slew and `slewRes` the elapsed time since its last nanosecond; `stepAt` is when the last step was, in elapsed
time. -/
structure Clock where
  elapsed : Nat := 0
  time    : Nat := 0
  tepoch  : Nat := 0
  latched : Nat := 0
  slew    : Int := 0
  residue : Int := 0
  steps   : Nat := 0
  locked  : Bool := false
  freq    : Int := 0
  good    : Nat := 0
  slewRes : Nat := 0
  stepAt  : Option Nat := none
  deriving DecidableEq, Repr

/-! ### Security and the journal (R409-R443) -/

/-- A device entry of the peer-key table (R424): `txCtr` is the pair counter of what this device sends (R417), `sess` the first contact
that made the pair root. -/
structure Peer where
  dev   : Nat
  root  : Bool := true
  used  : Nat := 0
  txCtr : Nat := 0
  sess  : Nat := 0
  deriving DecidableEq, Repr

/-- A first-contact exchange in progress (R423); `mine` tells that this device started it. -/
structure Contact where
  ip    : Nat
  tries : Nat
  at_   : Nat
  seq   : Nat
  mine  : Bool := true
  deriving DecidableEq, Repr

/-- A key derivation that an oryx block has still to make (R43): of an epoch advance or of a connection's set-up, for its sending or its
receiving direction. -/
structure Deriv where
  epoch : Bool
  fn    : Nat
  conn  : Nat
  rx    : Bool
  deriving DecidableEq, Repr

/-- Security state; `derive` are the derivations waiting at each oryx block, in arrival order (R43), `badWins` counts the entropy windows discarded (R431), `selfCtr` is the pair counter of the self pair (R409, R417). -/
structure Sec where
  drbg     : Nat := 0
  selfCtr  : Nat := 0
  derive   : AMap (List Deriv) := []
  authFail : Nat := 0
  oldEpoch : Nat := 0
  epochAdv : Nat := 0
  peers    : List Peer := []
  maps     : List (Nat × Nat) := []
  contacts : List Contact := []
  reqs     : Nat := 0
  reseedAt : Nat := 0
  badRun   : Nat := 0
  badWins  : Nat := 0
  failed   : Bool := false
  sessions : List (SpdmEnd × Nat) := []
  nextSess : Nat := 1
  deriving DecidableEq, Repr

/-- The body of a journal record (R438). -/
inductive JBody where
  | boot (nonce image svn : Nat)
  | setup (off width : Nat) (ignored : Bool) (old new : Nat)
  | partcmd (opcode part : Nat) (status : Status) (digest : Nat)
  | key (sub part slot : Nat) (status : Status) (conn kepoch dir kind dev salt : Nat)
  | state (ring opcode : Nat) (tag : BitVec 32)
  | fw (action : Nat) (info : Nat)
  | link (event link fn : Nat)
  | error (level sev unit syn : Nat)
  | time (delta : Int) (tepoch : Nat)
  deriving DecidableEq, Repr

/-- A journal record (R436). -/
structure JRec where
  seq    : Nat
  time   : Nat
  tepoch : Nat
  origin : Origin
  mixed  : Bool := false
  final  : Bool := false
  count  : Nat := 1
  body   : JBody
  chain  : BitVec 384 := 0
  bad    : Bool := false
  deriving DecidableEq, Repr

structure Jrnl where
  recs     : List JRec := []
  next     : Nat := 0
  chain    : BitVec 384 := 0
  exported : Nat := 0
  written  : Nat := 0
  park     : Option Nat := none
  tries    : Nat := 0
  counting : List JRec := []
  gather   : List StateRec := []
  refused  : Nat := 0
  experr   : Bool := false
  retry    : Bool := false
  latched  : BitVec 384 := 0
  signal   : Bool := false
  deriving DecidableEq, Repr

/-! ### Errors (R464-R473) -/

/-- An action that a record runs or holds (R468). -/
structure ErrAct where
  sev  : Nat
  unit : Nat
  syn  : Nat
  deriving DecidableEq, Repr

/-- An error record (R467). `run` is the action in progress, `waits` those waiting, `pre` those pre-empted. -/
structure ErrRec where
  valid  : Bool := false
  nested : Bool := false
  sev    : Nat := 0
  maxsev : Nat := 0
  count  : Nat := 0
  funit  : Nat := 0
  punit  : Nat := 0
  fsynd  : Nat := 0
  ftime  : Nat := 0
  psynd  : Nat := 0
  ptime  : Nat := 0
  run    : Option ErrAct := none
  waits  : List ErrAct := []
  deriving DecidableEq, Repr

/-- A fence of a region in progress or in force (R457-R461). -/
structure Fence where
  full      : Bool := false
  immediate : Bool := false
  since     : Nat := 0
  causes    : List Nat := []
  done      : Bool := false
  deriving DecidableEq, Repr

/-- Error state of the chip. `inbox` holds reports on their way to a record (R26); `hangs` the IBEX_HANG times of each region. -/
structure Errs where
  recs   : AMap ErrRec := []
  cells  : AMap ErrRec := []
  inbox  : List ErrReport := []
  fences : AMap Fence := []
  tested : List Nat := []
  hangs  : List (Nat × Nat × Nat) := []
  fatal  : Bool := false
  deriving DecidableEq, Repr

/-! ### Tiles (R290) -/

/-- The contents of a tile: element codes row by row and, for an MX format, the scale of each block of 32. `none` carries poison
(R208). -/
structure Tile where
  data   : List (Option Nat)
  scales : List (Option Nat) := []
  deriving DecidableEq, Repr

/-! ### Herds (R232-R256, R447-R456) -/

/-- States of a herd (R238). -/
inductive HerdSt where
  | free | forming | ready | running | reforming | broken | draining
  deriving DecidableEq, Repr

/-- An entry of the member table (R235). -/
structure Memb where
  ip    : Nat
  port  : Nat
  group : Nat
  deriving DecidableEq, Repr

/-- Data of one element range that a member has received for a piece (R250): element offset, elements, payload, its format and escapes (R225). -/
structure Got where
  eoff  : Nat
  nelem : Nat
  data  : List Byte
  pfmt  : Nat
  exact : Bool
  esc0  : Nat
  nesc  : Nat
  deriving DecidableEq, Repr

/-- A run of elements of one chunk with one route: `kids` send their partials here, `up` gets this member's, `from_` sends the final,
`down` get it (R245, R247). `lo` is the offset on the wire, `src` and `dst` where the run lies in SRC and DST. `got` holds what each
rank has sent of a partial, `fin` what has come of the final, `final` the payload of the final once it is whole and `ffmt` its format, `acked` that the
successor has acknowledged it (R254). `upStep` and `downStep` are STEP of what goes up and down, where R245 numbers the steps. -/
structure Piece where
  id      : Nat
  chunk   : Nat
  lo      : Nat
  n       : Nat
  src     : Nat
  dst     : Nat
  kids    : List Nat
  up      : Option Nat
  from_   : Option Nat
  down    : List Nat
  want    : Bool
  upStep  : Option Nat := none
  downStep : Option Nat := none
  got     : AMap (List Got) := []
  fin     : List Got := []
  sentUp  : Bool := false
  final   : Option (List Byte) := none
  ffmt    : Nat := 0
  sentDown : Bool := false
  acked   : Bool := false
  written : Bool := false
  deriving DecidableEq, Repr

/-- A collective of a herd (R240-R258) that is running or waits. `owners` are the original ranks at its start, which own the blocks of
SRC and DST; `epochs` are the entries of its record (R255); `rows` what dispatch and combine have received of each owner, `rowsOut`
the owners whose rows are still to be sent; `tokens` the barrier tokens; `cur` is CUR of the
residual region (R228); `wrote` tells that some byte of DST has been written, `bytes` how many hold their value (R243, R255). -/
structure Coll where
  op      : Nat
  opcode  : Nat
  body    : CollBody
  cseq    : Nat := 0
  sig     : Nat := 0
  alg     : Nat := 0
  clog    : Nat := 0
  owners  : List Nat := []
  epochs  : List (Nat × Nat × Nat) := []
  reforms : Nat := 0
  chunks  : Nat := 0
  pieces  : List Piece := []
  ptDone  : Nat := 0
  bytes   : Nat := 0
  wrote   : Bool := false
  tokens  : List Nat := []
  upSent  : Bool := false
  downSent : Bool := false
  rows    : AMap (List Got) := []
  rowsOut : List Nat := []
  rowsPut : Bool := false
  cur     : Nat := 0
  deriving DecidableEq, Repr

/-- A herd packet held in the work area (R243, R450). -/
structure HeldPkt where
  conn    : Nat
  x       : BulkExt
  token   : Option (Bool × Token)
  payload : List Byte
  deriving DecidableEq, Repr

/-- A herd at this member. `conns` maps original ranks to its connections; `dropped` original ranks to the epoch that dropped them
(R239). `since` is when it entered FORMING or REFORMING; `proposal` the token of its last lap, `clean` that of its last clean lap. -/
structure Herd where
  state    : HerdSt := .free
  body     : Option HerdBody := none
  membs    : List Memb := []
  dropped  : AMap Nat := []
  mepoch   : Nat := 0
  conns    : AMap Nat := []
  op       : Nat := 0
  destroy  : Option Nat := none
  cseq     : Nat := 0
  queue    : List Coll := []
  run      : Option Coll := none
  held     : List HeldPkt := []
  discarded : Nat := 0
  since    : Nat := 0
  hbAt     : Nat := 0
  seen     : AMap Nat := []
  declared : List Nat := []
  proposer : Bool := false
  origin   : Option Nat := none
  lap      : Nat := 0
  lapAt    : Nat := 0
  lapBack  : Bool := true
  proposal : Option Token := none
  clean    : Option Token := none
  commit   : Option Token := none
  forward  : List (Bool × Token) := []
  blocks   : List Nat := []
  deriving DecidableEq, Repr

/-! ### Attention sessions (R259-R283) -/

/-- States of a session (R265). -/
inductive SessSt where
  | free | loading | accepting | finishing | writing
  deriving DecidableEq, Repr

/-- The softmax state of one row, FP32 codes (R274); `bad` carries poison (R208). -/
structure SRow where
  m   : Nat
  l   : Nat
  o   : List Nat
  nan : Bool := false
  bad : Bool := false
  deriving DecidableEq, Repr

/-- An admitted KV block (R271, R272): its message (connection and MSN) or its local feed, and the parts placed so far. `ready` orders
complete blocks, and `done` lists the ibex blocks that have merged it. -/
structure KvBlk where
  id    : Nat
  conn  : Option Nat
  msn   : Nat
  kvh   : Nat
  ntok  : Nat
  bpos  : Nat
  k     : AMap (List Byte) := []
  v     : AMap (List Byte) := []
  got   : Nat := 0
  ready : Option Nat := none
  done  : List Nat := []
  deriving DecidableEq, Repr

/-- A session. `qs` are the converted queries and `rows` the softmax rows of each KV head, `pos` the query positions; `written` and `statted`
count the pieces of its output and statistics that are written. -/
structure Sess where
  state    : SessSt := .free
  body     : Option AttnBody := none
  key      : Nat := 0
  op       : Nat := 0
  finish   : Option Nat := none
  loaded   : Bool := false
  qs       : AMap Tile := []
  rows     : AMap (List SRow) := []
  pos      : List Nat := []
  blks     : List KvBlk := []
  nextBlk  : Nat := 0
  readySeq : Nat := 0
  admTok   : AMap Nat := []
  merTok   : AMap Nat := []
  circuits : Nat := 0
  admitted : Nat := 0
  merged   : Nat := 0
  refused  : Nat := 0
  misses   : Nat := 0
  skipped  : Nat := 0
  written  : Nat := 0
  statted  : Nat := 0
  deriving DecidableEq, Repr

/-- A feed in progress (R267, R268, R282): the blocks whose outcome is not known (MSN, bytes), what was admitted, and the first
failure; `bad` is the DETAIL of its own poisoned or refused source. `next` is the next block of a LOCAL feed. -/
structure Feed where
  body  : FeedBody
  next  : Nat := 0
  open_ : List (Nat × Nat) := []
  blocks : Nat := 0
  bytes : Nat := 0
  fail  : Option Status := none
  bad   : Option Nat := none
  deriving DecidableEq, Repr

/-! ### Programs and launches (R284-R320) -/

/-- A TPF instruction (R291). -/
structure Insn where
  op  : Nat
  fl  : Nat
  a   : Nat
  b   : Nat
  c   : Nat
  d   : Nat
  aux : Nat
  imm : Nat
  deriving DecidableEq, Repr

/-- A tile declaration (R290). -/
structure TileDecl where
  fmt  : Nat
  rows : Nat
  cols : Nat
  init : Option Nat
  deriving DecidableEq, Repr

/-- A loaded program (R288, R307). -/
structure Prog where
  insns   : List Insn
  tiles   : List TileDecl
  nport   : Nat
  nslot   : Nat
  minCopy : Nat
  maxCopy : Nat
  pkind   : List Nat
  cpoolLen : Nat
  codeOff : Nat
  codeLen : Nat
  deriving DecidableEq, Repr

/-- What a copy is doing (R313). -/
inductive CopySt where
  | running | waiting | parking | parked | done
  deriving DecidableEq, Repr

/-- A TLOAD, TSTORE, SEND or RECV of a copy that has been issued and has not ended (R293). `snap` is what it reads of its tile;
`hit` tells that the program wrote a tile that the operation writes (R294); `got` is data that has arrived for it; `queued` that a
PEER message is in its target's queue; `status` its outcome once known, with a retry time while a refused SEND waits (R295). -/
structure Async where
  id     : Nat
  insn   : Nat
  op     : Nat
  tile   : Nat
  slot   : Option Nat
  slice  : Bool := false
  const  : Bool := false
  addr   : Nat := 0
  pitch  : Nat := 0
  port   : Nat := 0
  peer   : Option Nat := none
  tag    : Nat := 0
  conn   : Option Nat := none
  msn    : Option Nat := none
  snap   : Tile := ⟨[], []⟩
  hit    : Bool := false
  got    : Option (List Byte) := none
  queued : Bool := false
  bytes  : Nat := 0
  status : Option Status := none
  retry  : Option Nat := none
  page   : Option Nat := none
  tries  : Nat := 0
  deriving DecidableEq, Repr

/-- A copy of a launch. `preempt` is when a pre-emption request for it was raised (R314-R316); `peerQ` the unmatched PEER messages at
it: port, sending copy, operation, tag (R301); `saved` the bytes that its save slot was left with (R315, R317). -/
structure Copy where
  pc      : Nat := 0
  regs    : AMap Nat := []
  tiles   : AMap Tile := []
  exc     : Nat := 0
  st      : CopySt := .running
  block   : Option Nat := none
  endCode : Nat := 0
  ops     : List Async := []
  nextOp  : Nat := 0
  preempt : Option Nat := none
  peerQ   : List (Nat × Nat × Nat × Nat) := []
  saved   : List Byte := []
  deriving DecidableEq, Repr

/-- States of a launch (R310). -/
inductive LaunchSt where
  | free | starting | running | stopping | ending
  deriving DecidableEq, Repr

/-- The binding of a port (R300). -/
structure PortBind where
  conn   : Nat := 0
  wref   : Nat := 0
  list   : Nat := 0
  src    : Option Nat := none
  base   : Nat := 0
  ignore : Nat := 0
  deriving DecidableEq, Repr

/-- A launch (R309, R310). `fault` is the status and DETAIL it will end with; `stop` the pending PROG_STOP. -/
structure Launch where
  state   : LaunchSt := .free
  key     : Nat := 0
  handle  : Nat := 0
  op      : Nat := 0
  copies  : AMap Copy := []
  saveOff : Nat := 0
  saveLen : Nat := 0
  args    : List Nat := []
  ports   : List PortBind := []
  slots   : List Nat := []
  spwait  : Nat := 0
  fault   : Option (Status × Nat) := none
  stop    : Option Nat := none
  retired : Nat := 0
  preempts : Nat := 0
  loaded  : Nat := 0
  written : Nat := 0
  deriving DecidableEq, Repr

/-- Arithmetic counters of an ibex block (R233). -/
structure IbexCnt where
  nanMade   : Nat := 0
  overflow  : Nat := 0
  saturated : Nat := 0
  intWrap   : Nat := 0
  exactEsc  : Nat := 0
  exactBad  : Nat := 0
  qnanBlk   : Nat := 0
  deriving DecidableEq, Repr

/-! ### Filters (R500-R504) -/

/-- The filter table: the staged entry's words, INDEX, whether a commit is held (PEND), the current entries' words, the hits of each
index, and the indices that hold a retiring version. -/
structure Filters where
  next0    : Nat := 0
  next1    : Nat := 0
  index    : Nat := 0
  held     : Bool := false
  cur      : AMap (Nat × Nat) := []
  hits     : AMap Nat := []
  retiring : AMap (Nat × Nat) := []
  deriving DecidableEq, Repr

/-! ### Self-test (R547-R555) -/

/-- A result record (R554). -/
structure BistRes where
  result : Nat := 0
  full   : Bool := false
  boot   : Bool := false
  lcov   : Nat := 0
  mcov   : Nat := 0
  dur    : Nat := 0
  fails  : Nat := 0
  spares : Nat := 0
  funit  : Nat := 0
  time   : Nat := 0
  deriving DecidableEq, Repr

/-- Self-test state: the region under test with its start, chip-level units under test, CLEARED, the results (4 is the chip-level
units), and whether the next boot follows a chip test. -/
structure Bist where
  run     : Option (Nat × Nat) := none
  crun    : Bool := false
  cleared : Bool := false
  res     : AMap BistRes := []
  kept    : Bool := false
  deriving DecidableEq, Repr

/-! ### Clocks and power (R557-R582) -/

/-- A compute domain. `st` is PWR_REG_STAT.STATE; `wake` the stage of a wake (1 rail, 2 switch, 3 PLL); `since` when it entered its
state or was last busy; `hold` that it holds the step it has reached (R561); `hot` and `diff` since when TCAP 4 has not sufficed (R576); `low` and `high` when TCAP last moved. -/
structure RegPow where
  st        : Nat := 0
  k         : Nat := 0
  pcap      : Nat := 16
  tcap      : Nat := 16
  rail      : Nat := 0
  railSet   : Bool := true
  temp      : Int := 0
  throttles : Nat := 0
  wake      : Nat := 0
  hold      : Bool := false
  since     : Nat := 0
  low       : Nat := 0
  high      : Nat := 0
  hot       : Option Nat := none
  diff      : Option Nat := none
  deriving DecidableEq, Repr

/-- Clock and power state. `ref` and `lock` are the masks of CLK_DOM_SEL; `refPend` source switches requested and not made; `lowered`
the order in which PCAPs were lowered; `overAt` since when power has been over the limit with every PCAP at 4; `saiga` the state of the
saiga domain (0 ON, 1 DOZE, 2 OFF); `sleepAsk` the SEQ of a PWR_CTL.SLEEP record not yet exported, and when it was written. -/
structure Power where
  stable   : Bool := false
  restarts : Nat := 0
  dead     : Bool := false
  ref      : Nat := 0
  lock     : Nat := 0
  refPend  : Nat := 0
  stopwr   : Nat := 0
  switches : Nat := 0
  watts    : Nat := 0
  regions  : AMap RegPow := []
  lowered  : List Nat := []
  evalAt   : Nat := 0
  overAt   : Option Nat := none
  fencing  : Option Nat := none
  saiga    : Nat := 0
  sleepAsk : Option (Nat × Nat) := none
  sleeping : Bool := false
  off      : Bool := false
  deriving DecidableEq, Repr

/-! ### The card (R583-R597) -/

/-- A cage and its power switch (R591). `trips` are the times of trips in the last 60 s; `tripCnt` the counter TRIPS. -/
structure Cage where
  present : Bool := false
  on      : Bool := false
  lowpwr  : Bool := false
  fault   : Bool := false
  tripCnt : Nat := 0
  trips   : List Nat := []
  insAt   : Nat := 0
  power   : Nat := 0
  deriving DecidableEq, Repr

/-- The card monitor. `sens` are the readings in effect; `line` the state each sensor line shows and since when (FLOW, TIN, TOUT);
`coolAt` when the last cause of the cooling cap was present; `mv` is the J8 voltage, `lowAt` since when it
has been below 36 V while running, `overs` that it opened the input switch, `uvAt` when it last stood at 41 V or less. -/
structure Card where
  mv      : Int := 0
  lowAt   : Option Nat := none
  overs    : Bool := false
  uv      : Bool := false
  revSeen : Bool := false
  auxLow  : Bool := false
  coolCap : Bool := false
  flow    : Nat := 0
  tin     : Int := 0
  tout    : Int := 0
  flowL   : Nat := 0
  tinL    : Nat := 0
  toutL   : Nat := 0
  lines   : AMap (Nat × Nat) := []
  coolAt  : Nat := 0
  uvAt    : Nat := 0
  cages   : AMap Cage := []
  deriving DecidableEq, Repr

/-! ### The saiga processor, flash and management (R520-R546) -/

/-- A boot control block copy (R523). -/
structure Bcb where
  seq      : Nat := 0
  active   : Nat := 0
  trial    : Bool := false
  tries    : Nat := 0
  svnFloor : Nat := 0
  sa       : Bool := false
  deriving DecidableEq, Repr

/-- A management bus response that is remembered (R536): sender, TAG, STATUS, result. -/
structure BusAns where
  node   : Nat
  seq    : Nat
  status : Nat
  data   : List Nat
  deriving DecidableEq, Repr

/-- Management state. `slot` is the active slot, `image` the content that runs and `svn`, `build` what it reports; `written` the slots whose first write since a boot
or switch has been journalled; `saSq`, `saCq`, `saCfg` hold the stand-alone ring registers; `okAt` since when health has been OK;
`bcb` the two copies, `flash` the other bytes written. -/
structure Mgmt where
  running  : Bool := false
  recovery : Bool := false
  slot     : Nat := 0
  svn      : Nat := 0
  build    : Nat := 0
  image    : Nat := 0
  sa       : Bool := false
  saErr    : Bool := false
  saEn     : Bool := false
  shed     : Bool := false
  busyPct  : Nat := 0
  hiRuns   : Nat := 0
  loRuns   : Nat := 0
  bootOk   : Bool := false
  okAt     : Nat := 0
  polrev   : Bool := false
  short    : Bool := false
  open_    : Bool := false
  coll     : Nat := 0
  excess   : Nat := 0
  shortAt  : Nat := 0
  telSeq   : Nat := 0
  lost     : Nat := 0
  telAt    : Nat := 0
  healthAt : Nat := 0
  shown    : Nat := 0
  answers  : List BusAns := []
  written  : List Nat := []
  bcb0     : Option Bcb := some {}
  bcb1     : Option Bcb := none
  flash    : List Host.Cell := []
  idleAt   : Nat := 0
  deriving DecidableEq, Repr

/-! ### A function -/

/-- Everything an instance or a physical function holds. `fences` are the register fences pending and `fenceDone` the TOKEN of the last one done
(R363); `tsends` are ended TSENDs that still hold REMOTE_VIS (R72): ring, connection, last PSN, operation; `firing` are armed operations whose trigger
is met, in order; `arrSeq` numbers arriving messages (R106); `closeSeq` and `freeSeq` number closings of windows and freeings of handles; `aborts` are the ABORTs a reset
repeats (R165) and `abortAt` when each handle last answered with one; `feeds` are the feeds of KV blocks in progress; `progRx` are messages
that came for a program's receives; `aer` is the AER uncorrectable error status (R372, R382); `clsDef` and `clsRr` are the deficit and the
round-robin pointer of each class of ring pair (R170). -/
structure FnState where
  gen      : Nat := 1
  admSq    : Nat := 0
  admCq    : Nat := 0
  sqLog    : Nat := 0
  cqLog    : Nat := 0
  admErr   : Bool := false
  admEn    : Bool := false
  rawmap   : AMap Nat := []
  rings    : AMap Ring := []
  dbgs     : AMap Dbg := []
  fences   : List RegFence := []
  fenceDone : Nat := 0
  msix     : AMap (Nat × Nat × Bool) := []
  msixPba  : List Nat := []
  ops      : List Op := []
  nextOp   : Nat := 0
  tsends   : List (Nat × Nat × Nat × Nat) := []
  tallies  : AMap Tally := []
  wins     : AMap Win := []
  closeSeq : Nat := 0
  mlists   : AMap MList := []
  armed    : List Armed := []
  armSeq   : Nat := 0
  arrSeq   : Nat := 0
  firing   : List Nat := []
  conns    : AMap Conn := []
  freeSeq  : Nat := 0
  listeners : List Listener := []
  aborts   : List AbortRpt := []
  abortAt  : AMap Nat := []
  stops    : Stops := {}
  ats      : Ats := {}
  mbx      : Mbx := {}
  cnt      : FnCnt := {}
  herds    : AMap Herd := []
  sess     : AMap Sess := []
  feeds    : AMap Feed := []
  progs    : AMap Prog := []
  launches : AMap Launch := []
  progRx   : List (Nat × Nat × Nat × Nat × List Byte) := []
  resetting : Bool := false
  aer      : Nat := 0
  clsDef   : AMap Nat := []
  clsRr    : AMap Nat := []
  deriving DecidableEq, Repr

/-! ### The telemetry read port (R44) -/

/-- The copies that the telemetry read port reads, and the elapsed time of their last refresh. -/
structure TelCopy where
  at_   : Nat := 0
  ibex  : AMap IbexCnt := []
  ports : AMap Port := []
  sched : Sched := {}
  mesh  : Mesh := {}
  deriving DecidableEq, Repr

/-! ### Migration images (R402-R405) -/

/-- A migration image that this device wrote: its bytes, and what they hold (DEDUCED, log 39). `slice` lists the bytes of the slice by offset,
`poison` its poisoned lines, `ksels` each page's selector modulo 4. -/
structure Image where
  bytes   : List Byte
  contrib : Nat
  fn      : FnState
  spages  : Nat
  slice   : List Host.Cell
  poison  : List Nat
  ksels   : List Nat
  deriving DecidableEq, Repr

/-! ### The machine -/

/-- The state of the block. -/
structure State where
  pending : List Instr
  out     : List Output
  free    : Nat
  regs    : AMap Nat
  clk     : Clock
  fns     : AMap FnState
  parts   : AMap Part
  mem     : Mem
  links   : AMap Link
  mesh    : Mesh
  sched   : Sched
  ports   : AMap Port
  flts    : Filters
  sec     : Sec
  jrnl    : Jrnl
  err     : Errs
  bist    : Bist
  power   : Power
  card    : Card
  mgmt    : Mgmt
  ibex    : AMap IbexCnt
  images  : List Image
  tel     : TelCopy
  deriving DecidableEq, Repr

/-- The machine right after reset (power-on), with no command waiting. Every register and object holds the value the manual gives
for reset; the values the manual gives none for are named in the assumption log. -/
def State.reset : State where
  pending := []
  out := []
  free := 0
  regs := []
  clk := {}
  fns := []
  parts := []
  mem := {}
  links := []
  mesh := {}
  sched := {}
  ports := []
  flts := {}
  sec := {}
  jrnl := {}
  err := {}
  bist := {}
  power := {}
  card := {}
  mgmt := {}
  ibex := []
  images := []
  tel := {}

end Sys2Proof.Machine
end

