-- ==== Sys2Proof/Machine/Ops.lean ====
section
/-!
DEFINITION. Ops.lean: the named operations over maps, registers, time, memory, translation and interrupts that the meanings share.
Taking an exception is not here: a block has no exception entry.
-/

namespace Sys2Proof

/-- The index of a function: 0 to 3 the physical functions, 4 + p the instance of partition p (R357). -/
def Fn.idx : Fn → Nat
  | .pf l => l.val
  | .vf p => 4 + p.val

end Sys2Proof

namespace Sys2Proof.Machine

/-! ### Repeating a step of work -/

/-- Repeat a piece of work at most fuel times while it answers something to go on with; what is left to go on with at the end. -/
def loop {α : Type} (work : State → α → State × Option α) (fuel : Nat) (s : State) (a : α) : State × Option α :=
  match fuel with
  | 0 => (s, some a)
  | n + 1 =>
    let r := work s a
    match r.2 with
    | none => (r.1, none)
    | some b => loop work n r.1 b

/-! ### Sorting -/

/-- Put an element before the first one that it may precede. -/
def insertBy {α : Type} (le : α → α → Bool) (x : α) (l : List α) : List α :=
  match l with
  | [] => [x]
  | y :: t => if le x y then x :: y :: t else y :: insertBy le x t

/-- A list in order, those equal in the order they had. -/
def sortBy {α : Type} (le : α → α → Bool) (l : List α) : List α := l.foldr (insertBy le) []

/-- Numbers, lowest first. -/
def ascending (l : List Nat) : List Nat := sortBy (fun a b => decide (a ≤ b)) l

/-! ### Finite maps -/

/-- The entry of a key. -/
def aget {α : Type} (m : AMap α) (k : Nat) : Option α :=
  match m with
  | [] => none
  | (j, v) :: t => if j = k then some v else aget t k

/-- The entry of a key, or a default. -/
def agetD {α : Type} (m : AMap α) (k : Nat) (d : α) : α := (aget m k).getD d

/-- Set the entry of a key, keeping the keys ascending. -/
def aset {α : Type} (m : AMap α) (k : Nat) (v : α) : AMap α :=
  match m with
  | [] => [(k, v)]
  | (j, w) :: t => if j = k then (k, v) :: t else if k < j then (k, v) :: (j, w) :: t else (j, w) :: aset t k v

/-- Remove a key. -/
def adel {α : Type} (m : AMap α) (k : Nat) : AMap α := m.filter fun x => x.1 ≠ k

/-- Change the entry of a key, starting from a default. -/
def amod {α : Type} (m : AMap α) (k : Nat) (d : α) (g : α → α) : AMap α := aset m k (g (agetD m k d))

/-! ### Functions, partitions, links, ports -/

/-- The functions of an index (the inverse of Fn.idx). -/
def fnOfIdx (f : Nat) : Fn :=
  if h : f < 4 then .pf ⟨f, h⟩ else .vf ⟨(f - 4) % 16, Nat.mod_lt _ (by decide)⟩

/-- Whether the index is a physical function's. -/
def isPf (f : Nat) : Bool := f < 4

/-- The partition of an instance's index. -/
def partOf (f : Nat) : Nat := f - 4

def State.fn (s : State) (f : Nat) : FnState := agetD s.fns f {}
def State.setFn (s : State) (f : Nat) (x : FnState) : State := { s with fns := aset s.fns f x }
def State.modFn (s : State) (f : Nat) (g : FnState → FnState) : State := s.setFn f (g (s.fn f))
def State.part (s : State) (p : Nat) : Part := agetD s.parts p {}
def State.setPart (s : State) (p : Nat) (x : Part) : State := { s with parts := aset s.parts p x }
def State.modPart (s : State) (p : Nat) (g : Part → Part) : State := s.setPart p (g (s.part p))
def State.link (s : State) (l : Nat) : Link := agetD s.links l {}
def State.modLink (s : State) (l : Nat) (g : Link → Link) : State := { s with links := aset s.links l (g (s.link l)) }
def State.port (s : State) (q : Nat) : Port := agetD s.ports q {}
def State.modPort (s : State) (q : Nat) (g : Port → Port) : State := { s with ports := aset s.ports q (g (s.port q)) }

/-- The link that carries a function (R335, R357). -/
def State.linkOf (s : State) (f : Nat) : Nat := if isPf f then f else (s.part (partOf f)).cur.link

/-- The link and function by which journal records name a function (R64, R436). -/
def State.originOf (s : State) (f : Nat) : Origin :=
  .host ⟨s.linkOf f % 4, Nat.mod_lt _ (by decide)⟩ (if isPf f then 0 else partOf f + 1)

/-- Add to what has left the block. -/
def State.emit (s : State) (o : Output) : State := { s with out := s.out ++ [o] }

/-- The next open value (Config.freeWord). -/
def State.freeVal (s : State) : Nat := (Config.freeWord s.free).toNat

/-- Take the next open value. -/
def State.bump (s : State) : State := { s with free := s.free + 1 }

/-- A retry hint the manual leaves between 1 and 1,000 µs (R108, R114, R137, R440): a free value of that range. -/
def State.hint (s : State) : Nat := 1 + s.freeVal % 1000

/-! ### Setup registers held whole (R599, R612) -/

/-- The reset value of a register that is held whole, by offset; every other offset resets to 0. -/
def regReset (off : Nat) : Nat :=
  if off = 0x200 then 0x7B7FC                                                     -- GLB_TLT_CFG (R167)
  else if off = 0x208 then 20 + 8 * 2 ^ 8 + 20 * 2 ^ 16 + 250 * 2 ^ 24            -- GLB_TLT_TMR (R168)
  else if off = 0x410000 then 1000 + 30 * 2 ^ 16                                  -- PART_FZ_CFG (R390)
  else if off = 0x800100 then 0x100 + 0x40 * 2 ^ 16                               -- MESH_ARB_CFG (R34)
  else if off = 0x1400000 then 0xB7FD + 2 ^ 32                                    -- SEC_CFG (R441)
  else if off = 0x1800000 then 32 + 10 * 2 ^ 8 + 100 * 2 ^ 16 + 4 * 2 ^ 28        -- MEM_PRI_CFG (R354)
  else if off = 0x1800100 then 1440                                               -- MEM_SCRUB_CFG (R493)
  else if off = 0x1C00000 then 2 * 2 ^ 10 + 20 * 2 ^ 16                           -- ERR_CFG (R473)
  else if off = 0x1C00008 then 2200 + 1000 * 2 ^ 16                               -- ERR_HERD_CFG (R473)
  else if off = 0x2C00000 then 0x8000 + 2 * 2 ^ 20 + 33 * 2 ^ 24 + 0x8000 * 2 ^ 32 -- SCHED_CRED_CFG (R200)
  else if off = 0x2C00008 then 12 + 8 * 2 ^ 4                                     -- SCHED_INJ_CFG
  else if off = 0x2C00010 then 100                                                -- SCHED_PRIO_CFG
  else if off = 0x2C00018 then 10                                                 -- SCHED_SAMPLE_CFG
  else if off = 0x2C00020 then 2                                                  -- SCHED_GATE_CFG
  else if off = 0x2C00028 then 128                                                -- SCHED_CTL_CFG
  else if 0x2C00040 ≤ off ∧ off < 0x2C00080 then                                  -- SCHED_CLS_MAP
    let c := (off - 0x2C00040) / 8
    c + 8 * c * 2 ^ 8
  else if 0x2C01000 ≤ off ∧ off < 0x2C05000 then                                  -- SCHED_TCM (R201)
    if off % 16 = 8 then 64 + 64 * 2 ^ 16 + 2 ^ 32 else 0
  else if 0x1000000 ≤ off ∧ off < 0x1040000 ∧ off % 0x10000 = 8 then              -- HLNK_CFG (R383)
    1 + 2 + 64 * 2 ^ 8 + 50 * 2 ^ 16
  else if 0x100100 ≤ off ∧ off < 0x100120 then 16                                 -- CLK_REG_CFG (R581)
  else if off = 0x200010 then 1400 + 50 * 2 ^ 16                                  -- PWR_LIMIT (R582)
  else if off = 0x200018 then 100                                                 -- PWR_THERM
  else if 0x200100 ≤ off ∧ off < 0x200120 then 20 + 1000 * 2 ^ 16                 -- PWR_REG_CFG
  else if off = 0x3000040 then 1 + 8 * 2 ^ 16 + 5 * 2 ^ 24 + 0xB7FE * 2 ^ 32      -- MGMT_BUS_CFG (R544)
  else if off = 0x3000058 then 100 * 2 ^ 8                                        -- MGMT_TEL_CFG
  else if off = 0x3000068 then 90 + 60 * 2 ^ 8                                    -- MGMT_SHED_CFG
  else if off = 0x3000070 then 500                                                -- MGMT_PWR_CFG
  else if 0xC00000 ≤ off ∧ off < 0xD00000 then                                    -- port q (R517)
    if off % 0x20000 = 0 then 2 ^ 4 + 9216 * 2 ^ 8                                -- PORT_CFG
    else if off % 0x20000 = 0x20 then 768 * 2 ^ 8 + 512 * 2 ^ 18                  -- PORT_PFC_CFG
    else if off % 0x20000 = 0x28 then 35 + 75 * 2 ^ 8 + 100 * 2 ^ 16              -- PORT_SHED_CFG
    else 0
  else 0

/-- A register's value. -/
def State.reg (s : State) (off : Nat) : Nat := (aget s.regs off).getD (regReset off)

/-- A field of a register: w bits from bit lo. -/
def State.fld (s : State) (off lo w : Nat) : Nat := bitsOf (s.reg off) lo w

/-- Set a register held whole. -/
def State.setReg (s : State) (off v : Nat) : State := { s with regs := aset s.regs off v }

/-! Named fields with the values they act as. -/

def State.udpPort (s : State) : Nat := s.fld 0x200 0 16
def State.enV4 (s : State) : Bool := s.fld 0x200 16 1 = 1
def State.enV6 (s : State) : Bool := s.fld 0x200 17 1 = 1
/-- GLB_TLT_TMR fields in ns; 0 acts as 1 (R168). -/
def State.rtoMin (s : State) : Nat := 1000 * atLeast1 (s.fld 0x208 0 8)
def State.ackPkts (s : State) : Nat := atLeast1 (s.fld 0x208 8 8)
def State.ackDelay (s : State) : Nat := 100 * atLeast1 (s.fld 0x208 16 8)
def State.lostTime (s : State) : Nat := 1000000 * atLeast1 (s.fld 0x208 24 8)
/-- PART_FZ_CFG (R390): DRAIN in ns, QUIET in ns. -/
def State.drainNs (s : State) : Nat := 1000 * atLeast1 (s.fld 0x410000 0 16)
def State.quietNs (s : State) : Nat := 1000000000 * atLeast1 (s.fld 0x410000 16 8)
/-- SEC_CFG (R441). -/
def State.minSvn (s : State) : Nat := s.fld 0x1400000 16 16
def State.notc (s : State) : Bool := s.fld 0x1400000 32 1 = 1
def State.openContrib (s : State) : Bool := s.fld 0x1400000 33 1 = 1
/-- The fields of a MEM_PRI_CFG value (R354): requests of a batch, its wait and the time-out of its group in ns, and page requests a granule. -/
def priBatch (v : Nat) : Nat := if bitsOf v 0 6 = 0 ∨ 32 < bitsOf v 0 6 then 32 else bitsOf v 0 6
def priWait (v : Nat) : Nat := 1000 * atLeast1 (bitsOf v 8 8)
def priTmo (v : Nat) : Nat := 1000000 * atLeast1 (bitsOf v 16 12)
def priRetries (v : Nat) : Nat := atLeast1 (bitsOf v 28 4)
/-- The MEM_PRI_CFG that a function's next page request falls under: that of its open batch, or the present one, under which a batch would open
(R354). -/
def State.priCfg (s : State) (f : Nat) : Nat := if (s.fn f).ats.batch = [] then s.reg 0x1800000 else (s.fn f).ats.batchCfg
/-- HLNK_CFG (R383). -/
def State.cacheEn (s : State) (l : Nat) : Bool := s.fld (0x1000008 + 0x10000 * l) 0 1 = 1
def State.memEn (s : State) (l : Nat) : Bool := s.fld (0x1000008 + 0x10000 * l) 1 1 = 1
def State.lcMaxRun (s : State) (l : Nat) : Nat := 1024 * atLeast1 (s.fld (0x1000008 + 0x10000 * l) 8 8)
def State.ctoNs (s : State) (l : Nat) : Nat := 1000000 * atLeast1 (s.fld (0x1000008 + 0x10000 * l) 16 8)
/-- SCHED_CRED_CFG and the other scheduler registers (R200). -/
def State.credPool (s : State) : Nat :=
  let p := s.fld 0x2C00000 0 20
  if p = 0 then 1024 else p
def State.gint (s : State) : Nat := 1000 * atLeast1 (s.fld 0x2C00000 20 4)
def State.ginit (s : State) : Nat := s.fld 0x2C00000 24 8
def State.gmax (s : State) : Nat := s.fld 0x2C00000 32 24
def State.injHi (s : State) : Nat := s.fld 0x2C00008 0 4
def State.injLo (s : State) : Nat :=
  let lo := s.fld 0x2C00008 4 4
  if s.injHi ≤ lo then s.injHi - 1 else lo
def State.starveNs (s : State) : Nat := 100 * atLeast1 (s.fld 0x2C00010 0 16)
def State.sampleNs (s : State) : Nat := 100 * atLeast1 (s.fld 0x2C00018 0 16)
def State.leadNs (s : State) : Nat := 1000 * atLeast1 (s.fld 0x2C00020 0 8)
def State.rsvBytes (s : State) : Nat := 1024 * min 512 (s.fld 0x2C00028 0 10)
def tcmOff (q p c : Nat) : Nat := 0x2C01000 + 16 * (128 * q + 8 * p + c)
def State.classWeight (s : State) (q p c : Nat) : Nat := if 6 ≤ c then 1 else atLeast1 (s.fld (tcmOff q p c + 8) 32 8)
/-- ERR_CFG and ERR_HERD_CFG (R473). -/
def State.errVector (s : State) : Nat := s.fld 0x1C00000 0 8
def State.errLink (s : State) : Nat := s.fld 0x1C00000 8 2
def State.irqSev (s : State) : Nat := min 4 (s.fld 0x1C00000 10 3)
def State.fenceWait (s : State) : Nat := 1000000 * atLeast1 (s.fld 0x1C00000 16 16)
def State.settleNs (s : State) : Nat := 1000000 * atLeast1 (s.fld 0x1C00008 0 16)
def State.agreeNs (s : State) : Nat := 1000000 * atLeast1 (s.fld 0x1C00008 16 16)

/-- PORT_CFG.MAXFRAME of a port (R517). -/
def State.maxFrame (s : State) (q : Nat) : Nat := max 1518 (s.fld (0xC00000 + 0x20000 * q) 8 14)

/-! ### Time (R513-R515) -/

/-- Whole nanoseconds and residue that TIME_FREQ adds over d elapsed nanoseconds: PPB parts per 10^9. -/
def trim (freq : Int) (residue : Int) (d : Nat) : Int × Int :=
  let t := residue + freq * d
  (t / 1000000000, t % 1000000000)

/-- Time passes until `now`: the counter runs at its rate and absorbs slewing (R513, R514). A time that has passed already changes
nothing. -/
def Clock.tick (c : Clock) (now : Nat) : Clock :=
  if now ≤ c.elapsed then c else
    let d := now - c.elapsed
    let r := trim c.freq c.residue d
    let run := c.slewRes + d
    let most : Int := ((run / 2000 : Nat) : Int)
    let a : Int := if c.slew < 0 then -(min most (-c.slew)) else min most c.slew
    { c with elapsed := now, residue := r.2, slew := c.slew - a, slewRes := if c.slew = a then 0 else run % 2000,
             time := ((c.time : Int) + d + r.1 + a).toNat % 2 ^ 64 }

/-- R44: the telemetry read port's copies are refreshed every 1,024 mesh cycles (640 ns), at the multiples of that time (DESIGN CHOICE,
log 142). Between two commands nothing changes, so the last refresh by `now` copies what stands before the command of `now`. -/
def State.copies (s : State) (now : Nat) : TelCopy :=
  if s.clk.elapsed / 640 < now / 640 then { at_ := now / 640 * 640, ibex := s.ibex, ports := s.ports, sched := s.sched, mesh := s.mesh } else s.tel

/-- Let elapsed time reach `now` (never backward). Device time follows at the trimmed rate, and a slew in progress is absorbed at
1 ns in each 2,000 ns (R514). -/
def State.tick (s : State) (now : Nat) : State := { s with clk := s.clk.tick now, tel := s.copies now }

def State.now (s : State) : Nat := s.clk.elapsed

/-! ### Bytes -/

/-- n bytes of a number, least significant first (R15). -/
def leBytes (n v : Nat) : List Byte := (List.range n).map fun i => BitVec.ofNat 8 (v >>> (8 * i))

/-- The number that bytes spell, least significant first. -/
def leNat (l : List Byte) : Nat := l.foldr (fun b acc => b.toNat + 256 * acc) 0

/-- n bytes of a number, most significant first. -/
def beBytes (n v : Nat) : List Byte := (leBytes n v).reverse

/-- An IP address as the bytes of a field spell it, least significant first, and back (R15): addresses are held as numbers in network
order. -/
def ipField (ip : Nat) : Nat := leNat (beBytes 16 ip)

/-- Word w of an address entry (R389). -/
def AddrEntry.word (e : AddrEntry) (w : Nat) : Nat :=
  if w = 0 then ipField e.ip % 2 ^ 64
  else if w = 1 then ipField e.ip / 2 ^ 64
  else if w = 2 then e.vid + 2 ^ 12 * e.pcp + 2 ^ 15 * bit e.ven + 2 ^ 16 * e.ports + 2 ^ 31 * bit e.valid
  else 0

/-! ### Memory: one canonical list of cells (R321, R328, R478) -/

/-- The space number of device DRAM. -/
def dramSpace : Nat := 20

/-- The key of an address in a space. -/
def cellKey (space addr : Nat) : Nat := 2 ^ 64 * space + addr

/-- What an address that is not listed reads as: zero (R328, R478 for DRAM; DESIGN CHOICE, log 1 for host memory). -/
def unlisted : Byte := 0

/-- Read one cell. -/
def cellGet (l : List Host.Cell) (k : Nat) : Byte :=
  match l with
  | [] => unlisted
  | (j, b) :: t => if j = k then b else cellGet t k

/-- Write one cell, keeping the canonical form: keys ascending, nothing listed that reads the same unlisted. -/
def cellSet (l : List Host.Cell) (k : Nat) (b : Byte) : List Host.Cell :=
  match l with
  | [] => if b = unlisted then [] else [(k, b)]
  | (j, c) :: t =>
    if k < j then (if b = unlisted then (j, c) :: t else (k, b) :: (j, c) :: t)
    else if k = j then (if b = unlisted then t else (k, b) :: t)
    else (j, c) :: cellSet t k b

/-- The canonical form: keys strictly ascending above a bound, and no cell equal to what is unlisted. -/
def cellsFrom (lo : Nat) (l : List Host.Cell) : Bool :=
  match l with
  | [] => true
  | (j, c) :: t => decide (lo ≤ j) && decide (c ≠ unlisted) && cellsFrom (j + 1) t

/-- The memory holds its canonical form. -/
def Mem.wf (m : Mem) : Bool := cellsFrom 0 m.bytes

/-- Read n cells from a key. -/
def cellsGet (l : List Host.Cell) (k n : Nat) : List Byte := (List.range n).map fun i => cellGet l (k + i)

/-- Write cells from a key. -/
def cellsSet (l : List Host.Cell) (k : Nat) (bs : List Byte) : List Host.Cell :=
  match bs with
  | [] => l
  | b :: t => cellsSet (cellSet l k b) (k + 1) t

/-- The 64-byte lines a range touches. -/
def linesOf (k n : Nat) : List Nat := if n = 0 then [] else (List.range ((k + n - 1) / 64 - k / 64 + 1)).map fun i => k / 64 + i

/-- The first poisoned line of a range, as a key (R343, R344, R491). -/
def Mem.firstPoison (m : Mem) (k n : Nat) : Option Nat := ((linesOf k n).find? fun l => m.poison.contains l).map (· * 64)

/-- Write bytes and drop the poison of lines written whole (R491). -/
def Mem.write (m : Mem) (k : Nat) (bs : List Byte) : Mem :=
  { m with bytes := cellsSet m.bytes k bs,
           poison := m.poison.filter fun l => ¬ (k ≤ l * 64 ∧ l * 64 + 64 ≤ k + bs.length) }

/-! ### Slices (R324-R328, R331, R332) -/

def State.pageEnt (s : State) (i : Nat) : PageEnt := agetD s.mem.pages i {}

/-- Slice length in bytes; 0 for a physical function (R385). -/
def State.sliceLen (s : State) (f : Nat) : Nat := if isPf f then 0 else 2 ^ 21 * (s.part (partOf f)).cur.spages

/-- The page table entry number of a slice offset (R324). -/
def State.sliceEnt (s : State) (f off : Nat) : Nat := (s.part (partOf f)).cur.sbase + off / 2 ^ 21

/-- Physical address of a slice offset (R324, R326). -/
def State.slicePhys (s : State) (f off : Nat) : Nat := 2 ^ 21 * (s.pageEnt (s.sliceEnt f off)).ppn + off % 2 ^ 21

/-- Whether a selector holds a key (R332). -/
def State.keyLive (s : State) (k : Nat) : Bool := (aget s.mem.keys k).isSome

/-- The slice pages a range touches. -/
def slicePages (off len : Nat) : List Nat :=
  if len = 0 then [] else (List.range ((off + len - 1) / 2 ^ 21 - off / 2 ^ 21 + 1)).map fun i => off / 2 ^ 21 + i

/-- A slice range touches the code area of a loaded program, which the instance does not see (R307). -/
def State.codeHit (s : State) (f off len : Nat) : Bool :=
  (s.fn f).progs.any fun p => off < p.2.codeOff + p.2.codeLen && p.2.codeOff < off + len

/-- R325 and R332 on a slice range: RANGE beyond the slice, PROT where a page's selector holds no key or a program's code lies (log 153). -/
def State.sliceCheck (s : State) (f off len : Nat) : List Status :=
  (if s.sliceLen f < off + len ∨ s.sliceLen f ≤ off then [.range] else
    if (slicePages off len).all (fun i => s.keyLive (s.pageEnt ((s.part (partOf f)).cur.sbase + i)).ksel) && ! s.codeHit f off len then []
    else [.prot])

/-- Split a slice range where it crosses pages: (offset, length) pieces. -/
def slicePieces (off len : Nat) : List (Nat × Nat) :=
  (slicePages off len).map fun i =>
    let a := max off (2 ^ 21 * i)
    (a, min (off + len) (2 ^ 21 * (i + 1)) - a)

/-- The host copies of DRAM lines of a physical range are recalled before an engine uses them (R369). -/
def State.recall (s : State) (phys len : Nat) : State :=
  let hit := s.mem.dir.filter fun e => phys / 64 ≤ e.2 ∧ e.2 ≤ (phys + len - 1) / 64 ∧ 0 < len
  let s := { s with mem := { s.mem with dir := s.mem.dir.filter fun e => ¬ (hit.contains e) } }
  hit.foldl (fun s e => s.emit (.biSnp e.1 (e.2 * 64))) s

/-- Read from a slice (R324). -/
def State.sliceRead (s : State) (f off len : Nat) : List Byte :=
  (slicePieces off len).flatMap fun (o, n) => cellsGet s.mem.bytes (cellKey dramSpace (s.slicePhys f o)) n

/-- Mark the 64 KiB blocks of a physical range touched (R478). -/
def Mem.touch (m : Mem) (phys len : Nat) : Mem :=
  if len = 0 then m else
    let n := (phys + len - 1) / 65536 - phys / 65536 + 1
    let add := fun (t : List Nat) (i : Nat) => if t.contains (phys / 65536 + i) then t else t ++ [phys / 65536 + i]
    { m with touched := (List.range n).foldl add m.touched }

/-- Write bytes at a physical address (R334, R478). -/
def State.physWrite (s : State) (phys : Nat) (bs : List Byte) : State :=
  let s := s.recall phys bs.length
  { s with mem := (s.mem.touch phys bs.length).write (cellKey dramSpace phys) bs }

/-- Write to a slice, piece by piece. -/
def sliceWriteGo (s : State) (f : Nat) (ps : List (Nat × Nat)) (bs : List Byte) : State :=
  match ps with
  | [] => s
  | (o, n) :: t => sliceWriteGo (s.physWrite (s.slicePhys f o) (bs.take n)) f t (bs.drop n)

def State.sliceWrite (s : State) (f off : Nat) (bs : List Byte) : State := sliceWriteGo s f (slicePieces off bs.length) bs

/-! ### Translation of host addresses (R335-R340) -/

/-- The 4 KiB pages a range touches. -/
def hostPages (addr len : Nat) : List Nat :=
  if len = 0 then [] else (List.range ((addr + len - 1) / 4096 - addr / 4096 + 1)).map fun i => addr / 4096 + i

/-- A translation cache entry serves a page for the permission needed (R337). -/
def AtcEnt.serves (e : AtcEnt) (f gen page : Nat) (wr : Bool) : Bool :=
  e.fn = f && e.gen = gen && decide (e.addr ≤ 4096 * page) && decide (4096 * page < e.addr + e.size) && (if wr then e.w else e.r)

/-- The first page of a range that has no translation with the permission needed. While ATS is disabled nothing is translated; a read waits where
its Untranslated request will not succeed (R336). -/
def State.missing (s : State) (f addr len : Nat) (wr : Bool) : Option Nat :=
  if (s.fn f).ats.enable then
    (hostPages addr len).find? fun p => ¬ s.mem.atc.any (fun e => e.serves f (s.fn f).gen p wr)
  else if wr ∨ (s.fn f).ats.ur = [] then none
  else (hostPages addr len).find? fun p => (s.fn f).ats.ur.contains p

/-- Send a Translation Request for a page, aligned to the smallest translation unit, unless one is outstanding (R335, R338). While ATS is disabled
the read itself has gone out. -/
def State.askXlate (s : State) (f page : Nat) (wr : Bool) : State :=
  let a := (s.fn f).ats
  if a.reqs.contains (page, wr) ∨ a.enable = false then s else
    (s.modFn f fun x => { x with ats := { x.ats with reqs := x.ats.reqs ++ [(page, wr)] } }).emit (.xlateReq f (4096 * (page / 2 ^ a.stu * 2 ^ a.stu)) wr)

/-- Move the translation entries a range uses to the most recently used place (R337). -/
def State.useXlate (s : State) (f addr len : Nat) : State :=
  if (s.fn f).ats.enable then
    let used := s.mem.atc.filter fun e => e.fn = f ∧ e.addr < addr + len ∧ addr < e.addr + e.size
    { s with mem := { s.mem with atc := (s.mem.atc.filter fun e => ¬ used.contains e) ++ used } }
  else s

/-! ### The line cache of a host link (R360, R365) -/

/-- CXL.cache is usable for a function's accesses (R360). -/
def State.cacheUsable (s : State) (f : Nat) : Bool := (s.link (s.linkOf f)).cxl && s.cacheEn (s.linkOf f)

/-- Change the line cache (R365), the one of the chip. -/
def State.modLines (s : State) (g : List Line → List Line) : State := { s with mem := { s.mem with lines := g s.mem.lines } }

/-- Every line of a link leaves the line cache, written back if modified (R365). -/
def State.dropLink (s : State) (l : Nat) : State := s.modLines fun x => x.filter fun y => y.link ≠ l

/-- Drop the device's cached copies of the lines a host write covers (R360). -/
def State.dropLines (s : State) (f addr len : Nat) : State :=
  s.modLines fun l => l.filter fun x => ¬ (x.fn = f ∧ addr / 64 ≤ x.addr / 64 ∧ x.addr / 64 ≤ (addr + len - 1) / 64 ∧ 0 < len)

/-- Put a line into the line cache (R365): at most 507,904 lines, least recently used dropped first. -/
def State.fillLine (s : State) (f addr : Nat) (dirty : Bool) : State :=
  s.modLines fun l =>
    let a := addr / 64 * 64
    let was := l.any fun x => x.fn = f && x.addr = a && x.dirty
    let kept := l.filter fun x => ¬ (x.fn = f ∧ x.addr = a)
    let kept := if 507904 ≤ kept.length then kept.drop 1 else kept
    kept ++ [⟨s.linkOf f, f, a, dirty || was⟩]

/-- Write bytes of a function's host memory (R360, R381). -/
def State.hostWrite (s : State) (f addr : Nat) (bs : List Byte) : State :=
  let s := (s.dropLines f addr bs.length).useXlate f addr bs.length
  { s with mem := s.mem.write (cellKey f addr) bs }

/-- Bytes of a function's host memory. -/
def State.hostBytes (s : State) (f addr len : Nat) : List Byte := cellsGet s.mem.bytes (cellKey f addr) len

/-- What a read leaves in the line cache (R360): RdShared fills lines, unless the operation reads more than LC_MAXRUN. -/
def State.hostReadFill (s : State) (f addr len : Nat) : State :=
  let s := s.useXlate f addr len
  if s.cacheUsable f ∧ len ≤ s.lcMaxRun (s.linkOf f) then
    (linesOf addr len).foldl (fun s l => s.fillLine f (l * 64) false) s
  else s

/-! ### Local ranges: host memory or slice (R80 LSPACE) -/

/-- Static check of a local range (R81, R325, R332). -/
def State.locCheck (s : State) (f : Nat) (slice : Bool) (addr len : Nat) : List Status :=
  if slice then s.sliceCheck f addr len else []

/-- The page a local range waits for. -/
def State.locMiss (s : State) (f : Nat) (slice : Bool) (addr len : Nat) (wr : Bool) : Option Nat :=
  if slice then none else s.missing f addr len wr

def State.locRead (s : State) (f : Nat) (slice : Bool) (addr len : Nat) : List Byte :=
  if slice then s.sliceRead f addr len else s.hostBytes f addr len

def State.locWrite (s : State) (f : Nat) (slice : Bool) (addr : Nat) (bs : List Byte) : State :=
  if slice then s.sliceWrite f addr bs else s.hostWrite f addr bs

/-- What an engine's read of a slice range does to the lines hosts hold (R369), and a read of a local range besides its data. -/
def State.sliceUse (s : State) (f off len : Nat) : State := (slicePieces off len).foldl (fun s p => s.recall (s.slicePhys f p.1) p.2) s

def State.locUse (s : State) (f : Nat) (slice : Bool) (addr len : Nat) : State :=
  if slice then s.sliceUse f addr len else s.hostReadFill f addr len

/-- The address of the first poisoned granule of a local range (R344, R491). -/
def State.locPoison (s : State) (f : Nat) (slice : Bool) (addr len : Nat) : Option Nat :=
  if slice then
    ((slicePieces addr len).findSome? fun (o, n) =>
      (s.mem.firstPoison (cellKey dramSpace (s.slicePhys f o)) n).map fun k => o + (k - cellKey dramSpace (s.slicePhys f o)))
  else (s.mem.firstPoison (cellKey f addr) len).map fun k => k - cellKey f 0

/-- DETAIL of a granule's address: bits 43:12 (R344, R346). -/
def granuleDetail (addr : Nat) : Nat := addr / 4096 % 2 ^ 32

/-! ### Interrupts (R71, R359) -/

/-- Signal an MSI-X vector: a masked vector sets its pending bit instead. -/
def State.msix (s : State) (f v : Nat) : State :=
  match aget (s.fn f).msix v with
  | some (_, _, false) => s.emit (.msix f v)
  | _ => s.modFn f fun x => { x with msixPba := if x.msixPba.contains v then x.msixPba else x.msixPba ++ [v] }

/-- Bits of EVT that signal (R71). -/
def Dbg.signals (d : Dbg) : Nat := d.evt &&& (d.emask ^^^ 0xFFFFFFFF)

/-- Set the DBG_EVT bit of a ring pair; the group signals when no such bit was 1 before (R71). -/
def State.ringEvent (s : State) (f k : Nat) : State :=
  let d := agetD (s.fn f).dbgs (k / 32) {}
  let d' := { d with evt := d.evt ||| 2 ^ (k % 32) }
  let s := s.modFn f fun x => { x with dbgs := aset x.dbgs (k / 32) d' }
  if d.signals = 0 ∧ d'.signals ≠ 0 then s.msix f d.vector else s

/-! ### Quotas (R384-R386) -/

def State.qRings (s : State) (f : Nat) : Nat := if isPf f then 64 else (s.part (partOf f)).cur.rings
def State.qConns (s : State) (f : Nat) : Nat := if isPf f then 0 else (s.part (partOf f)).cur.conns
def State.qWins (s : State) (f : Nat) : Nat := if isPf f then 0 else (s.part (partOf f)).cur.windows
def State.qTallies (s : State) (f : Nat) : Nat := if isPf f then 0 else (s.part (partOf f)).cur.tallies
def State.qPrecv (s : State) (f : Nat) : Nat := if isPf f then 0 else (s.part (partOf f)).cur.precv
def State.qHerds (s : State) (f : Nat) : Nat := if isPf f then 0 else (s.part (partOf f)).cur.herds
def State.qInflight (s : State) (f : Nat) : Nat := if isPf f then 512 else (s.part (partOf f)).cur.inflight

/-- The partition holds resources (R388). -/
def PartRec.holds (r : PartRec) : Bool :=
  r.blks ≠ 0 || r.spages ≠ 0 || r.rings ≠ 0 || r.herds ≠ 0 || r.tallies ≠ 0 || r.conns ≠ 0 || r.windows ≠ 0 || r.precv ≠ 0 ||
  r.inflight ≠ 0 || r.replay ≠ 0 || r.atc ≠ 0

/-! ### Open bytes and choices -/

/-- n open bytes: a run that the manual gives and whose contents it leaves open. -/
def State.openBytes (s : State) (n : Nat) : List Byte := (List.range n).map (Config.freeByte s.free)

/-- An open choice for item i: one of two values that the manual allows. -/
def State.openPick (s : State) (i : Nat) : Bool := (Config.freeByte s.free i).toNat % 2 = 1

/-! ### Regions -/

/-- The region of an ibex block (R16). -/
def regionOf (block : Nat) : Nat := block / 16

/-- The compute domain of a region takes new work: no fence is in force or in progress on it (R458). -/
def State.regionOpen (s : State) (n : Nat) : Bool := (aget s.err.fences n).isNone && ¬ s.err.fatal

/-- The compute domain of a region (R566). -/
def State.dom (s : State) (n : Nat) : RegPow := agetD s.power.regions n {}
def State.modDom (s : State) (n : Nat) (g : RegPow → RegPow) : State :=
  { s with power := { s.power with regions := amod s.power.regions n {} g } }

/-- The device has power and is not in P-Sleep (R570, R590). -/
def State.powered (s : State) : Bool := ! s.power.off && ! s.power.sleeping && ! s.power.dead

/-- Work in a region goes on: its compute domain is ACTIVE, and no fence there has finished or is immediate (R458-R460, R566, R568). -/
def State.regionLive (s : State) (n : Nat) : Bool :=
  ! s.err.fatal && s.powered && (s.dom n).st = 0 && (match aget s.err.fences n with | some x => ¬ x.done && ¬ x.immediate | none => true)

/-! ### Errors on their way to a record (R26) -/

def State.report (s : State) (block cell code info : Nat) : State :=
  { s with err := { s.err with inbox := s.err.inbox ++ [⟨block, cell, code, info, s.clk.time⟩] } }

end Sys2Proof.Machine
end

