-- ==== Sys2Proof/Machine/Mesh.lean ====
section
/-!
DEFINITION. Mesh.lean: reserved circuits of the bulk channel (R31, R32, R36).
-/

namespace Sys2Proof.Machine

/-- Units a circuit holds on the spine link from one region to another; each pair of regions has one link. -/
def Circuit.onLink (c : Circuit) (a b : Nat) : Nat := if c.src = a ∧ c.dst = b ∧ a ≠ b then c.units else 0

/-- Units a circuit holds on the link to one of its blocks: its share, rounded up, and at least 1. -/
def Circuit.onBranch (c : Circuit) (block : Nat) : Nat :=
  if c.branches.contains block then max 1 (ceilDiv c.units c.branches.length) else 0

def unitsSum (l : List Nat) : Nat := l.foldl (· + ·) 0

/-- A circuit may be granted: fewer than 32 stand, and no link passes 12 units (R31). -/
def Mesh.fits (m : Mesh) (c : Circuit) : Bool :=
  decide (m.circs.length < 32) &&
  decide (unitsSum (m.circs.map fun x => x.onLink c.src c.dst) + c.onLink c.src c.dst ≤ 12) &&
  c.branches.all fun b => decide (unitsSum (m.circs.map fun x => x.onBranch b) + c.onBranch b ≤ 12)

/-- R32: allocate a circuit, or count the refusal. -/
def State.reqCircuit (s : State) (c : Circuit) : State :=
  if s.mesh.fits c then
    { s with mesh := { s.mesh with circs := s.mesh.circs ++ [c], peak := max s.mesh.peak (s.mesh.circs.length + 1) } }
  else { s with mesh := { s.mesh with refused := satAdd 0xFFFF s.mesh.refused 1 } }

/-- Release the circuits of an owner. -/
def State.dropCircuits (s : State) (owner : Nat × Nat × Nat) : State :=
  { s with mesh := { s.mesh with circs := s.mesh.circs.filter fun c => c.owner ≠ owner } }

/-- Circuits of an owner that stand. -/
def State.circuitsOf (s : State) (owner : Nat × Nat × Nat) : Nat := (s.mesh.circs.filter fun c => c.owner = owner).length

end Sys2Proof.Machine
end

