-- ==== Sys2Proof/Machine/Wake.lean ====
section
/-!
DEFINITION. Wake.lean: domains, their clock steps and rails, and what wakes a domain in DOZE (R560-R563, R568, R574, R575).
-/

namespace Sys2Proof.Machine

/-! ### Domains, steps and rails (R560-R563, R574, R575) -/

/-- A compute domain is powered: ACTIVE, IDLE or TESTING (R574). -/
def RegPow.powered (d : RegPow) : Bool := d.st = 0 || d.st = 1 || d.st = 4

/-- The neighbours of a region (R574). -/
def neighbours (n : Nat) : List Nat := if n = 0 ∨ n = 3 then [1, 2] else [0, 3]

/-- The powered neighbours of a region. -/
def State.near (s : State) (n : Nat) : List Nat := (neighbours n).filter fun m => (s.dom m).powered

/-- A domain runs on the reference: asked for in CLK_DOM_SEL and switched (R564, R565). -/
def State.onRef (s : State) (n : Nat) : Bool := s.power.ref.testBit n != s.power.refPend.testBit n

/-- CLK_REG_CFG.TARGET as it acts (R581). -/
def State.target (s : State) (n : Nat) : Nat := clamp 4 16 (s.fld (0x100100 + 8 * n) 0 5)

/-- R575: the neighbour cap. -/
def State.ncap (s : State) (n : Nat) : Nat :=
  (s.near n).foldl (fun k m => min k (if s.onRef m then 5 else 4 * max 4 (s.dom m).k)) 16

/-- R560: the effective k; a domain under test runs at k = 16 (R547, R566). -/
def State.effK (s : State) (n : Nat) : Nat :=
  let d := s.dom n
  if d.st = 4 then s.ncap n else min (min (s.target n) d.pcap) (min d.tcap (s.ncap n))

/-- V(k) in mV (R563). -/
def railV (k : Nat) : Nat := 520 + 20 * k

/-- The next step of a domain (R561): from stop it is k = 4. -/
def State.nextK (s : State) (n : Nat) : Nat :=
  let k := (s.dom n).k
  let e := s.effK n
  if k = 0 then 4 else if k < e then k + 1 else if e < k then k - 1 else k

/-- The setpoint of a powered or waking domain's rail (R563). -/
def State.setpoint (s : State) (n : Nat) : Nat :=
  (s.near n).foldl (fun v m => max v ((s.dom m).rail - 60)) (railV (s.nextK n))

/-- Two rails are within 5 mV. -/
def railNear (a b : Nat) : Bool := decide (a ≤ b + 5 ∧ b ≤ a + 5)

/-! ### Waking (R568) -/

/-- Step 1 of a wake: the rail slews, or is there already. -/
def State.wakeStart (s : State) (n : Nat) : State :=
  s.modDom n fun d => { d with wake := if railNear d.rail (s.setpoint n) then 2 else 1, railSet := railNear d.rail (s.setpoint n) }

/-- R568: a wake source reaches a domain in DOZE. -/
def State.regionWake (s : State) (n : Nat) : State :=
  let d := s.dom n
  if d.st = 2 ∧ d.wake = 0 ∧ s.powered then s.wakeStart n else s

/-- A start that needs some of these ibex blocks wakes their domains (R568). -/
def State.wakeBlocks (s : State) (blks : Nat) : State :=
  (List.range 4).foldl (fun s n => if bitsOf blks (16 * n) 16 = 0 then s else s.regionWake n) s

/-- A doorbell to a ring pair wakes the domains that hold its partition's ibex blocks, or the physical function's own (R69, R568). -/
def State.bellWake (s : State) (f : Nat) : State :=
  if isPf f then s.regionWake f else s.wakeBlocks (s.part (partOf f)).cur.blks

end Sys2Proof.Machine
end

