-- ==== Sys2Proof/Machine/Journal.lean ====
section
/-!
DEFINITION. Journal.lean: committing records of the change journal (R435-R440), by class of event.
-/

namespace Sys2Proof

/-- Code of a status (R7). -/
def Status.code : Status → Nat
  | .ok => 0 | .state => 1 | .range => 2 | .prot => 3 | .revoked => 4 | .faulted => 5 | .poison => 6 | .auth => 7
  | .peerLost => 8 | .flushed => 9 | .busy => 10 | .tooLong => 11 | .exhausted => 12 | .late => 13 | .degraded => 14
  | .internal => 15

def Origin.code : Origin → Nat
  | .host _ _ => 0 | .bus _ => 1 | .firmware => 2 | .inst _ => 3

def Origin.link : Origin → Nat
  | .host l _ => l.val | _ => 0

def Origin.idNum : Origin → Nat
  | .host _ i => i | .bus n => n | .firmware => 0 | .inst p => p.val

end Sys2Proof

namespace Sys2Proof.Machine

/-- Of the conditions that hold for one operation, INTERNAL if it is among them, else the lowest code (R9). -/
def pick (l : List Status) : Option Status :=
  if l.contains .internal then some .internal else
    l.foldl (fun acc x => match acc with
      | none => if x = .ok then none else some x
      | some y => if x ≠ .ok ∧ x.code < y.code then some x else some y) none

/-- A condition and the status it gives. -/
def ck (c : Prop) [Decidable c] (st : Status) : List Status := if c then [st] else []

/-! ### The bytes of a record (R436, R438) -/

def JBody.type : JBody → Nat
  | .boot .. => 1 | .setup .. => 2 | .partcmd .. => 3 | .key .. => 4 | .state .. => 5 | .fw .. => 6 | .link .. => 7
  | .error .. => 8 | .time .. => 9

/-- Bytes 28 to 79 of a record. -/
def JBody.bytes (b : JBody) : List Byte :=
  let l := match b with
    | .boot n im svn => leBytes 32 n ++ leBytes 1 im ++ leBytes 1 0 ++ leBytes 2 svn
    | .setup off w ig old new => leBytes 4 off ++ leBytes 1 w ++ leBytes 1 (bit ig) ++ leBytes 6 0 ++ leBytes 8 old ++ leBytes 8 new
    | .partcmd oc p st d => leBytes 2 oc ++ leBytes 1 p ++ leBytes 1 st.code ++ leBytes 48 d
    | .key sub p sl st cn ke d k dev sa => leBytes 1 sub ++ leBytes 1 p ++ leBytes 1 sl ++ leBytes 1 st.code ++ leBytes 4 cn ++
        leBytes 2 ke ++ leBytes 1 d ++ leBytes 1 k ++ leBytes 8 dev ++ leBytes 16 sa
    | .state r oc t => leBytes 2 r ++ leBytes 2 oc ++ leBytes 4 t.toNat
    | .fw a i => leBytes 1 a ++ leBytes 51 i
    | .link e l fn => leBytes 1 e ++ leBytes 1 l ++ leBytes 1 fn
    | .error lv sv u sy => leBytes 1 lv ++ leBytes 1 sv ++ leBytes 2 u ++ leBytes 8 sy
    | .time d te => leBytes 8 (unsignedOf 64 d) ++ leBytes 1 te
  l ++ List.replicate (52 - l.length) 0

/-- Bytes 0 to 79 of a record, in order. -/
def JRec.head (r : JRec) : List Byte :=
  leBytes 8 r.seq ++ leBytes 8 r.time ++ leBytes 1 r.tepoch ++ leBytes 1 r.body.type ++ leBytes 1 r.origin.code ++
  leBytes 1 r.origin.link ++ leBytes 2 r.origin.idNum ++ leBytes 1 (bit r.mixed + 2 * bit r.final) ++ leBytes 1 0 ++
  leBytes 4 r.count ++ r.body.bytes

/-- The 48 bytes of a chain value, byte 0 first. -/
def chainBytes (c : BitVec 384) : List Byte := leBytes 48 c.toNat

/-- CHAIN of a record from the one before it (R437). -/
def JRec.chainFrom (prev : BitVec 384) (r : JRec) : BitVec 384 :=
  Config.sha384 ((chainBytes prev ++ r.head).map fun b => b.toNat)

/-! ### Commit -/

/-- Records held on die that have not been exported, with the space that open STATE records have reserved (R64, R440). -/
def Jrnl.used (j : Jrnl) : Nat := (j.next - j.exported) + j.gather.length

/-- The journal is full (R440). -/
def Jrnl.full (j : Jrnl) : Bool := 7168 ≤ j.used

/-- Commit a record: it takes the next SEQ and its CHAIN (R435, R437); the export vector is signalled when USED rises past 4,096
(R442). -/
def Jrnl.commit (j : Jrnl) (r : JRec) : Jrnl :=
  let r := { r with seq := j.next }
  let r := { r with chain := r.chainFrom j.chain }
  { j with recs := j.recs ++ [r], next := j.next + 1, chain := r.chain,
           signal := j.signal || (j.used = 4096) }

/-- A new record with the time of now. -/
def State.newRec (s : State) (o : Origin) (b : JBody) : JRec :=
  { seq := 0, time := s.clk.time, tepoch := s.clk.tepoch, origin := o, body := b }

/-- The vector of the export ring, when a commit raised USED past 4,096 (R442). -/
def State.jrnlSignal (s : State) : State :=
  if s.jrnl.signal then
    { s with jrnl := { s.jrnl with signal := false } }.msix (s.fld 0x2400008 5 2) (s.fld 0x2400008 8 8)
  else s

/-- Commit an event that waits for nothing: refusable events once the journal has room, waitable ones likewise (R440). -/
def State.jCommit (s : State) (o : Origin) (b : JBody) : State :=
  { s with jrnl := s.jrnl.commit (s.newRec o b) }.jrnlSignal

/-- Count an unwaitable event in a counting record (R440). -/
def countIn (l : List JRec) (r : JRec) : List JRec :=
  if l.any fun x => x.body.type = r.body.type ∧ x.origin = r.origin then
    l.map fun x => if x.body.type = r.body.type ∧ x.origin = r.origin then { x with count := satAdd 0xFFFFFFFF x.count 1 } else x
  else if l.length < 128 then l ++ [r]
  else match l.reverse with
    | [] => l
    | x :: t => ({ x with count := satAdd 0xFFFFFFFF x.count 1, mixed := true } :: t).reverse

/-- Record an unwaitable event: it commits while the reserve lasts, and is counted in a counting record afterwards (R440). -/
def State.jMust (s : State) (o : Origin) (b : JBody) (final : Bool := false) : State :=
  let r := { s.newRec o b with final := final }
  if s.jrnl.used < 8064 ∧ s.jrnl.counting = [] then { s with jrnl := s.jrnl.commit r }.jrnlSignal
  else { s with jrnl := { s.jrnl with counting := countIn s.jrnl.counting r } }

/-- Commit every open counting record, in order of opening, when export has freed space in the rest of the reserve (R440). -/
def State.jDrain (s : State) : State :=
  if s.jrnl.used < 8064 ∧ s.jrnl.counting ≠ [] then
    let j := s.jrnl.counting.foldl (fun j r => j.commit r) { s.jrnl with counting := [] }
    { s with jrnl := j }.jrnlSignal
  else s

/-- The record of a gathered STATE completion (R64): ORIGIN 0 with the function, TIME of the first completion. -/
def State.stateJRec (s : State) (g : StateRec) : JRec :=
  { seq := 0, time := g.time, tepoch := g.tepoch, origin := s.originOf g.fn, count := g.count, body := .state g.ring g.opcode g.tag }

/-- Commit a gathered STATE record. -/
def State.gatherCommit (s : State) (g : StateRec) : State :=
  let j := { s.jrnl with gather := s.jrnl.gather.filter (fun x => x ≠ g) }
  { s with jrnl := j.commit (s.stateJRec g) }.jrnlSignal

/-- Count a STATE completion of a ring pair and opcode (R64): it joins the open record within 1 ms of the first, or opens one. -/
def State.gatherState (s : State) (f ring opcode : Nat) (tag : BitVec 32) : State :=
  let same := fun (g : StateRec) => g.fn = f ∧ g.ring = ring ∧ g.opcode = opcode
  let s := match s.jrnl.gather.find? (fun g => same g ∧ g.at_ + 1000000 < s.now) with
    | some g => s.gatherCommit g
    | none => s
  if s.jrnl.gather.any (fun g => decide (same g)) then
    let g' := s.jrnl.gather.map fun g => if same g then { g with count := satAdd 0xFFFFFFFF g.count 1 } else g
    { s with jrnl := { s.jrnl with gather := g' } }
  else
    { s with jrnl := { s.jrnl with gather := s.jrnl.gather ++
      [⟨f, ring, opcode, tag, s.clk.time, s.clk.tepoch, 1, s.now⟩] } }

/-- A KEY record body with only the fields a SUB uses (R438). -/
def jKey (sub part slot : Nat) (st : Status) (conn kepoch dir kind dev salt : Nat := 0) : JBody :=
  .key sub part slot st conn kepoch dir kind dev salt

/-- The requester of a device event that no one requested: the partition that owns the object, or the firmware (R436). -/
def ownerOf (f : Nat) : Origin := if isPf f then .firmware else .inst ⟨partOf f % 16, Nat.mod_lt _ (by decide)⟩

end Sys2Proof.Machine
end

