-- ==== Sys2Proof/Machine/Complete.lean ====
section
/-!
DEFINITION. Complete.lean: starting ring entries, ending operations, writing completions and raising tallies: what every ring
command shares (R7-R9, R50-R57, R73-R78, R115-R118).
-/

namespace Sys2Proof

/-- Statuses with which LT_EN counts and that a FENCE does not count as failures (R72, R118). -/
def Status.good : Status → Bool
  | .ok | .late | .degraded => true
  | _ => false

end Sys2Proof

namespace Sys2Proof.Machine

/-! ### Rings -/

def State.ring (s : State) (f k : Nat) : Ring := agetD (s.fn f).rings k {}
def State.modRing (s : State) (f k : Nat) (g : Ring → Ring) : State :=
  s.modFn f fun x => { x with rings := amod x.rings k {} g }

/-- Slots of the submission ring, entries of the completion ring (R49). -/
def Ring.sqSize (r : Ring) : Nat := 2 ^ r.sqLog
def Ring.cqSize (r : Ring) : Nat := 2 ^ r.cqLog

/-- Free completion slots, less those reserved (R75). -/
def Ring.cqFree (r : Ring) : Nat := modSub r.cqSize r.cqHead (r.cqTail + 1) - r.reserved

/-- Entries of the in-flight table in use: operations and completions that wait to be written (R75, R78). -/
def State.inflight (s : State) (f : Nat) : Nat :=
  (s.fn f).ops.length + (s.fn f).rings.foldl (fun n r => n + r.2.waiting.length) 0

/-! ### Completion entries -/

/-- The 32 bytes of a completion entry (R73). -/
def Compl.bytes32 (c : Compl) (phase : Bool) (sqhead : Nat) : List Byte :=
  leBytes 4 c.tag.toNat ++ leBytes 2 c.gen ++ leBytes 1 c.status.code ++ leBytes 1 (128 * bit phase) ++
  leBytes 6 c.bytes ++ leBytes 2 ((c.sqhead).getD sqhead) ++ leBytes 8 c.time ++
  leBytes 4 c.detail ++ leBytes 2 c.opcode ++ leBytes 1 0 ++ leBytes 1 c.tepoch

/-- A completion of now. -/
def State.compl (s : State) (f : Nat) (st : Status) (tag : BitVec 32) (opcode bytes detail : Nat) : Compl :=
  { status := st, gen := (s.fn f).gen, tag := tag, sqhead := none, bytes := bytes, opcode := opcode, detail := detail,
    slot := false, time := s.clk.time, tepoch := s.clk.tepoch }

/-- The completion event of a ring pair fires: it disarms and sets the DBG_EVT bit (R76). -/
def State.fireEvent (s : State) (f k : Nat) : State :=
  (s.modRing f k fun r => { r with armed := false, armedN := 0, armedAt := none }).ringEvent f k

/-- Count a completion written while the ring pair is armed (R76). -/
def State.countEvent (s : State) (f k : Nat) : State :=
  let r := s.ring f k
  if r.armed then
    let s := s.modRing f k fun r => { r with armedN := r.armedN + 1, armedAt := some (r.armedAt.getD s.now) }
    if r.count ≤ r.armedN + 1 then s.fireEvent f k else s
  else s

/-- Whether a completion can be written now: the ring pair's completion ring has not been refused since it was last ACTIVE, an entry is
free for it, and its page is translated (R62, R75). A ring pair in ERROR for its submission ring still writes completions. -/
def State.cqReady (s : State) (f k : Nat) (c : Compl) : Bool :=
  let r := s.ring f k
  r.state ≠ .free && ! r.cqBad && (c.slot || decide (0 < r.cqFree)) &&
  (s.missing f (r.cqBase + 32 * r.cqTail) 32 true).isNone

/-- Write a completion entry and move on (R73, R74). -/
def State.putCompl (s : State) (f k : Nat) (c : Compl) : State :=
  let r := s.ring f k
  let s := s.hostWrite f (r.cqBase + 32 * r.cqTail) (c.bytes32 r.cqPhase r.head)
  let wrap := r.cqTail + 1 = r.cqSize
  let s := s.modRing f k fun r =>
    { r with cqTail := (r.cqTail + 1) % r.cqSize, cqPhase := if wrap then !r.cqPhase else r.cqPhase,
             reserved := if c.slot then r.reserved - 1 else r.reserved }
  s.countEvent f k

/-- Hand a completion to a ring pair: written at once, or waiting in the in-flight table (R62, R75); one with a slot of its own never
waits behind one that waits for space. A FREE ring pair's is discarded and counted. -/
def State.complete (s : State) (f k : Nat) (c : Compl) : State :=
  let r := s.ring f k
  if r.state = .free then s.modFn f fun x => { x with cnt := { x.cnt with complDropped := x.cnt.complDropped + 1 } }
  else if (r.waiting = [] ∨ (c.slot = true ∧ r.waiting.all fun w => ! w.slot)) ∧ s.cqReady f k c then s.putCompl f k c
  else
    let s := s.modRing f k fun r => { r with waiting := r.waiting ++ [c] }
    match s.missing f (r.cqBase + 32 * r.cqTail) 32 true with
    | some p => (s.modRing f k fun r => { r with cqPark := some p }).askXlate f p true
    | none => s

/-! ### Tallies (R115, R122, R124) -/

/-- Waiting armed requests whose threshold a count reaches, ascending by THRESH and in arming order (R124). -/
def reached (l : List Armed) (i count : Nat) : List Armed :=
  let hit := l.filter fun a => match a.trig with
    | .tally j th => j = i ∧ th ≤ count
    | _ => false
  sortBy (fun a b => match a.trig, b.trig with
    | .tally _ x, .tally _ y => decide (x < y) || (decide (x = y) && decide (a.seq ≤ b.seq))
    | _, _ => decide (a.seq ≤ b.seq)) hit

/-- Armed requests become FIRED: their embedded operations run in this order (R123). -/
def State.fire (s : State) (f : Nat) (l : List Armed) : State :=
  s.modFn f fun x => { x with armed := x.armed.filter (fun a => ¬ l.contains a), firing := x.firing ++ l.map (·.op) }

/-- Give an allocated tally a count; requests it satisfies fire (R115, R124). Updates of a
tally that an uncorrectable error struck are ignored (R488). -/
def State.tallyPut (s : State) (f i count : Nat) : State :=
  match aget (s.fn f).tallies i with
  | none => s
  | some t =>
    if t.bad then s else
      let s := s.modFn f fun x => { x with tallies := aset x.tallies i { t with count := count } }
      s.fire f (reached (s.fn f).armed i count)

/-- Add to a tally, saturating at 2^64 − 1 (R115). -/
def State.tallyAdd (s : State) (f i v : Nat) : State :=
  match aget (s.fn f).tallies i with
  | none => s
  | some t => s.tallyPut f i (satAdd (2 ^ 64 - 1) t.count v)

/-- A tally index that may be used (R81, R116). -/
def State.tallyOk (s : State) (f i : Nat) : Bool := (aget (s.fn f).tallies i).isSome

/-- A tally command other than TALLY_FREE on a struck tally ends INTERNAL (R488). -/
def State.tallyStruck (s : State) (f i : Nat) : List Status :=
  match aget (s.fn f).tallies i with
  | some t => ck (t.bad = true) .internal
  | none => []

/-! ### Operations -/

def State.op? (s : State) (f id : Nat) : Option Op := (s.fn f).ops.find? fun o => o.id = id
def State.modOp (s : State) (f id : Nat) (g : Op → Op) : State :=
  s.modFn f fun x => { x with ops := x.ops.map fun o => if o.id = id then g o else o }

/-- The status an operation reports when LATE or DEGRADED also holds (R9). -/
def Op.final (o : Op) (st : Status) : Status :=
  if st = .ok then (if o.late then .late else if o.degraded then .degraded else .ok) else st

/-- Remove an operation and tell the fences that cover it how it ended (R72). -/
def State.dropOp (s : State) (f id : Nat) (good : Bool) : State :=
  s.modFn f fun x => { x with ops := (x.ops.filter fun o => o.id ≠ id).map fun o =>
    if ¬ good ∧ o.covered.contains id then { o with bad := o.bad + 1 } else o }

/-- End an operation with one completion (R8, R84, R118). An operation of an earlier generation ends with none, and touches nothing
(R77). A STATE completion is journalled, or ends BUSY while the journal is full (R64, R440). One that waits for its trigger has not
started, and no fence counts it (R72). -/
def State.endOp (s : State) (f id : Nat) (st : Status) (bytes detail : Nat) : State :=
  match s.op? f id with
  | none => s
  | some o =>
    if o.gen ≠ (s.fn f).gen then s.dropOp f id true
    else
      let st := o.final st
      let full := st = .state ∧ s.jrnl.full
      let detail := if full then s.hint else detail
      let s := if full then s.bump else s
      let st := if full then .busy else st
      let s := if st = .state then s.gatherState f o.ring o.opcode o.tag else s
      let s := match o.ltally with
        | some t => if st.good then s.tallyAdd f t 1 else s
        | none => s
      let s := s.dropOp f id st.good
      let s := if st.good ∨ o.waiting then s else s.modRing f o.ring fun r => { r with badEnds := r.badEnds + 1 }
      s.complete f o.ring { s.compl f st o.tag o.opcode bytes detail with gen := o.gen, slot := o.slot, op := some id }

/-- End an operation BUSY with a hint between 1 and 1,000 µs that the manual leaves open. -/
def State.endBusy (s : State) (f id : Nat) : State := (s.endOp f id .busy 0 s.hint).bump

/-- End with the status R9 selects, or go on. -/
def State.checked (s : State) (f id : Nat) (l : List Status) (k : State → State) : State :=
  match pick l with
  | some .busy => s.endBusy f id
  | some st => s.endOp f id st 0 0
  | none => k s

/-- Park an operation at a page: a Translation Request goes out, and the command runs again when it is answered (R338, R343). -/
def State.parkOp (s : State) (f id page : Nat) (wr : Bool) : State :=
  (s.modOp f id fun o => { o with park := some (page, wr) }).askXlate f page wr

/-- Go on once host ranges (address, length, write) are translated, or park. -/
def State.withHost (s : State) (f id : Nat) (l : List (Nat × Nat × Bool)) (k : State → State) : State :=
  match l.findSome? (fun (a, n, w) => (s.missing f a n w).map fun p => (p, w)) with
  | some (p, w) => s.parkOp f id p w
  | none => k s

/-- Read a host range for a command's table, record or image: poisoned data ends POISON (R343, R491). -/
def State.readHostFor (s : State) (f id addr len : Nat) (k : List Byte → State → State) : State :=
  s.withHost f id [(addr, len, false)] fun s =>
    match s.locPoison f false addr len with
    | some a => s.endOp f id .poison 0 (granuleDetail a)
    | none => k (s.hostBytes f addr len) (s.hostReadFill f addr len)

/-- Write a record to host memory and end OK (R348 record writes). -/
def State.writeRecord (s : State) (f id addr : Nat) (bs : List Byte) (detail : Nat) : State :=
  s.withHost f id [(addr, bs.length, true)] fun s => (s.hostWrite f addr bs).endOp f id .ok bs.length detail

/-! ### Starting an entry -/

/-- Rings of the function start nothing while its partition is resetting, freezing, frozen or restoring (R398, R399, R401). -/
def State.starts (s : State) (f : Nat) : Bool :=
  ¬ s.err.fatal && s.powered && ¬ (s.fn f).resetting &&
  (isPf f || (s.part (partOf f)).state = .active || (s.part (partOf f)).state = .resizing)

/-- An entry of a ring pair can start: the ring pair is ACTIVE with no FENCE holding it, a completion slot and an in-flight entry are
free (R62, R72, R75, R78). -/
def State.canStart (s : State) (f k : Nat) : Bool :=
  let r := s.ring f k
  s.starts f && r.state = .active && r.fence.isNone && r.sqPark.isNone && decide (0 < r.cqFree) && decide (s.inflight f < s.qInflight f)

/-- Slots an entry occupies: past the ring's last slot it takes those up to the end (R55). -/
def Ring.taken (r : Ring) (slots : Nat) : Nat := min slots (r.sqSize - r.head)

/-- Move the head over an entry (R53, R56). -/
def Ring.advance (r : Ring) (n : Nat) : Ring :=
  { r with head := (r.head + n) % r.sqSize, phase := if r.head + n = r.sqSize then !r.phase else r.phase,
           cache := r.cache.filter fun c => ¬ (r.head ≤ c.1 ∧ c.1 < r.head + n),
           lap := r.lap.map fun l => l - n }

/-- Checks of an entry's header (R12, R52, R55, R57, R530): `lens` the permitted lengths, `raw` and `norm` whether the opcode is
permitted on a frame-form and on any other ring. -/
def State.headerChecks (s : State) (e : Entry) (lens : Nat → Bool) (raw norm : Bool) : List Status :=
  let r := s.ring e.fn.idx e.ring
  ck (r.sqSize - r.head < e.slots) .range ++ ck (lens e.slots = false) .range ++ ck (e.rsv = true) .range ++
  ck ((if r.raw then raw else norm) = false) .range ++ ck (e.gen ≠ (s.fn e.fn.idx).gen) .flushed

/-- The operation a starting entry becomes. -/
def newOp (s : State) (e : Entry) (opcode : Nat) (cmd : Instr) : Op :=
  { id := (s.fn e.fn.idx).nextOp, gen := (s.fn e.fn.idx).gen, ring := e.ring, tag := e.tag, opcode := opcode, cmd := cmd }

/-- The ring's head has moved over an entry, and a completion slot is reserved for it (R53, R56, R75). -/
def State.taken (s : State) (e : Entry) : State :=
  s.modRing e.fn.idx e.ring fun r => { r.advance (r.taken e.slots) with reserved := r.reserved + 1 }

/-- An entry has started: it is taken, and its operation is in the in-flight table (R56, R78). -/
def State.begun (s : State) (e : Entry) (opcode : Nat) (cmd : Instr) : State :=
  (s.taken e).modFn e.fn.idx fun x => { x with ops := x.ops ++ [newOp s e opcode cmd], nextOp := x.nextOp + 1 }

/-- Start the entry at a ring's head (R56, R75): nothing happens while it cannot start. A header that fails ends the entry without
starting it, under the entry's own GEN; otherwise its operation takes an in-flight entry and its effect begins. -/
def State.startEntry (s : State) (e : Entry) (opcode : Nat) (lens : Nat → Bool) (cmd : Instr) (eff : Nat → State → State)
    (raw : Bool := false) (norm : Bool := true) : State :=
  let f := e.fn.idx
  if s.canStart f e.ring then
    match pick (s.headerChecks e lens raw norm) with
    | some st => (s.taken e).complete f e.ring { (s.taken e).compl f st e.tag opcode 0 0 with gen := e.gen, slot := true }
    | none => eff (newOp s e opcode cmd).id (s.begun e opcode cmd)
  else s

/-- Exactly n slots (R52). -/
def len1 (n : Nat) : Bool := n = 1
def len2 (n : Nat) : Bool := n = 2

/-- A command of the admin ring: RANGE on any other ring (R65). -/
def adminOnly (e : Entry) : List Status := ck (e.ring ≠ 0) .range

/-- A command of a physical function's admin ring: PROT elsewhere (R196, R391). -/
def pfAdminOnly (e : Entry) : List Status := ck (isPf e.fn.idx = false ∨ e.ring ≠ 0) .prot

/-- A command of an instance's admin ring: RANGE on another ring of an instance, PROT on a physical function's (R426). -/
def instAdminOnly (e : Entry) : List Status :=
  ck (isPf e.fn.idx = true) .prot ++ ck (isPf e.fn.idx = false ∧ e.ring ≠ 0) .range

/-! ### Faults in ring memory (R62) -/

/-- INFO of RING_MEM (R465): partition, ring pair; 0xFF stands for a physical function (log 80). -/
def ringInfo (f k : Nat) : Nat := (if isPf f then 0xFF else partOf f) + 2 ^ 8 * k

/-- Submission ring memory denied (PROT) or poisoned (POISON): one completion on the ring pair's own completion ring, then ERROR. The table
names ACTIVE alone; a ring pair that is PAUSED when its parked fetch is denied goes the same way (DESIGN CHOICE, log 139), and in any
other state the fetch is dropped. -/
def State.sqMemError (s : State) (f k : Nat) (st : Status) (slot : Nat) : State :=
  let r := s.ring f k
  if r.state = .active ∨ r.state = .paused then
    let s := s.complete f k { s.compl f st 0 0x7FF 0 0 with sqhead := some slot }
    let s := s.modRing f k fun r => { r with state := .error, scan := false, sqPark := none }
    s.report (72 + s.linkOf f) 0xFF 0x50 (ringInfo f k)
  else s.modRing f k fun r => { r with sqPark := none }

/-- A completion ring write refused: the ring pair goes to ERROR, reported on the admin ring and in DBG_EVT; a DRAINING one discards
its completion. -/
def State.cqMemError (s : State) (f k : Nat) (st : Status) : State :=
  let r := s.ring f k
  let s := s.modRing f k fun r => { r with cqPark := none }
  if r.state = .active ∨ r.state = .paused then
    let s := s.modRing f k fun r => { r with state := .error, scan := false, cqBad := true }
    let s := if k = 0 then s else s.complete f 0 (s.compl f st 0 0x7FF 0 (k % 1024 + 2 ^ 31))
    (s.ringEvent f k).report (72 + s.linkOf f) 0xFF 0x50 (ringInfo f k)
  else if r.state = .draining then
    let s := s.modFn f fun x => { x with cnt := { x.cnt with complDropped := x.cnt.complDropped + r.waiting.length } }
    (s.modRing f k fun r => { r with waiting := [] }).report (72 + s.linkOf f) 0xFF 0x50 (ringInfo f k)
  else s

end Sys2Proof.Machine
end

