-- ==== Sys2Proof/Machine/Numeric.lean ====
section
/-!
DEFINITION. Numeric.lean: number formats, rounding, reductions, exact records and MX quantisation, bit for bit (R209-R232). A value is
an exact dyadic number, so every result is rounded exactly once.
-/

namespace Sys2Proof.Machine

/-! ### Exact values -/

/-- An exact value: NaN, an infinity, or (−1)^neg · m · 2^e; a zero keeps its sign. -/
inductive Num where
  | nan
  | inf (neg : Bool)
  | fin (neg : Bool) (m : Nat) (e : Int)
  deriving DecidableEq, Repr

/-- Exceptions counted by an ibex block (R233): NaN made, overflow, saturated, integer wrap, blocks quantised with scale 0xFF. -/
structure Exc where
  nan  : Nat := 0
  ovf  : Nat := 0
  sat  : Nat := 0
  wrap : Nat := 0
  qnan : Nat := 0
  deriving DecidableEq, Repr

def Exc.add (a b : Exc) : Exc := ⟨a.nan + b.nan, a.ovf + b.ovf, a.sat + b.sat, a.wrap + b.wrap, a.qnan + b.qnan⟩

/-- The exceptions of a list of results. -/
def Exc.sum (l : List Exc) : Exc := l.foldl Exc.add {}

def Num.zero : Num := .fin false 0 0
def Num.ofInt (i : Int) : Num := .fin (decide (i < 0)) i.natAbs 0
def Num.isNan : Num → Bool
  | .nan => true | _ => false
def Num.isInf : Num → Bool
  | .inf _ => true | _ => false
def Num.isZero : Num → Bool
  | .fin _ m _ => m = 0 | _ => false

/-- The signed mantissa of a finite value at an exponent no greater than its own. -/
def Num.at_ (x : Num) (e : Int) : Int :=
  match x with
  | .fin n m k => let v : Int := ((m * 2 ^ (k - e).toNat : Nat) : Int); if n then -v else v
  | _ => 0

def Num.exp : Num → Int
  | .fin _ _ e => e | _ => 0

def Num.neg : Num → Num
  | .nan => .nan | .inf n => .inf (!n) | .fin n m e => .fin (!n) m e

def Num.abs : Num → Num
  | .nan => .nan | .inf _ => .inf false | .fin _ m e => .fin false m e

/-- Exact sum of two values; a zero sum is −0 only when both are −0 (DEDUCED, log 20). -/
def Num.add (x y : Num) : Num :=
  match x, y with
  | .nan, _ => .nan
  | _, .nan => .nan
  | .inf a, .inf b => if a = b then .inf a else .nan
  | .inf a, _ => .inf a
  | _, .inf b => .inf b
  | .fin a m e, .fin b n k =>
    let lo := min e k
    let v := (Num.fin a m e).at_ lo + (Num.fin b n k).at_ lo
    if v = 0 then .fin (a && b && m = 0 && n = 0) 0 0 else .fin (decide (v < 0)) v.natAbs lo

/-- Exact sum under R215: a zero sum is +0, whatever its terms. -/
def Num.sum (x y : Num) : Num := if (x.add y).isZero then .zero else x.add y

/-- Exact product. -/
def Num.mul (x y : Num) : Num :=
  match x, y with
  | .nan, _ => .nan
  | _, .nan => .nan
  | .inf a, .inf b => .inf (a != b)
  | .inf a, .fin b m _ => if m = 0 then .nan else .inf (a != b)
  | .fin a m _, .inf b => if m = 0 then .nan else .inf (a != b)
  | .fin a m e, .fin b n k => .fin (a != b) (m * n) (e + k)

/-- Strictly less, of values that are not NaN, with −0 below +0 (R219). -/
def Num.lt (x y : Num) : Bool :=
  match x, y with
  | .nan, _ => false
  | _, .nan => false
  | .inf a, .inf b => a && !b
  | .inf a, _ => a
  | _, .inf b => !b
  | .fin a m e, .fin b n k =>
    let lo := min e k
    let v := (Num.fin a m e).at_ lo
    let w := (Num.fin b n k).at_ lo
    decide (v < w) || (v = w && m = 0 && a && !b)

/-- R219: MAX and MIN. -/
def Num.max (x y : Num) : Num := if x.isNan || y.isNan then .nan else if x.lt y then y else x
def Num.min (x y : Num) : Num := if x.isNan || y.isNan then .nan else if y.lt x then y else x

/-! ### Formats (R209, R210) -/

/-- A floating-point format: exponent and mantissa bits, and whether it keeps IEEE infinities and NaNs (`top`: the largest finite
code of a format that does not). -/
structure Flt where
  eb  : Nat
  mb  : Nat
  top : Option Nat
  deriving DecidableEq, Repr

def fltE4M3 : Flt := ⟨4, 3, some 0x7E⟩
def fltE5M2 : Flt := ⟨5, 2, none⟩
def fltE2M1 : Flt := ⟨2, 1, some 7⟩

/-- The element format of a format code that is floating-point (R209). -/
def fltOf (fmt : Nat) : Flt :=
  if fmt = 0 then ⟨8, 23, none⟩ else if fmt = 1 then ⟨8, 7, none⟩ else if fmt = 2 then ⟨5, 10, none⟩
  else if fmt = 3 ∨ fmt = 7 then fltE4M3 else if fmt = 4 ∨ fmt = 8 then fltE5M2 else fltE2M1

/-- Kinds of format codes (R209). -/
def fmtOk (fmt : Nat) : Bool := fmt < 10
def fmtMx (fmt : Nat) : Bool := 7 ≤ fmt && fmt ≤ 9
def fmtInt (fmt : Nat) : Bool := fmt = 5 || fmt = 6
def fmtFp (fmt : Nat) : Bool := fmtOk fmt && ¬ fmtInt fmt

/-- Element bits (R209). -/
def fmtBits (fmt : Nat) : Nat :=
  if fmt = 0 ∨ fmt = 6 then 32 else if fmt = 1 ∨ fmt = 2 then 16 else if fmt = 9 then 4 else 8

/-- Bytes of one MX group (R211). -/
def mxGroup (fmt : Nat) : Nat := if fmt = 9 then 136 else 264

/-- Bytes of a tensor of n elements (R211). -/
def tensorBytes (fmt n : Nat) : Nat := if fmtMx fmt then ceilDiv n 256 * mxGroup fmt else n * fmtBits fmt / 8

def Flt.bias (x : Flt) : Int := 2 ^ (x.eb - 1) - 1
/-- Exponent of the smallest subnormal. -/
def Flt.qmin (x : Flt) : Int := 1 - x.bias - x.mb
def Flt.sign (x : Flt) : Nat := 2 ^ (x.eb + x.mb)
/-- Largest finite code, code of infinity, canonical NaN (R210, R217). -/
def Flt.topCode (x : Flt) : Nat := x.top.getD ((2 ^ x.eb - 1) * 2 ^ x.mb - 1)
def Flt.infCode (x : Flt) : Nat := (2 ^ x.eb - 1) * 2 ^ x.mb
def Flt.nanCode (x : Flt) : Nat := if x.top.isSome then 2 ^ (x.eb + x.mb) - 1 else x.infCode + 2 ^ (x.mb - 1)

/-- The value of a code (R210). -/
def Flt.decode (x : Flt) (c : Nat) : Num :=
  let n := decide (x.sign ≤ c % (2 * x.sign))
  let a := c % x.sign
  if x.topCode < a then (if x.top.isNone ∧ a = x.infCode then .inf n else .nan)
  else
    let e := a / 2 ^ x.mb
    let f := a % 2 ^ x.mb
    if e = 0 then .fin n f x.qmin else .fin n (2 ^ x.mb + f) (x.qmin + e - 1)

/-! ### Rounding (R216, R217) -/

/-- m / 2^k to the nearest integer, ties to even. -/
def rne (m k : Nat) : Nat :=
  let q := m / 2 ^ k
  let r := m % 2 ^ k
  if 2 ^ k < 2 * r ∨ (2 * r = 2 ^ k ∧ q % 2 = 1) then q + 1 else q

/-- The magnitude code of m · 2^e rounded once, however large. -/
def Flt.roundMag (x : Flt) (m : Nat) (e : Int) : Nat :=
  if m = 0 then 0 else
    let q : Int := Max.max (((Nat.log2 m : Nat) : Int) + e - x.mb) x.qmin
    let n := if q ≤ e then m * 2 ^ (e - q).toNat else rne m (q - e).toNat
    (q - x.qmin).toNat * 2 ^ x.mb + n

/-- Round a value to a floating-point format (R216, R217): FP32 overflows to infinity and is counted so, E4M3 and E2M1 saturate, the
others by SAT. -/
def encFlt (fp32 : Bool) (x : Flt) (sat : Bool) (v : Num) : Nat × Exc :=
  let sg := fun (n : Bool) => if n then x.sign else 0
  match v with
  | .nan => (if x.top = some 7 then 0 else x.nanCode, {})
  | .inf n => if x.top.isSome then (sg n + x.topCode, { sat := 1 }) else (sg n + x.infCode, {})
  | .fin n m e =>
    let c := x.roundMag m e
    if x.topCode < c then
      if x.top.isSome ∨ (sat ∧ ¬ fp32) then (sg n + x.topCode, { sat := 1 })
      else (sg n + x.infCode, { ovf := if fp32 then 1 else 0 })
    else (sg n + c, {})

/-- A value to the nearest integer, ties to even. -/
def Num.toInt (v : Num) : Int :=
  match v with
  | .fin n m e =>
    let a := if 0 ≤ e then m * 2 ^ e.toNat else rne m (-e).toNat
    if n then -(a : Int) else a
  | _ => 0

/-- Round to a two's-complement integer of w bits (R217). -/
def encInt (w : Nat) (v : Num) : Nat × Exc :=
  let hi : Int := 2 ^ (w - 1) - 1
  let lo : Int := -(2 ^ (w - 1))
  match v with
  | .nan => (0, {})
  | .inf n => (unsignedOf w (if n then lo else hi), { sat := 1 })
  | _ =>
    let i := v.toInt
    if i < lo then (unsignedOf w lo, { sat := 1 }) else if hi < i then (unsignedOf w hi, { sat := 1 }) else (unsignedOf w i, {})

/-- Encode a value in a scalar format code (R209, R216, R217). -/
def encNum (fmt : Nat) (sat : Bool) (v : Num) : Nat × Exc :=
  if fmt = 5 then encInt 8 v else if fmt = 6 then encInt 32 v else encFlt (fmt = 0) (fltOf fmt) sat v

/-- The value of a code of a scalar format. -/
def decNum (fmt c : Nat) : Num :=
  if fmt = 5 then .ofInt (signedOf 8 c) else if fmt = 6 then .ofInt (signedOf 32 c) else (fltOf fmt).decode c

/-- A value rounded to a scalar format, as a value. -/
def roundNum (fmt : Nat) (sat : Bool) (v : Num) : Num × Exc :=
  let (c, x) := encNum fmt sat v
  (decNum fmt c, x)

/-- One rounding to FP32. -/
def fp32 (v : Num) : Num × Exc := roundNum 0 true v

/-! ### MX blocks (R211, R216, R229, R232) -/

/-- An element under a block scale, exact (R214); a scale of 0xFF makes it NaN. -/
def decMx (fmt scale c : Nat) : Num :=
  if scale = 255 then .nan else
    match (fltOf fmt).decode c with
    | .fin n m e => .fin n m (e + scale - 127)
    | v => v

/-- An element dequantised to FP32: overflow gives infinity, counted; a NaN from the scale is made (R216, R232, R233). -/
def deqMx (fmt scale c : Nat) : Num × Exc :=
  let (v, x) := fp32 (decMx fmt scale c)
  (v, { x with nan := if scale = 255 ∧ ¬ ((fltOf fmt).decode c).isNan then 1 else 0 })

/-- EMAX of an MX element format (R229). -/
def emax (fmt : Nat) : Int := if fmt = 9 then 2 else if fmt = 7 then 8 else 15

/-- floor(log2 |v|) of a finite value other than 0. -/
def Num.flog2 (v : Num) : Int :=
  match v with
  | .fin _ m e => ((Nat.log2 m : Nat) : Int) + e
  | _ => 0

/-- The largest magnitude of a block. -/
def maxAbs (l : List Num) : Num := l.foldl (fun (m : Num) (v : Num) => if m.lt v.abs then v.abs else m) Num.zero

/-- One quantised block: its scale, element codes, new residuals (FP32 codes), what it counts (R229, R233). -/
structure QBlock where
  scale : Nat
  codes : List Nat
  res   : List Nat
  exc   : Exc
  deriving DecidableEq, Repr

/-- Quantise a block of values (R229): each element is rounded once, from the value given. -/
def quantBlock (fmt : Nat) (vs : List Num) : QBlock :=
  if vs.any (fun v => v.isNan || v.isInf) then ⟨255, vs.map fun _ => 0, vs.map fun _ => 0, { qnan := 1 }⟩
  else
    let m := maxAbs vs
    let x : Int := if m.isZero then -127 else Max.max (-127) (Min.min 127 (m.flog2 - emax fmt))
    let one := fun (v : Num) =>
      let (c, ex) := encFlt false (fltOf fmt) true (match v with | .fin n a e => Num.fin n a (e - x) | w => w)
      let back := decMx fmt (x + 127).toNat c
      let (r, _) := encNum 0 true (v.add back.neg)
      (c, r, ex)
    let l := vs.map one
    ⟨(x + 127).toNat, l.map (·.1), l.map (·.2.1), Exc.sum (l.map (·.2.2))⟩

/-- Cut a list into pieces of n. -/
def chunksGo {α : Type} (fuel n : Nat) (l : List α) : List (List α) :=
  match fuel with
  | 0 => []
  | fuel + 1 => match l with
    | [] => []
    | _ => l.take n :: chunksGo fuel n (l.drop n)

def chunks {α : Type} (n : Nat) (l : List α) : List (List α) := chunksGo l.length n l

/-- Quantise a tensor (R229): its blocks in order. -/
def quantTensor (fmt : Nat) (vs : List Num) : List QBlock := (chunks 32 vs).map (quantBlock fmt)

/-- Pad a list to n places. -/
def padTo {α : Type} (n : Nat) (d : α) (l : List α) : List α := l ++ List.replicate (n - l.length) d

/-- Pack two E2M1 codes to a byte, even index low (R211). -/
def packNibbles (l : List Nat) : List Byte :=
  (chunks 2 l).map fun p => BitVec.ofNat 8 (p.getD 0 0 % 16 + p.getD 1 0 % 16 * 16)

def unpackNibbles (l : List Byte) : List Nat := l.flatMap fun b => [b.toNat % 16, b.toNat / 16]

/-- The bytes of an MX tensor from its scales and element codes (R211). -/
def mxBytes (fmt : Nat) (scales codes : List Nat) : List Byte :=
  let gs := chunks 8 scales
  let cs := chunks 256 codes
  (gs.zip cs).flatMap fun (g, c) =>
    (padTo 8 0 g).map (BitVec.ofNat 8 ·) ++
    (if fmt = 9 then packNibbles (padTo 256 0 c) else (padTo 256 0 c).map (BitVec.ofNat 8 ·))

/-- Scales and element codes of the first n elements of an MX tensor. -/
def mxParse (fmt n : Nat) (bs : List Byte) : List Nat × List Nat :=
  let gs := chunks (mxGroup fmt) bs
  let sc := gs.flatMap fun g => (g.take 8).map (·.toNat)
  let el := gs.flatMap fun g => if fmt = 9 then unpackNibbles (g.drop 8) else (g.drop 8).map (·.toNat)
  (sc.take (ceilDiv n 32), el.take n)

/-! ### Tensors in memory -/

/-- Codes of n elements of a scalar format. -/
def codesOf (fmt n : Nat) (bs : List Byte) : List Nat :=
  (List.range n).map fun i => leNat ((bs.drop (i * (fmtBits fmt / 8))).take (fmtBits fmt / 8))

def bytesOf (fmt : Nat) (codes : List Nat) : List Byte := codes.flatMap fun c => leBytes (fmtBits fmt / 8) c

/-- The values of n elements read from bytes, dequantised if MX (R216, R232). -/
def tensorVals (fmt n : Nat) (bs : List Byte) : List Num × Exc :=
  if fmtMx fmt then
    let (sc, el) := mxParse fmt n bs
    let l := (List.range n).map fun i => deqMx fmt (sc.getD (i / 32) 0) (el.getD i 0)
    (l.map (·.1), Exc.sum (l.map (·.2)))
  else ((codesOf fmt n bs).map (decNum fmt), {})

/-- The bytes of values written in a format, each rounded once (R211, R216, R217, R224); MX scales are chosen as in R229 with no residual. -/
def tensorEnc (fmt : Nat) (sat : Bool) (vs : List Num) : List Byte × Exc :=
  if fmtMx fmt then
    let q := quantTensor fmt vs
    (mxBytes fmt (q.map (·.scale)) (q.flatMap (·.codes)), Exc.sum (q.map (·.exc)))
  else
    let l := vs.map (encNum fmt sat)
    (bytesOf fmt (l.map (·.1)), Exc.sum (l.map (·.2)))

/-! ### Reductions (R218-R223) -/

/-- R218: an operator applied to a format and mode it does not accept. -/
def opBad (op mode fmt : Nat) : Bool := 5 < op || 2 < mode || ¬ fmtOk fmt || (3 ≤ op && ¬ fmtInt fmt)

/-- The partial format (R223): integers combine in INT32 (R219). `wire` tells that quantisation on the wire is enabled. -/
def partialFmt (fmt : Nat) (pacc : Bool) : Nat :=
  if fmtInt fmt then 6 else if pacc ∨ fmtMx fmt then 0 else fmt

/-- Bitwise operators on INT32 codes. -/
def bitOp (op a b : Nat) : Nat := if op = 3 then a &&& b else if op = 4 then a ||| b else a ^^^ b

/-- to_partial (R222, R223): saturating. -/
def toPartial (pf : Nat) (v : Num) : Num × Exc := roundNum pf true v

/-- Combine two values in a partial format (R219, R221). -/
def combine (op pf : Nat) (a b : Num) : Num × Exc :=
  if op = 1 then (a.max b, {}) else if op = 2 then (a.min b, {})
  else if pf = 6 then
    if op = 0 then
      let v := a.toInt + b.toInt
      (.ofInt (signedOf 32 (unsignedOf 32 v)), { wrap := if -(2 ^ 31) ≤ v ∧ v < 2 ^ 31 then 0 else 1 })
    else (.ofInt (signedOf 32 (bitOp op (unsignedOf 32 a.toInt) (unsignedOf 32 b.toInt))), {})
  else
    let v := a.add b
    let (r, x) := toPartial pf v
    (r, { x with nan := if v.isNan ∧ ¬ a.isNan ∧ ¬ b.isNan then 1 else 0 })

/-- The sequential fold of reproducible mode (R222). -/
def foldRepro (op pf : Nat) (l : List Num) : Num × Exc :=
  match l with
  | [] => (.zero, {})
  | x :: t => t.foldl (fun (acc : Num × Exc) y => let (v, e) := combine op pf acc.1 y; (v, acc.2.add e)) (toPartial pf x)

/-! ### Exact mode (R224, R225) -/

/-- The exact accumulator: its value times 2^149, and its flags. -/
structure Exact where
  val  : Int := 0
  nan  : Bool := false
  pinf : Bool := false
  ninf : Bool := false
  deriving DecidableEq, Repr

/-- Wrap into 320 bits of two's complement. -/
def wrap320 (v : Int) : Int := signedOf 320 (unsignedOf 320 v)

def Exact.addNum (a : Exact) (v : Num) : Exact :=
  match v with
  | .nan => { a with nan := true }
  | .inf true => { a with ninf := true }
  | .inf false => { a with pinf := true }
  | .fin n m e =>
    let k : Int := if 0 ≤ e + 149 then ((m * 2 ^ (e + 149).toNat : Nat) : Int) else ((m / 2 ^ (-(e + 149)).toNat : Nat) : Int)
    { a with val := wrap320 (a.val + (if n then -k else k)) }

def Exact.merge (a b : Exact) : Exact := ⟨wrap320 (a.val + b.val), a.nan || b.nan, a.pinf || b.pinf, a.ninf || b.ninf⟩

/-- The accumulator as one value to be rounded once (R224). -/
def Exact.toNum (a : Exact) : Num :=
  if a.nan ∨ (a.pinf ∧ a.ninf) then .nan else if a.pinf then .inf false else if a.ninf then .inf true
  else .fin (decide (a.val < 0)) a.val.natAbs (-149)

/-- Trailing zeros of a natural number, up to a bound. -/
def trailGo (fuel n k : Nat) : Nat :=
  match fuel with
  | 0 => k
  | fuel + 1 => if n % 2 = 1 ∨ n = 0 then k else trailGo fuel (n / 2) (k + 1)

/-- The window of a value: SHIFT and whether it fits (R225). -/
def Exact.shift (a : Exact) : Nat := if a.val = 0 then 0 else Min.min 205 (trailGo 320 a.val.natAbs 0)
def Exact.wide (a : Exact) : Bool :=
  let w := a.val / 2 ^ a.shift
  ¬ (-(2 ^ 114) ≤ w ∧ w < 2 ^ 114)

def Exact.flags (a : Exact) : Nat := bit a.nan * 2 ^ 125 + bit a.pinf * 2 ^ 126 + bit a.ninf * 2 ^ 127

/-- The 16-byte exact record; a wide one carries an escape index (R225). -/
def Exact.record (a : Exact) (esc : Nat) : Nat :=
  if a.wide then esc % 2 ^ 32 + 2 ^ 124 + a.flags
  else unsignedOf 115 (a.val / 2 ^ a.shift) + a.shift * 2 ^ 115 + a.flags

/-- Read a record with its chunk's escape list of 320-bit words; none is a record treated as poison (R225). -/
def exactOf (w : Nat) (escs : List Nat) : Option Exact :=
  let f : Exact := { nan := w.testBit 125, pinf := w.testBit 126, ninf := w.testBit 127 }
  let sh := bitsOf w 115 9
  if 205 < sh then none
  else if w.testBit 124 then (escs[w % 2 ^ 32]?).map fun v => { f with val := signedOf 320 v }
  else some { f with val := signedOf 115 (w % 2 ^ 115) * 2 ^ sh }

/-- The records and escape list of a chunk's accumulators, in element order (R225). -/
def exactEnc (l : List Exact) : List Byte × List Nat :=
  l.foldl (fun (acc : List Byte × List Nat) a =>
    (acc.1 ++ leBytes 16 (a.record acc.2.length), if a.wide then acc.2 ++ [unsignedOf 320 a.val] else acc.2)) ([], [])

/-! ### Matrix arithmetic (R212-R215) -/

/-- Step depth of an operand pair, by rate group; none where R213 does not list the pair. -/
def rateK (a b : Nat) : Option Nat :=
  let fp8 := fun (x : Nat) => x = 3 || x = 4 || x = 7 || x = 8 || x = 9
  if a = 9 ∧ b = 9 then some 64
  else if fp8 a ∧ fp8 b then some 32
  else if a = 5 ∧ b = 5 then some 32
  else if (a = 1 ∨ a = 2) ∧ (b = 1 ∨ b = 2) then some 16
  else if a = 0 ∧ b = 0 then some 2
  else none

/-- One accumulation step on one element: the old content plus the products, rounded once to FP32 (R214, R215). `realNan` tells that
an operand's own code was a NaN, so that a NaN result was not made here (R233). -/
def stepFp (old : Num) (prods : List (Num × Num)) (realNan : Bool) : Num × Exc :=
  let ps := prods.map fun p => p.1.mul p.2
  let v := (old :: ps).foldl Num.add (.fin true 0 0)
  match v with
  | .fin _ 0 _ => (.zero, {})
  | _ =>
    let (r, x) := fp32 v
    (r, { x with nan := bit (v.isNan && ¬ old.isNan && ¬ realNan) })

/-- One accumulation step in INT32, modulo 2^32 (R214). -/
def stepInt (old : Num) (prods : List (Num × Num)) : Num × Exc :=
  let v := prods.foldl (fun (acc : Int) p => acc + p.1.toInt * p.2.toInt) old.toInt
  (.ofInt (signedOf 32 (unsignedOf 32 v)), { wrap := if -(2 ^ 31) ≤ v ∧ v < 2 ^ 31 then 0 else 1 })

/-! ### Vector functions (R206) -/

/-- Binary places of a logarithm: one squaring each. -/
def logGo (fuel x acc : Nat) : Nat × Nat :=
  match fuel with
  | 0 => (acc, x)
  | fuel + 1 =>
    let y := x * x / 2 ^ 256
    if 2 ^ 257 ≤ y then logGo fuel (y / 2) (2 * acc + 1) else logGo fuel y (2 * acc)

/-- log2 of m · 2^e in units of 2^−128, from below and from above; the two are equal where m is a power of two. -/
def logBounds (m : Nat) (e : Int) : Int × Int :=
  let k := Nat.log2 m
  let l : Int := (e + k) * 2 ^ 128
  if m = 2 ^ k then (l, l)
  else
    let (a, _) := logGo 128 (m * 2 ^ 256 / 2 ^ k) 0
    (l + a, l + a + 2)

/-- m · 2^e against n · 2^k. -/
def leScaled (m : Int) (e : Int) (n : Int) (k : Int) : Bool :=
  let lo := min e k
  decide (m * 2 ^ (e - lo).toNat ≤ n * 2 ^ (k - lo).toNat)

/-- A real function of R206 at a positive argument x · 2^ex (for EXP2 also a negative one), against a magnitude y · 2^ey: whether the
magnitude is at most the function's (`up` false) or at least it. -/
def vecBound (f : Nat) (x : Int) (ex : Int) (y : Nat) (ey : Int) (up : Bool) : Bool :=
  if f = 0 then
    if y = 0 then ! up
    else if up then leScaled x ex (logBounds y ey).1 (-128) else leScaled (logBounds y ey).2 (-128) x ex
  else if f = 1 then
    let b := logBounds x.natAbs ex
    let lo : Int := if 0 ≤ b.1 then b.1 else -b.2
    let hi : Int := if 0 ≤ b.1 then b.2 else -b.1
    if up then leScaled hi (-128) y ey else leScaled y ey lo (-128)
  else if f = 2 then
    if up then leScaled 1 0 (x.natAbs * y) (ex + ey) else leScaled (x.natAbs * y) (ex + ey) 1 0
  else
    if up then leScaled 1 0 (x.natAbs * y * y) (ex + ey + ey) else leScaled (x.natAbs * y * y) (ex + ey + ey) 1 0

/-- A function of R206 has a finite real value at a finite argument. -/
def vecReal (f : Nat) (n : Bool) (m : Nat) : Bool := f = 0 || (m ≠ 0 && (f = 2 || ! n))

/-- The largest FP32 magnitude code whose value is at most the function's magnitude, bit by bit. -/
def vecFloor (f : Nat) (x : Int) (ex : Int) : Nat :=
  (List.range 31).foldl (fun c i =>
    let d := c + 2 ^ (30 - i)
    match (fltOf 0).decode d with
    | .fin _ m e => if d ≤ (fltOf 0).topCode ∧ vecBound f x ex m e false then d else c
    | _ => c) 0

/-- A pattern lies within 1 ulp of the function's value: its magnitude less an ulp is no more, and its magnitude and an ulp no less. -/
def vecNear (f : Nat) (x : Int) (ex : Int) (neg : Bool) (floor pat : Nat) : Bool :=
  let u : Int := (fltOf 0).qmin + (max 1 (floor / 2 ^ 23) - 1 : Nat)
  match (fltOf 0).decode pat with
  | .fin s m e =>
    let k := min e u
    let y := m * 2 ^ (e - k).toNat
    let d := 2 ^ (u - k).toNat
    if s = neg then (decide (y ≤ d) || vecBound f x ex (y - d) k false) && vecBound f x ex (y + d) k true
    else decide (y ≤ d) && vecBound f x ex (d - y) k true
  | _ => false

/-- EXP2, LOG2, RCP and RSQRT (R206): a fixed function of the FP32 input whose error is at most 1 ulp. Its bits are Config's where they keep
the bound; past the FP32 range the result is an infinity, counted. Where no finite real value exists the bits are Config's (DEDUCED, log 21). -/
def vecFn (f : Nat) (v : Num) : Num × Exc :=
  let c := BitVec.ofNat 32 (encNum 0 true v).1
  let pat := (if f = 0 then Config.exp2 c else if f = 1 then Config.log2 c else if f = 2 then Config.rcp c else Config.rsqrt c).toNat
  match v with
  | .fin n m e =>
    if vecReal f n m then
      let x : Int := if n && f = 0 then -(m : Int) else m
      let neg := if f = 1 then decide ((logBounds m e).1 < 0) else f = 2 && n
      if vecBound f x e 33554431 103 false then (.inf neg, { ovf := 1 })
      else
        let fl := vecFloor f x e
        if vecNear f x e neg fl pat then (decNum 0 pat, {}) else (decNum 0 (fl + bit neg * 2 ^ 31), {})
    else (decNum 0 pat, {})
  | _ => (decNum 0 pat, {})

/-! ### CRC-32 (R288) -/

def crc32Bit (c : Nat) : Nat := if c % 2 = 1 then (c / 2) ^^^ 0xEDB88320 else c / 2
def crc32Byte (c : Nat) (b : Byte) : Nat :=
  crc32Bit (crc32Bit (crc32Bit (crc32Bit (crc32Bit (crc32Bit (crc32Bit (crc32Bit (c ^^^ b.toNat))))))))
def crc32 (l : List Byte) : Nat := (l.foldl crc32Byte 0xFFFFFFFF) ^^^ 0xFFFFFFFF

end Sys2Proof.Machine
end

