-- ==== Sys2Proof/Machine/Loader.lean ====
section
/-!
DEFINITION. Loader.lean: the TPF image and the loader's checks (R288-R291, R297, R303, R304).
-/

namespace Sys2Proof.Machine

/-! ### Tiles (R290) -/

/-- Row bytes of a tile: its elements, or whole MX groups. -/
def TileDecl.rowBytes (t : TileDecl) : Nat := tensorBytes t.fmt t.cols

/-- Row pitch in local memory: each row starts on a 64-byte boundary. -/
def TileDecl.rowPitch (t : TileDecl) : Nat := roundUp t.rowBytes 64

/-- Local footprint. -/
def TileDecl.foot (t : TileDecl) : Nat := t.rows * t.rowPitch

/-- All bytes of a tile, rows one after another. -/
def TileDecl.bytes (t : TileDecl) : Nat := t.rows * t.rowBytes

/-- Footprints of a program's tiles; its per-copy save size (R308). -/
def footSum (l : List TileDecl) : Nat := l.foldl (fun n t => n + t.foot) 0
def Prog.saveSize (p : Prog) : Nat := roundUp (footSum p.tiles + 4096) 4096

/-! ### The image (R288-R291) -/

/-- The number in n bytes at an offset. -/
def numAt (bs : List Byte) (off n : Nat) : Nat := leNat ((bs.drop off).take n)

/-- A section is well placed: 16-byte aligned, after the header, within the image; an empty one may stand anywhere. -/
def sectOk (len off n : Nat) : Bool := n = 0 || (off % 16 = 0 && 64 ≤ off && off + n ≤ len)

/-- Two sections overlap. -/
def overlap (a n b m : Nat) : Bool := n ≠ 0 && m ≠ 0 && a < b + m && b < a + n

/-- Fields of the header. -/
structure ImgHead where
  ninsn : Nat
  ntile : Nat
  nport : Nat
  nslot : Nat
  cpoolOff : Nat
  cpoolLen : Nat
  tileOff : Nat
  insnOff : Nat
  minCopy : Nat
  maxCopy : Nat
  pkind : List Nat
  deriving DecidableEq, Repr

def imgHead (bs : List Byte) : ImgHead :=
  { ninsn := numAt bs 16 4, ntile := numAt bs 20 1, nport := numAt bs 21 1, nslot := numAt bs 22 1, cpoolOff := numAt bs 24 4,
    cpoolLen := numAt bs 28 4, tileOff := numAt bs 32 4, insnOff := numAt bs 36 4, minCopy := numAt bs 40 1, maxCopy := numAt bs 41 1,
    pkind := (List.range 16).map fun i => numAt bs (48 + i) 1 }

/-- A condition and the reason it gives. -/
def why (c : Bool) (r : Nat) : List Nat := if c then [r] else []

/-- Reasons the header fails with (R303). -/
def headFails (bs : List Byte) (len codeLen loaded : Nat) : List Nat :=
  let h := imgHead bs
  why (numAt bs 0 4 ≠ 0x30465054 || numAt bs 8 4 ≠ len || h.ninsn = 0 || 65536 < h.ninsn || h.ntile = 0 || 64 < h.ntile || 16 < h.nport ||
    16 < h.nslot || 1048576 < h.cpoolLen || h.minCopy = 0 || 64 < h.minCopy || h.maxCopy < h.minCopy || 64 < h.maxCopy ||
    ¬ sectOk len h.cpoolOff h.cpoolLen || ¬ sectOk len h.tileOff (16 * h.ntile) || ¬ sectOk len h.insnOff (16 * h.ninsn) ||
    overlap h.cpoolOff h.cpoolLen h.tileOff (16 * h.ntile) || overlap h.cpoolOff h.cpoolLen h.insnOff (16 * h.ninsn) ||
    overlap h.tileOff (16 * h.ntile) h.insnOff (16 * h.ninsn)) 1 ++
  why (numAt bs 4 2 ≠ 1 || numAt bs 6 2 ≠ 0) 2 ++
  why (crc32 (bs.take 12 ++ [0, 0, 0, 0] ++ bs.drop 16) ≠ numAt bs 12 4) 3 ++
  why (numAt bs 23 1 ≠ 0 || numAt bs 42 6 ≠ 0 || (List.range 16).any fun i => h.nport ≤ i && h.pkind.getD i 0 ≠ 0) 5 ++
  why (64 ≤ loaded) 12 ++
  why (codeLen < roundUp (4096 + 64 * h.ninsn + h.cpoolLen) 4096) 14

/-- The i-th tile declaration. -/
def tileAt (bs : List Byte) (h : ImgHead) (i : Nat) : TileDecl :=
  let o := h.tileOff + 16 * i
  let init := numAt bs (o + 8) 8
  { fmt := numAt bs o 1 % 16, rows := numAt bs (o + 2) 2, cols := numAt bs (o + 4) 2, init := if init = 2 ^ 64 - 1 then none else some init }

/-- Reasons a tile declaration fails with; `sum` is the footprint of those before it. -/
def tileFails (bs : List Byte) (h : ImgHead) (sum i : Nat) : List Nat :=
  let o := h.tileOff + 16 * i
  let t := tileAt bs h i
  why (16 ≤ numAt bs o 1 || numAt bs (o + 1) 1 ≠ 0 || numAt bs (o + 6) 2 ≠ 0) 5 ++
  why (¬ fmtOk t.fmt) 7 ++
  why (t.rows = 0 || 4096 < t.rows || t.cols = 0 || 4096 < t.cols || (fmtMx t.fmt && t.cols % 32 ≠ 0)) 8 ++
  why (1966080 < sum + t.foot) 12 ++
  why (match t.init with | some x => decide (h.cpoolLen < x + t.foot) | none => false) 13

/-- The i-th instruction. -/
def insnAt (bs : List Byte) (h : ImgHead) (i : Nat) : Insn :=
  let o := h.insnOff + 16 * i
  { op := numAt bs o 1, fl := numAt bs (o + 1) 1, a := numAt bs (o + 2) 1, b := numAt bs (o + 3) 1, c := numAt bs (o + 4) 1,
    d := numAt bs (o + 5) 1, aux := numAt bs (o + 6) 2, imm := numAt bs (o + 8) 8 }

/-! ### Instruction checks (R296, R297, R303) -/

/-- What an opcode uses of an instruction: flag bits, A, B, C, D, AUX, IMM; none for a reserved opcode (R296). -/
def opUses (op : Nat) : Option (Nat × Bool × Bool × Bool × Bool × Bool × Nat) :=
  let w := 2 ^ 64 - 1
  if op = 0x00 then some (0, false, false, false, false, false, 0)
  else if op = 0x01 then some (0, false, false, false, false, true, 0)
  else if op = 0x02 then some (0, false, false, false, false, false, w)
  else if op = 0x03 then some (7, true, true, false, false, false, w)
  else if op = 0x04 then some (0, true, false, false, false, false, w)
  else if op = 0x05 then some (1, true, true, false, false, false, w)
  else if op = 0x10 then some (0, true, false, false, false, false, w)
  else if op = 0x11 then some (0x8F, true, true, true, false, false, w)
  else if op = 0x12 ∨ op = 0x13 ∨ op = 0x16 then some (0, true, true, false, false, false, 0)
  else if op = 0x14 then some (0, true, false, false, false, false, 0)
  else if op = 0x15 then some (1, true, false, false, false, false, 0)
  else if op = 0x20 then some (0x83, true, true, true, true, false, w)
  else if op = 0x21 then some (0x81, true, true, true, true, false, w)
  else if op = 0x22 then some (1, true, true, false, false, false, 0)
  else if op = 0x23 then some (0, true, false, false, false, false, 2 ^ 32 - 1)
  else if op = 0x24 then some (1, true, true, true, false, false, 0)
  else if op = 0x25 then some (0x7F, true, true, true, false, false, 0)
  else if op = 0x26 then some (0x4F, true, true, false, false, false, 2 ^ 32 - 1)
  else if op = 0x27 then some (0x47, true, true, false, false, false, 0)
  else if op = 0x28 then some (1, true, true, true, false, false, 0)
  else if op = 0x30 ∨ op = 0x31 then some (0x80, true, true, true, true, false, w)
  else if op = 0x40 ∨ op = 0x41 ∨ op = 0x42 then some (0, true, true, false, false, false, w)
  else none

/-- A reserved encoding in FL (reason OPCODE). -/
def flReserved (x : Insn) : Bool :=
  (x.op = 0x03 && 6 ≤ x.fl % 8) || (x.op = 0x11 && 11 ≤ x.fl % 16) || (x.op = 0x25 && 9 ≤ x.fl % 16) ||
  (x.op = 0x26 && 8 ≤ x.fl % 16) || (x.op = 0x27 && x.fl % 4 = 3)

/-- A field that the opcode does not use, or that a flag makes reserved, is non-zero (reason RESERVED). -/
def insnRsv (x : Insn) : Bool :=
  match opUses x.op with
  | none => false
  | some (fl, a, b, c, d, aux, imm) =>
    x.fl &&& (255 ^^^ fl) ≠ 0 || (¬ a && x.a ≠ 0) || (¬ b && x.b ≠ 0) || (¬ c && x.c ≠ 0) || (¬ d && x.d ≠ 0) ||
    (¬ aux && x.aux ≠ 0) || x.imm &&& (2 ^ 64 - 1 ^^^ imm) ≠ 0 ||
    (x.op = 0x20 && x.fl.testBit 1 && (x.b ≠ 0 || x.c ≠ 0 || x.fl.testBit 0)) ||
    (x.op = 0x28 && x.fl.testBit 0 && x.c ≠ 0) || (x.op = 0x13 && 4 ≤ x.b)

/-- Indices of an instruction by kind: registers, tiles, ports, slots, arguments. -/
structure Idx where
  regs  : List Nat := []
  tiles : List Nat := []
  ports : List Nat := []
  slots : List Nat := []
  args  : List Nat := []
  deriving DecidableEq, Repr

def insnIdx (x : Insn) : Idx :=
  let ten := if x.fl.testBit 7 then [x.d] else []
  if x.op = 0x03 then { regs := [x.a, x.b] }
  else if x.op = 0x04 ∨ x.op = 0x10 ∨ x.op = 0x13 ∨ x.op = 0x14 ∨ x.op = 0x15 then { regs := [x.a] }
  else if x.op = 0x05 then (if x.fl.testBit 0 then { slots := [x.a], regs := [x.b] } else {})
  else if x.op = 0x11 then { regs := [x.a, x.b] ++ if x.fl.testBit 7 then [] else [x.c] }
  else if x.op = 0x12 then { regs := [x.a], args := [x.b] }
  else if x.op = 0x16 then { regs := [x.a], slots := [x.b] }
  else if x.op = 0x20 ∨ x.op = 0x21 then { tiles := [x.a], regs := [x.b, x.c], slots := ten }
  else if x.op = 0x22 ∨ x.op = 0x26 ∨ x.op = 0x27 then { tiles := [x.a, x.b] }
  else if x.op = 0x23 then { tiles := [x.a] }
  else if x.op = 0x24 then { tiles := [x.a, x.b, x.c] }
  else if x.op = 0x25 then (if x.fl / 16 % 4 = 3 then { tiles := [x.a, x.b], regs := [x.c] } else { tiles := [x.a, x.b, x.c] })
  else if x.op = 0x28 then { tiles := [x.a, x.b] ++ if x.fl.testBit 0 then [] else [x.c] }
  else if x.op = 0x30 ∨ x.op = 0x31 then { ports := [x.a], tiles := [x.b], regs := [x.c], slots := ten }
  else if x.op = 0x40 ∨ x.op = 0x41 ∨ x.op = 0x42 then { slots := [x.a], regs := [x.b] }
  else {}

/-- Reason INDEX. MMA's tA must be neither tB nor tC (R297); the manual names no reason for it, and INDEX is the model's (DEDUCED, log 22). -/
def idxBad (h : ImgHead) (x : Insn) : Bool :=
  let i := insnIdx x
  i.regs.any (64 ≤ ·) || i.tiles.any (h.ntile ≤ ·) || i.ports.any (h.nport ≤ ·) || i.slots.any (h.nslot ≤ ·) || i.args.any (16 ≤ ·) ||
  (x.op = 0x24 && (x.a = x.b || x.a = x.c))

/-- Reason FORMAT (R297). -/
def fmtBad (ts : List TileDecl) (x : Insn) : Bool :=
  let f := fun (i : Nat) => (ts.getD i ⟨0, 1, 1, none⟩).fmt
  if x.op = 0x23 then fmtMx (f x.a)
  else if x.op = 0x24 then (rateK (f x.b) (f x.c)).isNone || f x.a ≠ (if f x.b = 5 then 6 else 0)
  else if x.op = 0x25 then
    let imm := decide (x.fl / 16 % 4 = 3)
    let all := fun (p : Nat → Bool) => p (f x.a) && p (f x.b) && (imm || p (f x.c))
    let op := x.fl % 16
    fmtMx (f x.a) ||
    (if 6 ≤ op then ¬ all fmtInt || imm else if op = 5 then ¬ all fmtFp else ¬ all fmtFp && (¬ all fmtInt || imm))
  else if x.op = 0x26 then fmtMx (f x.a) || ¬ fmtFp (f x.b)
  else if x.op = 0x27 then fmtMx (f x.a) || (x.fl.testBit 2 && x.fl % 4 = 0 && ¬ fmtFp (f x.b))
  else if x.op = 0x28 then ¬ fmtMx (f x.a) || ¬ (f x.b = 0 || f x.b = 1 || f x.b = 2) || (¬ x.fl.testBit 0 && f x.c ≠ 0)
  else false

/-- Reason SHAPE (R297). -/
def shapeBad (ts : List TileDecl) (x : Insn) : Bool :=
  let t := fun (i : Nat) => ts.getD i ⟨0, 1, 1, none⟩
  let same := fun (i j : Nat) => (t i).rows = (t j).rows && (t i).cols = (t j).cols
  if x.op = 0x22 ∨ x.op = 0x26 then ¬ same x.a x.b
  else if x.op = 0x24 then
    let k := (rateK (t x.b).fmt (t x.c).fmt).getD 1
    (t x.a).rows ≠ (t x.b).rows || (t x.a).cols ≠ (t x.c).rows || (t x.b).cols ≠ (t x.c).cols || (t x.a).rows % 16 ≠ 0 ||
    (t x.a).cols % 16 ≠ 0 || (t x.b).cols % k ≠ 0
  else if x.op = 0x25 then
    let bc := x.fl / 16 % 4
    ¬ same x.a x.b || (bc = 0 && ¬ same x.a x.c) || (bc = 1 && ¬ ((t x.c).rows = (t x.a).rows && (t x.c).cols = 1)) ||
    (bc = 2 && ¬ ((t x.c).rows = 1 && (t x.c).cols = (t x.a).cols))
  else if x.op = 0x27 then ¬ ((t x.a).rows = (t x.b).rows && (t x.a).cols = 1)
  else if x.op = 0x28 then ¬ same x.a x.b || (¬ x.fl.testBit 0 && ¬ same x.a x.c)
  else false

/-- Reasons an instruction fails with (R303). -/
def insnFails (bs : List Byte) (h : ImgHead) (ts : List TileDecl) (i : Nat) : List Nat :=
  let x := insnAt bs h i
  let jump := x.op = 0x02 || x.op = 0x03 || x.op = 0x04
  let kind := h.pkind.getD x.a 0
  let ok := ¬ idxBad h x
  why ((opUses x.op).isNone || flReserved x) 4 ++
  why (insnRsv x) 5 ++
  why (idxBad h x) 6 ++
  why (ok && fmtBad ts x) 7 ++
  why (ok && shapeBad ts x) 8 ++
  why (jump && h.ninsn ≤ x.imm) 9 ++
  why (jump && x.imm ≤ i && x.imm < h.ninsn && (insnAt bs h x.imm).op ≠ 0x05) 10 ++
  why (ok && ((x.op = 0x30 && ¬ (kind = 1 || kind = 2 || kind = 4)) || (x.op = 0x31 && ¬ (kind = 3 || kind = 4)))) 11 ++
  why (ok && x.op = 0x20 && x.fl.testBit 1 && h.cpoolLen < x.imm + (ts.getD x.a ⟨0, 1, 1, none⟩).foot) 13

/-- The lowest of the reasons. -/
def lowest (l : List Nat) : Option Nat := l.foldl (fun acc x => match acc with | none => some x | some y => some (min x y)) none

/-- The first index below n with a reason, ascending. -/
def firstFail (g : Nat → List Nat) (n : Nat) : Option (Nat × Nat) :=
  (List.range n).findSome? fun i => (lowest (g i)).map fun r => (r, i)

/-- The first failure of an image in the loader's order (R303): reason and index; port kinds of 5 and more are refused as RESERVED
(DEDUCED, log 22). -/
def loadFail (bs : List Byte) (len codeLen loaded : Nat) : Option (Nat × Nat) :=
  let h := imgHead bs
  match lowest (headFails bs len codeLen loaded) with
  | some r => some (r, 0)
  | none =>
    let ts := (List.range h.ntile).map (tileAt bs h)
    match firstFail (fun i => tileFails bs h (footSum (ts.take i)) i) h.ntile with
    | some x => some x
    | none =>
      match firstFail (fun i => why (5 ≤ h.pkind.getD i 0) 5) h.nport with
      | some x => some x
      | none => firstFail (insnFails bs h ts) h.ninsn

/-- The constant pool of an image. -/
def poolOf (bs : List Byte) : List Byte := (bs.drop (imgHead bs).cpoolOff).take (imgHead bs).cpoolLen

/-- Slice offset of a program's copy of its constant pool (R307). -/
def Prog.constOff (p : Prog) : Nat := p.codeOff + Config.constAt p.codeLen p.cpoolLen % (p.codeLen - p.cpoolLen + 1)

/-- The program of an image that passes. -/
def loadProg (bs : List Byte) (codeOff codeLen : Nat) : Prog :=
  let h := imgHead bs
  { insns := (List.range h.ninsn).map (insnAt bs h), tiles := (List.range h.ntile).map (tileAt bs h), nport := h.nport, nslot := h.nslot,
    minCopy := h.minCopy, maxCopy := h.maxCopy, pkind := h.pkind, cpoolLen := h.cpoolLen, codeOff := codeOff,
    codeLen := codeLen }

end Sys2Proof.Machine
end

