-- ==== Sys2Proof/Machine/Rings.lean ====
section
/-!
DEFINITION. Rings.lean: ring commands, doorbells, fences and completion events (R45-R78, R363, R364).
-/

namespace Sys2Proof.Machine

/-! ### Access to a function's BARs (R357, R613) -/

/-- A function answers accesses to its BARs: a physical function always; an instance while VF Enable is set, its partition holds
resources, no reset is in progress and the chip is not stopped (R357, R378, R401, R462). -/
def State.answers (s : State) (f : Nat) : Bool :=
  s.powered && (isPf f || ((s.link (s.linkOf f)).vfEnable && (s.part (partOf f)).cur.holds && ¬ (s.fn f).resetting &&
    (s.part (partOf f)).state ≠ .restoring && ¬ s.err.fatal))

/-- An access that nothing answers completes with Unsupported Request. -/
def State.onBar (s : State) (f : Nat) (k : State → State) : State := if s.answers f then k s else s.emit (.ur f)

/-- Commit a setup write and let it act; a full journal discards it and counts it (R440, R601). -/
def State.setupWrite (s : State) (o : Origin) (off width : Nat) (ignored : Bool) (old new : Nat) (act : State → State) : State :=
  if s.jrnl.full then { s with jrnl := { s.jrnl with refused := satAdd 0xFFFF s.jrnl.refused 1 } }
  else
    let s := s.jCommit o (.setup off width ignored old new)
    if ignored then s else act s

/-! ### The admin ring registers (R47, R48, R63, R608) -/

/-- Offset of a function's admin configuration register: instance BAR0 or the PF's setup register space. -/
def admOff (f : Nat) : Nat := if isPf f then 0x1010 + 0x100 * f else 0x1010

/-- The value ADMCFG reads. -/
def FnState.admCfg (x : FnState) : Nat := x.sqLog + 2 ^ 8 * x.cqLog + 2 ^ 29 * bit x.admErr + 2 ^ 31 * bit x.admEn

/-- A ring pair as RING_CREATE and INST_ADMCFG make it (R62): head 0, expected phase 1, completion tail 0, cache empty. -/
def newRing (sqLog cqLog cls sqBase cqBase : Nat) (raw : Bool) : Ring :=
  { state := .active, sqLog := sqLog, cqLog := cqLog, cls := cls, sqBase := sqBase, cqBase := cqBase, raw := raw }

/-- Create the admin ring, or set ERR when a size is out of range or the ring quota is 0 (R48). -/
def State.admEnable (s : State) (f : Nat) : State :=
  let x := s.fn f
  if 6 ≤ x.sqLog ∧ x.sqLog ≤ 16 ∧ 6 ≤ x.cqLog ∧ x.cqLog ≤ 16 ∧ s.qRings f ≠ 0 then
    let s := s.modFn f fun x => { x with admEn := true, admErr := false,
                                         rings := aset x.rings 0 (newRing x.sqLog x.cqLog 0 x.admSq x.admCq false) }
    if isPf f then s else s.modPart (partOf f) fun p => { p with clean := false }
  else s.modFn f fun x => { x with admErr := true }

/-- A write of ADMCFG (R47, R48, R63): the sizes while EN is 0, EN, and RESUME of an admin ring in ERROR. -/
def State.admCfgWrite (s : State) (f : Nat) (o : Origin) (width v : Nat) : State :=
  let x := s.fn f
  let r := s.ring f 0
  let resume := v.testBit 30 ∧ x.admEn ∧ r.state = .error
  let sizes := ¬ x.admEn ∧ (x.sqLog ≠ bitsOf v 0 5 ∨ x.cqLog ≠ bitsOf v 8 5)
  let enable := v.testBit 31 ∧ ¬ x.admEn
  s.setupWrite o (admOff f) width (¬ (resume ∨ sizes ∨ enable)) x.admCfg v fun s =>
    let s := if x.admEn then s else s.modFn f fun x => { x with sqLog := bitsOf v 0 5, cqLog := bitsOf v 8 5 }
    let s := if enable then s.admEnable f else s
    if resume then s.modRing f 0 fun r => { r with state := .active, cache := [], scan := true, sqPark := none, cqBad := false } else s

/-- R48: a write of INST_ADMCFG with EN = 1. -/
def execAdminRingEnable (fn : Fn) (o : Origin) (value : Nat) (s : State) : Host.Outcome State Fault Refusal :=
  .next (s.onBar fn.idx fun s => s.admCfgWrite fn.idx o 4 (value ||| 2 ^ 31))

/-- R63: a write of INST_ADMCFG with RESUME = 1, the sizes as they stand. -/
def execAdminRingResume (fn : Fn) (o : Origin) (s : State) : Host.Outcome State Fault Refusal :=
  .next (s.onBar fn.idx fun s => s.admCfgWrite fn.idx o 4 ((s.fn fn.idx).sqLog + (s.fn fn.idx).cqLog * 2 ^ 8 + 2 ^ 30))

/-! ### Ring commands (R62, R65, R66) -/

/-- R65: NOP ends OK; its body is not read. -/
def effNop (f id : Nat) (s : State) : State := s.endOp f id .ok 0 0

def execNop (e : Entry) (s : State) : Host.Outcome State Fault Refusal :=
  .next ({ e with rsv := false } |> fun e => s.startEntry e 0x000 (fun n => 1 ≤ n ∧ n ≤ 16) (.nop e) (effNop e.fn.idx) (raw := true))

/-- The entries a FENCE still waits for (R72): those of its ring, or of every ring, that have started and not ended, except those that
wait for a trigger, and those that have ended and whose completion waits. -/
def covers (x : FnState) (ring : Nat) (inst : Bool) (self : Nat) : List Nat :=
  (x.ops.filter fun o => (inst || o.ring = ring) && ¬ o.waiting && o.id ≠ self).map (·.id) ++
  (x.rings.filter fun r => inst || r.1 = ring).flatMap fun r => r.2.waiting.filterMap fun c => c.op

/-- R72: a FENCE begins to hold its ring. Entries that ended before it count in DETAIL as those that end under it do. -/
def effFence (ring : Nat) (inst : Bool) (f id : Nat) (s : State) : State :=
  let x := s.fn f
  let bad := if inst then x.rings.foldl (fun n r => n + r.2.badEnds) 0 else (s.ring f ring).badEnds
  (s.modOp f id fun o => { o with covered := covers x ring inst id, bad := bad }).modRing f ring fun r => { r with fence := some id }

def execFence (e : Entry) (hostVis remoteVis inst : Bool) (s : State) : Host.Outcome State Fault Refusal :=
  .next (s.startEntry e 0x001 len1 (.fence e hostVis remoteVis inst) (effFence e.ring inst e.fn.idx) (raw := true))

/-- States in which a connection's messages can still pass the target's watermark (R72). -/
def ConnSt.live : ConnSt → Bool
  | .established | .rekey | .closing => true
  | _ => false

/-- A TSEND that ended before its message passed the target's watermark still holds REMOTE_VIS (R72): ring, connection, last extended
PSN, operation. -/
def State.tsendHolds (s : State) (f : Nat) (t : Nat × Nat × Nat × Nat) : Bool :=
  let c := agetD (s.fn f).conns t.2.1 {}
  c.state.live && decide (c.tx.una ≤ t.2.2.1)

/-- The conditions of a fence hold (R72, R364): its covered entries have ended, their completions are written, and no covered TSEND
holds REMOTE_VIS. -/
def State.fenceMet (s : State) (f : Nat) (covered : List Nat) (remoteVis : Bool) (ring : Option Nat) (self : Nat) : Bool :=
  let x := s.fn f
  covered.all (fun i => ¬ x.ops.any (fun o => o.id = i)) &&
  x.rings.all (fun r => ¬ r.2.waiting.any fun c => match c.op with | some i => covered.contains i | none => false) &&
  (¬ remoteVis || x.tsends.all fun t => ¬ ((ring = none || ring = some t.1) && decide (t.2.2.2 < self) && s.tsendHolds f t))

/-- R72: the waiting FENCE ends OK, DETAIL the covered entries that ended otherwise than OK, LATE or DEGRADED. -/
def State.fenceRelease (s : State) (f k : Nat) : State :=
  match (s.ring f k).fence with
  | none => s
  | some id =>
    match s.op? f id with
    | some o =>
      match o.cmd with
      | .fence _ _ rv inst =>
        if s.fenceMet f o.covered rv (if inst then none else some k) id then
          (s.modRing f k fun r => { r with fence := none }).endOp f id .ok 0 o.bad
        else s
      | _ => s
    | none => s

def execFenceRelease (fn : Fn) (ring : Nat) (s : State) : Host.Outcome State Fault Refusal :=
  .next (s.fenceRelease fn.idx ring)

/-- Whether slot i lies among `count` slots from `first`, wrapping at the ring end (R66). -/
def inRun (size first count i : Nat) : Bool := decide (modSub size i first < count)

/-- Whether slot i lies at or after the head (R66: after the RING_INVAL itself, which has just been passed). -/
def ahead (r : Ring) (i : Nat) : Bool := decide (modSub r.sqSize i r.head < 64)

/-- R59, R62, R66: discard cached copies of the named slots of the own ring pair, or of another one that is PAUSED. -/
def effRingInval (own ring first count : Nat) (f id : Nat) (s : State) : State :=
  let r := s.ring f ring
  s.checked f id
    (ck (r.state ≠ .free ∧ (r.sqSize ≤ first ∨ count = 0 ∨ r.sqSize < count)) .range ++
     ck (ring ≠ own ∧ r.state ≠ .paused) .state)
    fun s => (s.modRing f ring fun r => { r with cache := r.cache.filter fun c =>
      ¬ (inRun r.sqSize first count c.1 ∧ (ring ≠ own ∨ ahead r c.1)) }).endOp f id .ok 0 0

def execRingInval (e : Entry) (ring first count : Nat) (s : State) : Host.Outcome State Fault Refusal :=
  .next (s.startEntry e 0x002 len1 (.ringInval e ring first count) (effRingInval e.ring ring first count e.fn.idx) (raw := true))

/-- The checks shared by the commands that name another ring pair (R62, R63, R65). The states of R62's table are looked at only for a
command on the admin ring that names a ring pair it may name. -/
def ringChecks (s : State) (e : Entry) (ring : Nat) (bad : RingSt → Bool) : List Status :=
  if e.ring ≠ 0 ∨ ring = 0 ∨ 1024 ≤ ring then [.range] else ck (bad (s.ring e.fn.idx ring).state = true) .state

/-- R62, R66, R169: RING_CREATE of a FREE ring pair with valid fields makes it ACTIVE. The frame-form map says whether it is a
raw-frame ring (R530). -/
def effRingCreate (e : Entry) (ring sqLog cqLog cls sqBase cqBase : Nat) (f id : Nat) (s : State) : State :=
  s.checked f id
    (ringChecks s e ring (fun st => st ≠ .free) ++ ck (s.qRings f ≤ ring) .range ++
     ck (sqLog < 6 ∨ 16 < sqLog ∨ cqLog < 6 ∨ 16 < cqLog ∨ 5 < cls ∨ sqBase % 4096 ≠ 0 ∨ cqBase % 4096 ≠ 0) .range)
    fun s =>
      let raw := (agetD (s.fn f).rawmap (ring / 64) 0).testBit (ring % 64)
      (s.modFn f fun x => { x with rings := aset x.rings ring (newRing sqLog cqLog cls sqBase cqBase raw) }).endOp f id .ok 0 0

def execRingCreate (e : Entry) (ring sqLog cqLog cls sqBase cqBase : Nat) (s : State) : Host.Outcome State Fault Refusal :=
  .next (s.startEntry e 0x003 len2 (.ringCreate e ring sqLog cqLog cls sqBase cqBase)
    (effRingCreate e ring sqLog cqLog cls sqBase cqBase e.fn.idx))

/-- Every RING_FLUSH of a ring pair ends OK: the one in progress with what it has flushed, those behind it with nothing flushed. -/
def State.flushEnd (s : State) (f k : Nat) : State :=
  let r := s.ring f k
  let s := s.modRing f k fun r => { r with flushOp := none, flushNext := [] }
  let s := match r.flushOp with
    | some id => s.endOp f id .ok 0 r.flushed
    | none => s
  r.flushNext.foldl (fun s id => s.endOp f id .ok 0 0) s

/-- R62: RING_DESTROY moves a ring pair to DRAINING; a flush in progress ends with what it has flushed (DESIGN CHOICE, log 139). -/
def effRingDestroy (e : Entry) (ring : Nat) (f id : Nat) (s : State) : State :=
  s.checked f id (ringChecks s e ring fun st => st = .free ∨ st = .draining) fun s =>
    (s.flushEnd f ring).modRing f ring fun r => { r with state := .draining, cache := [], scan := false, sqPark := none, destroy := some id }

def execRingDestroy (e : Entry) (ring : Nat) (s : State) : Host.Outcome State Fault Refusal :=
  .next (s.startEntry e 0x004 len1 (.ringDestroy e ring) (effRingDestroy e ring e.fn.idx))

/-- R62: the last started entry of a DRAINING ring pair has ended: FREE, its waiting completions discarded (R75), RING_DESTROY ends
OK. -/
def State.ringDrained (s : State) (f k : Nat) : State :=
  let r := s.ring f k
  if r.state = .draining ∧ ¬ (s.fn f).ops.any (fun o => o.ring = k) then
    let s := s.modFn f fun x => { x with rings := adel x.rings k,
                                         cnt := { x.cnt with complDropped := x.cnt.complDropped + r.waiting.length } }
    match r.destroy with
    | some id => s.endOp f id .ok 0 0
    | none => s
  else s

def execRingDrained (fn : Fn) (ring : Nat) (s : State) : Host.Outcome State Fault Refusal :=
  .next (s.ringDrained fn.idx ring)

/-- R62: RING_PAUSE; DETAIL is the head. -/
def effRingPause (e : Entry) (ring : Nat) (f id : Nat) (s : State) : State :=
  s.checked f id (ringChecks s e ring fun st => st = .free ∨ st = .error ∨ st = .draining) fun s =>
    let s := s.modRing f ring fun r => { r with state := .paused, scan := false }
    s.endOp f id .ok 0 (s.ring f ring).head

def execRingPause (e : Entry) (ring : Nat) (s : State) : Host.Outcome State Fault Refusal :=
  .next (s.startEntry e 0x005 len1 (.ringPause e ring) (effRingPause e ring e.fn.idx))

/-- R62: RING_RESUME from PAUSED or ERROR; fetching restarts at the head, after ERROR with the cache discarded. -/
def effRingResume (e : Entry) (ring : Nat) (f id : Nat) (s : State) : State :=
  s.checked f id (ringChecks s e ring fun st => st = .free ∨ st = .draining) fun s =>
    (s.modRing f ring fun r =>
      { r with state := .active, scan := r.scan || r.state ≠ .active, cache := if r.state = .error then [] else r.cache,
               sqPark := if r.state = .error then none else r.sqPark, cqBad := false }).endOp f id .ok 0 0

def execRingResume (e : Entry) (ring : Nat) (s : State) : Host.Outcome State Fault Refusal :=
  .next (s.startEntry e 0x006 len1 (.ringResume e ring) (effRingResume e ring e.fn.idx))

/-- The first eight bytes of a slot: the cached copy if there is one, else ring memory (R58). -/
def State.slotBytes (s : State) (f k slot n : Nat) : List Byte :=
  let r := s.ring f k
  match aget r.cache slot with
  | some l => l.take n
  | none => s.hostBytes f (r.sqBase + 64 * slot) n

/-- PHASE, LEN, OPCODE, GEN and TAG of a header (R50). -/
def hdrPhase (h : Nat) : Bool := h.testBit 63
def hdrSlots (h : Nat) : Nat := bitsOf h 59 4 + 1
def hdrOpcode (h : Nat) : Nat := bitsOf h 48 11
def hdrGen (h : Nat) : Nat := bitsOf h 32 16
def hdrTag (h : Nat) : BitVec 32 := BitVec.ofNat 32 h

/-- Flush the entry at the head of a ring pair, whose header is h: a FLUSHED completion for it (R62). -/
def State.flushEntry (s : State) (f k h : Nat) : State :=
  let s := s.modRing f k fun r =>
    { r.advance (r.taken (hdrSlots h)) with reserved := r.reserved + 1, flushed := r.flushed + 1 }
  let c := s.compl f .flushed (hdrTag h) (hdrOpcode h) 0 0
  s.complete f k { c with gen := hdrGen h, slot := true }

/-- R62: flush posted entries of a PAUSED ring pair from its head, one FLUSHED completion each as completion space allows, up to the
first slot without the expected phase. A missing translation parks the flush; poisoned ring memory stops it and the ring pair goes
to ERROR. -/
def State.flushOne (f k : Nat) (s : State) (_ : Unit) : State × Option Unit :=
  let r := s.ring f k
  let slotAddr := r.sqBase + 64 * r.head
  match s.missing f slotAddr 8 false with
  | some p => ((s.modRing f k fun r => { r with sqPark := some p }).askXlate f p false, none)
  | none =>
    match s.locPoison f false slotAddr 8 with
    | some _ => ((s.flushEnd f k).sqMemError f k .poison r.head, none)
    | none =>
      let h := leNat (s.slotBytes f k r.head 8)
      if hdrPhase h ≠ r.phase then (s.flushEnd f k, none)
      else if r.cqFree = 0 then (s, none)
      else (s.flushEntry f k h, some ())

/-- The whole flush, at most a lap of the ring at a time. -/
def flushGo (fuel : Nat) (s : State) (f k : Nat) : State := (loop (State.flushOne f k) fuel s ()).1

/-- Go on with a flush that waited for completion space or a translation. One that still waits when RING_RESUME has made its ring pair
ACTIVE goes on flushing: the table does not say (DESIGN CHOICE, log 139). -/
def State.flushMore (s : State) (f k : Nat) : State :=
  if (s.ring f k).flushOp.isSome then flushGo ((s.ring f k).sqSize + 1) s f k else s

/-- R62: RING_FLUSH of a PAUSED ring pair. One that finds another still waiting there ends with it, having flushed nothing itself (DESIGN
CHOICE, log 139). -/
def effRingFlush (e : Entry) (ring : Nat) (f id : Nat) (s : State) : State :=
  s.checked f id (ringChecks s e ring fun st => st ≠ .paused) fun s =>
    if (s.ring f ring).flushOp.isSome then s.modRing f ring fun r => { r with flushNext := r.flushNext ++ [id] }
    else flushGo ((s.ring f ring).sqSize + 1) (s.modRing f ring fun r => { r with flushOp := some id, flushed := 0 }) f ring

def execRingFlush (e : Entry) (ring : Nat) (s : State) : Host.Outcome State Fault Refusal :=
  .next (s.startEntry e 0x007 len1 (.ringFlush e ring) (effRingFlush e ring e.fn.idx))

/-- R66, R71, R359: DBG_CFG sets a group's vector. -/
def effDbgCfg (e : Entry) (group vector : Nat) (f id : Nat) (s : State) : State :=
  s.checked f id
    (adminOnly e ++ ck ((if isPf f then 2 else 32) ≤ group ∨ (if isPf f then 256 else 64) ≤ vector) .range)
    fun s => (s.modFn f fun x => { x with dbgs := amod x.dbgs group {} fun d => { d with vector := vector } }).endOp f id .ok 0 0

def execDbgCfg (e : Entry) (group vector : Nat) (s : State) : Host.Outcome State Fault Refusal :=
  .next (s.startEntry e 0x008 len1 (.dbgCfg e group vector) (effDbgCfg e group vector e.fn.idx))

/-- R62, R66, R76: CQ_MODERATE sets COUNT (0 acts as 1) and TIME of a ring pair that is not FREE or DRAINING. -/
def effCqModerate (e : Entry) (ring count time : Nat) (f id : Nat) (s : State) : State :=
  s.checked f id
    (if e.ring ≠ 0 ∨ 1024 ≤ ring then [.range] else ck ((s.ring f ring).state = .free ∨ (s.ring f ring).state = .draining) .state)
    fun s =>
      let s := s.modRing f ring fun r => { r with count := atLeast1 (count % 256), time := time % 1024 }
      let r := s.ring f ring
      let s := if r.armed ∧ r.count ≤ r.armedN then s.fireEvent f ring else s
      s.endOp f id .ok 0 0

def execCqModerate (e : Entry) (ring count time : Nat) (s : State) : Host.Outcome State Fault Refusal :=
  .next (s.startEntry e 0x009 len1 (.cqModerate e ring count time) (effCqModerate e ring count time e.fn.idx))

/-! ### Doorbells (R67-R71) -/

/-- The device may take n slots at pos early (R70): a free value says whether; a slot held already is not read again. -/
def State.cacheSlots (s : State) (f k pos n : Nat) : State :=
  let take := s.freeVal % 2 = 1
  let s := s.bump
  if take then
    s.modRing f k fun r => { r with cache := (List.range n).foldl (fun c i =>
      if (aget c (pos + i)).isSome then c else aset c (pos + i) (s.hostBytes f (r.sqBase + 64 * (pos + i)) 64)) r.cache }
  else s

/-- The device may fetch posted entries up to 64 slots beyond its head into the entry cache (R58), never at or beyond TAIL while the
scan has not passed it (R60). Which it fetches is open: each posted entry is cached as a free value says. -/
def State.cacheOne (f k : Nat) (s : State) (a : Nat × Bool × Nat) : State × Option (Nat × Bool × Nat) :=
  let r := s.ring f k
  let pos := a.1
  let phase := a.2.1
  let left := a.2.2
  if pos = r.tail ∧ r.lap = none ∨ left = 0 then (s, none) else
    match s.missing f (r.sqBase + 64 * pos) 64 false with
    | some _ => (s, none)
    | none =>
      let h := leNat (s.slotBytes f k pos 8)
      let n := min (hdrSlots h) (r.sqSize - pos)
      let body := r.sqBase + 64 * pos
      if hdrPhase h ≠ phase ∨ left < n ∨ (s.missing f body (64 * n) false).isSome ∨ (s.locPoison f false body (64 * n)).isSome then (s, none)
      else (s.cacheSlots f k pos n, some ((pos + n) % r.sqSize, if pos + n = r.sqSize then !phase else phase, left - n))

/-- Every posted entry from pos on, at most left slots. -/
def cacheGo (fuel : Nat) (s : State) (f k pos : Nat) (phase : Bool) (left : Nat) : State :=
  (loop (State.cacheOne f k) fuel s (pos, phase, left)).1

/-- A scan starts (R68): with TAIL equal to the head it runs at most one lap. PEND clears as it starts (R70). -/
def State.scanRing (s : State) (f k tail : Nat) : State :=
  let s := s.modRing f k fun r =>
    { r with scan := true, tail := tail % r.sqSize, lap := if tail % r.sqSize = r.head then some r.sqSize else none }
  let s := s.modFn f fun x =>
    { x with dbgs := amod x.dbgs (k / 32) {} fun d => { d with pend := d.pend &&& ((2 ^ (k % 32)) ^^^ 0xFFFFFFFF) } }
  let r := s.ring f k
  if r.state = .active then cacheGo 64 s f k r.head r.phase 64 else s

/-- A doorbell that is not dropped (R68, R70, R401): recorded while the partition is FROZEN, only pending while masked, otherwise a scan. -/
def State.bellTaken (s : State) (f k t : Nat) : State :=
  if ¬ isPf f ∧ ((s.part (partOf f)).state = .frozen ∨ (s.part (partOf f)).state = .freezing) then
    s.modRing f k fun r => { r with bell := some t }
  else if (agetD (s.fn f).dbgs (k / 32) {}).mask.testBit (k % 32) then
    (s.modRing f k fun r => { r with tail := t % r.sqSize }).modFn f fun x =>
      { x with dbgs := amod x.dbgs (k / 32) {} fun d => { d with pend := d.pend ||| 2 ^ (k % 32) } }
  else s.scanRing f k t

/-- A doorbell of either kind on a ring pair: dropped and counted for a FREE or DRAINING one; otherwise it wakes the ring pair's domains and is
taken (R69, R568). `tail` none stands for the head. -/
def State.doorbell (s : State) (f k : Nat) (tail : Option Nat) : State :=
  let r := s.ring f k
  if r.state = .free ∨ r.state = .draining then
    s.modFn f fun x => { x with cnt := { x.cnt with bellsDropped := x.cnt.bellsDropped + 1 } }
  else (s.bellWake f).bellTaken f k (tail.getD r.head)

/-- R68: RING_SQDB. -/
def execRingSqdb (fn : Fn) (ring tail : Nat) (s : State) : Host.Outcome State Fault Refusal :=
  .next (s.onBar fn.idx fun s => s.doorbell fn.idx ring (some (tail % 65536)))

/-- The HEAD part of a RING_CQDB write (R67): entries before it are released. -/
def State.cqRelease (s : State) (f k head : Nat) : State :=
  s.modRing f k fun r => { r with cqHead := head % 65536 % r.cqSize }

/-- A completion doorbell of a FREE or DRAINING ring pair is dropped and counted (R69). -/
def State.onCq (s : State) (f k : Nat) (g : State → State) : State :=
  if (s.ring f k).state = .free ∨ (s.ring f k).state = .draining then
    s.modFn f fun x => { x with cnt := { x.cnt with bellsDropped := x.cnt.bellsDropped + 1 } }
  else g s

/-- R67: RING_CQDB with ARM 0. -/
def execCqHeadRelease (fn : Fn) (ring head : Nat) (s : State) : Host.Outcome State Fault Refusal :=
  .next (s.onBar fn.idx fun s => s.onCq fn.idx ring fun s => s.cqRelease fn.idx ring head)

/-- R76: RING_CQDB with ARM 1 arms the event, and fires it at once if CQTAIL differs from HEAD. -/
def State.cqArm (s : State) (f k head : Nat) : State :=
  let s := s.cqRelease f k head
  let s := s.modRing f k fun r => { r with armed := true, armedN := 0, armedAt := none }
  if (s.ring f k).cqTail ≠ (s.ring f k).cqHead then s.fireEvent f k else s

def execCqEventArm (fn : Fn) (ring head : Nat) (s : State) : Host.Outcome State Fault Refusal :=
  .next (s.onBar fn.idx fun s => s.onCq fn.idx ring fun s => s.cqArm fn.idx ring head)

/-- The bits of a group whose ring pairs exist (R70). A FREE ring pair is one that does not exist (DESIGN CHOICE, log 140). -/
def groupBits (s : State) (f group : Nat) : Nat :=
  (List.range 32).foldl (fun m i => if (s.ring f (32 * group + i)).state = .free then m else m + 2 ^ i) 0

/-- Ring pairs of a group named by bits, those that do not exist left out (R70): their bits neither ring a doorbell nor count as one
dropped under R69. -/
def groupRings (s : State) (f group bits : Nat) : List Nat :=
  (bitList 32 (bits &&& groupBits s f group)).map fun i => 32 * group + i

/-- A word of a group after a write: bits of ring pairs that do not exist keep their value (R70). -/
def groupPut (s : State) (f group old bits : Nat) : Nat :=
  let m := groupBits s f group
  (old &&& (m ^^^ 0xFFFFFFFF)) ||| (bits &&& m)

/-- R70: DBG_RING acts as a doorbell with TAIL equal to the head on each named ring pair. -/
def execDbgRingSet (fn : Fn) (group bits : Nat) (s : State) : Host.Outcome State Fault Refusal :=
  .next (s.onBar fn.idx fun s => (groupRings s fn.idx group bits).foldl (fun s k => s.doorbell fn.idx k none) s)

/-- R70: DBG_MASK; a pending doorbell whose mask bit clears starts its scan. -/
def State.dbgMask (s : State) (f group bits : Nat) : State :=
  let d := agetD (s.fn f).dbgs group {}
  let mask := groupPut s f group d.mask bits
  let s := s.modFn f fun x => { x with dbgs := aset x.dbgs group { d with mask := mask } }
  let start := (bitList 32 d.pend).filter fun i => ¬ mask.testBit i
  start.foldl (fun s i => if (s.ring f (32 * group + i)).state = .free then s
    else s.scanRing f (32 * group + i) (s.ring f (32 * group + i)).tail) s

def execDbgMaskWrite (fn : Fn) (group bits : Nat) (s : State) : Host.Outcome State Fault Refusal :=
  .next (s.onBar fn.idx fun s => s.dbgMask fn.idx group bits)

/-- Write DBG_EVT or DBG_EMASK: the group signals if a signalling bit stays at 1 (R71). -/
def State.dbgWrite (s : State) (f group : Nat) (g : Dbg → Dbg) : State :=
  let d := g (agetD (s.fn f).dbgs group {})
  let s := s.modFn f fun x => { x with dbgs := aset x.dbgs group d }
  if d.signals ≠ 0 then s.msix f d.vector else s

/-- R70: DBG_EVT. -/
def State.dbgEvt (s : State) (f group bits : Nat) : State :=
  s.dbgWrite f group fun d => { d with evt := d.evt &&& ((bits &&& groupBits s f group) ^^^ 0xFFFFFFFF) }

/-- R70: DBG_EMASK. -/
def State.dbgEmask (s : State) (f group bits : Nat) : State :=
  s.dbgWrite f group fun d => { d with emask := groupPut s f group d.emask bits }

def execDbgEvtClear (fn : Fn) (group bits : Nat) (s : State) : Host.Outcome State Fault Refusal :=
  .next (s.onBar fn.idx fun s => s.dbgEvt fn.idx group bits)

def execDbgEmaskWrite (fn : Fn) (group bits : Nat) (s : State) : Host.Outcome State Fault Refusal :=
  .next (s.onBar fn.idx fun s => s.dbgEmask fn.idx group bits)

/-! ### Waiting completions and timers -/

/-- R75: waiting completions of a ring pair are written in order while it has room and is not in ERROR; one with a slot of its own
passes those that wait for space. -/
def State.writeOne (f k : Nat) (s : State) (_ : Unit) : State × Option Unit :=
  match (s.ring f k).waiting.find? fun c => s.cqReady f k c with
  | some c => ((s.modRing f k fun r => { r with waiting := r.waiting.erase c, cqPark := none }).putCompl f k c, some ())
  | none =>
    if (s.ring f k).waiting = [] then (s, none)
    else match s.missing f ((s.ring f k).cqBase + 32 * (s.ring f k).cqTail) 32 true with
      | some p => ((s.modRing f k fun r => { r with cqPark := some p }).askXlate f p true, none)
      | none => (s, none)

/-- All of them that find room. -/
def writeWaiting (fuel : Nat) (s : State) (f k : Nat) : State := (loop (State.writeOne f k) fuel s ()).1

def execPendingCompletionWrite (fn : Fn) (ring : Nat) (s : State) : Host.Outcome State Fault Refusal :=
  .next ((writeWaiting (s.ring fn.idx ring).waiting.length s fn.idx ring).flushMore fn.idx ring)

/-- R76: TIME microseconds after the first completion written since arming, the event fires. -/
def State.cqTimer (s : State) (f k : Nat) : State :=
  let r := s.ring f k
  match r.armedAt with
  | some t => if r.armed ∧ r.time ≠ 0 ∧ t + 1000 * r.time ≤ s.now then s.fireEvent f k else s
  | none => s

def execCqEventTimer (fn : Fn) (ring now : Nat) (s : State) : Host.Outcome State Fault Refusal :=
  .next ((s.tick now).cqTimer fn.idx ring)

/-- R64: gathered STATE records commit once 1 ms has passed since they opened. -/
def execStateRecordCommit (now : Nat) (s : State) : Host.Outcome State Fault Refusal :=
  let s := s.tick now
  .next ((s.jrnl.gather.filter fun g => g.at_ + 1000000 ≤ s.now).foldl (fun s g => s.gatherCommit g) s)

/-! ### The register fence (R363, R364) -/

/-- R364: a write of INST_FENCE or GLB_PF_FENCE covers every entry of the function that has started. It is a setup write (R435). -/
def State.regFence (s : State) (f : Nat) (o : Origin) (token : Nat) (hostVis remoteVis : Bool) (vector : Nat) (irq : Bool) : State :=
  let v := token % 2 ^ 32 + 2 ^ 32 * bit hostVis + 2 ^ 33 * bit remoteVis + vector % 64 * 2 ^ 40 + 2 ^ 47 * bit irq
  s.setupWrite o (admOff f + 0x10) 8 false 0 v fun s => s.modFn f fun x =>
    { x with fences := x.fences ++ [⟨token % 2 ^ 32, remoteVis, vector % 64, irq, covers x 0 true x.nextOp⟩] }

def execRegisterFence (fn : Fn) (o : Origin) (token : Nat) (hostVis remoteVis : Bool) (vector : Nat) (irq : Bool) (s : State) :
    Host.Outcome State Fault Refusal :=
  .next (s.onBar fn.idx fun s => s.regFence fn.idx o token hostVis remoteVis vector irq)

/-- R364: the oldest register fence completes once its conditions hold. -/
def State.regFenceDone (s : State) (f : Nat) : State :=
  match (s.fn f).fences with
  | [] => s
  | x :: t =>
    if s.fenceMet f x.covered x.remoteVis none (s.fn f).nextOp then
      let s := s.modFn f fun y => { y with fences := t, fenceDone := x.token }
      if x.irq then s.msix f x.vector else s
    else s

def execRegisterFenceDone (fn : Fn) (s : State) : Host.Outcome State Fault Refusal := .next (s.regFenceDone fn.idx)

end Sys2Proof.Machine
end

