-- ==== Sys2Proof/Machine/Crypto.lean ====
section
/-!
DEFINITION. Crypto.lean: key derivation and the ciphers that keys serve (R331-R333, R409-R411, R416, R417, R427). AES itself is opaque.
-/

namespace Sys2Proof.Machine

/-- The number that bytes spell, most significant first. -/
def beNat (l : List Byte) : Nat := leNat l.reverse

/-! ### CMAC and the KDF (R410, R411) -/

/-- Doubling in GF(2^128), as CMAC makes its first subkey. -/
def cmacDouble (x : BitVec 128) : BitVec 128 := (x <<< 1) ^^^ (if x.msb then 0x87#128 else 0#128)

/-- A byte string of whole AES blocks, as blocks. -/
def aesBlocks (l : List Byte) : List (BitVec 128) :=
  (List.range (l.length / 16)).map fun i => BitVec.ofNat 128 (beNat ((l.drop (16 * i)).take 16))

/-- CMAC-AES-256 of one or more whole blocks. -/
def cmac (k : BitVec 256) (m : List (BitVec 128)) : BitVec 128 :=
  let last := m.getLastD 0 ^^^ cmacDouble (Config.aes256 k 0)
  Config.aes256 k ((m.dropLast.foldl (fun c b => Config.aes256 k (c ^^^ b)) 0) ^^^ last)

/-- Bytes put into a string at an offset. -/
def putAt (l : List Byte) (f : Nat × List Byte) : List Byte := l.take f.1 ++ f.2 ++ l.drop (f.1 + f.2.length)

/-- M(i), 128 bytes (R410): the counter, PURPOSE, zero, the label version, CONTEXT by its fields, L. -/
def kdfBlock (i : Nat) (purpose : List Byte) (ctx : List (Nat × List Byte)) (bits : Nat) : List Byte :=
  ctx.foldl putAt (beBytes 4 i ++ purpose ++ [0, 1] ++ List.replicate 114 0 ++ beBytes 4 bits)

/-- R410: the first L bits of CMAC(K_in, M(1)) ‖ CMAC(K_in, M(2)) ‖ … -/
def kdf (k purpose : List Byte) (ctx : List (Nat × List Byte)) (bits : Nat) : List Byte :=
  ((List.range (ceilDiv bits 128)).flatMap fun i =>
    beBytes 16 (cmac (BitVec.ofNat 256 (beNat k)) (aesBlocks (kdfBlock (i + 1) purpose ctx bits))).toNat).take (bits / 8)

/-- PURPOSE: four ASCII characters. -/
def purpose (c : String) : List Byte := c.toList.map fun x => BitVec.ofNat 8 x.toNat

/-! ### Roots (R409, R411) -/

/-- The bytes of a DEVID: digest byte 0 first, which is bits 7:0 (R409). -/
def devBytes (d : Nat) : List Byte := leBytes 8 d

/-- DEVIDs compare as byte strings from byte 0 (R409). -/
def devNum (d : Nat) : Nat := beNat (devBytes d)

/-- This device's DEVID. -/
def ownDev : Nat := Config.devId.toNat

/-- The smaller DEVID of a pair that this device is in, and the larger (R411). -/
def devLo (d : Nat) : Nat := if devNum ownDev ≤ devNum d then ownDev else d
def devHi (d : Nat) : Nat := if devNum ownDev ≤ devNum d then d else ownDev

def drkBytes : List Byte := beBytes 32 Config.drk.toNat

/-- The pair root with a device: `PRK0` of its first contact, or `SELF` for this device itself. -/
def State.pairRoot (s : State) (d : Nat) : List Byte :=
  if d = ownDev then kdf drkBytes (purpose "SELF") [(16, devBytes ownDev)] 256
  else
    let n := match s.sec.peers.find? fun p => p.dev = d with | some p => p.sess | none => 0
    kdf (beBytes 32 (Config.exportSecret d n).toNat) (purpose "PRK0") [(16, devBytes (devLo d)), (24, devBytes (devHi d))] 256

/-! ### Keys (R331-R333, R411, R416) -/

/-- A key as a number. -/
def key256 (l : List Byte) : BitVec 256 := BitVec.ofNat 256 (beNat l)
def key512 (l : List Byte) : BitVec 512 := BitVec.ofNat 512 (beNat l)

/-- CCHK of a contribution under the pair root with a device (R416). -/
def State.cchk (s : State) (d tc : Nat) : BitVec 64 :=
  BitVec.ofNat 64 (beNat (kdf (s.pairRoot d) (purpose "CCHK") [(56, beBytes 32 tc)] 64))

/-- The set-up key of a device pair (R417). -/
def State.pairKey (s : State) (d : Nat) : BitVec 256 :=
  key256 (kdf (s.pairRoot d) (purpose "PAIR") [(16, devBytes (devLo d)), (24, devBytes (devHi d))] 256)

/-- The seal key of a partition's slot (R427). -/
def sealKey (p slot tc : Nat) : BitVec 256 := key256 (kdf drkBytes (purpose "SEAL") [(10, leBytes 1 p), (11, leBytes 1 slot), (56, beBytes 32 tc)] 256)

/-- The image key of a migration (R403, R411): contribution, image version, salt. -/
def imageKey (tc version : Nat) (salt : List Byte) : BitVec 256 :=
  key256 (kdf (beBytes 32 tc) (purpose "MIGK") [(10, beBytes 2 version), (16, salt)] 256)

/-- The key of a selector, if it holds one (R331, R411). -/
def State.selKey (s : State) (k : Nat) : Option (BitVec 512) :=
  (aget s.mem.keys k).map fun x => key512 (kdf drkBytes (purpose "SLCK") [(10, leBytes 1 k), (16, beBytes 16 x.2), (56, beBytes 32 (x.1.getD 0))] 512)

/-- The device key, derived afresh at each power-on (R333). -/
def State.devKey (s : State) : Option (BitVec 512) :=
  s.mem.devKey.map fun n => key512 (kdf drkBytes (purpose "DEVK") [(16, beBytes 16 (Config.powerNonce n).toNat)] 512)

/-! ### AES-XTS-256 of DRAM lines (R331, R333, R334) -/

/-- The tweak of the next AES block of a data unit: the value doubled in GF(2^128), as a little-endian integer. -/
def xtsDouble (t : Nat) : Nat := if t < 2 ^ 127 then 2 * t else (2 * t - 2 ^ 128) ^^^ 0x87

/-- AES-256 of a 16-byte string. -/
def aesBytes (k : BitVec 256) (l : List Byte) : List Byte := beBytes 16 (Config.aes256 k (BitVec.ofNat 128 (beNat l))).toNat

/-- Byte strings combined. -/
def xorBytes (a b : List Byte) : List Byte := a.zipWith (fun x y => x ^^^ y) b

/-- Encrypt the AES blocks of a data unit one after another. -/
def xtsGo (fuel : Nat) (k : BitVec 256) (t : Nat) (l : List Byte) : List Byte :=
  match fuel with
  | 0 => []
  | fuel + 1 =>
    let w := leBytes 16 t
    xorBytes (aesBytes k (xorBytes (l.take 16) w)) w ++ xtsGo fuel k (xtsDouble t) (l.drop 16)

/-- One 64-byte line under a 512-bit key: its first half encrypts, its second the tweak, which is the line's address divided by 64. -/
def xtsLine (key : BitVec 512) (phys : Nat) (plain : List Byte) : List Byte :=
  xtsGo 4 (BitVec.ofNat 256 (key.toNat / 2 ^ 256)) (leNat (aesBytes (BitVec.ofNat 256 (key.toNat % 2 ^ 256)) (leBytes 16 (phys / 64)))) plain

/-- The slice pool of the physical map (R321). -/
def inPool (phys : Nat) : Bool := decide (0x80000000 ≤ phys ∧ phys < 0x3FC000000)

/-- The key a line is encrypted under: in the slice pool that of its page's selector, elsewhere the device key (R331, R333). -/
def State.lineKey (s : State) (phys : Nat) : Option (BitVec 512) :=
  if inPool phys then
    match s.mem.pages.find? fun e => e.2.valid && e.2.ppn = phys / 2 ^ 21 with
    | some e => s.selKey e.2.ksel
    | none => none
  else s.devKey

/-- What the cells of a valid DRAM line hold (R331, R334): State keeps lines decrypted, since a full or merged write encrypts again and a read
decrypts; a line whose valid bit is clear reads as zero and holds nothing. -/
def State.lineCells (s : State) (phys : Nat) : Option (List Byte) :=
  (s.lineKey phys).map fun k => xtsLine k (phys / 64 * 64) (cellsGet s.mem.bytes (cellKey dramSpace (phys / 64 * 64)) 64)

/-! ### GCM (R417, R427) -/

/-- Bytes combined with the key stream: encryption and decryption alike. -/
def gcmXor (key : BitVec 256) (iv : Nat) (l : List Byte) : List Byte :=
  (List.range l.length).zipWith (fun i b => b ^^^ Config.gcmStream key iv i) l

/-- The tag of ciphertext and additional data. -/
def gcmTag (key : BitVec 256) (iv : Nat) (aad ct : List Byte) : List Byte :=
  beBytes 16 (Config.gcmTag key iv (aad.map fun b => b.toNat) (ct.map fun b => b.toNat)).toNat

/-- Ciphertext and tag. -/
def gcmSeal (key : BitVec 256) (iv : Nat) (aad pt : List Byte) : List Byte :=
  let ct := gcmXor key iv pt
  ct ++ gcmTag key iv aad ct

end Sys2Proof.Machine
end

