-- ==== Sys2Proof/Machine/Wire.lean ====
section
/-!
DEFINITION. Wire.lean: TLT packets as bytes (R15, R127-R131, R152, R174, R176, R250, R269, R417, R449), the frames that carry them, and what a
received frame's bytes say (R500, R501, R503).
-/

namespace Sys2Proof.Machine

/-! ### Types and extensions (R130, R131) -/

/-- TYPE (R130). -/
def Ext.typ : Ext → Nat
  | .data .. => 0 | .readReq .. => 1 | .readResp .. => 2 | .atomicReq .. => 3 | .atomicResp .. => 4 | .tsend .. => 5 | .rdvReq .. => 6
  | .rdvResp .. => 7 | .ack .. => 8 | .nak .. => 9 | .credit .. => 10 | .probe => 11
  | .syn .. | .synAck .. | .connAck .. | .connRefuse .. | .fin | .finAck => 12
  | .abort .. => 13 | .coll .. | .kv .. | .halt .. | .barrier .. | .token .. => 14

/-- Extension bytes of each TYPE 0 to 14 (R130, R176, R250, R269). -/
def extSizes : List Nat := [24, 16, 8, 32, 8, 24, 16, 8, 64, 12, 16, 0, 64, 8, 40]

/-- Extension bytes of a packet. -/
def Ext.size (e : Ext) : Nat := extSizes.getD e.typ 0

/-- Packets that consume no PSN (R130). -/
def Ext.unsequenced (e : Ext) : Bool := e.typ = 8 || (10 ≤ e.typ && e.typ ≤ 13)

/-- Packets sealed under the device-pair set-up key, not under the connection's (R164, R417). -/
def Ext.setUp (e : Ext) : Bool := e.typ = 12 || e.typ = 13

def zeros (n : Nat) : List Byte := List.replicate n 0

/-- A grant field (R174). -/
def grantBytes (g : Grant) : List Byte := beBytes 2 g.gseq ++ zeros 2 ++ beBytes 3 g.gwin ++ beBytes 1 (bit g.stop)

/-- Four SACK ranges, unused ones with COUNT 0 (R152). -/
def sackBytes (l : List (Nat × Nat)) : List Byte :=
  (List.range 4).flatMap fun i => match l[i]? with
    | some r => beBytes 4 r.1 ++ beBytes 4 r.2
    | none => zeros 8

/-- The extension of an ACK (R152). -/
def ackBytes (x : AckExt) : List Byte :=
  beBytes 4 x.cum ++ sackBytes x.sacks ++ beBytes 4 x.echoTs ++ beBytes 1 (x.echoPath % 64) ++ zeros 3 ++ beBytes 8 x.cemap.toNat ++
  grantBytes x.grant ++ zeros 4

/-- The handle and incarnation of a connection as DCONN and DINC are written (R129). -/
def connWord (h inc : Nat) : List Byte := beBytes 4 (2 ^ 12 * (h % 2 ^ 20) + inc % 2 ^ 12)

/-- A CONN extension: the nonce, CCHK and grant where they stand (R174, R416), the other bytes as `rest` tells (R130). -/
def connBytes (head tail : List Byte) (rest : List Nat) : List Byte :=
  head ++ ((List.range (64 - head.length - tail.length)).map fun i => Config.connByte rest (head.length + i)) ++ tail

/-- The numbers of an optional value. -/
def optNats (o : Option Nat) : List Nat := match o with | some n => [1, n] | none => [0]

/-- The BULK extension of a collective packet (R250). -/
def bulkBytes (x : BulkExt) : List Byte :=
  beBytes 1 0 ++ beBytes 1 x.kind ++ beBytes 2 x.mepoch ++ beBytes 4 x.cseq ++ beBytes 2 x.sig ++ beBytes 2 (x.srank % 2 ^ 13) ++ beBytes 4 x.step ++
  beBytes 8 x.eoff ++ beBytes 4 x.nelem ++ beBytes 4 x.chunk ++ beBytes 4 x.esc0 ++ beBytes 2 x.nesc ++ beBytes 1 (x.pfmt % 16 + 16 * bit x.exact) ++
  zeros 1

/-- The BULK extension of a KV packet (R269). -/
def kvBytes (x : KvExt) : List Byte :=
  beBytes 1 1 ++ beBytes 1 (bit x.values) ++ zeros 2 ++ beBytes 4 x.sref ++ beBytes 1 x.kvh ++ beBytes 1 (x.kvfmt % 16) ++ beBytes 1 x.dcode ++
  beBytes 1 x.ntokb ++ beBytes 4 (x.bpos % 2 ^ 24) ++ beBytes 4 x.eoff ++ beBytes 4 x.nelem ++ beBytes 4 x.bseq ++ zeros 12

/-- The BULK extension of a re-formation token (R449): KIND 4, TKIND 1 PROPOSE or 2 COMMIT. -/
def tokenBytes (commit : Bool) (t : Token) : List Byte :=
  beBytes 1 0 ++ beBytes 1 4 ++ beBytes 2 t.base ++ beBytes 4 t.cseq ++ zeros 2 ++ beBytes 2 (t.srank % 2 ^ 13) ++
  beBytes 4 (2 ^ 28 * (if commit then 2 else 1) + 2 ^ 16 * min t.lap 0xFFF + t.origin % 2 ^ 13) ++ beBytes 8 (t.cbase.getD 0xFFFFFFFFFFFFFFFF) ++
  beBytes 8 t.cmap.toNat ++ beBytes 4 t.visited ++ zeros 4

/-- The extension's bytes, offset by offset (R131). -/
def Ext.bytes : Ext → List Byte
  | .data w r n im nt => beBytes 4 w ++ beBytes 8 r ++ beBytes 4 n ++ beBytes 4 im.toNat ++ beBytes 1 (bit nt) ++ zeros 3
  | .readReq w r n => beBytes 4 w ++ beBytes 8 r ++ beBytes 4 n
  | .readResp q m => beBytes 4 q ++ beBytes 4 m
  | .atomicReq w r op a b => beBytes 4 w ++ beBytes 8 r ++ beBytes 1 op ++ zeros 3 ++ beBytes 8 a.toNat ++ beBytes 8 b.toNat
  | .atomicResp q => beBytes 4 q ++ zeros 4
  | .tsend l rdv tag n m => beBytes 2 (l % 2 ^ 12) ++ beBytes 1 (bit rdv) ++ zeros 1 ++ beBytes 8 tag.toNat ++ beBytes 4 n ++ beBytes 4 m ++ zeros 4
  | .rdvReq q m n => beBytes 4 q ++ beBytes 4 m ++ beBytes 4 n ++ zeros 4
  | .rdvResp q m => beBytes 4 q ++ beBytes 4 m
  | .ack x => ackBytes x
  | .nak q st ab d => beBytes 4 q ++ beBytes 1 st.code ++ beBytes 1 (bit ab) ++ zeros 2 ++ beBytes 4 d
  | .credit g backlog req => (if req then zeros 8 else grantBytes g) ++ beBytes 4 backlog ++ beBytes 1 (bit req) ++ zeros 3
  | .probe => []
  | .syn nonce cc service h inc herd resume =>
    connBytes (beBytes 8 nonce ++ beBytes 8 cc.toNat) [] ([0, service, h, inc] ++ optNats herd ++ match resume with | some r => [1, r.1, r.2.1, r.2.2] | none => [0])
  | .synAck nonce h inc g => connBytes (beBytes 8 nonce) (grantBytes g) [1, h, inc]
  | .connAck g => connBytes [] (grantBytes g) [2]
  | .connRefuse k hint => connBytes [] [] [3, k, hint]
  | .fin => connBytes [] [] [4]
  | .finAck => connBytes [] [] [5]
  | .abort c h inc => beBytes 1 c ++ zeros 3 ++ connWord h inc
  | .coll x => bulkBytes x
  | .kv x => kvBytes x
  | .halt e q o c => bulkBytes { kind := 5, mepoch := e, cseq := q, sig := 0, srank := o, step := c, eoff := 0, nelem := 0, chunk := 0, esc0 := 0, nesc := 0, pfmt := 0, exact := false }
  | .barrier e q g r n => bulkBytes { kind := 4, mepoch := e, cseq := q, sig := g, srank := r, step := n, eoff := 0, nelem := 0, chunk := 0, esc0 := 0, nesc := 0, pfmt := 0, exact := false }
  | .token c t => tokenBytes c t

/-! ### The base header (R129) -/

/-- The 32 bytes of a base header; VER is 1. -/
def BaseHdr.bytes (h : BaseHdr) : List Byte :=
  beBytes 1 (16 + h.typ % 16) ++
  beBytes 1 (128 * bit h.first + 64 * bit h.last + 32 * bit h.wep + 16 * bit h.ackreq + 8 * bit h.retx + h.cls % 8) ++
  beBytes 2 (2 ^ 12 * (h.part % 16) + 2 ^ 6 * (h.path % 64)) ++ connWord h.dconn h.dinc ++ beBytes 2 h.dgen ++ beBytes 2 h.kepoch ++
  beBytes 4 h.pctr ++ beBytes 4 h.psn ++ beBytes 4 h.msn ++ beBytes 2 h.plen ++ zeros 2 ++ beBytes 4 h.tstamp

/-- The number in n bytes of a header from an offset. -/
def beAt (l : List Byte) (off n : Nat) : Nat := beNat ((l.drop off).take n)

/-- The header that 32 bytes spell; reserved bits are ignored. -/
def baseOf (l : List Byte) : BaseHdr :=
  let b1 := beAt l 1 1
  { typ := beAt l 0 1 % 16, first := b1.testBit 7, last := b1.testBit 6, wep := b1.testBit 5, ackreq := b1.testBit 4, retx := b1.testBit 3, cls := b1 % 8,
    part := beAt l 2 2 / 2 ^ 12, path := beAt l 2 2 / 2 ^ 6 % 64, dconn := beAt l 4 4 / 2 ^ 12, dinc := beAt l 4 4 % 2 ^ 12, dgen := beAt l 8 2,
    kepoch := beAt l 10 2, pctr := beAt l 12 4, psn := beAt l 16 4, msn := beAt l 20 4, plen := beAt l 24 2, tstamp := beAt l 28 4 }

/-- The base header of a packet. -/
def Pkt.base (p : Pkt) : BaseHdr :=
  { typ := p.ext.typ, first := p.first, last := p.last, wep := p.wep, ackreq := p.ackreq, retx := p.retx, cls := p.cls, part := p.part, path := p.path,
    dconn := p.dconn, dinc := p.dinc, dgen := p.dgen, kepoch := p.kepoch, pctr := p.pctr, psn := p.psn, msn := p.msn, plen := p.payload.length,
    tstamp := p.tstamp }

/-- The 12-byte IV (R417) as a number: KEPOCH, NTYPE, zero, PCTR, zeros. -/
def Pkt.iv (p : Pkt) (ntype : Nat) : Nat := beNat (beBytes 2 p.kepoch ++ beBytes 1 ntype ++ zeros 1 ++ beBytes 4 p.pctr ++ zeros 4)

/-- What the datagram carries: the base header, the sealed extension and payload, the tag (R127, R417). -/
def Pkt.datagram (p : Pkt) (key : BitVec 256) (ntype : Nat) : List Byte :=
  let head := p.base.bytes
  head ++ gcmSeal key (p.iv ntype) head (p.ext.bytes ++ p.payload)

/-! ### IP and UDP (R127, R128) -/

/-- An IPv4 address as PEER_IP writes it (R136). -/
def isV4 (ip : Nat) : Bool := ip / 2 ^ 32 = 0xFFFF

/-- Bytes as 16-bit words, an odd last byte padded. -/
def words16 : List Byte → List Nat
  | [] => []
  | [a] => [256 * a.toNat]
  | a :: b :: t => (256 * a.toNat + b.toNat) :: words16 t

/-- The one's complement sum of 16-bit words. -/
def onesSum (l : List Byte) : Nat :=
  let n := (words16 l).foldl (fun n w => n + w) 0
  if n = 0 then 0 else (n - 1) % 65535 + 1

/-- The Internet checksum. -/
def inetSum (l : List Byte) : Nat := 0xFFFF - onesSum l

/-- The pseudo-header of a UDP checksum. -/
def pseudoHdr (v4 : Bool) (src dst len : Nat) : List Byte :=
  if v4 then beBytes 4 src ++ beBytes 4 dst ++ beBytes 2 17 ++ beBytes 2 len
  else beBytes 16 src ++ beBytes 16 dst ++ beBytes 4 len ++ beBytes 4 17

/-- A UDP datagram with its checksum (R128): one that would be zero is sent as 0xFFFF. -/
def udpBytes (v4 : Bool) (src dst sport dport : Nat) (body : List Byte) : List Byte :=
  let n := 8 + body.length
  let head := beBytes 2 sport ++ beBytes 2 dport ++ beBytes 2 n
  let c := inetSum (pseudoHdr v4 src dst n ++ head ++ zeros 2 ++ body)
  head ++ beBytes 2 (if c = 0 then 0xFFFF else c) ++ body

/-- An IPv4 header with DF set, or an IPv6 header; `tos` is DSCP and ECN (R127, R159, R172). -/
def ipBytes (v4 : Bool) (src dst tos n : Nat) : List Byte :=
  if v4 then
    let a := beBytes 1 0x45 ++ beBytes 1 tos ++ beBytes 2 (20 + n) ++ beBytes 2 Config.ipIdent.toNat ++ beBytes 2 0x4000 ++ beBytes 1 Config.hopLimit.toNat ++ beBytes 1 17
    let b := beBytes 4 src ++ beBytes 4 dst
    a ++ beBytes 2 (inetSum (a ++ b)) ++ b
  else beBytes 4 (2 ^ 28 * 6 + 2 ^ 20 * (tos % 256) + Config.flowLabel.toNat) ++ beBytes 2 n ++ beBytes 1 17 ++ beBytes 1 Config.hopLimit.toNat ++
    beBytes 16 src ++ beBytes 16 dst

/-- The frame of a packet, without FCS (R127): Ethernet header with its optional 802.1Q tag, IP, UDP, datagram. -/
def Pkt.frame (p : Pkt) (smac : Nat) (key : BitVec 256) (ntype : Nat) : List Byte :=
  let v4 := isV4 p.peerIp
  let udp := udpBytes v4 p.srcIp p.peerIp p.srcPort p.dstPort (p.datagram key ntype)
  beBytes 6 (Config.neighMac p.peerIp).toNat ++ beBytes 6 smac ++
  (match p.vid with | some v => beBytes 2 0x8100 ++ beBytes 2 (2 ^ 13 * (p.pcp % 8) + v % 2 ^ 12) | none => []) ++
  beBytes 2 (if v4 then 0x0800 else 0x86DD) ++ ipBytes v4 p.srcIp p.peerIp (4 * (p.dscp % 64) + (if p.ect then 2 else 0)) udp.length ++ udp

/-- Bytes of that frame with its FCS (R132). -/
def Pkt.frameLen (p : Pkt) : Nat :=
  118 + p.ext.size + p.payload.length - (if p.vid.isSome then 0 else 4) - (if isV4 p.peerIp then 20 else 0)

/-- Offset of a port's registers, and the address of a breakout port (R517). -/
def portOff (q : Nat) : Nat := 0xC00000 + 0x20000 * q
def State.mac (s : State) (q k : Nat) : Nat := s.fld (portOff q + 0x40 + 8 * k) 0 48

/-- A shedding frame, without FCS (R509): TYPE 1 CAP, 2 REQ, 3 ACK, 4 NAK, 5 MARK. SEQ has its high byte first (DESIGN CHOICE, log 173). -/
def shedFrame (mac type seq lanes : Nat) : List Byte :=
  beBytes 6 0x0180C2000002 ++ beBytes 6 mac ++ beBytes 2 0x8809 ++ beBytes 1 0x0A ++ beBytes 3 0x7A51C3 ++ beBytes 1 type ++ beBytes 1 lanes ++
  beBytes 2 seq ++ List.replicate 38 0

/-- Send a shedding frame. -/
def State.sayShed (s : State) (q k type seq lanes : Nat) : State := s.emit (.shed q k (shedFrame (s.mac q k) type seq lanes))

/-! ### What a received frame says (R500, R501, R503, R127, R128) -/

end Sys2Proof.Machine

namespace Sys2Proof

open Machine

/-- Destination address; group addresses have bit 0 of the first byte set. -/
def Frame.toMac (f : Frame) : Nat := beAt f.bytes 0 6
def Frame.group (f : Frame) : Bool := (beAt f.bytes 0 1).testBit 0

/-- An 802.1Q tag, its VID, and where the bytes after the EtherType begin. -/
def Frame.tagged (f : Frame) : Bool := beAt f.bytes 12 2 = 0x8100
def Frame.vid (f : Frame) : Nat := if f.tagged then beAt f.bytes 14 2 % 2 ^ 12 else 0
def Frame.l3 (f : Frame) : Nat := if f.tagged then 18 else 14

/-- The EtherType after any tag. -/
def Frame.etype (f : Frame) : Nat := beAt f.bytes (f.l3 - 2) 2

/-- Subtype and OUI of a slow-protocol frame. -/
def Frame.subtype (f : Frame) : Nat := beAt f.bytes f.l3 1
def Frame.oui (f : Frame) : Nat := beAt f.bytes (f.l3 + 1) 3

def Frame.ipv4 (f : Frame) : Bool := f.etype = 0x0800
def Frame.ipv6 (f : Frame) : Bool := f.etype = 0x86DD

/-- The protocol above IP. -/
def Frame.proto (f : Frame) : Nat := if f.ipv4 then beAt f.bytes (f.l3 + 9) 1 else if f.ipv6 then beAt f.bytes (f.l3 + 6) 1 else 0

/-- Offset of what IP carries. -/
def Frame.l4 (f : Frame) : Nat := f.l3 + (if f.ipv4 then 4 * (beAt f.bytes f.l3 1 % 16) else 40)

/-- MF and the fragment offset of an IPv4 packet. -/
def Frame.frag (f : Frame) : Nat := if f.ipv4 then beAt f.bytes (f.l3 + 6) 2 % 2 ^ 14 else 0

/-- Destination UDP port, of a frame that holds a UDP header. -/
def Frame.udpPort (f : Frame) : Option Nat :=
  if f.proto = 17 ∧ f.frag % 2 ^ 13 = 0 ∧ f.l4 + 8 ≤ f.bytes.length then some (beAt f.bytes (f.l4 + 2) 2) else none

/-- ICMPv6 neighbour discovery: types 133 to 137. -/
def Frame.nd (f : Frame) : Bool := f.ipv6 && f.proto = 58 && 133 ≤ beAt f.bytes f.l4 1 && beAt f.bytes f.l4 1 ≤ 137

/-- Source and destination IP addresses, IPv4 as ::ffff:a.b.c.d. -/
def Frame.srcIp (f : Frame) : Nat := if f.ipv4 then 2 ^ 32 * 0xFFFF + beAt f.bytes (f.l3 + 12) 4 else beAt f.bytes (f.l3 + 8) 16
def Frame.dstIp (f : Frame) : Nat := if f.ipv4 then 2 ^ 32 * 0xFFFF + beAt f.bytes (f.l3 + 16) 4 else beAt f.bytes (f.l3 + 24) 16

/-- Length field of the UDP header, and the datagram it tells. -/
def Frame.udpLen (f : Frame) : Nat := beAt f.bytes (f.l4 + 4) 2
def Frame.udp (f : Frame) : List Byte := (f.bytes.drop f.l4).take f.udpLen

/-- R128: the checksum is right, or zero over IPv4. -/
def Frame.sumOk (f : Frame) : Bool :=
  if beAt f.bytes (f.l4 + 6) 2 = 0 then f.ipv4 else onesSum (pseudoHdr f.ipv4 f.srcIp f.dstIp f.udpLen ++ f.udp) = 0xFFFF

/-- The base header of a TLT datagram. -/
def Frame.base (f : Frame) : BaseHdr := baseOf (f.bytes.drop (f.l4 + 8))

/-- R128: the lengths of IP, UDP and TLT agree with what is there. -/
def Frame.lenOk (f : Frame) : Bool :=
  let ip := if f.ipv4 then f.l3 + beAt f.bytes (f.l3 + 2) 2 else f.l4 + beAt f.bytes (f.l3 + 4) 2
  decide (ip ≤ f.bytes.length) && decide (f.l4 + f.udpLen = ip) &&
  decide (f.udpLen = 8 + 32 + extSizes.getD f.base.typ 0 + f.base.plen + 16)

/-- R127, R128: not a fragment, checksum, VER, TYPE and lengths right. -/
def Frame.tltOk (f : Frame) : Bool :=
  f.frag = 0 && f.sumOk && decide (beAt f.bytes (f.l4 + 8) 1 / 16 = 1) && decide (f.base.typ ≠ 15) && f.lenOk

end Sys2Proof
end

