-- ==== Sys2Proof/Machine/Transport.lean ====
section
/-!
DEFINITION. Transport.lean: what connections share: contexts and their ends, messages waiting to be sent, packet counters, paths,
unsequenced packets and ACKs (R127-R166, R411-R422).
-/

namespace Sys2Proof.Machine

/-! ### Contexts -/

def State.conn (s : State) (f h : Nat) : Conn := agetD (s.fn f).conns h {}
def State.modConn (s : State) (f h : Nat) (g : Conn → Conn) : State :=
  s.modFn f fun x => { x with conns := amod x.conns h {} g }

/-- Payload bytes of a full packet (R132). -/
def pmtuBytes (code : Nat) : Nat := 1024 * 2 ^ code

/-- Reported value of a connection state (R134). -/
def ConnSt.code : ConnSt → Nat
  | .free => 0 | .connecting => 1 | .slowpath => 2 | .established => 3 | .rekey => 4 | .closing => 5 | .lost => 6 | .exhausted => 7

/-- DETAIL of CONN_EVENT and of the accept completion: handle, new state, CAUSE (R138). -/
def connDetail (h : Nat) (st : ConnSt) (cause : Nat) : Nat := h % 2 ^ 20 + 2 ^ 20 * st.code + 2 ^ 24 * cause

/-- R139: the completion on the admin ring for a change software did not request. The manual gives DETAIL and no TAG: the TAG is a
free value (DESIGN CHOICE, log 29). -/
def State.connEvent (s : State) (f h : Nat) : State :=
  let c := s.conn f h
  (s.complete f 0 (s.compl f .ok (BitVec.ofNat 32 s.freeVal) 0x17F 0 (connDetail h c.state c.cid.cause))).bump

/-- What an operation finds when it names a connection (R81, R133, R141). -/
def State.connChecks (s : State) (f h : Nat) : List Status :=
  if (s.conn f h).cid.herd.isSome then [.range] else
  match (s.conn f h).state with
  | .free => [.range]
  | .connecting | .slowpath | .closing => [.state]
  | .lost => [.peerLost]
  | .exhausted => [.exhausted]
  | .established | .rekey => []

/-- Whether a handle is known (R81, R133); software can name no herd connection (R237). -/
def State.known (s : State) (f h : Nat) : Bool := (s.conn f h).state ≠ .free && (s.conn f h).cid.herd.isNone

/-! ### Paths and ports (R159, R160) -/

/-- The connection's ports, ascending. -/
def ConnId.portList (c : ConnId) : List Nat := bitList 8 c.ports

/-- The port a path leaves by (R159). -/
def ConnId.pathPort (c : ConnId) (i : Nat) : Nat := (c.portList.getD (i % max 1 c.portList.length) 0)

def Conn.path (c : Conn) (i : Nat) : Path := agetD c.tx.paths i {}

/-- Included path indices, ascending. -/
def Conn.included (c : Conn) : List Nat := (List.range c.cid.paths).filter fun i => (c.path i).incl

/-- The next included path after i, ascending with wrap-around (R154, R159). -/
def Conn.nextPath (c : Conn) (i : Nat) : Nat :=
  match c.included.find? fun j => i < j with
  | some j => j
  | none => c.included.headD 0

/-- The path whose turn it is: the first included one at or after the pointer (R159). -/
def Conn.turnPath (c : Conn) : Nat :=
  match c.included.find? fun j => c.tx.rr ≤ j with
  | some j => j
  | none => c.included.headD 0

/-! ### Frame sizes and credit costs (R130, R132, R173, R183) -/

/-- Frame bytes from destination address through FCS (R132): 118 with a tag and IPv6, less the tag and 20 for IPv4. -/
def ConnId.frameBytes (c : ConnId) (ext : Ext) (plen : Nat) : Nat :=
  118 + ext.size + plen - (if c.ven then 0 else 4) - (if c.peerIp / 2 ^ 32 = 0xFFFF then 20 else 0)

/-- Credit cost of a sequenced packet (R173). -/
def creditCost (plen : Nat) : Nat := ceilDiv (plen + 64) 256

/-- Cost of a full packet at the connection's PMTU (R173). -/
def ConnId.gmin (c : ConnId) : Nat := creditCost (pmtuBytes c.pmtu)

/-- Sum of the costs charged and not resolved (R173). -/
def ConnTx.outCost (t : ConnTx) : Nat := t.sent.foldl (fun n x => if x.out then n + x.cost else n) 0

/-- Cost of what is left of a message: its own packets where it has a list of them, else pieces of PMTU bytes. -/
def SendMsg.cost (m : SendMsg) (pmtu : Nat) : Nat :=
  let left := m.len - m.off
  if m.pkts ≠ [] then m.pkts.foldl (fun n p => n + creditCost p.1) 0
  else if m.len = 0 then creditCost 0
  else left / pmtu * creditCost pmtu + (if left % pmtu = 0 then 0 else creditCost (left % pmtu))

/-- Cost of everything that waits to be selected (R176 BACKLOG). -/
def ConnTx.backlog (t : ConnTx) (pmtu : Nat) : Nat :=
  t.sendq.foldl (fun n m => n + m.cost pmtu) 0 + t.sent.foldl (fun n x => if x.lost then n + creditCost x.plen else n) 0

/-! ### Derivation units (R43, R412) -/

/-- The oryx block that derives a connection's keys: that of the port of its path 0 (R412). -/
def State.oryxOf (s : State) (f h : Nat) : Nat := (s.conn f h).cid.pathPort 0 / 2

def State.deriving_ (s : State) (n : Nat) : List Deriv := agetD s.sec.derive n []
def State.setDeriving (s : State) (n : Nat) (l : List Deriv) : State := { s with sec := { s.sec with derive := aset s.sec.derive n l } }

/-- An epoch advance asks for its key; once only. -/
def State.deriveEpoch (s : State) (f h : Nat) (rx : Bool) : State :=
  let n := s.oryxOf f h
  if (s.deriving_ n).contains ⟨true, f, h, rx⟩ then s else s.setDeriving n (s.deriving_ n ++ [⟨true, f, h, rx⟩])

/-- A set-up's keys are there at once, unless epoch advances wait at the unit: those go first (R43). -/
def State.deriveSetup (s : State) (f h : Nat) : State :=
  let n := s.oryxOf f h
  if (s.deriving_ n).any (·.epoch) then s.setDeriving n (s.deriving_ n ++ [⟨false, f, h, false⟩]) else s

/-- It is this epoch advance's turn: the first in arrival order. -/
def State.deriveTurn (s : State) (f h : Nat) (rx : Bool) : Bool := ((s.deriving_ (s.oryxOf f h)).find? (·.epoch)) = some ⟨true, f, h, rx⟩

/-- A derivation is made; with no epoch advance left, the set-ups that wait are served. -/
def State.deriveDone (s : State) (f h : Nat) (rx : Bool) : State :=
  let n := s.oryxOf f h
  let l := (s.deriving_ n).filter fun d => d ≠ ⟨true, f, h, rx⟩
  s.setDeriving n (if l.any (·.epoch) then l else [])

/-- The keys of a connection's set-up are still to be derived. -/
def State.keyless (s : State) (f h : Nat) : Bool := (s.deriving_ (s.oryxOf f h)).contains ⟨false, f, h, false⟩

/-- A context that becomes FREE wants no key any more. -/
def State.deriveDrop (s : State) (f h : Nat) : State :=
  let l := s.sec.derive.map fun x => (x.1, x.2.filter fun d => ¬ (d.fn = f ∧ d.conn = h))
  { s with sec := { s.sec with derive := l.map fun x => (x.1, if x.2.any (·.epoch) then x.2 else []) } }

/-! ### Counters and epochs (R157, R418-R422) -/

/-- The sending epoch advances: no counter value is left until the new key is installed and journalled, and an ESTABLISHED connection
stalls in REKEY (R140, R419, R422). -/
def State.rekeyEnter (s : State) (f h : Nat) : State :=
  (s.deriveEpoch f h false).modConn f h fun c => { c with state := if c.state = .established then .rekey else c.state, tx := { c.tx with pctr := max c.tx.pctr (2 ^ 32) } }

/-- DIR of what this end sends: 0 from the LO end, the smaller (DEVID, partition, CONN) (R411). -/
def State.dirOf (s : State) (f h : Nat) : Nat :=
  let c := (s.conn f h).cid
  let me := 2 ^ 32 * (devNum Config.devId.toNat * 256 + partOf f) + 2 ^ 12 * h + c.inc
  let peer := 2 ^ 32 * (devNum c.peerDev * 256 + c.peerPart) + 2 ^ 12 * c.peerConn + c.peerInc
  if me ≤ peer then 0 else 1

/-- Key space spent in the last epoch: EXHAUSTED, the slot SPENT, journalled, reported (R140, R157, R421). -/
def State.exhaust (s : State) (f h : Nat) : State :=
  let c := s.conn f h
  let s := s.modConn f h fun c => { c with state := .exhausted }
  let s := if c.cid.tsel < 8 then s.modPart (partOf f) fun p =>
      { p with slots := amod p.slots c.cid.tsel {} fun x => { x with spent := true } } else s
  let slot := if c.cid.tsel < 8 then c.cid.tsel else 0
  let s := s.jMust (ownerOf f) (jKey 6 (partOf f) slot .ok (2 ^ 12 * h + c.cid.inc) c.tx.kepoch (s.dirOf f h))
  s.connEvent f h

/-- Count an epoch advance (R441). -/
def State.epochCount (s : State) : State := { s with sec := { s.sec with epochAdv := satAdd 0xFFFF s.sec.epochAdv 1 } }

/-- Take the next PCTR for a packet (R418), with what reaching a limit brings (R140, R157, R419). -/
def State.takeCtr (s : State) (f h : Nat) : State :=
  let s := s.modConn f h fun c => { c with tx := { c.tx with pctr := c.tx.pctr + 1 } }
  let c := s.conn f h
  if c.tx.kepoch < 0xFFFF then
    if 2 ^ 32 ≤ c.tx.pctr then s.rekeyEnter f h else s
  else if c.tx.pctr = 2 ^ 32 - 2 ^ 21 ∧ c.state = .established then s.exhaust f h
  else s

/-! ### Keys of packets (R411, R417, R418) -/

/-- The key of one direction of a connection under an epoch (R411): fields of the LO end first. -/
def State.tltKey (s : State) (f h epoch dir : Nat) : BitVec 256 :=
  let c := (s.conn f h).cid
  let me := (partOf f, connWord h c.inc, c.nonce)
  let peer := (c.peerPart, connWord c.peerConn c.peerInc, c.peerNonce)
  let e := if s.dirOf f h = 0 then (me, peer) else (peer, me)
  key256 (kdf (s.pairRoot c.peerDev) (purpose "TLTK")
    [(10, leBytes 1 dir), (11, leBytes 1 e.1.1), (12, leBytes 1 e.2.1), (14, beBytes 2 epoch), (16, devBytes (devLo c.peerDev)),
     (24, devBytes (devHi c.peerDev)), (32, e.1.2.1), (36, e.2.2.1), (40, beBytes 8 e.1.2.2), (48, beBytes 8 e.2.2.2), (56, beBytes 32 (c.tc.getD 0))] 256)

/-- A device entry goes, with its mappings and its pair root (R424); journalled. -/
def State.dropPeer (s : State) (dev : Nat) : State :=
  let c := { s.sec with peers := s.sec.peers.filter (fun x => x.dev ≠ dev), maps := s.sec.maps.filter fun m => m.2 ≠ dev }
  { s with sec := c }.jMust .firmware (jKey 8 0 0 .ok 0 0 0 0 dev)

/-- The next value of the pair counter towards a device (R417, R418): none without a pair root. -/
def State.pairCtr (s : State) (dev : Nat) : Option Nat :=
  if dev = ownDev then some s.sec.selfCtr else (s.sec.peers.find? fun p => p.dev = dev).map (·.txCtr)

/-- The pair counter towards a device is taken: at 2^48 - 1 the entry goes. -/
def State.pairTaken (s : State) (dev : Nat) : State :=
  if dev = ownDev then { s with sec := { s.sec with selfCtr := s.sec.selfCtr + 1 } }
  else
    let spent := s.sec.peers.any fun p => p.dev = dev && decide (2 ^ 48 - 1 ≤ p.txCtr + 1)
    let s := { s with sec := { s.sec with peers := s.sec.peers.map fun x => if x.dev = dev then { x with txCtr := x.txCtr + 1 } else x } }
    if spent then s.dropPeer dev else s

/-- A class-7 packet at its selection (R181): its counter, its key and the NTYPE of its IV. None when its key or its connection is gone. -/
def State.ctlSeal (s : State) (c : CtlPkt) : Option (Pkt × BitVec 256 × Nat) :=
  if c.pkt.ext.setUp then
    (s.pairCtr c.dev).map fun n => ({ c.pkt with kepoch := n / 2 ^ 32 % 2 ^ 16, pctr := n % 2 ^ 32 }, s.pairKey c.dev,
      if devNum ownDev ≤ devNum c.dev then 2 else 3)
  else match c.conn with
    | none => none
    | some (h, inc) =>
      let x := s.conn c.fn h
      if x.cid.inc ≠ inc ∨ (x.state.live = false ∧ x.state ≠ .exhausted) then none
      else
        let dir := s.dirOf c.fn h
        some ({ c.pkt with kepoch := x.tx.kepoch, pctr := x.tx.pctr % 2 ^ 32 }, s.tltKey c.fn h x.tx.kepoch dir, dir)

/-- The counter of a class-7 packet is taken at its selection. -/
def State.ctlTaken (s : State) (c : CtlPkt) : State :=
  if c.pkt.ext.setUp then s.pairTaken c.dev else match c.conn with | some (h, _) => s.takeCtr c.fn h | none => s

/-! ### Unsequenced packets (R152, R161, R165, R169, R188) -/

/-- The ECN mark of what is sent (R159, R167), and PCP and DSCP of a class (R172). -/
def State.ect (s : State) : Bool := s.fld 0x200 18 1 = 1
def State.clsPcp (s : State) (c : Nat) : Nat := s.fld (0x2C00040 + 8 * c) 0 3
def State.clsDscp (s : State) (c : Nat) : Nat := s.fld (0x2C00040 + 8 * c) 8 6

/-- A packet leaves in a class, with that class's marks (R172). -/
def State.inClass (s : State) (c : Nat) (p : Pkt) : Pkt := { p with cls := c, pcp := s.clsPcp c, dscp := s.clsDscp c }

/-- An address entry of a partition (R389). -/
def State.addrEnt (s : State) (p i : Nat) : AddrEntry := agetD (s.part p).addrs i {}

/-- A packet of a connection, before its sequence numbers and its counter. -/
def State.mkPkt (s : State) (f h path : Nat) (ext : Ext) (payload : List Byte) : Pkt :=
  let c := s.conn f h
  s.inClass c.cid.cls
  { peerIp := c.cid.peerIp, srcIp := (s.addrEnt (partOf f) c.cid.laddrIdx).ip, dstPort := c.cid.peerPort, vid := if c.cid.ven then some c.cid.vid else none,
    pcp := 0, dscp := 0, ect := s.ect, part := c.cid.peerPart, dconn := c.cid.peerConn, dinc := c.cid.peerInc, dgen := c.cid.peerGen,
    kepoch := c.tx.kepoch, pctr := c.tx.pctr % 2 ^ 32, psn := 0, wep := false, msn := 0, first := false, last := false, ackreq := false,
    retx := false, cls := c.cid.cls, path := path, srcPort := c.cid.spbase + path, tstamp := s.clk.time % 2 ^ 32, ext := ext,
    payload := payload }

/-- No counter value of the sending key is left (R157, R418, R419). -/
def Conn.noCtr (c : Conn) : Bool := decide (2 ^ 32 ≤ c.tx.pctr)

/-- Put a class-7 packet into the control queue of a port (R169, R185). -/
def State.queueCtl (s : State) (q : Nat) (c : CtlPkt) : State :=
  if s.err.fatal then s else s.modPort q fun x => { x with ctl := x.ctl ++ [{ c with at_ := s.now }] }

/-- Queue a class-7 packet of a connection; its counter is taken at its selection (R181). One that needs a counter value where none is left
is not sent. -/
def State.sendCtl (s : State) (f h path : Nat) (ext : Ext) (ackreq : Bool := false) : State :=
  let c := s.conn f h
  if ext.setUp = false ∧ c.noCtr = true then s else
  s.queueCtl (c.cid.pathPort path) ⟨f, partOf f, some (h, c.cid.inc), path, 0, c.cid.peerDev, s.inClass 7 { s.mkPkt f h path ext [] with ackreq := ackreq }⟩

/-- The fields by which a packet names its receiver's context, where this device was never told them: open values (DESIGN CHOICE, log 143). -/
def State.nameless (s : State) (p : Pkt) : Pkt :=
  let n := s.freeVal
  { p with part := n % 16, dconn := n / 16 % 2 ^ 20, dinc := n / 2 ^ 24 % 2 ^ 12, dgen := n / 2 ^ 36 % 2 ^ 16 }

/-- The grant field the receiver sends (R174): its current values. -/
def ConnRx.grant (r : ConnRx) : Grant := ⟨r.gseq % 2 ^ 16, r.gwin % 2 ^ 24, r.gstop⟩

/-- Runs of received PSNs above RCV_BASE, nearest first, at most four (R152). -/
def sackGo (l : List Nat) (cur : Option (Nat × Nat)) (acc : List (Nat × Nat)) : List (Nat × Nat) :=
  match l with
  | [] => (match cur with | some c => acc ++ [c] | none => acc)
  | p :: t => match cur with
    | some (a, n) => if p = a + n then sackGo t (some (a, n + 1)) acc else sackGo t (some (p, 1)) (acc ++ [(a, n)])
    | none => sackGo t (some (p, 1)) acc

def ConnRx.sacks (r : ConnRx) : List (Nat × Nat) :=
  ((sackGo (ascending r.got) none []).take 4).map fun x => (x.1 % 2 ^ 32, x.2)

/-- R179: a grant sent in an interval in which a buffer has been full, by whose port the sender's packets arrive, has STOP set. -/
def State.stopGrant (s : State) (f h : Nat) : State :=
  let r := (s.conn f h).rx
  if s.sched.full &&& r.ports ≠ 0 ∧ r.gstop = false then
    s.modConn f h fun c => { c with rx := { c.rx with gstop := true, gseq := (c.rx.gseq + 1) % 2 ^ 16, changeAt := some (c.rx.changeAt.getD s.now) } }
  else s

/-- R152: send an ACK on the path of the packet that triggered it; it waits while the sending key has no counter value left. -/
def State.sendAck (s : State) (f h path echoTs : Nat) : State :=
  if (s.conn f h).noCtr then s else
  let s := s.stopGrant f h
  let r := (s.conn f h).rx
  let x : AckExt := { cum := r.base % 2 ^ 32, sacks := r.sacks, echoTs := echoTs, echoPath := path,
                      cemap := BitVec.ofNat 64 r.cemap, grant := r.grant }
  let s := s.sendCtl f h path (.ack x)
  s.modConn f h fun c => { c with rx := { c.rx with sinceAck := 0, firstAt := none, cemap := 0, sentWin := c.rx.gwin,
                                                    sentStop := c.rx.gstop, changeAt := none } }

/-- R176: send a CREDIT with the current grant. -/
def State.sendCredit (s : State) (f h : Nat) : State :=
  if (s.conn f h).noCtr then s else
  let s := s.stopGrant f h
  let c := s.conn f h
  let s := s.sendCtl f h c.turnPath (.credit c.rx.grant 0 false)
  s.modConn f h fun c => { c with rx := { c.rx with sentWin := c.rx.gwin, sentStop := c.rx.gstop, changeAt := none } }

/-- Give a new grant value (R174-R177): GSEQ advances when a value changes; a CREDIT goes at once when GWIN changes by an eighth or
STOP changes, and waits at most 8 µs otherwise (R176). -/
def State.setGrant (s : State) (f h win : Nat) (stop : Bool) : State :=
  let r := (s.conn f h).rx
  if r.gwin = win ∧ r.gstop = stop then s else
    let s := s.modConn f h fun c => { c with rx := { c.rx with gwin := win, gstop := stop, gseq := (c.rx.gseq + 1) % 2 ^ 16,
                                                               changeAt := some (c.rx.changeAt.getD s.now) } }
    if r.sentStop ≠ stop ∨ r.sentWin ≤ 8 * (max win r.sentWin - min win r.sentWin) then s.sendCredit f h else s

/-! ### Messages -/

/-- Queue a message on a connection: it takes the next MSN (R83, R142). -/
def State.queueMsg (s : State) (f h : Nat) (ext : Ext) (len : Nat) (src : Src) (for_ : MsgFor) : State :=
  s.modConn f h fun c =>
    { c with tx := { c.tx with msn := (c.tx.msn + 1) % 2 ^ 32,
                               sendq := c.tx.sendq ++ [{ msn := c.tx.msn, ext := ext, len := len, src := src, for_ := for_ }] },
             tm := if c.tx.sent = [] ∧ c.tx.sendq = [] then { c.tm with progress := s.now } else c.tm }

/-- The MSN the next message takes. -/
def State.nextMsn (s : State) (f h : Nat) : Nat := (s.conn f h).tx.msn

/-- R151: a refusal NAK in the receiver's own sequence space; a connection that is gone carries none. -/
def State.sendNak (s : State) (f h msn : Nat) (st : Status) (detail : Nat) : State :=
  if (s.conn f h).state.live ∨ (s.conn f h).state = .exhausted then s.queueMsg f h (.nak msn st false detail) 0 .none .nak else s

/-- Whether a message belongs to an operation. -/
def MsgFor.isOp (m : MsgFor) (id : Nat) : Bool := m = .op id || m = .feed id

/-- R155: an operation's message ends for poison (or a refused granule): its packets not yet sent are dropped, those that wait to be
sent again become abandon notices under their PSN (what they have cost stays charged until they are resolved, R173), and a first transmission
that halts is followed by one notice; `numbered` tells that the poison was met for a packet that has its PSN already, so no notice
takes a new one. -/
def State.abandonMsg (s : State) (f h msn : Nat) (st : Status) (numbered : Bool) : State :=
  let c := s.conn f h
  let notice := Ext.nak msn st true 0
  let begun := ! numbered && c.tx.sendq.any fun m => m.msn = msn ∧ m.begun
  s.modConn f h fun c =>
    let sent := c.tx.sent.map fun x => if x.msn = msn then { x with ext := notice, src := .none, plen := 0, for_ := .nak } else x
    let q := c.tx.sendq.filter fun m => m.msn ≠ msn
    let q := if begun then { msn := msn, ext := notice, len := 0, src := .none, for_ := .nak : SendMsg } :: q else q
    { c with tx := { c.tx with sent := sent, sendq := q } }

/-! ### Windows' placement counts (R87, R98) -/

def State.win (s : State) (f i : Nat) : Win := agetD (s.fn f).wins i {}
def State.modWin (s : State) (f i : Nat) (g : Win → Win) : State := s.modFn f fun x => { x with wins := amod x.wins i {} g }

/-- A window becomes CLOSED: it joins the order of closings (R96), and its pending WIN_REVOKE ends OK with the refused count (R98). -/
def State.winClose (s : State) (f i : Nat) : State :=
  let w := s.win f i
  let s := s.modFn f fun x => { x with closeSeq := x.closeSeq + 1, wins := amod x.wins i {} fun w =>
    { w with state := .closed, closedSeq := x.closeSeq + 1, revoke := none } }
  match w.revoke with
  | some id => s.endOp f id .ok 0 w.refused
  | none => s

/-- An admitted message finishes: the placement count drops, and a CLOSING window closes at 0 (R87, R98). -/
def State.placeDone (s : State) (f i : Nat) : State :=
  let s := s.modWin f i fun w => { w with places := w.places - 1 }
  if (s.win f i).state = .closing ∧ (s.win f i).places = 0 then s.winClose f i else s

/-- The window index an inbound message was admitted to, if it holds a placement (R86, R87). -/
def InMsg.window (m : InMsg) : Option Nat :=
  if m.held then
    match m.ext with
    | .data w .. => some (w % 2 ^ 18)
    | .readReq w .. => some (w % 2 ^ 18)
    | .atomicReq w .. => some (w % 2 ^ 18)
    | _ => none
  else none

/-- A read that was served has left its window: the last response packet is acknowledged, or the response has failed (R87, R154). -/
def State.serveDone (s : State) (f h w req : Nat) : State :=
  (s.modConn f h fun c => { c with rx := { c.rx with msgs := c.rx.msgs.filter fun x => x.msn ≠ req } }).placeDone f w

/-- R89, R165: abandon an inbound message: bytes placed stay, the placement count drops, nothing results from it. -/
def State.abandonIn (s : State) (f h : Nat) (m : InMsg) : State :=
  let s := s.modConn f h fun c => { c with rx := { c.rx with msgs := c.rx.msgs.map fun x =>
    if x.msn = m.msn then { x with aband := true, held := false, park := none, npk := 0 } else x } }
  match m.window with
  | some w => s.placeDone f w
  | none => s

/-- Abandon every inbound message that has not passed the watermark (R89, R165). -/
def State.abandonAll (s : State) (f h : Nat) : State :=
  ((s.conn f h).rx.msgs.filter fun m => ¬ m.aband ∧ (¬ m.passed ∨ m.held)).foldl (fun s m => s.abandonIn f h m) s

/-! ### Sends and receives of program copies (R293, R295, R300) -/

def State.launch (s : State) (f l : Nat) : Launch := agetD (s.fn f).launches l {}
def State.modLaunch (s : State) (f l : Nat) (g : Launch → Launch) : State :=
  s.modFn f fun x => { x with launches := amod x.launches l {} g }
def State.copy (s : State) (f l c : Nat) : Copy := agetD (s.launch f l).copies c {}
def State.modCopy (s : State) (f l c : Nat) (g : Copy → Copy) : State :=
  s.modLaunch f l fun x => { x with copies := amod x.copies c {} g }

/-- Change an asynchronous operation of a copy. -/
def State.modAsync (s : State) (f l c id : Nat) (g : Async → Async) : State :=
  s.modCopy f l c fun x => { x with ops := x.ops.map fun a => if a.id = id then g a else a }

/-- The outcome of a program's operation is known; ASYNC_OP_END acts on it. A BUSY refusal of a SEND waits for its hint (R295). -/
def State.progStatus (s : State) (f l c id : Nat) (st : Status) (hint : Nat) : State :=
  s.modAsync f l c id fun a =>
    if a.op = 0x30 ∧ st = .busy then { a with status := some .busy, retry := some (s.now + 1000 * hint) } else { a with status := some st }

/-- Every program SEND of a connection that has no outcome yet ends PEER_LOST, or otherwise where its message was never sent. -/
def State.progConnEnd (s : State) (f h : Nat) (unsent : Status) : State :=
  let st := fun (a : Async) =>
    if (s.conn f h).tx.sendq.any (fun m => some m.msn = a.msn ∧ ¬ m.begun) then unsent else Status.peerLost
  s.modFn f fun x => { x with launches := x.launches.map fun l => (l.1, { l.2 with copies := l.2.copies.map fun c =>
    (c.1, { c.2 with ops := c.2.ops.map fun a =>
      if a.conn = some h ∧ (a.status.isNone ∨ a.status = some .busy) then { a with status := some (st a), retry := none } else a }) }) }

/-- The program SEND whose message has an MSN on a connection: launch, copy, operation. -/
def State.progSend? (s : State) (f h msn : Nat) : Option (Nat × Nat × Async) :=
  (s.fn f).launches.findSome? fun l => l.2.copies.findSome? fun c =>
    (c.2.ops.find? fun a => a.conn = some h ∧ a.msn = some msn).map fun a => (l.1, c.1, a)

/-! ### The ends of a connection (R140) -/

/-- Initiator operations of a connection. -/
def State.connOps (s : State) (f h : Nat) : List Op := (s.fn f).ops.filter fun o => o.conn = some h

/-- End every initiator operation; those whose message has not been sent end otherwise if the cause says so (R140). A feed counts its admitted
blocks (R282). -/
def State.endConnOps (s : State) (f h : Nat) (unsent : Status) : State :=
  (s.connOps f h).foldl (fun (s : State) (o : Op) =>
    let begun := (s.conn f h).tx.sent.any (fun x => x.for_.isOp o.id) || (s.conn f h).tx.sendq.any (fun m => m.for_.isOp o.id && m.begun)
      || ¬ (s.conn f h).tx.sendq.any (fun m => m.for_.isOp o.id)
    let (n, d) := match aget (s.fn f).feeds o.id with | some y => (y.bytes, y.blocks) | none => (o.placed, 0)
    s.endOp f o.id (if begun then .peerLost else unsent) n d) (s.progConnEnd f h unsent)

/-- Receives that wait for rendezvous data of a connection end with it (DEDUCED, log 35). -/
def State.endRdv (s : State) (f h : Nat) (st : Status) : State :=
  let l := (s.conn f h).rx.msgs.filterMap fun m => m.posted
  let s := s.modConn f h fun c => { c with rx := { c.rx with msgs := c.rx.msgs.filter fun m => m.posted.isNone } }
  l.foldl (fun s p => match p.to_ with
    | .op id _ _ => (s.modFn f fun x => { x with armed := x.armed.filter fun a => a.op ≠ id }).endOp f id st 0 0
    | .prog la co op => s.progStatus f la co op st 0) s

/-- End every pending CONN_CLOSE. -/
def State.endCloses (s : State) (f h : Nat) (st : Status) : State :=
  let l := (s.conn f h).closes
  let s := s.modConn f h fun c => { c with closes := [] }
  l.foldl (fun s id => s.endOp f id st 0 0) s

/-- The context becomes FREE: keys and queues are gone, the incarnation stays, and the handle joins the order of freeing (R133, R412).
A stop that named the connection no longer holds it. -/
def State.freeConn (s : State) (f h : Nat) : State :=
  (s.deriveDrop f h).modFn f fun x =>
    { x with freeSeq := x.freeSeq + 1,
             conns := amod x.conns h {} fun c => { ({} : Conn) with freedSeq := x.freeSeq + 1, cid := { inc := c.cid.inc } },
             stops := { x.stops with conns := x.stops.conns.filter fun y => y ≠ h } }

/-- Declare a connection LOST (R140): CAUSE, operations PEER_LOST, inbound messages abandoned, closes PEER_LOST, CONN_EVENT. -/
def State.loseConn (s : State) (f h cause : Nat) : State :=
  let s := s.abandonAll f h
  let s := s.modConn f h fun c => { c with state := .lost, cid := { c.cid with cause := cause } }
  let s := (s.endConnOps f h .peerLost).endRdv f h .peerLost
  let s := s.endCloses f h .peerLost
  let s := s.modConn f h fun c => { c with tx := { c.tx with sendq := [], sent := [] }, rx := { c.rx with msgs := [], got := [] } }
  s.connEvent f h

/-- A connection not yet established fails (R140): an initiator's CONN_CONNECT ends with the status, a listener side frees silently. -/
def State.failConn (s : State) (f h : Nat) (st : Status) (hint : Nat) : State :=
  let c := s.conn f h
  let s := s.freeConn f h
  match c.cid.op with
  | some id => s.endOp f id st 0 hint
  | none => s

/-- The ABORT packet of a connection on a path. An initiator that has no answer yet does not know its peer's context. -/
def State.abortPkt (s : State) (f h path cause : Nat) : CtlPkt :=
  let c := s.conn f h
  let p := s.inClass 7 (s.mkPkt f h path (.abort cause h c.cid.inc) [])
  ⟨f, partOf f, some (h, c.cid.inc), path, 0, c.cid.peerDev, if c.cid.init ∧ (c.state = .connecting ∨ c.state = .slowpath) then s.nameless p else p⟩

/-- R140, R165: the ABORT packets of a connection: one now, the others of `times` later, 100 µs apart, on other included paths. -/
def State.sendAborts (s : State) (f h cause : Nat) (times : Nat) : State :=
  let c := s.conn f h
  let inc := c.included
  let one := fun (i : Nat) => let path := inc.getD (i % max 1 inc.length) 0; (c.cid.pathPort path, s.abortPkt f h path cause)
  let s := (s.queueCtl (one 0).1 (one 0).2).bump
  if times ≤ 1 then s else
    s.modFn f fun x => { x with aborts := x.aborts ++ [{ handle := h, at_ := s.now, left := (List.range (times - 1)).map fun i => one (i + 1) }] }

/-! ### Gate windows (R190-R192) -/

/-- Cycle length of a gate list. -/
def cycleNs (l : List Gate) : Nat := l.foldl (fun n g => n + g.dur) 0

/-- Lengths of the open windows of a class, over two rounds of the list so that a run across the boundary counts whole. -/
def runsGo (l : List Gate) (c cur best : Nat) : Nat :=
  match l with
  | [] => max best cur
  | g :: t => if g.mask.testBit c then runsGo t c (cur + g.dur) best else runsGo t c 0 (max best cur)

/-- The longest open window of a class in a list; none when it is unbounded (R190). -/
def longestWindow (l : List Gate) (c : Nat) : Option Nat :=
  if l.all fun g => g.mask.testBit c then none else some (runsGo (l ++ l) c 0 0)

/-- Whether a transmission of b bytes at r Mb/s fits a window of w ns (R190). -/
def fits (b r w : Nat) : Bool := decide ((b + 20) * 8 * 1000 ≤ w * r)

/-- The rate of a breakout port in Mb/s (R496): 200 Gb/s a lane in use. -/
def State.bp (s : State) (q k : Nat) : Bp := agetD (s.port q).bps k {}
def State.modBp (s : State) (q k : Nat) (g : Bp → Bp) : State :=
  s.modPort q fun x => { x with bps := amod x.bps k {} g }
def State.portRate (s : State) (q k : Nat) : Nat := 200000 * max 1 (s.bp q k).lanes

/-- A frame that is discarded without a counter of its own. -/
def State.dropFrame (s : State) (q k : Nat) : State := s.modBp q k fun b => { b with dropped := b.dropped + 1 }

/-- R128: the payload is as long as PLEN tells, or the datagram is discarded and counted. -/
def State.sized (s : State) (rx : Rx) (n : Nat) (k : State → State) : State := if rx.plen = n then k s else s.dropFrame rx.port.val rx.bp

/-- How many breakout ports a port has (R495). -/
def Port.bpCount (x : Port) : Nat := if x.mode = 1 then 2 else if x.mode = 2 then 4 else 1

/-- Breakout ports of a port by which paths leave: those that are UP and not DEGRADED, else those that are UP, else all (R497). -/
def State.usable (s : State) (q : Nat) : List Nat :=
  let all := List.range (s.port q).bpCount
  let fine := all.filter fun k => (s.bp q k).up && ! (s.bp q k).degraded
  let up := all.filter fun k => (s.bp q k).up
  if fine ≠ [] then fine else if up ≠ [] then up else all

/-- R191: a frame fits the longest window of the class in the running and in any pending list of a port. -/
def State.fitsPort (s : State) (q cls bytes : Nat) : Bool :=
  let one := fun (l : List Gate) => match longestWindow l cls with
    | none => true
    | some w => (s.usable q).all fun k => fits bytes (s.portRate q k) w
  let x := s.port q
  (¬ x.running || one x.gates) && (match x.pend with | some p => p.list = [] || one p.list | none => true)

/-- R191: TOO_LONG when the largest frame fits no window on some port of the connection. -/
def State.gateChecks (s : State) (f h : Nat) (ext : Ext) (plen : Nat) : List Status :=
  let c := s.conn f h
  ck (¬ c.cid.portList.all fun q => s.fitsPort q c.cid.cls (c.cid.frameBytes ext plen)) .tooLong

end Sys2Proof.Machine
end

