-- ==== Sys2Proof/Machine/Remote.lean ====
section
/-!
DEFINITION. Remote.lean: one-sided operations, tagged sends and receives, windows, tallies and armed requests: the commands, and what
a message does at the target once it has passed the visibility watermark (R79-R126, R149).
-/

namespace Sys2Proof.Machine

/-! ### One-sided operations and TSEND at the initiator (R80-R84) -/

/-- Static checks of an initiating operation (R81, R82, R141): length, connection, LTALLY, local address, gate windows (R191). -/
def State.opChecks (s : State) (f : Nat) (b : OneSided) (atomic : Bool) (ext : Ext) (plen : Nat) : List Status :=
  ck (if atomic then b.len ≠ 8 else 2 ^ 30 < b.len) .range ++
  ck (b.ltEn ∧ ¬ s.tallyOk f b.ltally) .range ++
  s.connChecks f b.conn ++
  (if b.len = 0 then [] else s.locCheck f b.lspace b.laddr b.len) ++
  s.gateChecks f b.conn ext plen

/-- An operation takes its LTALLY when LT_EN is set (R80, R118). -/
def ltOf (en : Bool) (t : Nat) : Option Nat := if en then some t else none

/-- Send an initiating operation's message: the operation waits on the connection for its end (R84). -/
def State.initiate (s : State) (f id : Nat) (b : OneSided) (ext : Ext) (len : Nat) (src : Src) : State :=
  let msn := s.nextMsn f b.conn
  (s.modOp f id fun o => { o with conn := some b.conn, msn := some msn, ltally := ltOf b.ltEn b.ltally, need := b.len }).queueMsg
    f b.conn ext len src (.op id)

/-- Bytes of the first packet's payload. -/
def State.firstPlen (s : State) (f h len : Nat) : Nat := min len (pmtuBytes (s.conn f h).cid.pmtu)

/-- R81: a host LADDR is translated before anything is sent; a denied translation ends the operation PROT. What is translated here is the
granule in which the channel of LADDR starts, for an atomic every granule of it; the later ones are met as the channel comes to them (R343,
R344; DEDUCED, log 146). -/
def locGranules (b : OneSided) (wr : Bool) : List (Nat × Nat × Bool) :=
  if b.lspace ∨ b.len = 0 then [] else [(b.laddr, if b.len = 8 then 8 else 1, wr)]

/-- Go on once LADDR is translated. -/
def State.locReady (s : State) (f id : Nat) (b : OneSided) (wr : Bool) (k : State → State) : State := s.withHost f id (locGranules b wr) k

def effWrite (b : OneSided) (notify : Bool) (imm : BitVec 32) (f id : Nat) (s : State) : State :=
  let ext := Ext.data b.wref b.roff b.len imm notify
  s.checked f id (s.opChecks f b false ext (s.firstPlen f b.conn b.len)) fun s => s.locReady f id b false fun s =>
    s.initiate f id b ext b.len (.mem b.lspace b.laddr)

/-- R84: WRITE. -/
def execWrite (e : Entry) (b : OneSided) (s : State) : Host.Outcome State Fault Refusal :=
  .next (s.startEntry e 0x040 len1 (.write e b) (effWrite b false 0 e.fn.idx))

/-- R90: WRITE_NOTIFY. -/
def execWriteNotify (e : Entry) (b : OneSided) (imm : BitVec 32) (s : State) : Host.Outcome State Fault Refusal :=
  .next (s.startEntry e 0x042 len1 (.writeNotify e b imm) (effWrite b true imm e.fn.idx))

def effRead (b : OneSided) (f id : Nat) (s : State) : State :=
  let ext := Ext.readReq b.wref b.roff b.len
  s.checked f id (s.opChecks f b false ext 0) fun s => s.locReady f id b true fun s => s.initiate f id b ext 0 .none

/-- R84: READ. -/
def execRead (e : Entry) (b : OneSided) (s : State) : Host.Outcome State Fault Refusal :=
  .next (s.startEntry e 0x041 len1 (.read e b) (effRead b e.fn.idx))

def effAtomic (op : Nat) (b : OneSided) (f id : Nat) (s : State) : State :=
  let ext := Ext.atomicReq b.wref b.roff op b.opnd1 b.opnd2
  s.checked f id (s.opChecks f b true ext 0) fun s => s.locReady f id b true fun s => s.initiate f id b ext 0 .none

/-- R92: the six atomics; OP is the low byte of the opcode (R131). -/
def execAtFadd (e : Entry) (b : OneSided) (s : State) : Host.Outcome State Fault Refusal :=
  .next (s.startEntry e 0x048 len1 (.atFadd e b) (effAtomic 0x48 b e.fn.idx))
def execAtFand (e : Entry) (b : OneSided) (s : State) : Host.Outcome State Fault Refusal :=
  .next (s.startEntry e 0x049 len1 (.atFand e b) (effAtomic 0x49 b e.fn.idx))
def execAtFor (e : Entry) (b : OneSided) (s : State) : Host.Outcome State Fault Refusal :=
  .next (s.startEntry e 0x04A len1 (.atFor e b) (effAtomic 0x4A b e.fn.idx))
def execAtFxor (e : Entry) (b : OneSided) (s : State) : Host.Outcome State Fault Refusal :=
  .next (s.startEntry e 0x04B len1 (.atFxor e b) (effAtomic 0x4B b e.fn.idx))
def execAtSwap (e : Entry) (b : OneSided) (s : State) : Host.Outcome State Fault Refusal :=
  .next (s.startEntry e 0x04C len1 (.atSwap e b) (effAtomic 0x4C b e.fn.idx))
def execAtCas (e : Entry) (b : OneSided) (s : State) : Host.Outcome State Fault Refusal :=
  .next (s.startEntry e 0x04D len1 (.atCas e b) (effAtomic 0x4D b e.fn.idx))

/-- The new value of an atomic, or none where it writes nothing (R92). -/
def atomicNew (op : Nat) (old opnd1 opnd2 : Word) : Option Word :=
  if op = 0x48 then some (old + opnd1)
  else if op = 0x49 then some (old &&& opnd1)
  else if op = 0x4A then some (old ||| opnd1)
  else if op = 0x4B then some (old ^^^ opnd1)
  else if op = 0x4C then some opnd1
  else if old = opnd1 then some opnd2 else none

/-- R103: a message of more than 8,192 bytes is rendezvous, and only its header travels; its data follows in RDV_RESP packets, whose frames must
fit a window too (R191). -/
def effTsend (b : OneSided) (f id : Nat) (s : State) : State :=
  let rdv := decide (8192 < b.len)
  let ext := Ext.tsend (b.wref % 4096) rdv (BitVec.ofNat 64 b.roff) b.len 0
  let plen := if rdv then 0 else s.firstPlen f b.conn b.len
  let data := if rdv then s.gateChecks f b.conn (.rdvResp 0 0) (s.firstPlen f b.conn b.len) else []
  s.checked f id (s.opChecks f b false ext plen ++ ck (4096 ≤ b.wref) .range ++ data) fun s => s.locReady f id b false fun s =>
    s.initiate f id b ext (if rdv then 0 else b.len) (if rdv then .none else .mem b.lspace b.laddr)

/-- R111: TSEND. -/
def execTsend (e : Entry) (b : OneSided) (s : State) : Host.Outcome State Fault Refusal :=
  .next (s.startEntry e 0x050 len1 (.tsend e b) (effTsend b e.fn.idx))

/-! ### Windows (R95-R98) -/

/-- The smallest number not among ascending keys. -/
def firstGap (l : List Nat) (n : Nat) : Nat :=
  match l with
  | [] => n
  | k :: t => if k = n then firstGap t (n + 1) else n

/-- R96: the CLOSED index closed longest below the quota: the lowest never opened, else the earliest closed, lowest first. -/
def State.pickWindow (s : State) (f : Nat) : Option Nat :=
  let x := s.fn f
  let fresh := firstGap (x.wins.map (·.1)) 0
  if fresh < s.qWins f then some fresh else
    let closed := x.wins.filter fun w => w.2.state = .closed ∧ w.1 < s.qWins f
    (closed.foldl (fun (best : Option (Nat × Win)) w => match best with
      | none => some w
      | some b => if w.2.closedSeq < b.2.closedSeq then some w else some b) none).map (·.1)

/-- R96: INDEX in bits 17:0, INCARN in bits 31:18. -/
def winRef (index incarn : Nat) : Nat := index % 2 ^ 18 + incarn % 2 ^ 14 * 2 ^ 18

/-- Checks of WIN_OPEN (R95, R97). -/
def State.winChecks (s : State) (f : Nat) (b : WinOpenBody) : List Status :=
  let nr := (s.ring f b.nring).state
  ck (b.length = 0 ∨ 2 ^ 40 < b.length) .range ++
  (if b.space ∧ s.sliceLen f < b.base + b.length then [.range] else []) ++
  ck (b.notify ∧ (nr = .free ∨ nr = .draining ∨ s.qRings f ≤ b.nring)) .range ++
  ck (b.oneConn ∧ ¬ s.known f b.scope) .range ++
  ck (b.btEn ∧ ¬ s.tallyOk f b.btally) .range ++
  ck ((s.pickWindow f).isNone) .range

def effWinOpen (b : WinOpenBody) (f id : Nat) (s : State) : State :=
  s.checked f id (s.winChecks f b) fun s =>
    match s.pickWindow f with
    | none => s.endOp f id .range 0 0
    | some i =>
      let inc := ((s.win f i).incarn + 1) % 2 ^ 14
      let w : Win := { state := .open_, incarn := inc, base := b.base, length := b.length, rd := b.rd, wr := b.wr, atom := b.atom,
                       notify := b.notify, slice := b.space, nring := b.nring, scope := if b.oneConn then some b.scope else none,
                       btally := if b.btEn then some b.btally else none }
      (s.modWin f i fun _ => w).endOp f id .ok 0 (winRef i inc)

/-- R95: WIN_OPEN. -/
def execWinOpen (e : Entry) (b : WinOpenBody) (s : State) : Host.Outcome State Fault Refusal :=
  .next (s.startEntry e 0x060 len1 (.winOpen e b) (effWinOpen b e.fn.idx))

/-- R98: WIN_REVOKE closes a window with no message in placement at once, and otherwise waits in CLOSING. -/
def effWinRevoke (wref : Nat) (f id : Nat) (s : State) : State :=
  let i := wref % 2 ^ 18
  let w := s.win f i
  s.checked f id (ck (w.state ≠ .open_ ∨ w.incarn ≠ wref / 2 ^ 18) .state) fun s =>
    if w.places = 0 then (s.winClose f i).endOp f id .ok 0 0
    else s.modWin f i fun w => { w with state := .closing, refused := 0, revoke := some id }

def execWinRevoke (e : Entry) (wref : Nat) (s : State) : Host.Outcome State Fault Refusal :=
  .next (s.startEntry e 0x061 len1 (.winRevoke e wref) (effWinRevoke wref e.fn.idx))

/-! ### Tagged receives (R102-R114) -/

def State.mlist? (s : State) (f l : Nat) : Option MList := aget (s.fn f).mlists l
def State.modMlist (s : State) (f l : Nat) (g : MList → MList) : State :=
  match s.mlist? f l with
  | some m => s.modFn f fun x => { x with mlists := aset x.mlists l (g m) }
  | none => s

/-- Posted-receive entries in use (R102, R114): posted receives and unexpected-queue entries. -/
def State.precvUsed (s : State) (f : Nat) : Nat :=
  (s.fn f).mlists.foldl (fun n m => n + m.2.uq + m.2.posted.length) 0

/-- Eager space in use (R102). -/
def State.eagerUsed (s : State) (f : Nat) : Nat := (s.fn f).mlists.foldl (fun n m => n + 8192 * m.2.uq) 0

/-- R105: a message with a tag from a connection matches a posted receive. -/
def Posted.matches (p : Posted) (conn : Nat) (tag : Word) : Bool :=
  (((tag ^^^ p.tag) &&& ~~~ p.ignore) == 0) && (match p.src with | none => true | some c => c = conn)

/-- The 16-byte receive record (R110). -/
def recvRecord (tag : Word) (conn : Nat) : List Byte := leBytes 8 tag.toNat ++ leBytes 4 (conn % 2 ^ 20) ++ leBytes 4 0

/-- Remove the first element that a test takes. -/
def dropFirst {α : Type} (l : List α) (p : α → Bool) : List α :=
  match l with
  | [] => []
  | x :: t => if p x then t else x :: dropFirst t p

/-- Deliver a message whose data is in the receive buffer (R110, R122): the receive record first, then a TRECV's completion, an armed
request's firing, or a program's end of RECV. -/
def State.delivered (s : State) (f : Nat) (p : Posted) (conn : Nat) (tag : Word) (placed full : Nat) : State :=
  match p.to_ with
  | .op id info armed =>
    if armed then
      s.fire f ((s.fn f).armed.filter fun a => a.op = id)
    else
      let s := if info = 0 then s else s.hostWrite f info (recvRecord tag conn)
      s.endOp f id .ok placed full
  | .prog la co op => s.modFn f fun x => { x with progRx := x.progRx ++ [(la, co, op, full, [])] }

/-- Put the bytes of an eager message into a matched receive's buffer and deliver it (R109); a program's data goes with the note. -/
def State.deliverEager (s : State) (f : Nat) (p : Posted) (u : Unexp) : State :=
  let n := min u.len p.len
  match p.to_ with
  | .prog la co op => s.modFn f fun x => { x with progRx := x.progRx ++ [(la, co, op, u.len, u.data)] }
  | .op _ _ _ => (s.locWrite f p.slice p.laddr (u.data.take n)).delivered f p u.conn u.tag n u.len

/-- Key of the entry that waits for rendezvous data, by the MSN of this end's RDV_REQ: outside the peer's message numbers. -/
def rdvKey (rq : Nat) : Nat := 2 ^ 32 + rq

/-- A rendezvous message has matched: the target asks for its data up to the buffer's end (R103, R109). The message's entry among the
connection's inbound messages holds the receive until the data has come. A connection that is gone ends the receive (DEDUCED, log 35). -/
def State.startRdv (s : State) (f : Nat) (p : Posted) (u : Unexp) : State :=
  let n := min u.len p.len
  let key := rdvKey (s.nextMsn f u.conn)
  if ! (s.conn f u.conn).state.live then
    match p.to_ with
    | .op id _ _ => (s.modFn f fun x => { x with armed := x.armed.filter fun a => a.op ≠ id }).endOp f id .peerLost 0 0
    | .prog la co op => s.progStatus f la co op .peerLost 0
  else
  let s := s.queueMsg f u.conn (.rdvReq u.msn 0 n) 0 .none .nak
  if n = 0 then s.delivered f p u.conn u.tag 0 u.len
  else s.modConn f u.conn fun c =>
    { c with rx := { c.rx with msgs := c.rx.msgs ++ [{ msn := key, ext := .tsend 0 true u.tag u.len 0, first := 0, npk := 0,
                                                       passed := true, posted := some p }] } }

/-- Deliver a matched message of either kind. -/
def State.deliver (s : State) (f : Nat) (p : Posted) (u : Unexp) : State :=
  if u.rdv then s.startRdv f p u else s.deliverEager f p u

/-- Host ranges that delivering a message writes: the buffer and the receive record (R343). -/
def Posted.ranges (p : Posted) (u : Unexp) : List (Nat × Nat × Bool) :=
  (if p.slice ∨ u.rdv then [] else [(p.laddr, min u.len p.len, true)]) ++
  (match p.to_ with | .op _ info _ => (if info = 0 then [] else [(info, 16, true)]) | _ => [])

/-- A list number under which the matched messages of a destroyed list wait for their pages (R113). -/
def goneList (l : Nat) : Nat := l + 4096

/-- The message bound to a receive whose copy out of eager space is parked, with the list that holds it. -/
def State.boundAt (s : State) (f l id : Nat) : Option (Nat × Unexp) :=
  [l, goneList l].findSome? fun k => ((s.mlist? f k).bind fun m => aget m.bound id).map fun u => (k, u)

/-- A receive takes the message matched to it; a copy whose page is missing parks with the message bound to it (R343). -/
def State.takeMsg (s : State) (f k id : Nat) (p : Posted) (u : Unexp) : State :=
  match (p.ranges u).findSome? (fun (a, n, w) => (s.missing f a n w)) with
  | some pg => (s.modMlist f k fun m => { m with bound := aset m.bound id u }).parkOp f id pg true
  | none => (s.modMlist f k fun m => { m with bound := adel m.bound id }).deliver f p u

/-- A new posted receive meets its list (R106): the oldest unexpected message that matches is its own, else it is appended. A receive
that is already matched goes on with its message. -/
def State.postRecv (s : State) (f l id : Nat) (p : Posted) : State :=
  match s.boundAt f l id with
  | some (k, u) => s.takeMsg f k id p u
  | none =>
    match s.mlist? f l with
    | none => s
    | some m =>
      match m.unexp.find? fun (u : Unexp) => p.matches u.conn u.tag with
      | none => s.modMlist f l fun m => { m with posted := m.posted ++ [p] }
      | some u => (s.modMlist f l fun m => { m with unexp := dropFirst m.unexp (fun x => x = u) }).takeMsg f l id p u

/-- The posted receive of a TRECV body. -/
def recvPosted (b : TrecvBody) (to_ : RecvTo) (ctag : BitVec 32) : Posted :=
  { to_ := to_, ctag := ctag, src := if b.any then none else some b.src, laddr := b.laddr, len := b.len, slice := b.lspace,
    tag := b.tag, ignore := b.ignore }

/-- Checks of a receive: its list exists, its length and buffer (R81, R104), and the posted-receive share (R114). R104 gives no status for a
list that does not exist: RANGE, as R121 gives for ARM; and it gives no check of SRC, so a handle that names no connection is taken and
matches none (DESIGN CHOICE, log 147). -/
def State.recvChecks (s : State) (f : Nat) (b : TrecvBody) : List Status :=
  ck ((s.mlist? f b.list).isNone ∨ 2 ^ 30 < b.len) .range ++
  (if b.len = 0 then [] else s.locCheck f b.lspace b.laddr b.len)

/-- R106, R110: TRECV. -/
def effTrecv (e : Entry) (b : TrecvBody) (f id : Nat) (s : State) : State :=
  let again := (s.boundAt f b.list id).isSome
  s.checked f id (if again then [] else s.recvChecks f b ++ ck (s.qPrecv f ≤ s.precvUsed f) .busy) fun s =>
    s.postRecv f b.list id (recvPosted b (.op id b.info false) e.tag)

def execTrecv (e : Entry) (b : TrecvBody) (s : State) : Host.Outcome State Fault Refusal :=
  .next (s.startEntry e 0x051 len1 (.trecv e b) (effTrecv e b e.fn.idx))

/-- R112: TRECV_CANCEL ends every unmatched TRECV of the list with the caller tag, DETAIL their number. A list that does not exist, for which
the rule gives no status, ends it RANGE (DESIGN CHOICE, log 147). -/
def effTrecvCancel (list : Nat) (tag : BitVec 32) (f id : Nat) (s : State) : State :=
  s.checked f id (ck ((s.mlist? f list).isNone) .range) fun s =>
    let m := (s.mlist? f list).getD { uq := 0 }
    let hit := m.posted.filterMap fun p => match p.to_ with
      | .op i _ false => if p.ctag = tag then some i else none
      | _ => none
    let s := s.modMlist f list fun m => { m with posted := m.posted.filter fun p => match p.to_ with
      | .op i _ false => ¬ hit.contains i
      | _ => true }
    let s := hit.foldl (fun s i => s.endOp f i .flushed 0 0) s
    s.endOp f id .ok 0 hit.length

def execTrecvCancel (e : Entry) (list : Nat) (tag : BitVec 32) (s : State) : Host.Outcome State Fault Refusal :=
  .next (s.startEntry e 0x052 len1 (.trecvCancel e list tag) (effTrecvCancel list tag e.fn.idx))

/-- Bytes that ascending ranges (start, end) cover from a point on. -/
def covered (l : List (Nat × Nat)) (from_ : Nat) : Nat :=
  match l with
  | [] => 0
  | (a, b) :: t => (b - max a from_) + covered t (max b from_)

/-- Bytes of the slice that are not free (R102): eager space, and what open windows, programs' code, herds' work areas and launches' save areas
cover (DEDUCED, log 40). -/
def State.sliceTaken (s : State) (f : Nat) : Nat :=
  let x := s.fn f
  let areas := (x.wins.filterMap fun w => if w.2.state ≠ .closed ∧ w.2.slice then some (w.2.base, w.2.base + w.2.length) else none) ++
    (x.progs.map fun p => (p.2.codeOff, p.2.codeOff + p.2.codeLen)) ++
    (x.herds.filterMap fun h => if h.2.state ≠ .free then h.2.body.map fun b => (b.soff, b.soff + 1024 * b.slen) else none) ++
    (x.launches.filterMap fun l => if l.2.state ≠ .free then some (l.2.saveOff, l.2.saveOff + l.2.saveLen) else none)
  s.eagerUsed f + covered (sortBy (fun a b => decide (a.1 ≤ b.1)) areas) 0

/-- R102: MLIST_CREATE. -/
def effMlistCreate (list uq : Nat) (f id : Nat) (s : State) : State :=
  s.checked f id
    (ck (4096 ≤ list ∨ uq = 0 ∨ 16384 < uq ∨ s.qPrecv f < s.precvUsed f + uq ∨ s.sliceLen f < s.sliceTaken f + 8192 * uq) .range ++
     ck ((s.mlist? f list).isSome) .state)
    fun s => (s.modFn f fun x => { x with mlists := aset x.mlists list { uq := uq } }).endOp f id .ok 0 0

def execMlistCreate (e : Entry) (list uq : Nat) (s : State) : Host.Outcome State Fault Refusal :=
  .next (s.startEntry e 0x053 len1 (.mlistCreate e list uq) (effMlistCreate list uq e.fn.idx))

/-- Receives of a destroyed list that have matched keep their messages (R113). -/
def State.keepBound (s : State) (f l : Nat) (b : AMap Unexp) : State :=
  if b = [] then s else s.modFn f fun x =>
    { x with mlists := aset x.mlists (goneList l) { uq := 0, bound := (agetD x.mlists (goneList l) { uq := 0 }).bound ++ b } }

/-- The operations of the armed requests that wait on a list: also those whose message has matched and is not placed yet (R122, R123). -/
def FnState.armedOn (x : FnState) (list : Nat) : List Nat :=
  (x.armed.filter fun a => match a.trig with | .msg r => r.list = list | _ => false).map (·.op)

/-- A list goes, with what is posted on it or waits on it (R113, R488); a struck one ends its matched receives too. What becomes of a message
matched to an armed request that ends so is said at ARM_CANCEL. Messages that wait to meet the list find none (R113). -/
def State.mlistEnd (s : State) (f list : Nat) (st : Status) : State :=
  match s.mlist? f list with
  | none => s
  | some m =>
    let arm := (s.fn f).armedOn list
    let ops := (m.posted.filterMap fun p => match p.to_ with | .op i _ false => some i | _ => none) ++ arm
    let m := { m with bound := m.bound.filter fun b => ! arm.contains b.1 }
    let s := m.posted.foldl (fun s p => match p.to_ with | .prog l c o => s.progStatus f l c o st 0 | _ => s) s
    let s := s.modFn f fun x => { x with mlists := adel x.mlists list, armed := x.armed.filter fun a => ¬ ops.contains a.op }
    let s := ops.foldl (fun s i => s.endOp f i st 0 0) s
    let s := if st = .flushed then s.keepBound f list m.bound else (m.bound.map (·.1)).foldl (fun s i => s.endOp f i st 0 0) s
    let s := (m.unexp.filter (·.rdv)).foldl (fun s u => s.sendNak f u.conn u.msn st 0) s
    m.wait.foldl (fun s w => s.sendNak f w.2.conn w.2.msn .range 0) s

/-- R113: MLIST_DESTROY. -/
def effMlistDestroy (list : Nat) (f id : Nat) (s : State) : State :=
  s.checked f id (ck (4096 ≤ list) .range ++ ck ((s.mlist? f list).isNone) .state) fun s => (s.mlistEnd f list .flushed).endOp f id .ok 0 0

def execMlistDestroy (e : Entry) (list : Nat) (s : State) : Host.Outcome State Fault Refusal :=
  .next (s.startEntry e 0x054 len1 (.mlistDestroy e list) (effMlistDestroy list e.fn.idx))

/-! ### Tally commands (R116, R117) -/

/-- R116, R386: TALLY_ALLOC takes the lowest free index below the quota. -/
def effTallyAlloc (value : Word) (f id : Nat) (s : State) : State :=
  let i := firstGap ((s.fn f).tallies.map (·.1)) 0
  s.checked f id (ck (s.qTallies f ≤ i) .range) fun s =>
    (s.modFn f fun x => { x with tallies := aset x.tallies i { count := value.toNat } }).endOp f id .ok 0 i

def execTallyAlloc (e : Entry) (value : Word) (s : State) : Host.Outcome State Fault Refusal :=
  .next (s.startEntry e 0x070 len1 (.tallyAlloc e value) (effTallyAlloc value e.fn.idx))

/-- R117: a tally that an armed request waits on or a window binds is not freed. -/
def State.tallyBusy (s : State) (f i : Nat) : Bool :=
  (s.fn f).armed.any (fun a => match a.trig with | .tally j _ => j = i | _ => false) ||
  (s.fn f).wins.any fun w => w.2.state ≠ .closed && w.2.btally = some i

def effTallyFree (tally : Nat) (f id : Nat) (s : State) : State :=
  s.checked f id (ck (¬ s.tallyOk f tally) .range ++ ck (s.tallyOk f tally ∧ s.tallyBusy f tally) .state) fun s =>
    (s.modFn f fun x => { x with tallies := adel x.tallies tally }).endOp f id .ok 0 0

def execTallyFree (e : Entry) (tally : Nat) (s : State) : Host.Outcome State Fault Refusal :=
  .next (s.startEntry e 0x071 len1 (.tallyFree e tally) (effTallyFree tally e.fn.idx))

/-- The count of a tally. -/
def State.tallyCount (s : State) (f i : Nat) : Nat := ((aget (s.fn f).tallies i).map (·.count)).getD 0

def effTallyAdd (tally : Nat) (value : Word) (f id : Nat) (s : State) : State :=
  s.checked f id (ck (¬ s.tallyOk f tally) .range ++ s.tallyStruck f tally) fun s =>
    let s := s.tallyAdd f tally value.toNat
    s.endOp f id .ok 0 (s.tallyCount f tally % 2 ^ 32)

def effTallySet (tally : Nat) (value : Word) (f id : Nat) (s : State) : State :=
  s.checked f id (ck (¬ s.tallyOk f tally) .range ++ s.tallyStruck f tally) fun s =>
    let s := s.tallyPut f tally value.toNat
    s.endOp f id .ok 0 (s.tallyCount f tally % 2 ^ 32)

def effTallyRead (tally addr : Nat) (f id : Nat) (s : State) : State :=
  s.checked f id (ck (¬ s.tallyOk f tally) .range ++ s.tallyStruck f tally) fun s =>
    s.writeRecord f id addr (leBytes 8 (s.tallyCount f tally)) (s.tallyCount f tally % 2 ^ 32)

def execTallyRead (e : Entry) (tally addr : Nat) (s : State) : Host.Outcome State Fault Refusal :=
  .next (s.startEntry e 0x074 len1 (.tallyRead e tally addr) (effTallyRead tally addr e.fn.idx))

/-! ### Armed requests (R119-R126) -/

/-- Run the embedded operation of a FIRED request, or an initiating operation again, under its operation (R121, R123). -/
def runEmb (i : Instr) (f id : Nat) (s : State) : State :=
  match i with
  | .write _ b => effWrite b false 0 f id s
  | .read _ b => effRead b f id s
  | .writeNotify _ b imm => effWrite b true imm f id s
  | .atFadd _ b => effAtomic 0x48 b f id s
  | .atFand _ b => effAtomic 0x49 b f id s
  | .atFor _ b => effAtomic 0x4A b f id s
  | .atFxor _ b => effAtomic 0x4B b f id s
  | .atSwap _ b => effAtomic 0x4C b f id s
  | .atCas _ b => effAtomic 0x4D b f id s
  | .tsend _ b => effTsend b f id s
  | .tallyAdd _ t v => effTallyAdd t v f id s
  | .tallySet _ t v => effTallySet t v f id s
  | _ => s

/-- Run the FIRED requests of a function in the order of firing; what they fire in turn follows (R124). -/
def State.settleOne (f : Nat) (s : State) (_ : Unit) : State × Option Unit :=
  match (s.fn f).firing with
  | [] => (s, none)
  | id :: t =>
    let s := s.modFn f fun x => { x with firing := t }
    match s.op? f id with
    | some o => (runEmb o.cmd f id (s.modOp f id fun o => { o with waiting := false }), some ())
    | none => (s, some ())

/-- All of them, at most fuel. -/
def settleGo (fuel : Nat) (s : State) (f : Nat) : State := (loop (State.settleOne f) fuel s ()).1


/-- The command an embedded entry spells, if its opcode is one of R120. -/
def embInstr (m : Embed) (e : Entry) : Option Instr :=
  let e := { e with slots := m.slots, rsv := m.rsv }
  if m.opcode = 0x040 then some (.write e m.body)
  else if m.opcode = 0x041 then some (.read e m.body)
  else if m.opcode = 0x042 then some (.writeNotify e m.body m.imm)
  else if m.opcode = 0x048 then some (.atFadd e m.body)
  else if m.opcode = 0x049 then some (.atFand e m.body)
  else if m.opcode = 0x04A then some (.atFor e m.body)
  else if m.opcode = 0x04B then some (.atFxor e m.body)
  else if m.opcode = 0x04C then some (.atSwap e m.body)
  else if m.opcode = 0x04D then some (.atCas e m.body)
  else if m.opcode = 0x050 then some (.tsend e m.body)
  else if m.opcode = 0x072 then some (.tallyAdd e m.tally m.value)
  else if m.opcode = 0x073 then some (.tallySet e m.tally m.value)
  else none

/-- R81 on the embedded entry: its static checks when the ARM starts (R121). An operation meets its connection's state as it starts (R141), which
the embedded one does when it fires; here the handle must be known. -/
def State.embChecks (s : State) (f : Nat) (i : Instr) : List Status :=
  let one := fun (b : OneSided) (atomic : Bool) =>
    ck (if atomic then b.len ≠ 8 else 2 ^ 30 < b.len) .range ++ ck (b.ltEn ∧ ¬ s.tallyOk f b.ltally) .range ++
    ck (¬ s.known f b.conn) .range ++ (if b.len = 0 then [] else s.locCheck f b.lspace b.laddr b.len)
  match i with
  | .write _ b => one b false
  | .read _ b => one b false
  | .writeNotify _ b _ => one b false
  | .atFadd _ b => one b true
  | .atFand _ b => one b true
  | .atFor _ b => one b true
  | .atFxor _ b => one b true
  | .atSwap _ b => one b true
  | .atCas _ b => one b true
  | .tsend _ b => one b false ++ ck (4096 ≤ b.wref) .range
  | .tallyAdd _ t _ => ck (¬ s.tallyOk f t) .range
  | .tallySet _ t _ => ck (¬ s.tallyOk f t) .range
  | _ => [.range]

/-- The granules that the embedded entry's LADDR is checked at (R81, R121). -/
def embGranules (i : Instr) : List (Nat × Nat × Bool) :=
  match i with
  | .write _ b => locGranules b false
  | .writeNotify _ b _ => locGranules b false
  | .tsend _ b => locGranules b false
  | .read _ b => locGranules b true
  | .atFadd _ b => locGranules b true
  | .atFand _ b => locGranules b true
  | .atFor _ b => locGranules b true
  | .atFxor _ b => locGranules b true
  | .atSwap _ b => locGranules b true
  | .atCas _ b => locGranules b true
  | _ => []

/-- R119, R121: the trigger's own checks. -/
def State.trigChecks (s : State) (f : Nat) (t : Trigger) : List Status :=
  match t with
  | .tally i _ => ck (¬ s.tallyOk f i) .range
  | .msg r => s.recvChecks f r ++ ck (s.qPrecv f ≤ s.precvUsed f) .busy
  | .time _ => []
  | .reserved _ => [.range]

/-- R120: conditions on the embedded entry's header. -/
def embHeader (e : Entry) (m : Embed) : List Status :=
  ck ((embInstr m e).isNone ∨ m.slots + 1 ≠ e.slots ∨ m.gen ≠ e.gen ∨ m.phase = true ∨ m.rsv = true ∨ m.slots ≠ 1) .range

/-- R121-R124: ARM registers the request; a trigger already met fires it at once, a TIME already passed LATE. -/
def effArm (e : Entry) (trig : Trigger) (emb : Embed) (f id : Nat) (s : State) : State :=
  match embInstr emb e with
  | none => s.endOp f id .range 0 0
  | some i =>
    s.checked f id (embHeader e emb ++ s.embChecks f i ++ s.trigChecks f trig) fun s => s.withHost f id (embGranules i) fun s =>
      let a : Armed := { op := id, trig := trig, emb := i, opcode := emb.opcode, seq := (s.fn f).armSeq }
      let s := s.modFn f fun x => { x with armed := x.armed ++ [a], armSeq := x.armSeq + 1 }
      let s := s.modOp f id fun o => { o with cmd := i, waiting := true }
      match trig with
      | .tally j th => if th ≤ s.tallyCount f j then s.fire f [a] else s
      | .msg r => s.postRecv f r.list id (recvPosted r (.op id 0 true) e.tag)
      | .time t => if t ≤ s.clk.time then (s.modOp f id fun o => { o with late := true }).fire f [a] else s
      | .reserved _ => s

/-- Armed requests of a function whose TIME has come, in arming order (R122). -/
def dueArmed (x : FnState) (time : Nat) : List Armed :=
  x.armed.filter fun a => match a.trig with | .time t => t ≤ time | _ => false

/-- R126: ARM_CANCEL ends every WAITING request of the function with the tag, DETAIL their number; one whose TIME has come before fires. A
message matched to a request that ends so is not delivered: the data of a rendezvous that was begun is still read and placed in the buffer,
and an eager message that waits for a page is dropped (DESIGN CHOICE, log 148). -/
def effArmCancel (tag : BitVec 32) (f id : Nat) (s : State) : State :=
  let s := s.fire f (dueArmed (s.fn f) s.clk.time)
  let hit := ((s.fn f).armed.map (·.op)).filter fun i => match s.op? f i with | some o => o.tag = tag | none => false
  let s := s.modFn f fun x =>
    { x with armed := x.armed.filter (fun a => ¬ hit.contains a.op),
             mlists := x.mlists.map fun m => (m.1, { m.2 with bound := m.2.bound.filter (fun b => ! hit.contains b.1), posted := m.2.posted.filter fun p => match p.to_ with
               | .op i _ true => ¬ hit.contains i
               | _ => true }) }
  let s := hit.foldl (fun s i => s.endOp f i .flushed 0 0) s
  s.endOp f id .ok 0 hit.length

/-! ### What a message does at the target when it passes the watermark (R90-R94, R106, R149, R151) -/

/-- R90, R95: the notify completion at the notify ring pair k of the window that admitted the message; one that is FREE or DRAINING by now
discards it, counted. -/
def State.notify (s : State) (f k i : Nat) (imm : BitVec 32) (len : Nat) : State :=
  if (s.ring f k).state = .free ∨ (s.ring f k).state = .draining then
    s.modFn f fun x => { x with cnt := { x.cnt with notifyDrop := x.cnt.notifyDrop + 1 } }
  else s.complete f k (s.compl f .ok imm 0x042 len i)

/-- R91: the bound tally of the window that admitted the message. -/
def State.boundTally (s : State) (f : Nat) (t : Option Nat) : State :=
  match t with
  | some t => s.tallyAdd f t 1
  | none => s

/-- R92, R93: make an atomic's update and answer with the old value. In host memory with CXL.cache usable, the line is held in the line
cache, modified. -/
def State.serveAtomic (s : State) (f h i msn op roff : Nat) (o1 o2 : Word) : State :=
  let w := s.win f i
  let addr := w.base + roff
  match s.locPoison f w.slice addr 8 with
  | some _ => (s.placeDone f i).sendNak f h msn .poison 0
  | none =>
    let old : Word := BitVec.ofNat 64 (leNat (s.locRead f w.slice addr 8))
    let s := match atomicNew op old o1 o2 with
      | some v =>
        if w.slice then s.sliceWrite f addr (leBytes 8 v.toNat)
        else if s.cacheUsable f then
          ({ s with mem := s.mem.write (cellKey f addr) (leBytes 8 v.toNat) }).fillLine f addr true
        else s.hostWrite f addr (leBytes 8 v.toNat)
      | none => s
    (s.placeDone f i).queueMsg f h (.atomicResp msn) 8 (.bytes (leBytes 8 old.toNat)) .nak

/-- R106-R108: an arriving tagged message meets its list. -/
def State.matchMsg (s : State) (f list : Nat) (u : Unexp) : State :=
  match s.mlist? f list with
  | none => s.sendNak f u.conn u.msn .range 0
  | some l =>
    match l.posted.find? fun p => p.matches u.conn u.tag with
    | some p =>
      let s := s.modMlist f list fun l => { l with posted := dropFirst l.posted (fun x => x = p) }
      match p.to_, (p.ranges u).findSome? (fun (a, n, w) => (s.missing f a n w)) with
      | .op id _ _, some pg => (s.modMlist f list fun l => { l with bound := aset l.bound id u }).parkOp f id pg true
      | _, _ => s.deliver f p u
    | none =>
      if l.unexp.length < l.uq then s.modMlist f list fun l => { l with unexp := l.unexp ++ [u] }
      else (s.sendNak f u.conn u.msn .busy s.hint).bump

/-- The list that a message not yet past the watermark is for, while it can still be matched. -/
def InMsg.listNo (m : InMsg) : Option Nat :=
  if m.aband ∨ m.passed ∨ m.status ≠ .ok ∨ m.npk = 0 then none else match m.ext with | .tsend l .. => some l | _ => none

/-- R106: a message of another connection reached the function before place n and is still on its way to the list. It comes after the earlier
messages of its own connection, so it takes its place no sooner than they do. -/
def State.aheadOf (s : State) (f list n conn : Nat) : Bool :=
  (s.fn f).conns.any fun c => decide (c.1 ≠ conn) && c.2.rx.msgs.any fun m =>
    decide (m.listNo = some list) && decide (c.2.rx.msgs.foldl (fun k (y : InMsg) => if y.listNo.isSome ∧ y.first ≤ m.first then max k y.arr else k) 0 < n)

/-- Messages that wait at a list meet it in the order of their arrival (R106). -/
def State.listOne (f list : Nat) (s : State) (_ : Unit) : State × Option Unit :=
  match s.mlist? f list with
  | none => (s, none)
  | some l =>
    match l.wait.foldl (fun (b : Option (Nat × Unexp)) w => match b with
      | none => some w
      | some y => if w.1 < y.1 then some w else some y) none with
    | none => (s, none)
    | some w =>
      if s.aheadOf f list w.1 w.2.conn then (s, none)
      else ((s.modMlist f list fun l => { l with wait := dropFirst l.wait (fun y => y = w) }).matchMsg f list w.2, some ())

/-- All of them that can. -/
def State.listGo (s : State) (f list : Nat) : State :=
  match s.mlist? f list with
  | none => s
  | some l => (loop (State.listOne f list) l.wait.length s ()).1

/-- A tagged message that has passed the watermark is handed to its list's matching unit, which takes messages of different connections in the
order in which their first packets arrived, and those of one connection as they come (R106, R149; DEDUCED, log 130). -/
def State.toList (s : State) (f h : Nat) (m : InMsg) (list : Nat) (rdv : Bool) (tag : Word) (len : Nat) : State :=
  let u : Unexp := { conn := h, msn := m.msn, tag := tag, len := len, rdv := rdv, data := m.data.flatMap (·.2) }
  match s.mlist? f list with
  | none => s.sendNak f h m.msn .range 0
  | some l =>
    let n := (l.wait.filter fun w => w.2.conn = h).foldl (fun n w => max n w.1) m.arr
    (s.modMlist f list fun l => { l with wait := l.wait ++ [(n, u)] }).listGo f list

/-- R103: serve a target's read of rendezvous data under the TSEND's own rights; a read of nothing ends the TSEND. -/
def State.serveRdv (s : State) (f h rq req moff len : Nat) : State :=
  match (s.fn f).ops.find? (fun o => o.conn = some h ∧ o.msn = some req) with
  | none =>
    match s.progSend? f h req with
    | none => s
    | some (l, c, a) =>
      if len = 0 then s.progStatus f l c a.id .ok 0
      else
        let bs := a.got.getD []
        s.queueMsg f h (.rdvResp rq moff) (min len (a.bytes - moff)) (.bytes (bs.drop moff)) (.rdv req rq)
  | some o =>
    match o.cmd with
    | .tsend _ b =>
      if len = 0 then s.endOp f o.id .ok b.len 0
      else s.queueMsg f h (.rdvResp rq moff) (min len (b.len - moff)) (.mem b.lspace (b.laddr + moff)) (.rdv req rq)
    | _ => s

/-- The ordered action of a point-to-point message (R149); a refused one sends its NAK (R151), an abandoned one nothing. -/
def State.passP2p (s : State) (f h : Nat) (m : InMsg) : State :=
  if m.aband then s
  else if m.status ≠ .ok then s.sendNak f h m.msn m.status m.hint
  else
    match m.ext with
    | .data wref _ mlen imm notify =>
      (if notify then s.notify f m.nring (wref % 2 ^ 18) imm mlen else s).boundTally f m.btally
    | .readReq wref roff len =>
      let w := s.win f (wref % 2 ^ 18)
      s.queueMsg f h (.readResp m.msn 0) len (.mem w.slice (w.base + roff)) (.serve (wref % 2 ^ 18) m.msn)
    | .atomicReq wref roff op o1 o2 => s.serveAtomic f h (wref % 2 ^ 18) m.msn op roff o1 o2
    | .tsend list rdv tag mlen _ => s.toList f h m list rdv tag mlen
    | .rdvReq req moff len => s.serveRdv f h m.msn req moff len
    | _ => s

/-! ### What a command leaves to be done -/

/-- Messages that wait at a list for others that are gone meet it. -/
def State.listsGo (s : State) (f : Nat) : State :=
  (s.fn f).mlists.foldl (fun s m => if m.2.wait = [] then s else s.listGo f m.1) s

/-- Every function's waiting messages meet their lists, and its FIRED requests start. While a function starts nothing, as in a freeze, a request whose
trigger is met stays WAITING (R399): it runs when the function starts again (DESIGN CHOICE, log 166). -/
def State.settle (s : State) : State :=
  s.fns.foldl (fun s x =>
    let s := s.listsGo x.1
    if ! s.starts x.1 then s else settleGo ((s.fn x.1).firing.length + (s.fn x.1).armed.length) s x.1) s

/-! ### Commands that fire requests (R117, R119-R126) -/

def execTallyAdd (e : Entry) (tally : Nat) (value : Word) (s : State) : Host.Outcome State Fault Refusal :=
  .next (s.startEntry e 0x072 len1 (.tallyAdd e tally value) (effTallyAdd tally value e.fn.idx)).settle

def execTallySet (e : Entry) (tally : Nat) (value : Word) (s : State) : Host.Outcome State Fault Refusal :=
  .next (s.startEntry e 0x073 len1 (.tallySet e tally value) (effTallySet tally value e.fn.idx)).settle

def execArm (e : Entry) (trig : Trigger) (emb : Embed) (s : State) : Host.Outcome State Fault Refusal :=
  .next (s.startEntry e 0x080 (fun n => 2 ≤ n ∧ n ≤ 16) (.arm e trig emb) (effArm e trig emb e.fn.idx)).settle

def execArmCancel (e : Entry) (tag : BitVec 32) (s : State) : Host.Outcome State Fault Refusal :=
  .next (s.startEntry e 0x081 len1 (.armCancel e tag) (effArmCancel tag e.fn.idx)).settle

/-- R122: device time reaches the TIME of an armed request, which fires without LATE. -/
def execArmedTimeFire (fn : Fn) (ring : Nat) (tag : BitVec 32) (now : Nat) (s : State) : Host.Outcome State Fault Refusal :=
  let s := s.tick now
  let f := fn.idx
  .next (s.fire f ((dueArmed (s.fn f) s.clk.time).filter fun a => match s.op? f a.op with
    | some o => o.ring = ring ∧ o.tag = tag
    | none => false)).settle

end Sys2Proof.Machine
end

