-- ==== Sys2Proof/Machine/Sched.lean ====
section
/-!
DEFINITION. Sched.lean: credits, selection, shaping, transmission, gate lists, stops and samples (R169-R202).
-/

namespace Sys2Proof.Machine

/-! ### Weights (R177, R185, R388) -/

/-- Bandwidth weight of a partition on a port: byte q of SHARE, 0 acting as 1 on a granted port (R388). -/
def PartRec.shareOn (r : PartRec) (q : Nat) : Nat := if r.ports.testBit q then atLeast1 (bitsOf r.share (8 * q) 8) else 0

/-- Weight of a partition in the credit division: the sum over its granted ports (R177). -/
def PartRec.weight (r : PartRec) : Nat := (List.range 8).foldl (fun n q => n + r.shareOn q) 0

/-- Weight of a class in the credit division: its CW summed over the partition's granted ports (R177). -/
def State.cwSum (s : State) (p c : Nat) : Nat :=
  (bitList 8 (s.part p).cur.ports).foldl (fun n q => n + s.classWeight q p c) 0

/-! ### Buckets (R183, R184) -/

def qKey (q p c : Nat) : Nat := 128 * q + 8 * p + c
def State.clsq (s : State) (k : Nat) : ClsQ := agetD s.sched.queues k {}
def State.modClsq (s : State) (k : Nat) (g : ClsQ → ClsQ) : State :=
  { s with sched := { s.sched with queues := aset s.sched.queues k (g (s.clsq k)) } }

/-- CIR and PIR in units of 100 Mb/s as they act on a breakout port (R184, R497): PIR below CIR acts as CIR, and neither exceeds the
port rate. -/
def State.rates (s : State) (q k p c : Nat) : Nat × Nat :=
  let top := s.portRate q k / 100
  let cir := min top (s.fld (tcmOff q p c) 0 16)
  let pir := s.fld (tcmOff q p c) 16 16
  (cir, if pir = 0 then 0 else min top (max pir cir))

def State.bursts (s : State) (q p c : Nat) : Nat × Nat :=
  (s.fld (tcmOff q p c + 8) 0 16 * 1024, s.fld (tcmOff q p c + 8) 16 16 * 1024)

/-- One bucket after d ns at r × 100 Mb/s: r · d / 80 bytes, remainder kept, up to the burst. -/
def fillBucket (v rem r d burst : Nat) : Nat × Nat :=
  let t := rem + r * d
  if burst ≤ v + t / 80 then (burst, 0) else (v + t / 80, t % 80)

/-- Fill the buckets of a queue up to now, at the rates of breakout port k. -/
def State.fillQ (s : State) (q k p c : Nat) : ClsQ :=
  let x := s.clsq (qKey q p c)
  let d := s.now - x.at_
  let (cir, pir) := s.rates q k p c
  let (cbs, pbs) := s.bursts q p c
  let (cv, cr) := fillBucket (min x.c cbs) x.crem cir d cbs
  let (pv, pr) := fillBucket (min x.p pbs) x.prem pir d pbs
  { x with c := cv, crem := cr, p := if pir = 0 then pbs else pv, prem := pr, at_ := s.now }

/-- Colour of a packet of l charged bytes (R183): 0 green, 1 yellow, 2 red. PIR 0 is no peak limit; CIR 0 makes nothing green. -/
def State.colour (s : State) (q k p c l : Nat) : Nat :=
  let x := s.fillQ q k p c
  let (cir, pir) := s.rates q k p c
  if pir ≠ 0 ∧ x.p < l then 2 else if cir = 0 ∨ x.c < l then 1 else 0

/-- Charge a selection (R183); an escalation ends, and the waiting time starts again (R186). -/
def State.chargeQ (s : State) (q k p c l : Nat) : State :=
  let col := s.colour q k p c l
  let x := s.fillQ q k p c
  s.modClsq (qKey q p c) fun _ => { x with c := if col = 0 then x.c - l else x.c, p := x.p - l, since := none, escal := none }

/-! ### Candidates (R143, R154, R159, R173, R185, R198) -/

/-- The next packet of a connection: a lost packet to be sent again (its extended PSN), or the next of its first message. -/
structure Cand where
  conn  : Nat
  retx  : Option Nat
  path  : Nat
  plen  : Nat
  cost  : Nat
  bytes : Nat
  deriving DecidableEq, Repr

/-- A function's traffic of a class is injected: its partition is running and no stop of the class or the instance is in force (R187, R198,
R399). -/
def State.injectsCls (s : State) (f cls : Nat) : Bool :=
  let st := (s.fn f).stops
  s.starts f && ¬ st.all && ¬ st.cls.testBit cls

/-- A connection's traffic is injected (R187, R198). -/
def State.injects (s : State) (f h cls : Nat) : Bool := s.injectsCls f cls && ! (s.fn f).stops.conns.contains h

/-- A region takes no more part: it is fenced, or an immediate fence is under way (R187, R457). -/
def State.regionCut (s : State) (n : Nat) : Bool := match aget s.err.fences n with | some x => x.done || x.immediate | none => false

/-- A message comes from a block of such a region: a program copy's, or a herd's (R187). -/
def State.msgCut (s : State) (f : Nat) (m : MsgFor) : Bool :=
  match m with
  | .prog l c _ => (match (s.copy f l c).block with | some b => s.regionCut (regionOf b) | none => false)
  | .coll i _ => (agetD (s.fn f).herds i {}).blocks.any fun b => s.regionCut (regionOf b)
  | _ => false

/-- Nothing is unresolved, and the outgoing direction is stopped (R180). A packet deemed lost is resolved (R173). -/
def State.dirStopped (s : State) (f h : Nat) : Bool :=
  let c := s.conn f h
  c.tx.sent.all (fun x => ! x.out) && (c.tx.stop || ! s.injects f h c.cid.cls)

/-- R180: the LOST_TIME timer stands still while that is so. -/
def State.stopClock (s : State) (f h : Nat) : State :=
  match (s.conn f h).tm.susp, s.dirStopped f h with
  | none, true => s.modConn f h fun c => { c with tm := { c.tm with susp := some s.now } }
  | some t, false => s.modConn f h fun c => { c with tm := { c.tm with susp := none, progress := c.tm.progress + (s.now - t) } }
  | _, _ => s

/-- The clocks of every connection of a function. -/
def State.stopClocks (s : State) (f : Nat) : State := (s.fn f).conns.foldl (fun s x => if x.2.state = .free then s else s.stopClock f x.1) s

/-- Bytes of computed data a function holds in the replay area (R156). -/
def State.replayUsed (s : State) (f : Nat) : Nat :=
  (s.fn f).conns.foldl (fun n c => n + c.2.tx.sent.foldl (fun m x => match x.src, x.for_ with
    | .bytes _, .coll _ _ => m + x.plen
    | _, _ => m) 0) 0

/-- R156: a computed packet fits the partition's replay share. -/
def State.replayFits (s : State) (f : Nat) (m : SendMsg) (plen : Nat) : Bool :=
  match m.src, m.for_ with
  | .bytes _, .coll _ _ => decide (s.replayUsed f + plen ≤ (s.part (partOf f)).cur.replay * 2 ^ 20)
  | _, _ => true

/-- The part of a list of (address, length) pieces from an offset on, n bytes long. -/
def subPieces (l : List (Nat × Nat)) (off n : Nat) : List (Nat × Nat) :=
  match l with
  | [] => []
  | (a, m) :: t =>
    if n = 0 then []
    else if m ≤ off then subPieces t (off - m) n
    else (a + off, min n (m - off)) :: subPieces t 0 (n - min n (m - off))

/-- The source range of a packet that must be translated before it is read. -/
def srcMiss (s : State) (f : Nat) (src : Src) (off n : Nat) : Option Nat :=
  match src with
  | .mem false a => s.missing f (a + off) n false
  | .gather false l => (subPieces l off n).findSome? fun p => s.missing f p.1 p.2 false
  | _ => none

/-- Where a packet's source is poisoned: an address, or an offset into bytes that stop short. -/
def State.srcPoison (s : State) (f : Nat) (src : Src) (off n : Nat) : Option Nat :=
  match src with
  | .mem sl a => s.locPoison f sl (a + off) n
  | .gather sl l => (subPieces l off n).findSome? fun p => s.locPoison f sl p.1 p.2
  | .bytes l => if l.length < off + n then some l.length else none
  | .none => none

/-- The source of one packet of a message. -/
def Src.part (src : Src) (off n : Nat) : Src :=
  match src with
  | .mem sl a => .mem sl (a + off)
  | .gather sl l => .gather sl (subPieces l off n)
  | .bytes l => .bytes ((l.drop off).take n)
  | .none => .none

/-- The next packet of a connection, whatever credit says. -/
def Conn.nextCand (c : Conn) (h : Nat) : Option Cand :=
  match c.tx.sent.find? (fun x => x.lost) with
  | some x =>
    let p := c.nextPath x.path
    some ⟨h, some x.xpsn, p, x.plen, creditCost x.plen, c.cid.frameBytes x.ext x.plen⟩
  | none =>
    match c.tx.sendq with
    | [] => none
    | m :: _ =>
      let n := match m.pkts with
        | x :: _ => x.1
        | [] => min (pmtuBytes c.cid.pmtu) (m.len - m.off)
      some ⟨h, none, c.turnPath, n, creditCost n, c.cid.frameBytes m.ext n⟩

/-- Whether a connection's first message may give its next packet: not parked, within the window of 2^20 (R143), replay room (R156). -/
def State.headOk (s : State) (f : Nat) (c : Conn) (k : Cand) : Bool :=
  match k.retx, c.tx.sendq with
  | some _, _ => true
  | none, m :: _ => m.park.isNone && decide (c.tx.nxt - c.tx.una < 2 ^ 20) && s.replayFits f m k.plen
  | none, [] => false

/-- What the next packet of a connection is for. -/
def Conn.candFor (c : Conn) (k : Cand) : MsgFor :=
  match k.retx, c.tx.sendq with
  | some x, _ => (match c.tx.sent.find? fun y => y.xpsn = x with | some y => y.for_ | none => .nak)
  | none, m :: _ => m.for_
  | none, [] => .nak

/-- A connection's next packet if it can be sent on a port (R185), colour apart. -/
def State.canSend (s : State) (f q : Nat) (hc : Nat × Conn) : Option Cand :=
  let c := hc.2
  match c.nextCand hc.1 with
  | none => none
  | some k =>
    if (c.state = .established ∨ c.state = .closing ∨ c.state = .exhausted) ∧ ¬ c.noCtr ∧ ¬ s.keyless f hc.1 ∧ c.cid.pathPort k.path = q ∧
       c.tx.outCost + k.cost ≤ c.tx.gwin ∧ ¬ c.tx.stop ∧ s.injects f hc.1 c.cid.cls ∧ s.headOk f c k ∧ ¬ s.msgCut f (c.candFor k) then some k else none

/-- The connections of a class queue in round-robin order from its pointer (R185). -/
def State.queueConns (s : State) (q p c : Nat) : List (Nat × Conn) :=
  let l := (s.fn (4 + p)).conns.filter fun x => x.2.cid.cls = c
  let rr := (s.clsq (qKey q p c)).rr
  (l.filter fun x => rr ≤ x.1) ++ (l.filter fun x => x.1 < rr)

/-- The candidates of a class queue. -/
def State.queueCands (s : State) (q p c : Nat) : List Cand := (s.queueConns q p c).filterMap fun x => s.canSend (4 + p) q x

/-- The first raw frame of a class queue that nothing stops (R172, R187, R198). -/
def State.rawHead (s : State) (q p c : Nat) : Option RawPkt := (s.port q).raws.find? fun r => r.part = p ∧ r.cls = c ∧ s.injectsCls r.fn c

/-- What a class queue offers: a raw frame or a connection's packet, with charged bytes and colour; nothing when red. -/
inductive Pick where
  | conn (k : Cand)
  | raw (r : RawPkt)
  deriving DecidableEq, Repr

def Pick.bytes : Pick → Nat
  | .conn k => k.bytes
  | .raw r => r.bytes.length + 4

/-- FIFO bytes of a class in a port's egress buffer (R182). -/
def Port.fifoBytes (x : Port) (c : Nat) : Nat := x.fifo.foldl (fun n e => if e.cls = c then n + e.bytes else n) 0
def Port.fifoAll (x : Port) : Nat := x.fifo.foldl (fun n e => n + e.bytes) 0

/-- The breakout port by which a path leaves, of a connection that sprays over n ports (R497). -/
def State.bpOf (s : State) (q n path : Nat) : Nat :=
  let l := s.usable q
  l.getD (path / max 1 n % max 1 l.length) 0

/-- The breakout port by which a pick of a partition leaves. -/
def State.pickBp (s : State) (q p : Nat) : Pick → Nat
  | .conn k => s.bpOf q (s.conn (4 + p) k.conn).cid.portList.length k.path
  | .raw r => r.bp

/-- The colour of a pick. -/
def State.pickCol (s : State) (q p c : Nat) (k : Pick) : Nat := s.colour q (s.pickBp q p k) p c (k.bytes + 20)

/-- What a class queue offers to a selection (R182, R183, R185); `skip` are (function, connection) pairs that this selection has found
unable to give their packet. -/
def State.offer (s : State) (q p c : Nat) (skip : List (Nat × Nat) := []) : Option (Pick × Nat) :=
  if 262144 ≤ (s.port q).fifoBytes c then none else
    let one := match s.rawHead q p c with
      | some r => some (Pick.raw r)
      | none => ((s.queueCands q p c).find? fun (k : Cand) => ! skip.contains (4 + p, k.conn) && s.pickCol q p c (.conn k) ≠ 2).map Pick.conn
    match one with
    | none => none
    | some k =>
      let col := s.pickCol q p c k
      if col = 2 then none else some (k, col)

/-! ### Deficit round-robin (R185) -/

/-- Quantum: charged size of the largest frame at an 8,192-byte PMTU. -/
def quantum : Nat := 8370

/-- DWRR over (key, weight, size): serve the first from the pointer whose deficit covers its packet, after as many rounds of quanta as
one of them needs. Answers the key and the new deficits. -/
def dwrr (defs : AMap Nat) (ptr : Nat) (l : List (Nat × Nat × Nat)) : Option (Nat × AMap Nat) :=
  let l := (l.filter fun x => ptr ≤ x.1) ++ (l.filter fun x => x.1 < ptr)
  let need := fun (x : Nat × Nat × Nat) => ceilDiv (x.2.2 - agetD defs x.1 0) (quantum * max 1 x.2.1)
  match l with
  | [] => none
  | y :: t =>
    let k := t.foldl (fun n x => min n (need x)) (need y)
    let defs := if k = 0 then defs else l.foldl (fun d x => aset d x.1 (agetD d x.1 0 + k * quantum * max 1 x.2.1)) defs
    match l.find? fun x => x.2.2 ≤ agetD defs x.1 0 with
    | none => none
    | some x => some (x.1, aset defs x.1 (agetD defs x.1 0 - x.2.2))

/-! ### Selection (R181-R187) -/

/-- A class-7 packet finds a counter value, or needs none of its connection (R418, R419). -/
def State.ctlReady (s : State) (c : CtlPkt) : Bool :=
  c.pkt.ext.setUp || (match c.conn with | some x => ! (s.conn c.fn x.1).noCtr && ! s.keyless c.fn x.1 | none => false)

/-- The unsequenced packet whose turn it is: round-robin across partitions, each in order (R185). The class is skipped while its FIFO holds
256 KiB (R182). -/
def State.ctlNext (s : State) (q : Nat) : Option CtlPkt :=
  let x := s.port q
  if 262144 ≤ x.fifoBytes 7 then none else
    (List.range 16).findSome? fun i => x.ctl.find? fun c => c.part = (x.rr7 + i) % 16 ∧ s.ctlReady c

/-- Put a packet into a port's class FIFO. -/
def State.enqueue (s : State) (q : Nat) (e : FifoPkt) : State :=
  let e := { e with seq := s.sched.seq, id := (s.port q).fifoId }
  { s.modPort q (fun x => { x with fifo := x.fifo ++ [e], fifoId := x.fifoId + 1 }) with
    sched := { s.sched with seq := s.sched.seq + 1 } }

/-- The extension of a message's packet at an offset (R131). -/
def extAt (ext : Ext) (off : Nat) : Ext :=
  match ext with
  | .data w r n im nt => .data w (r + off) n im nt
  | .readResp q m => .readResp q (m + off)
  | .rdvResp q m => .rdvResp q (m + off)
  | .tsend l r t n m => .tsend l r t n (m + off)
  | .coll x => .coll { x with eoff := x.eoff }
  | x => x

def State.modFeed (s : State) (f id : Nat) (g : Feed → Feed) : State :=
  s.modFn f fun x => { x with feeds := match aget x.feeds id with | some y => aset x.feeds id (g y) | none => x.feeds }

/-- A feed ends when the outcome of every block it sent is known: DETAIL counts its admitted blocks, or names its own bad granule (R282, R344). -/
def State.feedEnd (s : State) (f id : Nat) : State :=
  match aget (s.fn f).feeds id with
  | none => s
  | some y => (s.modFn f fun x => { x with feeds := adel x.feeds id }).endOp f id (y.fail.getD .ok) y.bytes (y.bad.getD y.blocks)

/-- The outcome of one block sent on a connection (R282). After the first failure nothing further is sent. -/
def State.feedBlock (s : State) (f h id msn : Nat) (st : Status) (bad : Option Nat := none) : State :=
  match aget (s.fn f).feeds id with
  | none => s
  | some y =>
    match y.open_.find? fun o => o.1 = msn with
    | none => s
    | some o =>
      let stop := st ≠ .ok ∧ y.fail.isNone
      let unsent := if stop then ((s.conn f h).tx.sendq.filter fun m => m.for_ = .feed id ∧ ¬ m.begun).map (·.msn) else []
      let s := if stop then s.modConn f h fun c =>
          { c with tx := { c.tx with sendq := c.tx.sendq.filter fun m => ¬ unsent.contains m.msn } } else s
      let y := { y with open_ := y.open_.filter (fun z => z.1 ≠ msn ∧ ¬ unsent.contains z.1),
                        blocks := if st = .ok then y.blocks + 1 else y.blocks, bytes := if st = .ok then y.bytes + o.2 else y.bytes,
                        fail := if stop then some st else y.fail, bad := if stop then bad else y.bad }
      let s := s.modFeed f id fun _ => y
      if y.open_ = [] then s.feedEnd f id else s

/-- A source poisoned or refused: the operation ends with the status and DETAIL of the granule, and the message is abandoned (R155,
R343, R344); a feed ends when its other blocks have taken their course (R282). The notice of a response names the request (R131). -/
def State.failSrc (s : State) (f h : Nat) (m : MsgFor) (msn : Nat) (st : Status) (addr : Nat) (numbered : Bool := false) : State :=
  let s := s.abandonMsg f h msn st numbered
  let rename := fun (n : Nat) => match m with | .serve _ q => q | .rdv _ q => q | _ => n
  let fix := fun (e : Ext) => match e with | .nak n st' true d => if n = msn then Ext.nak (rename n) st' true d else e | x => x
  let s := s.modConn f h fun c =>
    { c with tx := { c.tx with sendq := c.tx.sendq.map (fun x => { x with ext := fix x.ext }),
                               sent := c.tx.sent.map fun x => { x with ext := fix x.ext } } }
  match m with
  | .op id => s.endOp f id st 0 (granuleDetail addr)
  | .feed id => s.feedBlock f h id msn st (some (granuleDetail addr))
  | .serve w q => s.serveDone f h w q
  | .rdv q _ => match (s.fn f).ops.find? (fun o => o.conn = some h ∧ o.msn = some q) with
    | some o => s.endOp f o.id st 0 (granuleDetail addr)
    | none => match s.progSend? f h q with
      | some (l, c, a) => s.progStatus f l c a.id st 0
      | none => s
  | .prog l c o => s.progStatus f l c o st 0
  | _ => s

/-- Issue a host read for a packet (R380): its data comes with HOST_READ_COMPLETION. -/
def State.issueRead (s : State) (f addr len q fifo : Nat) : State :=
  let l := s.linkOf f
  let r : HRead := { tag := (s.link l).nextTag, fn := f, gen := (s.fn f).gen, addr := addr, len := len, at_ := s.now, port := q, fifo := fifo }
  ((s.hostReadFill f addr len).modLink l fun x => { x with reads := x.reads ++ [r], nextTag := x.nextTag + 1 }).emit
    (.hostRead l r.tag f addr len (s.fn f).ats.enable)

/-- R7: a message carried while a port of its connection has a DEGRADED breakout port makes its operation end DEGRADED, where it would end OK
(DESIGN CHOICE, log 145). -/
def State.markReduced (s : State) (f h : Nat) (m : MsgFor) : State :=
  let low := (s.conn f h).cid.portList.any fun q => (s.port q).bps.any fun b => b.2.degraded
  if ! low then s else
    let mark := fun (s : State) (id : Nat) => s.modOp f id fun o => { o with degraded := true }
    match m with
    | .op id => mark s id
    | .feed id => mark s id
    | .coll i _ => (match (agetD (s.fn f).herds i {}).run with | some x => mark s x.op | none => s)
    | .rdv t _ => (match (s.fn f).ops.find? (fun o => o.conn = some h ∧ o.msn = some t) with | some o => mark s o.id | none => s)
    | _ => s

/-- Send a packet of a message: it takes its counter (R418), and its data is read from where it lies (R154, R181). -/
def State.sendData (s : State) (f h q : Nat) (x : Sent) (off : Nat) : State :=
  let c := s.conn f h
  let p := { s.mkPkt f h x.path x.ext [] with
             psn := x.xpsn % 2 ^ 32, wep := x.xpsn / 2 ^ 32 % 2 = 1, msn := x.msn, first := x.first, last := x.last, retx := x.retx }
  let bytes := c.cid.frameBytes x.ext x.plen
  let e : FifoPkt := { fn := f, conn := some h, part := partOf f, cls := c.cid.cls, bytes := bytes, seq := 0, id := 0, ready := true,
                       pkt := some p, bp := s.bpOf q c.cid.portList.length x.path, dev := c.cid.peerDev,
                       key := s.tltKey f h c.tx.kepoch (s.dirOf f h), ntype := s.dirOf f h }
  let id := (s.port q).fifoId
  let s := ((s.markReduced f h x.for_).takeCtr f h).stopClock f h
  match x.src with
  | .none => s.enqueue q e
  | .bytes l => s.enqueue q { e with pkt := some { p with payload := (l.drop off).take x.plen } }
  | .mem true a => (s.enqueue q { e with pkt := some { p with payload := s.sliceRead f (a + off) x.plen } }).sliceUse f (a + off) x.plen
  | .gather true l => l.foldl (fun s y => s.sliceUse f y.1 y.2) (s.enqueue q { e with pkt := some { p with payload := l.flatMap fun y => s.sliceRead f y.1 y.2 } })
  | .gather false l => (s.enqueue q { e with ready := false }).issueRead f ((l.headD (0, 0)).1) x.plen q id
  | .mem false a => if x.plen = 0 then s.enqueue q e else (s.enqueue q { e with ready := false }).issueRead f (a + off) x.plen q id

/-- Select a connection's packet (R173, R181): credit is charged, PSN and PCTR are assigned, the path's turn moves on. Answers whether a packet
was selected: its source may be untranslated or poisoned. -/
def State.selectConn (s : State) (f q : Nat) (k : Cand) : State × Bool :=
  let c := s.conn f k.conn
  match k.retx with
  | some xp =>
    match c.tx.sent.find? (fun x => x.xpsn = xp) with
    | none => (s, false)
    | some x =>
      match srcMiss s f x.src 0 x.plen with
      | some pg => (s.askXlate f pg false, false)
      | none =>
        match s.srcPoison f x.src 0 x.plen with
        | some a => (s.failSrc f k.conn x.for_ x.msn .poison a true, false)
        | none =>
          let y := { x with path := k.path, port := q, idx := c.tx.idx, later := 0, at_ := s.now, out := true, lost := false, retx := true, cost := k.cost }
          let s := s.modConn f k.conn fun c =>
            { c with tx := { c.tx with sent := c.tx.sent.map (fun z => if z.xpsn = xp then y else z), idx := c.tx.idx + 1,
                                       retx := satAdd 0xFFFFFFFF c.tx.retx 1,
                                       paths := amod c.tx.paths k.path {} fun p => { p with carried := p.carried + 1 } } }
          (s.sendData f k.conn q y 0, true)
  | none =>
    match c.tx.sendq with
    | [] => (s, false)
    | m :: t =>
      match srcMiss s f m.src m.off k.plen with
      | some pg =>
        ((s.modConn f k.conn fun c => { c with tx := { c.tx with sendq := { m with park := some pg } :: t } }).askXlate f pg false, false)
      | none =>
        match s.srcPoison f m.src m.off k.plen with
        | some a => (s.failSrc f k.conn m.for_ m.msn .poison a, false)
        | none =>
          let last := decide (m.len ≤ m.off + k.plen ∧ m.pkts.length ≤ 1)
          let src := m.src.part m.off k.plen
          let ext := match m.pkts with | y :: _ => y.2 | [] => extAt m.ext m.off
          let x : Sent := { xpsn := c.tx.nxt, msn := m.msn, ext := ext, src := src, plen := k.plen, first := ¬ m.begun,
                            last := last, cost := k.cost, path := k.path, port := q, idx := c.tx.idx, at_ := s.now,
                            rto := max s.rtoMin (2 * c.tx.srtt), for_ := m.for_ }
          let s := s.modConn f k.conn fun c =>
            { c with tx := { c.tx with sendq := if last then t else { m with off := m.off + k.plen, pkts := m.pkts.drop 1, begun := true } :: t,
                                       sent := c.tx.sent ++ [x], nxt := c.tx.nxt + 1, idx := c.tx.idx + 1, rr := k.path + 1,
                                       paths := amod c.tx.paths k.path {} fun p => { p with carried := p.carried + 1 } } }
          (s.sendData f k.conn q x 0, true)

/-- Select a raw frame (R531): it draws no credit. -/
def State.selectRaw (s : State) (q : Nat) (r : RawPkt) : State :=
  let s := s.modPort q fun x => { x with raws := dropFirst x.raws (fun y => y = r) }
  s.enqueue q { fn := r.fn, conn := none, part := r.part, cls := r.cls, bytes := r.bytes.length + 4, seq := 0, id := 0, ready := true,
                pkt := none, raw := some (r.op, r.bytes), bp := r.bp }

/-- Select what a class queue offers; once a packet is selected the queue's buckets are charged and its round-robin pointer moves on (R183,
R185). -/
def State.selectPick (s : State) (q p c : Nat) (k : Pick) : State × Bool :=
  let pay := fun (t : State) => t.chargeQ q (s.pickBp q p k) p c (k.bytes + 20)
  match k with
  | .raw r => (pay (s.selectRaw q r), true)
  | .conn k => match s.selectConn (4 + p) q k with
    | (t, true) => ((pay t).modClsq (qKey q p c) fun x => { x with rr := k.conn + 1 }, true)
    | (t, false) => (t, false)

/-- A queue that a selection takes: partition, class, packet, and the deficits and pointer that the selection leaves. -/
structure Turn where
  part : Nat
  cls  : Nat
  pick : Pick
  defs : Option (AMap Nat × AMap Nat)
  deriving DecidableEq, Repr

/-- Offers of the queues of some classes on a port. -/
def State.offers (s : State) (q : Nat) (classes : List Nat) (skip : List (Nat × Nat)) (want : Nat → Bool) : List (Nat × Nat × Pick) :=
  (List.range 16).flatMap fun p => classes.filterMap fun c =>
    match s.offer q p c skip with
    | some (k, col) => if want col then some (p, c, k) else none
    | none => none

/-- DWRR over the classes of each partition by CW, and over partitions by share, each counting the packet it would send (R185). -/
def State.selectTier (s : State) (q : Nat) (l : List (Nat × Nat × Pick)) : Option Turn :=
  let x := s.port q
  let per := ((l.map fun t => t.1).eraseDups).filterMap fun p =>
    let cls := (l.filter fun t => t.1 = p).map fun t => (8 * p + t.2.1, s.classWeight q p t.2.1, t.2.2.bytes + 20)
    match dwrr x.defC 0 cls with
    | none => none
    | some (k, dc) => (l.find? fun t => 8 * t.1 + t.2.1 = k).map fun t => (t, dc)
  match dwrr x.defP (agetD s.sched.rr q 0) (per.map fun y => (y.1.1, (s.part y.1.1).cur.shareOn q, y.1.2.2.bytes + 20)) with
  | none => none
  | some (p, dp) => (per.find? fun y => y.1.1 = p).map fun y => ⟨y.1.1, y.1.2.1, y.1.2.2, some (dp, y.2)⟩

/-- Note since when each data-class queue has been eligible (R186, R189). -/
def State.refreshQueues (s : State) (q : Nat) : State :=
  (List.range 16).foldl (fun s p => (List.range 7).foldl (fun s c =>
    match s.offer q p c with
    | some _ => if (s.clsq (qKey q p c)).since.isSome then s else s.modClsq (qKey q p c) fun x => { x with since := some s.now }
    | none => if (s.clsq (qKey q p c)).since.isSome then s.modClsq (qKey q p c) fun x => { x with since := none } else s) s) s

/-- Escalated queues of a port that offer something, oldest escalation first (R185, R186). -/
def State.escalated (s : State) (q : Nat) (skip : List (Nat × Nat)) : List (Nat × Nat × Pick) :=
  let l := (s.offers q (List.range 6) skip fun _ => true).filter fun t => (s.clsq (qKey q t.1 t.2.1)).escal.isSome
  sortBy (fun a b => decide (((s.clsq (qKey q a.1 a.2.1)).escal.getD 0) ≤ ((s.clsq (qKey q b.1 b.2.1)).escal.getD 0))) l

/-- The queue whose turn it is, class 7 apart: escalated queues, class 6, green data classes, yellow ones (R185, R186). -/
def State.turn (s : State) (q : Nat) (skip : List (Nat × Nat)) : Option Turn :=
  match s.escalated q skip with
  | t :: _ => some ⟨t.1, t.2.1, t.2.2, none⟩
  | [] =>
    match s.selectTier q (s.offers q [6] skip fun _ => true) with
    | some t => some t
    | none => match s.selectTier q (s.offers q (List.range 6) skip fun c => c = 0) with
      | some t => some t
      | none => s.selectTier q (s.offers q (List.range 6) skip fun c => c = 1)

/-- The deficits and the pointer after a turn. -/
def State.turnTaken (s : State) (q : Nat) (t : Turn) : State :=
  match t.defs with
  | none => s
  | some d => { s.modPort q (fun x => { x with defP := d.1, defC := d.2 }) with sched := { s.sched with rr := aset s.sched.rr q t.part } }

/-- Take the turns that come until one gives a packet; a connection whose source is untranslated or poisoned is passed over. -/
def selectGo (fuel : Nat) (s : State) (q : Nat) (skip : List (Nat × Nat)) : State :=
  match fuel with
  | 0 => s
  | fuel + 1 =>
    match s.turn q skip with
    | none => s
    | some t =>
      match s.selectPick q t.part t.cls t.pick with
      | (u, true) => u.turnTaken q t
      | (u, false) => match t.pick with
        | .conn k => selectGo fuel u q ((4 + t.part, k.conn) :: skip)
        | .raw _ => u

/-- Select the class-7 packet whose turn it is; one whose key or connection is gone is dropped. -/
def ctlGo (fuel : Nat) (s : State) (q : Nat) : State × Bool :=
  match fuel with
  | 0 => (s, false)
  | fuel + 1 =>
    match s.ctlNext q with
    | none => (s, false)
    | some c =>
      let s := s.modPort q fun x => { x with ctl := dropFirst x.ctl (fun y => y = c), rr7 := (c.part + 1) % 16 }
      match s.ctlSeal c with
      | none => ctlGo fuel s q
      | some (p, key, ntype) =>
        let n := match c.conn with | some x => (s.conn c.fn x.1).cid.portList.length | none => 1
        let e : FifoPkt := { fn := c.fn, conn := c.conn.map (·.1), part := c.part, cls := 7, bytes := p.frameLen, seq := 0, id := 0, ready := true,
                             pkt := some p, bp := s.bpOf q n c.path, dev := c.dev, key := key, ntype := ntype }
        ((s.ctlTaken c).enqueue q e, true)

/-- R182: selection for a port stops above HI and resumes below LO. -/
def State.injStopped (s : State) (q : Nat) : Bool :=
  let x := s.port q
  decide (65536 * s.injHi < x.fifoAll) || (x.stopped && decide (65536 * s.injLo ≤ x.fifoAll))

/-- R181, R182, R185: select one packet for a port. -/
def State.packetSelect (s : State) (q : Nat) : State :=
  let s := s.refreshQueues q
  let s := s.modPort q fun x => { x with stopped := s.injStopped q }
  if (s.port q).stopped ∨ s.err.fatal then s else
    match ctlGo ((s.port q).ctl.length + 1) s q with
    | (s, true) => s
    | (s, false) => selectGo (s.fns.foldl (fun n x => n + x.2.conns.length) 1) s q []

/-- R186: a data-class queue eligible and not selected for STARVE is escalated. -/
def execQueueEscalationTimer (port : Fin 8) (part : Fin 16) (cls : Nat) (now : Nat) (s : State) : Host.Outcome State Fault Refusal :=
  let s := (s.tick now).refreshQueues port.val
  let k := qKey port.val part.val cls
  .next (match (s.clsq k).since with
    | some t => if cls < 6 ∧ t + s.starveNs ≤ s.now ∧ (s.clsq k).escal.isNone then s.modClsq k fun x => { x with escal := some s.now } else s
    | none => s)

/-! ### Gate lists (R190-R197) -/

/-- The entry in force at an offset into the cycle: its index and how far it has run. -/
def gateGo (l : List Gate) (i off : Nat) : Nat × Nat :=
  match l with
  | [] => (0, 0)
  | g :: t => if off < g.dur then (i, off) else gateGo t (i + 1) (off - g.dur)

def gateAt (l : List Gate) (anchor time : Nat) : Nat × Nat :=
  gateGo l 0 (((time : Int) - anchor).emod (max 1 (cycleNs l))).toNat

/-- How long a run of entries open for a class lasts. -/
def openRun (l : List Gate) (c : Nat) : Nat :=
  match l with
  | [] => 0
  | g :: t => if g.mask.testBit c then g.dur + openRun t c else 0

/-- Nanoseconds left of the current open window of a class; none when it is closed (R190). -/
def openLeft (l : List Gate) (i into c : Nat) : Option Nat :=
  match l.getD i ⟨0, 0⟩ with
  | g => if g.mask.testBit c then some (openRun (l.drop i ++ l ++ l) c - into) else none

/-- The window that starts at entry i for a class is the longest and has just begun (R192). -/
def longestStart (l : List Gate) (i into c : Nat) : Bool :=
  into = 0 && (match longestWindow l c with
    | some w => w ≠ 0 && decide (openRun (l.drop i ++ l ++ l) c = w)
    | none => false)

/-- Whether a packet may start now under the port's gate list (R190-R192): yes, later, or by overrunning. -/
inductive GateSays where
  | yes | later | overrun
  deriving DecidableEq, Repr

def State.gateSays (s : State) (q k cls bytes : Nat) : GateSays :=
  let x := s.port q
  if cls = 7 ∨ ¬ x.running then .yes else
    let (i, into) := gateAt x.gates x.anchor s.clk.time
    match openLeft x.gates i into cls with
    | none => .later
    | some left =>
      if fits bytes (s.portRate q k) left then .yes
      else match longestWindow x.gates cls with
        | none => .yes
        | some w => if ¬ fits bytes (s.portRate q k) w ∧ longestStart x.gates i into cls then .overrun else .later

/-- The class's frames are paused on a breakout port (R188, R506): class 7 only by its own priority or PAUSE. -/
def State.pausedCls (s : State) (q k cls : Nat) : Bool :=
  let b := s.bp q k
  decide (s.now < b.pauseAll) || decide (s.now < agetD b.pauseEnd (s.fld (0x2C00040 + 8 * cls) 0 3) 0)

/-- Nanoseconds a frame takes on the wire at a rate in Mb/s. -/
def wireNs (bytes rate : Nat) : Nat := ceilDiv ((bytes + 20) * 8 * 1000) rate

/-- The first packet of each class's FIFO on a breakout port. -/
def Port.heads (x : Port) (k : Nat) : List FifoPkt :=
  (List.range 8).filterMap fun c => x.fifo.find? fun e => e.cls = c ∧ e.bp = k

/-- What the transmission of a packet leaves in its connection: the time from which its retransmission timer runs (R153), and the TSTAMP of
a probe (R161). -/
def State.noteSent (s : State) (e : FifoPkt) (p : Pkt) : State :=
  match e.conn with
  | none => s
  | some h => match p.ext with
    | .probe => s.modConn e.fn h fun c => { c with tx := { c.tx with paths := c.tx.paths.map fun y => if y.1 = p.path ∧ y.2.incl = false then (y.1, { y.2 with probeTs := some p.tstamp }) else y } }
    | x => if x.unsequenced then s else
        s.modConn e.fn h fun c => { c with tx := { c.tx with sent := c.tx.sent.map fun y => if y.xpsn % 2 ^ 32 = p.psn then { y with at_ := s.now } else y } }

/-- R181: the head packet that was selected earliest among those that may start now. A head that a window is too short for waits, and
counts once (R202). -/
def State.transmit (s : State) (q k : Nat) : State :=
  let b := s.bp q k
  let x := s.port q
  if ¬ b.up ∨ b.markSent ∨ s.err.fatal ∨ s.now < x.holdTil then s else
    let heads := (x.heads k).filter fun e => e.ready ∧ (¬ b.degraded ∨ e.cls = 7) ∧ ¬ s.pausedCls q k e.cls ∧ (e.cls ≠ 7 ∨ x.cls7At ≤ s.now)
    let late := heads.filter fun e => s.gateSays q k e.cls e.bytes = .later ∧ ¬ e.waited
    let s := s.modPort q fun x =>
      { x with fifo := x.fifo.map (fun e => if late.any (fun y => y.id = e.id) then { e with waited := true } else e),
               waits := satAdd 0xFFFFFFFF x.waits late.length }
    let go := (heads.filter fun e => s.gateSays q k e.cls e.bytes ≠ .later).foldl (fun (best : Option FifoPkt) e => match best with
      | none => some e
      | some y => if e.seq < y.seq then some e else some y) none
    match go with
    | none => s
    | some e =>
      let ns := wireNs e.bytes (s.portRate q k)
      let overs := s.gateSays q k e.cls e.bytes = .overrun
      let s := s.modPort q fun x =>
        { x with fifo := x.fifo.filter (fun y => y.id ≠ e.id), overrun := if overs then satAdd 0xFFFFFFFF x.overrun 1 else x.overrun,
                 holdTil := if overs then s.now + ns else x.holdTil,
                 cls7At := if e.cls = 7 then s.now + 64 * ns else x.cls7At, txFrames := satAdd 0xFFFFFFFF x.txFrames 1 }
      let s := s.modBp q k fun b => { b with sentBytes := b.sentBytes + e.bytes + 20 }
      match e.pkt, e.raw with
      | some p, _ =>
        let p := { p with tstamp := s.clk.time % 2 ^ 32 }
        (s.noteSent e p).emit (.packet q k p (p.frame (s.mac q k) e.key e.ntype))
      | none, some (op, bytes) => (s.emit (.raw q k bytes)).endOp e.fn op .ok bytes.length 0
      | none, none => s

/-- R181: FRAME_TRANSMIT. -/
def execFrameTransmit (port : Fin 8) (bp now : Nat) (s : State) : Host.Outcome State Fault Refusal :=
  .next ((s.tick now).transmit port.val bp)

/-- The first time base + k · cycle at or after t. -/
def firstAt (base cycle t : Nat) : Nat := if t ≤ base then base else base + ceilDiv (t - base) (max 1 cycle) * max 1 cycle

/-- R193: the takeover time of a new list and whether it is late. An empty list has no cycle: where none is running and START comes too
soon, it takes over at now + LEAD (DESIGN CHOICE, log 144). -/
def State.takeover (s : State) (q start : Nat) (l : List Gate) : Nat × Bool :=
  let x := s.port q
  let soon := s.clk.time + s.leadNs
  if soon ≤ start then
    (if x.running then firstAt x.anchor (cycleNs x.gates) start else start, false)
  else
    (if x.running then firstAt x.anchor (cycleNs x.gates) soon else if l = [] then soon else firstAt start (cycleNs l) soon, true)

/-- A gate list of 8-byte entries (R197). -/
def gatesOf (n : Nat) (bs : List Byte) : List Gate :=
  (List.range n).map fun i => ⟨leNat ((bs.drop (8 * i)).take 4), leNat ((bs.drop (8 * i + 4)).take 1)⟩

def gatesRsv (n : Nat) (bs : List Byte) : Bool := (List.range n).any fun i => leNat ((bs.drop (8 * i + 5)).take 3) ≠ 0

/-- R193-R197: GATE_LOAD. -/
def effGateLoad (e : Entry) (port count addr start : Nat) (f id : Nat) (s : State) : State :=
  s.checked f id (pfAdminOnly e ++ ck (8 ≤ port ∨ 1024 < count ∨ s.clk.time + 10 ^ 10 < start) .range) fun s =>
    s.readHostFor f id addr (8 * count) fun bs s =>
      let l := gatesOf count bs
      s.checked f id (ck (gatesRsv count bs ∨ l.any (fun g => g.dur < 10) ∨
          (l ≠ [] ∧ (cycleNs l < 1000 ∨ 10 ^ 9 < cycleNs l))) .range) fun s =>
        let (t, late) := s.takeover port start l
        let s := match (s.port port).pend with
          | some p => s.endOp p.fn p.op .flushed 0 0
          | none => s
        s.modPort port fun x => { x with pend := some ⟨l, t, start, f, id, late⟩ }

def execGateLoad (e : Entry) (port count addr start : Nat) (s : State) : Host.Outcome State Fault Refusal :=
  .next (s.startEntry e 0x180 len1 (.gateLoad e port count addr start) (effGateLoad e port count addr start e.fn.idx))

/-- R193: at T the pending list takes over, anchored at T, and its GATE_LOAD ends OK or LATE with bits 31:0 of T. -/
def State.gateTakeover (s : State) (q : Nat) : State :=
  match (s.port q).pend with
  | none => s
  | some p =>
    if p.at_ ≤ s.clk.time then
      let s := s.modPort q fun x => { x with pend := none, gates := p.list, running := p.list ≠ [], anchor := p.at_, cursor := 0 }
      s.endOp p.fn p.op (if p.late then .late else .ok) 0 (p.at_ % 2 ^ 32)
    else s

def execGateTakeover (port : Fin 8) (now : Nat) (s : State) : Host.Outcome State Fault Refusal :=
  .next ((s.tick now).gateTakeover port.val)

/-- R190: the running list moves to the entry of the present device time. -/
def execGateEntryAdvance (port : Fin 8) (now : Nat) (s : State) : Host.Outcome State Fault Refusal :=
  let s := s.tick now
  .next (if (s.port port.val).running then
      s.modPort port.val fun x => { x with cursor := (gateAt x.gates x.anchor s.clk.time).1 }
    else s)

/-! ### Stops and samples (R198, R199) -/

/-- Packets of the stopped traffic already selected (R198). -/
def State.selectedOf (s : State) (f scope arg : Nat) : Nat :=
  s.ports.foldl (fun n x => n + (x.2.fifo.filter fun e => e.fn = f ∧ e.cls ≠ 7 ∧
    (scope = 2 ∨ (scope = 1 ∧ e.cls = arg) ∨ (scope = 0 ∧ e.conn = some arg))).length) 0

def stopChecks (s : State) (f scope arg : Nat) : List Status :=
  ck (2 < scope) .range ++ ck (scope = 0 ∧ ¬ s.known f arg) .range ++ ck (scope = 1 ∧ 6 < arg) .range ++ ck (scope = 2 ∧ arg ≠ 0) .range

def effQStop (scope arg : Nat) (f id : Nat) (s : State) : State :=
  s.checked f id (stopChecks s f scope arg) fun s =>
    let s := s.modFn f fun x => { x with stops :=
      if scope = 0 then { x.stops with conns := if x.stops.conns.contains arg then x.stops.conns else x.stops.conns ++ [arg] }
      else if scope = 1 then { x.stops with cls := x.stops.cls ||| 2 ^ arg }
      else { x.stops with all := true } }
    (s.stopClocks f).endOp f id .ok 0 (s.selectedOf f scope arg)

/-- R198: Q_STOP. -/
def execQStop (e : Entry) (scope arg : Nat) (s : State) : Host.Outcome State Fault Refusal :=
  .next (s.startEntry e 0x188 len1 (.qStop e scope arg) (effQStop scope arg e.fn.idx))

def effQStart (scope arg : Nat) (f id : Nat) (s : State) : State :=
  s.checked f id (stopChecks s f scope arg) fun s =>
    ((s.modFn f fun x => { x with stops :=
      if scope = 0 then { x.stops with conns := x.stops.conns.filter fun y => y ≠ arg }
      else if scope = 1 then { x.stops with cls := x.stops.cls - (x.stops.cls &&& 2 ^ arg) }
      else { x.stops with all := false } }).stopClocks f).endOp f id .ok 0 0

/-- R198: Q_START. -/
def execQStart (e : Entry) (scope arg : Nat) (s : State) : Host.Outcome State Fault Refusal :=
  .next (s.startEntry e 0x189 len1 (.qStart e scope arg) (effQStart scope arg e.fn.idx))

/-- Bytes waiting in a class queue (R189): connections whose next packet leaves by the port, raw frames, control packets. -/
def State.queueDepth (s : State) (q p c : Nat) : Nat :=
  if c = 7 then (s.port q).ctl.foldl (fun n x => if x.part = p then n + x.pkt.frameLen else n) 0 else
  (s.fn (4 + p)).conns.foldl (fun n x => if x.2.cid.cls = c then
    match x.2.nextCand x.1 with
    | some k => if x.2.cid.pathPort k.path = q then
        n + x.2.tx.sendq.foldl (fun m y => m + (y.len - y.off)) 0 + x.2.tx.sent.foldl (fun m y => if y.lost then m + y.plen else m) 0 else n
    | none => n else n) 0 +
  (s.port q).raws.foldl (fun n r => if r.part = p ∧ r.cls = c then n + r.bytes.length else n) 0

/-- The head of a class queue: its first raw frame, else the next packet of the first connection in round-robin order that has one for the
port. -/
def State.queueHead (s : State) (q p c : Nat) : Option Pick :=
  match (s.port q).raws.find? fun r => r.part = p ∧ r.cls = c with
  | some r => some (.raw r)
  | none => ((s.queueConns q p c).findSome? fun y => match y.2.nextCand y.1 with
      | some k => if y.2.cid.pathPort k.path = q then some k else none
      | none => none).map Pick.conn

/-- A sample of one class queue (R189): depth, the head's delay since it became selectable, its colour, and what it waits for (R199). -/
def State.sampleQ (s : State) (q p c : Nat) : ClsQ :=
  let x := s.clsq (qKey q p c)
  let gate := (s.port q).fifo.any fun e => e.part = p && e.cls = c && e.waited
  if c = 7 then
    match (s.port q).ctl.find? fun y => y.part = p with
    | none => { x with depth := 0, head := 0, col := 3, flags := 0 }
    | some y => { x with depth := s.queueDepth q p 7, head := s.now - y.at_, largest := max x.largest (s.now - y.at_), col := 0, flags := 0 }
  else
    let d := match x.since with | some t => s.now - t | none => 0
    match s.queueHead q p c with
    | none => { x with depth := 0, head := 0, col := 3, flags := bit gate }
    | some k =>
      let credit : Bool := match k with
        | .conn k => let y := s.conn (4 + p) k.conn; decide (y.tx.gwin < y.tx.outCost + k.cost)
        | .raw _ => false
      let stop : Bool := match k with
        | .conn k => (s.conn (4 + p) k.conn).tx.stop || ! s.injects (4 + p) k.conn c
        | .raw r => ! s.injectsCls r.fn c
      { x with depth := s.queueDepth q p c, head := d, largest := max x.largest d, col := s.pickCol q p c k,
               flags := bit gate + 2 * bit credit + 4 * bit stop }

/-- R199: one 16-byte record, of the last sample. -/
def State.sampleRec (s : State) (q p c : Nat) : List Byte :=
  let x := s.clsq (qKey q p c)
  leBytes 4 (min x.depth 0xFFFFFFFF) ++ leBytes 4 (min x.head 0xFFFFFFFF) ++ leBytes 4 (min x.largest 0xFFFFFFFF) ++ leBytes 1 x.col ++
  leBytes 1 x.flags ++ leBytes 2 0

/-- R199: Q_SAMPLE writes 64 records, port-major; ports not granted are zero. The largest delays start again. -/
def effQSample (addr : Nat) (f id : Nat) (s : State) : State :=
  let p := partOf f
  let granted := if isPf f then 0 else (s.part p).cur.ports
  let bs := (List.range 8).flatMap fun q => (List.range 8).flatMap fun c =>
    if granted.testBit q then s.sampleRec q p c else List.replicate 16 0
  s.withHost f id [(addr, 1024, true)] fun s =>
    let s := (bitList 8 granted).foldl (fun s q => (List.range 8).foldl (fun s c =>
      s.modClsq (qKey q p c) fun x => { x with largest := 0 }) s) s
    s.writeRecord f id addr bs 0

def execQSample (e : Entry) (addr : Nat) (s : State) : Host.Outcome State Fault Refusal :=
  .next (s.startEntry e 0x18A len1 (.qSample e addr) (effQSample addr e.fn.idx))

/-- R189: every INTERVAL each class queue is sampled. -/
def State.sampleAll (s : State) : State :=
  if s.now < s.sched.sampleAt + s.sampleNs then s else
    let s := { s with sched := { s.sched with sampleAt := s.now } }
    (List.range 8).foldl (fun s q =>
      let s := s.refreshQueues q
      (List.range 16).foldl (fun s p => (List.range 8).foldl (fun s c =>
        let y := s.sampleQ q p c
        if y = s.clsq (qKey q p c) then s else s.modClsq (qKey q p c) fun _ => y) s) s) s

def execQueueSampleTimer (now : Nat) (s : State) : Host.Outcome State Fault Refusal := .next ((s.tick now).sampleAll)

/-! ### Grants (R173-R180) -/

/-- Connections that take part: ESTABLISHED, REKEY or CLOSING. -/
def State.liveConns (s : State) : List (Nat × Nat × Conn) :=
  s.fns.flatMap fun x => (x.2.conns.filter fun c => c.2.state.live).map fun c => (x.1, c.1, c.2)

/-- Active: a sequenced packet or REQ arrived within the last four intervals (R177). -/
def State.activeConn (s : State) (c : Conn) : Bool :=
  match c.rx.activeAt with
  | some t => decide (s.now ≤ t + 4 * s.gint)
  | none => false

/-- Ingress capacity less the control reserve: at or above it a buffer is full (R179). -/
def State.ingressLimit (s : State) : Nat := 1048576 - s.rsvBytes

/-- What the ingress buffer of a port holds now: no rule gives the rate at which it is emptied, so that is an open value (log 36). -/
def State.ingressHeld (s : State) (q : Nat) : Nat :=
  let x := s.port q
  if s.now ≤ x.ingAt then x.ingress else x.ingress - Config.drained q x.ingAt s.now

/-- R179: whether a frame of a class finds room in the ingress buffer of a port. -/
def State.ingressRoom (s : State) (q cls : Nat) : Bool :=
  if cls = 7 then decide (s.ingressHeld q < 1048576) else decide (s.ingressHeld q < s.ingressLimit)

/-- R178, R179: a frame enters the ingress buffer of a port, or is discarded and counted. -/
def State.ingressTake (s : State) (q cls bytes : Nat) : Bool × State :=
  let n := min 1048576 (s.ingressHeld q + bytes)
  if s.ingressRoom q cls then
    let s := s.modPort q fun x => { x with ingress := n, ingAt := s.now, ingMax := max x.ingMax n, rxFrames := satAdd 0xFFFFFFFF x.rxFrames 1 }
    (true, if s.ingressLimit ≤ n then { s with sched := { s.sched with full := s.sched.full ||| 2 ^ q } } else s)
  else (false, s.modPort q fun x => { x with ingDrop := x.ingDrop + 1 })

/-- Ports whose ingress buffer is full (R179). -/
def State.ingressFull (s : State) : Nat := (List.range 8).foldl (fun n q => n + bit (decide (s.ingressLimit ≤ s.ingressHeld q)) * 2 ^ q) 0

/-- R178: the pool adapts to the most each ingress buffer held in the interval just ended; never below `floor`. -/
def adaptPool (pool top : Nat) (maxes : List Nat) (floor : Nat) : Nat :=
  let p := if maxes.any fun m => 524288 < m then pool / 2
    else if maxes.all fun m => m < 262144 then min top (pool + top / 8) else pool
  max floor p

/-- R177 step 4: GMIN to active connections in round-robin order until the part is spent, 0 to the rest; the part is counted in units of
1/den. Answers grants and where the round-robin stopped. -/
def spendGo (l : List (Nat × Nat × Conn)) (left den : Nat) (acc : List (Nat × Nat × Nat)) (stop : Option Nat) :
    List (Nat × Nat × Nat) × Option Nat :=
  match l with
  | [] => (acc, stop)
  | (f, h, c) :: t =>
    if c.cid.gmin * den ≤ left ∧ stop.isNone then spendGo t (left - c.cid.gmin * den) den (acc ++ [(f, h, c.cid.gmin)]) stop
    else spendGo t left den (acc ++ [(f, h, 0)]) (some (stop.getD h))

/-- The part num/den is smaller than the sum of the GMIN (R177 step 4). -/
def partShort (num den : Nat) (l : List (Nat × Nat × Conn)) : Bool := decide (num < l.foldl (fun n c => n + c.2.2.cid.gmin) 0 * den)

/-- Grants of one class of one partition, whose part is num/den units (R177 steps 3 and 4): (function, handle, window) and the new
round-robin pointer. Only the result is rounded down. -/
def classGrants (num den gmax rr : Nat) (l : List (Nat × Nat × Conn)) : List (Nat × Nat × Nat) × Nat :=
  if partShort num den l then
    let (g, stop) := spendGo ((l.filter fun c => rr ≤ c.2.1) ++ (l.filter fun c => c.2.1 < rr)) num den [] none
    (g, stop.getD rr)
  else (l.map fun c => (c.1, c.2.1, min gmax (max c.2.2.cid.gmin (num / max 1 (den * l.length)))), rr)

/-- R179: STOP of the grant of a connection, by the ports whose buffers have been full in the interval: set where its packets arrive by one
of them, cleared once there is none. -/
def stopOf (full : Nat) (r : ConnRx) : Bool := full ≠ 0 && (r.gstop || full &&& r.ports ≠ 0)

/-- The connections of one class of one partition get their grants (R177 steps 3 and 4). What the class spent of a part too small for
every GMIN adds to the second component. -/
def State.grantClass (s : State) (f num den c : Nat) (mine : List (Nat × Nat × Conn)) (acc : State × Nat) : State × Nat :=
  let l := mine.filter fun x => x.2.2.cid.cls = c
  let key := 1024 + 8 * partOf f + c
  let r := classGrants num den s.gmax (agetD s.sched.rr key 0) l
  let st := { acc.1 with sched := { acc.1.sched with rr := aset acc.1.sched.rr key r.2 } }
  (r.1.foldl (fun st x => st.setGrant x.1 x.2.1 x.2.2 (stopOf s.sched.full (s.conn x.1 x.2.1).rx)) st,
   if partShort num den l then acc.2 + r.1.foldl (fun n x => n + x.2.2) 0 else acc.2)

/-- A partition's share of the pool, divided among the classes of its active connections (R177 steps 1 and 2). -/
def State.grantPart (s : State) (pool wsum : Nat) (act : List (Nat × Nat × Conn)) (acc : State × Nat) (f : Nat) : State × Nat :=
  let mine := act.filter fun c => c.1 = f
  let classes := (mine.map fun c => c.2.2.cid.cls).eraseDups
  let csum := classes.foldl (fun n c => n + s.cwSum (partOf f) c) 0
  classes.foldl (fun acc c => s.grantClass f (pool * (s.part (partOf f)).cur.weight * s.cwSum (partOf f) c) (max 1 wsum * max 1 csum) c mine acc) acc

/-- R177, R178: the division of the pool among active connections. -/
def State.grantInterval (s : State) : State :=
  if s.now < s.sched.grantAt + s.gint then s else
    let s := { s with sched := { s.sched with full := s.sched.full ||| s.ingressFull } }
    let live := s.liveConns
    let act := live.filter fun c => s.activeConn c.2.2
    let idle := live.filter fun c => ¬ s.activeConn c.2.2
    let pool := adaptPool s.sched.pool s.credPool ((List.range 8).map fun q => max (s.port q).ingMax (s.ingressHeld q)) 0
    let parts := (act.map fun c => c.1).eraseDups
    let wsum := parts.foldl (fun n f => n + (s.part (partOf f)).cur.weight) 0
    let r := parts.foldl (s.grantPart pool wsum act) (s, 0)
    let t := idle.foldl (fun t c => t.setGrant c.1 c.2.1 (min c.2.2.rx.gwin (max t.ginit c.2.2.cid.gmin)) (stopOf s.sched.full c.2.2.rx)) r.1
    { t with sched := { t.sched with pool := max r.2 pool, grantAt := t.now, full := s.ingressFull },
             ports := t.ports.map fun x => (x.1, { x.2 with ingMax := s.ingressHeld x.1 }) }

def execGrantInterval (now : Nat) (s : State) : Host.Outcome State Fault Refusal := .next ((s.tick now).grantInterval)

/-- R176: 8 µs with a change not yet sent, the receiver sends a CREDIT. -/
def execCreditChangeTimer (fn : Fn) (conn now : Nat) (s : State) : Host.Outcome State Fault Refusal :=
  let s := s.tick now
  let c := s.conn fn.idx conn
  .next (match c.rx.changeAt with
    | some t => if c.state.live ∧ t + 8000 ≤ s.now then s.sendCredit fn.idx conn else s
    | none => s)

/-- R176: a sender whose GWIN is less than the cost of its next packet, and that has had no grant for 8 µs, sends a REQ, at most one
each 8 µs. -/
def State.creditReq (s : State) (f h : Nat) : State :=
  let c := s.conn f h
  match c.nextCand h with
  | none => s
  | some k =>
    if c.state.live ∧ c.tx.gwin < k.cost ∧ c.tx.grantAt + 8000 ≤ s.now ∧ c.tx.reqAt + 8000 ≤ s.now then
      let s := s.sendCtl f h c.turnPath (.credit ⟨0, 0, false⟩ (min 0xFFFFFFFF (c.tx.backlog (pmtuBytes c.cid.pmtu))) true)
      s.modConn f h fun c => { c with tx := { c.tx with reqAt := s.now } }
    else s

def execCreditReqTimer (fn : Fn) (conn now : Nat) (s : State) : Host.Outcome State Fault Refusal :=
  .next ((s.tick now).creditReq fn.idx conn)

end Sys2Proof.Machine
end

