-- ==== Sys2Proof/Machine/Tpf.lean ====
section
/-!
DEFINITION. Tpf.lean: the instructions of Totre Program Form. A command names a copy; the instruction is the one at the copy's
position, and a command of another opcode, or to a copy that cannot issue now, changes nothing (R292-R302, R314-R315).
-/

namespace Sys2Proof.Machine

/-! ### Tile contents (R211, R290) -/

/-- The element of a tile at a row and column. -/
def TileDecl.at_ (d : TileDecl) (r c : Nat) : Nat := r * d.cols + c

/-- The scale of an element's block. -/
def TileDecl.block (d : TileDecl) (i : Nat) : Nat := i / d.cols * ceilDiv d.cols 32 + i % d.cols / 32

/-- A tile of zeros. -/
def TileDecl.zero (d : TileDecl) : Tile :=
  ⟨List.replicate (d.rows * d.cols) (some 0), if fmtMx d.fmt then List.replicate (d.rows * ceilDiv d.cols 32) (some 0) else []⟩

/-- A tile read from bytes, rows one after another at a pitch. -/
def TileDecl.ofBytes (d : TileDecl) (pitch : Nat) (bs : List Byte) : Tile :=
  let row := fun (r : Nat) => (bs.drop (r * pitch)).take d.rowBytes
  if fmtMx d.fmt then
    let l := (List.range d.rows).map fun r => mxParse d.fmt d.cols (row r)
    ⟨(l.flatMap (·.2)).map some, (l.flatMap (·.1)).map some⟩
  else ⟨((List.range d.rows).flatMap fun r => codesOf d.fmt d.cols (row r)).map some, []⟩

/-- The bytes of a tile, rows one after another; a poisoned element writes nothing of its own (it is never sent). -/
def TileDecl.toBytes (d : TileDecl) (t : Tile) : List Byte :=
  (List.range d.rows).flatMap fun r =>
    let el := ((t.data.drop (r * d.cols)).take d.cols).map fun x => x.getD 0
    if fmtMx d.fmt then
      mxBytes d.fmt (((t.scales.drop (r * ceilDiv d.cols 32)).take (ceilDiv d.cols 32)).map fun x => x.getD 0) el
    else bytesOf d.fmt el

/-- The byte offset of the first poisoned element of a tile. -/
def TileDecl.firstBad (d : TileDecl) (t : Tile) : Option Nat :=
  let bad := fun (i : Nat) => (t.data.getD i none).isNone || (fmtMx d.fmt && (t.scales.getD (d.block i) none).isNone)
  ((List.range (d.rows * d.cols)).find? bad).map fun i => i / d.cols * d.rowBytes + tensorBytes d.fmt (i % d.cols) / 64 * 64

/-- The bytes of a tile up to its first poisoned granule. -/
def TileDecl.sendable (d : TileDecl) (t : Tile) : List Byte :=
  match d.firstBad t with
  | some n => (d.toBytes t).take n
  | none => d.toBytes t

/-- Put received bytes over the first bytes of a tile; elements beyond them stay. -/
def TileDecl.overlay (d : TileDecl) (t : Tile) (bs : List Byte) : Tile :=
  let u := d.ofBytes d.rowBytes (bs ++ (d.toBytes t).drop bs.length)
  let covered := fun (i : Nat) => i / d.cols * d.rowBytes + tensorBytes d.fmt (i % d.cols) < bs.length
  ⟨(List.range (d.rows * d.cols)).map fun i => if covered i then u.data.getD i none else t.data.getD i none,
   if fmtMx d.fmt then (List.range (d.rows * ceilDiv d.cols 32)).map (fun k =>
     if k / ceilDiv d.cols 32 * d.rowBytes < bs.length then u.scales.getD k none else t.scales.getD k none) else []⟩

/-- An element exactly, with whether its own code was NaN; none is poison (R208, R214). -/
def TileDecl.exact (d : TileDecl) (t : Tile) (i : Nat) : Option (Num × Bool) :=
  match t.data.getD i none with
  | none => none
  | some c =>
    if fmtMx d.fmt then
      match t.scales.getD (d.block i) none with
      | none => none
      | some sc => some (decMx d.fmt sc c, ((fltOf d.fmt).decode c).isNan)
    else some (decNum d.fmt c, (decNum d.fmt c).isNan)

/-- An element as the vector unit loads it: FP32 for MX (R205, R216). -/
def TileDecl.load (d : TileDecl) (t : Tile) (i : Nat) : Option Num × Exc :=
  match t.data.getD i none with
  | none => (none, {})
  | some c =>
    if fmtMx d.fmt then
      match t.scales.getD (d.block i) none with
      | none => (none, {})
      | some sc => let (v, x) := deqMx d.fmt sc c; (some v, x)
    else (some (decNum d.fmt c), {})

/-- A tile of a scalar format from element values, each rounded once (R299). -/
def tileOf (fmt : Nat) (sat : Bool) (l : List (Option Num × Exc)) : Tile × Exc :=
  let one := fun (x : Option Num × Exc) => match x.1 with
    | none => ((none : Option Nat), x.2)
    | some v => let (c, e) := encNum fmt sat v; (some c, x.2.add e)
  let m := l.map one
  (⟨m.map (·.1), []⟩, Exc.sum (m.map (·.2)))

/-! ### Tile instructions (R297-R299) -/

/-- One element of a matrix product, over K in ascending steps (R298). -/
def mmaElem (int : Bool) (old : Option Num) (steps : List (List (Option (Num × Bool) × Option (Num × Bool)))) : Option Num × Exc :=
  steps.foldl (fun (acc : Option Num × Exc) st =>
    let ps := st.filterMap fun p => match p.1, p.2 with
      | some x, some y => some (x, y)
      | _, _ => none
    match acc.1 with
    | none => acc
    | some o =>
      if ps.length ≠ st.length then (none, acc.2)
      else
        let prods := ps.map fun p => (p.1.1, p.2.1)
        let (v, e) := if int then stepInt o prods else stepFp o prods (ps.any fun p => p.1.2 || p.2.2)
        (some v, acc.2.add e)) (old, {})

/-- R298: MMA. -/
def mma (da db dc : TileDecl) (ta tb tc : Tile) (zero : Bool) : Tile × Exc :=
  let k := (rateK db.fmt dc.fmt).getD 1
  let row := fun (d : TileDecl) (t : Tile) (r : Nat) => (List.range d.cols).map fun c => d.exact t (d.at_ r c)
  tileOf da.fmt true ((List.range (da.rows * da.cols)).map fun i =>
    let old := if zero then some Num.zero else (da.exact ta i).map (·.1)
    mmaElem (db.fmt = 5) old (chunks k ((row db tb (i / da.cols)).zip (row dc tc (i % da.cols)))))

/-- NaN made from inputs that are not NaN (R233). -/
def madeNan (v : Num) (inp : List Num) : Exc := { nan := bit (v.isNan && inp.all fun x => ¬ x.isNan) }

/-- One element of VOP (R299). -/
def vopElem (int : Bool) (op : Nat) (a b c : Num) : Num × Exc :=
  if op = 3 then (b.max c, {}) else if op = 4 then (b.min c, {})
  else if int then
    let v : Int := if op = 0 then b.toInt + c.toInt else if op = 1 then b.toInt - c.toInt else if op = 2 then b.toInt * c.toInt
      else ((bitOp (op - 3) (unsignedOf 32 b.toInt) (unsignedOf 32 c.toInt) : Nat) : Int)
    (.ofInt (signedOf 32 (unsignedOf 32 v)), {})
  else
    let v := if op = 0 then b.sum c else if op = 1 then b.sum c.neg else if op = 2 then b.mul c else (b.mul c).sum a
    (v, madeNan v (if op = 5 then [a, b, c] else [b, c]))

/-- R299: VOP. `imm` is the FP32 operand of BC = 3. -/
def vop (da db dc : TileDecl) (ta tb tc : Tile) (fl : Nat) (imm : Num) : Tile × Exc :=
  let bc := fl / 16 % 4
  tileOf da.fmt (fl.testBit 6) ((List.range (da.rows * da.cols)).map fun i =>
    let x := da.load ta i
    let y := db.load tb i
    let z := if bc = 3 then (some imm, {}) else dc.load tc (if bc = 0 then i else if bc = 1 then i / da.cols else i % da.cols)
    match (if fl % 16 = 5 then x.1 else some Num.zero), y.1, z.1 with
    | some a, some b, some c =>
      let (v, e) := vopElem (fmtInt da.fmt) (fl % 16) a b c
      (some v, (y.2.add z.2).add e)
    | _, _, _ => (none, y.2.add z.2))

/-- R299: VFN. -/
def vfn (da db : TileDecl) (tb : Tile) (fl imm : Nat) : Tile × Exc :=
  let f := fl % 16
  let k := decNum 0 imm
  tileOf da.fmt (fl.testBit 6) ((List.range (da.rows * da.cols)).map fun i =>
    let y := db.load tb i
    match y.1 with
    | none => (none, y.2)
    | some v =>
      let w := if f < 4 then vecFn f v else (if f = 4 then v.neg else if f = 5 then v.abs else if f = 6 then v.mul k else v.sum k, {})
      (some w.1, (y.2.add w.2).add (madeNan w.1 [v, k])))

/-- R299: one row of VRED. -/
def vredRow (int exact : Bool) (op : Nat) (l : List (Option (Num × Bool))) : Option Num × Exc :=
  let vs := l.filterMap id
  if vs.length ≠ l.length then (none, {})
  else
    let xs := vs.map (·.1)
    match xs with
    | [] => (some .zero, {})
    | x :: t =>
      if op = 1 then (some (t.foldl Num.max x), {})
      else if op = 2 then (some (t.foldl Num.min x), {})
      else if int then
        let (v, e) := foldRepro 0 6 xs
        (some v, e)
      else if exact then
        let v := (xs.foldl Exact.addNum {}).toNum
        (some v, { nan := bit (v.isNan && vs.all fun x => ! x.2) })
      else
        let (v, e) := foldRepro 0 0 xs
        (some v, e)

def vred (da db : TileDecl) (tb : Tile) (fl : Nat) : Tile × Exc :=
  let ex := fl.testBit 2 && fl % 4 = 0
  tileOf da.fmt (fl.testBit 6) ((List.range da.rows).map fun r =>
    let l := (List.range db.cols).map fun c =>
      if ex then db.exact tb (db.at_ r c) else (db.load tb (db.at_ r c)).1.map fun v => (v, v.isNan)
    let (v, e) := vredRow (fmtInt db.fmt) ex (fl % 4) l
    (v, ((List.range db.cols).map fun c => if ex then {} else (db.load tb (db.at_ r c)).2).foldl Exc.add e))

/-- One block of QUANT or of a conversion to MX: scale, codes, new residuals; poison anywhere poisons the block (R208, R229). -/
def quantOpt (fmt : Nat) (l : List (Option Num)) : Option QBlock :=
  let vs := l.filterMap id
  if vs.length ≠ l.length then none else some (quantBlock fmt vs)

/-- An MX tile from rows of values, with the residual tile's new codes. -/
def mxTile (fmt : Nat) (rows : List (List (Option Num))) : Tile × List (Option Nat) × Exc :=
  let bl := rows.flatMap fun r => (chunks 32 r).map fun b => (b.length, quantOpt fmt b)
  let codes := bl.flatMap fun x => match x.2 with | some q => q.codes.map some | none => List.replicate x.1 none
  let res := bl.flatMap fun x => match x.2 with | some q => q.res.map some | none => List.replicate x.1 none
  (⟨codes, bl.map fun x => x.2.map (·.scale)⟩, res, Exc.sum (bl.filterMap fun x => x.2.map (·.exc)))

/-- R297: TCOPY. Conversion to MX chooses scales as in R229 with no residual. -/
def tcopy (da db : TileDecl) (tb : Tile) (sat : Bool) : Tile × Exc :=
  let l := (List.range (da.rows * da.cols)).map (db.load tb)
  if fmtMx da.fmt then
    let (t, _, e) := mxTile da.fmt (chunks da.cols (l.map (·.1)))
    (t, e.add (Exc.sum (l.map (·.2))))
  else tileOf da.fmt sat l

/-- R299: QUANT. Answers the tile, the residual tile and its counts. -/
def quant (da db dc : TileDecl) (tb tc : Tile) (noef : Bool) : Tile × Tile × Exc :=
  let v := (List.range (da.rows * da.cols)).map fun i =>
    match (db.load tb i).1, (if noef then some Num.zero else (dc.load tc i).1) with
    | some x, some r =>
      let y := if noef then fp32 x else fp32 (x.add r)
      (some y.1, y.2)
    | _, _ => (none, {})
  let (t, r, e) := mxTile da.fmt (chunks da.cols (v.map (·.1)))
  (t, ⟨r, []⟩, e.add (Exc.sum (v.map (·.2))))

/-! ### Counting (R233, R296 EXC) -/

def wrap48 (n : Nat) : Nat := n % 2 ^ 48

/-- Change the counters of an ibex block; those of a power-gated domain keep their values (R233). -/
def State.modIbex (s : State) (b : Nat) (g : IbexCnt → IbexCnt) : State :=
  if (s.dom (regionOf b)).powered then { s with ibex := amod s.ibex b {} g } else s

/-- Count exceptions on an ibex block (R233). -/
def State.countExc (s : State) (b : Nat) (x : Exc) : State :=
  s.modIbex b fun c => { c with nanMade := wrap48 (c.nanMade + x.nan), overflow := wrap48 (c.overflow + x.ovf),
                                saturated := wrap48 (c.saturated + x.sat), intWrap := wrap48 (c.intWrap + x.wrap),
                                qnanBlk := wrap48 (c.qnanBlk + x.qnan) }

/-- A copy's sticky flags that counts raise (R296). -/
def Exc.flags (x : Exc) : Nat := bit (decide (x.nan ≠ 0)) + 2 * bit (decide (x.ovf ≠ 0)) + 4 * bit (decide (x.sat ≠ 0)) + 8 * bit (decide (x.wrap ≠ 0))

/-! ### Issuing an instruction (R292, R293) -/

/-- Where an instruction issues. -/
structure Ctx where
  f    : Nat
  li   : Nat
  ci   : Nat
  l    : Launch
  p    : Prog
  c    : Copy
  x    : Insn
  deriving DecidableEq, Repr

/-- Register A as the instruction sees it. -/
def Ctx.reg (k : Ctx) (i : Nat) : Nat := agetD k.c.regs i 0

/-- Addresses, tags and thresholds are computed modulo 2^64 (DEDUCED, log 22). -/
def w64 (n : Nat) : Nat := n % 2 ^ 64

/-- The tally that a slot denotes in this copy (R302). -/
def Ctx.slot (k : Ctx) (i : Nat) : Nat := k.l.slots.getD (k.ci * k.p.nslot + i) 0

def Ctx.decl (k : Ctx) (i : Nat) : TileDecl := k.p.tiles.getD i ⟨0, 1, 1, none⟩

/-- A RECV of a copy has matched its message: nothing posted waits for it any more (R310). -/
def State.matchedRecv (s : State) (f li ci : Nat) (a : Async) : Bool :=
  if a.peer.isSome then a.got.isSome
  else ! (s.fn f).mlists.any fun m => m.2.posted.any fun p => match p.to_ with | .prog l c o => l = li && c = ci && o = a.id | _ => false

/-- The launch becomes STOPPING: posted receives are withdrawn but for those whose message has matched, outstanding operations raise no slot,
and PEER messages that no receive has matched are dropped (R310; DEDUCED, log 23). -/
def State.stopLaunch (s : State) (f li : Nat) : State :=
  let hold := s.matchedRecv f li
  let s := s.modFn f fun x => { x with mlists := x.mlists.map fun m => (m.1, { m.2 with posted := m.2.posted.filter fun p =>
    match p.to_ with | .prog l _ _ => l ≠ li | _ => true }) }
  s.modLaunch f li fun l =>
    let keep := fun (ci : Nat) (a : Async) =>
      if a.op = 0x31 then hold ci a else ¬ (decide (a.op = 0x30) && a.peer.isSome && a.status.isNone)
    let one := fun (ci : Nat) (c : Copy) => { c with peerQ := [], ops := (c.ops.filter (keep ci)).map fun a => { a with slot := none } }
    { l with state := .stopping, copies := l.copies.map fun c => (c.1, one c.1 c.2) }

/-- A copy faults (R312): the first fault to reach the launch logic decides the status and DETAIL. -/
def State.faultCopy (s : State) (f li ci insn : Nat) (st : Status) : State :=
  let l := s.launch f li
  if l.state = .running ∨ l.state = .starting then
    (s.modLaunch f li fun l => { l with fault := some (st, insn % 2 ^ 16 + 2 ^ 16 * ci) }).stopLaunch f li
  else s

/-- A copy may issue its next instruction: its launch is RUNNING, it has its block in a live region and is not parking (R310). -/
def Copy.issues (c : Copy) (s : State) : Bool :=
  (c.st = .running || c.st = .waiting) && (match c.block with | some b => s.regionLive (regionOf b) | none => false)

/-- The native code of a program, what the code area holds besides the constants, has a poisoned line (R307, R491). -/
def State.codeBad (s : State) (f : Nat) (p : Prog) : Bool :=
  let z := p.constOff + p.cpoolLen
  (s.locPoison f true p.codeOff (p.constOff - p.codeOff)).isSome || (s.locPoison f true z (p.codeOff + p.codeLen - z)).isSome

/-- Constants of a program, read from its code area (R307). -/
def State.consts (s : State) (f : Nat) (p : Prog) (at_ n : Nat) : List Byte := s.sliceRead f (p.constOff + at_) n

/-- Poison in constants of a program. -/
def State.constBad (s : State) (f : Nat) (p : Prog) (at_ n : Nat) : Option Nat := s.locPoison f true (p.constOff + at_) n

/-- Issue the instruction at a copy's position if its opcode is this one. With poison in the code area, whether this fetch meets it is
open (DEDUCED, log 24); it then traps and the copy faults POISON (R312, R491). -/
def State.tpf (s : State) (r : CopyRef) (op : Nat) (act : Ctx → State → State) : State :=
  let f := r.fn.idx
  match aget (s.fn f).launches r.launch with
  | none => s
  | some l =>
    match aget l.copies r.copy, aget (s.fn f).progs l.handle with
    | some c, some p =>
      if l.state = .running ∧ c.issues s ∧ ¬ (s.fn f).resetting then
        match p.insns[c.pc]? with
        | none => s
        | some x =>
          if x.op ≠ op then s
          else if s.codeBad f p ∧ s.openPick 0 then
            ((s.bump).faultCopy f r.launch r.copy c.pc .poison).report (c.block.getD 0) 0xFF 0x40 (r.launch + 2 ^ 8 * r.copy)
          else act ⟨f, r.launch, r.copy, l, p, c, x⟩ (if s.codeBad f p then s.bump else s)
      else s
    | _, _ => s

/-- The instruction has issued: the copy moves on, changed as given. -/
def State.retire (s : State) (k : Ctx) (g : Copy → Copy) : State :=
  (s.modLaunch k.f k.li fun l => { l with retired := satAdd (2 ^ 64 - 1) l.retired 1 }).modCopy k.f k.li k.ci fun c =>
    g { c with pc := c.pc + 1, st := .running }

/-- The copy waits at the instruction. -/
def State.hold (s : State) (k : Ctx) : State := s.modCopy k.f k.li k.ci fun c => { c with st := .waiting }

/-- The copy faults at the instruction. -/
def State.trap (s : State) (k : Ctx) (st : Status) : State := s.faultCopy k.f k.li k.ci k.c.pc st

/-- Set register A and move on. -/
def State.setX (s : State) (k : Ctx) (v : Nat) : State := s.retire k fun c => { c with regs := aset c.regs k.x.a (w64 v) }

/-! ### Tiles of a copy, and operations that are outstanding on them (R294) -/

/-- Per element, the old or the new value. -/
def mixTile (s : State) (a b : Tile) : Tile :=
  let mix := fun (off : Nat) (x y : List (Option Nat)) =>
    (List.range (max x.length y.length)).map fun i => if x.getD i none = y.getD i none then x.getD i none
      else if s.openPick (off + i) then x.getD i none else y.getD i none
  ⟨mix 0 a.data b.data, mix a.data.length a.scales b.scales⟩

/-- What an outstanding TLOAD or RECV would put into its tile now, if it is known. -/
def State.incoming (s : State) (k : Ctx) (a : Async) (t : Tile) : Option Tile :=
  let d := k.decl a.tile
  if a.op = 0x20 then
    if a.const then some (d.ofBytes d.rowPitch (s.consts k.f k.p a.addr d.foot))
    else some (d.ofBytes d.rowBytes ((List.range d.rows).flatMap fun r => s.locRead k.f a.slice (a.addr + r * a.pitch) d.rowBytes))
  else a.got.map fun bs => d.overlay t bs

/-- A tile as the program reads it: while an operation that writes it is outstanding, each element is the old or the new value. -/
def State.tile (s : State) (k : Ctx) (i : Nat) : Tile :=
  let t := agetD k.c.tiles i (k.decl i).zero
  match k.c.ops.find? fun a => a.tile = i ∧ (a.op = 0x20 ∨ a.op = 0x31) with
  | none => t
  | some a => match s.incoming k a t with
    | some u => mixTile s t u
    | none => t

/-- A tile changes: operations that still read it read the old or the new value of each element. -/
def State.tilePut (s : State) (f li ci : Nat) (d : TileDecl) (i : Nat) (t : Tile) : State :=
  let hit := (s.copy f li ci).ops.filter fun a => a.tile = i
  let s' := s.modCopy f li ci fun c =>
    { c with tiles := aset c.tiles i t,
             ops := c.ops.map fun a => if a.tile ≠ i then a
               else if a.op = 0x21 ∨ a.op = 0x30 then { a with snap := mixTile s a.snap t } else { a with hit := true } }
  if hit = [] then s' else
    let redo := fun (a : Async) (m : SendMsg) =>
      if m.for_ = .prog li ci a.id then { m with src := .bytes (d.sendable (mixTile s a.snap t)) } else m
    (hit.foldl (fun (st : State) a => match a.conn with
      | none => st
      | some h => st.modConn f h fun c => { c with tx := { c.tx with sendq := c.tx.sendq.map (redo a) } }) s').bump

/-- The program writes a tile. -/
def State.putTile (s : State) (k : Ctx) (i : Nat) (t : Tile) : State := s.tilePut k.f k.li k.ci (k.decl i) i t

/-! ### Poison in local memory (R208) -/

/-- Where an element and a scale lie in their row, in bits (R211, R290). -/
def elemBit (fmt c : Nat) : Nat := if fmtMx fmt then 8 * (c / 256 * mxGroup fmt + 8) + c % 256 * fmtBits fmt else c * fmtBits fmt
def scaleBit (fmt b : Nat) : Nat := 8 * (b / 8 * mxGroup fmt + b % 8)

/-- Word w of a tile's local footprint is poisoned: every element and scale that it holds. -/
def TileDecl.poisonWord (d : TileDecl) (t : Tile) (w : Nat) : Tile :=
  let r := 8 * w / max 1 d.rowPitch
  let lo := 64 * w - 8 * r * d.rowPitch
  let hit := fun (row at_ n : Nat) => row = r && decide (at_ < lo + 64 ∧ lo < at_ + n)
  let nb := max 1 (ceilDiv d.cols 32)
  ⟨(List.range t.data.length).map fun i =>
     if hit (i / max 1 d.cols) (elemBit d.fmt (i % max 1 d.cols)) (fmtBits d.fmt) then none else t.data.getD i none,
   (List.range t.scales.length).map fun k => if hit (k / nb) (scaleBit d.fmt (k % nb)) 8 then none else t.scales.getD k none⟩

/-- The tile that holds word n of the tiles' footprints taken one after another, and the word in it. -/
def tileWord (l : List TileDecl) (i n : Nat) : Option (Nat × Nat) :=
  match l with
  | [] => none
  | d :: t => if n < d.foot / 8 then some (i, n) else tileWord t (i + 1) (n - d.foot / 8)

/-- A word of the local memory of a copy's block is poisoned. The loader places tiles where it will: which tile's word it is, or none's, is
open. -/
def State.poisonCopy (s : State) (f li ci : Nat) : State :=
  match aget (s.fn f).progs (s.launch f li).handle with
  | none => s
  | some p =>
    let n := s.freeVal % (footSum p.tiles / 8 + 1)
    let s := s.bump
    match tileWord p.tiles 0 n with
    | none => s
    | some (i, w) =>
      let d := p.tiles.getD i ⟨0, 1, 1, none⟩
      s.tilePut f li ci d i (d.poisonWord (agetD (s.copy f li ci).tiles i d.zero) w)

/-- Finish a tile instruction: the tile, the counts, the sticky flags. -/
def State.tileDone (s : State) (k : Ctx) (t : Tile) (e : Exc) : State :=
  let s := if k.c.ops = [] then s else s.bump
  ((s.putTile k k.x.a t).countExc (k.c.block.getD 0) e).retire k fun c => { c with exc := c.exc ||| e.flags }

/-! ### The instructions (R296) -/

/-- NOP. -/
def execTpfNop (r : CopyRef) (s : State) : Host.Outcome State Fault Refusal := .next (s.tpf r 0x00 fun k s => s.retire k id)

/-- Operations an END or a save waits for (R293, R315). -/
def Copy.busy (c : Copy) : Bool := c.ops.any fun a => a.op ≠ 0x31

/-- END waits for outstanding operations, withdraws posted receives, and ends the copy; when every copy has ended, the launch is ENDING. A
receive whose message has matched stays until the message is placed (R310). -/
def tpfEnd (k : Ctx) (s : State) : State :=
  if k.c.busy then s.hold k else
    let hold := s.matchedRecv k.f k.li k.ci
    let s := s.retire k fun c => { c with st := .done, endCode := k.x.aux, preempt := none,
                                          ops := (c.ops.filter hold).map fun a => { a with slot := none } }
    let s := s.modFn k.f fun x => { x with mlists := x.mlists.map fun m => (m.1, { m.2 with posted := m.2.posted.filter fun p =>
      match p.to_ with | .prog l c _ => ¬ (l = k.li ∧ c = k.ci) | _ => true }) }
    s.modLaunch k.f k.li fun l => { l with state := if l.copies.all (fun c => c.2.st = .done) then .ending else l.state }

def execTpfEnd (r : CopyRef) (s : State) : Host.Outcome State Fault Refusal := .next (s.tpf r 0x01 tpfEnd)

/-- Jump to an instruction. -/
def State.jump (s : State) (k : Ctx) (g : Copy → Copy) : State := s.retire k fun c => { g c with pc := k.x.imm }

def execTpfJmp (r : CopyRef) (s : State) : Host.Outcome State Fault Refusal := .next (s.tpf r 0x02 fun k s => s.jump k id)

/-- Conditions of BR. -/
def brCond (cond x y : Nat) : Bool :=
  if cond = 0 then x = y else if cond = 1 then x ≠ y else if cond = 2 then x < y else if cond = 3 then y ≤ x
  else if cond = 4 then signedOf 64 x < signedOf 64 y else signedOf 64 y ≤ signedOf 64 x

def execTpfBr (r : CopyRef) (s : State) : Host.Outcome State Fault Refusal :=
  .next (s.tpf r 0x03 fun k s => if brCond (k.x.fl % 8) (k.reg k.x.a) (k.reg k.x.b) then s.jump k id else s.retire k id)

def execTpfLoop (r : CopyRef) (s : State) : Host.Outcome State Fault Refusal :=
  .next (s.tpf r 0x04 fun k s =>
    let v := w64 (k.reg k.x.a + (2 ^ 64 - 1))
    let g := fun (c : Copy) => { c with regs := aset c.regs k.x.a v }
    if v ≠ 0 then s.jump k g else s.retire k g)

/-- SAFEPOINT (R314, R315): a pending pre-emption request parks the copy here; else it waits as WAIT says. -/
def tpfSafepoint (k : Ctx) (s : State) : State :=
  let wait := k.x.fl.testBit 0
  if k.c.preempt.isSome then
    if wait then s.modCopy k.f k.li k.ci fun c => { c with st := .parking } else s.retire k fun c => { c with st := .parking }
  else if wait ∧ s.tallyCount k.f (k.slot k.x.a) < w64 (k.reg k.x.b + k.x.imm) then s.hold k
  else s.retire k id

def execTpfSafepoint (r : CopyRef) (s : State) : Host.Outcome State Fault Refusal := .next (s.tpf r 0x05 tpfSafepoint)

def execTpfMovi (r : CopyRef) (s : State) : Host.Outcome State Fault Refusal := .next (s.tpf r 0x10 fun k s => s.setX k k.x.imm)

/-- Operations of ALU, modulo 2^64. -/
def aluOp (op x y : Nat) : Nat :=
  let sh := y % 64
  if op = 0 then w64 (x + y) else if op = 1 then w64 (x + 2 ^ 64 - y) else if op = 2 then w64 (x * y) else if op = 3 then x &&& y
  else if op = 4 then x ||| y else if op = 5 then x ^^^ y else if op = 6 then w64 (x * 2 ^ sh) else if op = 7 then x / 2 ^ sh
  else if op = 8 then unsignedOf 64 (signedOf 64 x / ((2 ^ sh : Nat) : Int)) else if op = 9 then min x y else max x y

def execTpfAlu (r : CopyRef) (s : State) : Host.Outcome State Fault Refusal :=
  .next (s.tpf r 0x11 fun k s => s.setX k (aluOp (k.x.fl % 16) (k.reg k.x.b) (if k.x.fl.testBit 7 then k.x.imm else k.reg k.x.c)))

def execTpfArg (r : CopyRef) (s : State) : Host.Outcome State Fault Refusal :=
  .next (s.tpf r 0x12 fun k s => s.setX k (k.l.args.getD k.x.b 0))

def execTpfId (r : CopyRef) (s : State) : Host.Outcome State Fault Refusal :=
  .next (s.tpf r 0x13 fun k s => s.setX k
    (if k.x.b = 0 then k.ci else if k.x.b = 1 then k.l.copies.length else if k.x.b = 2 then k.c.block.getD 0 else (s.fn k.f).gen))

def execTpfTime (r : CopyRef) (s : State) : Host.Outcome State Fault Refusal := .next (s.tpf r 0x14 fun k s => s.setX k s.clk.time)

def execTpfExc (r : CopyRef) (s : State) : Host.Outcome State Fault Refusal :=
  .next (s.tpf r 0x15 fun k s => s.retire k fun c =>
    { c with regs := aset c.regs k.x.a c.exc, exc := if k.x.fl.testBit 0 then 0 else c.exc })

def execTpfTread (r : CopyRef) (s : State) : Host.Outcome State Fault Refusal :=
  .next (s.tpf r 0x16 fun k s => s.setX k (s.tallyCount k.f (k.slot k.x.b)))

/-! ### Tile loads and stores (R293, R296, R297) -/

/-- TLOAD, TSTORE and SEND outstanding (R293). -/
def Copy.outstanding (c : Copy) : Nat := (c.ops.filter fun a => a.op ≠ 0x31).length
def Copy.receives (c : Copy) : Nat := (c.ops.filter fun a => a.op = 0x31).length

/-- Issue an asynchronous operation. -/
def State.issueAsync (s : State) (k : Ctx) (a : Async) : State :=
  let s := if k.c.ops = [] then s else s.bump
  s.retire k fun c => { c with ops := c.ops ++ [{ a with id := c.nextOp }], nextOp := c.nextOp + 1 }

/-- The tally that the operation raises: TEN. -/
def Ctx.ten (k : Ctx) : Option Nat := if k.x.fl.testBit 7 then some (k.slot k.x.d) else none

/-- TLOAD and TSTORE: the address and pitch must be multiples of 64 and the pitch no less than the row bytes (R297). A constant source has
the tile layout of INIT (DEDUCED, log 22). -/
def tpfMove (op : Nat) (k : Ctx) (s : State) : State :=
  if 32 ≤ k.c.outstanding then s.hold k else
    let d := k.decl k.x.a
    let const := op = 0x20 && k.x.fl.testBit 1
    let addr := if const then k.x.imm else w64 (k.reg k.x.b + k.x.imm)
    let pitch := if const then d.rowPitch else if k.reg k.x.c = 0 then d.rowBytes else k.reg k.x.c
    if addr % 64 ≠ 0 ∨ pitch % 64 ≠ 0 ∨ pitch < d.rowBytes then s.trap k .range
    else s.issueAsync k { id := 0, insn := k.c.pc, op := op, tile := k.x.a, slot := k.ten, slice := k.x.fl.testBit 0, const := const,
                          addr := addr, pitch := pitch, bytes := d.bytes, snap := if op = 0x21 then s.tile k k.x.a else ⟨[], []⟩ }

def execTpfTload (r : CopyRef) (s : State) : Host.Outcome State Fault Refusal := .next (s.tpf r 0x20 (tpfMove 0x20))
def execTpfTstore (r : CopyRef) (s : State) : Host.Outcome State Fault Refusal := .next (s.tpf r 0x21 (tpfMove 0x21))

/-! ### Tile arithmetic -/

def execTpfTcopy (r : CopyRef) (s : State) : Host.Outcome State Fault Refusal :=
  .next (s.tpf r 0x22 fun k s =>
    let (t, e) := tcopy (k.decl k.x.a) (k.decl k.x.b) (s.tile k k.x.b) (k.x.fl.testBit 0)
    s.tileDone k t e)

/-- TFILL: bits 31:0 of IMM as FP32, or INT32 for an integer tile, converted; SAT is the flag's reset value (R217). -/
def tfill (d : TileDecl) (imm : Nat) : Tile × Exc :=
  let v := decNum (if fmtInt d.fmt then 6 else 0) (imm % 2 ^ 32)
  tileOf d.fmt true (List.replicate (d.rows * d.cols) (some v, {}))

def execTpfTfill (r : CopyRef) (s : State) : Host.Outcome State Fault Refusal :=
  .next (s.tpf r 0x23 fun k s =>
    let (t, e) := tfill (k.decl k.x.a) k.x.imm
    s.tileDone k t e)

def execTpfMma (r : CopyRef) (s : State) : Host.Outcome State Fault Refusal :=
  .next (s.tpf r 0x24 fun k s =>
    let (t, e) := mma (k.decl k.x.a) (k.decl k.x.b) (k.decl k.x.c) (s.tile k k.x.a) (s.tile k k.x.b) (s.tile k k.x.c) (k.x.fl.testBit 0)
    s.tileDone k t e)

def execTpfVop (r : CopyRef) (s : State) : Host.Outcome State Fault Refusal :=
  .next (s.tpf r 0x25 fun k s =>
    let (t, e) := vop (k.decl k.x.a) (k.decl k.x.b) (k.decl k.x.c) (s.tile k k.x.a) (s.tile k k.x.b) (s.tile k k.x.c) k.x.fl
      (decNum 0 (k.reg k.x.c % 2 ^ 32))
    s.tileDone k t e)

def execTpfVfn (r : CopyRef) (s : State) : Host.Outcome State Fault Refusal :=
  .next (s.tpf r 0x26 fun k s =>
    let (t, e) := vfn (k.decl k.x.a) (k.decl k.x.b) (s.tile k k.x.b) k.x.fl (k.x.imm % 2 ^ 32)
    s.tileDone k t e)

def execTpfVred (r : CopyRef) (s : State) : Host.Outcome State Fault Refusal :=
  .next (s.tpf r 0x27 fun k s =>
    let (t, e) := vred (k.decl k.x.a) (k.decl k.x.b) (s.tile k k.x.b) k.x.fl
    s.tileDone k t e)

def execTpfQuant (r : CopyRef) (s : State) : Host.Outcome State Fault Refusal :=
  .next (s.tpf r 0x28 fun k s =>
    let noef := k.x.fl.testBit 0
    let (t, res, e) := quant (k.decl k.x.a) (k.decl k.x.b) (k.decl k.x.c) (s.tile k k.x.b) (s.tile k k.x.c) noef
    let s := if noef then s else s.putTile k k.x.c res
    s.tileDone k t e)

/-! ### Messages (R300, R301) -/

def Ctx.bind (k : Ctx) : PortBind := k.l.ports.getD k.x.a {}
def Ctx.kind (k : Ctx) : Nat := k.p.pkind.getD k.x.a 0

/-- Start the message of a program SEND on its connection (R300): the operation takes the message's MSN, or the status of a check that
fails. -/
def State.progSend (s : State) (f li ci : Nat) (p : Prog) (l : Launch) (a : Async) : State :=
  let b := l.ports.getD a.port {}
  let d := p.tiles.getD a.tile ⟨0, 1, 1, none⟩
  let tsend := p.pkind.getD a.port 0 = 2
  let rdv := tsend && decide (8192 < a.bytes)
  let ext := if tsend then Ext.tsend b.list rdv (BitVec.ofNat 64 a.tag) a.bytes 0 else Ext.data b.wref a.tag a.bytes 0 false
  let plen := if rdv then 0 else s.firstPlen f b.conn a.bytes
  match pick (s.connChecks f b.conn ++ s.gateChecks f b.conn ext plen) with
  | some st => s.progStatus f li ci a.id st 0
  | none =>
    let msn := s.nextMsn f b.conn
    let src := d.sendable a.snap
    (s.modAsync f li ci a.id fun a => { a with conn := some b.conn, msn := some msn, status := none, retry := none, got := some src }).queueMsg
      f b.conn ext (if rdv then 0 else a.bytes) (if rdv then .none else .bytes src) (.prog li ci a.id)

/-- Messages of a port in a copy's queue (R301). -/
def Copy.queued (c : Copy) (port : Nat) : Nat := (c.peerQ.filter fun m => m.1 = port).length

/-- A PEER message enters its target's queue if it has room (R301). -/
def State.peerAccept (s : State) (f li ci : Nat) (a : Async) : State :=
  match a.peer with
  | none => s
  | some t =>
    if a.queued ∨ 16 ≤ (s.copy f li t).queued a.port then s
    else (s.modAsync f li ci a.id fun a => { a with queued := true }).modCopy f li t fun c =>
      { c with peerQ := c.peerQ ++ [(a.port, ci, a.id, a.tag)] }

/-- SEND (R300, R301). -/
def tpfSend (k : Ctx) (s : State) : State :=
  if 32 ≤ k.c.outstanding then s.hold k else
    let d := k.decl k.x.b
    let a : Async := { id := k.c.nextOp, insn := k.c.pc, op := 0x30, tile := k.x.b, slot := k.ten, port := k.x.a, bytes := d.bytes,
                       snap := s.tile k k.x.b }
    if k.kind = 4 then
      if k.l.copies.length ≤ k.reg k.x.c then s.trap k .range
      else
        let a := { a with peer := some (k.reg k.x.c), tag := k.x.imm }
        (s.issueAsync k a).peerAccept k.f k.li k.ci a
    else
      let a := { a with tag := w64 (k.bind.base + k.reg k.x.c + k.x.imm) }
      (s.issueAsync k a).progSend k.f k.li k.ci k.p k.l a

def execTpfSend (r : CopyRef) (s : State) : Host.Outcome State Fault Refusal := .next (s.tpf r 0x30 tpfSend)

/-- RECV (R300): a receive on a RECV port waits while the posted-receive share is used up. -/
def tpfRecv (k : Ctx) (s : State) : State :=
  let d := k.decl k.x.b
  let a : Async := { id := k.c.nextOp, insn := k.c.pc, op := 0x31, tile := k.x.b, slot := k.ten, port := k.x.a, bytes := d.bytes }
  if 64 ≤ k.c.receives then s.hold k
  else if k.kind = 4 then s.issueAsync k { a with tag := k.x.imm, peer := some 0 }
  else if s.qPrecv k.f ≤ s.precvUsed k.f then s.hold k
  else
    let b := k.bind
    let tag := w64 (b.base + k.reg k.x.c + k.x.imm)
    let s := s.issueAsync k { a with tag := tag }
    match s.mlist? k.f b.list with
    | none => s.progStatus k.f k.li k.ci a.id .range 0
    | some _ => s.postRecv k.f b.list 0 { to_ := .prog k.li k.ci a.id, ctag := 0, src := b.src, laddr := 0, len := d.bytes, slice := true,
                                          tag := BitVec.ofNat 64 tag, ignore := BitVec.ofNat 64 b.ignore }

def execTpfRecv (r : CopyRef) (s : State) : Host.Outcome State Fault Refusal := .next (s.tpf r 0x31 tpfRecv)

/-! ### Tally slots (R296) -/

def execTpfTadd (r : CopyRef) (s : State) : Host.Outcome State Fault Refusal :=
  .next (s.tpf r 0x40 fun k s => (s.tallyAdd k.f (k.slot k.x.a) (w64 (k.reg k.x.b + k.x.imm))).retire k id).settle

def execTpfTwait (r : CopyRef) (s : State) : Host.Outcome State Fault Refusal :=
  .next (s.tpf r 0x41 fun k s =>
    if s.tallyCount k.f (k.slot k.x.a) < w64 (k.reg k.x.b + k.x.imm) then s.hold k else s.retire k id)

def execTpfTset (r : CopyRef) (s : State) : Host.Outcome State Fault Refusal :=
  .next (s.tpf r 0x42 fun k s => (s.tallyPut k.f (k.slot k.x.a) (w64 (k.reg k.x.b + k.x.imm))).retire k id).settle

end Sys2Proof.Machine
end

