-- ==== Sys2Proof/Machine/ConnBase.lean ====
section
/-!
DEFINITION. ConnBase.lean: choosing a handle, contributions, the neighbour and peer-key tables, and starting a handshake: what
connection commands, handshakes and herds share (R133, R135-R137, R140, R159, R411-R416, R424).
-/

namespace Sys2Proof.Machine

/-! ### Handles (R133, R386) -/

/-- The FREE index below the quota that has been FREE longest: the lowest never used, else the earliest freed. -/
def State.pickHandle (s : State) (f : Nat) : Option Nat :=
  let x := s.fn f
  let fresh := firstGap (x.conns.map (·.1)) 0
  if fresh < s.qConns f then some fresh else
    let free := x.conns.filter fun c => c.2.state = .free ∧ c.1 < s.qConns f
    (free.foldl (fun (best : Option (Nat × Conn)) c => match best with
      | none => some c
      | some b => if c.2.freedSeq < b.2.freedSeq then some c else some b) none).map (·.1)

/-- Contexts in use below the quota. -/
def State.connsUsed (s : State) (f : Nat) : Nat := ((s.fn f).conns.filter fun c => c.2.state ≠ .free).length

/-- SPBASE values that this device's connections to a peer use (R159). -/
def State.spUsed (s : State) (ip : Nat) : List Nat :=
  s.fns.flatMap fun f => (f.2.conns.filter fun c => c.2.state ≠ .free ∧ c.2.cid.peerIp = ip).map fun c => c.2.cid.spbase

/-- SPBASE: a multiple of 64 in 0xC000 to 0xFFC0, open but for being different among connections to the same peer while any remain. -/
def State.pickSp (s : State) (ip : Nat) : Nat :=
  let at_ := fun (i : Nat) => 0xC000 + 64 * ((s.freeVal + i) % 256)
  match (List.range 256).find? fun i => ¬ (s.spUsed ip).contains (at_ i) with
  | some i => at_ i
  | none => at_ 0

/-! ### Contributions (R413, R416) -/

/-- The contribution a selector names for a connection or herd, or none where it lies outside the grant: `some none` is TC zero. -/
def State.contribution (s : State) (p sel : Nat) : Option (Option Nat) :=
  if sel = 0xFF then (if s.notc then some none else none)
  else if sel < 8 then
    let x := agetD (s.part p).slots sel {}
    if x.spent then none else x.value.map some
  else none

/-- TC as a number: zero without a contribution (R411). -/
def tcNat (tc : Option Nat) : Nat := tc.getD 0

/-! ### Peers (R135, R424) -/

/-- The partitions that hold a valid address entry with an address: a peer on this device (R409). -/
def State.ownIp (s : State) (ip : Nat) : Bool := s.parts.any fun p => p.2.addrs.any fun a => a.2.valid && a.2.ip = ip

/-- The device an address belongs to, if the peer-key table knows it. -/
def State.devOf (s : State) (ip : Nat) : Option Nat :=
  if s.ownIp ip then some Config.devId.toNat
  else match s.sec.maps.find? fun m => m.1 = ip with
    | some m => if s.sec.peers.any fun p => p.dev = m.2 then some m.2 else none
    | none => none

/-- No key is derived and no connection is set up after the DRBG has failed or secrets were cleared (R431, R551). -/
def State.noKeys (s : State) : Bool := s.sec.drbg = 2 || s.bist.cleared

/-- The firmware can take part in what comes through a port (R423, R462). -/
def State.firmwareUp (s : State) : Bool := s.powered && s.mgmt.running && ! s.err.fatal

/-- Work of a priority that waits for a core of the saiga (R521): 1 the error actions in progress; 3 connections on the slow path whose neighbour
and peer key are there, and first contact that is due again; 5 mailboxes with a message to take or to serve. Work of the other priorities is a
datagram, a frame or a due time, and is there only while its row is served. -/
def State.fwWork (s : State) (prio : Nat) : Nat :=
  if prio = 1 then (s.err.recs.filter fun r => r.2.run.isSome).length
  else if prio = 3 then
    let ready := fun (f : Nat) (c : Conn) =>
      c.state = .slowpath && (s.part (partOf f)).neigh.contains c.cid.peerIp && (s.devOf c.cid.peerIp).isSome
    (s.fns.foldl (fun n f => n + (f.2.conns.filter fun c => ready f.1 c.2).length) 0) + (s.sec.contacts.filter fun c => c.at_ + 1000000 ≤ s.now).length
  else if prio = 5 then (s.fns.filter fun f => f.2.mbx.taken.isSome || f.2.mbx.queue ≠ []).length
  else 0

/-- R521: work of a priority is served while fewer works of higher priority wait than the four cores take (DESIGN CHOICE, log 158). -/
def State.fwTurn (s : State) (prio : Nat) : Bool := decide (((List.range prio).foldl (fun n k => n + s.fwWork k) 0) < 4)

/-- Both entries the fast path needs are known (R135). -/
def State.fastPath (s : State) (p ip : Nat) : Bool := ((s.part p).neigh.contains ip || s.ownIp ip) && (s.devOf ip).isSome

/-- Use a peer entry: it becomes the most recently used (R424). -/
def State.usePeer (s : State) (dev : Nat) : State :=
  { s with sec := { s.sec with peers := (s.sec.peers.filter fun p => p.dev ≠ dev) ++ (s.sec.peers.filter fun p => p.dev = dev) } }

/-- A connection other than FREE runs to a device. -/
def State.peerBusy (s : State) (dev : Nat) : Bool := s.fns.any fun f => f.2.conns.any fun c => c.2.state ≠ .free && c.2.cid.peerDev = dev

/-- The device entry least recently used among those with no connection goes, with its mappings (R424). -/
def State.evictPeer (s : State) : Option State :=
  match s.sec.peers.find? fun p => ! s.peerBusy p.dev with
  | none => none
  | some p => some (s.dropPeer p.dev)

/-- An address is learned (R424): it maps to a known device. -/
def State.learnMap (s : State) (ip dev : Nat) : State :=
  if dev = Config.devId.toNat ∨ ! s.sec.peers.any (fun p => p.dev = dev) ∨ s.sec.maps.contains (ip, dev) then s else
    let s? := if 65536 ≤ s.sec.maps.length then s.evictPeer else some s
    match s? with
    | none => s
    | some s => { s with sec := { s.sec with maps := s.sec.maps.filter (fun m => m.1 ≠ ip) ++ [(ip, dev)] } }

/-! ### Handshakes (R137, R140, R416) -/

/-- What an address entry grants (R137, R389): the entry is valid, PORTS lie within it, VLAN is the entry's. -/
def AddrEntry.grants (a : AddrEntry) (ports : Nat) (ven : Bool) (vid : Nat) : Bool :=
  a.valid && ports &&& (255 ^^^ a.ports) = 0 && ven = a.ven && (¬ ven || vid = a.vid)

/-- The family of an address may set up TLT (R167). -/
def State.family (s : State) (ip : Nat) : Bool := if isV4 ip then s.enV4 else s.enV6

/-- Send a CONN SYN on a path (R140, R416); none goes out while its family is disabled (R167). -/
def State.sendSyn (s : State) (f h path : Nat) : State :=
  let c := s.conn f h
  if ! s.family c.cid.peerIp then s else
  let cc := s.cchk c.cid.peerDev (tcNat c.cid.tc)
  s.sendCtl f h path (.syn c.cid.nonce cc c.cid.service h c.cid.inc (c.cid.herd.map (·.1)) none)

/-- A first-contact datagram: its header of 8 bytes, big-endian, then the SPDM message (R423). -/
def spdmBytes (ip seq : Nat) : List Byte :=
  let m := Config.spdmMsg ip seq
  beBytes 2 0x5450 ++ beBytes 1 1 ++ beBytes 1 0 ++ beBytes 2 m.length ++ beBytes 2 seq ++ m

/-- A first-contact datagram goes to a peer's UDP port SEC_CFG.PAIR_PORT (R423). -/
def State.sayTo (s : State) (ip seq : Nat) : State := s.emit (.datagram ip (s.fld 0x1400000 0 16) (spdmBytes ip seq))

/-- The saiga processor takes a slow-path request: it wakes, and first contact begins with a device that is not known (R135, R423,
R520). -/
def State.askSlow (s : State) (ip : Nat) : State :=
  if ! s.family ip then s else
  let s := { s with sec := { s.sec with reqs := s.sec.reqs + 1 }, power := { s.power with saiga := if s.power.saiga = 1 then 0 else s.power.saiga } }
  if (s.devOf ip).isSome ∨ s.sec.contacts.any (fun c => c.ip = ip) then s
  else
    let c : Contact := ⟨ip, 0, s.now, 0, true⟩
    { s with sec := { s.sec with contacts := s.sec.contacts ++ [c] } }.sayTo ip 0

/-- The initiator's side leaves FREE: on the fast path the first SYN goes on path 0 and the waits begin at RTO_MIN; otherwise the saiga
processor is asked (R140). -/
def State.startHandshake (s : State) (f h : Nat) (cid : ConnId) : State :=
  let inc := ((s.conn f h).cid.inc + 1) % 4096
  let fast := s.fastPath (partOf f) cid.peerIp
  let nonce := s.freeVal
  let sp := s.bump.pickSp cid.peerIp
  let cid := { cid with inc := inc, init := true, nonce := nonce, spbase := sp, peerDev := (s.devOf cid.peerIp).getD 0 }
  let s := s.bump.bump
  let g := max s.ginit cid.gmin
  let s := s.modConn f h fun _ =>
    { state := if fast then .connecting else .slowpath, cid := cid,
      tx := { gwin := 0, paths := (List.range cid.paths).map fun i => (i, {}) }, rx := { gwin := g },
      tm := { synAt := s.now, synWait := s.rtoMin, synFirst := s.now } }
  if fast then (s.usePeer cid.peerDev).sendSyn f h 0 else s.askSlow cid.peerIp

/-! ### Closing (R140) -/

/-- This end has nothing under way on a connection: no message, no operation, no inbound message short of its end. -/
def State.connQuiet (s : State) (f h : Nat) : Bool :=
  let c := s.conn f h
  c.tx.sendq.isEmpty && c.tx.sent.isEmpty && (s.connOps f h).isEmpty &&
  c.rx.msgs.all (fun m => m.aband || (m.passed && ¬ m.held && m.park.isNone && m.posted.isNone)) &&
  (s.fn f).launches.all fun l => l.2.copies.all fun c => c.2.ops.all fun a => a.conn ≠ some h || (match a.status with | some st => st ≠ .busy | none => false)

/-- CLOSING begins: FIN goes on path 0, and again on the schedule of the SYN (DEDUCED, log 30). -/
def State.beginClose (s : State) (f h : Nat) : State :=
  let s := s.modConn f h fun c =>
    { c with state := .closing, tx := { c.tx with finSent := true },
             tm := { c.tm with synAt := s.now, synWait := s.rtoMin, synFirst := s.now, synPath := 0 } }
  s.sendCtl f h ((s.conn f h).included.headD 0) .fin

/-- A CLOSING connection moves on: once FIN has come and this end is quiet it answers FIN_ACK; once FIN_ACK has gone and come the context
is FREE and every pending CONN_CLOSE ends OK (DEDUCED, log 30). -/
def State.closeStep (s : State) (f h : Nat) : State :=
  let c := s.conn f h
  if c.state ≠ .closing then s else
    let go := c.rx.finRcvd && ¬ c.tx.finAckSent && s.connQuiet f h
    let s := if go then
        (s.modConn f h fun c => { c with tx := { c.tx with finAckSent := true } }).sendCtl f h (c.included.headD 0) .finAck
      else s
    let c := s.conn f h
    if c.tx.finAckSent ∧ c.rx.finAckRcvd then (s.endCloses f h .ok).freeConn f h else s

end Sys2Proof.Machine
end

