-- ==== Sys2Proof/Machine/Programs.lean ====
section
/-!
DEFINITION. Programs.lean: loading, launching, stopping and querying programs, the ends of asynchronous operations, PEER messages and
pre-emption (R293-R318).
-/

namespace Sys2Proof.Machine

/-! ### Ibex blocks (R309, R317, R395, R460) -/

/-- A launch or an attention session of a function holds an ibex block. -/
def State.blockHeld (s : State) (f b : Nat) : Bool :=
  (s.fn f).launches.any (fun l => l.2.state ≠ .free && l.2.copies.any fun c => c.2.block = some b) ||
  (s.fn f).sess.any fun x => x.2.state ≠ .free && (match x.2.body with | some y => y.blks.testBit b | none => false)

/-- A block is the partition's and no pending request takes it away (R317). -/
def State.blockOwned (s : State) (f b : Nat) : Bool :=
  ¬ isPf f && (s.part (partOf f)).cur.blks.testBit b &&
  (match (s.part (partOf f)).apply with | some a => a.rec_.blks.testBit b | none => true)

/-- A block may take a copy: owned, not held, its region open. -/
def State.blockFree (s : State) (f b : Nat) : Bool := s.blockOwned f b && ¬ s.blockHeld f b && s.regionOpen (regionOf b)

/-- Blocks named by a mask that are held, leaving or in a region closed to new work; the hint is 1,000 µs where a fence is the cause
(R460). -/
def State.blocksBusy (s : State) (f blks : Nat) : Bool × Bool :=
  let l := bitList 64 blks
  (l.any fun b => s.blockHeld f b || ¬ s.blockOwned f b || ¬ s.regionOpen (regionOf b), l.any fun b => ¬ s.regionOpen (regionOf b))

/-- End an operation with the status R9 selects, BUSY with a hint of 1,000 µs where a fence is the cause. -/
def State.checkedFence (s : State) (f id : Nat) (fenced : Bool) (l : List Status) (k : State → State) : State :=
  match pick l with
  | some .busy => if fenced then s.endOp f id .busy 0 1000 else s.endBusy f id
  | some st => s.endOp f id st 0 0
  | none => k s

/-! ### PROG_LOAD and PROG_UNLOAD (R303-R308) -/

/-- The loader on the bytes of an image: the first failure ends RANGE with its reason and index; else the program takes the lowest free
handle (DEDUCED, log 26); its native code, which the manual leaves open, and a copy of its constants fill the code area (R307). -/
def State.loadImage (s : State) (f id : Nat) (bs : List Byte) (len codeOff codeLen : Nat) (codeBad : List Status) : State :=
  match loadFail bs len codeLen (s.fn f).progs.length with
  | some (reason, i) => s.endOp f id .range 0 (reason + 2 ^ 16 * i)
  | none =>
    s.checked f id codeBad fun s =>
      let h := firstGap ((s.fn f).progs.map (·.1)) 0
      let p := loadProg bs codeOff codeLen
      let s := ((s.sliceWrite f codeOff (s.openBytes codeLen)).bump).sliceWrite f p.constOff (poolOf bs)
      let s := s.modFn f fun x => { x with progs := aset x.progs h p }
      s.endOp f id .ok p.saveSize h

/-- R308: PROG_LOAD. A LEN outside its range is the loader's HEADER failure; a misaligned code area ends RANGE. -/
def effProgLoad (slice : Bool) (image len codeOff codeLen : Nat) (f id : Nat) (s : State) : State :=
  let codeBad := ck (s.sliceCheck f codeOff codeLen ≠ [] ∧ codeLen ≠ 0) .prot
  if len < 64 ∨ 2 ^ 26 < len then s.endOp f id .range 0 1
  else s.checked f id (ck (codeOff % 4096 ≠ 0) .range) fun s =>
    if slice then
      s.checked f id (ck (s.sliceCheck f image len ≠ []) .prot) fun s =>
        match s.locPoison f true image len with
        | some a => s.checked f id codeBad fun s => s.endOp f id .poison 0 (granuleDetail a)
        | none => (s.sliceUse f image len).loadImage f id (s.sliceRead f image len) len codeOff codeLen codeBad
    else s.withHost f id [(image, len, false)] fun s =>
      match s.locPoison f false image len with
      | some a => s.checked f id codeBad fun s => s.endOp f id .poison 0 (granuleDetail a)
      | none => (s.hostReadFill f image len).loadImage f id (s.hostBytes f image len) len codeOff codeLen codeBad

def execProgLoad (e : Entry) (slice : Bool) (image len codeOff codeLen : Nat) (s : State) : Host.Outcome State Fault Refusal :=
  .next (s.startEntry e 0x300 len1 (.progLoad e slice image len codeOff codeLen) (effProgLoad slice image len codeOff codeLen e.fn.idx))

/-- R306: PROG_UNLOAD releases the code area. -/
def effProgUnload (handle : Nat) (f id : Nat) (s : State) : State :=
  s.checked f id
    (ck ((aget (s.fn f).progs handle).isNone) .range ++
     ck ((s.fn f).launches.any (fun l => l.2.state ≠ .free && l.2.handle = handle) = true) .state)
    fun s => (s.modFn f fun x => { x with progs := adel x.progs handle }).endOp f id .ok 0 0

def execProgUnload (e : Entry) (handle : Nat) (s : State) : Host.Outcome State Fault Refusal :=
  .next (s.startEntry e 0x301 len1 (.progUnload e handle) (effProgUnload handle e.fn.idx))

/-! ### PROG_LAUNCH (R302, R309) -/

/-- The launch index and key of a launch reference (R306). -/
def lrefIndex (lref : Nat) : Nat := lref % 64
def lrefKey (lref : Nat) : Nat := lref / 64 % 2 ^ 26

/-- A port table entry as its kind reads it (R300). -/
def portBind (kind : Nat) (bs : List Byte) : PortBind :=
  if kind = 1 then { conn := numAt bs 0 4, wref := numAt bs 4 4, base := numAt bs 8 8 }
  else if kind = 2 then { conn := numAt bs 0 4, list := numAt bs 4 2, base := numAt bs 8 8 }
  else if kind = 3 then
    { list := numAt bs 0 2, src := if (numAt bs 4 4).testBit 31 then none else some (numAt bs 4 4), base := numAt bs 8 8,
      ignore := numAt bs 16 8 }
  else {}

/-- R309: a binding is invalid: a reserved bit is set, or it names an unknown connection or list. -/
def State.portBad (s : State) (f kind : Nat) (bs : List Byte) : Bool :=
  let b := portBind kind bs
  if kind = 1 then ¬ s.known f b.conn || numAt bs 16 16 ≠ 0
  else if kind = 2 then ¬ s.known f b.conn || 4096 ≤ b.list || numAt bs 6 2 ≠ 0 || numAt bs 16 16 ≠ 0
  else if kind = 3 then (s.mlist? f b.list).isNone || numAt bs 2 2 ≠ 0 || numAt bs 24 8 ≠ 0 ||
    (match b.src with | some c => ¬ s.known f c | none => numAt bs 4 4 ≠ 2 ^ 31)
  else numAt bs 0 32 ≠ 0

/-- A tile at the start of a copy (R290, R292). -/
def State.tileInit (s : State) (f : Nat) (p : Prog) (d : TileDecl) : Tile :=
  match d.init with
  | some x => d.ofBytes d.rowPitch (s.consts f p x d.foot)
  | none => d.zero

/-- The tiles of a copy at its start. -/
def State.tileStart (s : State) (f : Nat) (p : Prog) : AMap Tile :=
  (List.range p.tiles.length).map fun i => (i, s.tileInit f p (p.tiles.getD i ⟨0, 1, 1, none⟩))

/-- The first poisoned granule of the constants that tiles start with: the launch that reads it ends POISON (R491). -/
def State.initBad (s : State) (f : Nat) (p : Prog) : Option Nat :=
  p.tiles.findSome? fun d => match d.init with | some x => s.constBad f p x d.foot | none => none

/-- Checks of PROG_LAUNCH that need no table (R81, R309). -/
def State.launchChecks (s : State) (f : Nat) (b : LaunchBody) : List Status :=
  let n := popCount 64 b.blks
  ck (b.ltEn ∧ ¬ s.tallyOk f b.ltally) .range ++
  ck ((s.launch f (lrefIndex b.lref)).state ≠ .free) .state ++
  (match aget (s.fn f).progs b.handle with
   | none => [.range]
   | some p =>
     ck (n < p.minCopy ∨ p.maxCopy < n ∨ b.saveOff % 4096 ≠ 0 ∨ b.saveLen < n * p.saveSize ∨ s.sliceLen f < b.saveOff + b.saveLen ∨
         (p.nport = 0 ∧ b.ptab ≠ 0) ∨ (p.nslot = 0 ∧ b.ttab ≠ 0)) .range) ++
  ck ((bitList 64 b.blks).any (fun i => isPf f || ¬ (s.part (partOf f)).cur.blks.testBit i) = true) .prot ++
  ck ((s.blocksBusy f b.blks).1 = true) .busy

/-- What PROG_LAUNCH reads: arguments, port table, tally table. -/
def launchRanges (b : LaunchBody) (p : Prog) : List (Nat × Nat × Bool) :=
  [(b.args, 128, false), (b.ptab, 32 * p.nport, false), (b.ttab, 2 * popCount 64 b.blks * p.nslot, false)]

/-- R309: the launch claims its blocks and is STARTING; copy c stands on the c-th named block. It wakes their domains (R568). -/
def State.launchStart (s : State) (f id : Nat) (b : LaunchBody) (p : Prog) (args : List Nat) (ports : List PortBind)
    (slots : List Nat) : State :=
  let one := fun (x : Nat × Nat) => (x.1, ({ tiles := s.tileStart f p, block := some x.2 } : Copy))
  let blks := bitList 64 b.blks
  let l : Launch := { state := .starting, key := lrefKey b.lref, handle := b.handle, op := id,
                      copies := ((List.range blks.length).zip blks).map one, saveOff := b.saveOff, saveLen := b.saveLen, args := args,
                      ports := ports, slots := slots, spwait := if b.spwait = 0 then 10000 else b.spwait }
  ((s.modOp f id fun o => { o with ltally := ltOf b.ltEn b.ltally }).modLaunch f (lrefIndex b.lref) fun _ => l).wakeBlocks b.blks

/-- R309: PROG_LAUNCH. The conditions of its tables are weighed with the others by R9. -/
def effProgLaunch (b : LaunchBody) (f id : Nat) (s : State) : State :=
  let st := s.launchChecks f b
  s.checked f id (st.filter fun x => x = .state ∨ x = .range) fun s =>
    match aget (s.fn f).progs b.handle with
    | none => s.endOp f id .range 0 0
    | some p =>
      let rs := launchRanges b p
      s.withHost f id rs fun s =>
        match (rs.findSome? fun r => s.locPoison f false r.1 r.2.1).or (s.initBad f p) with
        | some a => s.checkedFence f id (s.blocksBusy f b.blks).2 (st.filter (· = .prot)) fun s => s.endOp f id .poison 0 (granuleDetail a)
        | none =>
          let s := rs.foldl (fun s r => s.hostReadFill f r.1 r.2.1) s
          let rd := fun (r : Nat × Nat × Bool) => s.hostBytes f r.1 r.2.1
          let pt := rd (rs.getD 1 (0, 0, false))
          let tt := rd (rs.getD 2 (0, 0, false))
          let entry := fun (i : Nat) => (pt.drop (32 * i)).take 32
          let slots := (List.range (popCount 64 b.blks * p.nslot)).map fun i => numAt tt (2 * i) 2
          let bad := (List.range p.nport).any (fun i => s.portBad f (p.pkind.getD i 0) (entry i)) || slots.any fun t => ¬ s.tallyOk f t
          s.checkedFence f id (s.blocksBusy f b.blks).2 (st ++ ck (bad = true) .range) fun s =>
            s.launchStart f id b p ((List.range 16).map fun i => numAt (rd (rs.getD 0 (0, 0, false))) (8 * i) 8)
              ((List.range p.nport).map fun i => portBind (p.pkind.getD i 0) (entry i)) slots

def execProgLaunch (e : Entry) (b : LaunchBody) (s : State) : Host.Outcome State Fault Refusal :=
  .next (s.startEntry e 0x302 len2 (.progLaunch e b) (effProgLaunch b e.fn.idx))

/-- R310: every copy is set up, and they start at instruction 0, once every compute domain concerned is ACTIVE (R568). -/
def State.launchRun (s : State) (f l : Nat) : State :=
  let live := (s.launch f l).copies.all fun c => match c.2.block with | some b => s.regionLive (regionOf b) | none => true
  if (s.launch f l).state = .starting ∧ live then s.modLaunch f l fun x => { x with state := .running } else s

def execLaunchRunning (fn : Fn) (launch : Nat) (s : State) : Host.Outcome State Fault Refusal := .next (s.launchRun fn.idx launch)

/-! ### PROG_STOP and PROG_QUERY (R310, R313) -/

/-- R310: PROG_STOP of a STARTING or RUNNING launch whose key matches; it ends when the launch has. -/
def effProgStop (lref : Nat) (f id : Nat) (s : State) : State :=
  let l := s.launch f (lrefIndex lref)
  s.checked f id (ck (¬ ((l.state = .starting ∨ l.state = .running) ∧ l.key = lrefKey lref)) .state) fun s =>
    (s.modLaunch f (lrefIndex lref) fun l => { l with stop := some id }).stopLaunch f (lrefIndex lref)

def execProgStop (e : Entry) (lref : Nat) (s : State) : Host.Outcome State Fault Refusal :=
  .next (s.startEntry e 0x303 len1 (.progStop e lref) (effProgStop lref e.fn.idx))

def LaunchSt.code : LaunchSt → Nat
  | .free => 0 | .starting => 1 | .running => 2 | .stopping => 3 | .ending => 4
def CopySt.code : CopySt → Nat
  | .running => 0 | .waiting => 1 | .parking => 2 | .parked => 3 | .done => 4

/-- R313: the 128-byte record. -/
def Launch.record (l : Launch) : List Byte :=
  let copies := (List.range 64).map fun i => match aget l.copies i with | some c => c.st.code | none => 0
  leBytes 1 l.state.code ++ leBytes 1 l.copies.length ++ leBytes 1 (l.copies.filter fun c => c.2.st = .parked).length ++ leBytes 5 0 ++
  leBytes 8 l.retired ++ leBytes 8 l.preempts ++ leBytes 8 l.loaded ++ leBytes 8 l.written ++ leBytes 8 0 ++
  copies.flatMap (leBytes 1) ++ leBytes 16 0

def effProgQuery (lref addr : Nat) (f id : Nat) (s : State) : State :=
  let l := s.launch f (lrefIndex lref)
  s.checked f id (ck (l.state = .free ∨ l.key ≠ lrefKey lref) .state) fun s => s.writeRecord f id addr l.record 0

def execProgQuery (e : Entry) (launch addr : Nat) (s : State) : Host.Outcome State Fault Refusal :=
  .next (s.startEntry e 0x304 len1 (.progQuery e launch addr) (effProgQuery launch addr e.fn.idx))

/-! ### The end of a launch (R310, R311) -/

/-- The launch is FREE and its blocks are released; what a receive of it still held is dropped. -/
def State.launchFree (s : State) (f l : Nat) : State :=
  s.modFn f fun x => { x with launches := adel x.launches l, progRx := x.progRx.filter fun r => r.1 ≠ l }

/-- R310: a STOPPING launch whose operations have ended: PROG_LAUNCH ends with the fault's status, or FLUSHED; then PROG_STOP ends OK. -/
def State.launchStopped (s : State) (f li : Nat) : State :=
  let l := s.launch f li
  if l.state = .stopping ∧ l.copies.all (fun c => ¬ c.2.busy ∧ ¬ c.2.ops.any (s.matchedRecv f li c.1)) then
    let (st, d) := l.fault.getD (.flushed, 0)
    let s := s.endOp f l.op st 0 d
    let s := match l.stop with
      | some id => s.endOp f id .ok 0 0
      | none => s
    s.launchFree f li
  else s

def execLaunchStopped (fn : Fn) (launch : Nat) (s : State) : Host.Outcome State Fault Refusal :=
  .next (s.launchStopped fn.idx launch).settle

/-- R311: DETAIL of a launch that ends OK. -/
def Launch.endDetail (l : Launch) : Nat :=
  let c0 := ((aget l.copies 0).map (·.endCode)).getD 0
  c0 % 2 ^ 16 + (l.copies.filter fun c => c.2.endCode ≠ c0).length * 2 ^ 16

/-- R311: an ENDING launch ends OK; it is FREE once its completion is written, and no matched receive is left to place. -/
def State.launchEnded (s : State) (f li : Nat) : State :=
  let l := s.launch f li
  if l.state = .ending ∧ l.copies.all (fun c => ¬ c.2.ops.any (s.matchedRecv f li c.1)) then
    let s := if (s.op? f l.op).isSome then s.endOp f l.op .ok l.written l.endDetail else s
    if (s.fn f).rings.any fun r => r.2.waiting.any fun c => c.op = some l.op then s else s.launchFree f li
  else s

def execLaunchEnded (fn : Fn) (launch : Nat) (s : State) : Host.Outcome State Fault Refusal :=
  .next (s.launchEnded fn.idx launch).settle

/-! ### The ends of asynchronous operations (R293-R295, R312) -/

/-- The program of a launch, and an operation of a copy. -/
def State.async? (s : State) (f l c id : Nat) : Option (Prog × Async) :=
  match aget (s.fn f).progs (s.launch f l).handle, (s.copy f l c).ops.find? fun a => a.id = id with
  | some p, some a => some (p, a)
  | _, _ => none

/-- An operation has ended (R293, R312): with a good status it raises its slot, otherwise its copy faults. -/
def State.asyncDone (s : State) (f l c : Nat) (a : Async) (st : Status) : State :=
  let s := s.modCopy f l c fun x => { x with ops := x.ops.filter fun y => y.id ≠ a.id }
  if st.good then
    match a.slot with
    | some t => s.tallyAdd f t 1
    | none => s
  else if a.op = 0x31 ∧ (s.copy f l c).st = .done then s
  else s.faultCopy f l c a.insn st

/-- Put a value into a tile for an operation; a program's write in between leaves each element open (R294). -/
def State.asyncTile (s : State) (f l c : Nat) (a : Async) (t : Tile) : State :=
  let old := agetD (s.copy f l c).tiles a.tile ⟨[], []⟩
  let t' := if a.hit then mixTile s old t else t
  let s := if a.hit then s.bump else s
  s.modCopy f l c fun x => { x with tiles := aset x.tiles a.tile t' }

/-- The row addresses of a TLOAD or TSTORE. -/
def Async.rows (a : Async) (d : TileDecl) : List (Nat × Nat) := (List.range d.rows).map fun r => (a.addr + r * a.pitch, d.rowBytes)

/-- Checks of slice rows (R325, R332). -/
def State.rowChecks (s : State) (f : Nat) (a : Async) (d : TileDecl) : List Status :=
  if a.slice then (a.rows d).flatMap fun r => s.sliceCheck f r.1 r.2 else []

/-- Wait for a page (R295, R343). -/
def State.asyncPark (s : State) (f l c : Nat) (a : Async) (page : Nat) (wr : Bool) : State :=
  (s.modAsync f l c a.id fun a => { a with page := some page }).askXlate f page wr

/-- A TLOAD ends: its rows are in the tile. -/
def State.tloadEnd (s : State) (f l c : Nat) (p : Prog) (a : Async) : State :=
  let d := p.tiles.getD a.tile ⟨0, 1, 1, none⟩
  let put := fun (s : State) (bs : List Byte) (pitch : Nat) =>
    ((s.asyncTile f l c a (d.ofBytes pitch bs)).modLaunch f l fun x => { x with loaded := satAdd (2 ^ 64 - 1) x.loaded a.bytes }).asyncDone
      f l c a .ok
  if a.const then
    if (s.constBad f p a.addr d.foot).isSome then s.asyncDone f l c a .poison else put s (s.consts f p a.addr d.foot) d.rowPitch
  else
    match pick (s.rowChecks f a d) with
    | some st => s.asyncDone f l c a st
    | none =>
      match (a.rows d).findSome? fun r => s.locMiss f a.slice r.1 r.2 false with
      | some pg => s.asyncPark f l c a pg false
      | none =>
        if (a.rows d).any fun r => (s.locPoison f a.slice r.1 r.2).isSome then s.asyncDone f l c a .poison
        else
          let bs := (a.rows d).flatMap fun r => s.locRead f a.slice r.1 r.2
          put ((a.rows d).foldl (fun s r => s.locUse f a.slice r.1 r.2) s) bs d.rowBytes

/-- A TSTORE ends: its rows are written, up to the first poisoned granule of the tile (R491). -/
def State.tstoreEnd (s : State) (f l c : Nat) (p : Prog) (a : Async) : State :=
  let d := p.tiles.getD a.tile ⟨0, 1, 1, none⟩
  match pick (s.rowChecks f a d) with
  | some st => s.asyncDone f l c a st
  | none =>
    match (a.rows d).findSome? fun r => s.locMiss f a.slice r.1 r.2 true with
    | some pg => s.asyncPark f l c a pg true
    | none =>
      let bs := d.sendable a.snap
      let row := fun (s : State) (r : Nat) => s.locWrite f a.slice (a.addr + r * a.pitch) ((bs.drop (r * d.rowBytes)).take d.rowBytes)
      let s := (List.range d.rows).foldl row s
      let s := s.modLaunch f l fun x => { x with written := satAdd (2 ^ 64 - 1) x.written bs.length }
      s.asyncDone f l c a (if bs.length < a.bytes then .poison else .ok)

/-- Slice range of a copy's save slot (R315). -/
def Launch.slotOff (l : Launch) (p : Prog) (c : Nat) : Nat := l.saveOff + c * p.saveSize

/-- The save slot still holds what the device wrote there. -/
def State.slotKept (s : State) (f l c : Nat) (p : Prog) : Bool :=
  s.sliceRead f ((s.launch f l).slotOff p c) p.saveSize = (s.copy f l c).saved

/-- Write a copy's state to its save slot: the layout of the slot is open, so its bytes are. -/
def State.slotWrite (s : State) (f l c : Nat) (p : Prog) : State :=
  let bs := s.openBytes p.saveSize
  (((s.sliceWrite f ((s.launch f l).slotOff p c) bs).bump).modCopy f l c fun y => { y with saved := bs })

/-- A message has come for a RECV: its bytes are in the tile (R300); while the copy is PARKED they go to the tile's image in its save slot
(R315). -/
def State.recvPut (s : State) (f l c : Nat) (p : Prog) (a : Async) (bs : List Byte) : State :=
  let d := p.tiles.getD a.tile ⟨0, 1, 1, none⟩
  let s := s.asyncTile f l c a (d.overlay (agetD (s.copy f l c).tiles a.tile d.zero) bs)
  let s := if (s.copy f l c).st = .parked ∧ s.slotKept f l c p then s.slotWrite f l c p else s
  s.asyncDone f l c a .ok

/-- R293: an asynchronous operation ends if what it waits for has happened. -/
def State.asyncEnd (s : State) (f l c id : Nat) : State :=
  match s.async? f l c id with
  | none => s
  | some (p, a) =>
    if a.op = 0x20 then (match a.status with | some st => s.asyncDone f l c a st | none => s.tloadEnd f l c p a)
    else if a.op = 0x21 then (match a.status with | some st => s.asyncDone f l c a st | none => s.tstoreEnd f l c p a)
    else if a.op = 0x31 then
      match (s.fn f).progRx.find? fun r => r.1 = l ∧ r.2.1 = c ∧ r.2.2.1 = id, a.got, a.status with
      | some r, _, _ => (s.modFn f fun x => { x with progRx := dropFirst x.progRx fun y => y = r }).recvPut f l c p a r.2.2.2.2
      | none, some bs, _ => s.recvPut f l c p a bs
      | none, none, some st => s.asyncDone f l c a st
      | none, none, none => s
    else
      match a.status with
      | none => s
      | some st =>
        if a.retry.isSome then s
        else
          let n := if st.good then a.bytes else 0
          (s.modLaunch f l fun x => { x with written := satAdd (2 ^ 64 - 1) x.written n }).asyncDone f l c a st

/-- R293, R295: ASYNC_OP_END. -/
def execAsyncOpEnd (r : CopyRef) (op : Nat) (s : State) : Host.Outcome State Fault Refusal :=
  .next (s.asyncEnd r.fn.idx r.launch r.copy op).settle

/-- R295: a program SEND refused BUSY is sent again once its hint has passed. -/
def State.sendAgain (s : State) (f l c id : Nat) : State :=
  match s.async? f l c id with
  | none => s
  | some (p, a) =>
    match a.retry with
    | some t => if t ≤ s.now then s.progSend f l c p (s.launch f l) a else s
    | none => s

def execSendRetry (r : CopyRef) (op now : Nat) (s : State) : Host.Outcome State Fault Refusal :=
  .next ((s.tick now).sendAgain r.fn.idx r.launch r.copy op)

/-! ### PEER messages (R301) -/

/-- SENDs of a launch that wait to enter a target's queue on a port: (copy, operation). -/
def Launch.peerWaits (l : Launch) (t port : Nat) : List (Nat × Async) :=
  l.copies.flatMap fun c => (c.2.ops.filter fun a => a.op = 0x30 ∧ a.peer = some t ∧ a.port = port ∧ ¬ a.queued ∧ a.status.isNone).map
    fun a => (c.1, a)

/-- The queue of a target has room: one of the senders that wait is accepted; which is open (DEDUCED, log 27). -/
def State.peerNext (s : State) (f l t port : Nat) : State :=
  let w := (s.launch f l).peerWaits t port
  match w[s.freeVal % max 1 w.length]? with
  | some (c, a) => (s.bump).peerAccept f l c a
  | none => s

/-- R301: the first queued message of a port and tag goes to the first posted RECV of that port and tag. A poisoned tile halts the
channel: the SEND ends POISON and nothing is placed (R491). -/
def State.peerMove (s : State) (f l c id : Nat) : State :=
  match s.async? f l c id with
  | none => s
  | some (p, a) =>
    match a.peer with
    | none => s
    | some t =>
      let tc := s.copy f l t
      let first := tc.peerQ.find? fun m => m.1 = a.port ∧ m.2.2.2 = a.tag
      let recv := tc.ops.find? fun x => x.op = 0x31 ∧ x.peer.isSome ∧ x.port = a.port ∧ x.tag = a.tag ∧ x.got.isNone ∧ x.status.isNone
      match first, recv with
      | some m, some x =>
        if a.op = 0x30 ∧ a.status.isNone ∧ m.2.1 = c ∧ m.2.2.1 = id then
          let d := p.tiles.getD a.tile ⟨0, 1, 1, none⟩
          let bs := d.sendable a.snap
          let bad := bs.length < a.bytes
          let s := s.modCopy f l t fun y => { y with peerQ := dropFirst y.peerQ fun z => z = m }
          let s := if bad then s else s.modAsync f l t x.id fun y => { y with got := some bs }
          (s.modAsync f l c id fun y => { y with status := some (if bad then .poison else .ok) }).peerNext f l t a.port
        else s
      | _, _ => s

def execPeerMessageTransfer (r : CopyRef) (op : Nat) (s : State) : Host.Outcome State Fault Refusal :=
  .next (s.peerMove r.fn.idx r.launch r.copy op)

/-! ### Pre-emption (R314-R318) -/

/-- A copy waits in a SAFEPOINT. -/
def State.atSafepoint (s : State) (f l : Nat) (x : Copy) : Bool :=
  x.st = .waiting && (match aget (s.fn f).progs (s.launch f l).handle with
    | some p => (match p.insns[x.pc]? with | some i => i.op = 0x05 | none => false)
    | none => false)

/-- Raise a pre-emption request for a copy that holds a block; a copy that waits in a SAFEPOINT is PARKING at once (R315). -/
def State.preemptCopy (s : State) (f l c : Nat) : State :=
  s.modCopy f l c fun x =>
    if x.block.isSome ∧ x.st ≠ .done ∧ x.st ≠ .parking ∧ x.preempt.isNone then
      { x with preempt := some s.now, st := if s.atSafepoint f l x then .parking else x.st }
    else x

/-- Raise requests for every copy of a function on a block that a test picks. -/
def State.preemptBlocks (s : State) (f : Nat) (on : Nat → Bool) : State :=
  (s.fn f).launches.foldl (fun s l => l.2.copies.foldl (fun s c => match c.2.block with
    | some b => if (l.2.state = .running ∨ l.2.state = .starting) ∧ on b then s.preemptCopy f l.1 c.1 else s
    | none => s) s) s

/-- A tile of a copy has a poisoned element (R208). -/
def Copy.poisoned (y : Copy) (p : Prog) : Bool :=
  y.tiles.any fun t => ((p.tiles.getD t.1 ⟨0, 1, 1, none⟩).firstBad t.2).isSome

/-- R315 steps 3 and 4: the copy's state goes to its save slot and it becomes PARKED. Poison in a tile halts the channel that saves it, and a slot
on a page without a key takes nothing (R332, R491): the launch faults. -/
def State.copySave (s : State) (f l c : Nat) : State :=
  let x := s.launch f l
  let y := s.copy f l c
  match aget (s.fn f).progs x.handle with
  | none => s
  | some p =>
    let live := match y.block with | some b => s.regionLive (regionOf b) | none => false
    if x.state = .running ∧ y.st = .parking ∧ ¬ y.busy ∧ live = true then
      match pick (s.sliceCheck f (x.slotOff p c) p.saveSize ++ ck (y.poisoned p = true) .poison) with
      | some st => s.faultCopy f l c y.pc st
      | none =>
      ((s.slotWrite f l c p).modLaunch f l fun x => { x with preempts := satAdd (2 ^ 64 - 1) x.preempts 1 }).modCopy f l c fun y =>
        { y with st := .parked, block := none, preempt := none }
    else s

def execCopySave (r : CopyRef) (s : State) : Host.Outcome State Fault Refusal := .next (s.copySave r.fn.idx r.launch r.copy)

/-- What a copy reloads from a save slot that something else has written: the layout is open, so every value is (R317). -/
def State.openCopy (s : State) (p : Prog) (y : Copy) : Copy :=
  let bs := s.openBytes (576 + footSum p.tiles)
  let off := fun (i : Nat) => 576 + footSum (p.tiles.take i)
  { y with pc := numAt bs 0 8 % max 1 p.insns.length, exc := numAt bs 8 1 % 16, regs := (List.range 64).map fun i => (i, numAt bs (64 + 8 * i) 8),
           tiles := (List.range p.tiles.length).map fun i =>
             let d := p.tiles.getD i ⟨0, 1, 1, none⟩
             (i, d.ofBytes d.rowPitch ((bs.drop (off i)).take d.foot)) }

/-- R317: the lowest PARKED copy of a launch resumes on the lowest free block, with the state it reloads from its save slot. Reading a poisoned
save slot faults the copy (DEDUCED, log 24). -/
def State.copyResume (s : State) (f l c block : Nat) : State :=
  let x := s.launch f l
  let y := s.copy f l c
  match aget (s.fn f).progs x.handle with
  | none => s
  | some p =>
    let first := (x.copies.find? fun z => z.2.st = .parked).map (·.1)
    let low := (List.range 64).find? fun b => s.blockFree f b
    if x.state = .running ∧ y.st = .parked ∧ first = some c ∧ low = some block ∧ s.starts f then
      if (s.locPoison f true (x.slotOff p c) p.saveSize).isSome then s.faultCopy f l c y.pc .poison
      else
        let z := if s.slotKept f l c p then y else s.openCopy p y
        let s := if s.slotKept f l c p then s else s.bump
        (s.modCopy f l c fun _ => { z with st := .running, block := some block, saved := [] }).wakeBlocks (2 ^ block)
    else s

def execCopyResume (r : CopyRef) (block : Nat) (s : State) : Host.Outcome State Fault Refusal :=
  .next (s.copyResume r.fn.idx r.launch r.copy block)

/-- R316: a copy that has not reached a SAFEPOINT SPWAIT µs after the request stops the launch, which ends FLUSHED; it is journalled as a
partition command of the launch (DEDUCED, log 28). -/
def State.spwaitExpiry (s : State) (f l c : Nat) : State :=
  let x := s.launch f l
  let y := s.copy f l c
  match y.preempt with
  | none => s
  | some t =>
    if (x.state = .running ∨ x.state = .starting) ∧ (y.st = .running ∨ y.st = .waiting) ∧ t + 1000 * x.spwait ≤ s.now then
      let s := (s.modLaunch f l fun x => { x with fault := some (.flushed, 0xFFFF + 2 ^ 16 * c) }).stopLaunch f l
      s.jMust (ownerOf f) (.partcmd 0x302 (partOf f) .flushed 0)
    else s

def execSpwaitExpiry (r : CopyRef) (now : Nat) (s : State) : Host.Outcome State Fault Refusal :=
  .next ((s.tick now).spwaitExpiry r.fn.idx r.launch r.copy)

end Sys2Proof.Machine
end

