-- ==== Sys2Proof/Machine/Herds.lean ====
section
/-!
DEFINITION. Herds.lean: herds, their membership and connections, and the commands on them (R234-R239).
-/

namespace Sys2Proof.Machine

/-! ### Membership (R235, R239) -/

def State.herd (s : State) (f i : Nat) : Herd := agetD (s.fn f).herds i {}
def State.modHerd (s : State) (f i : Nat) (g : Herd → Herd) : State :=
  s.modFn f fun x => { x with herds := amod x.herds i {} g }

/-- The body a herd was created with. -/
def Herd.bd (h : Herd) : HerdBody :=
  h.body.getD { nmemb := 0, rank := 0, hring := 0, defalg := 0, defchunk := 14, ports := 0, paths := 1, pmtu := 0, rblk := 0,
                a2a := false, laddrIdx := 0, tsel := 0xFF, label := 0, mtab := 0, soff := 0, slen := 0, hb := 0 }

/-- This member's original rank. -/
def Herd.me (h : Herd) : Nat := h.bd.rank

/-- R239: the original ranks that are members in an epoch, ascending: those not dropped at or before it. -/
def Herd.membersIn (h : Herd) (epoch : Nat) : List Nat :=
  (List.range h.membs.length).filter fun r => match aget h.dropped r with
    | some e => epoch < e
    | none => true

def Herd.members (h : Herd) : List Nat := h.membersIn h.mepoch

/-- Members in the current epoch. -/
def Herd.size (h : Herd) : Nat := h.members.length

/-- The current rank of an original rank, and the original rank of a current one. -/
def Herd.rankOf (h : Herd) (orig : Nat) : Option Nat := h.members.findIdx? (· = orig)
def Herd.orig (h : Herd) (rank : Nat) : Nat := h.members.getD rank 0

/-- This member's current rank. -/
def Herd.rank (h : Herd) : Nat := (h.rankOf h.me).getD 0

def Herd.memb (h : Herd) (orig : Nat) : Memb := h.membs.getD orig ⟨0, 0, 0⟩

/-- The heartbeat interval in ns (R235). -/
def Herd.hbNs (h : Herd) : Nat := 1000000 * (if h.bd.hb = 0 then 100 else h.bd.hb)

/-! ### Trees, rings and groups (R237, R245) -/

/-- Parent and children in a heap tree over v = 0 … n − 1. -/
def heapUp (v : Nat) : Option Nat := if v = 0 then none else some ((v - 1) / 2)
def heapKids (n v : Nat) : List Nat := [2 * v + 1, 2 * v + 2].filter fun c => c < n

/-- The hierarchical groups: current ranks by group number, ascending. -/
def Herd.groups (h : Herd) : List (List Nat) :=
  let l := (List.range h.size).map fun r => (r, (h.memb (h.orig r)).group)
  (ascending (l.map (·.2)).eraseDups).map fun g => (l.filter fun x => x.2 = g).map (·.1)

/-- Groups of one size. -/
def evenGroups (gs : List (List Nat)) : Bool := gs.all fun g => g.length = (gs.headD []).length

/-- The group and the position in it of a rank. -/
def groupPos (gs : List (List Nat)) (r : Nat) : Nat × Nat :=
  let g := (gs.findIdx? fun x => x.contains r).getD 0
  (g, ((gs.getD g []).findIdx? (· = r)).getD 0)

/-- The rank at a position of a group, both modulo their sizes. -/
def atGroup (gs : List (List Nat)) (g p : Nat) : Nat :=
  let x := gs.getD (g % max 1 gs.length) []
  x.getD (p % max 1 x.length) 0

/-- R237: the current ranks whose connections a member needs: ring neighbours, parents and children in T0 and T1, the hierarchical
neighbours where the default algorithm is 4 (DEDUCED, log 31), every member with A2A. -/
def Herd.needRanks (h : Herd) : List Nat :=
  let n := h.size
  let r := h.rank
  let tree := fun (v : Nat) => (match heapUp v with | some p => [p] | none => []) ++ heapKids n v
  let gs := h.groups
  let (g, p) := groupPos gs r
  let m := (gs.getD g []).length
  let hier := if h.bd.defalg = 4 ∧ evenGroups gs then
      [atGroup gs g (p + 1), atGroup gs g (p + m - 1), atGroup gs (g + 1) p, atGroup gs (g + gs.length - 1) p] else []
  let all := if h.bd.a2a then List.range n else []
  let t1 := (tree (n - 1 - r)).map fun v => n - 1 - v
  (([(r + 1) % n, (r + n - 1) % n] ++ tree r ++ t1 ++ hier ++ all).filter fun x => x ≠ r ∧ x < n).eraseDups

/-- The same by original rank. -/
def Herd.need (h : Herd) : List Nat := h.needRanks.map h.orig

/-! ### Connections of a herd (R237) -/

/-- The herd and original rank a connection of this function serves, while the herd still counts it. -/
def State.herdOf (s : State) (f hd : Nat) : Option (Nat × Nat) :=
  match (s.conn f hd).cid.herd with
  | some (i, o) => if aget (s.herd f i).conns o = some hd then some (i, o) else none
  | none => none

/-- The handle of a member's connection, if it carries traffic. -/
def State.herdConn (s : State) (f i orig : Nat) : Option Nat :=
  match aget (s.herd f i).conns orig with
  | some h => if (s.conn f h).state = .established ∨ (s.conn f h).state = .rekey then some h else none
  | none => none

/-- A connection to a member stands or is being set up. -/
def State.herdHas (s : State) (f i orig : Nat) : Bool :=
  match aget (s.herd f i).conns orig with
  | some h => (s.conn f h).state.live || (s.conn f h).state = .connecting || (s.conn f h).state = .slowpath
  | none => false

/-- Open a connection to a member. Of two members the one of lower original rank starts the handshake (DEDUCED, log 32) and the other waits, but
for a token's next member, to which its sender always starts it (`force`). Answers whether the quota had room. -/
def State.herdOpen (s : State) (f i orig : Nat) (force : Bool := false) : State × Bool :=
  let h := s.herd f i
  if s.herdHas f i orig ∨ orig = h.me ∨ (¬ force ∧ orig < h.me) then (s, true)
  else match s.pickHandle f with
    | none => (s, false)
    | some hd =>
      let b := h.bd
      let a := s.addrEnt (partOf f) b.laddrIdx
      let m := h.memb orig
      let cid : ConnId := { peerIp := m.ip, peerPort := if m.port = 0 then s.udpPort else m.port, service := 0, pmtu := b.pmtu, cls := 6,
                            ports := if b.ports = 0 then a.ports else b.ports, paths := b.paths, vid := a.vid, pcp := a.pcp,
                            ven := a.ven, laddrIdx := b.laddrIdx, tsel := b.tsel,
                            tc := (s.contribution (partOf f) b.tsel).getD none, herd := some (i, orig) }
      ((s.startHandshake f hd cid).modHerd f i fun h => { h with conns := aset h.conns orig hd }, true)

/-- Open every connection of a list; answers whether all had room. -/
def State.herdOpenAll (s : State) (f i : Nat) (l : List Nat) : State × Bool :=
  l.foldl (fun (acc : State × Bool) o => let (t, ok) := acc.1.herdOpen f i o; (t, acc.2 && ok)) (s, true)

/-- Every needed connection is ESTABLISHED. -/
def State.herdJoined (s : State) (f i : Nat) : Bool := (s.herd f i).need.all fun o => (s.herdConn f i o).isSome

/-- Connections of a herd close as it becomes FREE: established ones by FIN, the others at once. -/
def State.herdFree (s : State) (f i : Nat) : State :=
  let s := (s.herd f i).conns.foldl (fun (s : State) c =>
    let st := (s.conn f c.2).state
    if (s.conn f c.2).cid.herd ≠ some (i, c.1) then s
    else if st = .established ∨ st = .rekey then s.beginClose f c.2
    else if st = .closing ∨ st = .free then s else s.freeConn f c.2) s
  (s.dropCircuits (f, 0, i)).modFn f fun x => { x with herds := adel x.herds i }

/-! ### HERD_CREATE (R235, R236) -/

/-- The member table (R235), and whether a reserved bit of it is set. -/
def membsOf (n : Nat) (bs : List Byte) : List Memb :=
  (List.range n).map fun i =>
    let e := bs.drop (32 * i)
    ⟨leNat (e.take 16).reverse, numAt e 16 2, numAt e 18 2 % 4096⟩

def membsRsv (n : Nat) (bs : List Byte) : Bool :=
  (List.range n).any fun i => 4096 ≤ numAt (bs.drop (32 * i)) 18 2 || numAt (bs.drop (32 * i)) 20 12 ≠ 0

/-- Checks of HERD_CREATE that need no member table (R132, R137, R236). -/
def State.herdChecks (s : State) (f : Nat) (b : HerdBody) : List Status :=
  let a := s.addrEnt (partOf f) b.laddrIdx
  let ports := if b.ports = 0 then a.ports else b.ports
  ck (b.nmemb < 2 ∨ 8192 < b.nmemb ∨ b.nmemb ≤ b.rank ∨ 1024 ≤ b.hring ∨ 4 < b.defalg ∨ b.defchunk < 14 ∨ 22 < b.defchunk ∨
      b.paths = 0 ∨ 64 < b.paths ∨ 3 < b.pmtu ∨ 4 < b.rblk) .range ++
  ck (b.soff % 4096 ≠ 0 ∨ s.sliceLen f < b.soff + 1024 * b.slen ∨ 1024 * b.slen < 8 * 2 ^ b.defchunk) .range ++
  ck (s.qHerds f ≤ (s.fn f).herds.length) .range ++
  ck (isPf f = true ∨ 16 ≤ b.laddrIdx ∨ a.valid = false ∨ ports &&& (255 ^^^ a.ports) ≠ 0 ∨ ports = 0) .prot ++
  ck ((bitList 8 ports).any (fun q => s.maxFrame q < pmtuBytes b.pmtu + 158) = true) .range ++
  ck ((s.contribution (partOf f) b.tsel).isNone) .prot ++
  ck (s.noKeys = true) .internal

/-- R236: the herd is FORMING and its connections are asked for. -/
def State.herdForm (s : State) (f id : Nat) (b : HerdBody) (ms : List Memb) : State :=
  let i := firstGap ((s.fn f).herds.map (·.1)) 0
  let blocks := ((List.range 64).filter fun k => s.blockOwned f k ∧ s.regionOpen (regionOf k)).take b.rblk
  let h : Herd := { state := .forming, body := some b, membs := ms, op := id, since := s.now, blocks := blocks }
  let bad := (ms.getD b.rank ⟨0, 0, 0⟩).ip ≠ (s.addrEnt (partOf f) b.laddrIdx).ip
  s.checked f id (ck bad .range ++ ck (s.qConns f < s.connsUsed f + h.need.length) .range) fun s =>
    ((s.modHerd f i fun _ => h).herdOpenAll f i h.need).1

def effHerdCreate (b : HerdBody) (f id : Nat) (s : State) : State :=
  s.checked f id (s.herdChecks f b) fun s =>
    s.readHostFor f id b.mtab (32 * b.nmemb) fun bs s =>
      s.checked f id (ck (membsRsv b.nmemb bs = true) .range) fun s => s.herdForm f id b (membsOf b.nmemb bs)

/-- R235: HERD_CREATE. -/
def execHerdCreate (e : Entry) (b : HerdBody) (s : State) : Host.Outcome State Fault Refusal :=
  .next (s.startEntry e 0x200 len2 (.herdCreate e b) (effHerdCreate b e.fn.idx))

/-- R238: FORMING with every connection ESTABLISHED is READY in epoch 1, and HERD_CREATE ends OK with the herd index. -/
def State.herdReady (s : State) (f i : Nat) : State :=
  let h := s.herd f i
  if h.state = .forming ∧ s.herdJoined f i then
    (s.modHerd f i fun h => { h with state := .ready, mepoch := 1, hbAt := s.now,
                                     seen := h.membs.length |> List.range |>.map fun r => (r, s.now) }).endOp f h.op .ok 0 i
  else s

/-- R238: LOST_TIME in FORMING: the herd is FREE and HERD_CREATE ends PEER_LOST. -/
def State.herdFormTimeout (s : State) (f i : Nat) : State :=
  let h := s.herd f i
  if h.state = .forming ∧ h.since + s.lostTime ≤ s.now then (s.herdFree f i).endOp f h.op .peerLost 0 0 else s

def execHerdFormTimeout (fn : Fn) (herd now : Nat) (s : State) : Host.Outcome State Fault Refusal :=
  .next ((s.tick now).herdFormTimeout fn.idx herd)

/-! ### HERD_DESTROY and HERD_QUERY (R238, R239) -/

/-- R238: HERD_DESTROY. -/
def effHerdDestroy (herd : Nat) (f id : Nat) (s : State) : State :=
  let h := s.herd f herd
  s.checked f id
    (ck (h.state = .free) .range ++ ck (h.state = .forming ∨ h.state = .reforming ∨ h.state = .draining) .state)
    fun s =>
      if h.state = .running then
        let s := s.modHerd f herd fun h => { h with state := .draining, destroy := some id, queue := [] }
        h.queue.foldl (fun s c => s.endOp f c.op .flushed 0 0) s
      else (s.herdFree f herd).endOp f id .ok 0 0

def execHerdDestroy (e : Entry) (herd : Nat) (s : State) : Host.Outcome State Fault Refusal :=
  .next (s.startEntry e 0x201 len1 (.herdDestroy e herd) (effHerdDestroy herd e.fn.idx))

def HerdSt.code : HerdSt → Nat
  | .free => 0 | .forming => 1 | .ready => 2 | .running => 3 | .reforming => 4 | .broken => 5 | .draining => 6

/-- R239: the record. -/
def Herd.record (h : Herd) : List Byte :=
  leBytes 1 h.state.code ++ leBytes 1 0 ++ leBytes 2 h.mepoch ++ leBytes 4 h.size ++ leBytes 2 h.rank ++ leBytes 6 0 ++
  leBytes 8 h.cseq ++ (List.range h.membs.length).flatMap fun r => leBytes 2 ((aget h.dropped r).getD 0)

def effHerdQuery (herd addr : Nat) (f id : Nat) (s : State) : State :=
  let h := s.herd f herd
  s.checked f id (ck (h.state = .free) .range) fun s => s.writeRecord f id addr h.record 0

def execHerdQuery (e : Entry) (herd addr : Nat) (s : State) : Host.Outcome State Fault Refusal :=
  .next (s.startEntry e 0x202 len1 (.herdQuery e herd addr) (effHerdQuery herd addr e.fn.idx))

end Sys2Proof.Machine
end

