-- ==== Sys2Proof/Machine/CollPlan.lean ====
section
/-!
DEFINITION. CollPlan.lean: the checks of a collective, its signature, and its cut into pieces with one route each (R240-R250, R254).
-/

namespace Sys2Proof

open Machine

/-! ### Signature (R243) -/

namespace Machine

/-- CRC-16/CCITT-FALSE, one bit and one byte at a time. -/
def crc16Bit (c : Nat) : Nat := if 0x8000 ≤ c then (2 * c % 65536) ^^^ 0x1021 else 2 * c

def crc16Byte (c : Nat) (b : Byte) : Nat :=
  crc16Bit (crc16Bit (crc16Bit (crc16Bit (crc16Bit (crc16Bit (crc16Bit (crc16Bit (c ^^^ (256 * b.toNat)))))))))

def crc16 (l : List Byte) : Nat := l.foldl crc16Byte 0xFFFF

end Machine

/-- Bytes 11 and 12 of the body (R240). -/
def CollBody.fmtByte (b : CollBody) : Nat := b.ifmt + 16 * b.ofmt

def CollBody.redByte (b : CollBody) : Nat := b.op + 16 * b.mode + 64 * bit b.pacc + 128 * bit b.sat

namespace Machine

/-- Dispatch and combine. -/
def isRows (opcode : Nat) : Bool := opcode = 0x216 || opcode = 0x217

end Machine

def CollBody.sig (b : CollBody) (opcode clog : Nat) : Nat :=
  crc16 (leBytes 2 opcode ++ leBytes 1 b.alg ++ leBytes 1 b.fmtByte ++ leBytes 1 b.redByte ++ leBytes 2 b.root ++ leBytes 8 b.count ++
    leBytes 1 clog ++ leBytes 1 (if b.qen then b.qblk.wfmt else 0) ++
    (if isRows opcode then leBytes 4 b.ntok ++ leBytes 2 b.rowb ++ leBytes 1 b.k else leBytes 7 0))

/-! ### What a collective is (R241, R244) -/

namespace Machine

/-- All-reduce, reduce-scatter and reduce. -/
def isRed (opcode : Nat) : Bool := opcode = 0x210 || opcode = 0x211 || opcode = 0x214

end Machine

/-- A barrier, or a collective of no elements. -/
def CollBody.isBarrier (b : CollBody) (opcode : Nat) : Bool := opcode = 0x218 || (b.count = 0 && ¬ isRows opcode)

/-- The chunk log in force. -/
def CollBody.clog (b : CollBody) (h : Herd) : Nat := if b.chunk = 0 then h.bd.defchunk else b.chunk

/-- R244: the algorithm that runs among n members. Hierarchical on uneven groups, which only a re-formation can bring about, runs as a
bidirectional ring (DEDUCED, log 33). -/
def CollBody.runAlg (b : CollBody) (opcode n : Nat) (even : Bool) : Nat :=
  let a := if b.alg = 0 then (if b.count * fmtBits b.ifmt < 2 ^ 24 * n then 3 else 2) else b.alg
  let a := if a = 4 ∧ ¬ even then 2 else a
  if b.isBarrier opcode then 3
  else if opcode = 0x211 ∨ opcode = 0x212 then (if a = 3 then 2 else a)
  else if opcode = 0x213 ∨ opcode = 0x214 then (if a = 2 then 1 else if a = 4 then 3 else a)
  else a

/-- Floating-point SUM in reproducible or exact mode; other operators and formats act as R219. -/
def CollBody.repro (b : CollBody) (opcode : Nat) : Bool := isRed opcode && b.op = 0 && b.mode = 1 && ¬ fmtInt b.ifmt

def CollBody.exact (b : CollBody) (opcode : Nat) : Bool := isRed opcode && b.op = 0 && b.mode = 2 && ¬ fmtInt b.ifmt

/-- The partial format (R223); with quantisation a combination is rounded to FP32 (R221). -/
def CollBody.pfmt (b : CollBody) : Nat := if b.qen then 0 else partialFmt b.ifmt b.pacc

/-- The format of a final value on the wire. -/
def CollBody.wireFmt (b : CollBody) : Nat := if b.qen then b.qblk.wfmt else b.ofmt

/-- Elements of a row (dispatch, combine). -/
def CollBody.rowElems (b : CollBody) : Nat := b.rowb * 8 / max 1 (fmtBits b.ifmt)

/-- Length of the tensor a member sends, for its residual region (R228). -/
def CollBody.tensorLen (b : CollBody) (opcode n : Nat) : Nat :=
  if opcode = 0x211 ∨ opcode = 0x215 then n * b.count
  else if opcode = 0x216 then b.ntok * b.rowElems
  else if opcode = 0x217 then b.cap * b.rowElems
  else b.count

/-- Bytes of SRC and DST at a member (R241, R258). -/
def CollBody.srcLen (b : CollBody) (opcode n : Nat) (root : Bool) : Nat :=
  if b.isBarrier opcode then 0
  else if opcode = 0x211 then tensorBytes b.ifmt (n * b.count)
  else if opcode = 0x215 then n * tensorBytes b.ifmt b.count
  else if opcode = 0x213 then (if root then tensorBytes b.ifmt b.count else 0)
  else if opcode = 0x216 then b.ntok * b.rowb
  else if opcode = 0x217 then b.cap * b.rowb
  else tensorBytes b.ifmt b.count

def CollBody.dstLen (b : CollBody) (opcode n : Nat) (root : Bool) : Nat :=
  if b.isBarrier opcode then 0
  else if opcode = 0x212 ∨ opcode = 0x215 then n * tensorBytes b.ofmt b.count
  else if opcode = 0x214 then (if root then tensorBytes b.ofmt b.count else 0)
  else if opcode = 0x216 then b.cap * b.rowb
  else if opcode = 0x217 then b.ntok * b.rowb
  else tensorBytes b.ofmt b.count

/-! ### Checks (R218, R227, R240-R242, R257, R258) -/

/-- A reserved field of the body is not zero (R12, R227, R240, R241, R257). -/
def CollBody.rsv (b : CollBody) (opcode : Nat) : Bool :=
  (¬ (opcode = 0x213 || opcode = 0x214) && b.root ≠ 0) ||
  (¬ isRed opcode && (b.op ≠ 0 || b.mode ≠ 0 || b.pacc)) ||
  (¬ b.qen && b.qblk ≠ ⟨0, false, false, 0⟩) || (b.qen && ¬ b.qblk.ef && b.qblk.resOff ≠ 0) ||
  (isRows opcode && b.count ≠ 0) || (opcode = 0x216 && b.wtab ≠ 0) ||
  (¬ isRows opcode && (b.ntok ≠ 0 || b.rowb ≠ 0 || b.k ≠ 0 || b.rtab ≠ 0 || b.emap ≠ 0 || b.nexp ≠ 0 || b.cap ≠ 0 || b.cnt ≠ 0 ||
    b.wtab ≠ 0 || b.mta ≠ 0))

namespace Machine

/-- R227, R228: what quantisation refuses; R332: a residual region on a page without a key. -/
def State.quantChecks (s : State) (f : Nat) (b : CollBody) (opcode n : Nat) : List Status :=
  if b.qen then
    let q := b.qblk
    let len := b.tensorLen opcode n
    ck (¬ (7 ≤ q.wfmt ∧ q.wfmt ≤ 9) ∨ 2 < b.ifmt ∨ b.mode = 2 ∨ b.op ≠ 0) .range ++
    (if q.ef then
      ck (q.resOff % 256 ≠ 0 ∨ s.sliceLen f < q.resOff + 256 + 8 * len) .range ++
      ck (¬ q.reset ∧ s.sliceLen f ≥ q.resOff + 256 ∧ leNat (s.sliceRead f (q.resOff + 8) 8) ≠ len) .range ++
      s.sliceCheck f q.resOff (256 + 8 * len)
    else [])
  else []

end Machine

/-- R257, R258: dispatch and combine. -/
def CollBody.rowChecks (b : CollBody) : List Status :=
  ck (2 ^ 20 < b.ntok ∨ b.rowb < 64 ∨ b.rowb % 64 ≠ 0 ∨ b.k = 0 ∨ 8 < b.k ∨ b.nexp = 0 ∨ fmtMx b.ifmt = true ∨
      b.rowb * 8 % max 1 (fmtBits b.ifmt) ≠ 0) .range

namespace Machine

/-- Every check of a collective before any exchange (R242) but those of its tables. -/
def State.collChecks (s : State) (f ring opcode : Nat) (b : CollBody) : List Status :=
  let h := s.herd f b.herd
  let n := h.size
  let cl := b.clog h
  let root := decide (b.root = h.rank)
  let src := b.srcLen opcode n root
  let dst := b.dstLen opcode n root
  ck (h.state = .free) .range ++
  ck (h.state ≠ .free ∧ (ring ≠ h.bd.hring ∨ 4 < b.alg ∨ cl < 14 ∨ 22 < cl ∨ 1024 * h.bd.slen < 8 * 2 ^ cl)) .range ++
  ck (2 ^ 40 < b.count ∨ fmtOk b.ifmt = false ∨ fmtOk b.ofmt = false ∨ b.rsv opcode = true) .range ++
  (if isRed opcode then ck (opBad b.op b.mode b.ifmt = true ∨ h.bd.rblk = 0) .range else ck (b.ifmt ≠ b.ofmt) .range) ++
  ck ((opcode = 0x213 ∨ opcode = 0x214) ∧ n ≤ b.root) .range ++
  ck (opcode = 0x215 ∧ h.bd.a2a = false) .range ++
  ck (b.alg = 4 ∧ (opcode = 0x210 ∨ opcode = 0x211 ∨ opcode = 0x212) ∧ evenGroups h.groups = false) .range ++
  (if isRows opcode then b.rowChecks else []) ++
  s.quantChecks f b opcode n ++
  ck ((b.ltEn = true ∧ s.tallyOk f b.ltally = false) ∨ (b.ptEn = true ∧ s.tallyOk f b.ptally = false)) .range ++
  (if src = 0 then [] else s.locCheck f b.sspace b.src src) ++ (if dst = 0 then [] else s.locCheck f b.dspace b.dst dst)

/-! ### Routes (R245, R247) -/

/-- STEP of what a rank sends along a ring (R245): the hops that a segment completed at rank j has made before it is a final, and after. -/
def ringUpStep (n j : Nat) (fwd : Bool) (r : Nat) : Nat := if fwd then (r + 2 * n - j - 1) % n else (j + 2 * n - 1 - r) % n
def ringDownStep (n j : Nat) (fwd : Bool) (r : Nat) : Nat := if fwd then (r + n - j) % n else (j + n - r) % n

/-- The reduction along a ring that completes at rank j: who sends to this rank, and whom it sends to. -/
def ringRed (n j : Nat) (fwd : Bool) (r : Nat) : List Nat × Option Nat :=
  let d := ringUpStep n j fwd r
  let next := if fwd then (r + 1) % n else (r + n - 1) % n
  let prev := if fwd then (r + n - 1) % n else (r + 1) % n
  (if d = 0 then [] else [prev], if d = n - 1 then none else some next)

/-- The distribution along a ring from rank j over `len` hops. -/
def ringDist (n j : Nat) (fwd : Bool) (r len : Nat) : Option Nat × List Nat :=
  let d := ringDownStep n j fwd r
  let next := if fwd then (r + 1) % n else (r + n - 1) % n
  let prev := if fwd then (r + n - 1) % n else (r + 1) % n
  (if d = 0 ∨ len < d then none else some prev, if d < len then [next] else [])

/-- The heap tree over (r − root) mod n, and the one over n − 1 − r. -/
def treeKids (n root : Nat) (flip : Bool) (r : Nat) : List Nat :=
  if flip then (heapKids n (n - 1 - r)).map fun v => n - 1 - v else (heapKids n ((r + n - root) % n)).map fun v => (v + root) % n

def treeUp (n root : Nat) (flip : Bool) (r : Nat) : Option Nat :=
  if flip then (heapUp (n - 1 - r)).map fun v => n - 1 - v else (heapUp ((r + n - root) % n)).map fun v => (v + root) % n

/-- Hierarchical reduction of a run completed at position j of group i: a chain within each group, then one across the groups. -/
def hierRed (gs : List (List Nat)) (i j r : Nat) : List Nat × Option Nat :=
  let (g, p) := groupPos gs r
  let m := (gs.headD []).length
  let q := gs.length
  if p ≠ j then
    ((if (p + m - j) % m = 1 then [] else [atGroup gs g (p + m - 1)]), some (atGroup gs g (p + 1)))
  else
    ((if 1 < m then [atGroup gs g (p + m - 1)] else []) ++ (if (g + q - i) % q = 1 % q then [] else [atGroup gs (g + q - 1) p]),
     if g = i then none else some (atGroup gs (g + 1) p))

/-- Hierarchical distribution from position j of group i: across the groups, then within each group. -/
def hierDist (gs : List (List Nat)) (i j r : Nat) : Option Nat × List Nat :=
  let (g, p) := groupPos gs r
  let m := (gs.headD []).length
  let q := gs.length
  if p ≠ j then (some (atGroup gs g (p + m - 1)), if (p + 1) % m = j then [] else [atGroup gs g (p + 1)])
  else
    (if g = i then none else some (atGroup gs (g + q - 1) p),
     (if (g + 1) % q = i then [] else [atGroup gs (g + 1) p]) ++ (if 1 < m then [atGroup gs g (p + 1)] else []))

/-! ### Runs and pieces (R245, R250) -/

/-- A run of elements of one block with one route. `base` is the block's first element on the wire, `chunk0` its first chunk, `src0` and
`dst0` where the block lies in SRC and DST. -/
structure Run where
  base   : Nat
  chunk0 : Nat
  lo     : Nat
  hi     : Nat
  kids   : List Nat := []
  up     : Option Nat := none
  from_  : Option Nat := none
  down   : List Nat := []
  want   : Bool
  upStep : Option Nat := none
  downStep : Option Nat := none
  src0   : Nat := 0
  dst0   : Nat := 0
  deriving DecidableEq, Repr

/-- The pieces of a run, one for each chunk it touches; ids are given afterwards. -/
def Run.cut (x : Run) (copy : Bool) (ifmt ofmt ce : Nat) : List Piece :=
  if x.hi ≤ x.lo then [] else
    let a := (x.lo - x.base) / max 1 ce
    let z := (x.hi - 1 - x.base) / max 1 ce
    (List.range (z - a + 1)).map fun i =>
      let lo := max x.lo (x.base + (a + i) * ce)
      let hi := min x.hi (x.base + (a + i + 1) * ce)
      { id := 0, chunk := x.chunk0 + a + i, lo := lo, n := hi - lo,
        src := if copy then x.src0 + tensorBytes ifmt (lo - x.base) else lo, dst := x.dst0 + tensorBytes ofmt (lo - x.base),
        kids := x.kids, up := x.up, from_ := x.from_, down := x.down, want := x.want, upStep := x.upStep, downStep := x.downStep }

/-- A run that goes round the ring: its steps are numbered, those of its distribution after the n − 1 of its reduction (R245, R247). -/
def Run.ring (x : Run) (n j : Nat) (fwd : Bool) (r : Nat) : Run :=
  { x with upStep := some (ringUpStep n j fwd r), downStep := some (n - 1 + ringDownStep n j fwd r) }

/-- Cut a range in halves, or leave it whole: (lo, hi, forward). -/
def halves (alg lo hi g : Nat) : List (Nat × Nat × Bool) :=
  if alg = 2 then
    let m := min hi (lo + roundUp (ceilDiv (hi - lo) 2) g)
    [(lo, m, true), (m, hi, false)]
  else [(lo, hi, true)]

/-- What the plan of a collective depends on. -/
structure PlanIn where
  opcode : Nat
  b      : CollBody
  alg    : Nat
  n      : Nat
  r      : Nat
  gs     : List (List Nat)
  own    : List (Option Nat)
  me     : Nat
  ce     : Nat
  g      : Nat
  deriving DecidableEq, Repr

/-- Chunks of one block. -/
def PlanIn.cpb (x : PlanIn) : Nat := ceilDiv x.b.count (max 1 x.ce)

/-- The blocks whose owner is still a member: index and current rank. -/
def PlanIn.blocks (x : PlanIn) : List (Nat × Nat) :=
  (List.range x.own.length).filterMap fun j => match x.own.getD j none with | some o => some (j, o) | none => none

/-- Runs of an all-reduce. -/
def PlanIn.allReduce (x : PlanIn) : List Run :=
  let c := x.b.count
  let n := x.n
  let r := x.r
  let mk := fun (lo hi : Nat) (red : List Nat × Option Nat) (dist : Option Nat × List Nat) =>
    ({ base := 0, chunk0 := 0, lo := lo, hi := min c hi, kids := red.1, up := red.2, from_ := dist.1, down := dist.2, want := true } : Run)
  let tree := fun (flip : Bool) => ((treeKids n 0 flip r, treeUp n 0 flip r), (treeUp n 0 flip r, treeKids n 0 flip r))
  if x.b.repro x.opcode then
    let chain := (mk 0 c (ringRed n (n - 1) true r) (ringDist n (n - 1) true r (n - 1))).ring n (n - 1) true r
    [if x.b.alg = 0 ∨ x.b.alg = 3 then { chain with from_ := (tree true).2.1, down := (tree true).2.2, downStep := none } else chain]
  else if x.alg = 3 then
    let m := min c (roundUp (ceilDiv c 2) x.g)
    [mk 0 m (tree false).1 (tree false).2, mk m c (tree true).1 (tree true).2]
  else if x.alg = 4 then
    let m := (x.gs.headD []).length
    let q := x.gs.length
    let sz := roundUp (ceilDiv c (max 1 m)) x.g
    (List.range m).flatMap fun j =>
      let lo := j * sz
      let hi := min c (lo + sz)
      let sub := roundUp (ceilDiv (hi - lo) (max 1 q)) x.g
      (List.range q).map fun i => mk (lo + i * sub) (min hi (lo + (i + 1) * sub)) (hierRed x.gs i j r) (hierDist x.gs i j r)
  else
    let sz := roundUp (ceilDiv c n) x.g
    (List.range n).flatMap fun j => (halves x.alg (j * sz) (min c ((j + 1) * sz)) x.g).map fun h =>
      (mk h.1 h.2.1 (ringRed n j h.2.2 r) (ringDist n j h.2.2 r (n - 1))).ring n j h.2.2 r

/-- Runs of a reduce-scatter: block j goes to its owner. -/
def PlanIn.reduceScatter (x : PlanIn) : List Run :=
  let c := x.b.count
  x.blocks.flatMap fun (j, o) =>
    let mk := fun (lo hi : Nat) (red : List Nat × Option Nat) (dist : Option Nat × List Nat) =>
      ({ base := j * c, chunk0 := j * x.cpb, lo := lo, hi := hi, kids := red.1, up := red.2, from_ := dist.1, down := dist.2,
         want := decide (o = x.r) } : Run)
    if x.b.repro x.opcode then
      [(mk (j * c) ((j + 1) * c) (ringRed x.n (x.n - 1) true x.r) (ringDist x.n (x.n - 1) true x.r ((o + 1) % x.n))).ring x.n (x.n - 1) true x.r]
    else if x.alg = 4 then
      let (g, p) := groupPos x.gs o
      [mk (j * c) ((j + 1) * c) (hierRed x.gs g p x.r) (none, [])]
    else (halves x.alg (j * c) ((j + 1) * c) x.g).map fun h => (mk h.1 h.2.1 (ringRed x.n o h.2.2 x.r) (none, [])).ring x.n o h.2.2 x.r

/-- Runs of a reduce. On the ring each segment is completed at its own rank and relayed to ROOT. -/
def PlanIn.reduce (x : PlanIn) : List Run :=
  let c := x.b.count
  match x.own.getD x.b.root none with
  | none => []
  | some o =>
    let mk := fun (lo hi : Nat) (red : List Nat × Option Nat) (dist : Option Nat × List Nat) =>
      ({ base := 0, chunk0 := 0, lo := lo, hi := min c hi, kids := red.1, up := red.2, from_ := dist.1, down := dist.2,
         want := decide (o = x.r) } : Run)
    if x.b.repro x.opcode then
      [(mk 0 c (ringRed x.n (x.n - 1) true x.r) (ringDist x.n (x.n - 1) true x.r ((o + 1) % x.n))).ring x.n (x.n - 1) true x.r]
    else if x.alg = 3 then [mk 0 c (treeKids x.n o false x.r, treeUp x.n o false x.r) (none, [])]
    else
      let sz := roundUp (ceilDiv c x.n) x.g
      (List.range x.n).map fun j =>
        (mk (j * sz) ((j + 1) * sz) (ringRed x.n j true x.r) (ringDist x.n j true x.r ((o + x.n - j) % x.n))).ring x.n j true x.r

/-- Runs of an all-gather: block j leaves its owner. -/
def PlanIn.allGather (x : PlanIn) : List Run :=
  let c := x.b.count
  let bb := tensorBytes x.b.ifmt c
  x.blocks.flatMap fun (j, o) =>
    let mk := fun (lo hi : Nat) (dist : Option Nat × List Nat) =>
      ({ base := j * c, chunk0 := j * x.cpb, lo := lo, hi := hi, from_ := dist.1, down := dist.2, want := true, dst0 := j * bb } : Run)
    if x.alg = 4 then
      let (g, p) := groupPos x.gs o
      [mk (j * c) ((j + 1) * c) (hierDist x.gs g p x.r)]
    else (halves x.alg (j * c) ((j + 1) * c) x.g).map fun h =>
      { mk h.1 h.2.1 (ringDist x.n o h.2.2 x.r (x.n - 1)) with downStep := some (ringDownStep x.n o h.2.2 x.r) }

/-- The run of a broadcast. -/
def PlanIn.bcast (x : PlanIn) : List Run :=
  match x.own.getD x.b.root none with
  | none => []
  | some o =>
    let dist := if x.alg = 3 then (treeUp x.n o false x.r, treeKids x.n o false x.r) else ringDist x.n o true x.r (x.n - 1)
    [{ base := 0, chunk0 := 0, lo := 0, hi := x.b.count, from_ := dist.1, down := dist.2, want := true,
       downStep := if x.alg = 3 then none else some (ringDownStep x.n o true x.r) }]

/-- Runs of an all-to-all: on the wire a block lies where it lies in its receiver's DST. -/
def PlanIn.allToAll (x : PlanIn) : List Run :=
  let c := x.b.count
  let bb := tensorBytes x.b.ifmt c
  let mk := fun (j : Nat) (from_ : Option Nat) (down : List Nat) (want : Bool) (src0 : Nat) =>
    ({ base := j * c, chunk0 := j * x.cpb, lo := j * c, hi := (j + 1) * c, from_ := from_, down := down, want := want, src0 := src0,
       dst0 := j * bb } : Run)
  x.blocks.flatMap fun (j, o) =>
    if o = x.r then [mk j none [] true (j * bb)] else [mk j (some o) [] true 0, mk x.me none [o] false (j * bb)]

/-- The pieces of a collective at this member. -/
def PlanIn.pieces (x : PlanIn) : List Piece :=
  let copy := ¬ isRed x.opcode
  let runs := if x.b.isBarrier x.opcode ∨ isRows x.opcode then [] else
    if x.opcode = 0x210 then x.allReduce else if x.opcode = 0x211 then x.reduceScatter else if x.opcode = 0x214 then x.reduce
    else if x.opcode = 0x212 then x.allGather else if x.opcode = 0x213 then x.bcast else x.allToAll
  let l := runs.flatMap fun y => y.cut copy x.b.ifmt x.b.ofmt x.ce
  ((List.range l.length).zip l).map fun y => { y.2 with id := y.1 }

/-- Elements of a chunk: 2^CHUNK bytes of input, in whole MX groups (R250). -/
def Coll.chunkElems (c : Coll) : Nat :=
  if fmtMx c.body.ifmt then 2 ^ c.clog / mxGroup c.body.ifmt * 256 else 2 ^ c.clog * 8 / max 1 (fmtBits c.body.ifmt)

/-- The plan's inputs at this member of a herd. Runs are rounded to whole MX groups when any format of the collective is MX. -/
def planOf (h : Herd) (c : Coll) : PlanIn :=
  let b := c.body
  let mx := fmtMx b.ifmt || fmtMx b.ofmt || b.qen
  let gs := h.groups
  { opcode := c.opcode, b := b, alg := b.runAlg c.opcode h.size (evenGroups gs), n := h.size, r := h.rank, gs := gs,
    own := c.owners.map h.rankOf, me := (c.owners.findIdx? (· = h.me)).getD 0,
    ce := c.chunkElems,
    g := if mx then 256 else 1 }

/-- Chunks of the whole collective (R255). -/
def PlanIn.chunkCount (x : PlanIn) : Nat :=
  if x.b.isBarrier x.opcode ∨ isRows x.opcode then 0
  else if x.opcode = 0x211 ∨ x.opcode = 0x212 ∨ x.opcode = 0x215 then x.own.length * x.cpb else x.cpb

/-! ### Packets of a message (R250) -/

/-- A collective's BULK extension at this member. -/
def collExt (h : Herd) (c : Coll) (kind chunk pfmt step : Nat) : BulkExt :=
  { kind := kind, mepoch := h.mepoch, cseq := c.cseq, sig := c.sig, srank := h.rank, step := step, eoff := 0, nelem := 0, chunk := chunk,
    esc0 := 0, nesc := 0, pfmt := pfmt, exact := false }

/-- Packets of n elements of a format from an offset: lengths and extensions. Every packet carries whole MX groups. -/
def packFmt (x : BulkExt) (pm fmt lo n : Nat) : List (Nat × Ext) :=
  let per := if fmtMx fmt then max 1 (pm / mxGroup fmt) * 256 else max 1 (pm * 8 / max 1 (fmtBits fmt))
  (List.range (max 1 (ceilDiv n per))).map fun i =>
    let m := min per (n - i * per)
    (tensorBytes fmt m, Ext.coll { x with eoff := lo + i * per, nelem := m })

/-- Packets of exact records with the escapes they reference: bytes, lengths and extensions. `cur` gathers the open packet: records,
escapes, elements. -/
def packExact (x : BulkExt) (pm : Nat) (l : List Exact) (lo esc0 : Nat) (recs escs : List Byte) (ne nx : Nat)
    (acc : List Byte × List (Nat × Ext)) : List Byte × List (Nat × Ext) :=
  let close := fun (_ : Unit) =>
    (acc.1 ++ recs ++ escs, acc.2 ++ [(recs.length + escs.length,
      Ext.coll { x with eoff := lo, nelem := ne, esc0 := esc0, nesc := nx, exact := true })])
  match l with
  | [] => if ne = 0 then acc else close ()
  | a :: t =>
    let need := 16 + if a.wide then 40 else 0
    let one := leBytes 16 (a.record (esc0 + nx))
    let esc := if a.wide then leBytes 40 (unsignedOf 320 a.val) else []
    if ne = 0 ∨ recs.length + escs.length + need ≤ pm then
      packExact x pm t lo esc0 (recs ++ one) (escs ++ esc) (ne + 1) (nx + bit a.wide) acc
    else packExact x pm t (lo + ne) (esc0 + nx) one esc 1 (bit a.wide) (close ())

/-! ### Received pieces -/

/-- Elements that have come. -/
def gotCount (l : List Got) : Nat := l.foldl (fun n g => n + g.nelem) 0

/-- The payload in element order. -/
def gotBytes (l : List Got) : List Byte := (sortBy (fun a b => decide (a.eoff ≤ b.eoff)) l).flatMap (·.data)

/-- One record of a packet; none where its escape is not in the packet's list or its SHIFT is out of range. -/
def Got.exactAt (g : Got) (i : Nat) : Option Exact :=
  let w := numAt g.data (16 * i) 16
  let escs := (List.range g.nesc).map fun k => numAt g.data (16 * g.nelem + 40 * k) 40
  if w.testBit 124 then
    if w % 2 ^ 32 < g.esc0 then none else exactOf (w - g.esc0) escs
  else exactOf w escs

/-- The exact records of a piece in element order. -/
def gotExact (l : List Got) : List (Option Exact) :=
  (sortBy (fun a b => decide (a.eoff ≤ b.eoff)) l).flatMap fun g => (List.range g.nelem).map g.exactAt

end Machine

end Sys2Proof
end

