-- ==== Sys2Proof/Machine/Coll.lean ====
section
/-!
DEFINITION. Coll.lean: posting, starting, carrying and ending the collectives of a herd (R219-R232, R242, R243, R246-R258).
-/

namespace Sys2Proof.Machine

/-! ### The running collective -/

def State.modRun (s : State) (f i : Nat) (g : Coll → Coll) : State := s.modHerd f i fun h => { h with run := h.run.map g }

def State.modPiece (s : State) (f i id : Nat) (g : Piece → Piece) : State :=
  s.modRun f i fun c => { c with pieces := c.pieces.map fun p => if p.id = id then g p else p }

/-- The ibex block that combines a chunk: the herd's blocks take chunks in turn (DESIGN CHOICE, log 155). A herd without blocks combines on
none. -/
def Herd.blockOf (h : Herd) (chunk : Nat) : Option Nat := h.blocks[chunk % max 1 h.blocks.length]?

/-- Count what the arithmetic of a chunk raised on the block that does it (R233); where no block does it, no block counts it (log 155). -/
def State.herdExc (s : State) (f i chunk : Nat) (x : Exc) : State :=
  match (s.herd f i).blockOf chunk with
  | some b => s.countExc b x
  | none => s

/-- Change the counters of the block that combines a chunk. -/
def State.herdIbex (s : State) (f i chunk : Nat) (g : IbexCnt → IbexCnt) : State :=
  match (s.herd f i).blockOf chunk with
  | some b => s.modIbex b g
  | none => s

/-- The ibex blocks of a herd as a mask. -/
def Herd.blockMask (h : Herd) : Nat := h.blocks.foldl (fun n b => n ||| 2 ^ b) 0

/-- STEP of a packet: the manual numbers the steps of rings and of the rank chain only (R245, R247, R250); others are open. -/
def State.stepOf (s : State) (o : Option Nat) : State × Nat :=
  match o with
  | some k => (s, k)
  | none => (s.bump, s.freeVal % 2 ^ 32)

/-- Handles of a herd's connections that carry traffic. -/
def State.herdLinks (s : State) (f i : Nat) : List (Nat × Nat) :=
  (s.herd f i).conns.filter fun c => ((s.conn f c.2).state = .established ∨ (s.conn f c.2).state = .rekey) ∧ (s.conn f c.2).cid.herd = some (i, c.1)

/-- Queue a message given by its packets. -/
def State.queuePkts (s : State) (f hd : Nat) (pkts : List (Nat × Ext)) (src : Src) (for_ : MsgFor) : State :=
  match pkts with
  | [] => s
  | x :: _ =>
    s.modConn f hd fun c =>
      { c with tx := { c.tx with msn := (c.tx.msn + 1) % 2 ^ 32,
                                 sendq := c.tx.sendq ++ [{ msn := c.tx.msn, ext := x.2, len := pkts.foldl (fun n y => n + y.1) 0,
                                                           src := src, for_ := for_, pkts := pkts }] },
               tm := if c.tx.sent = [] ∧ c.tx.sendq = [] then { c.tm with progress := s.now } else c.tm }

/-- Connections to current ranks stand. -/
def State.ranksUp (s : State) (f i : Nat) (l : List Nat) : Bool := l.all fun r => (s.herdConn f i ((s.herd f i).orig r)).isSome

/-- Send a message to a current rank, if its connection stands. -/
def State.collSend (s : State) (f i rank : Nat) (pkts : List (Nat × Ext)) (src : Src) (piece : Nat) : State :=
  match s.herdConn f i ((s.herd f i).orig rank) with
  | some hd => s.queuePkts f hd pkts src (.coll i piece)
  | none => s

/-- A message of a herd's collective. -/
def MsgFor.isColl (m : MsgFor) (i : Nat) : Bool := match m with | .coll j _ => j = i | _ => false

/-- The unbegun messages of a collective that has ended are not sent. -/
def State.dropColl (s : State) (f i : Nat) : State :=
  (s.herd f i).conns.foldl (fun s c => s.modConn f c.2 fun x =>
    { x with tx := { x.tx with sendq := x.tx.sendq.filter fun m => m.begun ∨ ¬ m.for_.isColl i } }) s

/-! ### Endings (R238, R243, R348) -/

/-- The running collective is over: the herd goes on to the next, to READY, or to FREE. -/
def State.herdAfter (s : State) (f i : Nat) : State :=
  let s := (s.dropCircuits (f, 0, i)).modHerd f i fun h =>
    { h with run := none, state := if h.state = .running ∧ h.queue = [] then .ready else h.state }
  match (s.herd f i).destroy with
  | some id => (s.herdFree f i).endOp f id .ok 0 0
  | none => s

/-- The running collective ends with a failure. -/
def State.collStop (s : State) (f i : Nat) (st : Status) (detail : Nat) : State :=
  match (s.herd f i).run with
  | none => s
  | some c => ((s.dropColl f i).endOp f c.op st c.bytes detail).herdAfter f i

/-- A herd is BROKEN: its running and queued collectives end PEER_LOST (R238, R454); a DRAINING one becomes FREE as its collective ends. -/
def State.herdBreak (s : State) (f i : Nat) : State :=
  let h := s.herd f i
  let s := s.modHerd f i fun h => { h with state := .broken, queue := [], held := [] }
  (h.queue.foldl (fun s c => s.endOp f c.op .peerLost 0 0) s).collStop f i .peerLost 0

/-- HALT goes to every herd neighbour (R243). CAUSE of the packet is the model's: the manual lists no fields beyond KIND. -/
def State.sendHalt (s : State) (f i : Nat) : State :=
  let h := s.herd f i
  match h.run with
  | none => s
  | some c => (s.herdLinks f i).foldl (fun s x => s.queuePkts f x.2 [(0, .halt h.mepoch c.cseq h.me 0)] .none .nak) s

/-- This member halts the collective: HALT, then its own end. -/
def State.collHalt (s : State) (f i : Nat) (st : Status) (detail : Nat) : State := (s.sendHalt f i).collStop f i st detail

/-- A refused or poisoned granule of SRC or DST (R344, R348). -/
def State.collBad (s : State) (f i addr : Nat) (poison : Bool) : State :=
  match (s.herd f i).run with
  | none => s
  | some c => s.collHalt f i (if poison ∨ c.wrote then .poison else .prot) (granuleDetail addr)

/-- The end a HALT or a signature mismatch brings (R243). -/
def State.collMismatch (s : State) (f i : Nat) : State :=
  match (s.herd f i).run with
  | none => s
  | some c => s.collHalt f i (if c.wrote then .peerLost else .range) 0

/-! ### Reading and writing local memory -/

/-- A channel of an operation waits for a page, beside others of it that may wait for theirs; its command runs again when the page is resolved (R343,
R348). -/
def State.collPark (s : State) (f op page : Nat) (wr : Bool) : State :=
  match s.op? f op with
  | some o =>
    if o.park = some (page, wr) ∨ o.chans.any (fun c => c.page = page && c.wr = wr) then s
    else if o.park.isSome then (s.modOp f op fun o => { o with chans := o.chans ++ [{ page := page, wr := wr }] }).askXlate f page wr
    else s.parkOp f op page wr
  | none => s

/-- Go on once ranges (slice, address, length, write) can be used. -/
def State.collReach (s : State) (f i : Nat) (l : List (Bool × Nat × Nat × Bool)) (k : State → State) : State :=
  match (s.herd f i).run with
  | none => s
  | some c =>
    match l.findSome? fun x => (s.locMiss f x.1 x.2.1 x.2.2.1 x.2.2.2).map fun p => (p, x.2.2.2) with
    | some (p, wr) => s.collPark f c.op p wr
    | none =>
      match (l.filter fun x => ¬ x.2.2.2).findSome? fun x => s.locPoison f x.1 x.2.1 x.2.2.1 with
      | some a => s.collBad f i a true
      | none => k (l.foldl (fun s x => if x.2.2.2 then s else s.locUse f x.1 x.2.1 x.2.2.1) s)

/-- Where the elements of a piece lie in SRC; MX groups are read whole. -/
def Coll.srcRange (c : Coll) (p : Piece) : Nat × Nat :=
  let b := c.body
  if isRed c.opcode then
    let g := if fmtMx b.ifmt then p.src / 256 * 256 else p.src
    (b.src + tensorBytes b.ifmt g, tensorBytes b.ifmt (p.src + p.n) - tensorBytes b.ifmt g)
  else (b.src + p.src, tensorBytes b.ifmt p.n)

/-- Elements before the piece in its range. -/
def Coll.srcSkip (c : Coll) (p : Piece) : Nat := if isRed c.opcode ∧ fmtMx c.body.ifmt then p.src % 256 else 0

/-- The values of a piece of SRC. -/
def Coll.srcVals (c : Coll) (p : Piece) (bs : List Byte) : List Num × Exc :=
  let v := tensorVals c.body.ifmt (c.srcSkip p + p.n) bs
  (v.1.drop (c.srcSkip p), v.2)

/-- The same, exact: MX elements enter the accumulator unrounded (R232). -/
def Coll.srcExact (c : Coll) (p : Piece) (bs : List Byte) : List Exact :=
  let one := fun (v : Num) => ({} : Exact).addNum v
  if fmtMx c.body.ifmt then
    let (sc, el) := mxParse c.body.ifmt (c.srcSkip p + p.n) bs
    ((List.range (c.srcSkip p + p.n)).map fun k => one (decMx c.body.ifmt (sc.getD (k / 32) 0) (el.getD k 0))).drop (c.srcSkip p)
  else (c.srcVals p bs).1.map one

/-! ### Combining (R219-R224) -/

/-- Combine lists of values, in order. -/
def combineAll (op pf : Nat) (l : List (List Num)) : List Num × Exc :=
  match l with
  | [] => ([], {})
  | a :: t =>
    let start := a.map (toPartial pf)
    t.foldl (fun (acc : List Num × Exc) y =>
      let z := acc.1.zipWith (combine op pf) y
      (z.map (·.1), acc.2.add (Exc.sum (z.map (·.2))))) (start.map (·.1), Exc.sum (start.map (·.2)))

/-- Merge lists of accumulators. -/
def mergeAll (l : List (List Exact)) : List Exact :=
  match l with
  | [] => []
  | a :: t => t.foldl (fun acc y => acc.zipWith Exact.merge y) a

/-- A list rotated: one of the orders normal mode allows (R221, R246). -/
def rotated {α : Type} (l : List α) (k : Nat) : List α := l.drop (k % max 1 l.length) ++ l.take (k % max 1 l.length)

/-- Format of a partial on the wire. -/
def Coll.partFmt (c : Coll) : Nat := if c.body.qen then c.body.qblk.wfmt else c.body.pfmt

/-- A kid's values. -/
def Coll.kidVals (c : Coll) (p : Piece) (r : Nat) : List Num × Exc := tensorVals c.partFmt p.n (gotBytes (agetD p.got r []))

/-! ### Quantisation with error feedback (R227-R231) -/

/-- Index of a piece's first element in the tensor this member sends. -/
def Coll.resIndex (c : Coll) (p : Piece) : Nat :=
  if isRed c.opcode then p.src else p.src * 8 / max 1 (fmtBits c.body.ifmt)

/-- Residuals of n elements from an index: zero without error feedback and after RESET. -/
def State.residuals (s : State) (f : Nat) (c : Coll) (len first n : Nat) : List Num :=
  let q := c.body.qblk
  if q.ef ∧ ¬ q.reset then
    (codesOf 0 n (s.sliceRead f (q.resOff + 256 + 4 * len * c.cur + 4 * first) (4 * n))).map (decNum 0)
  else List.replicate n Num.zero

/-- Quantise the elements a member sends (R229): the wire bytes; the new residuals go to the other copy. Two operations that overlap on one
region leave undefined residual values (R231): here those that their reads and writes leave in the order of the steps (DESIGN CHOICE, log 155). -/
def State.quantSend (s : State) (f i : Nat) (c : Coll) (chunk len first : Nat) (vals : List Num) : State × List Byte :=
  let q := c.body.qblk
  let x := vals.map fp32
  let v := (x.map (·.1)).zipWith (fun a b => fp32 (a.add b)) (s.residuals f c len first vals.length)
  let l := quantTensor q.wfmt (v.map (·.1))
  let s := if q.ef ∧ ¬ q.reset then s.sliceUse f (q.resOff + 256 + 4 * len * c.cur + 4 * first) (4 * vals.length) else s
  let s := if q.ef then
      s.sliceWrite f (q.resOff + 256 + 4 * len * (1 - c.cur) + 4 * first) (bytesOf 0 ((l.flatMap (·.res)).take vals.length)) else s
  (s.herdExc f i chunk (Exc.sum (x.map (·.2) ++ v.map (·.2) ++ l.map (·.exc))), mxBytes q.wfmt (l.map (·.scale)) (l.flatMap (·.codes)))

/-! ### One piece (R245-R250, R254) -/

/-- The lowest chunk whose final this member is to hold and does not (R452); none when it holds all. -/
def Coll.lowest (c : Coll) : Option Nat :=
  ((c.pieces.filter fun p => (p.want || p.from_.isSome) && p.final.isNone).map (·.chunk)).foldl
    (fun m k => match m with | none => some k | some a => some (min a k)) none

/-- A member starts no chunk more than 32 above its own L (R452). -/
def Coll.mayStart (c : Coll) (p : Piece) : Bool := match c.lowest with | some l => decide (p.chunk ≤ l + 32) | none => true

/-- This member has begun a chunk. -/
def Coll.begun (c : Coll) (chunk : Nat) : Bool := c.pieces.any fun p => p.chunk = chunk && (p.sentUp || p.final.isSome)

/-- R252: every chunk this member has started has been combined and sent. -/
def Coll.atBoundary (c : Coll) : Bool := c.pieces.all fun p => ! c.begun p.chunk || p.sentUp || p.final.isSome

/-- A fence is in progress or in force on a block that combines for the herd of an operation (R459). -/
def State.herdFenced (s : State) (f op : Nat) : Bool :=
  (s.fn f).herds.any fun h => (match h.2.run with | some y => y.op = op | none => false) &&
    h.2.blocks.any fun b => (aget s.err.fences (regionOf b)).isSome

/-- A new chunk may be begun: not while a re-formation, a freeze, a removal of blocks or a fence waits for the boundary (R238, R252, R395, R399,
R459). -/
def State.newChunks (s : State) (f i : Nat) (c : Coll) : Bool :=
  let x := s.part (partOf f)
  (s.herd f i).state ≠ .reforming && x.state ≠ .freezing && x.state ≠ .frozen && x.apply.isNone && ! s.herdFenced f c.op

/-- Work on a piece may go on: its chunk is begun, or may be. -/
def State.chunkGo (s : State) (f i : Nat) (c : Coll) (p : Piece) : Bool := c.begun p.chunk || s.newChunks f i c

/-- In reproducible mode the last rank forms finals in ascending chunk order (R452). -/
def Coll.inOrder (c : Coll) (p : Piece) : Bool :=
  ! (c.body.repro c.opcode && p.up.isNone) || c.pieces.all fun q => decide (p.chunk ≤ q.chunk) || q.final.isSome

/-- Everything the kids send of a piece has come. -/
def Piece.kidsIn (p : Piece) : Bool := p.kids.all fun r => gotCount (agetD p.got r []) = p.n

/-- A final formed here: in the wire format when it is quantised and sent on, else in OFMT. -/
def State.formFinal (s : State) (f i : Nat) (c : Coll) (p : Piece) (vals : List Num) : State :=
  let b := c.body
  if b.qen ∧ p.down ≠ [] then
    let (s, bs) := s.quantSend f i c p.chunk (b.tensorLen c.opcode c.owners.length) (c.resIndex p) vals
    s.modPiece f i p.id fun p => { p with final := some bs, ffmt := b.qblk.wfmt }
  else
    let (bs, x) := tensorEnc b.ofmt b.sat vals
    (s.herdExc f i p.chunk x).modPiece f i p.id fun p => { p with final := some bs, ffmt := b.ofmt }

/-- Combine a piece once this member's elements are read: send the partial up, or form the final. -/
def State.combinePiece (s : State) (f i : Nat) (c : Coll) (p : Piece) (bs : List Byte) : State :=
  let b := c.body
  let h := s.herd f i
  let (s, step) := s.stepOf p.upStep
  let pm := match p.up with
    | some u => (match s.herdConn f i (h.orig u) with | some hd => pmtuBytes (s.conn f hd).cid.pmtu | none => 1024)
    | none => 1024
  let ext := fun (fmt : Nat) => collExt h c 0 p.chunk fmt step
  if b.exact c.opcode then
    let kids := p.kids.map fun r => gotExact (agetD p.got r [])
    let bad := kids.foldl (fun n l => n + (l.filter (·.isNone)).length) 0
    if bad ≠ 0 then
      (s.herdIbex f i p.chunk fun x => { x with exactBad := wrap48 (x.exactBad + bad) }).collHalt f i .poison 0
    else
      let l := mergeAll (c.srcExact p bs :: kids.map fun k => k.map fun x => x.getD {})
      match p.up with
      | some u =>
        let (bytes, pkts) := packExact (ext 0) pm l p.lo 0 [] [] 0 0 ([], [])
        let s := s.herdIbex f i p.chunk fun x => { x with exactEsc := wrap48 (x.exactEsc + (l.filter (·.wide)).length) }
        (s.collSend f i u pkts (.bytes bytes) p.id).modPiece f i p.id fun p => { p with sentUp := true }
      | none => s.formFinal f i c p (l.map (·.toNum))
  else
    let own := c.srcVals p bs
    let kids := p.kids.map (c.kidVals p)
    let order := if b.repro c.opcode then kids.map (·.1) ++ [own.1] else rotated (own.1 :: kids.map (·.1)) s.freeVal
    let (vals, x) := combineAll b.op b.pfmt order
    let s := (if b.repro c.opcode ∨ kids = [] then s else s.bump).herdExc f i p.chunk (Exc.sum (own.2 :: x :: kids.map (·.2)))
    match p.up with
    | some u =>
      if b.qen then
        let (s, bytes) := s.quantSend f i c p.chunk (b.tensorLen c.opcode c.owners.length) (c.resIndex p) vals
        (s.collSend f i u (packFmt (ext b.qblk.wfmt) pm b.qblk.wfmt p.lo p.n) (.bytes bytes) p.id).modPiece f i p.id fun p =>
          { p with sentUp := true }
      else
        let bytes := bytesOf b.pfmt (vals.map fun v => (encNum b.pfmt true v).1)
        (s.collSend f i u (packFmt (ext b.pfmt) pm b.pfmt p.lo p.n) (.bytes bytes) p.id).modPiece f i p.id fun p => { p with sentUp := true }
    | none => s.formFinal f i c p vals

/-- Ranks that a piece's next message goes to. -/
def Piece.upList (p : Piece) : List Nat := match p.up with | some u => [u] | none => []

/-- The reducing side of a piece. -/
def State.pieceUp (s : State) (f i id : Nat) : State :=
  let h := s.herd f i
  match h.run with
  | none => s
  | some c =>
    match c.pieces.find? fun p => p.id = id with
    | none => s
    | some p =>
      let (a, n) := c.srcRange p
      if isRed c.opcode ∧ p.final.isNone ∧ ¬ p.sentUp ∧ p.kidsIn ∧ c.mayStart p ∧ c.inOrder p ∧ s.chunkGo f i c p ∧ s.ranksUp f i p.upList ∧
         h.blocks.any (fun b => s.regionLive (regionOf b)) ∧ ¬ (p.up.isNone ∧ p.from_.isSome) then
        s.collReach f i [(c.body.sspace, a, n, false)] fun s => s.combinePiece f i c p (s.locRead f c.body.sspace a n)
      else s

/-- A copy leaves its source: SRC itself, or its quantised values. -/
def State.pieceSource (s : State) (f i id : Nat) : State :=
  match (s.herd f i).run with
  | none => s
  | some c =>
    match c.pieces.find? fun p => p.id = id with
    | none => s
    | some p =>
      let b := c.body
      let (a, n) := c.srcRange p
      if ¬ isRed c.opcode ∧ p.final.isNone ∧ p.from_.isNone ∧ c.mayStart p ∧ s.chunkGo f i c p then
        s.collReach f i [(b.sspace, a, n, false)] fun s =>
          let bs := s.locRead f b.sspace a n
          if b.qen ∧ p.down ≠ [] then s.formFinal f i c p (c.srcVals p bs).1
          else s.modPiece f i id fun p => { p with final := some bs, ffmt := b.ifmt }
      else s

/-- The final has come whole. -/
def State.pieceFin (s : State) (f i id : Nat) : State :=
  s.modPiece f i id fun p =>
    if p.final.isNone ∧ gotCount p.fin = p.n then { p with final := some (gotBytes p.fin), ffmt := (p.fin.headD ⟨0, 0, [], 0, false, 0, 0⟩).pfmt } else p

/-- Send the final on: to the next members of its distribution, or as a SHADOW to rank r + 1 (R254). -/
def State.pieceDown (s : State) (f i id : Nat) : State :=
  let h := s.herd f i
  match h.run with
  | none => s
  | some c =>
    match c.pieces.find? fun p => p.id = id with
    | none => s
    | some p =>
      match p.final with
      | none => s
      | some bs =>
        let shadow := isRed c.opcode && p.want && p.down.isEmpty && decide (1 < h.size)
        let to_ := if shadow then [(h.rank + 1) % max 1 h.size] else p.down
        if p.sentDown ∨ ¬ s.ranksUp f i to_ then s else
          let direct := ¬ isRed c.opcode ∧ p.from_.isNone ∧ ¬ c.body.qen
          let kind := if shadow then 3 else if direct then 2 else 1
          let src := if direct then Src.mem c.body.sspace (c.srcRange p).1 else Src.bytes bs
          let (s, step) := s.stepOf (if shadow then none else p.downStep)
          let s := to_.foldl (fun (s : State) r =>
            let pm := match s.herdConn f i (h.orig r) with | some hd => pmtuBytes (s.conn f hd).cid.pmtu | none => 1024
            s.collSend f i r (packFmt (collExt h c kind p.chunk p.ffmt step) pm p.ffmt p.lo p.n) src p.id) s
          s.modPiece f i id fun p => { p with sentDown := true, acked := p.acked || to_.isEmpty }

/-- A final in OFMT, as DST takes it. -/
def Coll.dstBytes (c : Coll) (p : Piece) (bs : List Byte) : List Byte × Exc :=
  if p.ffmt = c.body.ofmt then (bs, {})
  else
    let v := tensorVals p.ffmt p.n bs
    let e := tensorEnc c.body.ofmt c.body.sat v.1
    (e.1, v.2.add e.2)

/-- Write a final into DST once its successor has acknowledged it (R254). -/
def State.pieceWrite (s : State) (f i id : Nat) : State :=
  let h := s.herd f i
  match h.run with
  | none => s
  | some c =>
    match c.pieces.find? fun p => p.id = id with
    | none => s
    | some p =>
      match p.final with
      | none => s
      | some bs =>
        if p.want ∧ ¬ p.written ∧ (¬ isRed c.opcode ∨ (p.sentDown ∧ p.acked)) then
          let (out, x) := c.dstBytes p bs
          s.collReach f i [(c.body.dspace, c.body.dst + p.dst, out.length, true)] fun s =>
            let s := (s.locWrite f c.body.dspace (c.body.dst + p.dst) out).herdExc f i p.chunk x
            (s.modPiece f i id fun p => { p with written := true }).modRun f i fun c => { c with bytes := c.bytes + out.length, wrote := true }
        else s

/-- Everything a piece can do now. -/
def State.pieceStep (s : State) (f i id : Nat) : State :=
  (((((s.pieceFin f i id).pieceSource f i id).pieceUp f i id).pieceDown f i id).pieceWrite f i id)

/-- This member has done its part of a piece. -/
def Piece.overs (p : Piece) : Bool :=
  (p.up.isNone || p.sentUp || p.final.isSome) && (! p.want || p.written) && (p.from_.isNone || p.final.isSome) && (p.down.isEmpty || p.sentDown)

/-! ### Barrier tokens (R241, R244) -/

/-- Send a barrier token to ranks. -/
def State.sendTokens (s : State) (f i : Nat) (c : Coll) (l : List Nat) : State :=
  let h := s.herd f i
  l.foldl (fun s r => s.collSend f i r [(0, .barrier h.mepoch c.cseq c.sig h.rank 0)] .none (2 ^ 32)) s

/-- Tokens rise along T0 to rank 0 and come down again. -/
def State.barrierStep (s : State) (f i : Nat) : State :=
  let h := s.herd f i
  match h.run with
  | none => s
  | some c =>
    if ¬ c.body.isBarrier c.opcode then s else
      let kids := heapKids h.size h.rank
      let up := match heapUp h.rank with | some u => [u] | none => []
      let ready := kids.all fun k => c.tokens.contains k
      let s := if ready ∧ ¬ c.upSent ∧ s.ranksUp f i up then
          (s.sendTokens f i c up).modRun f i fun c => { c with upSent := true } else s
      let upSent := match (s.herd f i).run with | some c => c.upSent | none => false
      let released := upSent && (up.all fun u => c.tokens.contains u)
      if released ∧ ¬ c.downSent ∧ s.ranksUp f i kids then
        (s.sendTokens f i c kids).modRun f i fun c => { c with downSent := true } else s

/-! ### Dispatch and combine (R257, R258) -/

/-- Row r of a buffer. -/
def rowAt (bs : List Byte) (w r : Nat) : List Byte := (bs.drop (w * r)).take w

/-- VALID entries of RTAB: token, k, expert. -/
def routes (b : CollBody) (rtab : List Byte) : List (Nat × Nat × Nat) :=
  (List.range (b.ntok * b.k)).filterMap fun j =>
    let e := numAt rtab (4 * j) 4
    if e.testBit 31 then some (j / b.k, j % b.k, e % 65536) else none

/-- A META entry (R258). -/
def metaOf (src t k expert : Nat) : Nat := src % 8192 + t % 2 ^ 20 * 2 ^ 16 + k % 8 * 2 ^ 36 + expert % 65536 * 2 ^ 48

/-- R257: an expert at or above NEXP, a rank outside the epoch of n members, or a reserved bit of an entry. -/
def tablesBad (b : CollBody) (n : Nat) (rtab emap : List Byte) : Bool :=
  (routes b rtab).any (fun x => b.nexp ≤ x.2.2) || ((List.range (b.ntok * b.k)).any fun j => bitsOf (numAt rtab (4 * j) 4) 16 15 ≠ 0) ||
  (List.range b.nexp).any fun e => n ≤ numAt emap (2 * e) 2

/-- The same of the row tags a combine is given. -/
def metaBad (b : CollBody) (n m : Nat) : Bool :=
  decide (n ≤ m % 65536 ∨ b.nexp ≤ m / 2 ^ 48 ∨ bitsOf m 39 9 ≠ 0)

/-- A row on its way: the owner it goes to, its index in SRC, and its tag. -/
structure RowOut where
  to_    : Nat
  row    : Nat
  t      : Nat
  k      : Nat
  expert : Nat
  deriving DecidableEq, Repr

/-- The wire format of rows. -/
def Coll.rowFmt (c : Coll) : Nat := if c.body.qen then c.body.qblk.wfmt else c.body.ifmt

/-- The packets of a row (R250): EOFF counts elements of SRC, and each packet names the chunk of its first element. R250 gives the tag of a row no
place: its token and k stand in ESC0 and its expert in NESC, which rows do not use (DESIGN CHOICE, log 156). -/
def Coll.rowPkts (c : Coll) (x : BulkExt) (pm : Nat) (o : RowOut) : List (Nat × Ext) :=
  let x := { x with esc0 := o.t % 2 ^ 20 + o.k % 8 * 2 ^ 20, nesc := o.expert % 65536 }
  (packFmt x pm c.rowFmt (o.row * c.body.rowElems) c.body.rowElems).map fun y =>
    (y.1, match y.2 with | .coll z => .coll { z with chunk := z.eoff / max 1 c.chunkElems } | e => e)

/-- The bytes of rows as they travel: quantised when QEN is set. Only rows that are sent are quantised (R249). -/
def State.rowsWire (s : State) (f i : Nat) (c : Coll) (used : List Nat) : State × AMap (List Byte) :=
  let b := c.body
  used.foldl (fun (acc : State × AMap (List Byte)) r =>
    let bs := s.locRead f b.sspace (b.src + r * b.rowb) b.rowb
    if b.qen then
      let (s, w) := acc.1.quantSend f i c (r * b.rowElems / max 1 c.chunkElems) (b.tensorLen c.opcode c.owners.length) (r * b.rowElems)
        (tensorVals b.ifmt b.rowElems bs).1
      (s, acc.2 ++ [(r, w)])
    else (acc.1, acc.2 ++ [(r, bs)])) (s, [])

/-- A received row in OFMT. -/
def rowBack (b : CollBody) (w : List Byte) : List Byte × Exc :=
  if b.qen then
    let v := tensorVals b.qblk.wfmt b.rowElems w
    let e := tensorEnc b.ofmt b.sat v.1
    (e.1, v.2.add e.2)
  else (w, {})

/-- Send rows to the members that are to have them, each member's in one message; this member's own stay here. Rows that are not quantised are
read again from SRC for a retransmission (R154, R250). -/
def State.rowsSend (s : State) (f i : Nat) (c : Coll) (l : List RowOut) (wire : AMap (List Byte)) : State :=
  let h := s.herd f i
  let b := c.body
  (List.range c.owners.length).foldl (fun (s : State) j =>
    let mine := l.filter fun o => o.to_ = j
    match h.rankOf (c.owners.getD j 0) with
    | none => s
    | some r =>
      if r = h.rank then
        let got := mine.map fun o =>
          (⟨o.row * b.rowElems, b.rowElems, agetD wire o.row [], c.rowFmt, false, o.t % 2 ^ 20 + o.k % 8 * 2 ^ 20, o.expert % 65536⟩ : Got)
        s.modRun f i fun c => { c with rows := aset c.rows j got, tokens := c.tokens ++ [j] }
      else
        let pm := match s.herdConn f i (h.orig r) with | some hd => pmtuBytes (s.conn f hd).cid.pmtu | none => 1024
        let (s, step) := s.stepOf none
        let x := collExt h c (if b.qen then 1 else 2) 0 c.rowFmt step
        let src := if b.qen then Src.bytes (mine.flatMap fun o => agetD wire o.row [])
          else Src.gather b.sspace (mine.map fun o => (b.src + o.row * b.rowb, b.rowb))
        s.collSend f i r (if mine = [] then [(0, Ext.coll x)] else mine.flatMap (c.rowPkts x pm)) src (2 ^ 32 + 1)) s

/-- Rows go out: those that this member must read, because it quantises them or keeps them, are read first. `n` is the number of rows of SRC. -/
def State.rowsGo (s : State) (f i : Nat) (c : Coll) (n : Nat) (l : List RowOut) : State :=
  let b := c.body
  let me := (c.owners.findIdx? (· = (s.herd f i).me)).getD 0
  let used := ((l.filter fun o => b.qen || o.to_ = me).map (·.row)).eraseDups
  s.collReach f i (used.map fun r => (b.sspace, b.src + r * b.rowb, b.rowb, false)) fun s =>
    let (s, wire) := s.rowsWire f i c used
    (s.rowsSend f i c l wire).modRun f i fun c => { c with rowsOut := [], chunks := ceilDiv (n * b.rowb) (2 ^ c.clog) }

/-- The rows this member sends, once it can read its tables; bad ones end it RANGE before any exchange (R242, R257). -/
def State.rowsOutStep (s : State) (f i : Nat) : State :=
  let h := s.herd f i
  match h.run with
  | none => s
  | some c =>
    let b := c.body
    let n := c.owners.length
    let peers := (List.range h.size).filter fun r => r ≠ h.rank
    if ¬ isRows c.opcode ∨ c.rowsOut = [] ∨ ¬ s.ranksUp f i peers ∨ ¬ s.newChunks f i c then s
    else
      s.collReach f i [(false, b.rtab, 4 * b.ntok * b.k, false), (false, b.emap, 2 * b.nexp, false)] fun s =>
        let rt := s.hostBytes f b.rtab (4 * b.ntok * b.k)
        let em := s.hostBytes f b.emap (2 * b.nexp)
        if tablesBad b n rt em then s.collStop f i .range 0
        else if c.opcode = 0x216 then
          s.rowsGo f i c b.ntok ((routes b rt).map fun x => ⟨numAt em (2 * x.2.2) 2 % 8192, x.1, x.1, x.2.1, x.2.2⟩)
        else
          s.collReach f i [(false, b.cnt, 4 * n + 4, false)] fun s =>
            let cnt := s.hostBytes f b.cnt (4 * n + 4)
            let m := min b.cap ((List.range n).foldl (fun k j => k + numAt cnt (4 * j) 4) 0)
            s.collReach f i [(false, b.mta, 8 * m, false)] fun s =>
              let mt := (List.range m).map fun r => (r, numAt (s.hostBytes f b.mta (8 * m)) (8 * r) 8)
              if mt.any fun x => metaBad b n x.2 then s.collStop f i .range 0
              else s.rowsGo f i c m (mt.map fun x => ⟨x.2 % 8192, x.1, bitsOf x.2 16 20, bitsOf x.2 36 3, x.2 / 2 ^ 48⟩)

/-- The tag of a received packet of a row, and the order of rows of one source: t, then k (R258). -/
def Got.tag (g : Got) : Nat × Nat := (g.esc0, g.nesc)
def tagKey (x : Nat × Nat) : Nat := x.1 % 2 ^ 20 * 8 + x.1 / 2 ^ 20 % 8

/-- Rows received from an owner, in order, with their META entries. -/
def Coll.rowsFrom (c : Coll) (j : Nat) : List (Nat × List Byte) :=
  let l := (agetD c.rows j []).filter fun g => g.nelem ≠ 0
  let tags := sortBy (fun a b => decide (tagKey a ≤ tagKey b)) ((l.map Got.tag).eraseDups)
  tags.map fun x => (metaOf j (x.1 % 2 ^ 20) (x.1 / 2 ^ 20 % 8) x.2, gotBytes (l.filter fun g => g.tag = x))

/-- Owners whose rows count: all that have come whole. -/
def Coll.rowsIn (c : Coll) : List Nat := (List.range c.owners.length).filter fun j => c.tokens.contains j

/-- One element of the combined output: the products and sums of R258, each rounded once to FP32. -/
def weighted (l : List (Num × Num)) : Num × Exc :=
  match l with
  | [] => (Num.zero, {})
  | a :: t =>
    t.foldl (fun (acc : Num × Exc) x =>
      let p := fp32 (x.1.mul x.2)
      let y := fp32 (acc.1.add p.1)
      (y.1, acc.2.add (p.2.add y.2))) (fp32 (a.1.mul a.2))

/-- The rows stand in DST: its chunks are final and visible all at once, since every row has passed the watermark (R251). -/
def State.rowsPlaced (s : State) (f i bytes : Nat) : State :=
  let s := s.modRun f i fun c => { c with rowsPut := true, bytes := bytes, wrote := c.wrote || bytes ≠ 0 }
  match (s.herd f i).run with
  | none => s
  | some c =>
    let n := ceilDiv bytes (2 ^ c.clog)
    let s := s.modRun f i fun c => { c with ptDone := n }
    if c.body.ptEn then s.tallyAdd f c.body.ptally (n - c.ptDone) else s

/-- Place the rows (R258): a dispatch's in ascending source rank, with META and the count record; a combine's as weighted sums. -/
def State.rowsPutStep (s : State) (f i : Nat) : State :=
  let h := s.herd f i
  match h.run with
  | none => s
  | some c =>
    let b := c.body
    let alive := (List.range c.owners.length).filter fun j => (h.rankOf (c.owners.getD j 0)).isSome
    if ¬ isRows c.opcode ∨ c.rowsPut ∨ c.rowsOut ≠ [] ∨ ¬ alive.all (fun j => c.tokens.contains j) then s
    else if c.opcode = 0x216 then
      let all := c.rowsIn.flatMap c.rowsFrom
      let kept := all.take b.cap
      let back := kept.map fun x => rowBack b x.2
      let out := back.flatMap (·.1)
      let cnt := (List.range c.owners.length).flatMap (fun j => leBytes 4 (if c.rowsIn.contains j then (c.rowsFrom j).length else 0)) ++
        leBytes 4 (all.length - kept.length)
      s.collReach f i [(b.dspace, b.dst, out.length, true), (false, b.mta, 8 * kept.length, true), (false, b.cnt, cnt.length, true)] fun s =>
        let s := (s.locWrite f b.dspace b.dst out).hostWrite f b.mta (kept.flatMap fun x => leBytes 8 x.1)
        ((s.hostWrite f b.cnt cnt).herdExc f i 0 (Exc.sum (back.map (·.2)))).rowsPlaced f i out.length
    else
      s.collReach f i [(false, b.wtab, 4 * b.ntok * b.k, false), (b.dspace, b.dst, b.ntok * b.rowb, true)] fun s =>
        let wt := s.hostBytes f b.wtab (4 * b.ntok * b.k)
        let all := c.rowsIn.flatMap c.rowsFrom
        let row := fun (t : Nat) =>
          let parts := (List.range b.k).map fun k =>
            let w := decNum 0 (numAt wt (4 * (t * b.k + k)) 4)
            match all.find? fun x => bitsOf x.1 16 20 = t ∧ bitsOf x.1 36 3 = k with
            | some x => let v := tensorVals c.rowFmt b.rowElems x.2; (v.1.map fun y => (w, y), v.2)
            | none => ([], {})
          let sums := (List.range b.rowElems).map fun e => weighted (parts.filterMap fun p => p.1[e]?)
          let enc := tensorEnc b.ofmt b.sat (sums.map (·.1))
          (enc.1, Exc.sum (enc.2 :: sums.map (·.2) ++ parts.map (·.2)))
        let rows := (List.range b.ntok).map row
        let s := s.locWrite f b.dspace b.dst (rows.flatMap (·.1))
        (s.herdExc f i 0 (Exc.sum (rows.map (·.2)))).rowsPlaced f i (b.ntok * b.rowb)

/-! ### Progress and the end (R251, R255) -/

/-- Messages of a collective that have begun to arrive and have not passed the watermark, by chunk. -/
def State.collUnpassed (s : State) (f i cseq : Nat) : List Nat :=
  (s.herdLinks f i).flatMap fun x => (s.conn f x.2).rx.msgs.filterMap fun m => match m.ext with
    | .coll y => if y.cseq = cseq ∧ ¬ m.passed ∧ ¬ m.aband then some y.chunk else none
    | _ => none

/-- Chunks of DST at this member, ascending. -/
def Coll.wanted (c : Coll) : List Nat := ascending ((c.pieces.filter (·.want)).map (·.chunk)).eraseDups

/-- Leading chunks of DST that are final and visible. -/
def leadFinal (c : Coll) (open_ : List Nat) (l : List Nat) : Nat :=
  match l with
  | [] => 0
  | k :: t => if (c.pieces.filter fun p => p.want ∧ p.chunk = k).all (·.written) ∧ ¬ open_.contains k then leadFinal c open_ t + 1 else 0

/-- R251: raise PTALLY. -/
def State.ptallyStep (s : State) (f i : Nat) : State :=
  match (s.herd f i).run with
  | none => s
  | some c =>
    let n := leadFinal c (s.collUnpassed f i c.cseq) c.wanted
    if c.ptDone < n ∧ ¬ isRows c.opcode then
      let s := s.modRun f i fun c => { c with ptDone := n }
      if c.body.ptEn then s.tallyAdd f c.body.ptally (n - c.ptDone) else s
    else s

/-- Nothing of the collective is on its way out. -/
def State.collFlushed (s : State) (f i : Nat) : Bool :=
  (s.herdLinks f i).all fun x =>
    (s.conn f x.2).tx.sendq.all (fun m => ¬ m.for_.isColl i) && (s.conn f x.2).tx.sent.all fun m => ¬ m.for_.isColl i || m.acked

/-- This member's part of the collective is complete. -/
def State.collComplete (s : State) (f i : Nat) (c : Coll) : Bool :=
  c.pieces.all (·.overs) && (! c.body.isBarrier c.opcode || (c.upSent && c.downSent)) && (! isRows c.opcode || c.rowsPut) &&
  s.collFlushed f i && (s.collUnpassed f i c.cseq).isEmpty

/-- The 64-byte record (R255). -/
def Coll.record (c : Coll) : List Byte :=
  let l := c.epochs.take 6
  leBytes 4 c.cseq ++ leBytes 2 c.sig ++ leBytes 1 c.alg ++ leBytes 1 l.length ++ leBytes 8 c.chunks ++
  padTo 48 0 (l.flatMap fun x => leBytes 2 x.1 ++ leBytes 2 x.2.1 ++ leBytes 4 x.2.2)

/-- End the collective: record, residual copy, completion. -/
def State.collFinish (s : State) (f i : Nat) : State :=
  let h := s.herd f i
  match h.run with
  | none => s
  | some c =>
    let b := c.body
    let rec_ := if b.recaddr = 0 then [] else [(false, b.recaddr, 64, true)]
    if (h.state = .running ∨ h.state = .draining) ∧ s.collComplete f i c then
      s.collReach f i rec_ fun s =>
        let s := if b.recaddr = 0 then s else s.hostWrite f b.recaddr c.record
        let s := if b.qen ∧ b.qblk.ef then s.sliceWrite f b.qblk.resOff [BitVec.ofNat 8 (1 - c.cur)] else s
        let s := s.modOp f c.op fun o => { o with degraded := o.degraded || decide (c.reforms ≠ 0) }
        (s.endOp f c.op .ok c.bytes (h.mepoch % 65536 + 65536 * min 65535 c.reforms)).herdAfter f i
    else s

/-- Whatever a running collective can do now. While the herd re-forms, until its COMMIT, the chunks that have been started go on to the boundary
and finals that arrive are kept; nothing new starts (R238, R252, R254). -/
def State.collAdvance (s : State) (f i : Nat) : State :=
  let h := s.herd f i
  let runs : Bool := h.state = .running || h.state = .draining
  if runs ∨ (h.state = .reforming ∧ h.commit.isNone) then
    match h.run with
    | none => s
    | some c =>
      let s := (c.pieces.map (·.id)).foldl (fun s id => s.pieceStep f i id) s
      if runs then ((((s.barrierStep f i).rowsOutStep f i).rowsPutStep f i).ptallyStep f i).collFinish f i else s.ptallyStep f i
  else s

/-! ### Arrival of packets (R243, R250, R450) -/

/-- What becomes of a herd packet. -/
inductive Land where
  | take | hold | past | discard | broken
  deriving DecidableEq, Repr

/-- The running collective has a CSEQ. -/
def Herd.current (h : Herd) (cseq : Nat) : Bool := match h.run with | some c => c.cseq = cseq | none => false

/-- Where a packet stands by epoch (R250, R450) and by collective (R243). -/
def Herd.lands (h : Herd) (mepoch cseq : Nat) : Land :=
  if mepoch < h.mepoch then .discard
  else if mepoch = h.mepoch + 1 ∧ h.state = .reforming then .hold
  else if h.mepoch < mepoch then .broken
  else if cseq = h.cseq then .hold
  else if h.current cseq then .take
  else if modSub (2 ^ 32) h.cseq cseq < 2 ^ 31 then .past else .discard

/-- Bytes of held packets; each holds its header too. -/
def Herd.heldBytes (h : Herd) : Nat := h.held.foldl (fun n p => n + 64 + p.payload.length + 1024 * bit p.token.isSome) 0

/-- A signature that differs from this member's. -/
def Herd.mismatch (h : Herd) (sig : Nat) : Bool := match h.run with | some c => c.sig ≠ sig | none => false

/-- A received range, unless it is already here. -/
def addGot (l : List Got) (g : Got) : List Got := if l.any fun x => x.eoff = g.eoff ∧ x.tag = g.tag then l else l ++ [g]

/-- The piece of a data packet: a partial's is the one its sender feeds; a final's the one that awaits it. -/
def Coll.pieceFor (c : Coll) (x : BulkExt) : Option Piece :=
  let l := c.pieces.filter fun p => p.chunk = x.chunk ∧ p.lo ≤ x.eoff ∧ x.eoff + x.nelem ≤ p.lo + p.n
  if x.kind = 0 then l.find? fun p => p.kids.contains x.srank
  else match l.find? fun p => p.from_ = some x.srank with
    | some p => some p
    | none => l.find? fun p => isRed c.opcode ∧ p.final.isNone

/-- Place or combine a data packet of the current collective; it wakes the blocks that combine (R568). -/
def State.collTake (s : State) (f i : Nat) (x : BulkExt) (payload : List Byte) : State :=
  let h := s.herd f i
  match h.run with
  | none => s
  | some c =>
    let g : Got := ⟨x.eoff, x.nelem, payload, x.pfmt, x.exact, x.esc0, x.nesc⟩
    if isRows c.opcode then
      match c.owners.findIdx? (· = h.orig x.srank) with
      | some j => s.modRun f i fun c => { c with rows := aset c.rows j (addGot (agetD c.rows j []) g) }
      | none => s
    else match c.pieceFor x with
      | none => s
      | some p =>
        let s := s.modPiece f i p.id fun p =>
          if x.kind = 0 then { p with got := aset p.got x.srank (addGot (agetD p.got x.srank []) g) }
          else if p.final.isSome then p else { p with fin := addGot p.fin g }
        (s.wakeBlocks h.blockMask).collAdvance f i

/-- A BULK packet of a collective lands: whether it is received, and what follows (R243, R250). -/
def State.collLand (s : State) (f i hd : Nat) (x : BulkExt) (token : Option (Bool × Token)) (payload : List Byte) (act : State → State) :
    Bool × State :=
  let h := s.herd f i
  match h.lands x.mepoch x.cseq with
  | .past => (true, s)
  | .discard => (true, s.modHerd f i fun h => { h with discarded := h.discarded + 1 })
  | .broken => (true, act s)
  | .hold =>
    if h.bd.slen * 1024 < h.heldBytes + 64 + payload.length then (false, s)
    else (true, s.modHerd f i fun h => { h with held := h.held ++ [⟨hd, x, token, payload⟩] })
  | .take => (true, act s)

/-- R250: one data packet. A later epoch's breaks the herd (R450). -/
def State.collData (s : State) (f i hd : Nat) (x : BulkExt) (payload : List Byte) : Bool × State :=
  let h := s.herd f i
  s.collLand f i hd x none payload fun s =>
    if h.mepoch < x.mepoch then s.herdBreak f i
    else if h.mismatch x.sig then s.collMismatch f i
    else s.collTake f i x payload

/-- A BULK extension that stands for a HALT or a barrier token, so that it can be held. -/
def haltExt (mepoch cseq origin cause : Nat) : BulkExt :=
  { kind := 5, mepoch := mepoch, cseq := cseq, sig := 0, srank := origin, step := cause, eoff := 0, nelem := 0, chunk := 0, esc0 := 0, nesc := 0,
    pfmt := 0, exact := false }
def barrierExt (mepoch cseq sig srank step : Nat) : BulkExt :=
  { kind := 4, mepoch := mepoch, cseq := cseq, sig := sig, srank := srank, step := step, eoff := 0, nelem := 0, chunk := 0, esc0 := 0, nesc := 0,
    pfmt := 0, exact := false }

/-- R243: a HALT of the current collective is forwarded once, and ends it. -/
def State.collHaltIn (s : State) (f i hd : Nat) (x : BulkExt) : Bool × State :=
  let h := s.herd f i
  s.collLand f i hd x none [] fun s => if h.mepoch < x.mepoch then s.herdBreak f i else s.collMismatch f i

/-- A barrier token of the current collective. -/
def State.collTokenIn (s : State) (f i hd : Nat) (x : BulkExt) : Bool × State :=
  let h := s.herd f i
  s.collLand f i hd x none [] fun s =>
    if h.mepoch < x.mepoch then s.herdBreak f i
    else if h.mismatch x.sig then s.collMismatch f i
    else (s.modRun f i fun c => { c with tokens := if c.tokens.contains x.srank then c.tokens else c.tokens ++ [x.srank] }).collAdvance f i

/-- Packets held for the collective that has just become current. -/
def State.collHeld (s : State) (f i : Nat) : State :=
  let h := s.herd f i
  let cseq := match h.run with | some c => c.cseq | none => h.cseq
  let mine := h.held.filter fun p => p.token.isNone ∧ p.x.mepoch = h.mepoch ∧ p.x.cseq = cseq
  let s := s.modHerd f i fun h => { h with held := h.held.filter fun p => ¬ mine.contains p }
  mine.foldl (fun s p =>
    if p.x.kind = 5 then (s.collHaltIn f i p.conn p.x).2
    else if p.x.kind = 4 then (s.collTokenIn f i p.conn p.x).2
    else (s.collData f i p.conn p.x p.payload).2) s

/-- A data message has passed the watermark: rows are whole (R258), and chunks become visible (R251). -/
def State.collPassed (s : State) (f i : Nat) (x : BulkExt) : State :=
  let h := s.herd f i
  match h.run with
  | none => s
  | some c =>
    if c.cseq ≠ x.cseq ∨ h.mepoch ≠ x.mepoch then s
    else if isRows c.opcode then
      match c.owners.findIdx? (· = h.orig x.srank) with
      | some j => (s.modRun f i fun c => { c with tokens := if c.tokens.contains j then c.tokens else c.tokens ++ [j] }).collAdvance f i
      | none => s
    else s.collAdvance f i

/-- The successor has acknowledged a final (R254). -/
def State.collAcked (s : State) (f i id : Nat) (x : BulkExt) (rank : Nat) : State :=
  let h := s.herd f i
  match h.run with
  | none => s
  | some c =>
    match c.pieces.find? fun p => p.id = id with
    | none => s
    | some p =>
      let succ := match p.down with | r :: _ => r | [] => (h.rank + 1) % max 1 h.size
      let s := if (x.kind = 1 ∨ x.kind = 3) ∧ rank = succ ∧ x.mepoch = h.mepoch then s.modPiece f i id fun p => { p with acked := true } else s
      s.collAdvance f i

/-! ### Posting and starting (R242, R243, R253) -/

/-- Whether a herd already holds an operation's collective. -/
def Herd.holds (h : Herd) (id : Nat) : Bool := h.queue.any (fun c => c.op = id) || (match h.run with | some c => c.op = id | none => false)

/-- Check the tables of a dispatch or combine, then go on; they are checked again as it starts, when a combine's META is there too. -/
def State.collTables (s : State) (f id opcode : Nat) (b : CollBody) (k : State → State) : State :=
  if ¬ isRows opcode then k s else
    s.readHostFor f id b.rtab (4 * b.ntok * b.k) fun rt s =>
      s.readHostFor f id b.emap (2 * b.nexp) fun em s =>
        s.checked f id (ck (tablesBad b (s.herd f b.herd).size rt em = true) .range) k

/-- A collective joins its herd's queue; one whose channel waited for a page goes on. -/
def effColl (opcode : Nat) (e : Entry) (b : CollBody) (f id : Nat) (s : State) : State :=
  if (s.herd f b.herd).holds id then s.collAdvance f b.herd
  else
    s.checked f id (s.collChecks f e.ring opcode b) fun s =>
      s.collTables f id opcode b fun s =>
        let st := (s.herd f b.herd).state
        s.checked f id (ck (st = .broken) .peerLost ++ ck (st = .draining) .flushed) fun s =>
          (s.modOp f id fun o => { o with ltally := ltOf b.ltEn b.ltally }).modHerd f b.herd fun h =>
            { h with queue := h.queue ++ [{ op := id, opcode := opcode, body := b }] }

/-- Every rank a plan exchanges with. -/
def Coll.peers (c : Coll) (h : Herd) : List Nat :=
  ((c.pieces.flatMap fun p => p.kids ++ p.down ++ p.upList ++ (match p.from_ with | some r => [r] | none => [])) ++
   (if isRows c.opcode then List.range h.size else [])).eraseDups.filter fun r => r ≠ h.rank

/-- Circuits of R253: four units from each region whose ports carry the herd to each combining block. -/
def State.collCircuits (s : State) (f i : Nat) : State :=
  let h := s.herd f i
  let ports := if h.bd.ports = 0 then (s.addrEnt (partOf f) h.bd.laddrIdx).ports else h.bd.ports
  (((bitList 8 ports).map (· / 2)).eraseDups).foldl (fun s r => h.blocks.foldl (fun s b =>
    s.reqCircuit { src := r, dst := regionOf b, branches := [b], units := 4, owner := (f, 0, i) }) s) s

/-- The residual header RESET writes (R228). -/
def State.resetResidual (s : State) (f : Nat) (c : Coll) (n : Nat) : State :=
  let q := c.body.qblk
  if c.body.qen ∧ q.ef ∧ q.reset then
    s.sliceWrite f q.resOff (padTo 256 0 (leBytes 8 0 ++ leBytes 8 (c.body.tensorLen c.opcode n)))
  else s

/-- R243: the next collective in CSEQ order starts. R242 is tested under the epoch it starts in: one that was posted under an earlier epoch and fails
now ends RANGE, sends nothing and takes no CSEQ (DEDUCED, log 157). -/
def State.collStart (s : State) (f i : Nat) : State :=
  let h := s.herd f i
  match h.run, h.queue with
  | none, c :: t =>
    if h.state ≠ .ready ∧ h.state ≠ .running then s else
      match pick (s.collChecks f h.bd.hring c.opcode c.body) with
      | some st => ((s.modHerd f i fun h => { h with queue := t }).endOp f c.op st 0 0).herdAfter f i
      | none =>
      let b := c.body
      let c := { c with cseq := h.cseq, sig := b.sig c.opcode (b.clog h), clog := b.clog h, alg := b.runAlg c.opcode h.size (evenGroups h.groups),
                        owners := h.members, epochs := [(h.mepoch, h.rank, 0)], rowsOut := if isRows c.opcode then h.members else [],
                        cur := if b.qen ∧ b.qblk.ef ∧ ¬ b.qblk.reset then leNat (s.sliceRead f b.qblk.resOff 1) % 2 else 0 }
      let plan := planOf h c
      let c := { c with pieces := plan.pieces, chunks := plan.chunkCount }
      let s := s.modHerd f i fun h => { h with state := .running, run := some c, queue := t, cseq := (h.cseq + 1) % 2 ^ 32 }
      let s := ((s.resetResidual f c h.size).collCircuits f i).wakeBlocks h.blockMask
      let (s, ok) := s.herdOpenAll f i ((c.peers h).map h.orig)
      if ok then (s.collHeld f i).collAdvance f i else s.collHalt f i .peerLost 0
  | _, _ => s

def execCollAllreduce (e : Entry) (b : CollBody) (s : State) : Host.Outcome State Fault Refusal :=
  .next (s.startEntry e 0x210 len2 (.collAllreduce e b) (effColl 0x210 e b e.fn.idx)).settle
def execCollReduceScatter (e : Entry) (b : CollBody) (s : State) : Host.Outcome State Fault Refusal :=
  .next (s.startEntry e 0x211 len2 (.collReduceScatter e b) (effColl 0x211 e b e.fn.idx)).settle
def execCollAllgather (e : Entry) (b : CollBody) (s : State) : Host.Outcome State Fault Refusal :=
  .next (s.startEntry e 0x212 len2 (.collAllgather e b) (effColl 0x212 e b e.fn.idx)).settle
def execCollBcast (e : Entry) (b : CollBody) (s : State) : Host.Outcome State Fault Refusal :=
  .next (s.startEntry e 0x213 len2 (.collBcast e b) (effColl 0x213 e b e.fn.idx)).settle
def execCollReduce (e : Entry) (b : CollBody) (s : State) : Host.Outcome State Fault Refusal :=
  .next (s.startEntry e 0x214 len2 (.collReduce e b) (effColl 0x214 e b e.fn.idx)).settle
def execCollAlltoall (e : Entry) (b : CollBody) (s : State) : Host.Outcome State Fault Refusal :=
  .next (s.startEntry e 0x215 len2 (.collAlltoall e b) (effColl 0x215 e b e.fn.idx)).settle
def execCollDispatch (e : Entry) (b : CollBody) (s : State) : Host.Outcome State Fault Refusal :=
  .next (s.startEntry e 0x216 len2 (.collDispatch e b) (effColl 0x216 e b e.fn.idx)).settle
def execCollCombine (e : Entry) (b : CollBody) (s : State) : Host.Outcome State Fault Refusal :=
  .next (s.startEntry e 0x217 len2 (.collCombine e b) (effColl 0x217 e b e.fn.idx)).settle
def execCollBarrier (e : Entry) (b : CollBody) (s : State) : Host.Outcome State Fault Refusal :=
  .next (s.startEntry e 0x218 len2 (.collBarrier e b) (effColl 0x218 e b e.fn.idx)).settle

end Sys2Proof.Machine
end

