-- ==== Sys2Proof/Machine/Reform.lean ====
section
/-!
DEFINITION. Reform.lean: heartbeats, re-formation tokens, agreement and resuming of herds (R447-R456).
-/

namespace Sys2Proof.Machine

/-! ### Chunk state (R452) -/

/-- A reducing collective is paused. -/
def Herd.reducing (h : Herd) : Option Coll :=
  match h.run with
  | some c => if isRed c.opcode ∧ ¬ c.body.isBarrier c.opcode then some c else none
  | none => none

/-- This member holds the final of a chunk, in DST or as a shadow. -/
def Coll.holdsChunk (c : Coll) (k : Nat) : Bool :=
  (c.pieces.any fun p => p.chunk = k) && (c.pieces.filter fun p => p.chunk = k).all fun p => p.final.isSome

/-- L: the lowest chunk whose final this member does not hold. -/
def Coll.low (c : Coll) : Nat := ((List.range c.chunks).find? fun k => ¬ c.holdsChunk k).getD c.chunks

/-- Merge this member's chunk state into CBASE and CMAP. -/
def mergeChunks (c : Coll) (cbase : Option Nat) (cmap : BitVec 64) : Nat × BitVec 64 :=
  let base := max (cbase.getD 0) c.low
  let old : BitVec 64 := match cbase with | some b => cmap >>> (base - b) | none => 0
  let mine := (List.range 64).foldl (fun (m : BitVec 64) j => if c.holdsChunk (base + j) then m ||| BitVec.ofNat 64 (2 ^ j) else m) 0
  (base, old ||| mine)

/-! ### Tokens (R449, R451) -/

/-- Original ranks that this member counts as dropped in the next epoch. -/
def Herd.gone (h : Herd) : List Nat :=
  (List.range h.membs.length).filter fun r => ¬ h.members.contains r ∨ h.declared.contains r

/-- OR this member's declarations and chunk state into a token. -/
def Herd.merge (h : Herd) (t : Token) : Token :=
  let bits := (List.range h.membs.length).filter fun r => t.bits.contains r ∨ h.gone.contains r
  match h.reducing with
  | some c => let (b, m) := mergeChunks c t.cbase t.cmap; { t with bits := bits, cbase := some b, cmap := m }
  | none => { t with bits := bits }

/-- The next member of a token in ascending original rank, wrapping: one whose bit is clear. -/
def Herd.next (h : Herd) (t : Token) : Option Nat :=
  let l := (List.range h.membs.length).filter fun r => ¬ t.bits.contains r ∧ r ≠ h.me
  match l.find? fun r => h.me < r with
  | some r => some r
  | none => l.head?

/-- The 1,024 bytes of a token's bitmap. -/
def bitmapBytes (bits : List Nat) : List Byte :=
  (List.range 1024).map fun i => BitVec.ofNat 8 ((List.range 8).foldl (fun n j => if bits.contains (8 * i + j) then n + 2 ^ j else n) 0)

/-- Tokens that wait for a connection, without those of a kind. -/
def Herd.otherFwd (h : Herd) (commit : Bool) : List (Bool × Token) := h.forward.filter fun x => x.1 ≠ commit

/-- The last token of the re-formation under way that this member sent on; a COMMIT of the one before it does not count. -/
def Herd.sentOn (h : Herd) (commit : Bool) (t : Token) : Option Token := if commit ∧ h.commit.isNone then h.proposal else some t

/-- A member that a token cannot reach is marked in it, and the token goes on (R451). -/
def State.markOne (f i : Nat) (commit : Bool) (s : State) (t : Token) : State × Option Token :=
  let h := s.herd f i
  match h.next t with
  | none => (s.herdBreak f i, none)
  | some r =>
    match s.herdConn f i r with
    | some hd =>
      let t := { t with srank := ((h.membersIn t.base).findIdx? (· = h.me)).getD 0 }
      ((s.queuePkts f hd [(1024, .token commit t)] (.bytes (bitmapBytes t.bits)) .nak).modHerd f i fun h =>
        { h with forward := h.otherFwd commit, proposal := h.sentOn commit t }, none)
    | none =>
      let p := s.herdOpen f i r true
      if p.2 then (p.1.modHerd f i fun h => { h with forward := h.otherFwd commit ++ [(commit, t)], proposal := h.sentOn commit t }, none)
      else (p.1, some { t with bits := t.bits ++ [r] })

/-- Mark members until one takes the token. -/
def markGo (fuel : Nat) (s : State) (f i : Nat) (commit : Bool) (t : Token) : State := (loop (State.markOne f i commit) fuel s t).1

/-- Forward a token to its next member, opening a connection if there is none. -/
def State.sendToken (s : State) (f i : Nat) (commit : Bool) (t : Token) : State :=
  markGo ((s.herd f i).membs.length + 1) s f i commit t

/-! ### Declaring a loss and proposing (R448, R453) -/

/-- A proposer starts a lap. -/
def State.startLap (s : State) (f i : Nat) : State :=
  let h := s.herd f i
  let t : Token := { base := h.mepoch, cseq := match h.run with | some c => c.cseq | none => h.cseq, srank := h.rank, lap := min 4095 (h.lap + 1),
                     origin := h.me, cbase := none, cmap := 0, visited := 1, bits := [] }
  let t := h.merge t
  let left := (List.range h.membs.length).filter fun r => ¬ t.bits.contains r
  if left.length < 2 then s.herdBreak f i
  else
    (s.modHerd f i fun h => { h with proposer := true, origin := some h.me, lap := h.lap + 1, lapAt := s.now, lapBack := false,
                                     clean := none }).sendToken f i false t

/-- A re-formation may begin: the herd lives, and no earlier one waits for its COMMIT. One that has its COMMIT and waits for connections is
over (DEDUCED, log 136). -/
def Herd.mayReform (h : Herd) : Bool :=
  h.state = .ready || h.state = .running || h.state = .draining || (h.state = .reforming && h.commit.isSome)

/-- The herd enters REFORMING. -/
def State.reformEnter (s : State) (f i : Nat) : State :=
  s.modHerd f i fun h =>
    if h.mayReform then
      { h with state := .reforming, since := s.now, declared := [], proposer := false, origin := none, lap := 0, lapBack := true,
               proposal := none, clean := none, commit := none, forward := h.otherFwd false }
    else h

/-- Declare a member lost (R448): the declaring member proposes unless it has already forwarded a proposal. -/
def State.herdDeclare (s : State) (f i orig : Nat) : State :=
  let h := s.herd f i
  if ¬ h.members.contains orig ∨ (h.mayReform = false ∧ (h.state ≠ .reforming ∨ h.declared.contains orig)) then s else
    let s := (s.reformEnter f i).modHerd f i fun h => { h with declared := h.declared ++ [orig] }
    if (s.herd f i).origin.isNone then s.startLap f i else s

/-- R456: combining state is lost without losing a peer: an empty proposal. -/
def State.herdEmpty (s : State) (f i : Nat) : State :=
  let was := (s.herd f i).state
  if was ≠ .running ∧ was ≠ .draining then s else (s.reformEnter f i).startLap f i

/-! ### Heartbeats (R447, R448) -/

/-- Ring neighbours of the current epoch, by original rank. -/
def Herd.neighbours (h : Herd) : List Nat :=
  ([(h.rank + 1) % max 1 h.size, (h.rank + h.size - 1) % max 1 h.size].map h.orig).eraseDups.filter fun r => r ≠ h.me

/-- Heartbeats run: the herd lives, and its partition is not at a freeze point. -/
def State.herdBeats (s : State) (f i : Nat) : Bool :=
  let st := (s.herd f i).state
  let ps := (s.part (partOf f)).state
  (st = .ready || st = .running || st = .reforming) && ! s.err.fatal && ! (s.fn f).resetting && ps ≠ .frozen && ps ≠ .restoring

def State.heartbeat (s : State) (f i : Nat) : State :=
  let h := s.herd f i
  if s.herdBeats f i ∧ h.hbAt + h.hbNs ≤ s.now then
    let s := s.modHerd f i fun h => { h with hbAt := s.now }
    h.neighbours.foldl (fun s r => match s.herdConn f i r with
      | some hd => s.sendCtl f hd (s.conn f hd).turnPath .probe true
      | none => s) s
  else s

/-- R447: HEARTBEAT_TIMER. -/
def execHeartbeatTimer (fn : Fn) (herd now : Nat) (s : State) : Host.Outcome State Fault Refusal :=
  .next ((s.tick now).heartbeat fn.idx herd)

/-- An authenticated packet of a member is its heartbeat. -/
def State.herdSeen (s : State) (f hd : Nat) : State :=
  match s.herdOf f hd with
  | some (i, o) => s.modHerd f i fun h => { h with seen := aset h.seen o s.now }
  | none => s

def State.heartbeatMiss (s : State) (f i : Nat) : State :=
  let h := s.herd f i
  if s.herdBeats f i then
    (h.neighbours.filter fun r => agetD h.seen r h.since + 3 * h.hbNs ≤ s.now).foldl (fun s r => s.herdDeclare f i r) s
  else s

/-- R448: 3 × HB without a heartbeat. -/
def execHeartbeatMiss (fn : Fn) (herd now : Nat) (s : State) : Host.Outcome State Fault Refusal :=
  .next ((s.tick now).heartbeatMiss fn.idx herd)

/-! ### COMMIT (R453) -/

/-- Leave a dropped member: ABORT, and its connection is gone. -/
def State.dropMember (s : State) (f i orig : Nat) : State :=
  match aget (s.herd f i).conns orig with
  | none => s
  | some hd =>
    let s := s.modHerd f i fun h => { h with conns := adel h.conns orig }
    if (s.conn f hd).cid.herd = some (i, orig) ∧ (s.conn f hd).state ≠ .free then (s.sendAborts f hd 3 1).freeConn f hd else s

/-- Open the connections of the new epoch; a member to which the quota leaves none is one that cannot be reached (R237, R448). -/
def State.openNeeded (s : State) (f i : Nat) : State :=
  (s.herd f i).need.foldl (fun (s : State) o =>
    if (s.herd f i).commit.isNone then s
    else
      let p := s.herdOpen f i o
      if p.2 then p.1 else p.1.herdDeclare f i o) s

/-- Take epoch e + 1. -/
def State.takeCommit (s : State) (f i : Nat) (t : Token) : State :=
  let h := s.herd f i
  let new := t.bits.filter fun r => h.members.contains r
  if t.bits.contains h.me then s.herdBreak f i
  else
    let s := s.modHerd f i fun h =>
      { h with state := .reforming, dropped := new.foldl (fun d r => aset d r (h.mepoch + 1)) h.dropped, mepoch := h.mepoch + 1, commit := some t,
               forward := [], seen := (List.range h.membs.length).map fun r => (r, s.now) }
    if (s.herd f i).size < 2 then s.herdBreak f i
    else
      let s := new.foldl (fun s r => s.dropMember f i r) s
      let s := s.sendToken f i true t
      s.openNeeded f i

/-! ### Receiving tokens (R450) -/

def State.propose (s : State) (f i : Nat) (t : Token) : State :=
  let s := if (s.herd f i).commit.isSome then s.reformEnter f i else s
  let h := s.herd f i
  if t.bits.contains h.me then s.herdBreak f i
  else if (match h.origin with | some o => decide (o < t.origin) | none => false) then s
  else if t.origin = h.me then
    -- this member's own lap has come back
    let same := match h.proposal with
      | some p => decide (p.bits = t.bits ∧ p.cbase = t.cbase ∧ p.cmap = t.cmap)
      | none => false
    s.modHerd f i fun h => { h with lapBack := true, clean := if same then some t else none }
  else
    let s := s.reformEnter f i
    let s := s.modHerd f i fun h => { h with origin := some t.origin, proposer := false }
    let h := s.herd f i
    s.sendToken f i false (h.merge { t with visited := t.visited + 1 })

def State.tokenAct (s : State) (f i : Nat) (commit : Bool) (t : Token) : State :=
  if commit then s.takeCommit f i t else s.propose f i t

/-- Room in the work area for a token that would be held (R450). -/
def State.tokenRoom (s : State) (f i : Nat) (t : Token) : Bool :=
  let h := s.herd f i
  t.base ≠ h.mepoch + 1 || h.state ≠ .reforming || decide (h.heldBytes + 64 + 1024 ≤ h.bd.slen * 1024)

/-- A token meets its herd. -/
def State.tokenIn (s : State) (f i hd : Nat) (commit : Bool) (t : Token) : State :=
  let h := s.herd f i
  if h.state = .free ∨ h.state = .forming ∨ h.state = .broken then s
  else if t.base < h.mepoch then s.modHerd f i fun h => { h with discarded := h.discarded + 1 }
  else if t.base = h.mepoch + 1 ∧ h.state = .reforming then
    s.modHerd f i fun h => { h with held := h.held ++ [⟨hd, barrierExt t.base t.cseq 0 t.srank 0, some (commit, t), []⟩] }
  else if h.mepoch < t.base then s.herdBreak f i
  else s.tokenAct f i commit t

/-- Tokens held for the epoch that a COMMIT has brought. -/
def State.heldTokens (s : State) (f i : Nat) : State :=
  let h := s.herd f i
  let mine := h.held.filter fun p => p.token.isSome ∧ p.x.mepoch ≤ h.mepoch
  let s := s.modHerd f i fun h => { h with held := h.held.filter fun p => ¬ mine.contains p }
  mine.foldl (fun s p => match p.token with | some (k, t) => s.tokenIn f i p.conn k t | none => s) s

/-- A token that passes; a COMMIT brings back what was held for its epoch (R450). -/
def State.tokenPass (s : State) (f i hd : Nat) (commit : Bool) (t : Token) : State :=
  let s := s.tokenIn f i hd commit t
  if commit then s.heldTokens f i else s

/-! ### Timers of a proposer (R453, R454) -/

def State.proposeLap (s : State) (f i : Nat) : State :=
  let h := s.herd f i
  if h.state = .reforming ∧ h.commit.isNone ∧ h.proposer ∧ h.origin = some h.me ∧ h.lapBack ∧ h.lapAt + 100000000 ≤ s.now then s.startLap f i else s

def execProposeLapTimer (fn : Fn) (herd now : Nat) (s : State) : Host.Outcome State Fault Refusal :=
  .next ((s.tick now).proposeLap fn.idx herd)

/-- R453: SETTLE after its declaration a proposer with a clean last lap and a majority sends COMMIT. -/
def State.settleHerd (s : State) (f i : Nat) : State :=
  let h := s.herd f i
  match h.clean with
  | none => s
  | some t =>
    let left := h.members.filter fun r => ¬ t.bits.contains r
    if h.state = .reforming ∧ h.commit.isNone ∧ h.proposer ∧ h.origin = some h.me ∧ h.lapBack ∧ h.since + s.settleNs ≤ s.now ∧
       h.size < 2 * left.length then (s.takeCommit f i t).heldTokens f i else s

def execSettleTimer (fn : Fn) (herd now : Nat) (s : State) : Host.Outcome State Fault Refusal :=
  .next ((s.tick now).settleHerd fn.idx herd)

/-- R454: SETTLE + AGREE without a COMMIT. -/
def State.agreeHerd (s : State) (f i : Nat) : State :=
  let h := s.herd f i
  if h.state = .reforming ∧ h.commit.isNone ∧ h.since + s.settleNs + s.agreeNs ≤ s.now then s.herdBreak f i else s

def execAgreeTimer (fn : Fn) (herd now : Nat) (s : State) : Host.Outcome State Fault Refusal :=
  .next ((s.tick now).agreeHerd fn.idx herd)

/-! ### Resuming (R254, R255, R455) -/

/-- A chunk is completed: below CBASE, or its bit is set. -/
def tokenHas (t : Token) (k : Nat) : Bool :=
  match t.cbase with
  | some b => decide (k < b) || (decide (b ≤ k ∧ k < b + 64) && t.cmap.getLsbD (k - b))
  | none => false

/-- The distribution of a completed chunk from its source (R455). -/
def PlanIn.fromSource (x : PlanIn) (src : Nat) (owner : Option Nat) : Option Nat × List Nat :=
  match owner with
  | some o => ringDist x.n src true x.r ((o + x.n - src) % max 1 x.n)
  | none =>
    if x.alg = 3 then (treeUp x.n src false x.r, treeKids x.n src false x.r) else ringDist x.n src true x.r (x.n - 1)

/-- The rank that alone takes a piece (reduce-scatter, reduce). -/
def PlanIn.ownerOf (x : PlanIn) (chunk : Nat) : Option Nat :=
  if x.opcode = 0x211 then x.own.getD (chunk / max 1 x.cpb) none
  else if x.opcode = 0x214 then x.own.getD x.b.root none
  else none

/-- The pieces of a paused collective under the new epoch. -/
def Coll.replan (c : Coll) (x : PlanIn) (t : Token) (sources : List (Nat × Nat)) : List Piece :=
  let done := fun (k : Nat) => isRed c.opcode && tokenHas t k
  let kept := (c.pieces.filter fun p => done p.chunk).map fun p =>
    let src := ((sources.find? fun y => y.1 = p.chunk).map (·.2)).getD 0
    let (from_, down) := x.fromSource src (x.ownerOf p.chunk)
    { p with kids := [], up := none, from_ := from_, down := down, got := [], fin := [], sentUp := true, sentDown := false, acked := false }
  let fresh := (x.pieces.filter fun p => ¬ done p.chunk).map fun p =>
    match (if isRed c.opcode then none else c.pieces.find? fun y => y.chunk = p.chunk ∧ y.lo = p.lo ∧ y.n = p.n ∧ y.src = p.src) with
    | some y => { p with final := y.final, ffmt := y.ffmt, written := y.written }
    | none => p
  let l := kept ++ fresh
  ((List.range l.length).zip l).map fun y => { y.2 with id := y.1 }

/-- Bytes of DST that hold their value: a piece that is computed again does not count until it is written again (R255). -/
def Coll.bytesLeft (c : Coll) (l : List Piece) : Nat :=
  if isRows c.opcode then c.bytes else l.foldl (fun n p => n + if p.written then tensorBytes c.body.ofmt p.n else 0) 0

/-- R455: once the new epoch's connections stand, the herd goes on and a paused collective resumes. The record's entry takes CBASE, all ones where no
reducing collective was paused, cut to its 4 bytes (R449). -/
def State.herdResume (s : State) (f i : Nat) (sources : List (Nat × Nat)) : State :=
  let h := s.herd f i
  match h.state, h.commit with
  | .reforming, some t =>
    if ¬ s.herdJoined f i then s else
      let busy := h.run.isSome ∨ h.queue ≠ []
      let s := s.modHerd f i fun h =>
        { h with state := if h.destroy.isSome then .draining else if busy then .running else .ready, commit := none, forward := h.forward.filter (·.1), proposal := none,
                 declared := [], proposer := false, origin := none, clean := none, hbAt := s.now,
                 seen := (List.range h.membs.length).map fun r => (r, s.now) }
      let s := s.heldTokens f i
      match (s.herd f i).run, h.destroy with
      | none, some id => (s.herdFree f i).endOp f id .ok 0 0
      | none, none => s
      | some c, _ =>
        let s := s.dropColl f i
        let h := s.herd f i
        let x := planOf h c
        let c' : Coll := { c with pieces := c.replan x t sources, reforms := c.reforms + 1, alg := c.body.runAlg c.opcode h.size (evenGroups h.groups),
                                  bytes := c.bytesLeft (c.replan x t sources),
                                  epochs := c.epochs ++ [(h.mepoch, h.rank, t.cbase.getD (2 ^ 64 - 1))], tokens := if isRows c.opcode then c.tokens else [],
                                  upSent := false, downSent := false, rowsOut := if isRows c.opcode then h.members else [] }
        let s := s.modRun f i fun _ => c'
        let (s, ok) := s.herdOpenAll f i ((c'.peers h).map h.orig)
        if ok then (s.collHeld f i).collAdvance f i else s.collHalt f i .peerLost 0
  | _, _ => s

def execCollectiveResume (fn : Fn) (herd : Nat) (sources : List (Nat × Nat)) (s : State) : Host.Outcome State Fault Refusal :=
  .next (s.herdResume fn.idx herd sources).settle

/-- R243: COLL_START. -/
def execCollStart (fn : Fn) (herd : Nat) (s : State) : Host.Outcome State Fault Refusal := .next (s.collStart fn.idx herd).settle

/-! ### What connections tell their herd -/

/-- A herd connection has become ESTABLISHED. -/
def State.herdUp (s : State) (f hd : Nat) : State :=
  match s.herdOf f hd with
  | none => s
  | some (i, o) =>
    let s := (s.herdReady f i).modHerd f i fun h => { h with seen := aset h.seen o s.now }
    let h := s.herd f i
    let s := h.forward.foldl (fun (s : State) x => if h.next x.2 = some o then s.sendToken f i x.1 x.2 else s) s
    s.collAdvance f i

/-- A token whose next member is out of reach goes on to the one after it, with that member's bit set (R451). -/
def State.tokenSkip (s : State) (f i o : Nat) : State :=
  let h := s.herd f i
  let late := h.forward.filter fun x => x.1 ∧ h.commit.isNone ∧ h.next x.2 = some o
  let s := late.foldl (fun (s : State) x => s.sendToken f i true { x.2 with bits := x.2.bits ++ [o] }) s
  match h.proposal with
  | some t =>
    if h.state = .reforming ∧ h.next t = some o then s.sendToken f i h.commit.isSome { t with bits := t.bits ++ [o] } else s
  | none => s

/-- A herd connection is LOST (R448): its context is freed, and the member is declared lost. -/
def State.herdDown (s : State) (f hd : Nat) : State :=
  match s.herdOf f hd with
  | none => s
  | some (i, o) =>
    let s := (s.freeConn f hd).modHerd f i fun h => { h with conns := adel h.conns o }
    (s.tokenSkip f i o).herdDeclare f i o

/-- A herd connection could not be set up: a token goes on without the member (R451); a collective that needed it ends PEER_LOST. -/
def State.herdFail (s : State) (f i o : Nat) : State :=
  let s := s.modHerd f i fun h => { h with conns := adel h.conns o }
  let h := s.herd f i
  if h.state = .reforming ∨ (h.forward.any fun x => h.next x.2 = some o) then (s.tokenSkip f i o).herdDeclare f i o
  else if h.state = .running ∨ h.state = .draining then
    match h.run with
    | some c => if (c.peers h).contains ((h.rankOf o).getD h.rank) then s.collHalt f i .peerLost 0 else s
    | none => s
  else s

end Sys2Proof.Machine
end

