-- ==== Sys2Proof/Machine/Attn.lean ====
section
/-!
DEFINITION. Attn.lean: attention sessions and feeds: commands, admission, merging and output (R259-R283).
-/

namespace Sys2Proof.Machine

/-! ### Sessions (R260-R263) -/

def State.sess (s : State) (f i : Nat) : Sess := agetD (s.fn f).sess i {}
def State.modSess (s : State) (f i : Nat) (g : Sess → Sess) : State := s.modFn f fun x => { x with sess := amod x.sess i {} g }

/-- A session reference: index in bits 5:0, key in bits 31:6 (R260). -/
def srefIndex (r : Nat) : Nat := r % 64
def srefKey (r : Nat) : Nat := r / 64 % 2 ^ 26

/-- Head dimension of a code. -/
def headDim (c : Nat) : Nat := 64 * (c + 1)

/-- KV formats a session accepts. -/
def kvFmtOk (x : Nat) : Bool := x = 1 || x = 3 || x = 4 || x = 7 || x = 8

/-- Bytes of n elements of a scalar format. -/
def scalarBytes (fmt n : Nat) : Nat := n * fmtBits fmt / 8

/-- The body a session was opened with. -/
def Sess.bd (x : Sess) : AttnBody :=
  x.body.getD { sess := 0, skey := 0, dcode := 0, nqh := 1, nkvh := 1, qfmt := 0, ofmt := 0, kvfmt := 1, cmode := false, sat := false,
                omode := false, causal := false, window := false, nbuf := 2, cunits := 0, scale := 0, win := 0, nq := 0, qspace := false,
                ospace := false, ltEn := false, rtEn := false, lseEn := false, blks := 0, qaddr := 0, qpos := 0, oaddr := 0, qstride := 0,
                ostride := 0, laddr := 0, expect := 0, ltally := 0, rtally := 0 }

end Sys2Proof.Machine

namespace Sys2Proof

open Machine

def AttnBody.d (b : AttnBody) : Nat := headDim b.dcode
/-- Query heads per KV head. -/
def AttnBody.g (b : AttnBody) : Nat := b.nqh / max 1 b.nkvh
/-- Blocks per group. -/
def AttnBody.perGroup (b : AttnBody) : Nat := popCount 64 b.blks / max 1 b.nkvh
/-- The ibex blocks of a KV head's group, and the block that holds its row i (R262). -/
def AttnBody.group (b : AttnBody) (kvh : Nat) : List Nat := ((bitList 64 b.blks).drop (kvh * b.perGroup)).take b.perGroup
def AttnBody.blockOf (b : AttnBody) (kvh i : Nat) : Nat := (b.group kvh).getD (i / 16 % max 1 b.perGroup) 0
/-- The KV head whose group an ibex block of the session belongs to. -/
def AttnBody.headOf (b : AttnBody) (blk : Nat) : Nat := (bitList 64 b.blks).idxOf blk / max 1 b.perGroup
/-- Rows an ibex block holds at most (R263). -/
def AttnBody.rowsPerBlock (b : AttnBody) : Nat := 16 * ceilDiv (ceilDiv (b.nq * b.g) 16) (max 1 b.perGroup)

/-- Bytes of one row and of one slot (R263). -/
def AttnBody.rowBytes (b : AttnBody) : Nat :=
  (if b.cmode then b.d * 17 / 32 else if b.kvfmt = 1 then 2 * b.d else b.d * 33 / 32) + 4 * b.d + 8
def AttnBody.slotBytes (b : AttnBody) : Nat :=
  2 * 128 * b.d * (if b.kvfmt = 1 then 2 else 1) + (if fmtMx b.kvfmt then 2 * 128 * b.d / 32 else 0) +
  (if b.cmode then 2 * 128 * b.d * 17 / 32 else 0)
def AttnBody.fitsBlock (b : AttnBody) : Bool := decide (131072 + b.nbuf * b.slotBytes + b.rowsPerBlock * b.rowBytes ≤ 2097152)

/-- Bytes that a token's queries and output take. -/
def AttnBody.qrow (b : AttnBody) : Nat := scalarBytes b.qfmt (b.nqh * b.d)
def AttnBody.orow (b : AttnBody) : Nat := scalarBytes b.ofmt (b.nqh * b.d)

/-- Bytes of a statistics record, 0 where none is written (R261, R280). -/
def AttnBody.statBytes (b : AttnBody) : Nat := if b.laddr = 0 then 0 else if b.omode then 8 else if b.lseEn then 4 else 0

/-- Formats that queries, keys and values, and probabilities are converted to (R270, R274). -/
def AttnBody.qConv (b : AttnBody) : Nat := if b.cmode then 9 else if b.kvfmt = 1 then 1 else 7
def AttnBody.kvConv (b : AttnBody) : Nat := if b.cmode then 9 else b.kvfmt
def AttnBody.pConv (b : AttnBody) : Nat := if b.cmode then 9 else if b.kvfmt = 1 then 1 else 3

/-- Fields outside their range (R261, R264). -/
def AttnBody.bad (b : AttnBody) : Bool :=
  3 < b.dcode || b.nqh = 0 || 128 < b.nqh || b.nkvh = 0 || 64 < b.nkvh || b.nqh % max 1 b.nkvh ≠ 0 || 4 < b.qfmt || 2 < b.ofmt ||
  ! kvFmtOk b.kvfmt || b.nbuf < 2 || 16 < b.nbuf || 12 < b.cunits || (b.window && (b.win = 0 || 2 ^ 24 ≤ b.win)) || (! b.window && b.win ≠ 0) ||
  b.nq = 0 || 2 ^ 24 < b.nq || popCount 64 b.blks = 0 || popCount 64 b.blks % max 1 b.nkvh ≠ 0 || ! b.fitsBlock ||
  b.qstride < b.qrow || b.ostride < b.orow || (b.omode && (b.ofmt ≠ 0 || b.laddr = 0)) || (! b.omode && ! b.lseEn && b.laddr ≠ 0) ||
  2 ^ 40 < b.expect

end Sys2Proof

namespace Sys2Proof.Machine

/-! ### Admission (R271) -/

/-- What admission says of a block. -/
inductive Admit where
  | refused (st : Status)
  | full
  | admitted
  deriving DecidableEq, Repr

def Sess.admits (x : Sess) (k : KvExt) : Admit :=
  let b := x.bd
  if (x.state ≠ .loading ∧ x.state ≠ .accepting) ∨ x.key ≠ srefKey k.sref then .refused .revoked
  else if b.nkvh ≤ k.kvh ∨ k.kvfmt ≠ b.kvfmt ∨ k.dcode ≠ b.dcode ∨ k.ntokb = 0 ∨ 128 < k.ntokb ∨ 2 ^ 24 < k.bpos + k.ntokb ∨
      (b.expect ≠ 0 ∧ b.expect < agetD x.admTok k.kvh 0 + k.ntokb) then .refused .range
  else if (b.group k.kvh).any fun n => b.nbuf ≤ (x.blks.filter fun y => y.kvh = k.kvh ∧ ¬ y.done.contains n).length then .full
  else .admitted

/-- Decide a block's admission and note it. -/
def State.kvAdmit (s : State) (f : Nat) (conn : Option Nat) (msn : Nat) (k : KvExt) : Admit × State :=
  let i := srefIndex k.sref
  let x := s.sess f i
  match x.admits k with
  | .admitted =>
    (.admitted, s.modSess f i fun x =>
      { x with blks := x.blks ++ [{ id := x.nextBlk, conn := conn, msn := msn, kvh := k.kvh, ntok := k.ntokb, bpos := k.bpos }],
               nextBlk := x.nextBlk + 1, admitted := satAdd (2 ^ 64 - 1) x.admitted 1,
               admTok := amod x.admTok k.kvh 0 fun n => n + k.ntokb })
  | .full =>
    (.full, (s.modSess f i fun x => { x with misses := satAdd (2 ^ 64 - 1) x.misses 1 }).modFn f fun x =>
      { x with cnt := { x.cnt with slotMiss := x.cnt.slotMiss + 1 } })
  | .refused st =>
    (.refused st, if x.state = .free then s else s.modSess f i fun x => { x with refused := satAdd (2 ^ 64 - 1) x.refused 1 })

/-- Place a packet of an admitted block (R271, R272). -/
def State.kvPlace (s : State) (f : Nat) (conn : Option Nat) (msn : Nat) (k : KvExt) (payload : List Byte) : State :=
  let i := srefIndex k.sref
  let x := s.sess f i
  let one := fun (y : KvBlk) =>
    let seen := (aget (if k.values then y.v else y.k) k.eoff).isSome
    let y := if k.values then { y with v := aset y.v k.eoff payload } else { y with k := aset y.k k.eoff payload }
    let y := { y with got := if seen then y.got else y.got + k.nelem }
    if y.got = 2 * y.ntok * headDim k.dcode ∧ y.ready.isNone then { y with ready := some x.readySeq } else y
  s.modSess f i fun x =>
    { x with blks := x.blks.map (fun y => if y.conn = conn ∧ y.msn = msn then one y else y), readySeq := x.readySeq + 1 }

/-- Blocks of a message that is abandoned free their slots and are never merged (R89, R272). -/
def State.kvAbandon (s : State) (f h : Nat) (msn : Option Nat) : State :=
  let hit := fun (y : KvBlk) => y.conn = some h && y.ready.isNone && (match msn with | some m => decide (y.msn = m) | none => true)
  (s.modFn f fun x => { x with sess := x.sess.map fun z => (z.1, { z.2 with blks := z.2.blks.filter fun y => ! hit y }) })

/-! ### Feeds (R267, R268, R282) -/

/-- Bytes of a part (keys or values) of n tokens. -/
def feedPart (kvfmt d n : Nat) : Nat := if fmtMx kvfmt then tensorBytes kvfmt (n * d) else n * scalarBytes kvfmt d

/-- Where a part of block j lies: (address, length) pieces. -/
def feedPieces (kvfmt d addr stride j n : Nat) : List (Nat × Nat) :=
  if fmtMx kvfmt then [(addr + 128 * j * d / 256 * mxGroup kvfmt, tensorBytes kvfmt (n * d))]
  else (List.range n).map fun t => (addr + (128 * j + t) * stride, scalarBytes kvfmt d)

/-- Tokens of block j of a feed. -/
def feedTokens (ntok j : Nat) : Nat := min 128 (ntok - 128 * j)

/-- The KV header of block j's part. -/
def feedExt (b : FeedBody) (j : Nat) (values : Bool) (eoff nelem : Nat) : KvExt :=
  { values := values, sref := b.sref, kvh := b.kvh, kvfmt := b.kvfmt, dcode := b.dcode, ntokb := feedTokens b.ntok j, bpos := b.pos0 + 128 * j,
    eoff := eoff, nelem := nelem, bseq := j, rsv := false }

/-- Packets of one part of a block: whole elements, or whole MX groups. -/
def feedPkts (b : FeedBody) (pm j : Nat) (values : Bool) : List (Nat × Ext) :=
  let n := feedTokens b.ntok j * headDim b.dcode
  let per := if fmtMx b.kvfmt then max 1 (pm / mxGroup b.kvfmt) * 256 else max 1 (pm * 8 / max 1 (fmtBits b.kvfmt))
  (List.range (ceilDiv n per)).map fun i =>
    let m := min per (n - i * per)
    (tensorBytes b.kvfmt m, Ext.kv (feedExt b j values (i * per) m))

/-- Bytes of block j. -/
def feedBytes (b : FeedBody) (j : Nat) : Nat := 2 * feedPart b.kvfmt (headDim b.dcode) (feedTokens b.ntok j)

/-- Source pieces of block j. -/
def feedSource (b : FeedBody) (j : Nat) : List (Nat × Nat) :=
  let d := headDim b.dcode
  feedPieces b.kvfmt d b.kaddr b.kstride j (feedTokens b.ntok j) ++ feedPieces b.kvfmt d b.vaddr b.vstride j (feedTokens b.ntok j)

/-- Bytes from a part's first to its last. -/
def feedSpan (b : FeedBody) (stride : Nat) : Nat :=
  if fmtMx b.kvfmt then tensorBytes b.kvfmt (b.ntok * headDim b.dcode) else (b.ntok - 1) * stride + scalarBytes b.kvfmt (headDim b.dcode)

def State.feedChecks (s : State) (f : Nat) (b : FeedBody) : List Status :=
  let row := scalarBytes b.kvfmt (headDim b.dcode)
  let mx := fmtMx b.kvfmt
  ck ((b.local_ = true ∧ b.conn ≠ 0) ∨ 63 < b.kvh ∨ kvFmtOk b.kvfmt = false ∨ 3 < b.dcode ∨ b.ntok = 0 ∨ 2 ^ 24 < b.ntok ∨ 2 ^ 24 < b.pos0 + b.ntok ∨
      (mx = true ∧ (b.kstride ≠ 0 ∨ b.vstride ≠ 0)) ∨ (mx = false ∧ (b.kstride < row ∨ b.vstride < row))) .range ++
  ck (b.ltEn = true ∧ s.tallyOk f b.ltally = false) .range ++
  (if b.local_ then [] else s.connChecks f b.conn ++ s.gateChecks f b.conn (.kv (feedExt b 0 false 0 0)) (pmtuBytes (s.conn f b.conn).cid.pmtu)) ++
  s.locCheck f b.space b.kaddr (feedSpan b b.kstride) ++ s.locCheck f b.space b.vaddr (feedSpan b b.vstride)

/-- A LOCAL feed sends its next blocks while the session takes them (R268, R271). Where both its channels meet poison, the lower address counts
(R344). -/
def State.localOne (f id : Nat) (s : State) (_ : Unit) : State × Option Unit :=
  match aget (s.fn f).feeds id with
  | none => (s, none)
  | some y =>
    let b := y.body
    let j := y.next
    if b.ntok ≤ 128 * j then (s.feedEnd f id, none)
    else
      let l := feedSource b j
      match l.findSome? fun p => s.locMiss f b.space p.1 p.2 false with
      | some pg => (s.collPark f id pg false, none)
      | none =>
        match (l.filterMap fun p => s.locPoison f b.space p.1 p.2).min? with
        | some a => ((s.modFn f fun x => { x with feeds := adel x.feeds id }).endOp f id .poison y.bytes (granuleDetail a), none)
        | none =>
          let d := headDim b.dcode
          let n := feedTokens b.ntok j
          let k := feedExt b j false 0 (n * d)
          match s.kvAdmit f none (2 ^ 32 * id + j) k with
          | (.full, s) => (s, none)
          | (.refused st, s) => ((s.modFeed f id fun y => { y with fail := some st }).feedEnd f id, none)
          | (.admitted, s) =>
            let rd := fun (addr stride : Nat) => (feedPieces b.kvfmt d addr stride j n).flatMap fun p => s.locRead f b.space p.1 p.2
            let s := s.kvPlace f none (2 ^ 32 * id + j) k (rd b.kaddr b.kstride)
            let s := s.kvPlace f none (2 ^ 32 * id + j) { k with values := true } (rd b.vaddr b.vstride)
            (s.modFeed f id fun y => { y with next := j + 1, blocks := y.blocks + 1, bytes := y.bytes + feedBytes b j }, some ())

/-- Block after block. -/
def localGo (fuel : Nat) (s : State) (f id : Nat) : State := (loop (State.localOne f id) fuel s ()).1

/-- Every LOCAL feed of a function goes on. -/
def State.localFeeds (s : State) (f : Nat) : State :=
  ((s.fn f).feeds.filter fun y => y.2.body.local_).foldl (fun s y => localGo (ceilDiv y.2.body.ntok 128 + 1) s f y.1) s

/-- Queue every block of a feed on its connection. -/
def feedQueue (s : State) (f id : Nat) (b : FeedBody) (l : List Nat) : State :=
  l.foldl (fun (s : State) j =>
    let pm := pmtuBytes (s.conn f b.conn).cid.pmtu
    let msn := s.nextMsn f b.conn
    let s := s.queuePkts f b.conn (feedPkts b pm j false ++ feedPkts b pm j true) (.gather b.space (feedSource b j)) (.feed id)
    s.modFeed f id fun y => { y with open_ := y.open_ ++ [(msn, feedBytes b j)] }) s

def effAttnFeed (b : FeedBody) (f id : Nat) (s : State) : State :=
  if (aget (s.fn f).feeds id).isSome then s.localFeeds f
  else
    s.checked f id (s.feedChecks f b) fun s =>
      let s := s.modOp f id fun o => { o with ltally := ltOf b.ltEn b.ltally, conn := if b.local_ then none else some b.conn }
      let s := s.modFn f fun x => { x with feeds := aset x.feeds id { body := b } }
      if b.local_ then localGo (ceilDiv b.ntok 128 + 1) s f id else feedQueue s f id b (List.range (ceilDiv b.ntok 128))

/-- R267: ATTN_FEED. -/
def execAttnFeed (e : Entry) (b : FeedBody) (s : State) : Host.Outcome State Fault Refusal :=
  .next (s.startEntry e 0x281 len1 (.attnFeed e b) (effAttnFeed b e.fn.idx)).settle

/-! ### ATTN_OPEN (R264-R266, R270) -/

def State.attnChecks (s : State) (f : Nat) (b : AttnBody) : List Status :=
  ck (b.bad = true) .range ++
  ck ((b.ltEn = true ∧ s.tallyOk f b.ltally = false) ∨ (b.rtEn = true ∧ s.tallyOk f b.rtally = false)) .range ++
  ck ((bitList 64 b.blks).any (fun i => isPf f || ¬ (s.part (partOf f)).cur.blks.testBit i) = true) .prot ++
  ck ((s.blocksBusy f b.blks).1 = true) .busy ++
  ck ((s.sess f b.sess).state ≠ .free) .state ++
  s.locCheck f b.qspace b.qaddr ((b.nq - 1) * b.qstride + b.qrow) ++ s.locCheck f b.ospace b.oaddr ((b.nq - 1) * b.ostride + b.orow)

/-- Regions that hold blocks of a mask. -/
def maskRegions (blks : Nat) : List Nat := (List.range 4).filter fun r => (bitList 64 blks).any fun b => regionOf b = r

/-- R266: circuits from each region router to each region that holds blocks. -/
def State.attnCircuits (s : State) (f i : Nat) (b : AttnBody) : State :=
  (List.range 4).foldl (fun s src => (maskRegions b.blks).foldl (fun s dst =>
    s.reqCircuit { src := src, dst := dst, branches := (bitList 64 b.blks).filter (fun k => regionOf k = dst),
                   units := if b.cunits = 0 then 8 else b.cunits, owner := (f, 1, i) }) s) s

/-- Where the queries of the local tokens lie, one range a token. -/
def queryRanges (b : AttnBody) : List (Nat × Nat) := (List.range b.nq).map fun t => (b.qaddr + t * b.qstride, b.qrow)

/-- Conversion of one row of values to a format (R270): elements as exact values, and what it counts (R217, R233). -/
def convRow (fmt : Nat) (l : List Num) : List Num × Exc :=
  if fmtMx fmt then
    let q := quantTensor fmt l
    ((q.flatMap fun b => b.codes.map (decMx fmt b.scale)), Exc.sum (q.map (·.exc)))
  else
    let x := l.map (roundNum fmt true)
    (x.map (·.1), Exc.sum (x.map (·.2)))

/-- One MX or scalar row as a tile, so that state holds its codes and scales, and what the conversion counts. -/
def convTile (fmt : Nat) (l : List Num) : Tile × Exc :=
  if fmtMx fmt then
    let q := quantTensor fmt l
    (⟨(q.flatMap (·.codes)).map some, q.map fun b => some b.scale⟩, Exc.sum (q.map (·.exc)))
  else
    let x := l.map (encNum fmt true)
    (⟨x.map fun v => some v.1, []⟩, Exc.sum (x.map (·.2)))

/-- Values of n elements of row i of a tile of d columns. -/
def tileRow (fmt d : Nat) (t : Tile) (i : Nat) : List Num :=
  (List.range d).map fun e =>
    let c := ((t.data.getD (i * d + e) none).getD 0)
    if fmtMx fmt then decMx fmt (((t.scales.getD ((i * d + e) / 32) none).getD 255)) c else decNum fmt c

/-- A fresh softmax row (R265). -/
def freshRow (d : Nat) : SRow := { m := 0xFF800000, l := 0, o := List.replicate d 0 }

/-- A session leaves: its blocks and circuits are free. -/
def State.sessFree (s : State) (f i : Nat) : State :=
  (s.dropCircuits (f, 1, i)).modFn f fun x => { x with sess := adel x.sess i }

/-- Whether an operation is a session's ATTN_OPEN. -/
def State.sessOfOp (s : State) (f op : Nat) : Option Nat := ((s.fn f).sess.find? fun x => x.2.state ≠ .free ∧ x.2.op = op).map (·.1)

/-- A session ends with a failure: ATTN_OPEN with it, after a pending ATTN_FINISH (DESIGN CHOICE: FLUSHED). A local feed that waited for a slot
is refused (R271). -/
def State.sessFail (s : State) (f i : Nat) (st : Status) (detail : Nat) : State :=
  let x := s.sess f i
  let s := s.sessFree f i
  let s := match x.finish with | some id => s.endOp f id .flushed 0 0 | none => s
  (s.endOp f x.op st 0 detail).localFeeds f

/-- Go on once ranges can be used by a session's operation, or park it. -/
def State.sessReach (s : State) (f i : Nat) (l : List (Bool × Nat × Nat × Bool)) (k : State → State) : State :=
  let x := s.sess f i
  match l.findSome? fun y => (s.locMiss f y.1 y.2.1 y.2.2.1 y.2.2.2).map fun p => (p, y.2.2.2) with
  | some (p, wr) => s.collPark f x.op p wr
  | none =>
    match (l.filter fun y => ¬ y.2.2.2).findSome? fun y => s.locPoison f y.1 y.2.1 y.2.2.1 with
    | some a => s.sessFail f i .poison (granuleDetail a)
    | none => k (l.foldl (fun s y => if y.2.2.2 then s else s.locUse f y.1 y.2.1 y.2.2.1) s)

/-- The converted queries of a KV head, row by row, and what each conversion counts (R270). -/
def State.queryRows (s : State) (f : Nat) (b : AttnBody) (kvh : Nat) : List (Tile × Exc) :=
  let n := scalarBytes b.qfmt b.d
  (List.range (b.nq * b.g)).map fun i =>
    let bs := s.locRead f b.qspace (b.qaddr + i / max 1 b.g * b.qstride + (kvh * b.g + i % max 1 b.g) * n) n
    convTile b.qConv (tensorVals b.qfmt b.d bs).1

/-- The tile of a KV head's converted queries. -/
def queryTile (l : List (Tile × Exc)) : Tile := ⟨l.flatMap (·.1.data), l.flatMap (·.1.scales)⟩

/-- The blocks that hold a KV head's rows count what their rows' conversions count (R233, R262). -/
def State.countRows (s : State) (b : AttnBody) (kvh : Nat) (l : List Exc) : State :=
  ((List.range l.length).zip l).foldl (fun s e => s.countExc (b.blockOf kvh e.1) e.2) s

/-- R265: every KV head has merged EXPECT tokens. -/
def Sess.merAll (x : Sess) : Bool := (List.range x.bd.nkvh).all fun k => agetD x.merTok k 0 = x.bd.expect

/-- A session moves to WRITING when its last block is merged (R265, R278). -/
def State.sessStep (s : State) (f i : Nat) : State :=
  s.modSess f i fun x =>
    if x.state = .accepting ∧ x.bd.expect ≠ 0 ∧ x.merAll then { x with state := .writing }
    else if x.state = .finishing ∧ x.loaded ∧ x.blks = [] then { x with state := .writing }
    else x

/-- R265, R270: queries are loaded and converted; the session becomes ACCEPTING. -/
def State.attnLoaded (s : State) (f i : Nat) : State :=
  let x := s.sess f i
  let b := x.bd
  if (x.state ≠ .loading ∧ x.state ≠ .finishing) ∨ x.loaded then s else
    s.sessReach f i (((queryRanges b).map fun r => (b.qspace, r.1, r.2, false)) ++ [(false, b.qpos, 4 * b.nq, false)]) fun s =>
      let pos := (List.range b.nq).map fun t => leNat (s.hostBytes f (b.qpos + 4 * t) 4) % 2 ^ 24
      let heads := List.range b.nkvh
      let qs := heads.map fun k => (k, s.queryRows f b k)
      let s := qs.foldl (fun s q => s.countRows b q.1 (q.2.map (·.2))) s
      let s := s.modSess f i fun x =>
        { x with loaded := true, state := if x.state = .loading then .accepting else x.state, qs := qs.map (fun q => (q.1, queryTile q.2)),
                 rows := heads.map (fun k => (k, List.replicate (b.nq * b.g) (freshRow b.d))), pos := pos }
      let s := if b.rtEn ∧ x.state = .loading then s.tallyAdd f b.rtally 1 else s
      s.sessStep f i

def effAttnOpen (b : AttnBody) (f id : Nat) (s : State) : State :=
  match s.sessOfOp f id with
  | some i => s.attnLoaded f i
  | none =>
    s.checkedFence f id (s.blocksBusy f b.blks).2 (s.attnChecks f b) fun s =>
      let s := s.modOp f id fun o => { o with ltally := ltOf b.ltEn b.ltally }
      let circs := s.mesh.circs.length
      let s := (s.modSess f b.sess fun _ => { state := .loading, body := some b, key := b.skey, op := id }).attnCircuits f b.sess b
      (s.modSess f b.sess fun x => { x with circuits := s.mesh.circs.length - circs }).wakeBlocks b.blks

/-- R261: ATTN_OPEN. -/
def execAttnOpen (e : Entry) (b : AttnBody) (s : State) : Host.Outcome State Fault Refusal :=
  .next (s.startEntry e 0x280 len2 (.attnOpen e b) (effAttnOpen b e.fn.idx)).settle

def execAttnLoadingDone (fn : Fn) (sess : Nat) (s : State) : Host.Outcome State Fault Refusal := .next (s.attnLoaded fn.idx sess).settle

/-! ### ATTN_FINISH, ATTN_ABORT, ATTN_QUERY (R259, R265, R283) -/

/-- A reference matches a session that is not FREE. -/
def State.sessMatch (s : State) (f sref : Nat) : Bool :=
  let x := s.sess f (srefIndex sref)
  x.state ≠ .free && x.key = srefKey sref

def effAttnFinish (sref : Nat) (f id : Nat) (s : State) : State :=
  let i := srefIndex sref
  let x := s.sess f i
  s.checked f id (ck (s.sessMatch f sref = false ∨ x.state = .finishing ∨ x.state = .writing) .state) fun s =>
    ((s.modSess f i fun x => { x with state := .finishing, finish := some id }).sessStep f i).localFeeds f

def execAttnFinish (e : Entry) (sref : Nat) (s : State) : Host.Outcome State Fault Refusal :=
  .next (s.startEntry e 0x282 len1 (.attnFinish e sref) (effAttnFinish sref e.fn.idx)).settle

/-- A pending ATTN_FINISH of an aborted session ends FLUSHED: the manual names its end only for a session that writes. -/
def effAttnAbort (sref : Nat) (f id : Nat) (s : State) : State :=
  let i := srefIndex sref
  let x := s.sess f i
  s.checked f id (ck (s.sessMatch f sref = false ∨ x.state = .writing) .state) fun s => (s.sessFail f i .flushed 0).endOp f id .ok 0 0

def execAttnAbort (e : Entry) (sref : Nat) (s : State) : Host.Outcome State Fault Refusal :=
  .next (s.startEntry e 0x283 len1 (.attnAbort e sref) (effAttnAbort sref e.fn.idx)).settle

def SessSt.code : SessSt → Nat
  | .free => 0 | .loading => 1 | .accepting => 2 | .finishing => 3 | .writing => 4

/-- R283: the record. -/
def Sess.record (x : Sess) : List Byte :=
  leBytes 1 x.state.code ++ leBytes 1 (bit x.bd.cmode) ++ leBytes 1 x.circuits ++ leBytes 1 0 ++ leBytes 4 x.bd.rowsPerBlock ++
  leBytes 8 x.admitted ++ leBytes 8 x.merged ++ leBytes 8 x.refused ++ leBytes 8 x.misses ++ leBytes 8 x.skipped ++
  leBytes 8 (min (2 ^ 64 - 1) (x.merTok.foldl (fun n y => n + y.2) 0)) ++ leBytes 8 0

def effAttnQuery (sref addr : Nat) (f id : Nat) (s : State) : State :=
  s.checked f id (ck (s.sessMatch f sref = false) .state) fun s => s.writeRecord f id addr (s.sess f (srefIndex sref)).record 0

def execAttnQuery (e : Entry) (sess addr : Nat) (s : State) : Host.Outcome State Fault Refusal :=
  .next (s.startEntry e 0x284 len1 (.attnQuery e sess addr) (effAttnQuery sess addr e.fn.idx))

/-! ### Merging (R272-R276) -/

/-- R273: a pair of positions is kept. -/
def pairKept (causal window : Bool) (w pq pk : Nat) : Bool :=
  (! causal || decide (pk ≤ pq)) && (! window || decide (pq < pk + w ∧ pk < pq + w))

/-- One dot product in steps of k products, each rounded once to FP32 (R214). -/
def dotSteps (k : Nat) (start : Num) (a b : List Num) : Num × Exc :=
  (chunks k (a.zip b)).foldl (fun (acc : Num × Exc) ps =>
    let (r, x) := stepFp acc.1 ps (ps.any fun p => p.1.isNan || p.2.isNan)
    (r, acc.2.add x)) (start, {})

/-- The exact sum of values, rounded once to FP32. -/
def exactSum (l : List Num) : Num := (fp32 (l.foldl Num.add Num.zero)).1

/-- Probabilities and the factor a: EXP2 of a score less the maximum, 0 for a masked one (R274). -/
def expDiff (v mn : Num) : Num × Exc :=
  if v = Num.inf true then (Num.zero, {}) else
    let d := fp32 (v.add mn.neg)
    let y := vecFn 0 d.1
    (y.1, d.2.add y.2)

/-- One row meets one KV block (R274). A NaN row and a poisoned one stay so (R208, R275). -/
def mergeRow (b : AttnBody) (q : List Num) (pq bpos : Nat) (ks vs : List (List Num)) (r : SRow) : SRow × Exc :=
  if r.nan ∨ r.bad then (r, {}) else
    let kd := (rateK b.qConv b.kvConv).getD 16
    let kp := (rateK b.pConv b.kvConv).getD 16
    let scale := decNum 0 b.scale.toNat
    let dots := ks.map fun k => dotSteps kd Num.zero q k
    let t := ((List.range ks.length).zip dots).map fun x =>
      if pairKept b.causal b.window b.win pq (bpos + x.1) then fp32 (x.2.1.mul scale) else (Num.inf true, {})
    let ts := t.map (·.1)
    let exc := Exc.sum (dots.map (·.2) ++ t.map (·.2))
    let mb := ts.foldl (fun (m : Num) v => if m.lt v then v else m) (Num.inf true)
    if ts.any (·.isNan) then ({ r with nan := true }, exc)
    else if mb = Num.inf true then (r, exc)
    else
      let m := decNum 0 r.m
      let mn := if m.lt mb then mb else m
      let (a, ea) := expDiff m mn
      let es := ts.map fun v => expDiff v mn
      let (p, ep) := convRow b.pConv (es.map (·.1))
      let la := fp32 ((decNum 0 r.l).mul a)
      let l := fp32 (la.1.add (exactSum p))
      let o := (List.range r.o.length).map fun e =>
        let start := fp32 ((decNum 0 (r.o.getD e 0)).mul a)
        let y := dotSteps kp start.1 p (vs.map fun v => v.getD e Num.zero)
        (y.1, start.2.add y.2)
      let exc := Exc.sum (o.map (·.2) ++ es.map (·.2) ++ [exc, ea, ep, la.2, l.2])
      if a.isNan ∨ l.1.isNan ∨ o.any (fun x => x.1.isNan) ∨ p.any (·.isNan) then ({ r with nan := true }, exc)
      else ({ r with m := (encNum 0 true mn).1, l := (encNum 0 true l.1).1, o := o.map fun x => (encNum 0 true x.1).1 }, exc)

/-- The token rows of a block's part as they are merged, and what their conversion counts (R270). -/
def blockRows (b : AttnBody) (n : Nat) (parts : AMap (List Byte)) : List (List Num) × Exc :=
  let bs := parts.flatMap (·.2)
  let d := b.d
  let v := tensorVals b.kvfmt (n * d) bs
  let rows := (List.range n).map fun j => (v.1.drop (j * d)).take d
  if b.cmode then
    let q := rows.map (convRow 9)
    (q.map (·.1), Exc.sum (v.2 :: q.map (·.2)))
  else if fmtMx b.kvfmt then
    let (sc, el) := mxParse b.kvfmt (n * d) bs
    ((List.range n).map fun j => (List.range d).map fun e => decMx b.kvfmt (sc.getD ((j * d + e) / 32) 255) (el.getD (j * d + e) 0), {})
  else (rows, {})

/-- Tiles of 16 rows in which no pair of the block is kept (R273). -/
def skippedTiles (b : AttnBody) (pos : List Nat) (bpos ntok : Nat) : List Nat :=
  (List.range (ceilDiv (b.nq * b.g) 16)).filter fun u =>
    ¬ (List.range 16).any fun r => 16 * u + r < b.nq * b.g ∧
      (List.range ntok).any fun j => pairKept b.causal b.window b.win (pos.getD ((16 * u + r) / max 1 b.g) 0) (bpos + j)

/-- The complete block that an ibex block merges next: the first complete one of its KV head that it has not merged. -/
def Sess.firstReady (x : Sess) (blk : Nat) : Option KvBlk :=
  (x.blks.filter fun y => y.kvh = x.bd.headOf blk ∧ y.ready.isSome ∧ ¬ y.done.contains blk).foldl (fun (m : Option KvBlk) y => match m with
    | none => some y
    | some z => if y.ready.getD 0 < z.ready.getD 0 then some y else some z) none

/-- The softmax rows of an ibex block after a KV block, and what each row's steps count: rows of skipped tiles and of other ibex blocks are
as they were (R273, R274). -/
def Sess.mergeRows (x : Sess) (blk : Nat) (y : KvBlk) : List (SRow × Exc) :=
  let b := x.bd
  let rows := agetD x.rows y.kvh []
  let qt := agetD x.qs y.kvh ⟨[], []⟩
  let ks := (blockRows b y.ntok y.k).1
  let vs := (blockRows b y.ntok y.v).1
  let skip := skippedTiles b x.pos y.bpos y.ntok
  ((List.range rows.length).zip rows).map fun z =>
    if b.blockOf y.kvh z.1 ≠ blk ∨ skip.contains (z.1 / 16) then (z.2, {})
    else mergeRow b (tileRow b.qConv b.d qt z.1) (x.pos.getD (z.1 / max 1 b.g) 0) y.bpos ks vs z.2

/-- An ibex block has merged a KV block: its slot there is free, and the last block of the group to do so ends the merge. -/
def Sess.merged_ (x : Sess) (blk : Nat) (y : KvBlk) (rows : List SRow) : Sess :=
  let b := x.bd
  let skip := (skippedTiles b x.pos y.bpos y.ntok).filter fun u => b.blockOf y.kvh (16 * u) = blk
  let last := (b.group y.kvh).all fun n => n = blk || y.done.contains n
  let x := { x with rows := aset x.rows y.kvh rows, skipped := satAdd (2 ^ 64 - 1) x.skipped skip.length }
  if last then { x with blks := x.blks.filter (fun z => z.id ≠ y.id), merged := satAdd (2 ^ 64 - 1) x.merged 1,
                        merTok := amod x.merTok y.kvh 0 fun n => n + y.ntok }
  else { x with blks := x.blks.map fun z => if z.id = y.id then { z with done := z.done ++ [blk] } else z }

/-- What an ibex block counts while it merges a KV block: its conversions, its rows' steps, and each row made NaN once (R233, R275). -/
def Sess.mergeExc (x : Sess) (y : KvBlk) (out : List (SRow × Exc)) : Exc :=
  let b := x.bd
  let nan := (((agetD x.rows y.kvh []).zip out).filter fun z => ¬ z.1.nan ∧ z.2.1.nan).length
  let steps := Exc.sum (out.map (·.2))
  ((blockRows b y.ntok y.k).2.add (blockRows b y.ntok y.v).2).add { steps with nan := nan }

/-- An ibex block merges the KV block in one of its slots into the rows that it holds, and frees the slot (R262, R272). -/
def State.kvMerge (s : State) (f i blk slot : Nat) : State :=
  let x := s.sess f i
  match x.firstReady blk with
  | none => s
  | some y =>
    if y.id ≠ slot ∨ ¬ x.loaded ∨ (x.state ≠ .accepting ∧ x.state ≠ .finishing) ∨ ¬ x.bd.blks.testBit blk ∨ ¬ s.regionLive (regionOf blk) then s else
      let out := x.mergeRows blk y
      let s := (s.countExc blk (x.mergeExc y out)).modSess f i fun x => x.merged_ blk y (out.map (·.1))
      (s.sessStep f i).localFeeds f

/-- R274: KV_BLOCK_MERGE at one ibex block. -/
def execKvBlockMerge (fn : Fn) (sess block slot : Nat) (s : State) : Host.Outcome State Fault Refusal :=
  .next (s.kvMerge fn.idx sess block slot).settle

/-- A word of an ibex block's local memory is poisoned: which row's it is, or none's, is open (R208, R486). -/
def State.poisonSess (s : State) (f i blk : Nat) : State :=
  let x := s.sess f i
  let b := x.bd
  if x.state = .free ∨ ¬ b.blks.testBit blk ∨ ¬ s.openPick 0 then s.bump else
    let k := b.headOf blk
    let mine := (List.range (b.nq * b.g)).filter fun r => b.blockOf k r = blk
    let hit := mine.getD (s.freeVal / 256 % max 1 mine.length) (b.nq * b.g)
    (s.modSess f i fun x => { x with rows := amod x.rows k [] fun l =>
      ((List.range l.length).zip l).map fun z => if z.1 = hit then { z.2 with bad := true } else z.2 }).bump

/-! ### Output (R278-R281) -/

/-- A row's output bytes (R275, R278, R279). -/
def rowOut (b : AttnBody) (r : SRow) : List Byte × Exc :=
  if r.nan then (bytesOf b.ofmt (List.replicate b.d (fltOf b.ofmt).nanCode), {})
  else if b.omode then (bytesOf 0 (if r.l = 0 then List.replicate b.d 0 else r.o), {})
  else if r.l = 0 then (bytesOf b.ofmt (List.replicate b.d 0), {})
  else
    let (c, ec) := vecFn 2 (decNum 0 r.l)
    let x := r.o.map fun o => let v := fp32 ((decNum 0 o).mul c); let y := encNum b.ofmt b.sat v.1; (y.1, v.2.add y.2)
    (bytesOf b.ofmt (x.map (·.1)), Exc.sum (ec :: x.map (·.2)))

/-- A row's statistics (R280). -/
def rowStat (b : AttnBody) (r : SRow) : List Byte × Exc :=
  let nan := (fltOf 0).nanCode
  if b.omode then
    (if r.nan then leBytes 4 nan ++ leBytes 4 nan else if r.l = 0 then leBytes 4 0xFF800000 ++ leBytes 4 0 else leBytes 4 r.m ++ leBytes 4 r.l, {})
  else if ¬ b.lseEn then ([], {})
  else if r.nan then (leBytes 4 nan, {})
  else if r.l = 0 then (leBytes 4 0xFF800000, {})
  else
    let g := vecFn 1 (decNum 0 r.l)
    let v := fp32 ((decNum 0 r.m).add g.1)
    (leBytes 4 (encNum 0 true v.1).1, g.2.add v.2)

/-- A piece of a session's output within one granule: address, bytes, what writing it counts at which ibex block, and whether the row is
poisoned. -/
structure OutPiece where
  addr  : Nat
  bytes : List Byte
  blk   : Nat
  exc   : Exc
  bad   : Bool
  deriving DecidableEq, Repr

/-- Cut a row's bytes where they cross granules; its first piece carries what the row counts. -/
def outCut (addr blk : Nat) (x : List Byte × Exc) (bad : Bool) : List OutPiece :=
  (hostPages addr x.1.length).map fun p =>
    let a := max addr (4096 * p)
    let n := min (addr + x.1.length) (4096 * (p + 1)) - a
    ⟨a, (x.1.drop (a - addr)).take n, blk, if a = addr then x.2 else {}, bad⟩

/-- Every row in output order: token, query head, the ibex block that holds it, the row. -/
def Sess.outRows (x : Sess) : List (Nat × Nat × Nat × SRow) :=
  let b := x.bd
  (List.range b.nq).flatMap fun t => (List.range b.nqh).map fun h =>
    let i := t * b.g + h % max 1 b.g
    (t, h, b.blockOf (h / max 1 b.g) i, (agetD x.rows (h / max 1 b.g) []).getD i (freshRow b.d))

/-- The output and the statistics in ascending order (R261, R280). -/
def Sess.outPieces (x : Sess) : List OutPiece :=
  let b := x.bd
  x.outRows.flatMap fun r => outCut (b.oaddr + r.1 * b.ostride + r.2.1 * scalarBytes b.ofmt b.d) r.2.2.1 (rowOut b r.2.2.2) r.2.2.2.bad
def Sess.statPieces (x : Sess) : List OutPiece :=
  let b := x.bd
  if b.statBytes = 0 then [] else
    x.outRows.flatMap fun r => outCut (b.laddr + (r.1 * b.nqh + r.2.1) * b.statBytes) r.2.2.1 (rowStat b r.2.2.2) r.2.2.2.bad

/-- A channel writes pieces in order up to the first whose granule is missing or whose row is poisoned; what is left (R343, R491). -/
def putPieces (f : Nat) (slice : Bool) (l : List OutPiece) (s : State) : State × List OutPiece :=
  match l with
  | [] => (s, [])
  | p :: t =>
    if p.bad ∨ (s.locMiss f slice p.addr p.bytes.length true).isSome then (s, p :: t)
    else putPieces f slice t ((s.locWrite f slice p.addr p.bytes).countExc p.blk p.exc)

/-- A channel parks at the granule of its first piece. -/
def State.outPark (s : State) (f op : Nat) (slice : Bool) (l : List OutPiece) : State :=
  match l with
  | p :: _ => (match s.locMiss f slice p.addr p.bytes.length true with | some g => s.collPark f op g true | none => s)
  | [] => s

/-- Empty rows (R279), saturating. -/
def Sess.emptyRows (x : Sess) : Nat := min (2 ^ 32 - 1) (x.outRows.filter fun r => ¬ r.2.2.2.nan ∧ r.2.2.2.l = 0).length

/-- The session ends OK: ATTN_FINISH first, if one is pending (R265, R281). -/
def State.sessDone (s : State) (f i : Nat) : State :=
  let x := s.sess f i
  let b := x.bd
  let s := s.sessFree f i
  let s := match x.finish with | some id => s.endOp f id .ok 0 0 | none => s
  s.endOp f x.op .ok (b.nq * b.nqh * scalarBytes b.ofmt b.d) x.emptyRows

/-- R278-R281: output and statistics are written, each by its own channel, and the session ends. A poisoned row halts its channel, and the
session ends POISON with the lower address where both halt (R344); what is written stays. -/
def State.attnWrite (s : State) (f i : Nat) : State :=
  let x := s.sess f i
  let b := x.bd
  if x.state ≠ .writing then s else
    let (s, ro) := putPieces f b.ospace (x.outPieces.drop x.written) s
    let (s, rs) := putPieces f false (x.statPieces.drop x.statted) s
    let s := s.modSess f i fun y => { y with written := x.outPieces.length - ro.length, statted := x.statPieces.length - rs.length }
    match (((ro.take 1 ++ rs.take 1).filter (·.bad)).map (·.addr)).min? with
    | some a => s.sessFail f i .poison (granuleDetail a)
    | none => if ro = [] ∧ rs = [] then s.sessDone f i else (s.outPark f x.op b.ospace ro).outPark f x.op false rs

def execAttnOutputWrite (fn : Fn) (sess : Nat) (s : State) : Host.Outcome State Fault Refusal := .next (s.attnWrite fn.idx sess).settle

/-- A refused granule of a session's queries ends it PROT; of its output, POISON: output already written stays (R348). -/
def State.sessBad (s : State) (f i addr : Nat) : State :=
  if (s.sess f i).state = .writing then s.sessFail f i .poison (granuleDetail addr) else s.sessFail f i .prot (granuleDetail addr)

end Sys2Proof.Machine
end

