-- ==== Sys2Proof/Machine/Conn.lean ====
section
/-!
DEFINITION. Conn.lean: connection commands, handshakes, closing, tear-down, rekeying and their timers (R133-R142, R162-R166, R406, R416-R422).
-/

namespace Sys2Proof.Machine

/-! ### Ends that herds, feeds and sessions hear of -/

/-- Feeds whose operation has ended are gone. -/
def State.feedsClean (s : State) (f : Nat) : State :=
  s.modFn f fun x => { x with feeds := x.feeds.filter fun y => x.ops.any fun o => o.id = y.1 }

/-- A connection is LOST: its operations, messages, feeds and KV blocks end, and its herd hears of it (R89, R140, R282, R448). -/
def State.connLost (s : State) (f h cause : Nat) : State :=
  let s := ((s.loseConn f h cause).kvAbandon f h none).feedsClean f
  (s.localFeeds f).herdDown f h

/-- A connection that was not yet established fails (R137, R140). -/
def State.connFail (s : State) (f h : Nat) (st : Status) (hint : Nat) : State :=
  match (s.conn f h).cid.herd with
  | some (i, o) => (s.failConn f h st hint).herdFail f i o
  | none => s.failConn f h st hint

/-- An ESTABLISHED connection of a herd tells its herd. -/
def State.connUp (s : State) (f h : Nat) : State := if (s.conn f h).cid.herd.isSome then s.herdUp f h else s

/-- A packet to a peer for which this device holds no context (R137, R163): sent from an address entry of the partition, on the path on which
the peer's came. No SPBASE belongs to it: the source port is 0xC000 + PATH (DESIGN CHOICE, log 143). -/
def State.replyPkt (s : State) (f laddr path peerIp part dconn dinc dgen : Nat) (ext : Ext) : Pkt :=
  let a := s.addrEnt (partOf f) laddr
  s.inClass 7
  { peerIp := peerIp, srcIp := a.ip, dstPort := s.udpPort, vid := if a.ven then some a.vid else none, pcp := 0, dscp := 0, ect := s.ect, part := part,
    dconn := dconn, dinc := dinc, dgen := dgen, kepoch := 0, pctr := 0, psn := 0, wep := false, msn := 0, first := false, last := false, ackreq := false,
    retx := false, cls := 7, path := path, srcPort := 0xC000 + path, tstamp := s.clk.time % 2 ^ 32, ext := ext, payload := [] }

/-- Queue such a packet; it can be sealed only for a device whose pair root is known (R417). -/
def State.replyCtl (s : State) (f q : Nat) (p : Pkt) : State :=
  match s.devOf p.peerIp with
  | none => s
  | some d => s.queueCtl q ⟨f, partOf f, none, p.path, 0, d, p⟩

/-- The address entry by which a partition is reached at a port: the lowest that is valid there. -/
def State.entryAt (s : State) (p q : Nat) : Nat :=
  ((List.range 16).find? fun i => (s.addrEnt p i).valid && (s.addrEnt p i).ports.testBit q).getD 0

/-- A packet that reaches a port: it finds room in the ingress buffer, or is discarded and counted (R179). -/
def State.takeIn (s : State) (q cls bytes : Nat) (k : State → State) : State :=
  match s.ingressTake q cls bytes with
  | (true, s) => k s
  | (false, s) => s

/-- A packet that fails authentication (R158, R425). -/
def State.authFail (s : State) : State := { s with sec := { s.sec with authFail := s.sec.authFail + 1 } }

/-! ### CONN_CONNECT (R132, R136, R137, R169) -/

def State.connectChecks (s : State) (f : Nat) (b : ConnectBody) : List Status :=
  let a := s.addrEnt (partOf f) b.laddrIdx
  let ports := if b.ports = 0 then a.ports else b.ports
  ck (b.paths = 0 ∨ 64 < b.paths ∨ 3 < b.pmtu ∨ 5 < b.cls) .range ++
  ck ((bitList 8 ports).any (fun q => s.maxFrame q < pmtuBytes b.pmtu + 158) = true) .range ++
  ck (s.pickHandle f = none) .range ++
  ck (s.family b.peerIp = false) .range ++
  ck (isPf f = true ∨ 16 ≤ b.laddrIdx ∨ a.grants ports b.ven b.vid = false ∨ ports = 0) .prot ++
  ck ((s.contribution (partOf f) b.tsel).isNone) .prot ++
  ck (s.noKeys = true) .internal

def effConnConnect (b : ConnectBody) (f id : Nat) (s : State) : State :=
  s.checked f id (s.connectChecks f b) fun s =>
    match s.pickHandle f with
    | none => s.endOp f id .range 0 0
    | some h =>
      let a := s.addrEnt (partOf f) b.laddrIdx
      s.startHandshake f h
        { op := some id, peerIp := b.peerIp, peerPort := if b.peerPort = 0 then s.udpPort else b.peerPort, service := b.service, pmtu := b.pmtu,
          cls := b.cls, ports := if b.ports = 0 then a.ports else b.ports, paths := b.paths, vid := b.vid, pcp := b.pcp, ven := b.ven,
          laddrIdx := b.laddrIdx, tsel := b.tsel, tc := (s.contribution (partOf f) b.tsel).getD none }

/-- R136: CONN_CONNECT. -/
def execConnConnect (e : Entry) (b : ConnectBody) (s : State) : Host.Outcome State Fault Refusal :=
  .next (s.startEntry e 0x100 len2 (.connConnect e b) (effConnConnect b e.fn.idx))

/-! ### Listeners (R136, R138) -/

def State.listener? (s : State) (f service laddr : Nat) : Option Listener :=
  (s.fn f).listeners.find? fun l => l.service = service ∧ l.laddrIdx = laddr

def effConnListen (service laddr nring maxConn : Nat) (f id : Nat) (s : State) : State :=
  let st := (s.ring f nring).state
  s.checked f id
    (ck (st = .free ∨ st = .draining ∨ s.qRings f ≤ nring) .range ++
     ck (isPf f = true ∨ 16 ≤ laddr ∨ (s.addrEnt (partOf f) laddr).valid = false) .prot ++
     ck ((s.listener? f service laddr).isSome) .state)
    fun s => (s.modFn f fun x => { x with listeners := x.listeners ++ [⟨service, laddr, nring, maxConn⟩] }).endOp f id .ok 0 0

def execConnListen (e : Entry) (service laddrIdx nring maxConn : Nat) (s : State) : Host.Outcome State Fault Refusal :=
  .next (s.startEntry e 0x101 len1 (.connListen e service laddrIdx nring maxConn) (effConnListen service laddrIdx nring maxConn e.fn.idx))

def effConnUnlisten (service laddr : Nat) (f id : Nat) (s : State) : State :=
  s.checked f id (ck ((s.listener? f service laddr).isNone) .state) fun s =>
    (s.modFn f fun x => { x with listeners := x.listeners.filter fun l => ¬ (l.service = service ∧ l.laddrIdx = laddr) }).endOp f id .ok 0 0

def execConnUnlisten (e : Entry) (service laddrIdx : Nat) (s : State) : Host.Outcome State Fault Refusal :=
  .next (s.startEntry e 0x102 len1 (.connUnlisten e service laddrIdx) (effConnUnlisten service laddrIdx e.fn.idx))

/-! ### CONN_CLOSE, CONN_ABORT, CONN_QUERY, CONN_MODIFY (R140, R142, R162) -/

/-- A handle that software cannot name, or a FREE one. -/
def State.unknown (s : State) (f h : Nat) : Bool := ! s.known f h

def effConnClose (h : Nat) (f id : Nat) (s : State) : State :=
  let st := (s.conn f h).state
  s.checked f id (ck (s.unknown f h = true) .range ++ ck (s.known f h = true ∧ (st = .connecting ∨ st = .slowpath)) .state) fun s =>
    if st = .lost ∨ st = .exhausted then
      -- an EXHAUSTED connection's operations have nothing left to end them
      let s := if st = .exhausted then ((s.abandonAll f h).endConnOps f h .peerLost).endRdv f h .peerLost else s
      (s.freeConn f h).endOp f id .ok 0 0
    else
      let s := s.modConn f h fun c => { c with closes := c.closes ++ [id] }
      if st = .closing then s else (s.beginClose f h).closeStep f h

def execConnClose (e : Entry) (conn : Nat) (s : State) : Host.Outcome State Fault Refusal :=
  .next (s.startEntry e 0x103 len1 (.connClose e conn) (effConnClose conn e.fn.idx)).settle

/-- R140: CONN_ABORT in any state but FREE. -/
def State.connAbort (s : State) (f h : Nat) : State :=
  let c := s.conn f h
  let s := s.sendAborts f h 3 1
  let s := (s.abandonAll f h).kvAbandon f h none
  let s := ((s.endConnOps f h .flushed).endRdv f h .flushed).endCloses f h .flushed
  let s := (s.freeConn f h).feedsClean f
  (match c.cid.op with | some id => s.endOp f id .flushed 0 0 | none => s).localFeeds f

def effConnAbort (h : Nat) (f id : Nat) (s : State) : State :=
  s.checked f id (ck (s.unknown f h = true) .range) fun s => (s.connAbort f h).endOp f id .ok 0 0

def execConnAbort (e : Entry) (conn : Nat) (s : State) : Host.Outcome State Fault Refusal :=
  .next (s.startEntry e 0x104 len1 (.connAbort e conn) (effConnAbort conn e.fn.idx)).settle

/-- R142: the record. -/
def Conn.record (c : Conn) : List Byte :=
  leBytes 1 c.state.code ++ leBytes 1 c.cid.cause ++ leBytes 1 c.cid.pmtu ++ leBytes 1 c.included.length ++ leBytes 4 c.tx.una ++
  leBytes 4 c.tx.nxt ++ leBytes 4 c.rx.base ++ leBytes 2 c.tx.kepoch ++ leBytes 2 c.cid.inc ++ leBytes 4 c.tx.pctr ++ leBytes 4 c.tx.srtt ++
  leBytes 4 c.tx.retx ++ leBytes 8 (c.included.foldl (fun n i => n + 2 ^ i) 0) ++ beBytes 16 c.cid.peerIp ++
  leBytes 4 (2 ^ 12 * c.cid.peerConn + c.cid.peerInc) ++ leBytes 4 c.rx.outside

def effConnQuery (h addr : Nat) (f id : Nat) (s : State) : State :=
  s.checked f id (ck (s.unknown f h = true) .range) fun s => s.writeRecord f id addr (s.conn f h).record 0

def execConnQuery (e : Entry) (conn addr : Nat) (s : State) : Host.Outcome State Fault Refusal :=
  .next (s.startEntry e 0x105 len1 (.connQuery e conn addr) (effConnQuery conn addr e.fn.idx))

/-- R162: a new path set keeps what is known of the paths that stay; the others start afresh. -/
def effConnModify (h ports paths : Nat) (f id : Nat) (s : State) : State :=
  let c := s.conn f h
  let a := s.addrEnt (partOf f) c.cid.laddrIdx
  s.checked f id
    (ck (s.unknown f h = true ∨ 64 < paths) .range ++
     ck (s.known f h = true ∧ (c.state = .connecting ∨ c.state = .slowpath)) .state ++
     ck (s.known f h = true ∧ (a.valid = false ∨ ports &&& (255 ^^^ a.ports) ≠ 0)) .prot)
    fun s =>
      let n := if paths = 0 then c.cid.paths else paths
      let s := s.modConn f h fun c =>
        { c with cid := { c.cid with ports := if ports = 0 then c.cid.ports else ports, paths := n },
                 tx := { c.tx with paths := (List.range n).map fun i => (i, agetD c.tx.paths i {}), rr := 0 } }
      let s := if (s.conn f h).included = [] then s.modConn f h fun c =>
          { c with tx := { c.tx with paths := amod c.tx.paths 0 {} fun p => { p with incl := true, strikes := 0 } } } else s
      s.endOp f id .ok 0 0

def execConnModify (e : Entry) (conn ports paths : Nat) (s : State) : Host.Outcome State Fault Refusal :=
  .next (s.startEntry e 0x106 len1 (.connModify e conn ports paths) (effConnModify conn ports paths e.fn.idx))

/-! ### SYN at the listener (R137, R138, R140, R174, R416) -/

/-- The contribution a SYN's CCHK matches: slots in order, then none if NOTC (R416). Answers the selector and the value. -/
def State.matchContrib (s : State) (p peerDev : Nat) (cc : BitVec 64) : Option (Nat × Option Nat) :=
  let slot := (List.range 8).findSome? fun i =>
    let x := agetD (s.part p).slots i {}
    match x.value with
    | some v => if ¬ x.spent ∧ s.cchk peerDev v = cc then some (i, some v) else none
    | none => none
  match slot with
  | some y => some y
  | none => if s.notc ∧ s.cchk peerDev 0 = cc then some (0xFF, none) else none

/-- The herd of a partition that a SYN's label names, in a state that takes connections, and the initiator's original rank (R237). -/
def State.herdLabelled (s : State) (f label rank ip : Nat) : Option Nat :=
  ((s.fn f).herds.find? fun x =>
    x.2.state ≠ .free ∧ x.2.state ≠ .broken ∧ x.2.bd.label.toNat = label ∧ (x.2.memb rank).ip = ip ∧ rank < x.2.membs.length).map (·.1)

/-- A context set up by an earlier copy of the same SYN. -/
def State.synTwin (s : State) (f : Nat) (x : Syn) : Option (Nat × Conn) :=
  (s.fn f).conns.find? fun c => c.2.state ≠ .free ∧ ¬ c.2.cid.init ∧ c.2.cid.peerIp = x.peerIp ∧ c.2.cid.peerPart = x.peerPart ∧
    c.2.cid.peerConn = x.peerConn ∧ c.2.cid.peerInc = x.peerInc ∧ c.2.cid.peerNonce = x.nonce

def State.sendSynAck (s : State) (f h : Nat) : State :=
  let c := s.conn f h
  s.sendCtl f h 0 (.synAck c.cid.nonce h c.cid.inc c.rx.grant)

/-- The listener's side is ESTABLISHED: SYN_ACK, and the accept completion or the herd's notice. -/
def State.accepted (s : State) (f h : Nat) : State :=
  let s := ((s.modConn f h fun c => { c with state := .established, tm := { c.tm with progress := s.now, receipt := s.now } }).deriveSetup f h).sendSynAck f h
  let c := s.conn f h
  if c.cid.herd.isSome then s.connUp f h
  else
    match c.cid.nring with
    | some r => s.complete f r (s.compl f .ok (BitVec.ofNat 32 c.cid.service) 0x17F 0 (connDetail h .established 0))
    | none => s

/-- Allocate a listener's context. -/
def State.accept (s : State) (f h : Nat) (x : Syn) (herd : Option (Nat × Nat)) (tsel : Nat) (tc : Option Nat) : State :=
  let a := s.addrEnt (partOf f) x.laddrIdx
  let cid : ConnId := { inc := ((s.conn f h).cid.inc + 1) % 4096, peerIp := x.peerIp, peerPort := s.udpPort, peerPart := x.peerPart, peerConn := x.peerConn,
                        peerInc := x.peerInc, peerGen := x.peerGen, peerDev := x.peerDev, service := x.service, pmtu := x.pmtu, cls := x.cls,
                        ports := a.ports, paths := x.paths, vid := a.vid, pcp := a.pcp, ven := a.ven, laddrIdx := x.laddrIdx, tsel := tsel, tc := tc,
                        nonce := s.freeVal, peerNonce := x.nonce, spbase := s.bump.pickSp x.peerIp, herd := herd,
                        nring := (s.listener? f x.service x.laddrIdx).map (·.nring), port0 := x.port.val }
  let g := max s.ginit cid.gmin
  let s := (s.bump.bump).modConn f h fun _ =>
    { state := .slowpath, cid := cid, tx := { paths := (List.range x.paths).map fun i => (i, {}) }, rx := { gwin := g }, tm := { synFirst := s.now } }
  let s := match herd with
    | some (i, o) => s.modHerd f i fun y => { y with conns := aset y.conns o h }
    | none => s
  let fast := (s.part (partOf f)).neigh.contains x.peerIp || s.ownIp x.peerIp
  if fast ∧ (s.sec.peers.any (fun p => p.dev = x.peerDev) ∨ x.peerDev = Config.devId.toNat) then (s.usePeer x.peerDev).accepted f h
  else s.askSlow x.peerIp

/-- R406: a SYN that resumes a connection of a restored instance. -/
def State.resumeSyn (s : State) (f h inc gen : Nat) (x : Syn) : State :=
  let c := s.conn f h
  if c.state = .free ∨ c.cid.inc ≠ inc ∨ (s.fn f).gen ≠ gen ∨ c.cid.peerConn ≠ x.peerConn ∨ c.cid.peerInc ≠ x.peerInc then s
  else if c.tx.kepoch = 0xFFFF then s.exhaust f h
  else
    let s := s.modConn f h fun c =>
      { c with cid := { c.cid with peerPart := x.peerPart, peerNonce := x.nonce, nonce := s.freeVal, peerDev := x.peerDev },
               tx := { c.tx with kepoch := c.tx.kepoch + 1, pctr := 0 },
               rx := { c.rx with epoch := c.rx.epoch + 1, prev := false, nextKey := 0 },
               tm := { c.tm with progress := s.now, receipt := s.now } }
    let c := s.conn f h
    let s := s.bump.epochCount.jMust (ownerOf f) (jKey 5 (partOf f) 0 .ok (2 ^ 12 * h + c.cid.inc) c.tx.kepoch (s.dirOf f h))
    s.sendSynAck f h

/-- R140: a CONN SYN arrives. -/
def State.synReceive (s : State) (x : Syn) : State :=
  let f := 4 + x.part.val
  let ps := (s.part x.part.val).state
  if ¬ x.authOk then s.authFail
  else if ¬ s.family x.peerIp ∨ ps = .frozen ∨ ps = .restoring ∨ ps = .empty ∨ ps = .resetting ∨ s.err.fatal ∨ s.noKeys then s
  else
    let s := s.learnMap x.peerIp x.peerDev
    let refuse := fun (s : State) (st : Status) (hint : Nat) =>
      s.replyCtl f x.port.val (s.replyPkt f x.laddrIdx 0 x.peerIp x.peerPart x.peerConn x.peerInc x.peerGen (.connRefuse st.code hint))
    match x.resume with
    | some (h, inc, gen) => s.resumeSyn f h inc gen x
    | none =>
      match s.synTwin f x with
      | some (h, c) => if c.state = .established then s.sendSynAck f h else s
      | none =>
        let herd := x.herdLabel.map fun l => s.herdLabelled f l x.herdRank x.peerIp
        let li := s.listener? f x.service x.laddrIdx
        let mine := ((s.fn f).conns.filter fun c => c.2.state ≠ .free ∧ ¬ c.2.cid.init ∧ c.2.cid.service = x.service ∧ c.2.cid.laddrIdx = x.laddrIdx ∧
          c.2.cid.herd.isNone).length
        match herd, li with
        | some none, _ => refuse s .range 0
        | none, none => refuse s .range 0
        | hd, li =>
          match s.matchContrib x.part.val x.peerDev x.cchk, s.pickHandle f with
          | none, _ => refuse s .range 0
          | some _, none => (refuse s .busy s.hint).bump
          | some (sel, tc), some h =>
            let cap := match li with | some l => if l.maxConn = 0 then s.qConns f else l.maxConn | none => 0
            if hd.isNone ∧ cap ≤ mine then (refuse s .busy s.hint).bump
            else s.accept f h x (match hd with | some (some i) => some (i, x.herdRank) | _ => none) sel tc

def execSynReceive (x : Syn) (s : State) : Host.Outcome State Fault Refusal :=
  .next (s.takeIn x.port.val x.wcls 182 fun s => (s.synReceive x).settle)

/-! ### Grants and the answers to a SYN (R137, R140, R174, R175, R406) -/

/-- R175: apply a grant if its GSEQ is newer. -/
def State.applyGrant (s : State) (f h : Nat) (g : Grant) (first : Bool := false) : State :=
  let c := s.conn f h
  let d := modSub (2 ^ 16) g.gseq c.tx.gseq
  if first ∨ (1 ≤ d ∧ d < 2 ^ 15) then
    (s.modConn f h fun c => { c with tx := { c.tx with gwin := g.gwin % 2 ^ 24, gseq := g.gseq % 2 ^ 16, stop := g.stop, grantAt := s.now } }).stopClock f h
  else s

/-- The context a handshake packet names: handle and incarnation of this end. -/
def State.names (s : State) (f h inc : Nat) : Bool :=
  ! s.err.fatal && s.powered && (s.conn f h).state ≠ .free && (s.conn f h).cid.inc = inc

def State.sendConnAck (s : State) (f h : Nat) : State := s.sendCtl f h 0 (.connAck (s.conn f h).rx.grant)

/-- R140, R406: SYN_ACK. -/
def State.synAckReceive (s : State) (x : SynAck) : State :=
  let f := x.fn.idx
  let h := x.handle
  if ¬ x.authOk then s.authFail
  else if ¬ s.names f h x.inc then s
  else
    let c := s.conn f h
    if c.state = .connecting then
      let s := s.modConn f h fun c =>
        { c with state := .established,
                 cid := { c.cid with peerPart := x.peerPart, peerConn := x.peerConn, peerInc := x.peerInc, peerGen := x.peerGen, peerNonce := x.nonce,
                                     op := none },
                 tm := { c.tm with progress := s.now, receipt := s.now } }
      let s := ((s.applyGrant f h x.grant true).deriveSetup f h).sendConnAck f h
      let s := match c.cid.op with
        | some id => s.endOp f id .ok 0 (h % 2 ^ 20 + 2 ^ 20 * c.cid.inc)
        | none => s
      s.connUp f h
    else if c.cid.resume then
      if c.tx.kepoch = 0xFFFF then s.exhaust f h
      else
        let s := s.modConn f h fun c =>
          { c with cid := { c.cid with resume := false, peerNonce := x.nonce },
                   tx := { c.tx with kepoch := c.tx.kepoch + 1, pctr := 0 },
                   rx := { c.rx with epoch := c.rx.epoch + 1, prev := false, nextKey := 0 },
                   tm := { c.tm with progress := s.now, receipt := s.now } }
        let c := s.conn f h
        let s := s.jMust (ownerOf f) (jKey 5 (partOf f) 0 .ok (2 ^ 12 * h + c.cid.inc) c.tx.kepoch (s.dirOf f h))
        ((s.applyGrant f h x.grant true).sendConnAck f h).connUp f h
    else if c.state = .established ∧ c.cid.peerConn = x.peerConn ∧ c.cid.init then s.sendConnAck f h
    else s

def execSynAckReceive (x : SynAck) (s : State) : Host.Outcome State Fault Refusal :=
  .next (s.takeIn x.port.val x.wcls 182 fun s => (s.synAckReceive x).settle)

/-- R137, R140: a refusal of a SYN; `kind` is its status code. A herd's SYN is sent again after 1 ms: its peer may not have formed yet
(DESIGN CHOICE, log 34). -/
def State.connRefused (s : State) (f h inc kind hint : Nat) : State :=
  let c := s.conn f h
  if ¬ s.names f h inc ∨ c.state ≠ .connecting then s
  else if c.cid.herd.isSome then s.modConn f h fun c => { c with tm := { c.tm with synAt := s.now, synWait := 1000000 } }
  else if kind = Status.busy.code then s.connFail f h .busy hint
  else s.connFail f h .range 0

/-- A CONN or ABORT packet that authenticates and names a live context (R163, R164). -/
def State.namesRx (s : State) (f : Nat) (rx : Rx) : Bool :=
  rx.authOk && s.names f rx.dconn rx.dinc && (s.fn f).gen = rx.dgen && (isPf f || (s.part (partOf f)).state ≠ .frozen)

/-- A CONN or ABORT packet: room in the buffer, authentication, the context it names (R163, R164, R179). -/
def State.setUpRx (s : State) (f : Nat) (rx : Rx) (k : State → State) : State :=
  s.sized rx 0 fun s => s.takeIn rx.port.val rx.cls 182 fun s => if ¬ rx.authOk then s.authFail else if s.namesRx f rx then k s else s

def execConnRefusalReceive (rx : Rx) (fn : Fn) (kind hint : Nat) (now : Nat) (s : State) : Host.Outcome State Fault Refusal :=
  .next ((s.tick now).setUpRx fn.idx rx fun s => (s.connRefused fn.idx rx.dconn rx.dinc kind hint).settle)

/-- R174: the handshake's final ACK carries the first grant to the listener. -/
def execConnAckReceive (rx : Rx) (fn : Fn) (grant : Grant) (s : State) : Host.Outcome State Fault Refusal :=
  let f := fn.idx
  .next (s.setUpRx f rx fun s => s.applyGrant f rx.dconn grant ((s.conn f rx.dconn).tx.grantAt = 0 ∧ (s.conn f rx.dconn).tx.gwin = 0))

/-! ### FIN, FIN_ACK, ABORT (R140, R164, R165) -/

/-- R140: FIN. -/
def State.finReceive (s : State) (f h : Nat) : State :=
  let c := s.conn f h
  let s := s.modConn f h fun c => { c with rx := { c.rx with finRcvd := true } }
  if c.state = .established ∨ c.state = .rekey then ((s.beginClose f h).connEvent f h).closeStep f h
  else if c.state = .closing then
    -- an answer may have been lost: a FIN that comes again is answered again
    (if c.tx.finAckSent then s.sendCtl f h (c.included.headD 0) .finAck else s).closeStep f h
  else s

def execFinReceive (rx : Rx) (fn : Fn) (s : State) : Host.Outcome State Fault Refusal :=
  .next (s.setUpRx fn.idx rx fun s => (s.finReceive fn.idx rx.dconn).settle)

/-- R140: FIN_ACK. It says that the peer's operations have ended. -/
def State.finAckReceive (s : State) (f h : Nat) : State :=
  let c := s.conn f h
  if c.state = .closing then
    (s.modConn f h fun c => { c with rx := { c.rx with finRcvd := true, finAckRcvd := true } }).closeStep f h
  else s

def execFinAckReceive (rx : Rx) (fn : Fn) (s : State) : Host.Outcome State Fault Refusal :=
  .next (s.setUpRx fn.idx rx fun s => (s.finAckReceive fn.idx rx.dconn).settle)

/-- R140, R165: an authenticated ABORT of the current incarnation. A reserved CAUSE counts as 2 (R134). -/
def State.abortReceive (s : State) (f h cause : Nat) : State :=
  let c := s.conn f h
  if c.state = .connecting ∨ c.state = .slowpath then s.connFail f h .peerLost 0
  else if c.state.live then s.connLost f h (if cause ≤ 5 then cause else 2)
  else s

/-- The ABORT comes from the peer's end of the connection: its own handle and incarnation are those this end knows (R131), unless it knows
none yet. -/
def Conn.fromPeer (c : Conn) (handle inc : Nat) : Bool :=
  (c.cid.init && (c.state = .connecting || c.state = .slowpath)) || (c.cid.peerConn = handle && c.cid.peerInc = inc)

def execAbortReceive (rx : Rx) (fn : Fn) (ext : AbortExt) (s : State) : Host.Outcome State Fault Refusal :=
  .next (s.setUpRx fn.idx rx fun s => if (s.conn fn.idx rx.dconn).fromPeer ext.handle ext.inc then
    (s.abortReceive fn.idx rx.dconn ext.cause).settle else s)

/-! ### Timers and the slow path (R140) -/

/-- The CONN SYN of a restored connection: it names the peer's handle and incarnation and the saved DGEN (R406). -/
def State.sendResume (s : State) (f h : Nat) (path : Nat := 0) : State :=
  let c := s.conn f h
  s.sendCtl f h path (.syn c.cid.nonce (s.cchk c.cid.peerDev (tcNat c.cid.tc)) c.cid.service h c.cid.inc none
    (some (c.cid.peerConn, c.cid.peerInc, c.cid.peerGen)))

/-- A SYN or FIN wait has passed unanswered: again on the next path, the wait doubled up to 10 ms. -/
def State.synRetry (s : State) (f h : Nat) : State :=
  let c := s.conn f h
  if s.now < c.tm.synAt + c.tm.synWait then s else
    let path := (c.tm.synPath + 1) % max 1 c.cid.paths
    let s' := s.modConn f h fun c => { c with tm := { c.tm with synAt := s.now, synWait := min 10000000 (2 * c.tm.synWait), synPath := path } }
    if c.state = .connecting then s'.sendSyn f h path
    else if c.state = .closing then
      if c.tx.finAckSent then s'.sendCtl f h path .finAck else if c.rx.finAckRcvd then s else s'.sendCtl f h path .fin
    else if c.cid.resume ∧ c.state.live then s'.sendResume f h path
    else s

def execSynRetryTimer (fn : Fn) (conn now : Nat) (s : State) : Host.Outcome State Fault Refusal := .next ((s.tick now).synRetry fn.idx conn)

/-- The firmware has found neighbour and peer key (R135). -/
def State.slowDone (s : State) (f h : Nat) : State :=
  let c := s.conn f h
  if c.cid.resume ∧ c.state.live then s.sendResume f h
  else if c.state ≠ .slowpath then s else
    let s := s.modPart (partOf f) fun p => { p with neigh := if p.neigh.contains c.cid.peerIp then p.neigh else p.neigh ++ [c.cid.peerIp] }
    if c.cid.init then
      match s.devOf c.cid.peerIp with
      | none => s
      | some d =>
        let s := (s.usePeer d).modConn f h fun c => { c with state := .connecting, cid := { c.cid with peerDev := d }, tm := { c.tm with synAt := s.now, synWait := s.rtoMin, synFirst := s.now, synPath := 0 } }
        s.sendSyn f h 0
    else s.accepted f h

def execSlowpathDone (fn : Fn) (conn : Nat) (s : State) : Host.Outcome State Fault Refusal :=
  .next (if s.firmwareUp ∧ s.fwTurn 3 then (s.slowDone fn.idx conn).settle else s)

def execSlowpathFail (fn : Fn) (conn : Nat) (s : State) : Host.Outcome State Fault Refusal :=
  .next (if (s.conn fn.idx conn).state = .slowpath ∧ s.fwTurn 3 then (s.connFail fn.idx conn .peerLost 0).settle else s)

/-- LOST_TIME has something to wait for (R152, R166, R180): an unresolved packet or an operation, unless the direction is stopped with
nothing unresolved; an inbound message short of its end with no answer; or a FIN. -/
def State.waitsProgress (s : State) (f h : Nat) : Bool :=
  let c := s.conn f h
  (! c.tx.sent.isEmpty || ! c.tx.sendq.isEmpty || ! (s.connOps f h).isEmpty) && ! s.dirStopped f h

def Conn.inboundOpen (c : Conn) : Bool := c.rx.msgs.any fun m => ! m.aband && ! m.passed

/-- R140: LOST_TIME without progress, without an answer, or without FIN_ACK. -/
def State.lostExpiry (s : State) (f h : Nat) : State :=
  let s := if (s.conn f h).state.live then s.stopClock f h else s
  let c := s.conn f h
  let past := fun (t : Nat) => decide (t + s.lostTime ≤ s.now)
  let frozen := ! isPf f && (s.part (partOf f)).state = .frozen
  if frozen then s
  else if c.state = .connecting ∨ c.state = .slowpath then
    if past c.tm.synFirst then s.connFail f h .peerLost 0 else s
  else if c.state.live ∧ ((s.waitsProgress f h ∧ past c.tm.progress) ∨ (c.inboundOpen ∧ past c.tm.receipt) ∨
      (c.state = .closing ∧ ¬ c.rx.finAckRcvd ∧ past c.tm.synFirst) ∨ (c.cid.resume ∧ past c.tm.synFirst)) then s.connLost f h 1
  else s

def execLostTimeExpiry (fn : Fn) (conn now : Nat) (s : State) : Host.Outcome State Fault Refusal :=
  .next ((s.tick now).lostExpiry fn.idx conn).settle

/-- R140, R419, R422: the new sending key is installed and journalled; injection resumes at PCTR 0. -/
def State.rekeyed (s : State) (f h : Nat) : State :=
  let c := s.conn f h
  if c.state ≠ .rekey ∧ ¬ (c.state = .closing ∧ c.noCtr ∧ c.tx.kepoch < 0xFFFF) then s else
    let s := s.modConn f h fun c => { c with state := if c.state = .rekey then .established else c.state, tx := { c.tx with kepoch := c.tx.kepoch + 1, pctr := 0 } }
    let s := s.epochCount.jMust (ownerOf f) (jKey 5 (partOf f) 0 .ok (2 ^ 12 * h + c.cid.inc) (c.tx.kepoch + 1) (s.dirOf f h))
    ((s.fn f).ops.filter fun o => match o.cmd with | .keyAdvance _ n => n % 2 ^ 20 = h && o.gen = (s.fn f).gen | _ => false).foldl
      (fun (s : State) o => s.endOp f o.id .ok 0 (c.tx.kepoch + 1)) s

/-- R43: the derivation unit makes the sending key of an epoch advance, in its turn. -/
def execRekeyKeyInstalled (fn : Fn) (conn : Nat) (s : State) : Host.Outcome State Fault Refusal :=
  let f := fn.idx
  .next (if s.noKeys ∨ s.sec.failed ∨ ! s.deriveTurn f conn false then s else ((s.deriveDone f conn false).rekeyed f conn).settle)

/-! ### Selection (R157, R181) -/

/-- R157: the last counter value of the last epoch has been sent. -/
def Conn.spent (c : Conn) : Bool := c.noCtr && decide (c.tx.kepoch = 0xFFFF)

/-- R157: connections whose key space has run out with operations outstanding go to LOST with CAUSE 5. -/
def State.spentOut (s : State) : State :=
  s.fns.foldl (fun (s : State) f => f.2.conns.foldl (fun (s : State) c =>
    if c.2.spent && (c.2.state.live || c.2.state = .exhausted) && ! (s.connOps f.1 c.1).isEmpty then s.connLost f.1 c.1 5 else s) s) s

/-- R181: PACKET_SELECT. -/
def execPacketSelect (port : Fin 8) (now : Nat) (s : State) : Host.Outcome State Fault Refusal :=
  .next (((s.refreshQueues port.val).tick now).packetSelect port.val).spentOut.settle

/-- R165: an ABORT of a reset instance is sent again, on the next of its paths. -/
def State.abortRepeat (s : State) (f h : Nat) : State :=
  match (s.fn f).aborts.find? fun a => a.handle = h ∧ a.at_ + 100000 ≤ s.now with
  | none => s
  | some a =>
    let s := s.modFn f fun x =>
      { x with aborts := x.aborts.filterMap fun y => if y = a then (if a.left.length ≤ 1 then none else some { y with left := a.left.drop 1, at_ := s.now }) else some y }
    match a.left with
    | x :: _ => s.queueCtl x.1 x.2
    | [] => s

def execAbortRepeatTimer (fn : Fn) (conn now : Nat) (s : State) : Host.Outcome State Fault Refusal := .next ((s.tick now).abortRepeat fn.idx conn)

end Sys2Proof.Machine
end

