-- ==== Sys2Proof/Machine/Receive.lean ====
section
/-!
DEFINITION. Receive.lean: arriving packets of a connection: the checks of the header, the receive window, admission, placement, the
watermark, acknowledgement, loss, paths and probes (R83-R94, R143-R161, R163, R166, R171, R174-R179, R250, R271, R345, R420).
-/

namespace Sys2Proof.Machine

/-! ### The header (R163, R171, R179, R420) -/

/-- R163: a sequenced packet, and a PROBE (R166), for no live context is answered with ABORT on the path by which it came, at most once per
100 µs for each DCONN; not for a frozen partition (R401), nor in the quiet time after a save (R407). The sender's own context is not told, so the
answer names none (log 143). -/
def State.answerAbort (s : State) (f : Nat) (rx : Rx) : State :=
  let due := match aget (s.fn f).abortAt rx.dconn with | some t => decide (t + 100000 ≤ s.now) | none => true
  let quiet := ! isPf f && decide (s.now < (s.part (partOf f)).quietTil)
  if ! due || quiet then s else
    let cause := if (s.fn f).gen ≠ rx.dgen then 4 else 2
    let p := s.nameless (s.replyPkt f (s.entryAt rx.part.val rx.port.val) rx.path rx.src 0 0 0 0 (.abort cause rx.dconn rx.dinc))
    ((s.modFn f fun x => { x with abortAt := aset x.abortAt rx.dconn s.now }).replyCtl f rx.port.val p).bump

/-- The next receiving key is asked for (R43, R420). -/
def State.wantNext (s : State) (f h : Nat) : State := (s.deriveEpoch f h true).modConn f h fun c => { c with rx := { c.rx with nextKey := 1 } }

/-- R158, R420: whether the key of a packet's epoch is held, and what its arrival does to the keys. -/
def State.epochIn (s : State) (f h kepoch pctr : Nat) (authOk : Bool) : Bool × State :=
  let r := (s.conn f h).rx
  if s.keyless f h then (false, s)
  else if kepoch = r.epoch then
    if ! authOk then (false, s.authFail)
    else if 2 ^ 31 ≤ pctr ∧ r.nextKey = 0 ∧ kepoch < 0xFFFF then (true, s.wantNext f h)
    else (true, s)
  else if kepoch = r.epoch + 1 then
    if r.nextKey = 0 then (false, s.wantNext f h)
    else if r.nextKey = 1 then (false, s)
    else if ! authOk then (false, s.authFail)
    else (true, s.modConn f h fun c => { c with rx := { c.rx with prev := true, epoch := c.rx.epoch + 1, nextKey := 0 } })
  else if kepoch + 1 = r.epoch ∧ r.prev = true then (if authOk then (true, s) else (false, s.authFail))
  else (false, { s with sec := { s.sec with oldEpoch := s.sec.oldEpoch + 1 } })

/-- What every packet that authenticates leaves behind: the time of receipt, the port it came by, its path's CE mark where marks are in use (R167),
a member's sign of life. -/
def State.heard (s : State) (f : Nat) (rx : Rx) : State :=
  let s := s.modConn f rx.dconn fun c =>
    { c with tm := { c.tm with receipt := s.now },
             rx := { c.rx with ports := c.rx.ports ||| 2 ^ rx.port.val, cemap := if rx.ce ∧ s.ect then c.rx.cemap ||| 2 ^ (rx.path % 64) else c.rx.cemap } }
  s.herdSeen f rx.dconn

/-- The checks every packet of a connection meets, in order: buffer, class, context, key, authentication. -/
def State.hear (s : State) (rx : Rx) (seq : Bool) (answer : Bool := seq) : Bool × State :=
  let f := 4 + rx.part.val
  let ps := (s.part rx.part.val).state
  let c := s.conn f rx.dconn
  match s.ingressTake rx.port.val rx.cls (rx.plen + 118) with
  | (false, s) => (false, s)
  | (true, s) =>
    if s.err.fatal ∨ s.powered = false ∨ ps = .frozen ∨ ps = .restoring then (false, s)
    else if seq = true ∧ rx.cls = 7 then (false, s.modFn f fun x => { x with cnt := { x.cnt with class7 := x.cnt.class7 + 1 } })
    else if c.state = .free ∨ c.cid.inc ≠ rx.dinc ∨ (s.fn f).gen ≠ rx.dgen then
      let s := if c.state ≠ .free ∧ (s.fn f).gen ≠ rx.dgen then s.modFn f fun x => { x with cnt := { x.cnt with stalePkts := x.cnt.stalePkts + 1 } } else s
      (false, if answer then s.answerAbort f rx else s)
    else if c.state ≠ .established ∧ c.state ≠ .rekey ∧ c.state ≠ .closing ∧ c.state ≠ .exhausted then (false, s)
    else
      match s.epochIn f rx.dconn rx.kepoch rx.pctr rx.authOk with
      | (false, s) => (false, s)
      | (true, s) => (true, s.heard f rx)

/-! ### Passing the watermark (R149, R151) -/

/-- The packets of a herd's ordered kinds act when they pass; one that the work area can no longer take stays held. -/
def State.passHerd (s : State) (f h : Nat) (ext : Ext) : State :=
  match s.herdOf f h with
  | none => s
  | some (i, _) =>
    let keep := fun (y : Bool × State) (x : BulkExt) (t : Option (Bool × Token)) =>
      if y.1 then y.2 else y.2.modHerd f i fun z => { z with held := z.held ++ [⟨h, x, t, []⟩] }
    match ext with
    | .coll x => s.collPassed f i x
    | .halt e q o c => let x := haltExt e q o c; keep (s.collHaltIn f i h x) x none
    | .barrier e q g r n => let x := barrierExt e q g r n; keep (s.collTokenIn f i h x) x none
    | .token c t => s.tokenPass f i h c t
    | _ => s

/-- The receive completion of rendezvous data that has come whole (R103, R110). -/
def State.passRdv (s : State) (f h req : Nat) : State :=
  match (s.conn f h).rx.msgs.find? fun m => m.msn = rdvKey req with
  | none => s
  | some m =>
    let s := s.modConn f h fun c => { c with rx := { c.rx with msgs := c.rx.msgs.filter fun x => x.msn ≠ m.msn } }
    match m.posted, m.ext with
    | some p, .tsend _ _ tag len _ =>
      match p.to_ with
      | .prog la co op => s.modFn f fun x => { x with progRx := x.progRx ++ [(la, co, op, len, m.data.flatMap (·.2))] }
      | .op _ _ _ => s.delivered f p h tag (min len p.len) len
    | _, _ => s

/-- The action of a message that passes: a refusal's NAK, or its ordered action. -/
def State.passMsg (s : State) (f h : Nat) (m : InMsg) : State :=
  if m.aband then s
  else if m.status ≠ .ok then s.sendNak f h m.msn m.status m.hint
  else match m.ext with
    | .coll .. | .halt .. | .barrier .. | .token .. => s.passHerd f h m.ext
    | .rdvResp q _ => s.passRdv f h q
    | _ => s.passP2p f h m

/-- The next message that RCV_BASE has moved past, in PSN order. -/
def Conn.nextPass (c : Conn) : Option InMsg :=
  (c.rx.msgs.filter fun m => ! m.passed && m.npk ≠ 0 && decide (m.first + m.npk ≤ c.rx.base)).foldl (fun (b : Option InMsg) m => match b with
    | none => some m
    | some y => if m.first < y.first then some m else some y) none

/-- Pass messages until none is left. A read keeps its entry until it has been served; an abandoned message of an earlier number is
forgotten. -/
def State.passOne (f h : Nat) (s : State) (_ : Unit) : State × Option Unit :=
  match (s.conn f h).nextPass with
  | none => (s, none)
  | some m =>
    let gone := fun (y : InMsg) => y.aband && y.npk = 0 && y.posted.isNone && (let d := modSub (2 ^ 32) m.msn y.msn; decide (1 ≤ d ∧ d < 2 ^ 31))
    let keep := fun (y : InMsg) =>
      if gone y = true then none
      else if y.msn = m.msn then
        (match m.ext with | .readReq .. => if m.held then some { y with passed := true } else none | _ => none)
      else some y
    let s := s.modConn f h fun c => { c with rx := { c.rx with msgs := c.rx.msgs.filterMap keep } }
    (s.passMsg f h m, some ())

/-- All of them, at most fuel. -/
def passGo (fuel : Nat) (s : State) (f h : Nat) : State := (loop (State.passOne f h) fuel s ()).1

/-! ### The receive window (R145, R146, R152) -/

/-- RCV_BASE after every consecutive received PSN. -/
def baseGo (fuel : Nat) (base : Nat) (got : List Nat) : Nat × List Nat :=
  match fuel with
  | 0 => (base, got)
  | fuel + 1 => if got.contains base then baseGo fuel (base + 1) (got.filter fun x => x ≠ base) else (base, got)

def ConnRx.marked (r : ConnRx) (x : Nat) : ConnRx :=
  let (b, g) := baseGo (r.got.length + 1) r.base (r.got ++ [x])
  { r with base := b, got := g, top := max r.top (x + 1) }

/-- R152: note a newly received packet, and send an ACK when one is due. -/
def State.ackNote (s : State) (f : Nat) (rx : Rx) (gap : Bool) : State :=
  let h := rx.dconn
  let s := s.modConn f h fun c => { c with rx := { c.rx with sinceAck := c.rx.sinceAck + 1, firstAt := some (c.rx.firstAt.getD s.now),
                                                             lastTs := rx.tstamp, lastPath := rx.path } }
  if s.ackPkts ≤ (s.conn f h).rx.sinceAck ∨ rx.ackreq = true ∨ rx.last = true ∨ gap = true then s.sendAck f h rx.path rx.tstamp else s

/-- R145, R149, R152: a packet is received at its extended PSN: it is marked, the messages that RCV_BASE has moved past pass, and an ACK
is sent when one is due. -/
def State.rxAccept (s : State) (f : Nat) (rx : Rx) (x : Nat) (gap : Bool) : State :=
  let h := rx.dconn
  let s := s.modConn f h fun c => { c with rx := c.rx.marked x }
  let s := passGo ((s.conn f h).rx.msgs.length + 1) s f h
  ((s.ackNote f rx gap).closeStep f h).settle

/-- A sequenced packet with n bytes of payload: `body` processes it at its extended PSN and answers whether it is received (R146). -/
def State.rxSeq (s : State) (rx : Rx) (n : Nat) (body : Nat → Nat → State → Bool × State) : State :=
  let f := 4 + rx.part.val
  let h := rx.dconn
  s.sized rx n fun s =>
  match s.hear rx true with
  | (false, s) => s
  | (true, s) =>
    let s := s.modConn f h fun c => { c with rx := { c.rx with activeAt := some s.now } }
    let r := (s.conn f h).rx
    let d := modSub (2 ^ 32) rx.psn r.base
    let u := modSub (2 ^ 32) r.base rx.psn
    if d < 2 ^ 20 then
      let x := r.base + d
      if r.got.contains x then s.sendAck f h rx.path rx.tstamp
      else
        match body f x s with
        | (false, s) => s
        | (true, s) => s.rxAccept f rx x (decide (max r.top r.base < x))
    else if 1 ≤ u ∧ u ≤ 2 ^ 20 then s.sendAck f h rx.path rx.tstamp
    else s.modConn f h fun c => { c with rx := { c.rx with outside := satAdd 0xFFFFFFFF c.rx.outside 1 } }

/-! ### Inbound messages (R86, R87) -/

def State.inMsg (s : State) (f h msn : Nat) : Option InMsg := (s.conn f h).rx.msgs.find? fun m => m.msn = msn
def State.modIn (s : State) (f h msn : Nat) (g : InMsg → InMsg) : State :=
  s.modConn f h fun c => { c with rx := { c.rx with msgs := c.rx.msgs.map fun m => if m.msn = msn then g m else m } }

/-- R86: the status a message meets at a window. A herd's connection reaches none: as if it were not open (R237; DEDUCED, log 149). -/
def State.winStatus (s : State) (f h wref roff len : Nat) (rd wr atom notify : Bool) : Status :=
  let w := s.win f (wref % 2 ^ 18)
  if w.state ≠ .open_ ∨ w.incarn ≠ wref / 2 ^ 18 ∨ (s.conn f h).cid.herd.isSome then .revoked
  else (pick (ck (w.length < roff + len ∨ (atom = true ∧ roff % 8 ≠ 0)) .range ++
    ck ((rd = true ∧ w.rd = false) ∨ (wr = true ∧ w.wr = false) ∨ (atom = true ∧ w.atom = false) ∨ (notify = true ∧ w.notify = false)) .prot ++
    ck ((match w.scope with | some c => c ≠ h | none => false) = true) .prot ++ ck (w.poisoned = true) .internal ++
    (if len = 0 then [] else s.locCheck f w.slice (w.base + roff) len))).getD .ok

/-- Admit a message by whichever of its packets comes first (R87, R106): `win` is the window of R86, whose notify ring pair and bound tally the
message keeps (R90, R91). -/
def State.admitMsg (s : State) (f h x idx npk msn : Nat) (ext : Ext) (st : Status) (win : Option Nat) : State :=
  if (s.inMsg f h msn).isSome then s else
    let held := decide (st = .ok) && win.isSome
    let w := (win.map (s.win f)).getD {}
    let m : InMsg := { msn := msn, ext := ext, first := x - idx, npk := npk, status := st, held := held, arr := (s.fn f).arrSeq, nring := w.nring, btally := w.btally }
    let s := (s.modFn f fun x => { x with arrSeq := x.arrSeq + 1 }).modConn f h fun c => { c with rx := { c.rx with msgs := c.rx.msgs ++ [m] } }
    match win with
    | none => s
    | some w =>
      if held then s.modWin f w fun y => { y with places := y.places + 1 }
      else if (s.win f w).state = .closing then s.modWin f w fun y => { y with refused := satAdd 0xFFFFFFFF y.refused 1 }
      else s

/-- Packets of a message of n bytes (R132). -/
def State.npk (s : State) (f h n : Nat) : Nat := max 1 (ceilDiv n (pmtuBytes (s.conn f h).cid.pmtu))
def State.pktIdx (s : State) (f h moff : Nat) : Nat := moff / pmtuBytes (s.conn f h).cid.pmtu

/-- A message whose packets are received without being placed: abandoned, refused, or ended (R146, R155). -/
def InMsg.dead (m : InMsg) : Bool := m.aband || m.status ≠ .ok

/-- Wait for a host page of an arriving packet: it is dropped without being marked received (R345). -/
def State.dropFor (s : State) (f h msn page : Nat) (wr : Bool) : Bool × State :=
  (false, (s.modIn f h msn fun m => { m with park := some (page, wr) }).askXlate f page wr)

/-- Place bytes that arrive for a local range, unless its page is missing. -/
def State.placeAt (s : State) (f h msn : Nat) (slice : Bool) (addr : Nat) (bs : List Byte) (k : State → State) : Bool × State :=
  match (if bs = [] then none else s.locMiss f slice addr bs.length true) with
  | some pg => s.dropFor f h msn pg true
  | none =>
    let s := if bs = [] then s else s.locWrite f slice addr bs
    (true, k (s.modIn f h msn fun m => { m with park := none, placed := m.placed + bs.length, got := m.got + 1 }))

/-! ### Requests and data (R84, R86-R94) -/

/-- A DATA packet: placed at its window address; the placement ends with the last byte (R87). -/
def State.dataBody (s : State) (f h x msn wref roff moff mlen : Nat) (notify : Bool) (imm : BitVec 32) (payload : List Byte) : Bool × State :=
  let i := wref % 2 ^ 18
  let st := s.winStatus f h wref (roff - moff) mlen false true false notify
  let s := s.admitMsg f h x (s.pktIdx f h moff) (s.npk f h mlen) msn (.data wref (roff - moff) mlen imm notify) st (some i)
  match s.inMsg f h msn with
  | none => (true, s)
  | some m =>
    if m.dead then (true, s)
    else
      let w := s.win f i
      s.placeAt f h msn w.slice (w.base + roff) payload fun s =>
        match s.inMsg f h msn with
        | some m => if m.held ∧ m.npk ≤ m.got then (s.modIn f h msn fun m => { m with held := false }).placeDone f i else s
        | none => s

def execDataReceive (rx : Rx) (fn : Fn) (wref roff moff mlen : Nat) (notify : Bool) (imm : BitVec 32) (payload : List Byte) (s : State) :
    Host.Outcome State Fault Refusal :=
  let _ := fn
  .next (s.rxSeq rx payload.length fun f x s => s.dataBody f rx.dconn x rx.msn wref roff moff mlen notify imm payload)

def execReadReqReceive (rx : Rx) (fn : Fn) (wref roff len req : Nat) (s : State) : Host.Outcome State Fault Refusal :=
  let _ := (fn, req)
  .next (s.rxSeq rx 0 fun f x s =>
    (true, s.admitMsg f rx.dconn x 0 1 rx.msn (.readReq wref roff len) (s.winStatus f rx.dconn wref roff len true false false false)
      (some (wref % 2 ^ 18))))

/-- An atomic request waits until its page is translated (R88, R345). -/
def State.atomicBody (s : State) (f h x msn op wref roff : Nat) (o1 o2 : Word) : Bool × State :=
  let s := s.admitMsg f h x 0 1 msn (.atomicReq wref roff op o1 o2) (s.winStatus f h wref roff 8 false false true false) (some (wref % 2 ^ 18))
  match s.inMsg f h msn with
  | none => (true, s)
  | some m =>
    let w := s.win f (wref % 2 ^ 18)
    match (if m.dead then none else s.locMiss f w.slice (w.base + roff) 8 true) with
    | some pg => s.dropFor f h msn pg true
    | none => (true, s.modIn f h msn fun m => { m with park := none })

def execAtomicReqReceive (rx : Rx) (fn : Fn) (op wref roff : Nat) (opnd1 opnd2 : Word) (s : State) : Host.Outcome State Fault Refusal :=
  let _ := fn
  .next (s.rxSeq rx 0 fun f x s => s.atomicBody f rx.dconn x rx.msn op wref roff opnd1 opnd2)

/-- A TSEND packet: eager data is held until the message is matched (R103, R107). -/
def State.tsendBody (s : State) (f h x msn list : Nat) (tag : Word) (mlen moff : Nat) (rdv : Bool) (payload : List Byte) : Bool × State :=
  let s := s.admitMsg f h x (if rdv then 0 else s.pktIdx f h moff) (if rdv then 1 else s.npk f h mlen) msn (.tsend list rdv tag mlen 0) .ok none
  (true, s.modIn f h msn fun m => if m.dead then m else { m with data := aset m.data moff payload, placed := m.placed + payload.length, got := m.got + 1 })

def execTsendReceive (rx : Rx) (fn : Fn) (list : Nat) (tag : Word) (mlen moff : Nat) (rdv : Bool) (payload : List Byte) (s : State) :
    Host.Outcome State Fault Refusal :=
  let _ := fn
  .next (s.rxSeq rx payload.length fun f x s => s.tsendBody f rx.dconn x rx.msn list tag mlen moff rdv payload)

def execRdvReqReceive (rx : Rx) (fn : Fn) (req moff len : Nat) (s : State) : Host.Outcome State Fault Refusal :=
  let _ := fn
  .next (s.rxSeq rx 0 fun f x s => (true, s.admitMsg f rx.dconn x 0 1 rx.msn (.rdvReq req moff len) .ok none))

/-! ### Responses (R84, R94, R103) -/

/-- The operation of this connection whose message has a number. -/
def State.opByMsn (s : State) (f h msn : Nat) : Option Op := (s.fn f).ops.find? fun o => o.conn = some h ∧ o.msn = some msn

/-- The body of a READ or atomic. -/
def respBody (i : Instr) : Option OneSided :=
  match i with
  | .read _ b => some b
  | .atFadd _ b => some b
  | .atFand _ b => some b
  | .atFor _ b => some b
  | .atFxor _ b => some b
  | .atSwap _ b => some b
  | .atCas _ b => some b
  | _ => none

/-- Data that comes in by a breakout port that is DEGRADED makes its operation end DEGRADED where it would end OK (R7; DESIGN CHOICE, log 145). -/
def State.markIn (s : State) (rx : Rx) (f id : Nat) : State :=
  if (s.bp rx.port.val rx.bp).degraded then s.modOp f id fun o => { o with degraded := true } else s

/-- Place a response at its operation's LADDR; the operation ends once all of it is there. A response to an operation that has ended is
received without being placed. -/
def State.respBody (s : State) (rx : Rx) (f h x msn req moff : Nat) (payload : List Byte) (detail : Nat) : Bool × State :=
  match s.opByMsn f h req with
  | none => (true, s)
  | some o =>
    let s := s.markIn rx f o.id
    match Machine.respBody o.cmd with
    | none => (true, s)
    | some b =>
      let s := s.admitMsg f h x (s.pktIdx f h moff) (s.npk f h b.len) msn (.readResp req 0) .ok none
      match s.inMsg f h msn with
      | none => (true, s)
      | some m =>
        if m.dead then (true, s)
        else
          match s.placeAt f h msn b.lspace (b.laddr + moff) payload (fun s => s.modOp f o.id fun o => { o with placed := o.placed + payload.length, effect := true, park := none }) with
          | (false, s) => (false, match s.inMsg f h msn with
            | some m => s.modOp f o.id fun o => { o with park := m.park }
            | none => s)
          | (true, s) =>
            match s.op? f o.id with
            | some o => (true, if b.len ≤ o.placed then s.endOp f o.id .ok b.len detail else s)
            | none => (true, s)

def execReadRespReceive (rx : Rx) (fn : Fn) (req moff : Nat) (payload : List Byte) (s : State) : Host.Outcome State Fault Refusal :=
  let _ := fn
  .next (s.rxSeq rx payload.length fun f x s => s.respBody rx f rx.dconn x rx.msn req moff payload 0)

/-- R94: the old value goes to LADDR; DETAIL carries its bits 31:0. -/
def execAtomicRespReceive (rx : Rx) (fn : Fn) (req : Nat) (old : Word) (s : State) : Host.Outcome State Fault Refusal :=
  let _ := fn
  .next (s.rxSeq rx 8 fun f x s => s.respBody rx f rx.dconn x rx.msn req 0 (leBytes 8 old.toNat) (old.toNat % 2 ^ 32))

/-- Rendezvous data goes to the matched buffer (R148). -/
def State.rdvBody (s : State) (rx : Rx) (f h x msn req moff : Nat) (payload : List Byte) : Bool × State :=
  match s.inMsg f h (rdvKey req) with
  | none => (true, s)
  | some y =>
    match y.posted, y.ext with
    | some p, .tsend _ _ _ len _ =>
      let n := min len p.len
      let s := s.admitMsg f h x (s.pktIdx f h moff) (s.npk f h n) msn (.rdvResp req 0) .ok none
      match s.inMsg f h msn with
      | none => (true, s)
      | some m =>
        if m.dead then (true, s)
        else match p.to_ with
          | .prog _ _ _ => (true, s.modIn f h (rdvKey req) fun z => { z with data := aset z.data moff payload })
          | .op id info _ =>
            let s := s.markIn rx f id
            match (if info = 0 then none else s.missing f info 16 true) with
            | some pg => s.dropFor f h msn pg true
            | none => s.placeAt f h msn p.slice (p.laddr + moff) payload fun s => s
    | _, _ => (true, s)

def execRdvRespReceive (rx : Rx) (fn : Fn) (req moff : Nat) (payload : List Byte) (s : State) : Host.Outcome State Fault Refusal :=
  let _ := fn
  .next (s.rxSeq rx payload.length fun f x s => s.rdvBody rx f rx.dconn x rx.msn req moff payload)

/-! ### Refusals and abandon notices (R151, R155) -/

/-- End the receive that waits for rendezvous data. -/
def State.rdvFail (s : State) (f h req : Nat) (st : Status) (detail : Nat := 0) : State :=
  match s.inMsg f h (rdvKey req) with
  | none => s
  | some y =>
    let s := s.modConn f h fun c => { c with rx := { c.rx with msgs := c.rx.msgs.filter fun m => m.msn ≠ y.msn } }
    match y.posted with
    | some p =>
      match p.to_ with
      | .op id _ _ => (s.modFn f fun x => { x with armed := x.armed.filter fun a => a.op ≠ id }).endOp f id st 0 detail
      | .prog la co op => s.progStatus f la co op st detail
    | none => s

/-- The message of this end that a number names was refused, or its answer failed. -/
def State.msgFails (s : State) (f h msn : Nat) (st : Status) (detail : Nat) : State :=
  match s.opByMsn f h msn with
  | some o => s.endOp f o.id st o.placed detail
  | none =>
    match (s.fn f).feeds.find? fun y => y.2.body.conn = h ∧ y.2.open_.any (fun z => z.1 = msn) with
    | some y => s.feedBlock f h y.1 msn st
    | none =>
      match s.progSend? f h msn with
      | some (l, c, a) => s.progStatus f l c a.id st detail
      | none => s.rdvFail f h msn st

def execNakReceive (rx : Rx) (fn : Fn) (msn : Nat) (status : Status) (detail : Nat) (s : State) : Host.Outcome State Fault Refusal :=
  let _ := fn
  .next (s.rxSeq rx 0 fun f _ s => (true, s.msgFails f rx.dconn msn status detail))

/-- R155: an abandon notice. MSN names the message, or the request that the message answers (R131). -/
def State.noticeBody (s : State) (f h own msn : Nat) (st : Status) : State :=
  let ans := match s.inMsg f h own with
    | some m => (match m.ext with | .readResp .. | .rdvResp .. => true | _ => false)
    | none => own ≠ msn
  let s := match s.inMsg f h own with
    | some m => if m.aband then s else ((s.abandonIn f h m).kvAbandon f h (some own)).localFeeds f
    | none => s.modConn f h fun c => { c with rx := { c.rx with msgs := c.rx.msgs ++ [{ msn := own, ext := .nak own st true 0, first := 0, npk := 0, aband := true }] } }
  if ans then s.msgFails f h msn st 0 else s

def execAbandonNoticeReceive (rx : Rx) (fn : Fn) (msn : Nat) (status : Status) (s : State) : Host.Outcome State Fault Refusal :=
  let _ := fn
  .next (s.rxSeq rx 0 fun f _ s => (true, s.noticeBody f rx.dconn rx.msn msn status))

/-! ### Herd and KV packets (R250, R271, R449) -/

/-- A packet of a herd's connection; one whose herd is gone is received and nothing more. -/
def State.herdBody (s : State) (f h x msn idx npk : Nat) (ext : Ext) (land : Nat → State → Bool × State) : Bool × State :=
  match s.herdOf f h with
  | none => (true, s)
  | some (i, _) =>
    match land i s with
    | (false, s) => (false, s)
    | (true, s) => (true, s.admitMsg f h x idx npk msn ext .ok none)


/-- Room in the work area for a packet that would be held (R243). -/
def State.holdRoom (s : State) (f i mepoch cseq : Nat) : Bool :=
  let h := s.herd f i
  match h.lands mepoch cseq with
  | .hold => decide (h.heldBytes + 64 ≤ 1024 * h.bd.slen)
  | _ => true

/-- R250: a packet of a reserved KIND is discarded and counted; TOKEN and HALT are what their own commands tell. -/
def execBulkCollReceive (rx : Rx) (fn : Fn) (x : BulkExt) (npk pidx : Nat) (payload : List Byte) (s : State) : Host.Outcome State Fault Refusal :=
  let _ := fn
  let room := fun (i : Nat) (s : State) => (s.holdRoom (4 + rx.part.val) i x.mepoch x.cseq, s)
  .next (s.rxSeq rx payload.length fun f p s =>
    if 6 ≤ x.kind then (false, s.dropFrame rx.port.val rx.bp)
    else if x.kind = 5 then s.herdBody f rx.dconn p rx.msn 0 1 (.halt x.mepoch x.cseq x.srank x.step) room
    else if x.kind = 4 then s.herdBody f rx.dconn p rx.msn 0 1 (.barrier x.mepoch x.cseq x.sig x.srank x.step) room
    else s.herdBody f rx.dconn p rx.msn pidx npk (.coll x) fun i s => s.collData f i rx.dconn x payload)

def execHaltReceive (rx : Rx) (fn : Fn) (mepoch cseq origin cause : Nat) (s : State) : Host.Outcome State Fault Refusal :=
  let _ := fn
  .next (s.rxSeq rx 0 fun f p s => s.herdBody f rx.dconn p rx.msn 0 1 (.halt mepoch cseq origin cause) fun i s => (s.holdRoom f i mepoch cseq, s))

def execBarrierTokenReceive (rx : Rx) (fn : Fn) (mepoch cseq sig srank step : Nat) (s : State) : Host.Outcome State Fault Refusal :=
  let _ := fn
  .next (s.rxSeq rx 0 fun f p s => s.herdBody f rx.dconn p rx.msn 0 1 (.barrier mepoch cseq sig srank step) fun i s => (s.holdRoom f i mepoch cseq, s))

def execTokenProposeReceive (rx : Rx) (fn : Fn) (t : Token) (s : State) : Host.Outcome State Fault Refusal :=
  let _ := fn
  .next (s.rxSeq rx rx.plen fun f p s => s.herdBody f rx.dconn p rx.msn 0 1 (.token false t) fun i s => (s.tokenRoom f i t, s))

def execTokenCommitReceive (rx : Rx) (fn : Fn) (t : Token) (s : State) : Host.Outcome State Fault Refusal :=
  let _ := fn
  .next (s.rxSeq rx rx.plen fun f p s => s.herdBody f rx.dconn p rx.msn 0 1 (.token true t) fun i s => (s.tokenRoom f i t, s))

/-- R271: the first packet of a block decides its admission; with no slot free it is not received. -/
def State.kvBody (s : State) (f h x msn : Nat) (k : KvExt) (npk pidx : Nat) (payload : List Byte) : Bool × State :=
  match s.inMsg f h msn with
  | some m => (true, if m.dead then s else s.kvPlace f (some h) msn k payload)
  | none =>
    match s.kvAdmit f (some h) msn k with
    | (.full, s) => (false, s)
    | (.refused st, s) => (true, s.admitMsg f h x pidx npk msn (.kv k) st none)
    | (.admitted, s) => (true, (s.admitMsg f h x pidx npk msn (.kv k) .ok none).kvPlace f (some h) msn k payload)

/-- R269: a packet with a reserved field that is not zero is discarded and counted. -/
def execBulkKvReceive (rx : Rx) (fn : Fn) (x : KvExt) (npk pidx : Nat) (payload : List Byte) (s : State) : Host.Outcome State Fault Refusal :=
  let _ := fn
  .next (s.rxSeq rx payload.length fun f p s =>
    if x.rsv then (false, s.dropFrame rx.port.val rx.bp) else s.kvBody f rx.dconn p rx.msn x npk pidx payload)

/-! ### Acknowledgement at the sender (R152-R154) -/

/-- Whether an ACK covers an extended PSN: below CUM, or in a SACK range. -/
def ackCovers (una cumX : Nat) (sacks : List (Nat × Nat)) (x : Nat) : Bool :=
  decide (x < cumX) || sacks.any fun r => let a := una + modSub (2 ^ 32) r.1 una; decide (a ≤ x ∧ x < a + r.2)

/-- R153: two packets sent later on the same path have been acknowledged. -/
def lostBy (newly : List Sent) (x : Sent) : Sent :=
  if x.acked ∨ x.lost ∨ ¬ x.out then x else
    let n := (newly.filter fun y => y.path = x.path ∧ x.idx < y.idx).length
    if 2 ≤ x.later + n then { x with later := x.later + n, lost := true, out := false } else { x with later := x.later + n }

/-- SRTT ← SRTT + (sample − SRTT) ÷ 8 (R153). -/
def srttStep (srtt sample : Nat) : Nat := ((srtt : Int) + ((sample : Int) - srtt) / 8).toNat

/-- An ECHO_TS was stamped before the last step of device time (R515). -/
def State.staleEcho (s : State) (echo : Nat) : Bool :=
  match s.clk.stepAt with
  | some t => decide (s.now < t + modSub (2 ^ 32) s.clk.time echo)
  | none => false

/-- What the end of a message of this end means: its last packet acknowledged, or passed by CUM. -/
def State.ackedMsg (s : State) (f h : Nat) (x : Sent) (whole : Bool) : State :=
  match x.for_ with
  | .op id =>
    match s.op? f id with
    | some o =>
      match o.cmd, whole with
      | .write _ b, true => s.endOp f id .ok b.len 0
      | .writeNotify _ b _, true => s.endOp f id .ok b.len 0
      | .tsend _ b, true => if b.len ≤ 8192 then s.endOp f id .ok b.len 0 else s
      | _, _ => s
    | none => s
  | .prog l c o => if whole then (match x.ext with | .tsend _ true .. => s | _ => s.progStatus f l c o .ok 0) else s
  | .feed id => if whole then s.feedBlock f h id x.msn .ok else s
  | .serve w q => if whole then s else s.serveDone f h w q
  | .rdv t _ =>
    if whole then s else
      match s.opByMsn f h t with
      | some o => s.endOp f o.id .ok o.need 0
      | none => match s.progSend? f h t with
        | some (l, c, a) => s.progStatus f l c a.id .ok 0
        | none => s
  | .coll i id =>
    if whole then s else
      match x.ext, s.herdOf f h with
      | .coll y, some (_, o) => match (s.herd f i).rankOf o with
        | some r => s.collAcked f i id y r
        | none => s
      | _, _ => s
  | .nak => s

/-- R152-R154, R160, R161, R175, R180: an ACK. `refused` are the messages of this end that the peer has refused and whose NAK is still to come: no
field of the ACK tells it, and the refused message does not end OK (log 25). -/
def State.ackIn (s : State) (f h : Nat) (x : AckExt) (refused : List Nat) : State :=
  let c := s.conn f h
  let t := c.tx
  let cumX := t.una + modSub (2 ^ 32) x.cum t.una
  let cumX := if cumX ≤ t.nxt then cumX else t.una
  let newly := t.sent.filter fun y => ! y.acked && ackCovers t.una cumX x.sacks y.xpsn
  let sent := (t.sent.map fun y => if newly.any (fun z => z.xpsn = y.xpsn) then { y with acked := true, out := false, lost := false } else y).map
    (lostBy newly)
  let lost := sent.filter fun y => y.lost && t.sent.any fun z => z.xpsn = y.xpsn && ! z.lost
  let probe := fun (i : Nat) (p : Path) =>
    if i = x.echoPath ∧ p.probeTs = some x.echoTs ∧ p.incl = false then
      (if 3 ≤ p.good + 1 then { p with incl := true, strikes := 0, good := 0, probeTs := none, downed := false } else { p with good := p.good + 1, probeTs := none })
    else p
  let paths := t.paths.map fun p => (p.1, probe p.1 { p.2 with
    acked := p.2.acked + (newly.filter fun y => y.path = p.1).length, lost := p.2.lost + (lost.filter fun y => y.path = p.1).length,
    acks := p.2.acks + 1, ces := p.2.ces + bit (x.cemap.getLsbD p.1) })
  let passed := sent.filter fun y => decide (y.xpsn < cumX)
  let s := s.modConn f h fun c =>
    { c with tx := { c.tx with una := max t.una cumX, sent := sent.filter (fun y => ! decide (y.xpsn < cumX)), paths := paths,
                               srtt := if s.staleEcho x.echoTs then t.srtt else srttStep t.srtt (modSub (2 ^ 32) s.clk.time x.echoTs) },
             tm := if newly = [] then c.tm else { c.tm with progress := s.now } }
  let s := (s.applyGrant f h x.grant).stopClock f h
  -- messages all of whose packets are acknowledged, then those CUM has passed
  let more := fun (m : Nat) => sent.any (fun y => y.msn = m ∧ ¬ y.acked) || t.sendq.any fun y => y.msn = m
  let ended := newly.foldl (fun (l : List Sent) y => if l.any (fun z => z.msn = y.msn) || more y.msn then l else l ++ [y]) []
  let s := ended.foldl (fun s y => s.ackedMsg f h y false) s
  let s := (passed.filter fun y => y.last && ! refused.contains y.msn).foldl (fun s y => s.ackedMsg f h y true) s
  s.closeStep f h

def execAckReceive (rx : Rx) (fn : Fn) (x : AckRx) (s : State) : Host.Outcome State Fault Refusal :=
  let _ := fn
  .next (s.sized rx 0 fun s => match s.hear rx false with
    | (false, s) => s
    | (true, s) => (s.ackIn (4 + rx.part.val) rx.dconn x.ack x.refused).settle)

/-- R152: ACK_DELAY has passed since the first unacknowledged packet. Which packet has triggered such an ACK the rule does not say: its path and
TSTAMP are those of the packet received last (DESIGN CHOICE, log 150). -/
def execAckDelayTimer (fn : Fn) (conn now : Nat) (s : State) : Host.Outcome State Fault Refusal :=
  let s := s.tick now
  let f := fn.idx
  let r := (s.conn f conn).rx
  .next (match r.firstAt with
    | some t => if t + s.ackDelay ≤ s.now ∧ ((s.conn f conn).state.live ∨ (s.conn f conn).state = .exhausted) then s.sendAck f conn r.lastPath r.lastTs else s
    | none => s)

/-- R153: a packet's timer expires: it is deemed lost, and its timer doubles up to 10 ms. -/
def State.retxExpiry (s : State) (f h psn : Nat) : State :=
  match (s.conn f h).tx.sent.find? fun x => x.xpsn % 2 ^ 32 = psn % 2 ^ 32 with
  | none => s
  | some x =>
    if ¬ x.out ∨ x.acked ∨ x.lost ∨ s.now < x.at_ + x.rto then s else
      (s.modConn f h fun c =>
        { c with tx := { c.tx with sent := c.tx.sent.map fun y => if y.xpsn = x.xpsn then { y with lost := true, out := false, rto := min 10000000 (2 * y.rto) } else y,
                                   paths := amod c.tx.paths x.path {} fun p => { p with lost := p.lost + 1 } } }).stopClock f h

def execRetxTimerExpiry (fn : Fn) (conn psn now : Nat) (s : State) : Host.Outcome State Fault Refusal :=
  .next ((s.tick now).retxExpiry fn.idx conn psn)

/-! ### Paths (R160, R161) -/

/-- R160: the strike of a path in the interval that ends. -/
def Path.struck (p : Path) : Bool :=
  (0 < p.lost && decide (p.carried ≤ 8 * p.lost)) || (0 < p.carried && p.acked = 0) || decide (p.acks < 2 * p.ces)

/-- The included path that stays when all would go: the one with the fewest strikes, lowest first. -/
def fewest (l : List (Nat × Path)) : Option Nat :=
  (l.foldl (fun (b : Option (Nat × Path)) x => match b with
    | none => some x
    | some y => if x.2.strikes < y.2.strikes then some x else some y) none).map (·.1)

/-- A connection's paths by a port are excluded, but for the last one included, and what they carry is lost (R160, R445). -/
def Conn.losePaths (c : Conn) (l : List Nat) (now : Nat) : Conn :=
  let inc := c.tx.paths.filter fun p => p.2.incl
  let out := inc.filter fun p => l.contains p.1
  let spare := if out.length = inc.length then fewest inc else none
  let ps := c.tx.paths.map fun (p : Nat × Path) => if out.any (fun y => y.1 = p.1) && spare ≠ some p.1 then
      (p.1, { p.2 with incl := false, downed := true, probeAt := now, good := 0, probeTs := none }) else p
  let lose := fun (x : Sent) => if l.contains x.path && ! x.acked && ! x.lost then { x with lost := true, out := false } else x
  { c with tx := { c.tx with paths := ps, sent := c.tx.sent.map lose } }

/-- R160: an interval of one SRTT has ended. A loss or an acknowledgement counts in the interval in which it is deemed or arrives, whichever interval
carried the packet (DESIGN CHOICE, log 151). -/
def State.strikeEval (s : State) (f h : Nat) : State :=
  let c := s.conn f h
  if s.now < c.tx.intervalAt + c.tx.srtt ∨ c.state.live = false then s else
    let ps := c.tx.paths.map fun p =>
      (p.1, { p.2 with strikes := if p.2.incl then (if p.2.struck then p.2.strikes + 1 else 0) else p.2.strikes,
                       carried := 0, lost := 0, acked := 0, acks := 0, ces := 0 })
    let inc := ps.filter fun p => p.2.incl
    let out := inc.filter fun p => decide (3 ≤ p.2.strikes)
    let spare := if out.length = inc.length then fewest inc else none
    let ps := ps.map fun p => if out.any (fun y => y.1 = p.1) ∧ spare ≠ some p.1 then
        (p.1, { p.2 with incl := false, probeAt := s.now, good := 0, probeTs := none }) else p
    s.modConn f h fun c => { c with tx := { c.tx with paths := ps, intervalAt := s.now } }

def execPathStrikeEval (fn : Fn) (conn now : Nat) (s : State) : Host.Outcome State Fault Refusal :=
  .next ((s.tick now).strikeEval fn.idx conn)

/-- R161: an excluded path is probed every 16 × SRTT, and at least every 100 µs; a probe that has had no answer by then breaks the run of answers.
The TSTAMP that the answer echoes is taken as the probe is sent. -/
def State.pathProbe (s : State) (f h i : Nat) : State :=
  let c := s.conn f h
  let p := c.path i
  if p.incl ∨ c.cid.paths ≤ i ∨ c.state.live = false ∨ s.now < p.probeAt + min 100000 (16 * c.tx.srtt) then s else
    let s := s.modConn f h fun c => { c with tx := { c.tx with paths := amod c.tx.paths i {} fun p =>
      { p with probeAt := s.now, probeTs := none, good := if p.probeTs.isSome then 0 else p.good } } }
    s.sendCtl f h i .probe true

def execPathProbeTimer (fn : Fn) (conn path now : Nat) (s : State) : Host.Outcome State Fault Refusal :=
  .next ((s.tick now).pathProbe fn.idx conn path)

def execProbeReceive (rx : Rx) (fn : Fn) (s : State) : Host.Outcome State Fault Refusal :=
  let _ := fn
  .next (s.sized rx 0 fun s => match s.hear rx false true with
    | (false, s) => s
    | (true, s) => if rx.ackreq then s.sendAck (4 + rx.part.val) rx.dconn rx.path rx.tstamp else s)

/-- R166: an unfinished inbound message and 1 ms of silence. -/
def execSilenceProbeTimer (fn : Fn) (conn now : Nat) (s : State) : Host.Outcome State Fault Refusal :=
  let s := s.tick now
  let f := fn.idx
  let c := s.conn f conn
  .next (if c.state.live ∧ c.inboundOpen = true ∧ c.tm.receipt + 1000000 ≤ s.now ∧ c.tm.probeAt + 1000000 ≤ s.now then
      (s.modConn f conn fun c => { c with tm := { c.tm with probeAt := s.now } }).sendCtl f conn c.turnPath .probe true
    else s)

/-! ### Grants at the sender, requests at the receiver (R175, R176) -/

def execCreditGrantReceive (rx : Rx) (fn : Fn) (grant : Grant) (s : State) : Host.Outcome State Fault Refusal :=
  let _ := fn
  .next (s.sized rx 0 fun s => match s.hear rx false with
    | (false, s) => s
    | (true, s) => (s.applyGrant (4 + rx.part.val) rx.dconn grant).stopClock (4 + rx.part.val) rx.dconn)

def execCreditReqReceive (rx : Rx) (fn : Fn) (s : State) : Host.Outcome State Fault Refusal :=
  let _ := fn
  .next (s.sized rx 0 fun s => match s.hear rx false with
    | (false, s) => s
    | (true, s) =>
      let f := 4 + rx.part.val
      (s.modConn f rx.dconn fun c => { c with rx := { c.rx with activeAt := some s.now } }).sendCredit f rx.dconn)

end Sys2Proof.Machine
end

