-- ==== Sys2Proof/Machine/Memory.lean ====
section
/-!
DEFINITION. Memory.lean: the memory commands, page requests, refused granules and ATS invalidation (R335-R354). Translation
Completions are in Translate.lean.
-/

namespace Sys2Proof.Machine

/-! ### Memory commands (R350-R353) -/

/-- The first page of a prefetched range still without its permission and not given up. -/
def State.prefetchMiss (s : State) (f addr len : Nat) (wr : Bool) (given : List Nat) : Option Nat :=
  if (s.fn f).ats.enable then
    (hostPages addr len).find? fun p => ! given.contains p &&
      ! s.mem.atc.any fun e => e.serves f (s.fn f).gen p false && (! wr || e.serves f (s.fn f).gen p true)
  else none

/-- R351: each page is translated in turn, for write once it can be read; one that is denied for good is counted and passed over. -/
def effAtcPrefetch (addr len : Nat) (wr : Bool) (f id : Nat) (s : State) : State :=
  s.checked f id (ck (addr % 4096 ≠ 0 ∨ len % 4096 ≠ 0 ∨ len = 0 ∨ 2 ^ 30 < len) .range) fun s =>
    let given := match s.op? f id with | some o => o.aux | none => []
    match s.prefetchMiss f addr len wr given with
    | some pg => s.parkOp f id pg (wr && s.mem.atc.any fun e => e.serves f (s.fn f).gen pg false)
    | none => s.endOp f id .ok len given.length

def execAtcPrefetch (e : Entry) (addr len : Nat) (wr faultOk : Bool) (s : State) : Host.Outcome State Fault Refusal :=
  .next (s.startEntry e 0x380 len1 (.atcPrefetch e addr len wr faultOk) (effAtcPrefetch addr len wr e.fn.idx))

/-- Page table entries of slice pages from an offset on, not yet under a selector. -/
def State.rekeyPages (s : State) (f first count ksel : Nat) : List Nat :=
  ((List.range count).map fun i => (s.part (partOf f)).cur.sbase + first / 2 ^ 21 + i).filter fun j => (s.pageEnt j).ksel ≠ ksel

/-- R352: the next page of a SLICE_REKEY is marked, and its record comes to the front; one already under KSEL is skipped; one that another
command has marked waits for that (DEDUCED, log 135). After the last page the command ends. -/
def State.rekeyNext (f op : Nat) (s : State) (_ : Unit) : State × Option Unit :=
  match s.mem.rekeys.find? fun r => r.fn = f ∧ r.op = op with
  | none => (match s.op? f op with | some o => s.endOp f op .ok o.need 0 | none => s, none)
  | some r =>
    if (s.pageEnt r.page).rk then (s, none)
    else if (s.pageEnt r.page).ksel = r.ksel then ({ s with mem := { s.mem with rekeys := s.mem.rekeys.erase r } }, some ())
    else ({ s with mem := { s.mem with pages := amod s.mem.pages r.page {} fun p => { p with rk := true },
                                       rekeys := r :: s.mem.rekeys.erase r } }, none)

def State.rekeyStart (s : State) (f op : Nat) : State := (loop (State.rekeyNext f op) (s.mem.rekeys.length + 1) s ()).1

/-- R352: the pages not yet under KSEL are re-encrypted in turn; each finishes by SLICE_REKEY_PAGE. -/
def effSliceRekey (first count ksel : Nat) (f id : Nat) (s : State) : State :=
  s.checked f id
    (ck (first % 2 ^ 21 ≠ 0 ∨ count = 0 ∨ s.sliceLen f < first + 2 ^ 21 * count) .range ++
     ck (isPf f = true ∨ ksel / 4 ≠ partOf f ∨ s.keyLive ksel = false) .prot ++
     ck ((s.rekeyPages f first count ksel).any (fun j => (s.pageEnt j).rk) = true) .state)
    fun s =>
      let l := s.rekeyPages f first count ksel
      if l = [] then s.endOp f id .ok 0 0
      else ({ s with mem := { s.mem with rekeys := s.mem.rekeys ++ l.map fun j => ⟨j, ksel, f, id⟩ } } : State).rekeyStart f id

def execSliceRekey (e : Entry) (first count ksel : Nat) (s : State) : Host.Outcome State Fault Refusal :=
  .next (s.startEntry e 0x381 len1 (.sliceRekey e first count ksel) (effSliceRekey first count ksel e.fn.idx))

/-- R352: the page under way has its last line under the new key: its entry takes KSEL, and the command goes on to its next page. The
record waits for journal space (R440), and the page with it. -/
def State.rekeyPage (s : State) (page : Nat) : State :=
  match s.mem.rekeys.find? fun r => r.page = page with
  | none => s
  | some r =>
    if s.jrnl.full ∨ (s.pageEnt page).rk = false then s else
      let s := { s with mem := { s.mem with rekeys := s.mem.rekeys.erase r,
                                            pages := amod s.mem.pages page {} fun p => { p with ksel := r.ksel, rk := false } } }
      let s := (s.jCommit (ownerOf r.fn) (jKey 9 (partOf r.fn) r.ksel .ok)).modOp r.fn r.op fun o => { o with need := o.need + 2 ^ 21 }
      let wait := s.mem.rekeys.filter fun x => x.page = page
      wait.foldl (fun s x => s.rekeyStart x.fn x.op) (s.rekeyStart r.fn r.op)

def execSliceRekeyPage (page : Nat) (s : State) : Host.Outcome State Fault Refusal := .next (s.rekeyPage page)

/-- R353: the record of SLICE_INFO. -/
def State.sliceRecord (s : State) (f : Nat) : List Byte :=
  let p := (s.part (partOf f)).cur
  let live := (List.range 4).foldl (fun n i => n + bit (s.keyLive (4 * partOf f + i)) * 2 ^ i) 0
  leBytes 4 p.spages ++ leBytes 4 (2 ^ 21) ++ leBytes 1 live ++ leBytes 55 0 ++ (List.range p.spages).map fun i =>
    let e := s.pageEnt (p.sbase + i)
    BitVec.ofNat 8 (e.ksel + bit e.host * 64 + 128 * bit e.rk)

def effSliceInfo (addr : Nat) (f id : Nat) (s : State) : State :=
  if isPf f then s.writeRecord f id addr (leBytes 4 0 ++ leBytes 4 (2 ^ 21) ++ leBytes 56 0) 0
  else s.writeRecord f id addr (s.sliceRecord f) 0

def execSliceInfo (e : Entry) (addr : Nat) (s : State) : Host.Outcome State Fault Refusal :=
  .next (s.startEntry e 0x382 len1 (.sliceInfo e addr) (effSliceInfo addr e.fn.idx))

/-! ### Page requests (R340) -/

def State.modAts (s : State) (f : Nat) (g : Ats → Ats) : State := s.modFn f fun x => { x with ats := g x.ats }

/-- Requests of a function's groups that are outstanding. -/
def Ats.outstanding (a : Ats) : Nat := a.groups.foldl (fun n g => n + g.reqs.length) 0

/-- Send closed batches, oldest first, as far as the host's allocation and the 512 indices allow. -/
def State.sendOne (f : Nat) (s : State) (_ : Unit) : State × Option Unit :=
  let a := (s.fn f).ats
  match a.closed with
  | [] => (s, none)
  | (v, b) :: t =>
    let i := firstGap (ascending (a.groups.map (·.index))) 0
    if a.alloc < a.outstanding + b.length ∨ 512 ≤ i then (s, none) else
      let s := s.modAts f fun a => { a with closed := t, groups := a.groups ++ [⟨i, (s.fn f).gen, b, s.now, priTmo v⟩] }
      let s := { s with mem := { s.mem with batches := satAdd 0xFFFF s.mem.batches 1 } }
      (s.emit (.pageGroup f i b), some ())

/-- All of them that may go. -/
def sendGo (fuel : Nat) (s : State) (f : Nat) : State := (loop (State.sendOne f) fuel s ()).1

/-- The open batch closes. -/
def State.closeBatch (s : State) (f : Nat) : State :=
  let s := s.modAts f fun a => if a.batch = [] then a else { a with closed := a.closed ++ [(a.batchCfg, a.batch)], batch := [] }
  sendGo ((s.fn f).ats.closed.length) s f

/-- A page request joins one already made under the present generation, or the open batch. -/
def State.askPage (s : State) (f page : Nat) (wr : Bool) : State :=
  let a := (s.fn f).ats
  let made := a.batch.contains (page, wr) || a.closed.any (fun b => b.2.contains (page, wr)) || a.groups.any fun g => g.gen = (s.fn f).gen && g.reqs.contains (page, wr)
  if made then s else
    let s := s.modAts f fun a => { a with batchAt := if a.batch = [] then s.now else a.batchAt, batchCfg := s.priCfg f, batch := a.batch ++ [(page, wr)] }
    if priBatch (s.fn f).ats.batchCfg ≤ (s.fn f).ats.batch.length then s.closeBatch f else s

/-- R340: WAIT has passed since the batch opened; closed batches go out as the allocation allows. -/
def State.batchSend (s : State) (f : Nat) : State :=
  let a := (s.fn f).ats
  if a.batch ≠ [] ∧ a.batchAt + priWait a.batchCfg ≤ s.now then s.closeBatch f else sendGo a.closed.length s f

def execPageRequestBatchSend (fn : Fn) (now : Nat) (s : State) : Host.Outcome State Fault Refusal := .next ((s.tick now).batchSend fn.idx)

/-! ### Refused granules (R344, R345, R348) -/

/-- Page requests can be made for a function (R338, R341). -/
def State.canAsk (s : State) (f : Nat) : Bool := (s.fn f).ats.pri && ! (s.fn f).ats.stopped

/-- Status of a refused granule: PROT without a side effect, else POISON. -/
def refusedSt (effect : Bool) : Status := if effect then .poison else .prot

/-! ### Records of partition commands (R391) -/

/-- The 56 body bytes of a partition command, as R391 lays them out, as numbers. -/
def partBody (i : Instr) : List Nat :=
  let pad := fun (l : List Byte) => (l ++ List.replicate (56 - l.length) (0 : Byte)).map fun b => b.toNat
  match i with
  | .partApply _ p lim ptab => pad (leBytes 4 p ++ leBytes 4 lim ++ leBytes 8 ptab)
  | .partReset _ p => pad (leBytes 1 p)
  | .partFreeze _ p lim => pad (leBytes 4 p ++ leBytes 4 lim)
  | .partSave _ p a n m => pad (leBytes 1 p ++ leBytes 1 m ++ leBytes 6 0 ++ leBytes 8 a ++ leBytes 4 n)
  | .partRestore _ p a n m => pad (leBytes 1 p ++ leBytes 1 m ++ leBytes 6 0 ++ leBytes 8 a ++ leBytes 4 n)
  | .partThaw _ p => pad (leBytes 1 p)
  | .partQuery _ p a => pad (leBytes 8 p ++ leBytes 8 a)
  | _ => []

/-- The digest of a command of an operation. -/
def State.partDigest (s : State) (f id : Nat) (more : List Nat) : Nat :=
  match s.op? f id with
  | some o => (Config.sha384 (partBody o.cmd ++ more)).toNat
  | none => 0

/-- An accepted command ends; a status other than OK makes a FINAL record (R391). -/
def State.partEnd (s : State) (f id p : Nat) (st : Status) (bytes detail : Nat) : State :=
  match s.op? f id with
  | none => s
  | some o =>
    let s := if st = .ok then s else s.jMust (s.originOf f) (.partcmd o.opcode p st (o.aux.headD 0)) true
    s.endOp f id st bytes detail

/-- The partition a partition command names. -/
def partArg (i : Instr) : Option Nat :=
  match i with
  | .partApply _ p _ _ => some p
  | .partReset _ p => some p
  | .partFreeze _ p _ => some p
  | .partSave _ p _ _ _ => some p
  | .partRestore _ p _ _ _ => some p
  | .partThaw _ p => some p
  | .partQuery _ p _ => some p
  | _ => none

/-- A partition command that a refused granule ends: its record, FINAL if the command has been journalled already, and the partition that it
was restoring ACTIVE again (R397). -/
def State.partRefuse (s : State) (f : Nat) (o : Op) (st : Status) : State :=
  match partArg o.cmd with
  | some p =>
    (s.modPart p fun x => if x.restoreOp = some (f, o.id) then { x with state := .active, restoreOp := none } else x).jMust (s.originOf f) (.partcmd o.opcode p st (if o.aux.isEmpty then s.partDigest f o.id [] else o.aux.headD 0)) (! o.aux.isEmpty)
  | none => s

/-- An operation's granule is refused. -/
def State.refuseOp (s : State) (f page : Nat) (o : Op) : State :=
  let addr := 4096 * page
  let s := s.modOp f o.id fun o => { o with park := none }
  match (s.fn f).herds.find? fun h => match h.2.run with | some c => c.op = o.id | none => false with
  | some h => s.collBad f h.1 addr false
  | none =>
    match s.sessOfOp f o.id with
    | some i => s.sessBad f i addr
    | none =>
      match aget (s.fn f).feeds o.id with
      | some y => (s.modFn f fun x => { x with feeds := adel x.feeds o.id }).endOp f o.id (refusedSt (y.blocks ≠ 0)) y.bytes (granuleDetail addr)
      | none =>
        -- a READ or atomic whose response waits: its message is abandoned
        let drop := fun (m : InMsg) => match m.ext, o.msn with
          | .readResp q _, some n => if q = n ∧ m.park.isSome then { m with aband := true, park := none, npk := 0 } else m
          | _, _ => m
        let s := match o.conn with
          | some h => s.modConn f h fun c => { c with rx := { c.rx with msgs := c.rx.msgs.map drop } }
          | none => s
        let s := s.modFn f fun x =>
          { x with armed := x.armed.filter (fun a => a.op ≠ o.id), mlists := x.mlists.map fun (m : Nat × MList) => (m.1, { m.2 with bound := adel m.2.bound o.id }) }
        (s.partRefuse f o (refusedSt (o.effect || o.placed ≠ 0))).endOp f o.id (refusedSt (o.effect || o.placed ≠ 0)) o.placed (granuleDetail addr)

/-- A message of this end whose source granule is refused; `numbered` as for a poisoned one (R155). -/
def State.refuseMsg (s : State) (f h page : Nat) (m : MsgFor) (msn : Nat) (begun : Bool) (numbered : Bool := false) : State :=
  let addr := 4096 * page
  match m with
  | .coll i _ => s.collBad f i addr false
  | .feed id =>
    let some_ := match aget (s.fn f).feeds id with | some y => y.blocks ≠ 0 || begun || y.open_.length ≠ (s.conn f h).tx.sendq.countP (fun x => x.for_ = .feed id) | none => begun
    s.failSrc f h m msn (refusedSt some_) addr numbered
  | .serve w q =>
    if begun then s.failSrc f h m msn .poison addr numbered
    else
      let s := s.modConn f h fun c => { c with tx := { c.tx with sendq := c.tx.sendq.filter fun x => x.msn ≠ msn } }
      (s.serveDone f h w q).sendNak f h q .prot 0
  | _ => s.failSrc f h m msn (refusedSt begun) addr numbered

/-- An inbound message whose granule is refused: abandoned, and refused when it passes (R345); a receive of rendezvous data ends with the granule's
address (R344). -/
def State.refuseIn (s : State) (f h page : Nat) (m : InMsg) : State :=
  let st := refusedSt (m.placed ≠ 0)
  let s := match m.window with | some w => s.placeDone f w | none => s
  match m.ext with
  | .rdvResp q _ => (s.modIn f h m.msn fun m => { m with aband := true, park := none, npk := 0 }).rdvFail f h q st (granuleDetail (4096 * page))
  | .readResp _ _ => s.modIn f h m.msn fun m => { m with aband := true, park := none, npk := 0 }
  | _ => s.modIn f h m.msn fun m => { m with status := st, held := false, park := none }

/-- The rows of a TSTORE below the refused granule are written (R343). -/
def State.refuseStore (s : State) (f l c page : Nat) (a : Async) (d : TileDecl) : State :=
  let bs := d.sendable a.snap
  let lo := 4096 * page
  let rows := (List.range d.rows).takeWhile fun r => decide (a.addr + r * a.pitch < lo)
  let s := rows.foldl (fun (s : State) r =>
    let addr := a.addr + r * a.pitch
    s.locWrite f false addr (((bs.drop (r * d.rowBytes)).take (min d.rowBytes (lo - addr))))) s
  s.modAsync f l c a.id fun a => { a with status := some (refusedSt (! rows.isEmpty)), page := none }

/-- A program's asynchronous operation meets a refused granule: its copy faults when it ends (R312, R348). -/
def State.refuseAsync (s : State) (f l c page : Nat) (a : Async) : State :=
  let d := match aget (s.fn f).progs (s.launch f l).handle with | some p => p.tiles.getD a.tile ⟨0, 1, 1, none⟩ | none => ⟨0, 1, 1, none⟩
  if a.op = 0x21 then s.refuseStore f l c page a d
  else s.modAsync f l c a.id fun a => { a with status := some .prot, page := none }

/-- Bytes of the ranges of one channel, in its order, that lie before its first missing page (R343). -/
def State.reachable (s : State) (f : Nat) (slice wr : Bool) (l : List (Nat × Nat)) : Nat :=
  (l.foldl (fun (acc : Nat × Bool) r =>
    if acc.2 then acc else match s.locMiss f slice r.1 r.2 wr with
      | some pg => (acc.1 + (4096 * pg - r.1), true)
      | none => (acc.1 + r.2, false)) (0, false)).1

/-- Whether a piece's elements of SRC have been read here: it was combined or, where nothing is reduced, sent on as it lies. -/
def Coll.pieceRead (c : Coll) (p : Piece) : Bool :=
  if isRed c.opcode then p.sentUp || (p.up.isNone && p.final.isSome) else p.from_.isNone && (p.sentDown || p.final.isSome)

/-- Bytes that the channels of an operation have moved (R346): a collective's SRC and DST, a session's queries or output, a feed's blocks, else what
has been placed. -/
def State.moved (s : State) (f : Nat) (o : Op) : Nat :=
  match (s.fn f).herds.findSome? fun h => h.2.run.bind fun c => if c.op = o.id then some c else none with
  | some c =>
    let todo := (c.pieces.filter fun p => ! c.pieceRead p && (isRed c.opcode || p.from_.isNone)).map c.srcRange
    c.bytes + ((c.pieces.filter c.pieceRead).map fun p => (c.srcRange p).2).foldl (· + ·) 0 +
      (match todo with | r :: _ => if o.park.any (fun p => ! p.2) then s.reachable f c.body.sspace false [r] else 0 | [] => 0)
  | none =>
    match s.sessOfOp f o.id with
    | some i =>
      let x := s.sess f i
      let b := x.bd
      if x.state = .writing then
        ((x.outPieces.take x.written ++ x.statPieces.take x.statted).map fun p => p.bytes.length).foldl (· + ·) 0
      else s.reachable f b.qspace false (queryRanges b) + s.reachable f false false [(b.qpos, 4 * b.nq)]
    | none =>
      match aget (s.fn f).feeds o.id with
      | some y =>
        if y.body.local_ then y.bytes + s.reachable f y.body.space false (feedSource y.body y.next)
        else
          let left := ((s.conn f y.body.conn).tx.sendq.filter fun m => m.for_ = .feed o.id).map fun m => m.len - m.off
          y.bytes + (y.open_.map (·.2)).foldl (· + ·) 0 - left.foldl (· + ·) 0
      | none => o.placed

/-- An interim FAULTED completion, if a further slot is free; else it is counted (R75, R346). -/
def State.putFaulted (s : State) (f page : Nat) (o : Op) (bytes : Nat) : State :=
    let r := s.ring f o.ring
    if 0 < r.cqFree ∧ r.waiting = [] ∧ s.cqReady f o.ring (s.compl f .faulted o.tag o.opcode 0 0) then
      s.putCompl f o.ring { s.compl f .faulted o.tag o.opcode bytes (page % 2 ^ 32) with gen := o.gen }
    else s.modFn f fun x => { x with cnt := { x.cnt with faultedOmit := x.cnt.faultedOmit + 1 } }

/-- R346: one interim FAULTED completion each time the operation's channel parks; ATC_PREFETCH writes none (R351). -/
def State.interim (s : State) (f page : Nat) (o : Op) (bytes : Nat) : State :=
  let pre : Bool := match o.cmd with | .atcPrefetch .. => true | _ => false
  if o.faulted || pre then s else (s.modOp f o.id fun o => { o with faulted := true }).putFaulted f page o bytes

/-- The same for a further channel, which asks for its page again. -/
def State.chanAsks (s : State) (f page : Nat) (wr : Bool) (o : Op) : State :=
  let up := fun (c : ChanPark) => if c.page = page ∧ c.wr = wr then { c with tries := c.tries + 1, faulted := true } else c
  let first := o.chans.any fun c => c.page = page && c.wr = wr && ! c.faulted
  let s := s.modOp f o.id fun o => { o with chans := o.chans.map up }
  (if first then s.putFaulted f page o (s.moved f o) else s).askPage f page wr

/-- The receive that rendezvous data of an inbound message is for (R346). -/
def State.rdvOp (s : State) (f h : Nat) (m : InMsg) : Option Op :=
  match m.ext with
  | .rdvResp q _ => (s.inMsg f h (rdvKey q)).bind fun y => y.posted.bind fun p => match p.to_ with | .op id _ _ => s.op? f id | _ => none
  | _ => none

/-- A waiter is given up on: count the granule (R354). -/
def State.refusedCount (s : State) : State := { s with mem := { s.mem with refused := satAdd 0xFFFF s.mem.refused 1 } }

/-- A denied page: each waiter asks the host for it, or is refused. `ask` tells that page requests are made at all; a waiter asks at
most RETRIES times (R338, R341). -/
def State.denyPage (s : State) (f page : Nat) (wr ask : Bool) : State :=
  let ask := ask && s.canAsk f
  let more := fun (n : Nat) => ask && decide (n < priRetries (s.priCfg f))
  -- operations
  let ops := (s.fn f).ops.filter fun o => o.park = some (page, wr)
  let pre := fun (o : Op) => match o.cmd with | .atcPrefetch _ _ _ _ pri => some pri | _ => none
  let s := ops.foldl (fun (s : State) o =>
    if more o.tries && pre o ≠ some false then
      ((s.modOp f o.id fun o => { o with tries := o.tries + 1 }).interim f page o (s.moved f o)).askPage f page wr
    else match o.cmd with
      | .atcPrefetch _ addr len w pri =>
        let s := s.modOp f o.id fun o => { o with park := none, tries := 0, aux := o.aux ++ [page] }
        effAtcPrefetch addr len w f o.id (if pri then s.refusedCount else s)
      | _ => (s.refuseOp f page o).refusedCount) s
  -- further channels of operations (R343)
  let s := ((s.fn f).ops.filter fun o => o.chans.any fun c => c.page = page && c.wr = wr).foldl (fun (s : State) o =>
    match o.chans.find? fun c => c.page = page && c.wr = wr with
    | some c => if more c.tries then s.chanAsks f page wr o else (s.refuseOp f page o).refusedCount
    | none => s) s
  -- messages to send and messages that arrive
  let s := (s.fn f).conns.foldl (fun (s : State) c =>
    let h := c.1
    let s := match c.2.tx.sendq with
      | m :: _ =>
        if m.park = some page ∧ wr = false then
          (if more m.tries then
            let s := s.modConn f h fun c => { c with tx := { c.tx with sendq := c.tx.sendq.map fun x => if x.msn = m.msn then { x with tries := x.tries + 1 } else x } }
            (match m.for_ with
              | .op id => (match s.op? f id with | some o => s.interim f page o m.off | none => s)
              | .feed id => (match s.op? f id with | some o => s.interim f page o (s.moved f o) | none => s)
              | _ => s).askPage f page wr
          else (s.refuseMsg f h page m.for_ m.msn m.begun).refusedCount)
        else s
      | [] => s
    let s := match c.2.tx.sent.find? fun x => x.lost && srcMiss s f x.src 0 x.plen = some page with
      | some x => if wr then s else if ask then s.askPage f page wr else (s.refuseMsg f h page x.for_ x.msn true true).refusedCount
      | none => s
    (c.2.rx.msgs.filter fun m => m.park = some (page, wr)).foldl (fun (s : State) m =>
      if more m.tries then
        let s := s.modIn f h m.msn fun m => { m with tries := m.tries + 1 }
        (match s.rdvOp f h m with | some o => s.interim f page o m.placed | none => s).askPage f page wr
      else (s.refuseIn f h page m).refusedCount) s) s
  -- ring memory (R62)
  let s := (s.fn f).rings.foldl (fun (s : State) r =>
    let k := r.1
    let hit := (r.2.sqPark = some page ∧ wr = false) ∨ (r.2.cqPark = some page ∧ wr = true)
    if ¬ hit then s
    else if more r.2.parkTries then (s.modRing f k fun r => { r with parkTries := r.parkTries + 1 }).askPage f page wr
    else
      let s := (s.modRing f k fun r => { r with parkTries := 0 }).refusedCount
      if r.2.cqPark = some page ∧ wr = true then s.cqMemError f k .prot
      else
        let s := s.flushEnd f k
        s.sqMemError f k .prot r.2.head) s
  -- a mailbox reply is given up, and a journal record waits with EXPERR (R375, R439)
  let m := (s.fn f).mbx
  let s := if m.park = some page ∧ wr = true then
      (if more m.tries then (s.modFn f fun x => { x with mbx := { x.mbx with tries := m.tries + 1 } }).askPage f page wr
       else (s.modFn f fun x => { x with mbx := { x.mbx with park := none, tries := 0, replies := x.mbx.replies.drop 1 } }).refusedCount)
    else s
  let s := if s.jrnl.park = some page ∧ f = s.fld 0x2400008 5 2 ∧ wr = true then
      (if more s.jrnl.tries then { s with jrnl := { s.jrnl with tries := s.jrnl.tries + 1 } }.askPage f page wr
       else ({ s with jrnl := { s.jrnl with park := none, tries := 0, experr := true } }.msix f (s.fld 0x2400008 8 8)).refusedCount)
    else s
  -- program operations
  (s.fn f).launches.foldl (fun (s : State) l => l.2.copies.foldl (fun (s : State) c => c.2.ops.foldl (fun (s : State) a =>
    if a.page = some page ∧ (a.op = 0x21) = (wr = true) then
      (if more a.tries then (s.modAsync f l.1 c.1 a.id fun a => { a with tries := a.tries + 1 }).askPage f page wr
       else (s.refuseAsync f l.1 c.1 page a).refusedCount)
    else s) s) s) s

/-! ### Responses to page requests (R341, R342) -/

/-- Refuse every waiter of a list of requests. -/
def State.denyAll (s : State) (f : Nat) (l : List (Nat × Bool)) : State := l.foldl (fun s r => s.denyPage f r.1 r.2 false) s

/-- A response: the group's index is free, and its waiters translate again or are refused. -/
def State.priResponse (s : State) (f group gen : Nat) (reply : PriReply) : State :=
  match (s.fn f).ats.groups.find? fun g => g.index = group ∧ g.gen = gen ∧ gen = (s.fn f).gen with
  | none => { s with mem := { s.mem with stale := satAdd 0xFFFF s.mem.stale 1 } }
  | some g =>
    let s := s.modAts f fun a => { a with groups := a.groups.filter fun x => x ≠ g }
    let s := match reply with
      | .success => g.reqs.foldl (fun s r => s.askXlate f r.1 r.2) s
      | .invalid => s.denyAll f g.reqs
      | .failure =>
        let a := (s.fn f).ats
        let wait := a.batch ++ a.closed.flatMap (·.2)
        let s := s.modAts f fun a => { a with stopped := true, batch := [], closed := [] }
        s.denyAll f (g.reqs ++ wait)
    sendGo ((s.fn f).ats.closed.length) s f

def execPriResponseReceive (fn : Fn) (group gen : Nat) (reply : PriReply) (s : State) : Host.Outcome State Fault Refusal :=
  .next (s.priResponse fn.idx group gen reply).settle

def State.priTimeout (s : State) (f group : Nat) : State :=
  match (s.fn f).ats.groups.find? fun g => g.index = group ∧ g.sentAt + g.tmo ≤ s.now with
  | none => s
  | some g =>
    let s := s.modAts f fun a => { a with groups := a.groups.filter fun x => x ≠ g }
    let s := { s with mem := { s.mem with timeouts := satAdd 0xFFFF s.mem.timeouts 1 } }
    let s := if g.gen = (s.fn f).gen then s.denyAll f g.reqs else s
    sendGo ((s.fn f).ats.closed.length) s f

def execPriTimeout (fn : Fn) (group now : Nat) (s : State) : Host.Outcome State Fault Refusal :=
  .next ((s.tick now).priTimeout fn.idx group).settle

/-- R341: PRI Reset ends the stop. -/
def execPriReset (fn : Fn) (s : State) : Host.Outcome State Fault Refusal := .next (s.modAts fn.idx fun a => { a with stopped := false })

/-! ### Invalidation (R339) -/

/-- R339: overlapping entries are dropped at once. -/
def execAtsInvalidateRequest (fn : Fn) (tag addr len : Nat) (s : State) : Host.Outcome State Fault Refusal :=
  let f := fn.idx
  let s := { s with mem := { s.mem with atc := s.mem.atc.filter fun e => ¬ (e.fn = f ∧ e.addr < addr + len ∧ addr < e.addr + e.size) } }
  .next (s.modAts f fun a => { a with invals := a.invals ++ [(tag, addr, len)] })

/-- A packet not yet acknowledged that was read from a host range (R155). -/
def Sent.holds (x : Sent) (addr len : Nat) : Bool :=
  ! x.acked && (match x.src with
    | .mem false a => decide (a < addr + len ∧ addr < a + x.plen)
    | .gather false l => l.any fun p => decide (p.1 < addr + len ∧ addr < p.1 + p.2)
    | _ => false)

def State.rangeHeld (s : State) (f addr len : Nat) : Bool :=
  (s.fn f).conns.any fun c => c.2.state.live && c.2.tx.sent.any fun x => x.holds addr len

/-- The completion is sent once nothing overlaps, nothing is outstanding and nothing is held. -/
def State.invalDone (s : State) (f tag : Nat) : State :=
  match (s.fn f).ats.invals.find? fun i => i.1 = tag with
  | none => s
  | some (_, addr, len) =>
    let cached := s.mem.atc.any fun e => e.fn = f && decide (e.addr < addr + len ∧ addr < e.addr + e.size)
    let reading := (s.link (s.linkOf f)).reads.any fun r => r.fn = f && decide (r.addr < addr + len ∧ addr < r.addr + r.len)
    if cached ∨ reading ∨ s.rangeHeld f addr len then s
    else (s.modAts f fun a => { a with invals := a.invals.filter fun i => i ≠ (tag, addr, len) }).emit (.invalDone f tag)

def execAtsInvalidateComplete (fn : Fn) (tag : Nat) (s : State) : Host.Outcome State Fault Refusal := .next (s.invalDone fn.idx tag)

end Sys2Proof.Machine
end

