-- ==== Sys2Proof/Machine/Reset.lean ====
section
/-!
DEFINITION. Reset.lean: the reset of an instance and of a physical function's rings (R77, R98, R165, R307, R310, R349, R364, R376-R379,
R398, R407), TDI state changes (R434), and the invalidation of slice pages (R328).
-/

namespace Sys2Proof.Machine

/-! ### Slice pages (R328, R369) -/

/-- A physical page leaves or enters a slice: tracked lines are recalled, every line reads as zero, no poison stays. -/
def State.pageClear (s : State) (ppn : Nat) : State :=
  let lo := 2 ^ 21 * ppn
  let s := s.recall lo (2 ^ 21)
  let k := cellKey dramSpace lo
  { s with mem := { s.mem with bytes := s.mem.bytes.filter fun c => ¬ (k ≤ c.1 ∧ c.1 < k + 2 ^ 21),
                               poison := s.mem.poison.filter fun l => ¬ (k / 64 ≤ l ∧ l < (k + 2 ^ 21) / 64) } }

/-- Every page of a partition's slice reads as zero. -/
def State.sliceClear (s : State) (p : Nat) : State :=
  let r := (s.part p).cur
  (List.range r.spages).foldl (fun s i => s.pageClear (s.pageEnt (r.sbase + i)).ppn) s

/-- Set a bit of a function's AER uncorrectable error status, and say so (R372, R382). -/
def State.aer (s : State) (f code : Nat) : State := (s.modFn f fun x => { x with aer := x.aer ||| 2 ^ code }).emit (.aer f code)

/-! ### TDI states (R434) -/

/-- A TDI state change is journalled; one to ERROR waits for nothing (R440). -/
def State.tdiSet (s : State) (p st : Nat) : State :=
  if (s.part p).tdi = st then s else
    let s := s.modPart p fun x => { x with tdi := st, lockedBy := if st = 0 then none else x.lockedBy }
    s.jMust (.inst ⟨p % 16, Nat.mod_lt _ (by decide)⟩) (jKey 15 p st .ok)

/-- An action that a locked or running TDI does not allow puts it into ERROR. -/
def State.tdiError (s : State) (p : Nat) : State :=
  if (s.part p).tdi = 1 ∨ (s.part p).tdi = 2 then s.tdiSet p 3 else s

/-! ### Steps of a reset (R398) -/

/-- What is left of a function after steps 2 to 5. Window and connection incarnations, MSI-X, ATS set-up, telemetry and the mailbox
registers stay. Page request groups stay, and their responses are discarded (R342). An operation whose slice page is being re-encrypted
holds its entry until the page is done (R78, R352). -/
def FnState.cleared (x : FnState) (keep : List Nat) : FnState :=
  { ({} : FnState) with
    gen := x.gen, rawmap := x.rawmap, msix := x.msix, msixPba := x.msixPba, nextOp := x.nextOp,
    ops := x.ops.filter (fun o => keep.contains o.id),
    wins := x.wins.map (fun (w : Nat × Win) =>
      (w.1, { ({} : Win) with incarn := w.2.incarn, closedSeq := if w.2.state = .closed then w.2.closedSeq else x.closeSeq + 1 })),
    closeSeq := x.closeSeq + 1,
    conns := x.conns.map (fun (c : Nat × Conn) =>
      (c.1, { ({} : Conn) with cid := { inc := c.2.cid.inc }, freedSeq := if c.2.state = .free then c.2.freedSeq else x.freeSeq + 1 })),
    freeSeq := x.freeSeq + 1, aborts := x.aborts, abortAt := x.abortAt,
    ats := { x.ats with reqs := [], batch := [], closed := [] },
    mbx := { x.mbx with queue := [], taken := none, replies := [], park := none, tries := 0 },
    cnt := { x.cnt with complDropped := x.cnt.complDropped + x.rings.foldl (fun n r => n + r.2.waiting.length) 0 }, aer := x.aer }

/-- Steps 1 to 5 of a reset of a function's objects. -/
def State.fnReset (s : State) (f : Nat) (abort : Bool) : State :=
  let s := if abort then ((s.fn f).conns.filter fun c => c.2.state ≠ .free).foldl (fun s c => s.sendAborts f c.1 4 3) s else s
  -- a page already under way is finished; the others keep their selector
  let mine := s.mem.rekeys.filter fun r => r.fn = f
  let under := mine.filter fun r => (s.pageEnt r.page).rk && decide ((s.mem.rekeys.find? fun x => x.page = r.page) = some r)
  let ops := under.map (·.op)
  let drop := mine.filter fun r => ! under.contains r
  let m := { s.mem with rekeys := s.mem.rekeys.filter (fun r => ! drop.contains r), atc := s.mem.atc.filter (fun e => e.fn ≠ f) }
  let mesh := { s.mesh with circs := s.mesh.circs.filter fun c => c.owner.1 ≠ f }
  let s := { s with mem := m, mesh := mesh, ports := s.ports.map fun (q : Nat × Port) => (q.1, { q.2 with raws := q.2.raws.filter (fun r => r.fn ≠ f), fifo := q.2.fifo.filter fun e => ! (e.fn = f && ! e.ready) }) }
  s.modFn f fun x => x.cleared ops

/-- The next generation (R398). -/
def nextGen (g : Nat) : Nat := if g = 0xFFFF then 1 else g + 1

/-- A command that waited on the partition ends (R397): FREEZE and RESTORE FLUSHED. -/
def State.endWaits (s : State) (p : Nat) : State :=
  let x := s.part p
  let s := match x.freeze with
    | some z => (s.modPart p fun x => { x with freeze := none }).partEnd z.fn z.op p .flushed 0 0
    | none => s
  match x.restoreOp with
  | some (f, id) => ((s.modPart p fun x => { x with restoreOp := none }).sliceClear p).partEnd f id p .flushed 0 0
  | none => s

/-- An instance reset begins (R397, R398): in EMPTY it has no effect, and in RESETTING it joins the one in progress. -/
def State.instReset (s : State) (p : Nat) : State :=
  let x := s.part p
  if x.state = .empty ∨ x.state = .resetting then s else
    let s := s.endWaits p
    let f := 4 + p
    let s := s.modPart p fun x =>
      { x with state := .resetting, newGen := some (nextGen (s.fn f).gen), restored := false,
               quietTil := if x.saved then s.now + s.quietNs else x.quietTil,
               formerIps := if x.saved then x.addrs.map fun a => (a.2.ip, a.2.vid, a.2.ven, a.2.ports) else x.formerIps }
    (s.fnReset f (! x.saved)).modFn f fun y => { y with resetting := true }

/-- A reset by an FLR or PART_RESET of a partition whose TDI is locked or running puts the TDI into ERROR first (R434). -/
def State.tdiReset (s : State) (p : Nat) : State := if (s.part p).state = .empty then s else (s.tdiError p).instReset p

end Sys2Proof.Machine
end

