-- ==== Sys2Proof/Machine/Partition.lean ====
section
/-!
DEFINITION. Partition.lean: partition records and commands, their application, reset, freeze, migration images and thaw (R384-R407).
-/

namespace Sys2Proof.Machine

/-! ### Records (R388) -/

/-- Offset of a partition's registers (R387). -/
def partOff (p : Nat) : Nat := 0x400000 + 0x1000 * p

/-- The record a group of 64-bit words spells. -/
def recOf (w : Nat → Nat) : PartRec :=
  { blks := w 0, rings := bitsOf (w 1) 0 11, herds := bitsOf (w 1) 16 13, tallies := bitsOf (w 1) 32 17,
    conns := bitsOf (w 2) 0 21, windows := bitsOf (w 2) 32 19, precv := bitsOf (w 3) 0 23, inflight := bitsOf (w 3) 32 18,
    sbase := bitsOf (w 4) 0 13, spages := bitsOf (w 4) 16 13, replay := bitsOf (w 4) 32 11, atc := bitsOf (w 4) 48 7,
    link := bitsOf (w 4) 56 2, ports := bitsOf (w 5) 0 8, share := w 6 }

/-- Word i of a record. -/
def PartRec.word (r : PartRec) (i : Nat) : Nat :=
  if i = 0 then r.blks
  else if i = 1 then r.rings + 2 ^ 16 * r.herds + 2 ^ 32 * r.tallies
  else if i = 2 then r.conns + 2 ^ 32 * r.windows
  else if i = 3 then r.precv + 2 ^ 32 * r.inflight
  else if i = 4 then r.sbase + 2 ^ 16 * r.spages + 2 ^ 32 * r.replay + 2 ^ 48 * r.atc + 2 ^ 56 * r.link
  else if i = 5 then r.ports
  else if i = 6 then r.share
  else 0

/-- PART_NEXT of a partition. -/
def State.partNext (s : State) (p : Nat) : PartRec := recOf fun i => s.reg (partOff p + 0x100 + 8 * i)

/-! ### Current use (R394) -/

def topKey {α : Type} (m : AMap α) (used : α → Bool) : Nat := (m.filter fun x => used x.2).foldl (fun n x => max n (x.1 + 1)) 0

def State.useRings (s : State) (f : Nat) : Nat := topKey (s.fn f).rings fun r => r.state ≠ .free
def State.useConns (s : State) (f : Nat) : Nat := topKey (s.fn f).conns fun c => c.state ≠ .free
def State.useWins (s : State) (f : Nat) : Nat := topKey (s.fn f).wins fun w => w.state ≠ .closed
def State.useTallies (s : State) (f : Nat) : Nat := topKey (s.fn f).tallies fun _ => true
def State.useHerds (s : State) (f : Nat) : Nat := topKey (s.fn f).herds fun h => h.state ≠ .free

/-- The end of the slice that is in use: open windows, code areas, herd work areas, save areas, eager space (R394; DEDUCED, log 40). -/
def State.useSlice (s : State) (f : Nat) : Nat :=
  let x := s.fn f
  let most := fun (l : List Nat) => l.foldl max 0
  max (most (x.wins.map fun w => if w.2.state ≠ .closed ∧ w.2.slice then w.2.base + w.2.length else 0))
  (max (most (x.progs.map fun p => p.2.codeOff + p.2.codeLen))
  (max (most (x.herds.map fun h => if h.2.state ≠ .free then h.2.bd.soff + 1024 * h.2.bd.slen else 0))
  (max (most (x.launches.map fun l => if l.2.state ≠ .free then l.2.saveOff + l.2.saveLen else 0)) (s.eagerUsed f))))

/-! ### Journalled commands (R391) -/

/-- Take a partition command: journal it, then refuse it or go on (R391). While the journal is full it ends BUSY (R440). A command that
parked on a page and runs again has been journalled (`aux`). -/
def State.partCmd (s : State) (f id opcode p : Nat) (more : List Nat) (l : List Status) (k : State → State) : State :=
  let again : Bool := match s.op? f id with | some o => ! o.aux.isEmpty | none => false
  let d := s.partDigest f id more
  if ! again && s.jrnl.full then s.endBusy f id
  else
    match pick l with
    | some st =>
      let s := if again then s.jMust (s.originOf f) (.partcmd opcode p st d) true else s.jCommit (s.originOf f) (.partcmd opcode p st d)
      s.endOp f id st 0 0
    | none =>
      let s := if again then s else (s.jCommit (s.originOf f) (.partcmd opcode p .ok d)).modOp f id fun o => { o with aux := [d] }
      k s

/-! ### PART_APPLY (R393-R396) -/

/-- What another partition counts with: the larger of its record and the one it is applying. -/
def State.most (s : State) (p : Nat) (g : PartRec → Nat) : Nat :=
  let x := s.part p
  match x.apply with
  | some a => max (g x.cur) (g a.rec_)
  | none => g x.cur

/-- A sum over all partitions, with the new record for p. -/
def State.total (s : State) (p : Nat) (r : PartRec) (g : PartRec → Nat) : Nat :=
  (List.range 16).foldl (fun n q => n + if q = p then g r else s.most q g) 0

/-- Records another partition holds or is applying. -/
def State.recsOf (s : State) (q : Nat) : List PartRec :=
  (s.part q).cur :: (match (s.part q).apply with | some a => [a.rec_] | none => [])

/-- Page entry fields of a PTAB entry (R326). -/
def entOf (v : Nat) : PageEnt :=
  { valid := v.testBit 0, host := v.testBit 1, rk := false, ksel := bitsOf v 4 6, ppn := bitsOf v 21 13, part := bitsOf v 36 4 }

/-- R327 and R393 on PTAB: entry i of the new slice of partition p. -/
def State.entBad (s : State) (p : Nat) (r : PartRec) (l : List Nat) (i : Nat) : Bool :=
  let v := l.getD i 0
  let e := entOf v
  let cur := (s.part p).cur
  let rsv := v.testBit 3 || bitsOf v 10 11 ≠ 0 || bitsOf v 34 2 ≠ 0 || bitsOf v 40 24 ≠ 0
  let old := s.pageEnt (cur.sbase + i)
  let others := s.mem.pages.any fun x => x.2.valid && x.2.ppn = e.ppn && ! decide (cur.sbase ≤ x.1 ∧ x.1 < cur.sbase + cur.spages)
  let twice := (List.range r.spages).any fun j => j ≠ i && (entOf (l.getD j 0)).ppn = e.ppn
  rsv || decide (e.ppn < 0x400 ∨ 0x1FDF < e.ppn) || others || twice || e.part ≠ p || e.ksel / 4 ≠ p || ! e.valid ||
    (decide (i < cur.spages) && decide (old.ppn ≠ e.ppn ∨ old.ksel ≠ e.ksel))

/-- The RANGE row of R393, as far as the record itself says. -/
def State.recRange (s : State) (p : Nat) (r : PartRec) (ptab : Nat) : Bool :=
  let cur := (s.part p).cur
  let others := (List.range 16).filter fun q => q ≠ p
  let overs := fun (g : PartRec → Nat) (each all : Nat) => decide (each < g r ∨ all < s.total p r g)
  overs (·.rings) 1024 7936 || overs (·.conns) 1048576 1048576 || overs (·.windows) 262144 262144 || overs (·.tallies) 65536 65536 ||
  overs (·.precv) 4194304 4194304 || overs (·.herds) 4096 4096 || overs (·.inflight) 129024 129024 || overs (·.replay) 1024 1024 ||
  overs (·.atc) 64 64 || overs (·.spages) 7136 7136 ||
  others.any (fun q => (s.recsOf q).any fun y => y.blks &&& r.blks ≠ 0 ||
    decide (r.spages ≠ 0 ∧ y.spages ≠ 0 ∧ r.sbase < y.sbase + y.spages ∧ y.sbase < r.sbase + r.spages)) ||
  decide (8192 < r.sbase + r.spages) || (ptab = 0 && decide (r.sbase ≠ cur.sbase ∨ r.spages ≠ cur.spages))

/-- The RANGE row of R393. -/
def State.applyRange (s : State) (p : Nat) (r : PartRec) (ptab : Nat) (l : List Nat) : Bool :=
  s.recRange p r ptab || (ptab ≠ 0 && (List.range r.spages).any fun i => s.entBad p r l i)

/-- The STATE row of R393. A releasing record is checked against the state alone. -/
def State.applyState (s : State) (p : Nat) (r : PartRec) : Bool :=
  let x := s.part p
  let f := 4 + p
  let wrong := x.apply.isSome || (x.state ≠ .empty && x.state ≠ .active && x.state ≠ .frozen)
  if r.holds then
    wrong || x.state = .frozen || decide (r.rings < s.useRings f ∨ r.conns < s.useConns f ∨ r.windows < s.useWins f ∨
      r.tallies < s.useTallies f ∨ r.herds < s.useHerds f ∨ r.precv < s.precvUsed f ∨ 2 ^ 21 * r.spages < s.useSlice f ∨
      (x.cur.holds = true ∧ r.link ≠ x.cur.link))
  else wrong || x.state = .empty

/-- A change that R434 lets a locked TDI keep. -/
def PartRec.mild (a b : PartRec) : Bool := decide ({ a with share := b.share, inflight := b.inflight, replay := b.replay, atc := b.atc } = b)

/-- Checks of a partition command besides its own: an admin ring of a physical function, a partition number (R391). -/
def State.partPlace (s : State) (f id p : Nat) : List Status :=
  let ring := match s.op? f id with | some o => o.ring | none => 0
  ck (isPf f = false ∨ ring ≠ 0) .prot ++ ck (16 ≤ p) .range

/-- PART_APPLY. One that is posted where it does not belong (R391) is judged by its fields and its record alone (R9): it reads no PTAB. -/
def effPartApply (p limit ptab : Nat) (f id : Nat) (s : State) : State :=
  let r := s.partNext p
  let place := s.partPlace f id p
  if place ≠ [] then s.partCmd f id 0x400 p [] (place ++ ck (p < 16 ∧ s.recRange p r ptab = true) .range) fun s => s
  else
    let n := if ptab = 0 then 0 else 8 * r.spages
    let miss := if n = 0 then none else s.missing f ptab n false
    match miss with
    | some pg => s.parkOp f id pg false
    | none =>
      let bs := s.hostBytes f ptab n
      let l := (List.range r.spages).map fun i => leNat ((bs.drop (8 * i)).take 8)
      let l := if ptab = 0 then [] else l
      let more := ((List.range 8).flatMap fun i => leBytes 8 (r.word i)).map (·.toNat) ++ bs.map (·.toNat)
      s.partCmd f id 0x400 p more
        (ck (s.applyRange p r ptab l = true) .range ++ ck ((s.locPoison f false ptab n).isSome = true ∧ n ≠ 0) .prot ++
         ck (s.applyState p r = true) .state)
        fun s =>
          let x := s.part p
          let a : Applying := { rec_ := r, pages := l, fn := f, op := id, limitAt := s.now + 1000000 * (if limit = 0 then 1000 else limit),
                                release := ! r.holds, ptab := ptab ≠ 0, wasEmpty := x.state = .empty }
          let s := s.modPart p fun x => { x with apply := some a }
          if ! r.holds then (s.modPart p fun x => { x with release := true }).tdiReset p
          else
            let s := s.modPart p fun x => { x with state := .resizing }
            let s := if (x.tdi = 1 ∨ x.tdi = 2) ∧ ¬ (x.cur.mild r = true ∧ ptab = 0) then s.tdiReset p else s
            s.preemptBlocks (4 + p) fun b => ! r.blks.testBit b

/-- R391, R393: PART_APPLY. -/
def execPartApply (e : Entry) (part limit ptab : Nat) (s : State) : Host.Outcome State Fault Refusal :=
  .next (s.startEntry e 0x400 len1 (.partApply e part limit ptab) (effPartApply part limit ptab e.fn.idx))

/-- Every block that is being removed is clear (R395). -/
def State.blocksClear (s : State) (p : Nat) (r : PartRec) : Bool :=
  let x := s.fn (4 + p)
  let gone := fun (b : Nat) => (s.part p).cur.blks.testBit b && ! r.blks.testBit b
  x.launches.all (fun l => l.2.copies.all fun c => match c.2.block with | some b => ! gone b | none => true) &&
  x.sess.all (fun y => y.2.state = .free || ! (List.range 64).any fun b => gone b && y.2.bd.blks.testBit b) &&
  x.herds.all fun h => ! h.2.blocks.any gone || (match h.2.run with | some c => c.atBoundary | none => true)

/-- The translation cache entries of a function beyond its share are dropped, least recently used first (R337, R394). A share is so many
sixty-fourths of the entries of both levels; no rule gives one to a physical function (DEDUCED, log 38). -/
def State.atcTrim (s : State) (f share : Nat) : State :=
  let cap := if isPf f then 65536 else 29589504 * share / 64
  let mine := s.mem.atc.filter fun e => e.fn = f
  let drop := mine.take (mine.length - cap)
  { s with mem := { s.mem with atc := s.mem.atc.filter fun e => ! drop.contains e } }

/-- The record commits as one replacement (R394, R395). -/
def State.applyCommit (s : State) (p : Nat) : State :=
  let x := s.part p
  match x.apply with
  | none => s
  | some a =>
    if a.release ∨ (x.state ≠ .resizing ∧ x.state ≠ .active) ∨ s.blocksClear p a.rec_ = false then s else
      let old := x.cur
      let r := a.rec_
      let f := 4 + p
      -- pages that leave, then entries that move or are new
      let ents := if a.ptab then a.pages.map entOf else (List.range r.spages).map fun i => s.pageEnt (old.sbase + i)
      let gone := ((List.range old.spages).filter fun i => r.spages ≤ i).map fun i => (s.pageEnt (old.sbase + i)).ppn
      let new := ((List.range r.spages).filter fun i => old.spages ≤ i).map fun i => (ents.getD i {}).ppn
      let s := (gone ++ new).foldl (fun s n => s.pageClear n) s
      let pages := (List.range old.spages).foldl (fun t i => adel t (old.sbase + i)) s.mem.pages
      let pages := (List.range r.spages).foldl (fun t i => aset t (r.sbase + i) { ents.getD i {} with rk := (s.pageEnt (old.sbase + i)).rk && decide (i < old.spages) }) pages
      -- pages under re-encryption keep their contents' entries; those that have left are done with
      let stays := fun (y : Rekey) => y.fn ≠ f || decide (y.page < old.sbase + r.spages)
      let left := s.mem.rekeys.filter fun y => ! stays y
      let rekeys := (s.mem.rekeys.filter stays).map fun y => if y.fn = f then { y with page := y.page - old.sbase + r.sbase } else y
      let s := { s with mem := { s.mem with pages := pages, rekeys := rekeys } }
      let s := left.foldl (fun s y => s.rekeyStart y.fn y.op) s
      -- ports that leave: their paths go as those of a port that goes down (DESIGN CHOICE, log 165)
      let lost := fun (q : Nat) => old.ports.testBit q && ! r.ports.testBit q
      let one := fun (c : Conn) =>
        if c.state.live then c.losePaths ((List.range c.cid.paths).filter fun i => lost (c.cid.pathPort i)) s.now else c
      let s := s.modFn f fun y =>
        { y with conns := y.conns.map (fun c => (c.1, one c.2)),
                 herds := y.herds.map fun h => (h.1, { h.2 with blocks := h.2.blocks.filter fun b => r.blks.testBit b }) }
      let s := s.modPart p fun x =>
        { x with cur := r, apply := none, state := .active, clean := x.clean || a.wasEmpty,
                 addrs := x.addrs.map fun e => (e.1, { e.2 with ports := e.2.ports &&& r.ports }) }
      (s.atcTrim f r.atc).partEnd a.fn a.op p .ok 0 0

def execPartApplyCommit (part : Fin 16) (s : State) : Host.Outcome State Fault Refusal := .next (s.applyCommit part.val)

/-- A request for pre-emption is withdrawn for every copy that goes on, unless a fence or a pending removal of its block still asks for it (R314). -/
def State.unpreempt (s : State) (f : Nat) : State :=
  s.modFn f fun x => { x with launches := x.launches.map fun l => (l.1, { l.2 with copies := l.2.copies.map fun c =>
    (c.1, match c.2.block with
      | some b => if (c.2.st = .running ∨ c.2.st = .waiting) ∧ (aget s.err.fences (regionOf b)).isNone ∧ s.blockOwned f b then
          { c.2 with preempt := none } else c.2
      | none => c.2) }) }

/-- R396: LIMIT passes first. -/
def State.applyLimit (s : State) (p : Nat) : State :=
  match (s.part p).apply with
  | none => s
  | some a =>
    if a.release ∨ s.now < a.limitAt then s else
      let s := s.modPart p fun x => { x with apply := none, state := if x.state = .resizing then (if a.wasEmpty then .empty else .active) else x.state }
      (s.unpreempt (4 + p)).partEnd a.fn a.op p .busy 0 1000

def execPartApplyLimit (part : Fin 16) (now : Nat) (s : State) : Host.Outcome State Fault Refusal := .next ((s.tick now).applyLimit part.val)

/-! ### PART_RESET (R397, R398) -/

/-- PART_RESET ends OK when the reset is complete; those that join end with it. -/
def effPartReset (p : Nat) (f id : Nat) (s : State) : State :=
  let l := s.partPlace f id p
  s.partCmd f id 0x401 p [] (if l = [] then ck ((s.part p).state = .empty) .state else l) fun s => s.tdiReset p

def execPartReset (e : Entry) (part : Nat) (s : State) : Host.Outcome State Fault Refusal :=
  .next (s.startEntry e 0x401 len1 (.partReset e part) (effPartReset part e.fn.idx))

/-- The PART_RESET operations of a partition that wait. -/
def State.resetOps (s : State) (p : Nat) : List (Nat × Nat) :=
  (List.range 4).flatMap fun f => ((s.fn f).ops.filter fun o => match o.cmd with | .partReset _ q => q = p && ! o.aux.isEmpty | _ => false).map fun o => (f, o.id)

/-- A release ends (R396, R415): slice pages are invalid, entries, keys and contributions are gone, the record is empty. -/
def State.releaseEnd (s : State) (p : Nat) : State :=
  let r := (s.part p).cur
  let s := s.sliceClear p
  let s := { s with mem := { s.mem with pages := (List.range r.spages).foldl (fun t i => adel t (r.sbase + i)) s.mem.pages,
                                        keys := s.mem.keys.filter fun k => k.1 / 4 ≠ p } }
  let a := (s.part p).apply
  let s := s.modPart p fun x => { x with state := .empty, cur := {}, apply := none, release := false, slots := [], mslots := [],
                                         addrs := x.addrs.map fun e => (e.1, { e.2 with ports := 0 }) }
  match a with
  | some y => s.partEnd y.fn y.op p .ok 0 0
  | none => s

/-- Step 6 of a reset: the new generation, once no operation in flight carries it (R77). -/
def State.resetDone (s : State) (p : Nat) : State :=
  let f := 4 + p
  match (s.part p).newGen with
  | none => s
  | some g =>
    if (s.part p).state ≠ .resetting ∨ (s.fn f).ops.any (fun o => o.gen = g) then s else
      let s := s.modFn f fun y => { y with gen := g, resetting := false }
      let s := s.modPart p fun x => { x with newGen := none, clean := true, saved := false, state := .active, imgLen := 0 }
      let s := if (s.part p).release then s.releaseEnd p else s
      (s.resetOps p).foldl (fun s o => s.partEnd o.1 o.2 p .ok 0 0) s

def execInstanceResetComplete (part : Fin 16) (s : State) : Host.Outcome State Fault Refusal := .next (s.resetDone part.val)

/-! ### Freeze (R399, R400) -/

/-- Every connection that carries traffic tells its peer to stop, or to go on. -/
def State.stopAll (s : State) (f : Nat) (stop : Bool) : State :=
  ((s.fn f).conns.filter fun c => c.2.state.live).foldl (fun s c => s.setGrant f c.1 (s.conn f c.1).rx.gwin stop) s

/-- A freeze is cancelled. -/
def State.freezeCancel (s : State) (p : Nat) : State :=
  match (s.part p).freeze with
  | none => s
  | some z =>
    let f := 4 + p
    let s := ((s.modPart p fun x => { x with state := .active, freeze := none }).stopAll f false).unpreempt f
    let s := (s.fn f).rings.foldl (fun (s : State) r => match r.2.bell with
      | some t => (s.modRing f r.1 fun y => { y with bell := none }).doorbell f r.1 (some t)
      | none => s) s
    s.partEnd z.fn z.op p .busy 0 1000

def effPartFreeze (p limit : Nat) (f id : Nat) (s : State) : State :=
  let l := s.partPlace f id p
  let x := s.part p
  s.partCmd f id 0x402 p [] (if l = [] then ck (x.state ≠ .active ∨ x.apply.isSome = true ∨ x.tdi = 1 ∨ x.tdi = 2) .state else l) fun s =>
    let z : Freezing := { fn := f, op := id, limitAt := s.now + 1000000 * (if limit = 0 then 1000 else limit), drainAt := 0 }
    let s := (s.modPart p fun x => { x with state := .freezing, freeze := some z, saved := false, restored := false }).stopAll (4 + p) true
    if (s.fn (4 + p)).sess.any (fun y => y.2.state ≠ .free) then s.freezeCancel p
    else s.preemptBlocks (4 + p) fun _ => true

def execPartFreeze (e : Entry) (part limit : Nat) (s : State) : Host.Outcome State Fault Refusal :=
  .next (s.startEntry e 0x402 len1 (.partFreeze e part limit) (effPartFreeze part limit e.fn.idx))

/-- Step 3 of R399 is done: no copy holds a block, and collectives stand at a chunk boundary. -/
def State.freezeStill (s : State) (f : Nat) : Bool :=
  (s.fn f).launches.all (fun l => l.2.copies.all fun c => c.2.st = .parked || c.2.st = .done || c.2.block.isNone) &&
  (s.fn f).herds.all fun h => match h.2.run with | some c => c.atBoundary | none => true

/-- The drain is over: every packet sent is resolved, and every connection has all it has seen, with nothing new for 2 × SRTT. -/
def State.drained (s : State) (f : Nat) : Bool :=
  (s.fn f).conns.all fun c => ! c.2.state.live ||
    (c.2.tx.sent.all (fun x => ! x.out) && c.2.rx.got.isEmpty && decide (c.2.tm.receipt + 2 * c.2.tx.srtt ≤ s.now))

/-- A partition's connections that are not FREE. -/
def State.connCount (s : State) (f : Nat) : Nat := ((s.fn f).conns.filter fun c => c.2.state ≠ .free).length

/-! ### Records of an image (R403, R404) -/

/-- The records of an image, TYPE and plaintext: PARTITION first, END last; the bodies between are the device's own (DEDUCED, log 39). -/
def imageRecs (n : Nat) : List (Nat × List Byte) :=
  let l := Config.imageRecs n
  let body := fun (x : List Byte) => if x = [] then [0] else x.take 1048576
  let mid := ((l.drop 1).filter fun r => decide (1 < r.1 ∧ r.1 ≤ 12)).map fun r => (r.1, body r.2)
  (1, body (l.headD (1, [])).2) :: mid ++ [(0xFFFF, leBytes 4 (mid.length + 2))]

/-- IMGLEN of an image: its header, and 32 bytes and a body for each record. -/
def imageLen (n : Nat) : Nat := 64 + (imageRecs n).foldl (fun k r => k + 32 + r.2.length) 0

/-- The header before HTAG, 48 bytes. -/
def imageHdr (p m gen n : Nat) (salt : List Byte) : List Byte :=
  leBytes 4 0x4D495454 ++ leBytes 2 1 ++ leBytes 1 p ++ leBytes 1 m ++ leBytes 8 0 ++ salt ++ leBytes 2 gen ++ leBytes 2 0 ++
  leBytes 4 (imageRecs n).length ++ leBytes 8 (imageLen n)

/-- The nonce of a record number: RECNO as four bytes, most significant first, then eight zero bytes. -/
def recIv (i : Nat) : Nat := i * 2 ^ 64

/-- The header of record i. -/
def recHdr (i type len : Nat) : List Byte := leBytes 4 i ++ leBytes 2 type ++ leBytes 2 0 ++ leBytes 4 len ++ leBytes 4 0

/-- An image under its key: header, HTAG, records. -/
def imageOf (key : BitVec 256) (hdr : List Byte) (recs : List (Nat × List Byte)) : List Byte :=
  hdr ++ gcmTag key (recIv 0xFFFFFFFF) hdr [] ++ ((List.range recs.length).zip recs).flatMap fun r =>
    let h := recHdr r.1 r.2.1 r.2.2.length
    h ++ gcmSeal key (recIv r.1) (hdr ++ h) r.2.2

/-- The freeze point. The image length, which the manual leaves open, is fixed here (DEDUCED, log 39). -/
def State.freezePoint (s : State) (p : Nat) : State :=
  match (s.part p).freeze with
  | none => s
  | some z =>
    let f := 4 + p
    if (s.part p).state ≠ .freezing ∨ s.freezeStill f = false then s
    else
      let since := if z.drainAt = 0 then s.now else z.drainAt
      if s.drained f ∨ (z.drainAt ≠ 0 ∧ since + s.drainNs ≤ s.now) then
        let s := s.modAts f fun a => { a with reqs := [], batch := [], closed := [], groups := [] }
        let s := (s.modPart p fun x => { x with state := .frozen, freeze := none, imgLen := imageLen s.free, imgSeed := s.free }).bump
        s.partEnd z.fn z.op p .ok 0 (s.connCount f)
      else s.modPart p fun x => { x with freeze := some { z with drainAt := since } }

def execFreezePoint (part : Fin 16) (now : Nat) (s : State) : Host.Outcome State Fault Refusal := .next ((s.tick now).freezePoint part.val)

/-- R400: LIMIT passes before the freeze point. -/
def execFreezeCancel (part : Fin 16) (now : Nat) (s : State) : Host.Outcome State Fault Refusal :=
  let s := s.tick now
  .next (match (s.part part.val).freeze with
    | some z => if (s.part part.val).state = .freezing ∧ z.limitAt ≤ s.now then s.freezeCancel part.val else s
    | none => s)

/-! ### Images (R402-R405) -/

/-- The extents of a list of n 16-byte records: (address, length). -/
def extentsOf (n : Nat) (bs : List Byte) : List (Nat × Nat) :=
  (List.range n).map fun i => (leNat ((bs.drop (16 * i)).take 8), leNat ((bs.drop (16 * i + 8)).take 8))

def extentsBad (l : List (Nat × Nat)) : Bool := l.any fun e => e.1 % 4096 ≠ 0 || e.2 % 4096 ≠ 0
def extentsLen (l : List (Nat × Nat)) : Nat := l.foldl (fun n e => n + e.2) 0

/-- Contribution of a migration slot. -/
def State.mslot (s : State) (p m : Nat) : Option Nat := (agetD (s.part p).mslots m {}).value

/-- Bytes of a partition's slice by offset, its poisoned lines, and the selectors modulo 4. -/
def State.sliceCells (s : State) (p : Nat) : List Host.Cell :=
  let r := (s.part p).cur
  (List.range r.spages).flatMap fun i =>
    let k := cellKey dramSpace (2 ^ 21 * (s.pageEnt (r.sbase + i)).ppn)
    (s.mem.bytes.filter fun c => k ≤ c.1 ∧ c.1 < k + 2 ^ 21).map fun c => (2 ^ 21 * i + (c.1 - k), c.2)

def State.slicePoison (s : State) (p : Nat) : List Nat :=
  let r := (s.part p).cur
  (List.range r.spages).flatMap fun i =>
    let k := cellKey dramSpace (2 ^ 21 * (s.pageEnt (r.sbase + i)).ppn)
    (s.mem.poison.filter fun l => k / 64 ≤ l ∧ l < (k + 2 ^ 21) / 64).map fun l => i * 2 ^ 15 + (l - k / 64)

/-- SALT: 16 bytes of the DRBG. -/
def State.saltBytes (s : State) : List Byte := leBytes 8 s.freeVal ++ leBytes 8 s.bump.freeVal

/-- The image of a frozen instance under the image key of its contribution and salt (R402-R404). -/
def State.imageBytes (s : State) (p m : Nat) : List Byte :=
  let n := (s.part p).imgSeed
  imageOf (imageKey ((s.mslot p m).getD 0) 1 s.saltBytes) (imageHdr p m (s.fn (4 + p)).gen n s.saltBytes) (imageRecs n)

/-- Write bytes over extents. -/
def writeExtents (s : State) (f : Nat) (l : List (Nat × Nat)) (bs : List Byte) : State :=
  match l with
  | [] => s
  | (a, n) :: t => writeExtents (if bs = [] then s else s.hostWrite f a (bs.take n)) f t (bs.drop n)

/-- Go on once ranges can be used; a command that waits for a page has been taken, and is journalled (R391). -/
def State.withTaken (s : State) (f id p opcode : Nat) (r : List (Nat × Nat × Bool)) (k : State → State) : State :=
  if r.any fun x => (s.missing f x.1 x.2.1 x.2.2).isSome then s.partCmd f id opcode p [] [] fun s => s.withHost f id r k else k s

/-- Read the extent list of a save or restore; refused or poisoned memory ends the command. -/
def State.withExtents (s : State) (f id p opcode addr n : Nat) (wr : Bool) (l : List Status) (k : List (Nat × Nat) → State → State) : State :=
  let l := l ++ ck (n = 0 ∨ 4096 < n) .range
  if l ≠ [] then s.partCmd f id opcode p [] l fun s => s
  else
    s.withTaken f id p opcode [(addr, 16 * n, false)] fun s =>
      if (s.locPoison f false addr (16 * n)).isSome then s.partCmd f id opcode p [] [.poison] fun s => s
      else
        let ext := extentsOf n (s.hostBytes f addr (16 * n))
        if extentsBad ext then s.partCmd f id opcode p [] [.range] fun s => s
        else s.withTaken f id p opcode (ext.map fun e => (e.1, e.2, wr)) (k ext)

def effPartSave (p addr n m : Nat) (f id : Nat) (s : State) : State :=
  let l := s.partPlace f id p
  let l := l ++ ck (4 ≤ m) .range ++ (if l = [] then ck ((s.part p).state ≠ .frozen) .state else [])
  s.withExtents f id p 0x403 addr n true l fun ext s =>
    s.partCmd f id 0x403 p [] (ck (extentsLen ext < (s.part p).imgLen) .range ++ ck ((s.mslot p m).isNone = true) .prot) fun s =>
      let bs := s.imageBytes p m
      let r := (s.part p).cur
      let im : Image := { bytes := bs, contrib := (s.mslot p m).getD 0, fn := s.fn (4 + p), spages := r.spages, slice := s.sliceCells p,
                          poison := s.slicePoison p, ksels := (List.range r.spages).map fun i => (s.pageEnt (r.sbase + i)).ksel % 4 }
      let salt := leNat s.saltBytes
      let s := writeExtents { s with images := s.images ++ [im] }.bump.bump f ext bs
      let s := s.modPart p fun x => { x with saved := true }
      let s := s.jCommit (s.originOf f) (jKey 10 p m .ok 0 0 0 1 0 salt)
      s.partEnd f id p .ok bs.length 0

/-- R402: PART_SAVE. -/
def execPartSave (e : Entry) (part addr len slot : Nat) (s : State) : Host.Outcome State Fault Refusal :=
  .next (s.startEntry e 0x403 len1 (.partSave e part addr len slot) (effPartSave part addr len slot e.fn.idx))

/-- Read bytes over extents. -/
def State.readExtents (s : State) (f : Nat) (l : List (Nat × Nat)) : List Byte := l.flatMap fun e => s.hostBytes f e.1 e.2

/-- What an image that another device wrote holds, by its bytes and the contribution it was bound to. The manual leaves the bodies of its
records to the device (R404; DEDUCED, log 39). -/
opaque foreignImage : List Byte → Nat → Option Image

/-- An image of this device with its header and first record as they were written, and something after them changed. -/
def Image.begins (i : Image) (img : List Byte) : Bool :=
  let n := 96 + leNat ((i.bytes.drop 72).take 4)
  decide (n ≤ i.bytes.length ∧ i.bytes.take n = img.take n)

/-- The records of an image's bytes: header, ciphertext, tag. -/
def imageParse (fuel : Nat) (l : List Byte) : List (List Byte × List Byte × List Byte) :=
  match fuel with
  | 0 => []
  | fuel + 1 =>
    let n := leNat ((l.drop 8).take 4)
    if l = [] then [] else (l.take 16, (l.drop 16).take n, (l.drop (16 + n)).take 16) :: imageParse fuel (l.drop (32 + n))

/-- TYPE of a record's header. -/
def recType (h : List Byte) : Nat := leNat ((h.drop 4).take 2)

/-- Record i has the next number, a length in its range, zero reserved bytes, and its tag. -/
def recGood (key : BitVec 256) (hdr : List Byte) (i : Nat) (r : List Byte × List Byte × List Byte) : Bool :=
  let n := r.2.1.length
  decide (r.1 = recHdr i (recType r.1) n ∧ 1 ≤ n ∧ n ≤ 1048576 ∧ r.2.2 = gcmTag key (recIv i) (hdr ++ r.1) r.2.1)

/-- The key an image's salt asks for under a contribution. -/
def imgKey (img : List Byte) (v : Nat) : BitVec 256 := imageKey v 1 ((img.drop 16).take 16)

/-- HTAG and the tag of the PARTITION record (R405). -/
def imageHead (img : List Byte) (v : Nat) (recs : List (List Byte × List Byte × List Byte)) : Bool :=
  let key := imgKey img v
  (img.drop 48).take 16 = gcmTag key (recIv 0xFFFFFFFF) (img.take 48) [] &&
  (match recs with | r :: _ => recGood key (img.take 48) 0 r && recType r.1 = 1 | [] => false)

/-- The later records: tags, consecutive RECNO, END last with matching NREC (R405). -/
def imageTail (img : List Byte) (v : Nat) (recs : List (List Byte × List Byte × List Byte)) : Bool :=
  let key := imgKey img v
  let n := recs.length
  n = leNat ((img.drop 36).take 4) && ((List.range n).zip recs).all (fun r => recGood key (img.take 48) r.1 r.2 && (decide (recType r.2.1 = 0xFFFF) == decide (r.1 + 1 = n))) &&
  (match recs.getLast? with | some r => gcmXor key (recIv (n - 1)) r.2.1 = leBytes 4 n | none => false)

/-- A record of a reserved TYPE (R404). -/
def imageReserved (recs : List (List Byte × List Byte × List Byte)) : Bool :=
  recs.any fun r => let t := recType r.1; t = 0 || (12 < t && t ≠ 0xFFFF)

/-- What the image's bytes authenticate as under a contribution: its content, whether a TYPE is reserved, and whether its later records
authenticate (R403, R405). -/
def State.imageFor (s : State) (img : List Byte) (v : Nat) : Option (Image × Bool × Bool) :=
  let recs := imageParse (img.length / 32 + 1) (img.drop 64)
  if imageHead img v recs then
    let i := match s.images.find? fun i => i.contrib = v && i.bytes = img with
      | some i => i
      | none => match s.images.find? fun i => i.contrib = v && i.begins img with
        | some i => i
        | none => (foreignImage img v).getD ⟨img, v, {}, 0, [], [], []⟩
    some (i, imageReserved recs, imageTail img v recs)
  else none

/-- PART_CUR covers the image's uses (R405). -/
def State.covers (s : State) (p : Nat) (im : Image) : Bool :=
  let r := (s.part p).cur
  let x := im.fn
  decide (topKey x.rings (fun y => y.state ≠ .free) ≤ r.rings ∧ topKey x.conns (fun y => y.state ≠ .free) ≤ r.conns ∧
    topKey x.wins (fun y => y.state ≠ .closed) ≤ r.windows ∧ topKey x.tallies (fun _ => true) ≤ r.tallies ∧
    topKey x.herds (fun y => y.state ≠ .free) ≤ r.herds ∧
    x.mlists.foldl (fun n y => n + y.2.uq + y.2.posted.length) 0 ≤ r.precv ∧ im.spages ≤ r.spages)

/-- Load an image (R405): the instance, its slice under the destination selectors, its generation. Operations keep their numbers, and new
ones come after them. -/
def State.imageLoad (s : State) (p : Nat) (im : Image) : State :=
  let f := 4 + p
  let cur := s.fn f
  let r := (s.part p).cur
  let pages := (List.range im.spages).foldl (fun t i => amod t (r.sbase + i) {} fun e => { e with ksel := 4 * p + im.ksels.getD i 0 }) s.mem.pages
  let s := { s with mem := { s.mem with pages := pages } }.sliceClear p
  let s := im.slice.foldl (fun (s : State) c => s.sliceWrite f c.1 [c.2]) s
  let bad := im.poison.map fun l => (cellKey dramSpace (s.slicePhys f (l * 64))) / 64
  let s := { s with mem := { s.mem with poison := s.mem.poison ++ bad } }
  let next := im.fn.ops.foldl (fun n o => max n (o.id + 1)) im.fn.nextOp
  let s := s.setFn f { im.fn with nextOp := next, msix := cur.msix, msixPba := cur.msixPba, cnt := cur.cnt, aborts := cur.aborts, abortAt := cur.abortAt,
                                  ats := { cur.ats with reqs := [], batch := [], closed := [] },
                                  launches := im.fn.launches.map fun l => (l.1, { l.2 with copies := l.2.copies.map fun c => (c.1, { c.2 with block := none }) }) }
  s.modPart p fun x => { x with state := .frozen, clean := false, saved := false, restored := true, restoreOp := none }

/-- The image of these extents is checked and loaded (R403, R405). -/
def State.restoreFrom (s : State) (f id p m : Nat) (ext : List (Nat × Nat)) : State :=
  let bs := s.readExtents f ext
  let len := leNat ((bs.drop 40).take 8)
  let img := bs.take len
  let head := decide (leNat (bs.take 4) ≠ 0x4D495454 ∨ leNat ((bs.drop 4).take 2) ≠ 1 ∨ extentsLen ext < len ∨ len < 64)
  let found := match s.mslot p m with
    | some v => s.imageFor img v
    | none => none
  let bad := head = false ∧ (ext.any fun e => (s.locPoison f false e.1 e.2).isSome)
  let st : List Status :=
    if head then [.range] else if (s.mslot p m).isNone then [.prot] else if bad then [.poison] else
      match found with
      | none => [.auth]
      | some (i, rsv, _) =>
        if rsv ∨ s.covers p i = false then [.range]
        else if i.ksels.all (fun k => s.keyLive (4 * p + k)) = false then [.prot] else []
  s.partCmd f id 0x404 p [] st fun s =>
    match found with
    | none => s
    | some (_, _, false) => (s.sliceClear p).partEnd f id p .auth 0 0
    | some (i, _, true) =>
      let s := ((s.imageLoad p i).modPart p fun x => { x with imgLen := imageLen s.free, imgSeed := s.free }).bump
      let s := s.jCommit (s.originOf f) (jKey 11 p m .ok 0 0 0 1 0 (leNat ((bs.drop 16).take 16)))
      s.partEnd f id p .ok len 0

/-- A restore that has ended without loading an image leaves the partition ACTIVE. -/
def State.restoreBack (s : State) (f id p : Nat) : State :=
  if (s.op? f id).isNone ∧ (s.part p).restoreOp = some (f, id) then s.modPart p fun x => { x with state := .active, restoreOp := none } else s

/-- R405: PART_RESTORE. The partition is RESTORING from acceptance; a failure leaves it ACTIVE (R397). -/
def effPartRestore (p addr n m : Nat) (f id : Nat) (s : State) : State :=
  let l := s.partPlace f id p
  let x := s.part p
  let mine := x.state = .restoring ∧ x.restoreOp = some (f, id)
  let l := l ++ ck (4 ≤ m) .range ++ (if l = [] then ck (¬ mine ∧ (x.state ≠ .active ∨ x.clean = false ∨ x.apply.isSome = true)) .state else [])
  let s := if l = [] ∧ s.jrnl.full = false then s.modPart p fun x => { x with state := .restoring, restoreOp := some (f, id) } else s
  (s.withExtents f id p 0x404 addr n false l fun ext s => s.restoreFrom f id p m ext).restoreBack f id p

def execPartRestore (e : Entry) (part addr len slot : Nat) (s : State) : Host.Outcome State Fault Refusal :=
  .next (s.startEntry e 0x404 len1 (.partRestore e part addr len slot) (effPartRestore part addr len slot e.fn.idx))

/-! ### Thaw (R406) -/

/-- A connection of a thawed instance: a grant on the device that froze it; a resume handshake after a restore. -/
def State.thawConn (s : State) (f h : Nat) (restored : Bool) : State :=
  let c := s.conn f h
  let s := s.modConn f h fun c => { c with tm := { c.tm with progress := s.now, receipt := s.now, probeAt := s.now } }
  if ! restored then (if c.state.live then s.setGrant f h c.rx.gwin false else s)
  else if c.state.live then
    if c.tx.kepoch = 0xFFFF then s.exhaust f h
    else
      let s := s.modConn f h fun c =>
        { c with cid := { c.cid with resume := true, nonce := s.freeVal, peerDev := (s.devOf c.cid.peerIp).getD c.cid.peerDev },
                 rx := { c.rx with gstop := false, sentStop := false }, tm := { c.tm with synAt := s.now, synWait := s.rtoMin, synFirst := s.now, synPath := 0 } }
      let s := s.bump
      if s.fastPath (partOf f) c.cid.peerIp then (s.usePeer (s.conn f h).cid.peerDev).sendResume f h
      else s.askSlow c.cid.peerIp
  else if c.state = .connecting ∨ c.state = .slowpath then
    let s := s.modConn f h fun c => { c with tm := { c.tm with synAt := s.now, synWait := s.rtoMin, synFirst := s.now, synPath := 0 } }
    if c.cid.init = false then s.failConn f h .peerLost 0
    else if s.fastPath (partOf f) c.cid.peerIp then (s.modConn f h fun c => { c with state := .connecting }).sendSyn f h 0
    else (s.modConn f h fun c => { c with state := .slowpath }).askSlow c.cid.peerIp
  else s

/-- R406: rings, operations, copies, collectives, timers and doorbells go on. -/
def State.thaw (s : State) (p : Nat) : State :=
  let f := 4 + p
  let restored := (s.part p).restored
  let s := s.modPart p fun x => { x with state := .active, restored := false, saved := false }
  let s := s.modFn f fun x =>
    { x with herds := x.herds.map fun h => (h.1, { h.2 with hbAt := s.now, seen := h.2.seen.map fun y => (y.1, s.now) }),
             launches := x.launches.map fun l => (l.1, { l.2 with copies := l.2.copies.map fun c => (c.1, { c.2 with preempt := none }) }),
             rings := x.rings.map fun r => (r.1, { r.2 with sqPark := none, cqPark := none }), mbx := { x.mbx with park := none },
             conns := x.conns.map fun c => (c.1, { c.2 with tx := { c.2.tx with sendq := c.2.tx.sendq.map fun m => { m with park := none } } }) }
  -- parked channels translate again (R349)
  let s := (s.fn f).ops.foldl (fun (s : State) o => match o.park with
    | some (pg, wr) => o.chans.foldl (fun (s : State) c => s.askXlate f c.page c.wr) (s.askXlate f pg wr)
    | none => o.chans.foldl (fun (s : State) c => s.askXlate f c.page c.wr) s) s
  let s := ((s.fn f).conns.filter fun c => c.2.state ≠ .free).foldl (fun s c => s.thawConn f c.1 restored) s
  (s.fn f).rings.foldl (fun (s : State) r => match r.2.bell with
    | some t => (s.modRing f r.1 fun y => { y with bell := none }).doorbell f r.1 (some t)
    | none => s) s

def effPartThaw (p : Nat) (f id : Nat) (s : State) : State :=
  let l := s.partPlace f id p
  s.partCmd f id 0x405 p [] (if l = [] then ck ((s.part p).state ≠ .frozen ∨ (s.part p).saved = true ∨ (s.part p).apply.isSome = true) .state else l) fun s =>
    let n := if (s.part p).restored then ((s.fn (4 + p)).conns.filter fun c => c.2.state.live || c.2.state = .connecting || c.2.state = .slowpath).length
      else s.connCount (4 + p)
    (s.thaw p).partEnd f id p .ok 0 n

def execPartThaw (e : Entry) (part : Nat) (s : State) : Host.Outcome State Fault Refusal :=
  .next (s.startEntry e 0x405 len1 (.partThaw e part) (effPartThaw part e.fn.idx)).settle

/-! ### PART_QUERY (R392) -/

/-- Reported value of a partition state (R397). -/
def PartSt.code : PartSt → Nat
  | .empty => 0 | .active => 1 | .resizing => 2 | .resetting => 3 | .freezing => 4 | .frozen => 5 | .restoring => 6

def State.partRecord (s : State) (p : Nat) : List Byte :=
  let x := s.part p
  let f := 4 + p
  let y := s.fn f
  leBytes 1 x.state.code ++ leBytes 1 (bit x.clean + 2 * bit x.saved + 4 * bit x.apply.isSome) ++ leBytes 2 y.gen ++
  leBytes 4 (y.rings.filter fun r => r.2.state ≠ .free).length ++ leBytes 4 (s.connCount f) ++
  leBytes 4 (y.wins.filter fun w => w.2.state ≠ .closed).length ++ leBytes 4 y.tallies.length ++ leBytes 4 (s.precvUsed f) ++
  leBytes 2 (y.herds.filter fun h => h.2.state ≠ .free).length ++
  leBytes 2 (y.launches.foldl (fun n l => n + (l.2.copies.filter fun c => c.2.st = .parked).length) 0) ++ leBytes 4 (s.inflight f) ++
  leBytes 8 (if x.state = .frozen then x.imgLen else 0) ++ leBytes 24 0

/-- PART_QUERY is journalled as the other partition commands are; a poisoned or refused record write ends as R344 says. -/
def effPartQuery (p addr : Nat) (f id : Nat) (s : State) : State :=
  s.partCmd f id 0x406 p [] (s.partPlace f id p) fun s => s.writeRecord f id addr (s.partRecord p) 0

def execPartQuery (e : Entry) (part addr : Nat) (s : State) : Host.Outcome State Fault Refusal :=
  .next (s.startEntry e 0x406 len1 (.partQuery e part addr) (effPartQuery part addr e.fn.idx))

/-! ### PART_ADDR (R389) -/

/-- An address entry that a connection or a listener uses. -/
def State.addrUsed (s : State) (p i : Nat) : Bool :=
  let x := s.fn (4 + p)
  x.conns.any (fun c => c.2.state ≠ .free && c.2.cid.laddrIdx = i) || x.listeners.any fun l => l.laddrIdx = i

/-- Another valid entry with the same IP and tag rule on a shared port. -/
def State.addrClash (s : State) (p i : Nat) (e : AddrEntry) : Bool :=
  s.parts.any fun q => q.2.addrs.any fun a => ! (q.1 = p && a.1 = i) && a.2.valid && a.2.ip = e.ip && a.2.ports &&& e.ports ≠ 0 &&
    a.2.ven = e.ven && (! e.ven || a.2.vid = e.vid)

/-- A write to an entry: ignored while it is in use or would clash, journalled either way; a locked TDI enters ERROR (R434). -/
def State.addrWrite (s : State) (p : Nat) (o : Origin) (off width i old new : Nat) (e : AddrEntry) : State :=
  let e := { e with ports := e.ports &&& (s.part p).cur.ports }
  let bad := s.addrUsed p i || (e.valid && s.addrClash p i e)
  s.setupWrite o off width bad old new fun s => (s.tdiError p).modPart p fun x => { x with addrs := aset x.addrs i e }

def execPartAddrWrite (part : Fin 16) (o : Origin) (index ip vid pcp : Nat) (ven : Bool) (ports : Nat) (valid : Bool) (s : State) :
    Host.Outcome State Fault Refusal :=
  let p := part.val
  let i := index % 16
  .next (s.addrWrite p o (partOff p + 0x400 + 0x20 * i) 8 i ((s.addrEnt p i).word 0) (ipField ip % 2 ^ 64)
    { ip := ip % 2 ^ 128, vid := vid % 2 ^ 12, pcp := pcp % 8, ven := ven, ports := ports % 256, valid := valid })

/-! ### The quiet time after a save (R407) -/

def execQuietExpiry (part : Fin 16) (now : Nat) (s : State) : Host.Outcome State Fault Refusal :=
  let s := s.tick now
  .next (if (s.part part.val).quietTil ≤ s.now then s.modPart part.val fun x => { x with quietTil := 0, formerIps := [] } else s)

end Sys2Proof.Machine
end

