-- ==== Sys2Proof/Machine/Links.lean ====
section
/-!
DEFINITION. Links.lean: host read completions, resets of a link and of its functions, CXL.mem, snoops and the directory (R355-R369,
R378-R383, R491).
-/

namespace Sys2Proof.Machine

/-! ### Host reads (R380, R382, R491) -/

/-- A read is of an earlier generation, or its instance is being reset (R380). -/
def State.staleRead (s : State) (r : HRead) : Bool := r.gen ≠ (s.fn r.fn).gen || (s.fn r.fn).resetting

/-- A read's tag is free again. -/
def State.freeRead (s : State) (l : Nat) (r : HRead) : State :=
  s.modLink l fun x => { x with reads := x.reads.filter fun y => y.tag ≠ r.tag }

def State.modFifo (s : State) (q id : Nat) (g : FifoPkt → FifoPkt) : State :=
  s.modPort q fun x => { x with fifo := x.fifo.map fun e => if e.id = id then g e else e }

/-- The packet that waited for a read has no data: its message ends as R155 or R344 states, and it goes out as the abandon notice that
now stands under its PSN. -/
def State.readFails (s : State) (r : HRead) (poison : Bool) : State :=
  match (s.port r.port).fifo.find? fun e => e.id = r.fifo with
  | none => s
  | some e =>
    match e.conn, e.pkt with
    | some h, some p =>
      let mine := fun (x : Sent) => x.xpsn % 2 ^ 32 = p.psn && x.src ≠ .none
      let s := match (s.conn e.fn h).tx.sent.find? mine with
        | none => s
        | some x =>
          let st := if poison then Status.poison else refusedSt (! x.first)
          match x.for_ with
          | .coll i _ => (s.abandonMsg e.fn h x.msn st true).collBad e.fn i r.addr poison
          | _ => s.failSrc e.fn h x.for_ x.msn st r.addr true
      let ext := ((s.conn e.fn h).tx.sent.find? fun (x : Sent) => x.xpsn % 2 ^ 32 = p.psn).map fun x => x.ext
      s.modFifo r.port r.fifo fun y => { y with ready := true, poison := poison, pkt := some { p with ext := ext.getD p.ext, payload := [] } }
    | _, _ => s.modFifo r.port r.fifo fun y => { y with ready := true }

/-- R380: a completion is placed, or discarded when its generation is stale. A completion whose tag no read holds is ignored. -/
def State.hostReadCpl (s : State) (l tag : Nat) (data : List Byte) (reply : ReadReply) : State :=
  match (s.link l).reads.find? fun r => r.tag = tag with
  | none => s
  | some r =>
    let s := s.freeRead l r
    if s.staleRead r then s.modLink l fun x => { x with staleCpl := satAdd 0xFF x.staleCpl 1 }
    else match reply with
      | .ok => s.modFifo r.port r.fifo fun e => { e with ready := true, pkt := e.pkt.map fun p => { p with payload := data.take r.len } }
      | .poison => s.readFails r true
      | .urca => (s.readFails r false).refusedCount

/-- R382: a read of the current generation that nothing answered within CTO; one of a stale generation only frees its tag. -/
def State.readTimeout (s : State) (l tag : Nat) : State :=
  match (s.link l).reads.find? fun r => r.tag = tag ∧ r.at_ + s.ctoNs l ≤ s.now with
  | none => s
  | some r =>
    let stale := s.staleRead r
    let s := s.freeRead l r
    if stale then s
    else (((s.modLink l fun x => { x with cto := satAdd 0xFF x.cto 1 }).aer r.fn 14).readFails r false).refusedCount

def execCompletionTimeout (link : Fin 4) (tag now : Nat) (s : State) : Host.Outcome State Fault Refusal :=
  .next ((s.tick now).readTimeout link.val tag).settle

/-! ### Resets (R378, R379, R608) -/

def State.journalLink (s : State) (event l fn : Nat) : State :=
  s.jMust (.host ⟨l % 4, Nat.mod_lt _ (by decide)⟩ fn) (.link event l fn)

/-- R378: an FLR of VF v is an instance reset of partition v, if the VF is this link's. -/
def execVfFlr (link : Fin 4) (part : Fin 16) (s : State) : Host.Outcome State Fault Refusal :=
  let p := part.val
  let l := link.val
  .next (if (s.part p).state = .empty ∨ (s.part p).cur.link ≠ l then s else ((s.journalLink 1 l (p + 1)).tdiReset p).settle)

/-- A link that trains without CXL holds no line, and no line of device DRAM is tracked for it (R356). -/
def State.noCxl (s : State) (l : Nat) : State :=
  let s := s.dropLink l
  { s with mem := { s.mem with dir := s.mem.dir.filter fun e => e.1 ≠ l } }

/-- What a PF FLR and a DL_Down of a link share (R379): the physical function's rings are reset and its generation advances (R608). -/
def State.linkReset (s : State) (l : Nat) : State :=
  let s := ((List.range 16).filter fun p => (s.part p).state ≠ .empty ∧ (s.part p).cur.link = l).foldl (fun s p => s.instReset p) s
  let s := (s.fnReset l false).modFn l fun x => { x with gen := nextGen x.gen }
  (s.modLink l fun x => { x with vfEnable := false }).noCxl l

def execPfFlr (link : Fin 4) (s : State) : Host.Outcome State Fault Refusal :=
  .next ((s.journalLink 2 link.val 0).linkReset link.val).settle

/-- The data link goes down. -/
def State.linkDown (s : State) (l : Nat) : State :=
  ((s.journalLink 3 l 0).linkReset l).modLink l fun x => { x with up := false, speed := 0, width := 0, cxl := false }

def execLinkDlDown (link : Fin 4) (s : State) : Host.Outcome State Fault Refusal :=
  .next ((s.linkDown link.val).report (72 + link.val) 0xFF 0x51 (link.val + 3 * 2 ^ 8)).settle

/-- R356: training ends; CXL only where the host enables it. -/
def execLinkUp (link : Fin 4) (speed width : Nat) (cxl : Bool) (s : State) : Host.Outcome State Fault Refusal :=
  let l := link.val
  .next (if speed = 0 ∨ 6 < speed ∨ width = 0 ∨ 16 < width ∨ (s.link l).perst ∨ (s.link l).disabled ∨ ! (s.link l).detect ∨ ! s.powered ∨ s.mgmt.recovery then s
    else (if cxl then s.journalLink 4 l 0 else (s.journalLink 4 l 0).noCxl l).modLink l fun x => { x with up := true, speed := speed, width := width, cxl := cxl })

/-- VF Enable of a link (R357). -/
def execVfEnableWrite (link : Fin 4) (on : Bool) (s : State) : Host.Outcome State Fault Refusal :=
  .next (if s.mgmt.sa ∧ on then s else s.modLink link.val fun x => { x with vfEnable := on })

/-! ### CXL.mem and the directory (R367-R369) -/

/-- The page entry that serves a host-physical offset, if R367 is met: partition, offset. -/
def State.cxlServes (s : State) (l h : Nat) : Bool :=
  let p := h / 2 ^ 34
  let off := h % 2 ^ 34
  let r := (s.part p).cur
  let e := s.pageEnt (r.sbase + off / 2 ^ 21)
  (s.link l).cxl && s.memEn l && decide (h < 2 ^ 38) && r.holds && decide (r.link = l) && decide (off < 2 ^ 21 * r.spages) && e.host &&
  s.keyLive e.ksel && ! s.err.fatal

/-- The physical address of a host-physical offset. -/
def State.cxlPhys (s : State) (h : Nat) : Nat := s.slicePhys (4 + h / 2 ^ 34) (h % 2 ^ 34) / 64 * 64

/-- Forget a tracked line: BISnp goes out (R369). -/
def State.biSnp (s : State) (e : Nat × Nat) : State :=
  { s with mem := { s.mem with dir := s.mem.dir.filter fun x => x ≠ e } }.emit (.biSnp e.1 (e.2 * 64))

/-- Entries of the directory. -/
def dirSize : Nat := 1048576

/-- Track a line; a full directory recalls its oldest line first. -/
def State.track (s : State) (l line : Nat) : State :=
  if s.mem.dir.contains (l, line) then s else
    let s := match s.mem.dir with
      | e :: _ => if dirSize ≤ s.mem.dir.length then s.biSnp e else s
      | [] => s
    { s with mem := { s.mem with dir := s.mem.dir ++ [(l, line)] } }

def State.cxlRefuse (s : State) (l : Nat) : State := s.modLink l fun x => { x with memRef := satAdd 0xFFFF x.memRef 1 }

/-- R367, R368: one line is read; a poisoned line goes out as zeros with Poison set (R491). -/
def execCxlMemRead (link : Fin 4) (addr : Nat) (s : State) : Host.Outcome State Fault Refusal :=
  let l := link.val
  .next (if s.cxlServes l addr then
      let a := s.cxlPhys addr
      let s := s.track l (a / 64)
      let bad := (s.mem.firstPoison (cellKey dramSpace a) 64).isSome
      s.emit (.memData l addr bad (if bad then List.replicate 64 0 else cellsGet s.mem.bytes (cellKey dramSpace a) 64))
    else (s.cxlRefuse l).emit (.memData l addr true (List.replicate 64 0)))

/-- R367, R368: one line is written. The host that writes keeps what it holds of the line. -/
def execCxlMemWrite (link : Fin 4) (addr : Nat) (data : List Byte) (s : State) : Host.Outcome State Fault Refusal :=
  let l := link.val
  .next (if s.cxlServes l addr then
      let a := s.cxlPhys addr
      { s with mem := (s.mem.touch a 64).write (cellKey dramSpace a) (data.take 64) }.emit (.memCmp l addr)
    else (s.cxlRefuse l).emit (.memCmp l addr))

/-- R365: the line cache answers a snoop; a modified line is written back, and an invalidating snoop drops the line. -/
def execHostSnoop (link : Fin 4) (addr : Nat) (inval : Bool) (s : State) : Host.Outcome State Fault Refusal :=
  let l := link.val
  let hit := fun (x : Line) => decide (x.link = l ∧ x.addr / 64 = addr / 64)
  let dirty := s.mem.lines.any fun x => hit x && x.dirty
  let s := s.modLines fun x => if inval then x.filter (fun y => ! hit y) else x.map fun y => if hit y then { y with dirty := false } else y
  .next (s.emit (.snoopRsp l (addr / 64 * 64) dirty))

/-- R369: BISnp of a tracked line and its BIRsp, with modified data if the host returns any. -/
def execDirectoryRecall (link : Fin 4) (addr : Nat) (dirty : Option (List Byte)) (s : State) : Host.Outcome State Fault Refusal :=
  let e := (link.val, addr / 64)
  .next (if s.mem.dir.contains e then
      let s := s.biSnp e
      match dirty with
      | some d => { s with mem := (s.mem.touch (addr / 64 * 64) 64).write (cellKey dramSpace (addr / 64 * 64)) (d.take 64) }
      | none => s
    else s)

/-- R365: clearing CACHE_EN writes back and drops every line of the link before the clear takes effect. -/
def execLineCacheDisable (link : Fin 4) (o : Origin) (s : State) : Host.Outcome State Fault Refusal :=
  let l := link.val
  let off := 0x1000008 + 0x10000 * l
  let old := s.reg off
  .next (s.setupWrite o off 8 false old (old - old % 2) fun s => (s.dropLink l).setReg off (old - old % 2))

end Sys2Proof.Machine
end

