-- ==== Sys2Proof/Machine/Keys.lean ====
section
/-!
DEFINITION. Keys.lean: key commands, tenant contributions, first contact, random numbers, SPDM, IDE and TDISP (R409-R434).
-/

namespace Sys2Proof.Machine

/-! ### Key commands (R426-R428) -/

/-- Take a key command: it is journalled as a key event, and ends BUSY while the journal is full (R426, R440). A refused one changes
nothing: SUB 0. -/
def State.keyCmd (s : State) (f id slot : Nat) (l : List Status) (k : State → State) : State :=
  if s.jrnl.full then s.endBusy f id
  else match pick l with
    | some st => (s.jCommit (s.originOf f) (jKey 0 (partOf f) slot st)).endOp f id st 0 0
    | none => k s

/-- Install a selector key (R332, R426). -/
def effKeySelSet (e : Entry) (sel tsel : Nat) (f id : Nat) (s : State) : State :=
  let p := partOf f
  let k := 4 * p + sel % 4
  let v := (agetD (s.part p).slots tsel {}).value
  s.keyCmd f id k
    (instAdminOnly e ++ ck (s.keyLive k = true) .state ++ ck (tsel ≠ 0xFF ∧ (7 < tsel ∨ v.isNone)) .prot ++ ck (s.noKeys = true) .internal)
    fun s =>
      let s := s.jCommit (s.originOf f) (jKey 3 p k .ok)
      let n := s.freeVal + 2 ^ 64 * s.bump.freeVal
      let s := { s.bump.bump with mem := { s.mem with keys := aset s.mem.keys k (if tsel = 0xFF then none else v, n) } }
      s.endOp f id .ok 0 0

def execKeySelSet (e : Entry) (sel tsel : Nat) (s : State) : Host.Outcome State Fault Refusal :=
  .next (s.startEntry e 0x480 len1 (.keySelSet e sel tsel) (effKeySelSet e sel tsel e.fn.idx))

/-- Some valid page entry names a selector (R332). -/
def State.selNamed (s : State) (k : Nat) : Bool := s.mem.pages.any fun x => x.2.valid && x.2.ksel = k

/-- Erase a selector key. -/
def effKeySelClear (e : Entry) (sel : Nat) (f id : Nat) (s : State) : State :=
  let p := partOf f
  let k := 4 * p + sel % 4
  s.keyCmd f id k (instAdminOnly e ++ ck (s.keyLive k = false ∨ s.selNamed k = true) .state) fun s =>
    let s := s.jCommit (s.originOf f) (jKey 4 p k .ok)
    { s with mem := { s.mem with keys := adel s.mem.keys k } }.endOp f id .ok 0 0

def execKeySelClear (e : Entry) (sel : Nat) (s : State) : Host.Outcome State Fault Refusal :=
  .next (s.startEntry e 0x481 len1 (.keySelClear e sel) (effKeySelClear e sel e.fn.idx))

/-- R422: the sending direction advances; the command ends when the new epoch is in use (REKEY_KEY_INSTALLED). -/
def effKeyAdvance (e : Entry) (conn : Nat) (f id : Nat) (s : State) : State :=
  let h := conn % 2 ^ 20
  let c := s.conn f h
  s.keyCmd f id 0 (instAdminOnly e ++ ck (c.state ≠ .established ∨ c.cid.herd.isSome = true) .state ++
      ck (c.state = .established ∧ c.tx.kepoch = 0xFFFF) .exhausted)
    fun s => s.rekeyEnter f h

def execKeyAdvance (e : Entry) (conn : Nat) (s : State) : Host.Outcome State Fault Refusal :=
  .next (s.startEntry e 0x482 len1 (.keyAdvance e conn) (effKeyAdvance e conn e.fn.idx))

/-- The header of a blob (R427). -/
def blobHead (p slot plen : Nat) (iv : List Byte) : List Byte :=
  leBytes 4 0x4C535454 ++ leBytes 1 1 ++ leBytes 1 slot ++ leBytes 1 p ++ leBytes 1 0 ++ iv ++ leBytes 4 plen ++ leBytes 8 0

/-- A blob: header, ciphertext, tag; bytes 0 to 31 are the additional data. -/
def blobOf (p slot v : Nat) (iv pt : List Byte) : List Byte :=
  let head := blobHead p slot pt.length iv
  head ++ gcmSeal (sealKey p slot v) (beNat iv) head pt

/-- The pages a local range to be read and one to be written wait for; then the data, or POISON. -/
def State.sealIo (s : State) (f id : Nat) (ispace ospace : Bool) (src len dst olen : Nat) (k : List Byte → State → State) : State :=
  match s.locMiss f ispace src len false, s.locMiss f ospace dst olen true with
  | some pg, _ => s.parkOp f id pg false
  | none, some pg => s.parkOp f id pg true
  | none, none =>
    match s.locPoison f ispace src len with
    | some a => (s.jCommit (s.originOf f) (jKey 0 (partOf f) 0 .poison)).endOp f id .poison 0 (granuleDetail a)
    | none => k (s.locRead f ispace src len) (s.locUse f ispace src len)

/-- R427: seal. -/
def effKeySeal (e : Entry) (slot : Nat) (ispace ospace : Bool) (src dst len : Nat) (f id : Nat) (s : State) : State :=
  let p := partOf f
  let x := agetD (s.part p).slots slot {}
  s.keyCmd f id slot (instAdminOnly e ++ ck (2 ^ 24 < len) .range ++ s.locCheck f ispace src len ++ s.locCheck f ospace dst (len + 48) ++
      ck (7 < slot ∨ x.value.isNone = true) .prot ++ ck (slot ≤ 7 ∧ x.value.isSome = true ∧ 2 ^ 32 ≤ x.seals) .exhausted ++
      ck (s.noKeys = true) .internal)
    fun s => s.sealIo f id ispace ospace src len dst (len + 48) fun pt s =>
      let iv := s.openBytes 12
      let s := s.bump.jCommit (s.originOf f) (jKey 0 p slot .ok)
      let s := s.modPart p fun y => { y with slots := aset y.slots slot { x with seals := x.seals + 1 } }
      (s.locWrite f ospace dst (blobOf p slot (x.value.getD 0) iv pt)).endOp f id .ok (len + 48) 0

def execKeySeal (e : Entry) (slot : Nat) (ispace ospace : Bool) (src dst len : Nat) (s : State) : Host.Outcome State Fault Refusal :=
  .next (s.startEntry e 0x483 len1 (.keySeal e slot ispace ospace src dst len) (effKeySeal e slot ispace ospace src dst len e.fn.idx))

/-- A blob's header matches (R427). -/
def blobFits (p len : Nat) (b : List Byte) : Bool :=
  decide (leNat (b.take 4) = 0x4C535454) && decide (leNat ((b.drop 4).take 1) = 1) && decide (leNat ((b.drop 6).take 1) = p) &&
  decide (leNat ((b.drop 20).take 4) + 48 = len)

/-- R425, R427: unseal. The plaintext is written as it is decrypted; when the tag fails, the output area is zero before the command ends
AUTH. -/
def effKeyUnseal (e : Entry) (slot : Nat) (ispace ospace : Bool) (src dst len : Nat) (f id : Nat) (s : State) : State :=
  let p := partOf f
  let x := agetD (s.part p).slots slot {}
  s.keyCmd f id slot (instAdminOnly e ++ ck (len < 48 ∨ 2 ^ 24 + 48 < len) .range ++ s.locCheck f ispace src len ++ s.locCheck f ospace dst (len - 48) ++
      ck (7 < slot ∨ x.value.isNone = true) .prot ++ ck (s.noKeys = true) .internal)
    fun s => s.sealIo f id ispace ospace src len dst (len - 48) fun b s =>
      if ! blobFits p len b then (s.jCommit (s.originOf f) (jKey 0 p slot .range)).endOp f id .range 0 0
      else
        let key := sealKey p slot (x.value.getD 0)
        let iv := beNat ((b.drop 8).take 12)
        let ct := (b.take (len - 16)).drop 32
        if gcmTag key iv (b.take 32) ct = b.drop (len - 16) then
          let s := s.jCommit (s.originOf f) (jKey 0 p slot .ok)
          (s.locWrite f ospace dst (gcmXor key iv ct)).endOp f id .ok (len - 48) 0
        else
          let s := s.jCommit (s.originOf f) (jKey 0 p slot .auth)
          (s.locWrite f ospace dst (List.replicate (len - 48) 0)).endOp f id .auth 0 0

def execKeyUnseal (e : Entry) (slot : Nat) (ispace ospace : Bool) (src dst len : Nat) (s : State) : Host.Outcome State Fault Refusal :=
  .next (s.startEntry e 0x484 len1 (.keyUnseal e slot ispace ospace src dst len) (effKeyUnseal e slot ispace ospace src dst len e.fn.idx))

/-- A mask over slots. -/
def slotMask (m : AMap Slot) (n : Nat) (g : Slot → Bool) : Nat :=
  (List.range n).foldl (fun v i => v + bit (g (agetD m i {})) * 2 ^ i) 0

/-- Selectors 4p to 4p + 3 that hold a key. -/
def State.selMask (s : State) (p : Nat) : Nat := (List.range 4).foldl (fun v i => v + bit (s.keyLive (4 * p + i)) * 2 ^ i) 0

/-- Connections other than FREE without a contribution (R428). -/
def State.bareConns (s : State) (f : Nat) : Nat := ((s.fn f).conns.filter fun c => c.2.state ≠ .free && c.2.cid.tc.isNone).length

/-- R428: the record. -/
def State.keyRecord (s : State) (p : Nat) : List Byte :=
  let x := s.part p
  leBytes 1 (slotMask x.slots 8 fun y => y.value.isSome) ++ leBytes 1 (slotMask x.slots 8 fun y => y.spent) ++
  leBytes 1 (slotMask x.mslots 4 fun y => y.value.isSome) ++ leBytes 1 (s.selMask p) ++ leBytes 1 x.tdi ++ leBytes 1 (bit s.notc) ++
  leBytes 2 0 ++ leBytes 8 Config.devId.toNat ++ leBytes 4 (s.bareConns (4 + p)) ++ leBytes 44 0

def effKeyStatus (e : Entry) (addr : Nat) (f id : Nat) (s : State) : State :=
  s.keyCmd f id 0 (instAdminOnly e) fun s => s.withHost f id [(addr, 64, true)] fun s =>
    (s.jCommit (s.originOf f) (jKey 0 (partOf f) 0 .ok)).writeRecord f id addr (s.keyRecord (partOf f)) 0

def execKeyStatus (e : Entry) (addr : Nat) (s : State) : Host.Outcome State Fault Refusal :=
  .next (s.startEntry e 0x485 len1 (.keyStatus e addr) (effKeyStatus e addr e.fn.idx))

/-! ### SPDM requests: contributions, sessions, measurements, IDE keys (R414, R432, R433) -/

/-- A session is open at an endpoint. -/
def State.session (s : State) (ep : SpdmEnd) (id : Nat) : Bool := s.sec.sessions.contains (ep, id)

/-- The responder of an endpoint answers (R432): the firmware runs, and the function's configuration space is reached; in recovery the node on
the management bus still holds sessions, since FLASH_WRITE needs one (R524, R536). -/
def State.responds (s : State) (ep : SpdmEnd) : Bool :=
  match ep with
  | .bus => s.powered && (s.mgmt.running || s.mgmt.recovery)
  | .pf l => s.powered && s.mgmt.running && (s.link l.val).up
  | .vf _ => s.firmwareUp

/-- Requests to an endpoint that does not answer change nothing; the responder answers in its turn (R521). -/
def State.asked (s : State) (ep : SpdmEnd) (k : State → State) : State := if s.responds ep && s.fwTurn 4 then k s else s

/-- The conditions of R414 on the session a contribution request comes in. -/
def State.contribOpen (s : State) (p session : Nat) : Bool :=
  let x := s.part p
  s.session (.vf ⟨p % 16, Nat.mod_lt _ (by decide)⟩) session && x.cur.holds &&
  (((x.tdi = 1 || x.tdi = 2) && x.lockedBy = some session) || (x.tdi = 0 && s.openContrib))

/-- Answer an SPDM request. -/
def State.answer (s : State) (code : Nat) (st : Status) (value : List Nat) : State := s.emit (.spdm code st 0 value)

/-- Answer BUSY with a hint that the manual leaves open (R414, R440). -/
def State.answerBusy (s : State) (code : Nat) : State := (s.emit (.spdm code .busy s.hint [])).bump

/-- A contribution request: journalled, then done (R414). -/
def State.contrib (s : State) (code p session kind slot : Nat) (g : Slot) : State :=
  if s.jrnl.full then s.answerBusy code
  else if ! s.contribOpen p session then s.answer code .prot []
  else if 1 < kind ∨ (if kind = 0 then 8 else 4) ≤ slot then s.answer code .range []
  else
    let s := s.jCommit (s.originOf (4 + p)) (jKey code p slot .ok 0 0 0 kind)
    let s := s.modPart p fun x => if kind = 0 then { x with slots := aset x.slots slot g } else { x with mslots := aset x.mslots slot g }
    s.answer code .ok []

def execContribSet (part : Fin 16) (session kind slot value : Nat) (s : State) : Host.Outcome State Fault Refusal :=
  .next (s.asked (.vf part) fun s => s.contrib 1 part.val session kind slot { value := some (value % 2 ^ 256) })

def execContribClear (part : Fin 16) (session kind slot : Nat) (s : State) : Host.Outcome State Fault Refusal :=
  .next (s.asked (.vf part) fun s => s.contrib 2 part.val session kind slot {})

/-- The function an endpoint belongs to, as a requester. -/
def State.endOrigin (s : State) (ep : SpdmEnd) : Origin :=
  match ep with
  | .pf l => .host l 0
  | .vf p => s.originOf (4 + p.val)
  | .bus => .bus (s.fld 0x3000040 0 8)

def endPart (ep : SpdmEnd) : Nat :=
  match ep with
  | .vf p => p.val
  | _ => 0

/-- A digest as the bytes hashed (R437). -/
def digestOf (l : List Byte) : Nat := (Config.sha384 (l.map fun b => b.toNat)).toNat

/-- PART_CUR words, address entries and TDI state of a partition (measurement 5, R432). -/
def State.partBytes (s : State) (p : Nat) : List Byte :=
  let x := s.part p
  (List.range 7).flatMap (fun i => leBytes 8 (x.cur.word i)) ++
  (List.range 16).flatMap (fun i => let a : AddrEntry := agetD x.addrs i {}
    (List.range 4).flatMap fun w => leBytes 8 (a.word w)) ++ leBytes 1 x.tdi

/-- A measurement block (R432). -/
def State.measurement (s : State) (ep : SpdmEnd) (i : Nat) : Option Nat :=
  if i = 1 ∨ i = 3 then some (Config.measured i 0).toNat
  else if i = 2 then some ((Config.measured 2 s.mgmt.image).toNat / 2 ^ 16 * 2 ^ 16 + s.mgmt.svn % 2 ^ 16)
  else if i = 4 then some (digestOf (leBytes 8 s.jrnl.next ++ chainBytes s.jrnl.chain))
  else match ep with
    | .vf p => if i = 5 then some (digestOf (s.partBytes p.val)) else if i = 6 then some (digestOf ((s.keyRecord p.val).take 8)) else none
    | _ => none

/-- An SPDM request is answered (R432, R433). -/
def State.spdm (s : State) (ep : SpdmEnd) (r : SpdmReq) : State :=
  match r with
  | .openSession =>
    let n := (s.sec.sessions.filter fun x => x.1 = ep).length
    if s.jrnl.full ∨ 4 ≤ n then s.answerBusy 3
    else if s.noKeys then s.answer 3 .internal []
    else
      let id := s.sec.nextSess
      let s := s.jCommit (s.endOrigin ep) (jKey 12 (endPart ep) 0 .ok)
      { s with sec := { s.sec with sessions := s.sec.sessions ++ [(ep, id)], nextSess := id + 1 } }.answer 3 .ok [id]
  | .closeSession id =>
    if ! s.session ep id then s.answer 4 .state []
    else if s.jrnl.full then s.answerBusy 4
    else
      let s := s.jCommit (s.endOrigin ep) (jKey 13 (endPart ep) 0 .ok)
      { s with sec := { s.sec with sessions := s.sec.sessions.filter fun x => x ≠ (ep, id) } }.answer 4 .ok []
  | .measurement i =>
    match s.measurement ep i with
    | some d => s.answer 5 .ok [d]
    | none => s.answer 5 .range []
  | .ideKey l stream =>
    if ep ≠ .pf l ∨ ! s.sec.sessions.any (fun x => x.1 = ep) then s.answer 6 .prot []
    else if 18 < stream then s.answer 6 .range []
    else if s.jrnl.full then s.answerBusy 6
    else
      let s := s.jCommit (s.endOrigin ep) (jKey 14 0 stream .ok)
      let s := s.modLink l.val fun x =>
        { x with ideKeys := if x.ideKeys.contains stream then x.ideKeys else x.ideKeys ++ [stream], ideBad := x.ideBad.filter fun y => y ≠ stream }
      s.answer 6 .ok []

def execSpdmRequest (ep : SpdmEnd) (r : SpdmReq) (s : State) : Host.Outcome State Fault Refusal := .next (s.asked ep fun s => s.spdm ep r)

/-- R433: stream 0 is the link stream, 1 the PF's, 2 + v that of VF v and 18 that of CXL.cache and CXL.mem, to which no TDI is bound (DESIGN CHOICE, log 170). The stream is Insecure, and every TDI bound to it enters ERROR. -/
def State.ideFail (s : State) (l stream : Nat) : State :=
  let s := s.modLink l fun x => { x with ideBad := if x.ideBad.contains stream then x.ideBad else x.ideBad ++ [stream] }
  ((List.range 16).filter fun p => (s.part p).cur.holds && (s.part p).cur.link = l && (stream = 0 || stream = 2 + p)).foldl
    (fun s p => s.tdiError p) s

def execIdeIntegrityFail (link : Fin 4) (stream : Nat) (s : State) : Host.Outcome State Fault Refusal := .next (s.ideFail link.val stream)

/-- R434: a TDISP request. -/
def State.tdisp (s : State) (p : Nat) (r : TdispReq) : State :=
  let x := s.part p
  if s.jrnl.full then s.answerBusy 7
  else match r with
    | .lock n =>
      if x.tdi = 0 ∧ s.session (.vf ⟨p % 16, Nat.mod_lt _ (by decide)⟩) n then
        ((s.tdiSet p 1).modPart p fun x => { x with lockedBy := some n }).answer 7 .ok []
      else s.answer 7 .state []
    | .start => if x.tdi = 1 then (s.tdiSet p 2).answer 7 .ok [] else s.answer 7 .state []
    | .stop => (s.tdiSet p 0).answer 7 .ok []

def execTdispRequest (part : Fin 16) (r : TdispReq) (s : State) : Host.Outcome State Fault Refusal :=
  .next (s.asked (.vf part) fun s => s.tdisp part.val r)

/-! ### First contact (R423, R424) -/

/-- First contact with an address has failed: connections that wait for it end as R140 states. -/
def State.contactFail (s : State) (ip : Nat) : State :=
  let s := { s with sec := { s.sec with contacts := s.sec.contacts.filter fun c => c.ip ≠ ip } }
  s.fns.foldl (fun (s : State) (f : Nat × FnState) =>
    (f.2.conns.filter fun c => c.2.state = .slowpath && c.2.cid.init && c.2.cid.peerIp = ip).foldl (fun s c => s.connFail f.1 c.1 .peerLost 0) s) s

/-- The pair root is there: the device has an entry (R424), made journalled. -/
def State.pairUp (s : State) (ip dev : Nat) : State :=
  let s := { s with sec := { s.sec with contacts := s.sec.contacts.filter fun c => c.ip ≠ ip } }
  if s.sec.peers.any fun p => p.dev = dev then (s.learnMap ip dev).usePeer dev
  else
    let room := if 8192 ≤ s.sec.peers.length then s.evictPeer else some s
    match room with
    | none => s.contactFail ip
    | some s =>
      let s := s.jCommit .firmware (jKey 7 0 0 .ok 0 0 0 0 dev)
      let p : Peer := { dev := dev, sess := s.free }
      { s.bump with sec := { s.sec with peers := s.sec.peers ++ [p] } }.learnMap ip dev

/-- Both devices have started at once: the session of the device with the lower DEVID continues, so the peer's is abandoned where this device's is
lower (R409, R423). -/
def State.rival (s : State) (ip dev : Nat) (x : ContactProof) : Bool :=
  x.opens && s.sec.contacts.any (fun c => c.ip = ip && c.mine) && decide (devNum ownDev < devNum dev)

/-- Whose session goes on at an address: a datagram that starts one makes it the peer's. -/
def State.contactMine (s : State) (ip : Nat) (x : ContactProof) : Bool :=
  ! x.opens && (match s.sec.contacts.find? fun (c : Contact) => c.ip = ip with | some c => c.mine | none => false)

/-- The sequence number of an answer. -/
def State.contactSeq (s : State) (ip : Nat) : Nat :=
  match s.sec.contacts.find? fun (c : Contact) => c.ip = ip with | some c => c.seq + 1 | none => 0

/-- R423: the peer is accepted, by its chain and its firmware security version. -/
def State.contactOk (s : State) (x : ContactProof) : Bool := x.chain && decide (s.minSvn ≤ x.svn)

/-- R423: a datagram from a peer, the last one of the agreement or one that is answered. -/
def State.contactIn (s : State) (ip dev : Nat) (x : ContactProof) (final : Bool) : State :=
  if ! s.firmwareUp ∨ ! s.fwTurn 3 then s
  else if s.rival ip dev x then s
  else if s.noKeys then s.contactFail ip
  else if ! s.contactOk x then s.contactFail ip
  else if final then (if s.jrnl.full then s else s.pairUp ip dev)
  else
    let c : Contact := ⟨ip, 0, s.now, s.contactSeq ip, s.contactMine ip x⟩
    let l := s.sec.contacts.filter fun y => y.ip ≠ ip
    { s with sec := { s.sec with contacts := l ++ [c] } }.sayTo ip c.seq

def execFirstContactDatagram (peerIp peerDev : Nat) (ok : ContactProof) (final : Bool) (now : Nat) (s : State) : Host.Outcome State Fault Refusal :=
  .next ((s.tick now).contactIn peerIp peerDev ok final).settle

/-- A datagram unanswered for 1 ms goes again, at most 8 times. -/
def State.contactRetry (s : State) (ip : Nat) : State :=
  if ! s.firmwareUp ∨ ! s.fwTurn 3 then s else
  match s.sec.contacts.find? fun c => c.ip = ip ∧ c.at_ + 1000000 ≤ s.now with
  | none => s
  | some c =>
    if 8 ≤ c.tries then s.contactFail ip
    else
      let up := fun (x : Contact) => if x.ip = ip then { x with tries := x.tries + 1, at_ := s.now } else x
      { s with sec := { s.sec with contacts := s.sec.contacts.map up } }.sayTo ip c.seq

def execFirstContactRetry (peerIp now : Nat) (s : State) : Host.Outcome State Fault Refusal :=
  .next ((s.tick now).contactRetry peerIp).settle

/-- R43, R420: the derivation unit makes the receiver's next key, in its turn. -/
def execRxNextKeyDerived (fn : Fn) (conn : Nat) (s : State) : Host.Outcome State Fault Refusal :=
  .next (if (s.conn fn.idx conn).rx.nextKey = 1 ∧ ! s.noKeys ∧ s.deriveTurn fn.idx conn true then
      (s.deriveDone fn.idx conn true).modConn fn.idx conn fun c => { c with rx := { c.rx with nextKey := 2 } }
    else s)

/-! ### Random numbers (R430, R431) -/

/-- R431: three failed windows in a row fail the source: journalled, and a fatal chip error. A good window while the DRBG instantiates
seeds it. -/
def State.entropy (s : State) (ok : Bool) : State :=
  if ok then { s with sec := { s.sec with badRun := 0, drbg := if s.sec.drbg = 0 ∧ ! s.sec.failed then 1 else s.sec.drbg } }
  else
    let n := s.sec.badRun + 1
    let s := { s with sec := { s.sec with badRun := n, badWins := s.sec.badWins + 1 } }
    if 3 ≤ n ∧ ! s.sec.failed then
      ({ s with sec := { s.sec with failed := true } }.jMust .firmware (jKey 16 0 0 .internal)).report 0xFF 0xFF 0x31 n
    else s

def execEntropyWindowEnd (ok : Bool) (s : State) : Host.Outcome State Fault Refusal := .next (s.entropy ok)

/-- R430: a reseed; after the source has failed, the DRBG serves nothing from here on. -/
def execDrbgReseed (now : Nat) (s : State) : Host.Outcome State Fault Refusal :=
  let s := s.tick now
  .next { s with sec := { s.sec with reseedAt := s.now, drbg := if s.sec.failed then 2 else s.sec.drbg } }

end Sys2Proof.Machine
end

