-- ==== Sys2Proof/Machine/Failures.lean ====
section
/-!
DEFINITION. Failures.lean: ports that go down and come up, fences, fatal errors, error records and their actions, health (R444-R446,
R457-R473, R488, R538).
-/

namespace Sys2Proof

/-! ### Reports and records (R465-R467) -/

/-- The syndrome of a report. -/
def ErrReport.syn (r : ErrReport) : Nat := r.code % 2 ^ 16 + r.info % 2 ^ 48 * 2 ^ 16
/-- The unit ID of a report. -/
def ErrReport.unit (r : ErrReport) : Nat := r.block % 256 * 256 + r.cell % 256
/-- The key of a record (R467): blocks by number, region n at 0xF0 + n, the chip at 0xFF. -/
def RecRef.key : RecRef → Nat
  | .chip => 0xFF | .region n => 0xF0 + n.val | .block b => b

/-- The offset of a record (R473). -/
def RecRef.off : RecRef → Nat
  | .chip => 0x1C00100 | .region n => 0x1C00200 + 0x40 * n.val | .block b => 0x1C01000 + 0x40 * b

end Sys2Proof

namespace Sys2Proof.Machine

/-! ### Health (R538) -/

/-- A region is fenced (R458 step 6). -/
def State.fenced (s : State) (n : Nat) : Bool := match aget s.err.fences n with | some x => x.done | none => false

/-- Every breakout port of a port is up and not DEGRADED. -/
def State.portFine (s : State) (q : Nat) : Bool :=
  (List.range (s.port q).bpCount).all fun k => (s.bp q k).up && ! (s.bp q k).degraded

/-- The cage of a port (R591). -/
def State.cage (s : State) (q : Nat) : Cage := agetD s.card.cages q {}
def State.modCage (s : State) (q : Nat) (g : Cage → Cage) : State := { s with card := { s.card with cages := amod s.card.cages q {} g } }

/-- Every cabled port is up: a port is cabled while its cage holds a module. -/
def State.cabledUp (s : State) : Bool := (List.range 8).all fun q => ! (s.cage q).present || s.portFine q

/-- The health state: 0 BOOTING, 1 OK, 2 DEGRADED, 3 FENCED, 4 FAILED, 5 RECOVERY. -/
def State.health (s : State) : Nat :=
  if s.err.fatal then 4
  else if s.mgmt.recovery then 5
  else if ! s.mgmt.running then 0
  else if (List.range 4).any s.fenced then 3
  else if ! s.cabledUp then (if s.mgmt.bootOk then 2 else 0)
  else if s.mgmt.shed then 2
  else 1

/-- The ID response that the node multicasts (R537, R538). -/
def State.idData (s : State) : List Nat := [Config.devId.toNat, s.health, s.mgmt.slot, s.mgmt.svn]

/-- A change of health is multicast (R538); BOOTING ends with the first OK. -/
def State.noteHealth (s : State) : State :=
  let h := s.health
  if h = s.mgmt.shown then s else
    let m := { s.mgmt with shown := h, bootOk := s.mgmt.bootOk || h = 1, okAt := if h = 1 then s.now else s.mgmt.okAt }
    let s := { s with mgmt := m }
    if m.short then s else s.emit (.busMulticast s.idData)

/-! ### Ports down and up (R444-R446, R160, R161) -/

/-- Every path of a connection that leaves by a breakout port. -/
def State.pathsBy (s : State) (c : Conn) (q k : Nat) : List Nat :=
  (List.range c.cid.paths).filter fun i => c.cid.pathPort i = q && s.bpOf q c.cid.portList.length i = k

/-- R445 for every connection. -/
def State.portLoses (s : State) (q k : Nat) : State :=
  let one := fun (c : Nat × Conn) => if c.2.state.live then (c.1, c.2.losePaths (s.pathsBy c.2 q k) s.now) else c
  { s with fns := s.fns.map fun (f : Nat × FnState) => (f.1, { f.2 with conns := f.2.conns.map one }) }

/-- A breakout port goes down: its link state is gone, its counters stay. -/
def Bp.downed (b : Bp) : Bp :=
  { ({} : Bp) with sheds := b.sheds, corr := b.corr, uncorr := b.uncorr, degrades := b.degrades, shedSeq := b.shedSeq, sagaN := b.sagaN, sagaAt := b.sagaAt,
                   sentBytes := b.sentBytes }

/-- Take a breakout port down, with an error at its port block (R444) and its INFO (R465). -/
def State.bpLost (s : State) (q k code info : Nat) : State :=
  if ! (s.bp q k).up then s else
    (((s.portLoses q k).modBp q k fun b => b.downed).report (64 + q) 0xFF code info).noteHealth

/-- The same where INFO names the port. -/
def State.bpDown (s : State) (q k code : Nat) : State := s.bpLost q k code q

/-- R444: a port declared down: LANE_LOST with the lane that is lost, PORT_FAULT for a fault that its PCS reports. -/
def execPortDown (port : Fin 8) (loss : PortLoss) (now : Nat) (s : State) : Host.Outcome State Fault Refusal :=
  .next (match loss.lane with
    | some l => (s.tick now).bpLost port.val loss.bp 0x20 l
    | none => (s.tick now).bpDown port.val loss.bp 0x21)

/-- The lanes of a breakout port of a mode (R495). -/
def modeLanes (mode : Nat) : Nat := if mode = 1 then 2 else if mode = 2 then 1 else 4

/-- R446: a port comes up on its full lanes, and offers shedding (R508, R509). -/
def State.bpUp (s : State) (q k lanes : Nat) : State :=
  let x := s.port q
  let full : Bool := match aget s.err.fences (q / 2) with | some y => y.done && y.full | none => false
  let no : Bool := decide (x.bpCount ≤ k) || decide (lanes ≠ modeLanes x.mode) || full || ! s.powered || s.err.fatal || s.mgmt.recovery || ! s.mgmt.running || (s.bp q k).up ||
    ! (s.cage q).present || ! (s.cage q).on || (s.cage q).lowpwr
  if no then s else
    let s := s.modBp q k fun b => { b.downed with up := true, lanes := lanes, upAt := s.now }
    let s := if s.fld (0xC00000 + 0x20000 * q) 4 1 = 1 then s.sayShed q k 1 0 lanes else s
    s.noteHealth

def execPortUp (port : Fin 8) (bp lanes : Nat) (s : State) : Host.Outcome State Fault Refusal := .next (s.bpUp port.val bp lanes)

/-! ### Error codes (R464, R465) -/

/-- A unit is a region's own or one of its blocks (R466). -/
def regionOfUnit (block : Nat) : Option Nat :=
  if block < 64 then some (block / 16)
  else if block < 72 then some ((block - 64) / 2)
  else if block < 76 then some (block - 72)
  else if block < 80 then some (block - 76)
  else if 82 ≤ block ∧ block < 86 then some (block - 82)
  else if 86 ≤ block ∧ block < 90 then some (block - 86)
  else if 0xF0 ≤ block ∧ block < 0xF4 then some (block - 0xF0)
  else none

/-- The severity of a code at a unit (R465). -/
def severity (code block : Nat) : Nat :=
  if code = 1 ∨ code = 3 ∨ code = 5 ∨ code = 0x10 then 0
  else if code = 2 ∨ code = 4 ∨ code = 6 ∨ code = 7 ∨ code = 8 ∨ code = 0x40 ∨ code = 0x50 then 1
  else if code = 0x31 ∨ code = 0x70 then 4
  else if code = 0x60 ∨ code = 0x61 then (if (regionOfUnit block).isSome then 3 else 4)
  else if 0x62 ≤ code ∧ code ≤ 0x66 then 3
  else 2


/-- The level of a unit, as an ERROR record gives it (R472): 0 cell, 1 block, 2 region, 3 chip. -/
def unitLevel (unit : Nat) : Nat :=
  if unit / 256 = 0xFF then 3 else if 0xF0 ≤ unit / 256 then 2 else if unit % 256 = 0xFF then 1 else 0


def State.rec_ (s : State) (k : Nat) : ErrRec := agetD s.err.recs k {}
def State.modRec (s : State) (k : Nat) (g : ErrRec → ErrRec) : State := { s with err := { s.err with recs := amod s.err.recs k {} g } }

/-! ### Arrival at a record (R467-R472) -/

/-- An error reaches the chip record (R472): journalled, and signalled as its severity asks. -/
def State.chipRecord (s : State) (sev unit syn : Nat) : State :=
  let s := s.jMust .firmware (.error (unitLevel unit) sev unit syn)
  let s := if s.irqSev ≤ sev then s.msix s.errLink s.errVector else s
  if sev = 3 then ((List.range 4).filter fun l => (s.link l).up).foldl (fun s l => (s.aer l 22).emit (.errNonfatal l)) s else s

/-- First-error fields (R468). -/
def ErrRec.first (r : ErrRec) (sev unit syn time : Nat) : ErrRec :=
  { r with valid := true, sev := sev, maxsev := sev, funit := unit, fsynd := syn, ftime := time }

def ErrRec.more (r : ErrRec) (sev : Nat) : ErrRec := { r with count := satAdd 0xFFFF r.count 1, maxsev := max r.maxsev sev }

/-- What a record does with an arrival (R468): the record, and whether its action starts. `need` tells that the error needs an action at
this level. -/
def ErrRec.arrive (r : ErrRec) (sev unit syn time : Nat) (need : Bool) : ErrRec × Bool :=
  let a : ErrAct := ⟨sev, unit, syn⟩
  if ! r.valid then ({ r.first sev unit syn time with run := if need then some a else none }, need)
  else match r.run with
    | none => ({ r.more sev with run := if need then some a else none }, need)
    | some y =>
      let r := { r.more sev with nested := true }
      if sev ≤ y.sev then
        let same := fun (z : ErrAct) => z.sev = sev && z.unit = unit
        if need && ! same y && ! r.waits.any same then ({ r with waits := r.waits ++ [a] }, false) else (r, false)
      else
        let r := { r with punit := unit, psynd := syn, ptime := time }
        if need then ({ r with run := some a, waits := y :: r.waits }, true) else (r, false)

/-- An error that its own level has handled reaches the chip record (R472). -/
def State.chipNote (s : State) (a : ErrAct) : State :=
  (s.chipRecord a.sev a.unit a.syn).modRec 0xFF fun r => (r.arrive a.sev a.unit a.syn s.clk.time false).1

/-! ### Work that leaves a region (R458-R460) -/

/-- A copy of a launch still holds a block of the region. -/
def Copy.holds (c : Copy) (on : Nat → Bool) : Bool := c.st ≠ .done && (match c.block with | some b => on b | none => false)

/-- Work on blocks that have failed ends (R459, R318): launches and sessions INTERNAL, combining state lost (R456). -/
def State.blocksLost (s : State) (on : Nat → Bool) : State :=
  let s := s.fns.foldl (fun (s : State) (f : Nat × FnState) =>
    let s := f.2.launches.foldl (fun (s : State) (l : Nat × Launch) => match l.2.copies.find? fun c => c.2.holds on with
      | some c => s.faultCopy f.1 l.1 c.1 c.2.pc .internal
      | none => s) s
    let s := f.2.sess.foldl (fun (s : State) (x : Nat × Sess) => match x.2.body with
      | some b => if x.2.state ≠ .free ∧ (bitList 64 b.blks).any on then s.sessFail f.1 x.1 .internal 0 else s
      | none => s) s
    f.2.herds.foldl (fun (s : State) (h : Nat × Herd) => if h.2.blocks.any on then s.herdEmpty f.1 h.1 else s) s) s
  s

/-- Herds combine on other blocks of their partition (R252, R459). -/
def State.herdsMove (s : State) (n : Nat) : State :=
  s.fns.foldl (fun (s : State) (f : Nat × FnState) => f.2.herds.foldl (fun (s : State) (h : Nat × Herd) =>
    if h.2.blocks.any (fun b => regionOf b = n) then
      let l := h.2.blocks.filter fun b => regionOf b ≠ n
      let want := match h.2.body with | some b => b.rblk | none => 0
      let l := if l ≠ [] then l else ((List.range 64).filter fun k => s.blockOwned f.1 k && s.regionOpen (regionOf k)).take want
      s.modHerd f.1 h.1 fun y => { y with blocks := l }
    else s) s) s

/-- No work is left on a region's blocks (R459). -/
def State.movedOff (s : State) (n : Nat) : Bool :=
  s.fns.all fun (f : Nat × FnState) =>
    f.2.launches.all (fun l => l.2.copies.all fun c => ! c.2.holds fun b => regionOf b = n) &&
    f.2.sess.all (fun x => x.2.state = .free || (match x.2.body with | some b => (bitList 64 b.blks).all fun k => regionOf k ≠ n | none => true)) &&
    f.2.herds.all fun h => ! h.2.blocks.any (fun b => regionOf b = n) || (match h.2.run with | some c => c.atBoundary | none => true)

/-- The actions of some records are discarded; their errors still reach the chip record (R469, R472). -/
def State.dropAll (s : State) (covered : Nat → Bool) : State :=
  let hit := s.err.recs.filter fun (r : Nat × ErrRec) => covered r.1
  let gone := hit.flatMap fun (r : Nat × ErrRec) => (match r.2.run with | some a => [a] | none => []) ++ r.2.waits
  let s := hit.foldl (fun (s : State) r => s.modRec r.1 fun x => { x with run := none, waits := [] }) s
  gone.foldl (fun s a => s.chipNote a) s

/-- Actions that a fence covers are discarded. -/
def State.dropActions (s : State) (n : Nat) (full : Bool) : State :=
  s.dropAll fun (k : Nat) => k < 93 && regionOfUnit k = some n && (full || k < 64 || (86 ≤ k && k < 90))

/-- A fence that the power limit asked for is complete (R573). -/
def State.limitFenced (s : State) (n : Nat) : State :=
  if s.power.fencing = some n then { s with power := { s.power with fencing := none, overAt := some s.now } } else s

/-- The LOCK bit of a PLL: 0 to 3 the regions', 4 the mesh's, 5 the saiga's (R581). -/
def State.setLock (s : State) (n : Nat) (on : Bool) : State :=
  let l := s.power.lock ||| 2 ^ n
  { s with power := { s.power with lock := if on then l else l - 2 ^ n } }

/-- Steps 3 to 6 of a fence (R458). -/
def State.fenceClose (s : State) (n : Nat) : State :=
  match aget s.err.fences n with
  | none => s
  | some x =>
    if x.done then s else
      let s := (s.blocksLost fun b => regionOf b = n).herdsMove n
      let s := { s with mesh := { s.mesh with circs := s.mesh.circs.filter fun c => c.dst ≠ n && (! x.full || c.src ≠ n) } }
      let s := (s.modDom n fun d => { d with st := 3, k := 0, wake := 0, since := s.now }).setLock n false
      let s : State := if x.full then
          let s := (List.range 2).foldl (fun s j => (List.range 4).foldl (fun s k => s.bpDown (2 * n + j) k 0x21) s) s
          (s.linkDown n).modLink n fun l => { l with disabled := true }
        else s
      let s := { s with err := { s.err with fences := aset s.err.fences n { x with done := true, immediate := true } } }
      (s.limitFenced n).noteHealth

/-- Bytes 29 to 79 of a self-test record (R553). -/
def BistRes.info (r : BistRes) (scope : Nat) : Nat :=
  scope + 2 ^ 8 * r.result + 2 ^ 16 * bit r.full + 2 ^ 24 * r.lcov + 2 ^ 40 * r.mcov + r.dur % 2 ^ 32 * 2 ^ 56 + r.fails % 2 ^ 16 * 2 ^ 88 +
  r.funit % 2 ^ 16 * 2 ^ 104

/-- A self-test run is over: its result is kept and journalled (R553, R554). Index 4 stands for the chip-level units. -/
def State.bistPut (s : State) (i : Nat) (r : BistRes) : State :=
  { s with bist := { s.bist with res := aset s.bist.res i r } }.jCommit .firmware (.fw 5 (r.info (if i = 4 then 0xFF else i)))

/-- The test of a region ends, with any RESULT: its domain is gated again (R548, R566). An aborted test's coverage is open. -/
def State.bistEnd (s : State) (result fails spares funit : Nat) : State :=
  match s.bist.run with
  | none => s
  | some (n, t) =>
    let cut := decide (result = 3)
    let r : BistRes := { result := result, full := true, lcov := if cut then s.freeVal % 971 else 970, mcov := if cut then s.freeVal / 971 % 1001 else 1000,
                         dur := (s.now - t) / 1000000, fails := fails, spares := spares, funit := funit, time := s.clk.time }
    let s := { s.bump with bist := { s.bist with run := none } }.bistPut n r
    (s.modDom n fun d => { d with st := 3, k := 0, wake := 0, since := s.now }).setLock n false

/-- An error of severity REGION in a region under test aborts the test (R548). -/
def State.bistAbort (s : State) (n : Nat) : State :=
  match s.bist.run with
  | some (m, _) => if m = n then s.bistEnd 3 0 0 0xFFFF else s
  | none => s

/-- A fence's cause arises (R457): a new fence, or an orderly one that becomes immediate. -/
def State.fenceStart (s : State) (n code : Nat) : State :=
  let s := s.bistAbort n
  let full := code = 0x64
  let now_ := full || code = 0x60 || code = 0x61 || code = 0x41
  let x := (aget s.err.fences n).getD { since := s.now }
  let y : Fence := { x with full := x.full || full, immediate := x.immediate || now_, causes := x.causes ++ [code], done := x.done && (x.full || ! full) }
  let s := { s with err := { s.err with fences := aset s.err.fences n y, tested := s.err.tested.filter fun m => m ≠ n } }
  let s := s.dropActions n y.full
  if y.immediate then s.fenceClose n
  else s.fns.foldl (fun (s : State) (f : Nat × FnState) => s.preemptBlocks f.1 fun b => regionOf b = n) s

/-- R458 step 2: the work has moved off, or the fence has become immediate. -/
def execOrderlyFenceProceed (region : Fin 4) (s : State) : Host.Outcome State Fault Refusal :=
  let n := region.val
  .next (match aget s.err.fences n with
    | some x => if s.movedOff n || x.immediate then (s.fenceClose n).settle else s
    | none => s)

/-- R457: FENCE_WAIT passes. -/
def execFenceWaitExpiry (region : Fin 4) (now : Nat) (s : State) : Host.Outcome State Fault Refusal :=
  let s := s.tick now
  let n := region.val
  .next (match aget s.err.fences n with
    | some x =>
      if x.since + s.fenceWait ≤ s.now ∧ ! x.done then
        ({ s with err := { s.err with fences := aset s.err.fences n { x with immediate := true } } }.fenceClose n).settle
      else s
    | none => s)

/-! ### Operator writes (R457, R461) -/

/-- The power limit in force is PWR_LIMIT.LIMIT (R573, R588, R594). -/
def State.fullLimit (s : State) : Bool := ! s.card.auxLow && ! s.card.coolCap

/-- A fence may be lifted (R461). -/
def State.mayLift (s : State) (n : Nat) : Bool :=
  match aget s.err.fences n with
  | some x => x.done && ! s.err.fatal && s.bist.run.isNone && (s.err.tested.contains n || (x.causes.all (fun c => c = 0x66) && s.fullLimit))
  | none => false

/-- A fence is lifted: the domain is in DOZE, and a full fence's link and ports may come back. -/
def State.fenceLift (s : State) (n : Nat) : State :=
  let full := match aget s.err.fences n with | some x => x.full | none => false
  let s := { s with err := { s.err with fences := adel s.err.fences n, tested := s.err.tested.filter fun m => m ≠ n } }
  let s := if full then s.modLink n fun l => { l with disabled := false } else s
  (s.modDom n fun d => { d with st := 2, since := s.now }).noteHealth

/-- ERR_FENCE as it reads (R473). -/
def State.fenceReg (s : State) : Nat :=
  (List.range 4).foldl (fun v n => v + bit (s.fenced n) * 2 ^ n +
    (match aget s.err.fences n with | some x => bit (x.done && x.full) * 2 ^ (n + 4) | none => 0)) 0

/-- R457, R461: a write of ERR_FENCE: REQ asks for an orderly fence of each region that has none, UNFENCE lifts those that may be lifted. -/
def State.fenceWrite (s : State) (o : Origin) (width v : Nat) : State :=
  let req := (bitList 4 (bitsOf v 8 4)).filter fun n => (aget s.err.fences n).isNone
  let lift := (bitList 4 (bitsOf v 12 4)).filter fun n => s.mayLift n
  s.setupWrite o 0x1C00010 width (req = [] ∧ lift = []) s.fenceReg v fun s =>
    lift.foldl (fun s n => s.fenceLift n) (req.foldl (fun s n => s.report (0xF0 + n) 0xFF 0x65 0) s)

def execErrFenceReq (o : Origin) (mask : Nat) (s : State) : Host.Outcome State Fault Refusal :=
  .next (s.fenceWrite o 8 (mask % 16 * 2 ^ 8))

def execErrFenceUnfence (o : Origin) (mask : Nat) (s : State) : Host.Outcome State Fault Refusal :=
  .next (s.fenceWrite o 8 (mask % 16 * 2 ^ 12))

/-! ### Fatal errors (R462) -/

/-- The device stops. -/
def State.goFatal (s : State) : State :=
  if s.err.fatal then s else
    let s := (List.range 4).foldl (fun (s : State) n => s.bistAbort n) s
    let s := (List.range 4).foldl (fun (s : State) n =>
      let x := (aget s.err.fences n).getD { since := s.now }
      { s with err := { s.err with fences := aset s.err.fences n { x with immediate := true } } }.fenceClose n) s
    let s := { s with err := { s.err with fatal := true } }
    ((List.range 4).foldl (fun s l => s.emit (.errFatal l)) (s.dropAll fun k => k ≠ 0xFF)).noteHealth

/-! ### Levels and actions (R464-R472) -/

/-- The action a record runs (R464). -/
def State.runAction (s : State) (k : Nat) (a : ErrAct) : State :=
  let code := a.syn % 2 ^ 16
  if k = 0xFF then (if a.sev = 4 then s.goFatal else s)
  else if 0xF0 ≤ k then s.fenceStart (k - 0xF0) code
  else if code = 0x41 then s.blocksLost fun b => b = k
  else if code = 0x30 then
    let n := k - 76
    (List.range 2).foldl (fun s j => (List.range 4).foldl (fun s b => s.bpDown (2 * n + j) b 0x21) s) s
  else s

/-- A report at one record; a full list of waiting actions escalates (R470). -/
def State.atRecord (s : State) (k sev unit syn : Nat) (need : Bool) : State × Bool :=
  let r := s.rec_ k
  if need ∧ 8 ≤ r.waits.length ∧ r.run.isSome then (s.modRec k fun r => { r.more sev with nested := true }, true)
  else
    let (r', go) := r.arrive sev unit syn s.clk.time need
    let s := s.modRec k fun _ => r'
    (if go then s.runAction k ⟨sev, unit, syn⟩ else s, false)

/-- The chip record: severity 4 acts there (R472). -/
def State.atChip (s : State) (sev unit syn : Nat) : State :=
  let s := s.chipRecord sev unit syn
  match s.atRecord 0xFF sev unit syn (sev = 4) with
  | (s, true) => s.goFatal
  | (s, false) => s

/-- A region record. -/
def State.atRegion (s : State) (n sev unit syn : Nat) : State :=
  match s.atRecord (0xF0 + n) sev unit syn (sev = 3) with
  | (s, true) => s.atChip 4 unit (0xF0 + syn % 2 ^ 16 * 2 ^ 16)
  | (s, false) => if sev = 4 then s.atChip sev unit syn else s

/-- The level above a block (R25). -/
def State.above (s : State) (block sev unit syn : Nat) : State :=
  match regionOfUnit block with
  | some n => s.atRegion n sev unit syn
  | none => s.atChip (if sev = 3 then 4 else sev) unit syn

/-- IBEX_HANG from four or more blocks of a region within 1 s is one error of severity REGION (R457). -/
def State.noteHang (s : State) (block unit syn : Nat) : State :=
  let n := block / 16
  let l := s.err.hangs.filter (fun h => s.now < h.2.2 + 1000000000 ∧ ¬ (h.1 = n ∧ h.2.1 = block)) ++ [(n, block, s.now)]
  let s := { s with err := { s.err with hangs := l } }
  if 4 ≤ (l.filter fun h => h.1 = n).length then s.atRegion n 3 unit syn else s

/-- A report is recorded where it is detected, and escalates until a level handles it (R25, R468): a CORRECTED error that a cell detects is
handled there (R464). -/
def State.arrival (s : State) (r : ErrReport) : State :=
  let s := { s with err := { s.err with inbox := dropFirst s.err.inbox fun x => x = r } }
  let sev := severity r.code r.block
  let unit := r.unit
  let syn := r.syn
  let cellUp := fun (c : ErrRec) => if c.valid then { c.more sev with nested := false } else c.first sev unit syn s.clk.time
  let s : State := if r.code = 8 then
      let hit := fun (x : JRec) => if x.seq % 2 ^ 48 = r.info % 2 ^ 48 then { x with bad := true } else x
      { s with jrnl := { s.jrnl with recs := s.jrnl.recs.map hit } }
    else s
  let atCell := r.block < 93 ∧ r.cell ≠ 0xFF
  let s := if atCell then { s with err := { s.err with cells := amod s.err.cells unit {} cellUp } } else s
  if atCell ∧ sev = 0 then s
  else if r.block = 0xFF then s.atChip sev unit syn
  else if 0xF0 ≤ r.block then s.above r.block (max 3 sev) unit syn
  else
    match s.atRecord r.block sev unit syn (sev = 2) with
    | (s, true) => s.above r.block 3 unit (0xF0 + syn % 2 ^ 16 * 2 ^ 16)
    | (s, false) =>
      let s := if 3 ≤ sev then s.above r.block sev unit syn else s
      if r.code = 0x41 then s.noteHang r.block unit syn else s

/-! ### Poisoned locations (R486, R487, R490) -/

/-- The slice line at a physical address: partition and offset (R324). -/
def State.sliceAt (s : State) (phys : Nat) : Option (Nat × Nat) :=
  match s.mem.pages.find? fun e => e.2.valid && e.2.ppn = phys / 2 ^ 21 with
  | some e => some (e.2.part, 2 ^ 21 * (e.1 - (s.part e.2.part).cur.sbase) + phys % 2 ^ 21)
  | none => none

/-- The partition that works on an ibex block (R486). -/
def State.blockUser (s : State) (b : Nat) : Option Nat :=
  (List.range 16).find? fun p => (s.part p).cur.blks.testBit b &&
    ((s.fn (4 + p)).launches.any (fun l => l.2.copies.any fun c => c.2.holds fun k => k = b) ||
     (s.fn (4 + p)).sess.any fun x => x.2.state ≠ .free && (match x.2.body with | some y => y.blks.testBit b | none => false))

/-- R487: one completion on the partition's admin ring. -/
def State.poisonNotice (s : State) (p detail : Nat) : State :=
  s.complete (4 + p) 0 (s.compl (4 + p) .poison 0 0x7FE 0 detail)

/-- Parts of the physical map outside the slice pool that hold a partition's data: the posted-receive store and the replay area (R321, R486). -/
def dramOwned (phys : Nat) : Bool := decide (0x10000000 ≤ phys ∧ phys < 0x60000000)

/-- The notice of data outside the slice and local memory: which partition owns it is open here (R487, log 80). -/
def State.poisonElse (s : State) : State :=
  let p := s.freeVal % 16
  let s := s.bump
  if (s.part p).cur.holds then s.poisonNotice p (2 ^ 29) else s

/-- The word index within local memory of a word of a bank: consecutive 64-byte lines lie in consecutive banks (R204). -/
def localWord (bank word : Nat) : Nat := 8 * (32 * (word / 8) + bank) + word % 8

/-- A word of an ibex block's local memory is poisoned: a copy's tiles and a session's rows on the block take it (R208, R486). -/
def State.poisonLocal (s : State) (f b : Nat) : State :=
  let s := (s.fn f).launches.foldl (fun (s : State) (l : Nat × Launch) => match l.2.copies.find? fun c => c.2.holds fun k => k = b with
    | some c => s.poisonCopy f l.1 c.1
    | none => s) s
  (s.fn f).sess.foldl (fun (s : State) (x : Nat × Sess) => s.poisonSess f x.1 b) s

/-- Valid data with an uncorrectable error is poisoned, and its partition notified (R486, R487). -/
def State.poisonAt (s : State) (k loc : Nat) : State :=
  if 4 ≤ k then
    let key := cellKey dramSpace (loc * 64) / 64
    let s := { s with mem := { s.mem with poison := if s.mem.poison.contains key then s.mem.poison else s.mem.poison ++ [key] } }
    match s.sliceAt (loc * 64) with
    | some (p, off) => s.poisonNotice p (off / 64 % 2 ^ 28)
    | none => if dramOwned (loc * 64) then s.poisonElse else s
  else
    let b := loc / 8192 / 32
    if 64 ≤ b then s.poisonElse
    else match s.blockUser b with
      | some p => (s.poisonLocal (4 + p) b).poisonNotice p (2 ^ 28 + 2 ^ 18 * b + localWord (loc / 8192 % 32) (loc % 8192))
      | none => s

/-- R490: the location of an uncorrectable error that a demand read met is poisoned, unless it held a context. A bank cell of an ibex block
names the macro (R466, R475). -/
def State.demandUe (s : State) (r : ErrReport) (c : CtxRef) : State :=
  if c ≠ .none then s
  else if r.code = 6 then s.poisonAt 4 (r.info % 2 ^ 28)
  else if r.code = 2 ∧ r.block < 64 ∧ 8 ≤ r.cell ∧ r.cell < 40 then s.poisonAt 0 (8192 * (32 * r.block + r.cell - 8) + r.info % 8192)
  else s

/-! ### Contexts that an uncorrectable error strikes (R488) -/

/-- A context goes to its error state. -/
def State.strike (s : State) (c : CtxRef) : State :=
  match c with
  | .none => s
  | .conn fn h =>
    let f := fn.idx
    if ! (s.conn f h).state.live then s else
      let s := s.sendAborts f h 3 1
      let ops := (s.connOps f h).map (·.id)
      let s := ops.foldl (fun s id => s.endOp f id .internal 0 0) s
      (s.connLost f h 0).connEvent f h
  | .window fn i =>
    let f := fn.idx
    match (s.win f i).revoke with
    | some id => ((s.modWin f i fun w => { w with revoke := none }).endOp f id .internal 0 0).winClose f i
    | none => if (s.win f i).state = .closed then s else s.winClose f i
  | .ring fn k => s.sqMemError fn.idx k .poison (s.ring fn.idx k).head
  | .herd fn i => if (s.herd fn.idx i).state = .free then s else s.herdBreak fn.idx i
  | .tally fn i =>
    let f := fn.idx
    match aget (s.fn f).tallies i with
    | none => s
    | some t =>
      let s := s.modFn f fun x => { x with tallies := aset x.tallies i { t with bad := true } }
      let hit := (s.fn f).armed.filter fun a => match a.trig with | .tally j _ => j = i | _ => false
      let s := s.modFn f fun x => { x with armed := x.armed.filter fun a => ! hit.contains a }
      hit.foldl (fun s a => s.endOp f a.op .internal 0 0) s
  | .mlist fn l => s.mlistEnd fn.idx l .internal
  | .inflight fn id => s.endOp fn.idx id .internal 0 0

/-- R468: an error report reaches a record. -/
def execErrorArrival (r : ErrReport) (strikes : CtxRef) (s : State) : Host.Outcome State Fault Refusal :=
  .next (((s.arrival r).demandUe r strikes).strike strikes).settle

/-- A record's action is over: a fence when it is in force. -/
def State.actionOver (s : State) (k : Nat) : Bool := if k = 0xFF then ! s.err.fatal else if 0xF0 ≤ k then s.fenced (k - 0xF0) else true

/-- R468, R472: an action ends, its error goes to the chip record, and the next action runs. -/
def State.actionEnd (s : State) (k : Nat) : State :=
  let r := s.rec_ k
  match r.run with
  | none => s
  | some a =>
    if ! s.actionOver k then s else
      let s := s.modRec k fun r => { r with run := r.waits.head?, waits := r.waits.drop 1 }
      let s := if k = 0xFF then s else s.atChip a.sev a.unit a.syn
      match r.waits.head? with
      | some b => s.runAction k b
      | none => s

def execErrorActionEnd (rec_ : RecRef) (s : State) : Host.Outcome State Fault Refusal := .next (s.actionEnd rec_.key).settle


/-- Word w of a record as it reads (R467). -/
def ErrRec.word (r : ErrRec) (w : Nat) : Nat :=
  if w = 0 then bit r.valid + 2 * bit r.nested + 4 * bit r.run.isSome + 2 ^ 4 * r.sev + 2 ^ 8 * r.maxsev + 2 ^ 11 * r.waits.length +
    r.count * 2 ^ 16
  else if w = 1 then r.funit + 2 ^ 16 * r.punit
  else if w = 2 then r.fsynd
  else if w = 3 then r.ftime
  else if w = 4 then r.psynd
  else if w = 5 then r.ptime
  else 0

/-- A cell lies beneath a record: a block's own cells, those of a region's blocks, every cell of the chip (R466, R471). -/
def recHolds (r : RecRef) (unit : Nat) : Bool :=
  match r with
  | .chip => true
  | .region n => regionOfUnit (unit / 256) = some n.val
  | .block b => unit / 256 = b

/-- R471: VALID clears the record and the records of the cells beneath it, unless an action is in progress. -/
def State.recClear (s : State) (o : Origin) (r : RecRef) (v : Nat) : State :=
  let k := r.key
  let x := s.rec_ k
  s.setupWrite o r.off 8 (x.run.isSome ∨ v % 2 = 0) (x.word 0) v fun s =>
    { s with err := { s.err with recs := adel s.err.recs k, cells := s.err.cells.filter fun c => ! recHolds r c.1 } }

def execErrRecordClear (o : Origin) (rec_ : RecRef) (s : State) : Host.Outcome State Fault Refusal := .next (s.recClear o rec_ 1)

end Sys2Proof.Machine
end

