-- ==== Sys2Proof/Machine/Mailbox.lean ====
section
/-!
DEFINITION. Mailbox.lean: the instance mailbox and the commands the firmware serves from it (R370-R377, R408, R428, R541, R543).
-/

namespace Sys2Proof.Machine

def State.modMbx (s : State) (f : Nat) (g : Mbx → Mbx) : State := s.modFn f fun x => { x with mbx := g x.mbx }

/-- Queue entries in use: a message keeps its entry until its reply has been written (R372). -/
def Mbx.used (m : Mbx) : Nat := m.queue.length + bit m.taken.isSome + m.replies.length

/-- The mailbox is enabled (R370). -/
def Mbx.enabled (m : Mbx) : Bool := decide (4 ≤ m.rlog ∧ m.rlog ≤ 12)

/-- A posted write is dropped (R372, R373). -/
def State.mbxDrop (s : State) (f l : Nat) : State :=
  let s := s.modMbx f fun m => { m with drops := satAdd 0xFFFF m.drops 1 }
  let s := s.modLink l fun x => { x with mbxDrops := satAdd 0xFFFF x.mbxDrops 1 }
  (s.aer f 22).emit (.errNonfatal f)

/-- R370-R374: a write of 64 bytes to INST_MBX. `args` are bytes 8 to 63; another length stands for a write of another size or
alignment. -/
def State.instMbx (s : State) (p l : Nat) (msg : MbxMsg) (defer : Bool) : State :=
  let f := 4 + p
  let x := s.part p
  if ! s.answers f ∨ x.cur.link ≠ l then s.emit (.ur f)
  else if s.power.saiga = 2 then
    if defer then s.emit (.ur f)
    else (s.modLink l fun x => { x with mbxUr := satAdd 0xFFFF x.mbxUr 1 }).emit (.errNonfatal f)
  else
    let m := (s.fn f).mbx
    if msg.args.length ≠ 56 ∨ ! m.enabled then (if defer then s.emit (.ur f) else s.mbxDrop f l)
    else if 16 ≤ m.used ∨ x.state = .frozen then
      if defer then (s.modMbx f fun m => { m with defers := satAdd 0xFFFF m.defers 1 }).emit (.mbxStatus p true)
      else s.mbxDrop f l
    else
      let s := s.modMbx f fun m => { m with queue := m.queue ++ [msg] }
      let s := { s with power := { s.power with saiga := 0 } }
      if defer then s.emit (.mbxStatus p false) else s

def execInstMbx (part : Fin 16) (link : Fin 4) (gen opcode tag : Nat) (args : List Byte) (deferrable : Bool) (s : State) :
    Host.Outcome State Fault Refusal :=
  .next (s.instMbx part.val link.val ⟨opcode % 2 ^ 16, gen % 2 ^ 16, tag % 2 ^ 32, args⟩ deferrable)

/-- The firmware serves mailboxes: it runs, the saiga domain is ON, the device has not failed to start, and it is their turn (R521). -/
def State.serves (s : State) : Bool := s.mgmt.running && s.power.saiga = 0 && s.powered && s.fwTurn 5

/-- Answer the message being served (R375). -/
def State.mbxAnswer (s : State) (f : Nat) (st : Status) (detail : Nat) (result : List Nat) : State :=
  let s : State := { s with mgmt := { s.mgmt with idleAt := s.now } }
  s.modMbx f fun m => match m.taken with
    | some t => { m with taken := none, replies := m.replies ++ [⟨st, t.cmd, t.gen, t.tag, detail, result⟩] }
    | none => m

/-- The five commands that a mailbox accepts (R377). -/
def mbxKnown (cmd : Nat) : Bool := cmd = 0x000 || cmd = 0x001 || cmd = 0x100 || cmd = 0x200 || cmd = 0x300

/-- Reserved fields of ARGS are zero (R377): MBX_ECHO uses bytes 8 to 55, the others none. -/
def MbxMsg.rsv (m : MbxMsg) : Bool := (if m.cmd = 0 then m.args.drop 48 else m.args).any fun b => b ≠ 0

/-- A retry hint of load shedding, 100 to 10,000 µs (R543). -/
def State.shedHint (s : State) : Nat := 100 + s.freeVal % 9901

/-- R375, R376: the firmware takes the oldest accepted message. One of an older generation is discarded; a reserved code or field is
answered RANGE; under load shedding (R543) and while the journal is full (R440) it is answered BUSY. -/
def State.mbxTake (s : State) (p : Nat) : State :=
  let f := 4 + p
  match (s.fn f).mbx.taken, (s.fn f).mbx.queue with
  | none, t :: q =>
    if ! s.serves then s
    else if t.gen ≠ (s.fn f).gen then s.modMbx f fun m => { m with queue := q, stale := satAdd 0xFFFF m.stale 1 }
    else
      let s := s.modMbx f fun m => { m with queue := q, taken := some t }
      if ! mbxKnown t.cmd ∨ t.rsv then s.mbxAnswer f .range 0 []
      else if s.mgmt.shed then (s.mbxAnswer f .busy s.shedHint []).bump
      else if s.jrnl.full then (s.mbxAnswer f .busy s.hint []).bump
      else s
  | _, _ => s

def execMailboxTake (part : Fin 16) (s : State) : Host.Outcome State Fault Refusal := .next (s.mbxTake part.val)

/-- The message being served is this command. -/
def State.mbxServe (s : State) (p cmd : Nat) (result : State → MbxMsg → List Nat) : State :=
  let f := 4 + p
  match (s.fn f).mbx.taken with
  | some t => if t.cmd = cmd ∧ s.serves then s.mbxAnswer f .ok 0 (result s t) else s
  | none => s

def nats (l : List Byte) : List Nat := l.map fun b => b.toNat

/-- R377: MBX_ECHO. -/
def execMbxEcho (part : Fin 16) (s : State) : Host.Outcome State Fault Refusal :=
  .next (s.mbxServe part.val 0x000 fun _ t => nats (t.args.take 48))

/-- RESULT of MBX_INFO (R377). -/
def State.mbxInfo (s : State) (p : Nat) : List Byte :=
  let r := (s.part p).cur
  leBytes 1 p ++ leBytes 1 r.link ++ leBytes 2 (s.fn (4 + p)).gen ++ leBytes 4 0 ++ leBytes 8 (2 ^ 21 * r.spages) ++ leBytes 2 r.rings ++ leBytes 30 0

def execMbxInfo (part : Fin 16) (s : State) : Host.Outcome State Fault Refusal :=
  .next (s.mbxServe part.val 0x001 fun s _ => nats (s.mbxInfo part.val))

/-- RESULT of MBX_QUOTA (R408). -/
def PartRec.quota (r : PartRec) : List Byte :=
  leBytes 2 r.rings ++ leBytes 2 r.herds ++ leBytes 4 r.conns ++ leBytes 4 r.windows ++ leBytes 4 r.tallies ++ leBytes 4 r.precv ++
  leBytes 4 r.inflight ++ leBytes 2 r.spages ++ leBytes 2 r.replay ++ leBytes 8 r.blks ++ leBytes 1 r.ports ++ leBytes 11 0

def execMbxQuota (part : Fin 16) (s : State) : Host.Outcome State Fault Refusal :=
  .next (s.mbxServe part.val 0x100 fun s _ => nats (s.part part.val).cur.quota)

/-- R428: MBX_KEYSTAT. -/
def execMbxKeystat (part : Fin 16) (s : State) : Host.Outcome State Fault Refusal :=
  .next (s.mbxServe part.val 0x200 fun s _ => nats ((s.keyRecord part.val).take 48))

/-- RESULT of MBX_HEALTH (R541): a fenced block of the partition counts; a granted port counts when its breakout ports are all up. -/
def State.mbxHealth (s : State) (p : Nat) : List Byte :=
  let r := (s.part p).cur
  let blocks := ((bitList 64 r.blks).filter fun b => s.fenced (regionOf b)).length
  let ups := ((bitList 8 r.ports).filter fun q => (List.range (s.port q).bpCount).all fun k => (s.bp q k).up).foldl (fun n q => n + 2 ^ q) 0
  leBytes 1 s.health ++ leBytes 1 blocks ++ leBytes 1 ups ++ leBytes 1 (bit s.mgmt.shed) ++ leBytes 44 0

def execMbxHealth (part : Fin 16) (s : State) : Host.Outcome State Fault Refusal :=
  .next (s.mbxServe part.val 0x300 fun s _ => nats (s.mbxHealth part.val))

/-- The 64 bytes of a reply (R375). -/
def MbxReply.bytes64 (r : MbxReply) (phase : Bool) : List Byte :=
  leBytes 1 (bit phase) ++ leBytes 1 r.status.code ++ leBytes 2 r.cmd ++ leBytes 4 r.tag ++ leBytes 4 r.detail ++ leBytes 4 0 ++
  ((r.result.map fun n => BitVec.ofNat 8 n) ++ List.replicate 48 0).take 48

/-- R375: reply i goes into the next entry of the reply ring, if that is released; the last entry is never filled. A reply of an older
generation is never written (R376). -/
def State.mbxWrite (s : State) (p i : Nat) : State :=
  let f := 4 + p
  let m := (s.fn f).mbx
  let n := 2 ^ m.rlog
  match m.replies[i]? with
  | none => s
  | some r =>
    if ! m.enabled ∨ ! s.serves ∨ (s.part p).state = .frozen then s
    else if r.gen ≠ (s.fn f).gen then s.modMbx f fun m => { m with replies := m.replies.eraseIdx i }
    else if (m.tail + 1) % n = m.head % n then s
    else
      let addr := 2 ^ 12 * m.rbase + 64 * m.tail
      match s.missing f addr 64 true with
      | some pg =>
        -- the reply that waits for its page is the first
        let s := s.modMbx f fun m => { m with park := some pg, replies := r :: m.replies.eraseIdx i }
        s.askXlate f pg true
      | none =>
        let s := s.hostWrite f addr (r.bytes64 m.phase)
        let s := s.modMbx f fun m => { m with replies := m.replies.eraseIdx i, tail := (m.tail + 1) % n, park := none, tries := 0,
                                              phase := if m.tail + 1 = n then ! m.phase else m.phase }
        s.msix f m.vector

def execMailboxReplyWrite (part : Fin 16) (index : Nat) (s : State) : Host.Outcome State Fault Refusal := .next (s.mbxWrite part.val index)

/-- INST_MBX_RCFG as it reads. -/
def Mbx.rcfg (m : Mbx) : Nat := m.rlog + 2 ^ 8 * m.vector + 2 ^ 16 * m.head

/-- R370: HEAD releases reply entries. The write of INST_MBX_RCFG that carries it is journalled as a setup write. -/
def execMbxReplyHead (fn : Fn) (head : Nat) (s : State) : Host.Outcome State Fault Refusal :=
  let f := fn.idx
  .next (if isPf f then s else s.onBar f fun s =>
    let m := (s.fn f).mbx
    let h := head % 2 ^ 12
    s.setupWrite (s.originOf f) 0x2050 8 false m.rcfg (m.rlog + 2 ^ 8 * m.vector + 2 ^ 16 * h) fun s => s.modMbx f fun m => { m with head := h })

end Sys2Proof.Machine
end

