-- ==== Sys2Proof/Machine/Scrub.lean ====
section
/-!
DEFINITION. Scrub.lean: scrubbers, spare words, and the notice of poisoned data (R480-R490, R493, R494).
-/

namespace Sys2Proof.Machine

def State.scrub (s : State) (k : Nat) : Scrub := agetD s.mem.scrubs k {}
def State.modScrub (s : State) (k : Nat) (g : Scrub → Scrub) : State := { s with mem := { s.mem with scrubs := amod s.mem.scrubs k {} g } }

/-- The unit of a scrubber (R482). -/
def scrubUnit (k : Nat) : Nat := if k < 4 then 86 + k else 76 + k

/-- Lines of an SRAM lap: an engine visits the same line of all its macros in parallel (R482, R485). -/
def sramLines : Nat := 1024

/-- The line of DRAM that a scrubber visits next: the first at or above its place in a touched block of its stack (R483). -/
def State.dramLine (s : State) (k : Nat) : Option Nat :=
  let from_ := (s.scrub k).next
  let mine := s.mem.touched.filter fun b => Config.stackOf b % 2 = k - 4 ∧ from_ < 1024 * (b + 1)
  (mine.map fun b => max from_ (1024 * b)).foldl (fun (m : Option Nat) l => match m with
    | none => some l
    | some x => some (min x l)) none

/-- A lap ends, and the next one begins (R483, R485). A compute domain that was powered up for it goes back to DOZE. -/
def State.lapEnd (s : State) (k : Nat) : State :=
  let x := s.scrub k
  let s := s.modScrub k fun x => { x with next := 0, last := min 0xFFFFFFFF ((s.now - x.lapAt) / 1000000), lapAt := s.now, urgent := false, woke := none }
  match x.woke with
  | some n => if (s.dom n).st = 0 then s.modDom n fun d => { d with st := 2, k := 0, since := s.now } else s
  | none => s

/-- A region's scrub engine has power. -/
def State.engineOn (s : State) (n : Nat) : Bool := (s.dom n).st = 0 || (s.dom n).st = 1 || (s.dom n).st = 4

/-- The engine that does a scrubber's visits: while a region's compute domain is gated or fenced, that of the lowest-numbered region whose
domain is powered (R484). -/
def State.scrubEngine (s : State) (k : Nat) : Option Nat :=
  if 4 ≤ k ∨ s.engineOn k then some k else (List.range 4).find? s.engineOn

/-- Corrected words (R480, R481, R483). -/
def State.scrubFixed (s : State) (k words : Nat) (hard : Bool) (loc : Nat) : State :=
  let s := s.modScrub k fun x => { x with ce := satAdd 0xFFFF x.ce words }
  let u := scrubUnit ((s.scrubEngine k).getD k)
  if 4 ≤ k then s.report u 0xFF 0x05 loc
  else
    let s := s.report u 0xFF 0x01 (loc % 8192)
    if ! hard then s
    else
      let m := loc / 8192
      let l := agetD s.mem.spares m []
      if l.length < 8 then { s with mem := { s.mem with spares := aset s.mem.spares m (l ++ [loc % 8192]) } }.report u 0xFF 0x03 (m + 2 ^ 16 * l.length)
      else s.report u 0xFF 0x04 m

/-- What a visit finds at a location. -/
def State.scrubFound (s : State) (k loc : Nat) (f : ScrubFind) : State :=
  match f with
  | .clean => s
  | .corrected words hard at_ => s.scrubFixed k words hard (if 4 ≤ k then loc else at_)
  | .uncorrectable holds at_ =>
    let l := if 4 ≤ k then loc else at_
    let s := s.modScrub k fun x => { x with ue := satAdd 0xFFFF x.ue 1 }
    let s := if holds % 4 = 0 then s.poisonAt k l else s
    s.report (scrubUnit ((s.scrubEngine k).getD k)) 0xFF 0x07 (holds % 4 + l * 4)

/-- A scrubber runs while an engine that can do its visits has power (R484). -/
def State.scrubRuns (s : State) (k : Nat) : Bool := s.powered && ! s.err.fatal && (s.scrubEngine k).isSome

/-- R483: one visit. -/
def State.scrubVisit (s : State) (k : Nat) (f : ScrubFind) : State :=
  if 6 ≤ k ∨ ! s.scrubRuns k then s
  else if k < 4 then
    let n := (s.scrub k).next
    let s := (s.scrubFound k n f).modScrub k fun x => { x with next := n + 1 }
    if sramLines ≤ n + 1 then s.lapEnd k else s
  else
    match s.dramLine k with
    | none => s.lapEnd k
    | some l => (s.scrubFound k l f).modScrub k fun x => { x with next := l + 1 }

def execScrubVisit (scrubber : Nat) (f : ScrubFind) (now : Nat) (s : State) : Host.Outcome State Fault Refusal :=
  .next ((s.tick now).scrubVisit scrubber f).settle

/-- LIMIT of a lap in ns (R493). -/
def State.scrubLimit (s : State) : Nat := 60000000000 * atLeast1 (s.fld 0x1800100 0 16)

/-- Wake a compute domain for an urgent lap of edge macros when none is powered (R485). -/
def State.scrubWake (s : State) (k : Nat) : State :=
  if (s.scrubEngine k).isSome then s
  else match (List.range 4).find? fun n => (s.dom n).st = 2 with
    | some n => (s.regionWake n).modScrub k fun x => { x with woke := some n }
    | none => s

/-- R485: a lap that has taken longer than LIMIT goes on as urgent scrub. -/
def State.scrubStarve (s : State) (k : Nat) : State :=
  let x := s.scrub k
  if 6 ≤ k ∨ x.urgent ∨ s.now ≤ x.lapAt + s.scrubLimit ∨ ! s.powered then s
  else (s.modScrub k fun x => { x with urgent := true, urgLaps := satAdd 0xFFFF x.urgLaps 1 }).scrubWake k

def execScrubStarve (scrubber now : Nat) (s : State) : Host.Outcome State Fault Refusal := .next ((s.tick now).scrubStarve scrubber)

end Sys2Proof.Machine
end

