-- ==== Sys2Proof/Machine/Ports.lean ====
section
/-!
DEFINITION. Ports.lean: frames received and sent, flow control, receiver overload, lane shedding, modules, filters and device time
(R495-R519, R531, R532).
-/

namespace Sys2Proof.Machine

/-! ### Breakout ports -/

/-- Flow control of a port: 3 acts as 0 (R505). -/
def State.fc (s : State) (q : Nat) : Nat :=
  let v := s.fld (portOff q) 2 2
  if v = 3 then 0 else v

/-- A frame for the saiga processor, of which a breakout port passes 100,000 a second (R500). -/
def State.toSaiga (s : State) (q k : Nat) : State :=
  let b := s.bp q k
  if b.sagaAt + 1000000000 ≤ s.now ∨ b.sagaN = 0 then s.modBp q k fun b => { b with sagaN := 1, sagaAt := s.now }
  else if b.sagaN < 100000 then s.modBp q k fun b => { b with sagaN := b.sagaN + 1 }
  else s.modPort q fun x => { x with saigaDrop := satAdd 0xFFFF x.saigaDrop 1 }

/-! ### Filters (R501-R504, R518) -/

/-- PORTS, V, ACTION, PART, TAGM, VID, ETYPE and ETYPEM of an entry's first word; PARTM, PF, LINK and RING of its second. -/
def fltPorts (w : Nat × Nat) : Nat := bitsOf w.1 0 8
def fltValid (w : Nat × Nat) : Bool := w.1.testBit 8
def fltAction (w : Nat × Nat) : Nat := bitsOf w.1 9 3
def fltPart (w : Nat × Nat) : Nat := bitsOf w.1 12 4
def fltTagm (w : Nat × Nat) : Nat := bitsOf w.1 16 2
def fltVid (w : Nat × Nat) : Nat := bitsOf w.1 18 12
def fltEtype (w : Nat × Nat) : Nat := bitsOf w.1 32 16
def fltEtypeM (w : Nat × Nat) : Nat := bitsOf w.1 48 16
def fltPartM (w : Nat × Nat) : Bool := w.2.testBit 0
def fltPf (w : Nat × Nat) : Bool := w.2.testBit 1
def fltLink (w : Nat × Nat) : Nat := bitsOf w.2 2 2
def fltRing (w : Nat × Nat) : Nat := bitsOf w.2 16 10

/-- A frame is a TLT datagram (R501). -/
def State.isTlt (s : State) (f : Frame) : Bool := f.udpPort = some s.udpPort

/-- R501: an entry matches a frame. -/
def State.fltMatch (s : State) (w : Nat × Nat) (f : Frame) : Bool :=
  fltValid w && decide (fltAction w < 4) && (fltPorts w).testBit f.port.val &&
  (fltTagm w = 0 || (fltTagm w = 1 && ! f.tagged) || (fltTagm w = 2 && f.tagged && f.vid = fltVid w)) &&
  decide ((f.etype ^^^ fltEtype w) &&& fltEtypeM w = 0) &&
  (! fltPartM w || (s.isTlt f && f.base.part = fltPart w))

/-- R503: the datagram is addressed to the partition by a valid address entry of the port, with its tag rule. -/
def State.tltAccepted (s : State) (f : Frame) : Bool :=
  (s.part f.base.part).addrs.any fun (e : Nat × AddrEntry) =>
    e.2.valid && e.2.ip = f.dstIp && e.2.ports.testBit f.port.val && (if e.2.ven then f.tagged && f.vid = e.2.vid else ! f.tagged)

/-- Count a frame of R500 step 7 or R503. -/
def State.noMatch (s : State) (q : Nat) : State := s.modPort q fun x => { x with noMatch := satAdd 0xFFFFFFFF x.noMatch 1 }

/-- A datagram that an entry steers to its partition's transport. Its packet arrives there as a command of its own, which takes its place in the ingress
buffer. -/
def State.steerTlt (s : State) (f : Frame) : State :=
  let q := f.port.val
  if ! s.isTlt f then s.dropFrame q f.bp
  else if ! s.tltAccepted f then s.noMatch q
  else if ! f.tltOk then s.modFn (4 + f.base.part) fun x => { x with cnt := { x.cnt with unmatched := x.cnt.unmatched + 1 } }
  else s

/-- R502 RAW, R532: the frame takes the oldest posted buffer of the ring; the completion carries the frame's timestamp. -/
def State.deliverRaw (s : State) (fi k : Nat) (f : Frame) : State :=
  let q := f.port.val
  let r := s.ring fi k
  match r.rxbufs.filter fun b => (s.op? fi b.op).isSome with
  | [] => s.dropFrame q f.bp
  | b :: t =>
    if r.state = .free ∨ r.state = .error then s.dropFrame q f.bp
    else if b.len < f.bytes.length then s
    else match s.missing fi b.addr f.bytes.length true with
      | some p => (s.parkOp fi b.op p true).dropFrame q f.bp
      | none =>
        let s := (s.modRing fi k fun r => { r with rxbufs := t }).hostWrite fi b.addr f.bytes
        let was := s.clk.time
        let s := { s with clk := { s.clk with time := f.stamp } }.endOp fi b.op .ok f.bytes.length (q + 8 * (f.bp % 4) + 256 * bit f.tagged)
        { s with clk := { s.clk with time := was } }

/-- The action of a matching entry (R502). -/
def State.fltAct (s : State) (w : Nat × Nat) (f : Frame) : State :=
  if fltAction w = 0 then s
  else if fltAction w = 1 then s.steerTlt f
  else if fltAction w = 2 then s.deliverRaw (if fltPf w then fltLink w else 4 + fltPart w) (fltRing w) f
  else s.toSaiga f.port.val f.bp

/-- R179: the frame finds room in the ingress buffer, or is discarded and counted. One that is not a TLT packet takes its place there. -/
def State.frameRoom (s : State) (f : Frame) (k : State → State) : State :=
  let q := f.port.val
  if s.isTlt f then (if s.ingressRoom q f.base.cls then k s else s.modPort q fun x => { x with ingDrop := x.ingDrop + 1 })
  else s.takeIn q 0 (f.bytes.length + 4) k

/-- R500: what becomes of a frame. -/
def State.classify (s : State) (f : Frame) : State :=
  let q := f.port.val
  let toPort : Bool := decide (f.udpPort = some (s.fld 0x1400000 0 16))
  let ptp : Bool := decide (f.etype = 0x88F7 ∨ f.udpPort = some 319 ∨ f.udpPort = some 320)
  if ! f.group ∧ f.toMac ≠ s.mac q f.bp then s.dropFrame q f.bp
  else if f.etype = 0x8808 then s
  else if f.etype = 0x8809 then
    if f.subtype = 0x0A ∧ f.oui = 0x7A51C3 then
      let ty := ((f.bytes.drop (if f.tagged then 22 else 18)).headD 0).toNat
      if ty = 0 ∨ 5 < ty then s.dropFrame q f.bp else s
    else s.toSaiga q f.bp
  else if ptp ∨ f.etype = 0x0806 ∨ f.nd ∨ toPort then s.toSaiga q f.bp
  else match s.flts.cur.find? fun (e : Nat × (Nat × Nat)) => s.fltMatch e.2 f with
    | none => s.noMatch q
    | some (i, w) =>
      let hits := aset s.flts.hits i (satAdd (2 ^ 48 - 1) (agetD s.flts.hits i 0) 1)
      { s with flts := { s.flts with hits := hits } }.fltAct w f

/-- A frame that passed FEC and FCS. -/
def State.frameIn (s : State) (f : Frame) : State :=
  if ! (s.bp f.port.val f.bp).up then s else s.frameRoom f fun s => s.classify f

def execFrameReceive (f : Frame) (s : State) : Host.Outcome State Fault Refusal := .next (s.frameIn f)

/-- The staged entry becomes current; a valid version before it starts retiring (R504). -/
def Filters.commit (x : Filters) : Filters :=
  let ret := match aget x.cur x.index with
    | some w => if fltValid w then aset x.retiring x.index w else x.retiring
    | none => x.retiring
  { x with cur := aset x.cur x.index (x.next0, x.next1), retiring := ret, held := false }

/-- R504: a write of PORT_FLT_CTL. -/
def State.fltCtl (s : State) (o : Origin) (width v : Nat) : State :=
  let i := v % 256
  s.setupWrite o 0xD00040 width s.flts.held (s.flts.index + 512 * bit s.flts.held) v fun s =>
    let x := { s.flts with index := i }
    let y := if ! v.testBit 8 then x else if (aget x.retiring i).isSome then { x with held := true } else x.commit
    { s with flts := y }

def execFltCommit (o : Origin) (index : Nat) (s : State) : Host.Outcome State Fault Refusal := .next (s.fltCtl o 8 (index % 256 + 256))

/-- R504: a retiring version is retired, and a commit held for it takes effect. -/
def State.fltRetire (s : State) (i : Nat) : State :=
  if (aget s.flts.retiring i).isNone then s else
    let x := { s.flts with retiring := adel s.flts.retiring i }
    { s with flts := if x.held ∧ x.index = i then x.commit else x }

def execFltRetire (index : Nat) (s : State) : Host.Outcome State Fault Refusal := .next (s.fltRetire index)

/-! ### PAUSE and PFC (R505-R507) -/

/-- Nanoseconds of a pause of quanta of 512 bit times at a breakout port's current rate. -/
def State.pauseNs (s : State) (q k quanta : Nat) : Nat := ceilDiv (quanta % 65536 * 512 * 1000) (s.portRate q k)

/-- R506: a PAUSE frame pauses every class. -/
def State.pauseIn (s : State) (q k quanta : Nat) : State :=
  if (s.bp q k).up ∧ s.fc q = 1 then s.modBp q k fun b => { b with pauseAll := s.now + s.pauseNs q k quanta } else s

def execPauseFrameReceive (port : Fin 8) (bp quanta now : Nat) (s : State) : Host.Outcome State Fault Refusal :=
  .next ((s.tick now).pauseIn port.val bp quanta)

/-- R506: a PFC frame gives a pause time to each priority of its enable vector. -/
def State.pfcIn (s : State) (q k enables : Nat) (times : List Nat) : State :=
  if (s.bp q k).up ∧ s.fc q = 2 then
    (bitList 8 enables).foldl (fun (s : State) i => s.modBp q k fun b => { b with pauseEnd := aset b.pauseEnd i (s.now + s.pauseNs q k (times.getD i 0)) }) s
  else s

def execPfcFrameReceive (port : Fin 8) (bp enables : Nat) (times : List Nat) (now : Nat) (s : State) : Host.Outcome State Fault Refusal :=
  .next ((s.tick now).pfcIn port.val bp enables times)

/-- R506: a pause has run out. -/
def State.pauseOver (s : State) (q k prio : Nat) : State :=
  s.modBp q k fun b =>
    { b with pauseAll := if b.pauseAll ≤ s.now then 0 else b.pauseAll,
             pauseEnd := if agetD b.pauseEnd prio 0 ≤ s.now then adel b.pauseEnd prio else b.pauseEnd }

def execPauseTimerExpiry (port : Fin 8) (bp prio now : Nat) (s : State) : Host.Outcome State Fault Refusal :=
  .next ((s.tick now).pauseOver port.val bp prio)

/-- XOFF and XON in bytes (R517). -/
def State.xoff (s : State) (q : Nat) : Nat := s.fld (portOff q + 0x20) 8 10 * 1024
def State.xon (s : State) (q : Nat) : Nat :=
  let hi := s.fld (portOff q + 0x20) 8 10
  let lo := s.fld (portOff q + 0x20) 18 10
  (if hi ≤ lo then hi - 1 else lo) * 1024

/-- R507: PFC is sent when the ingress buffer rises above XOFF, every 20 µs while it stays above XON, and with time zero below XON. -/
def State.pfcOut (s : State) (q k : Nat) : State :=
  let b := s.bp q k
  let prios := bitList 8 (s.fld (portOff q + 0x20) 0 8)
  let level := s.ingressHeld q
  if ! b.up ∨ s.fc q ≠ 2 ∨ prios = [] then s
  else if ! b.pfcOn then
    if s.xoff q < level then
      (prios.foldl (fun s i => s.emit (.pfc q k i true)) s).modBp q k fun b => { b with pfcOn := true, pfcAt := s.now }
    else s
  else if level < s.xon q then
    (prios.foldl (fun s i => s.emit (.pfc q k i false)) s).modBp q k fun b => { b with pfcOn := false }
  else if b.pfcAt + 20000 ≤ s.now ∧ s.xon q < level then
    (prios.foldl (fun s i => s.emit (.pfc q k i true)) s).modBp q k fun b => { b with pfcAt := s.now }
  else s

def execPfcRepeatTimer (port : Fin 8) (bp now : Nat) (s : State) : Host.Outcome State Fault Refusal :=
  .next ((s.tick now).pfcOut port.val bp)

/-! ### Receiver overload (R499) -/

/-- A breakout port becomes DEGRADED: its paths are excluded under R445 and it reports PORT_DEGRADED. -/
def State.bpDegrade (s : State) (q k : Nat) : State :=
  (((s.portLoses q k).modBp q k fun b => { b with degraded := true, degrades := satAdd 0xFFFF b.degrades 1 }).report (64 + q) 0xFF 0x22 q).noteHealth

/-- R499: the end of a 100 µs interval in which `total` codewords were received. -/
def State.overload (s : State) (q k total corr uncorr : Nat) : State :=
  let b := s.bp q k
  if ! b.up then s else
    let bad : Bool := b.alarm || decide (0 < uncorr ∧ total ≤ 1000 * uncorr)
    let s := s.modBp q k fun b =>
      { b with corr := satAdd 0xFFFFFFFF b.corr corr, uncorr := satAdd 0xFFFFFFFF b.uncorr uncorr, alarm := false,
               overs := if bad then b.overs + 1 else 0, clear := if bad then 0 else b.clear + 1 }
    let b := s.bp q k
    if ! b.degraded ∧ 100 ≤ b.overs then s.bpDegrade q k
    else if b.degraded ∧ 1000 ≤ b.clear then (s.modBp q k fun b => { b with degraded := false }).noteHealth
    else s

def execOverloadInterval (port : Fin 8) (bp total corr uncorr now : Nat) (s : State) : Host.Outcome State Fault Refusal :=
  .next ((s.tick now).overload port.val bp total corr uncorr)

/-! ### Lane shedding (R508-R511) -/

/-- The conditions of R508. -/
def State.canShed (s : State) (q k : Nat) : Bool :=
  let b := s.bp q k
  let x := s.port q
  b.up && s.fld (portOff q) 4 1 = 1 && b.shedPeer && ! x.running && x.pend.isNone && ! b.degraded && decide (2 ≤ modeLanes x.mode)

/-- PORT_SHED_CFG (R517): DOWN and UP in percent, HOLD in ns. -/
def State.shedDown (s : State) (q : Nat) : Nat := s.fld (portOff q + 0x28) 0 8
def State.shedUp (s : State) (q : Nat) : Nat := max (s.shedDown q + 1) (s.fld (portOff q + 0x28) 8 8)
def State.shedHold (s : State) (q : Nat) : Nat := 1000000 * atLeast1 (s.fld (portOff q + 0x28) 16 16)

/-- More than a percentage of the current rate: bytes over d ns. -/
def State.overPct (s : State) (q k bytes d pct : Nat) : Bool := decide (pct * s.portRate q k * d < bytes * 8 * 1000 * 100)

def State.underPct (s : State) (q k bytes d pct : Nat) : Bool := decide (bytes * 8 * 1000 * 100 < pct * s.portRate q k * d)

/-- Both rates have stayed below DOWN for HOLD (R510). -/
def State.belowLong (s : State) (q k : Nat) : Bool :=
  match (s.bp q k).belowAt with
  | some t => decide (t + s.shedHold q ≤ s.now)
  | none => false

/-- Send a request (R509, R510). -/
def State.shedRequest (s : State) (q k lanes : Nat) : State :=
  let n := ((s.bp q k).shedSeq + 1) % 65536
  (s.modBp q k fun b => { b with shedSeq := n, shedReq := some (n, lanes, s.now) }).sayShed q k 2 n lanes

/-- MARK goes out on every current lane, and no further frame starts (R511 step 2). -/
def State.sendMark (s : State) (q k lanes : Nat) : State :=
  (s.modBp q k fun b => { b with markSent := true, markAt := s.now }).sayShed q k 5 (s.bp q k).markSeq lanes

/-- Both MARKs have passed: the end restripes and resumes; pauses go on at the new rate (R511 step 3). -/
def State.restripe (s : State) (q k : Nat) : State :=
  let b := s.bp q k
  match b.target with
  | none => s
  | some n =>
    if b.markSent ∧ b.markRcvd then
      let move := fun (t : Nat) => if t ≤ s.now then t else s.now + (t - s.now) * max 1 b.lanes / max 1 n
      s.modBp q k fun b =>
        { b with lanes := n, target := none, trained := false, markSent := false, markRcvd := false, belowAt := none, sheds := satAdd 0xFFFFFFFF b.sheds 1,
                 pauseAll := move b.pauseAll, pauseEnd := b.pauseEnd.map fun (p : Nat × Nat) => (p.1, move p.2) }
    else s

/-- An agreed change begins: a downshift at its MARK, an upshift with the training of the added lanes (R511). -/
def State.shedStart (s : State) (q k seq lanes : Nat) : State :=
  let up := decide ((s.bp q k).lanes < lanes)
  let s := s.modBp q k fun b =>
    { b with target := some lanes, markSeq := seq, shedReq := none, trained := false, markSent := false, markRcvd := false }
  if up then s else s.sendMark q k lanes

/-- R508: a CAP frame within 10 ms of link up. -/
def execShedCapReceive (port : Fin 8) (bp lanes : Nat) (s : State) : Host.Outcome State Fault Refusal :=
  let b := s.bp port.val bp
  .next (if b.up ∧ lanes ≠ 0 ∧ s.now ≤ b.upAt + 10000000 then s.modBp port.val bp fun b => { b with shedPeer := true } else s)

/-- Bytes selected for a breakout port and not yet sent. -/
def Port.waitingBytes (x : Port) (k : Nat) : Nat := x.fifo.foldl (fun n e => if e.bp = k then n + e.bytes + 20 else n) 0

/-- R510: a sample. `rx` counts bytes received since the last one. Every 100 µs the upshift is judged, and every 1 ms the downshift. -/
def State.shedSample (s : State) (q k rx : Nat) : State :=
  let b := s.bp q k
  let d := s.now - b.sampAt
  if ! b.up ∨ d < 100000 then s else
    let tx := b.sentBytes - b.sampTx
    let sel := b.sentBytes + (s.port q).waitingBytes k
    let busy := s.overPct q k tx d (s.shedUp q) || s.overPct q k (sel - b.sampSel) d (s.shedUp q)
    let md := s.now - b.msAt
    let low := s.underPct q k (b.msTx + tx) md (s.shedDown q) && s.underPct q k (b.msRx + rx) md (s.shedDown q)
    let below := if md < 1000000 then b.belowAt else if low then some (b.belowAt.getD b.msAt) else none
    let new := decide (1000000 ≤ md)
    let s := s.modBp q k fun b =>
      { b with sampAt := s.now, sampTx := b.sentBytes, sampSel := sel, belowAt := below, msAt := if new then s.now else b.msAt,
               msTx := if new then 0 else b.msTx + tx, msRx := if new then 0 else b.msRx + rx }
    let full := modeLanes (s.port q).mode
    if b.shedReq.isSome ∨ b.target.isSome ∨ s.now < b.holdTil then s
    else if b.lanes < full ∧ (busy ∨ ! s.canShed q k) then s.shedRequest q k full
    else if 2 ≤ b.lanes ∧ s.canShed q k ∧ s.belowLong q k then s.shedRequest q k (b.lanes / 2)
    else s

def execShedSample (port : Fin 8) (bp rx now : Nat) (s : State) : Host.Outcome State Fault Refusal :=
  .next ((s.tick now).shedSample port.val bp rx)

/-- Accept or refuse the peer's request (R510). -/
def State.shedAnswer (s : State) (q k seq lanes : Nat) (yes : Bool) : State :=
  if yes then (s.sayShed q k 3 seq lanes).shedStart q k seq lanes else s.sayShed q k 4 seq lanes

/-- R510: a request of the peer. -/
def State.shedReqIn (s : State) (q k seq lanes peerMac : Nat) : State :=
  let b := s.bp q k
  let legal : Bool := decide ((lanes = 1 ∨ lanes = 2 ∨ lanes = 4) ∧ lanes ≤ modeLanes (s.port q).mode ∧ lanes ≠ b.lanes)
  if ! b.up then s
  else if ! legal ∨ b.target.isSome then s.shedAnswer q k seq lanes false
  else match b.shedReq with
    | some r => s.shedAnswer q k seq lanes (decide (r.2.1 < lanes ∨ (r.2.1 = lanes ∧ peerMac < s.mac q k)))
    | none => s.shedAnswer q k seq lanes (decide (b.lanes < lanes) || (s.canShed q k && s.belowLong q k))

def execShedReqReceive (port : Fin 8) (bp seq lanes peerMac : Nat) (s : State) : Host.Outcome State Fault Refusal :=
  .next (s.shedReqIn port.val bp seq lanes peerMac)

/-- R511: the peer has accepted the request outstanding. -/
def execShedAckReceive (port : Fin 8) (bp seq : Nat) (s : State) : Host.Outcome State Fault Refusal :=
  .next (match (s.bp port.val bp).shedReq with
    | some (n, lanes, _) => if n = seq then s.shedStart port.val bp seq lanes else s
    | none => s)

/-- R510: the peer has refused; a downshift is judged afresh over HOLD. -/
def execShedNakReceive (port : Fin 8) (bp seq : Nat) (s : State) : Host.Outcome State Fault Refusal :=
  .next (match (s.bp port.val bp).shedReq with
    | some (n, _, _) => if n = seq then s.modBp port.val bp fun b => { b with shedReq := none, belowAt := none } else s
    | none => s)

/-- R510: no answer within 1 ms. -/
def State.shedTimeout (s : State) (q k : Nat) : State :=
  match (s.bp q k).shedReq with
  | some (_, _, t) => if t + 1000000 ≤ s.now then s.modBp q k fun b => { b with shedReq := none, holdTil := s.now + s.shedHold q } else s
  | none => s

def execShedReqTimeout (port : Fin 8) (bp now : Nat) (s : State) : Host.Outcome State Fault Refusal :=
  .next ((s.tick now).shedTimeout port.val bp)

/-- R511 steps 1 and 2: the added lanes are trained. -/
def State.lanesTrained (s : State) (q k : Nat) : State :=
  let b := s.bp q k
  match b.target with
  | some n => if b.lanes < n ∧ ! b.markSent then ((s.modBp q k fun b => { b with trained := true }).sendMark q k n).restripe q k else s
  | none => s

def execShedLanesTrained (port : Fin 8) (bp : Nat) (s : State) : Host.Outcome State Fault Refusal := .next (s.lanesTrained port.val bp)

/-- R511 step 3. -/
def execShedMarkReceive (port : Fin 8) (bp : Nat) (s : State) : Host.Outcome State Fault Refusal :=
  .next (if (s.bp port.val bp).target.isSome then (s.modBp port.val bp fun b => { b with markRcvd := true }).restripe port.val bp else s)

/-- R511: no MARK within 1 ms. -/
def execShedMarkTimeout (port : Fin 8) (bp now : Nat) (s : State) : Host.Outcome State Fault Refusal :=
  let s := s.tick now
  let b := s.bp port.val bp
  .next (if b.markSent ∧ ! b.markRcvd ∧ b.markAt + 1000000 ≤ s.now then s.bpDown port.val bp 0x21 else s)

/-! ### Modules and modes (R495, R496, R512) -/

/-- Every breakout port of a port goes down. -/
def State.portAllDown (s : State) (q : Nat) : State := (List.range 4).foldl (fun s k => s.bpDown q k 0x21) s

/-- R512, R591: a module is inserted; a cage fault ends. -/
def execModuleInsert (port : Fin 8) (power now : Nat) (s : State) : Host.Outcome State Fault Refusal :=
  let s := s.tick now
  let q := port.val
  .next (if (s.cage q).present then s else
    (s.modCage q fun c => { c with present := true, power := power, insAt := s.now, on := false, lowpwr := false, fault := false }).noteHealth)

/-- R512: a module is removed. -/
def execModuleRemove (port : Fin 8) (s : State) : Host.Outcome State Fault Refusal :=
  let q := port.val
  .next (if (s.cage q).present then
      ((s.portAllDown q).modCage q fun c => { c with present := false, on := false, lowpwr := false, power := 0 }).noteHealth
    else s)

/-- The lanes of a port that a breakout port uses, as a mask of bits 0 to 3 (R495). -/
def laneMask (mode k : Nat) : Nat := (2 ^ modeLanes mode - 1) * 2 ^ (modeLanes mode * k)

/-- R512: receive-power high alarms and losses of signal, a bit for each lane of the port, feed R499. -/
def execModuleIntl (port : Fin 8) (flags : Nat) (s : State) : Host.Outcome State Fault Refusal :=
  let q := port.val
  .next ((List.range (s.port q).bpCount).foldl (fun s k =>
    if laneMask (s.port q).mode k &&& flags ≠ 0 then s.modBp q k fun b => { b with alarm := true } else s) s)

/-- The PORT registers of a port are powered down while its region is under a full fence (R580). -/
def State.edgeDown (s : State) (n : Nat) : Bool := match aget s.err.fences n with | some x => x.done && x.full | none => false

/-- R580: a write to a powered-down domain. -/
def State.stopWrite (s : State) (o : Origin) (off width v : Nat) : State :=
  { s with power := { s.power with stopwr := satAdd 0xFFFF s.power.stopwr 1 } }.setupWrite o off width true (s.reg off) v id

/-- R496, R517: a write of PORT_CFG. -/
def State.portCfgWrite (s : State) (o : Origin) (q width v : Nat) : State :=
  let off := portOff q
  if s.edgeDown (q / 2) then s.stopWrite o off width v else
    s.setupWrite o off width false (s.reg off) v fun s =>
      let s := s.setReg off (v &&& 0x3FFF1F)
      let m := v % 4
      if m = 3 ∨ m = (s.port q).mode then s else (s.portAllDown q).modPort q fun x => { x with mode := m }

def execPortModeWrite (o : Origin) (port : Fin 8) (value : Nat) (s : State) : Host.Outcome State Fault Refusal :=
  .next (s.portCfgWrite o port.val 8 (value % 2 ^ 32))

/-! ### Device time (R513-R516, R519) -/

/-- TIME_CFG.SRC: 3 acts as 0 (R514). -/
def State.timeSrc (s : State) : Nat :=
  let v := s.fld 0x2800008 0 2
  if v = 3 then 0 else v

/-- The anchor of a running list moves with the step: it keeps its phase (R195). -/
def moveAnchor (anchor cycle : Nat) (d : Int) : Nat :=
  let a := (anchor : Int) + d
  if 0 ≤ a then a.toNat else (a.emod (max 1 cycle : Nat)).toNat

/-- A pending list's takeover time after a step (R195): its START is read in the new timebase, by the first two rows of R193 and without LATE. A START
that the step carries into the past takes over at the next boundary: of the running list, or, where none runs, of its own cycle from START
(DEDUCED, log 144). A list that was already late keeps its boundary. -/
def Port.repend (x : Port) (p : GatePend) (now : Nat) (d : Int) : GatePend :=
  if p.late then { p with at_ := if x.running then ((p.at_ : Int) + d).toNat else firstAt p.start (cycleNs p.list) ((p.at_ : Int) + d).toNat }
  else
    { p with at_ := if x.running then firstAt x.anchor (cycleNs x.gates) (max p.start now) else firstAt p.start (cycleNs p.list) now }

/-- Armed requests whose TIME has come fire, in every function (R122). -/
def State.fireTimes (s : State) : State := s.fns.foldl (fun s x => s.fire x.1 (dueArmed (s.fn x.1) s.clk.time)) s

/-- R514, R515: a step. The record commits first; armed TIME triggers that it passes fire, without LATE. -/
def State.stepTime (s : State) (o : Origin) (d : Int) : State :=
  let new := ((s.clk.time : Int) + d).toNat
  let d := (new : Int) - s.clk.time
  let te := (s.clk.tepoch + 1) % 256
  let s := s.fireTimes.jMust o (.time d te)
  let s := { s with clk := { s.clk with time := new, tepoch := te, slew := 0, slewRes := 0, steps := satAdd 0xFFFF s.clk.steps 1, stepAt := some s.now } }
  let one := fun (x : Port) =>
    let x := if x.running then { x with anchor := moveAnchor x.anchor (cycleNs x.gates) d } else x
    { x with pend := x.pend.map fun p => x.repend p new d }
  ({ s with ports := s.ports.map fun (q : Nat × Port) => (q.1, one q.2) } : State).fireTimes

/-- R514: a correction of Δ ns: slewed up to 1 ms, stepped beyond. -/
def State.correct (s : State) (o : Origin) (d : Int) : State :=
  if -1000000 ≤ d ∧ d ≤ 1000000 then { s with clk := { s.clk with slew := d, slewRes := 0 } } else s.stepTime o d

/-- R514, R516: a write of TIME_ADJ acts with SRC = 2 only. -/
def State.timeAdj (s : State) (o : Origin) (d : Int) : State :=
  s.setupWrite o 0x2800018 8 (s.timeSrc ≠ 2) 0 (unsignedOf 64 d) fun s => s.correct o d

def execTimeAdj (o : Origin) (delta : Int) (s : State) : Host.Outcome State Fault Refusal :=
  .next (s.timeAdj o (signedOf 64 (unsignedOf 64 delta))).settle

/-- R516: a Sync of the PTP domain on the PTP port measures an offset; the servo corrects all of it (DESIGN CHOICE, log 55). -/
def State.ptpSync (s : State) (q k domain : Nat) (offset : Int) : State :=
  let cfg := s.reg 0x2800008
  if s.fwTurn 2 ∧ s.timeSrc = 1 ∧ bitsOf cfg 2 3 = q ∧ bitsOf cfg 5 2 = k ∧ bitsOf cfg 8 8 = domain ∧ (s.bp q k).up then
    let good := if -1000 ≤ offset ∧ offset ≤ 1000 then s.clk.good + 1 else 0
    { s with clk := { s.clk with good := good, locked := decide (16 ≤ good) } }.correct .firmware (-offset)
  else s

def execPtpSyncReceive (port : Fin 8) (bp domain : Nat) (offset : Int) (now : Nat) (s : State) : Host.Outcome State Fault Refusal :=
  .next ((s.tick now).ptpSync port.val bp domain offset).settle

/-- R519: a read of TIME_NOW latches TEPOCH. -/
def State.readTime (s : State) (o : Origin) : State :=
  { s with clk := { s.clk with latched := s.clk.tepoch } }.emit (.value o 0x2800000 s.clk.time)

def execTimeNowRead (o : Origin) (s : State) : Host.Outcome State Fault Refusal := .next (s.readTime o)

/-- R514: what is left of a slew is absorbed as elapsed time passes. -/
def execSlewAbsorbed (now : Nat) (s : State) : Host.Outcome State Fault Refusal := .next (s.tick now)

/-! ### Raw frames (R530-R532) -/

/-- R531: FRAME_TX. -/
def effFrameTx (ring port bp : Nat) (space : Bool) (addr len : Nat) (f id : Nat) (s : State) : State :=
  let granted := isPf f || (s.part (partOf f)).cur.ports.testBit port
  s.checked f id (ck (len < 60 ∨ s.maxFrame port - 4 < len ∨ 8 ≤ port ∨ 4 ≤ bp) .range ++ ck (granted = false) .prot ++ s.locCheck f space addr len) fun s =>
    if ! (s.bp port bp).up ∨ (s.bp port bp).degraded then s.endOp f id .busy 0 1000
    else match s.locMiss f space addr len false with
      | some p => s.parkOp f id p false
      | none =>
        match s.locPoison f space addr len with
        | some a => s.endOp f id .poison 0 (granuleDetail a)
        | none =>
          let r : RawPkt := { fn := f, op := id, cls := (s.ring f ring).cls, part := partOf f, bp := bp, bytes := s.locRead f space addr len }
          let s := s.locUse f space addr len
          s.modPort port fun x => { x with raws := x.raws ++ [r] }

def execFrameTx (e : Entry) (port bp : Nat) (space : Bool) (addr len : Nat) (s : State) : Host.Outcome State Fault Refusal :=
  .next ((s.startEntry e 0x7F0 len1 (.frameTx e port bp space addr len) (effFrameTx e.ring port bp space addr len e.fn.idx)
    (raw := true) (norm := false)).settle)

/-- R532: FRAME_RXBUF posts a receive buffer. -/
def effFrameRxbuf (ring addr len : Nat) (f id : Nat) (s : State) : State :=
  s.checked f id (ck (len < 64 ∨ 65535 < len) .range) fun s => s.modRing f ring fun r => { r with rxbufs := r.rxbufs ++ [⟨id, addr, len⟩] }

def execFrameRxbuf (e : Entry) (addr len : Nat) (s : State) : Host.Outcome State Fault Refusal :=
  .next ((s.startEntry e 0x7F1 len1 (.frameRxbuf e addr len) (effFrameRxbuf e.ring addr len e.fn.idx) (raw := true) (norm := false)).settle)

end Sys2Proof.Machine
end

