-- ==== Sys2Proof/Machine/Power.lean ====
section
/-!
DEFINITION. Power.lean: clocks, power states, the power and thermal managers, P-Sleep and chip reset (R556-R582).
-/

namespace Sys2Proof.Machine

/-! ### Reset of the chip (R549, R571, R590) -/

/-- The chip after a reset (`sleep` false) or as it stands in P-Sleep (`sleep` true). Host memory, the flash, the card monitor and elapsed
time are outside it. In P-Sleep the always-on island keeps time, the journal's SEQ and CHAIN, BIST_RES and the chip and region records
(R571). -/
def State.restart (s : State) (sleep : Bool) : State :=
  let host := s.mem.bytes.filter fun (c : Host.Cell) => decide (c.1 < cellKey dramSpace 0)
  let bad := s.mem.poison.filter fun l => decide (l * 64 < cellKey dramSpace 0)
  let j : Jrnl := { next := s.jrnl.next, exported := s.jrnl.next, written := s.jrnl.next, chain := s.jrnl.chain }
  { State.reset with
    pending := s.pending, out := s.out, free := s.free, images := s.images, card := s.card,
    clk := { State.reset.clk with elapsed := s.clk.elapsed, time := if sleep then s.clk.time else 0, tepoch := if sleep then s.clk.tepoch else 0 },
    mem := { State.reset.mem with bytes := host, poison := bad, powerOns := s.mem.powerOns + 1, devKey := if sleep then none else some (s.mem.powerOns + 1) },
    mgmt := { State.reset.mgmt with bcb0 := s.mgmt.bcb0, bcb1 := s.mgmt.bcb1, flash := s.mgmt.flash },
    jrnl := if sleep then j else {},
    bist := if sleep then { res := s.bist.res } else {},
    err := if sleep then { recs := s.err.recs.filter fun (r : Nat × ErrRec) => decide (0xF0 ≤ r.1) } else {} }

/-! ### Ramps (R561-R563) -/

/-- A ramp is in progress, the hold of its last step included (R561). -/
def State.ramping (s : State) (n : Nat) : Bool := (s.dom n).k ≠ 0 && ((s.dom n).hold || s.nextK n ≠ (s.dom n).k)

/-- A domain may step: powered and clocked, on its PLL, no switch in progress; upward, the rails that must rise are there (R561-R563). -/
def State.mayStep (s : State) (n : Nat) : Bool :=
  let d := s.dom n
  let up := decide (d.k < s.nextK n)
  (d.st = 0 || d.st = 4) && d.wake = 0 && ! s.power.ref.testBit n && ! s.power.refPend.testBit n && s.nextK n ≠ d.k &&
  (! up || (decide (s.setpoint n ≤ d.rail + 5) && (s.near n).all fun m => decide (railV (s.nextK n) ≤ (s.dom m).rail + 65)))

/-- R561: a hold is over, and the domain takes its next step, or stays where it is. -/
def State.rampStep (s : State) (n : Nat) : State :=
  if 4 ≤ n then s
  else if s.mayStep n then s.modDom n fun d => { d with k := s.nextK n, hold := true }
  else if (s.dom n).hold then s.modDom n fun d => { d with hold := false }
  else s

def execClkRampStep (domain : Nat) (s : State) : Host.Outcome State Fault Refusal := .next (s.rampStep domain)

/-- R563: a rail reaches its setpoint, as measured; a waking region's switch may close. -/
def State.railSettled (s : State) (n mv : Nat) : State :=
  let d := s.dom n
  if (d.powered ∨ d.wake ≠ 0) ∧ railNear mv (s.setpoint n) then
    s.modDom n fun d => { d with rail := mv, railSet := true, wake := if d.wake = 1 then 2 else d.wake }
  else s

def execRailSettled (region : Fin 4) (mv : Nat) (s : State) : Host.Outcome State Fault Refusal := .next (s.railSettled region.val mv)

/-! ### The reference and the sources (R557, R558, R564, R565) -/

/-- R557: the count completes; the PLLs start, and every domain that is not fenced leaves reset at k = 4 (DESIGN CHOICE, log 57). -/
def State.refStable (s : State) (restarts : Nat) : State :=
  if s.power.stable ∨ ! s.powered then s else
    let s := { s with power := { s.power with stable := true, restarts := satAdd 0xFFFF s.power.restarts restarts, lock := 0x3F } }
    (List.range 4).foldl (fun (s : State) n => if (s.dom n).st = 3 then s.setLock n false
      else s.modDom n fun d => { d with st := 0, k := 4, rail := railV 4, since := s.now }) s

def execRefStable (restarts : Nat) (s : State) : Host.Outcome State Fault Refusal := .next (s.refStable restarts)

/-- R558: the reference is lost. Every domain but the always-on island is held in reset until a chip reset, the saiga processor too. -/
def State.refLoss (s : State) : State :=
  if ! s.power.stable then s else
    let s := s.atChip 4 0xFFFF (0x61 + 0xFF * 2 ^ 16)
    { s with power := { s.power with stable := false, dead := true, lock := 0 }, mgmt := { s.mgmt with running := false } }

def execRefLoss (s : State) : Host.Outcome State Fault Refusal := .next s.refLoss.settle

/-- R562, R564: a switch of a domain's source is made, once the hold of a step is over. -/
def State.sourceSwitch (s : State) (d : Nat) : State :=
  if d < 6 ∧ s.power.refPend.testBit d ∧ ! (d < 4 && (s.dom d).hold) then
    { s with power := { s.power with refPend := s.power.refPend - 2 ^ d, switches := satAdd 0xFFFF s.power.switches 1 } }
  else s

def execClkSourceSwitch (domain : Nat) (s : State) : Host.Outcome State Fault Refusal := .next (s.sourceSwitch domain)

/-- R565: a PLL loses lock; its domain is switched to the reference at once. -/
def State.pllLoss (s : State) (n : Nat) : State :=
  if 6 ≤ n ∨ ! s.power.lock.testBit n then s else
    let was := s.onRef n
    let ref := s.power.ref ||| 2 ^ n
    let pend := (s.power.refPend ||| 2 ^ n) - 2 ^ n
    let p := { s.power with ref := ref, refPend := pend, switches := if was then s.power.switches else satAdd 0xFFFF s.power.switches 1 }
    ({ s with power := p }.setLock n false).report (if n < 4 then 0xF0 + n else 0xFF) 0xFF 0x61 n

def execPllLockLoss (pll : Nat) (s : State) : Host.Outcome State Fault Refusal := .next (s.pllLoss pll)

/-- Bits of CLK_DOM_SEL that may go back to their PLL (R565). -/
def State.mayReturn (s : State) (d : Nat) : Bool := s.power.lock.testBit d && (4 ≤ d || ! s.fenced d)

/-- R565, R581: a write of CLK_DOM_SEL. A bit that may not be cleared stays; a write of which nothing else is left is ignored. -/
def State.domSel (s : State) (o : Origin) (width v : Nat) : State :=
  let old := s.power.ref
  let held := (bitList 6 old).filter fun d => ! v.testBit d && ! s.mayReturn d
  let new := held.foldl (fun n d => n ||| 2 ^ d) (v % 64)
  s.setupWrite o 0x100008 width (held ≠ [] ∧ new = old) (old + 2 ^ 16 * s.power.lock) v fun s =>
    { s with power := { s.power with ref := new, refPend := s.power.refPend ^^^ (old ^^^ new) } }

def execClkDomSel (o : Origin) (value : Nat) (s : State) : Host.Outcome State Fault Refusal := .next (s.domSel o 8 (value % 2 ^ 32))

/-! ### Power states of a region (R566-R568) -/

/-- PWR_REG_CFG in ns. -/
def State.idleNs (s : State) (n : Nat) : Nat := s.fld (0x200100 + 8 * n) 0 16 * 1000
def State.dozeNs (s : State) (n : Nat) : Nat := s.fld (0x200100 + 8 * n) 16 16 * 1000

/-- Work that keeps a domain from IDLE and DOZE (R566, R567): copies that run, wait or park, sessions, combining. -/
def State.regionBusy (s : State) (n : Nat) : Bool :=
  s.fns.any fun (f : Nat × FnState) =>
    f.2.launches.any (fun l => l.2.copies.any fun c => c.2.holds fun b => regionOf b = n) ||
    f.2.sess.any (fun x => x.2.state ≠ .free && (match x.2.body with | some b => (bitList 64 b.blks).any fun k => regionOf k = n | none => false)) ||
    f.2.herds.any fun h => h.2.run.isSome && h.2.blocks.any fun b => regionOf b = n

/-- R566: ACTIVE to IDLE. -/
def State.regionIdle (s : State) (n : Nat) : State :=
  let d := s.dom n
  if d.st = 0 ∧ d.wake = 0 ∧ s.idleNs n ≠ 0 ∧ d.since + s.idleNs n ≤ s.now ∧ ! s.regionBusy n ∧ s.powered then
    s.modDom n fun d => { d with st := 1, since := s.now }
  else s

def execRegionIdle (region : Fin 4) (now : Nat) (s : State) : Host.Outcome State Fault Refusal := .next ((s.tick now).regionIdle region.val)

/-- R566: IDLE to ACTIVE. -/
def State.regionIdleWake (s : State) (n : Nat) : State :=
  if (s.dom n).st = 1 then s.modDom n fun d => { d with st := 0, since := s.now } else s

def execRegionIdleWake (region : Fin 4) (s : State) : Host.Outcome State Fault Refusal := .next (s.regionIdleWake region.val)

/-- R566, R567: IDLE to DOZE. -/
def State.regionDoze (s : State) (n : Nat) : State :=
  let d := s.dom n
  if d.st = 1 ∧ s.idleNs n ≠ 0 ∧ s.dozeNs n ≠ 0 ∧ d.since + s.dozeNs n ≤ s.now ∧ ! s.regionBusy n then
    (s.modDom n fun d => { d with st := 2, k := 0, rail := railV 4, wake := 0, since := s.now }).setLock n false
  else s

def execRegionDoze (region : Fin 4) (now : Nat) (s : State) : Host.Outcome State Fault Refusal := .next ((s.tick now).regionDoze region.val)

/-! ### Waking (R568) -/

def execRegionWake (region : Fin 4) (s : State) : Host.Outcome State Fault Refusal := .next (s.regionWake region.val)

/-- Step 2 of a wake. -/
def execPowerSwitchClosed (region : Fin 4) (s : State) : Host.Outcome State Fault Refusal :=
  .next (if (s.dom region.val).wake = 2 then s.modDom region.val fun d => { d with wake := 3 } else s)

/-- Steps 3 and 4 of a wake: the clock starts at k = 4; a domain under test stays TESTING. A PLL that locks again sets its LOCK bit. -/
def State.pllLocked (s : State) (n : Nat) : State :=
  let d := s.dom n
  if d.wake = 3 then (s.modDom n fun d => { d with k := 4, wake := 0, hold := false, st := if d.st = 4 then 4 else 0, since := s.now }).setLock n true
  else if d.powered ∧ d.wake = 0 ∧ s.power.stable then s.setLock n true
  else s

def execPllLocked (region : Fin 4) (s : State) : Host.Outcome State Fault Refusal := .next (s.pllLocked region.val)

/-! ### P-Sleep (R570, R571) -/

/-- The device state PWR_STAT reports (R569). -/
def State.pState (s : State) : Nat :=
  let l := (List.range 4).map fun n => (s.dom n).st
  if l.any fun x => x = 0 || x = 4 then 0 else if l.any fun x => x = 1 then 1 else 2

/-- The conditions of R570. -/
def State.maySleep (s : State) : Bool := (List.range 16).all (fun p => ! (s.part p).cur.holds) && s.jrnl.used = 0

/-- R570: a write of PWR_CTL.SLEEP. The device sleeps when the record of the write has been exported. -/
def State.sleepWrite (s : State) (o : Origin) (width v : Nat) : State :=
  s.setupWrite o 0x200000 width (v % 2 = 0 ∨ ! s.maySleep) 0 v fun s =>
    { s with power := { s.power with sleepAsk := some (s.jrnl.next - 1, s.now) } }

def execPwrSleep (o : Origin) (s : State) : Host.Outcome State Fault Refusal := .next (s.sleepWrite o 8 1)

/-- The device enters P-Sleep: ports down, links in Detect, keys erased, DRAM lost, every domain but the always-on one off. -/
def State.enterSleep (s : State) : State :=
  let s := s.restart true
  { s with power := { s.power with sleeping := true, saiga := 2 } }

/-- The record of the write has been exported: the device goes to sleep. -/
def State.sleepGo (s : State) : State :=
  match s.power.sleepAsk with
  | some (seq, _) => if seq < s.jrnl.exported then s.enterSleep else s
  | none => s

/-- R570: 10 ms pass without the export. -/
def State.sleepTimeout (s : State) : State :=
  match s.power.sleepAsk with
  | some (_, t) => if t + 10000000 ≤ s.now then { s with power := { s.power with sleepAsk := none } } else s
  | none => s

def execSleepExportTimeout (now : Nat) (s : State) : Host.Outcome State Fault Refusal := .next ((s.tick now).sleepTimeout)

/-- R571: PERST# of link 0 deasserted after an assertion (0), energy on the management bus pair (1), or WAKE_N (2). The reference has been
counted; boot follows. -/
def State.sleepExit (s : State) (source : Nat) : State :=
  let ok : Bool := s.power.sleeping && (if source = 0 then (s.link 0).perst else source = 1 || source = 2)
  if ! ok then s else
    let s := if source = 0 then s.modLink 0 fun l => { l with perst := false } else s
    { s with power := { s.power with sleeping := false, saiga := 0, stable := false } }.refStable 0

def execSleepExit (source : Nat) (s : State) : Host.Outcome State Fault Refusal := .next (s.sleepExit source)

/-! ### The power limit (R572, R573) -/

/-- The limit in force (R573, R588, R594). -/
def State.limitW (s : State) : Nat := if s.fullLimit then clamp 400 1400 (s.fld 0x200010 0 11) else 400
def State.hystW (s : State) : Nat := s.fld 0x200010 16 8

/-- The powered domain of highest effective k whose PCAP can go down, highest region first. -/
def State.hottest (s : State) : Option Nat :=
  (List.range 4).foldl (fun (best : Option Nat) n =>
    if (s.dom n).powered && decide (4 < (s.dom n).pcap) then
      match best with
      | some m => if s.effK n < s.effK m then best else some n
      | none => some n
    else best) none

/-- Every powered domain stands at PCAP 4. -/
def State.allLow (s : State) : Bool := (List.range 4).all fun n => ! (s.dom n).powered || (s.dom n).pcap = 4

/-- R572: one evaluation of the measured power. -/
def State.powerEval (s : State) (watts : Nat) : State :=
  if s.now < s.power.evalAt + 100000 then s else
    let s := { s with power := { s.power with watts := watts, evalAt := s.now } }
    let s : State := if s.limitW < watts then
        match s.hottest with
        | some n => let s := s.modDom n fun d => { d with pcap := d.pcap - 1 }
                    { s with power := { s.power with lowered := n :: s.power.lowered } }
        | none => s
      else if watts + s.hystW < s.limitW then
        match s.power.lowered with
        | n :: t => let s := s.modDom n fun d => { d with pcap := d.pcap + 1 }
                    { s with power := { s.power with lowered := t } }
        | [] => s
      else s
    let overs := decide (s.limitW < watts) && s.allLow
    { s with power := { s.power with overAt := if overs then some (s.power.overAt.getD s.now) else none } }

def execPowerLimitEval (power now : Nat) (s : State) : Host.Outcome State Fault Refusal := .next ((s.tick now).powerEval power)

/-- R573: 10 ms over the limit with every PCAP at 4: POWER_LIMIT for the highest unfenced powered region, one fence at a time. -/
def State.powerFence (s : State) : State :=
  match s.power.overAt, ((List.range 4).filter fun n => (s.dom n).powered && (aget s.err.fences n).isNone).getLast? with
  | some t, some n =>
    if t + 10000000 ≤ s.now ∧ s.power.fencing.isNone then
      { s with power := { s.power with fencing := some n } }.report (0xF0 + n) 0xFF 0x66 s.power.watts
    else s
  | _, _ => s

def execPowerLimitFence (now : Nat) (s : State) : Host.Outcome State Fault Refusal := .next ((s.tick now).powerFence)

/-! ### Temperatures and rails (R576, R577) -/

/-- PWR_THERM.TMAX in 1/16 °C. -/
def State.tmax (s : State) : Int := ((min 105 (s.fld 0x200018 0 8) * 16 : Nat) : Int)

/-- A region is more than a difference hotter than a powered neighbour. -/
def State.hotter (s : State) (n : Nat) (d : Int) : Bool := (s.near n).any fun m => decide ((s.dom m).temp + d < (s.dom n).temp)

/-- When a condition has begun to hold at TCAP 4. -/
def sinceWhen (on : Bool) (was : Option Nat) (now : Nat) : Option Nat := if on then some (was.getD now) else none

/-- A condition has held for d. -/
def heldFor (since : Option Nat) (now d : Nat) : Bool := match since with | some t => decide (t + d ≤ now) | none => false

/-- R576 for one region. -/
def State.thermalStep (s : State) (n : Nat) : State :=
  let d := s.dom n
  if ! d.powered then s else
    let overs := s.hotter n 480 || decide (s.tmax < d.temp)
    let fine := ! s.hotter n 400 && decide (d.temp < s.tmax - 80)
    let s : State := if overs then
        (if d.low + 100000 ≤ s.now ∧ 4 < d.tcap then
          s.modDom n fun d => { d with tcap := d.tcap - 1, low := s.now, high := s.now, throttles := satAdd 0xFFFF d.throttles 1 }
        else s)
      else if fine ∧ d.high + 1000000 ≤ s.now ∧ d.tcap < 16 then s.modDom n fun d => { d with tcap := d.tcap + 1, high := s.now }
      else s
    let d := s.dom n
    let hot := sinceWhen (d.tcap = 4 && decide (s.tmax + 80 < d.temp)) d.hot s.now
    let diff := sinceWhen (d.tcap = 4 && s.hotter n 480) d.diff s.now
    let tell := heldFor hot s.now 10000000
    let tell2 := heldFor diff s.now 100000000
    let s := s.modDom n fun d => { d with hot := if tell then some s.now else hot, diff := if tell2 then some s.now else diff }
    let s := if tell then s.report (0xF0 + n) 0xFF 0x62 (d.temp / 16).toNat else s
    if tell2 then s.report (0xF0 + n) 0xFF 0x63 (((s.near n).find? fun m => decide ((s.dom m).temp + 480 < d.temp)).getD 0) else s

/-- R576: a sample of the four temperatures, in 1/16 °C. -/
def State.thermal (s : State) (temps : List Int) : State :=
  let s := (List.range 4).foldl (fun (s : State) n => s.modDom n fun d => { d with temp := temps.getD n d.temp }) s
  (List.range 4).foldl (fun (s : State) n => s.thermalStep n) s

def execThermalSample (temps : List Int) (now : Nat) (s : State) : Host.Outcome State Fault Refusal := .next ((s.tick now).thermal temps)

/-- R577: a measured rail has been off for 2 µs: RAIL beyond 30 mV of its setpoint, NEIGHBOUR beyond 60 mV of a powered neighbour's rail. -/
def State.railFault (s : State) (n mv : Nat) : State :=
  if ! (s.dom n).powered then s else
    let sp := s.setpoint n
    let far := (s.near n).find? fun m => decide (mv + 60 < (s.dom m).rail ∨ (s.dom m).rail + 60 < mv)
    let off : Bool := decide (mv + 30 < sp ∨ sp + 30 < mv)
    let s := s.modDom n fun d => { d with rail := mv }
    let s := if off then s.report (0xF0 + n) 0xFF 0x60 mv else s
    match far with
    | some m => s.report (0xF0 + n) 0xFF 0x63 (m + 2 ^ 8)
    | none => s

/-- R577: a fault of the chip rail or the always-on rail is reported as RAIL, whose severity there is CHIP (R465). -/
def execRailFault (region : RailRef) (mv : Nat) (s : State) : Host.Outcome State Fault Refusal :=
  .next (match region with
    | .region n => s.railFault n.val mv
    | .chip => s.report 0xFF 0xFF 0x60 mv
    | .alwaysOn => s.report 91 0xFF 0x60 mv)

end Sys2Proof.Machine
end

