-- ==== Sys2Proof/Machine/Export.lean ====
section
/-!
DEFINITION. Export.lean: the journal's export ring and its registers (R439, R442, R489).
-/

namespace Sys2Proof.Machine

/-- JRNL_EXP_CFG fields (R442). -/
def State.jrnlLog (s : State) : Nat := s.fld 0x2400008 0 5
def State.jrnlLink (s : State) : Nat := s.fld 0x2400008 5 2
def State.jrnlEn (s : State) : Bool := s.fld 0x2400008 31 1 = 1
def State.jrnlBase (s : State) : Nat := s.reg 0x2400000 / 4096 * 4096
def State.jrnlHead (s : State) : Nat := s.reg 0x2400010

/-- The 128 bytes of a record (R436). -/
def JRec.bytes (r : JRec) : List Byte := r.head ++ chainBytes r.chain

/-- A lost word of a record reads as zeros (R489). -/
def loseWord (w : Nat) (l : List Byte) : List Byte := l.take (8 * w) ++ List.replicate 8 0 ++ l.drop (8 * w + 8)

/-- R439: export may write a record now. -/
def State.mayExport (s : State) : Bool :=
  s.jrnlEn && decide (16 ≤ s.jrnlLog ∧ s.jrnlLog ≤ 30) && (! s.jrnl.experr || s.jrnl.retry) && s.jrnl.park.isNone && s.powered

/-- R439: write the next record, if the ring has room. -/
def State.exportWrite (s : State) : State :=
  let n := s.jrnl.written
  let size := 2 ^ s.jrnlLog / 128
  if ! s.mayExport ∨ s.jrnlHead + size ≤ n then s else
    match s.jrnl.recs.find? fun r => r.seq = n with
    | none => s
    | some r =>
      let f := s.jrnlLink
      let addr := s.jrnlBase + n % size * 128
      match s.missing f addr 128 true with
      | some p => { s with jrnl := { s.jrnl with park := some p, retry := false } }.askXlate f p true
      | none =>
        let bs := if r.bad then loseWord (s.freeVal % 16) r.bytes else r.bytes
        let s := (if r.bad then s.bump else s).hostWrite f addr bs
        { s with jrnl := { s.jrnl with written := n + 1, experr := false, retry := false, tries := 0 } }

def execJrnlExportWrite (s : State) : Host.Outcome State Fault Refusal := .next s.exportWrite

/-- R439, R440: the oldest exported record is visible: its space on die is free, and counting records may commit. The export of a
record of PWR_CTL.SLEEP puts the device to sleep (R570). -/
def State.exportVisible (s : State) : State :=
  if s.jrnl.exported < s.jrnl.written then
    let n := s.jrnl.exported + 1
    { s with jrnl := { s.jrnl with exported := n, recs := s.jrnl.recs.filter fun r => decide (n ≤ r.seq) } }.jDrain.sleepGo
  else s

def execJrnlExportVisible (s : State) : Host.Outcome State Fault Refusal := .next s.exportVisible

/-- A refused export is tried again (R439). -/
def State.exportRetry (s : State) : State := { s with jrnl := { s.jrnl with retry := s.jrnl.experr } }

/-- R439, R442: a write of JRNL_EXP_HEAD is not journalled. -/
def State.jrnlHeadWrite (s : State) (head : Nat) : State := (s.setReg 0x2400010 (head % 2 ^ 64)).exportRetry

def execJrnlExpHead (o : Origin) (head : Nat) (s : State) : Host.Outcome State Fault Refusal :=
  let _ := o
  .next (s.jrnlHeadWrite head)

/-- Commit the SETUP record of a write to the JRNL block: it uses the reserve (R440, R442). -/
def State.jrnlRegWrite (s : State) (o : Origin) (off width : Nat) (ignored : Bool) (old new : Nat) (act : State → State) : State :=
  let s := s.jMust o (.setup off width ignored old new)
  if ignored then s else act s

/-- R442: a write of JRNL_EXP_CFG; LOG and LINK are ignored while EN is 1. -/
def State.jrnlCfgWrite (s : State) (o : Origin) (width v : Nat) : State :=
  let old := s.reg 0x2400008
  let keep := if s.jrnlEn then old % 128 else v % 128
  let new := keep + 2 ^ 8 * bitsOf v 8 8 + 2 ^ 31 * bitsOf v 31 1
  s.jrnlRegWrite o 0x2400008 width false old (v % 2 ^ 32) fun s =>
    let s := s.setReg 0x2400008 new
    if v.testBit 31 then s.exportRetry else s

def execJrnlExpEnable (o : Origin) (value : Nat) (s : State) : Host.Outcome State Fault Refusal :=
  .next (s.jrnlCfgWrite o 8 (value ||| 2 ^ 31))

/-- R442: a read of JRNL_TAIL latches JRNL_CHAIN. -/
def State.tailRead (s : State) (o : Origin) : State :=
  { s with jrnl := { s.jrnl with latched := s.jrnl.chain } }.emit (.value o 0x2400018 s.jrnl.next)

def execJrnlTailRead (o : Origin) (s : State) : Host.Outcome State Fault Refusal := .next (s.tailRead o)

end Sys2Proof.Machine
end

