-- ==== Sys2Proof/Machine/Card.lean ====
section
/-!
DEFINITION. Card.lean: J8 power, cages, coolant sensors and LEDs (R583-R597).
-/

namespace Sys2Proof.Machine

/-! ### Resets of a link by its connector (R584) -/

/-- R584: PERST# of a link. In P-Sleep the assertion is remembered for the wake (R571). -/
def State.perst (s : State) (l : Nat) : State :=
  if ! s.powered then s.modLink l fun x => { x with perst := true }
  else if (s.link l).up then (s.linkDown l).report (72 + l) 0xFF 0x51 (l + 3 * 2 ^ 8)
  else s.linkReset l

def execPerstAssert (link : Fin 4) (s : State) : Host.Outcome State Fault Refusal := .next (s.perst link.val).settle

/-! ### J8 (R588, R590) -/

/-- The device loses its power: Off. -/
def State.powerOff (s : State) : State :=
  let s := s.restart false
  { s with power := { s.power with off := true, saiga := 2 }, card := { s.card with lowAt := none, auxLow := false } }

/-- The device powers on: a chip reset. -/
def State.powerOn (s : State) : State :=
  let s := s.restart false
  { s with card := { s.card with lowAt := none, overs := false } }

/-- R588: the J8 voltage changes, in mV. -/
def State.auxVolts (s : State) (mv : Int) : State :=
  let c := s.card
  let uvAt := if c.mv ≤ 41000 ∨ mv ≤ 41000 then s.now else c.uvAt
  let overs := if 60000 < mv then true else if mv < 59000 then false else c.overs
  let s := { s with card := { c with mv := mv, revSeen := c.revSeen || decide (mv < -500), uvAt := uvAt, overs := overs } }
  if s.power.off then (if 42000 < mv ∧ ! overs then s.powerOn else s)
  else if 60000 < mv then s.powerOff
  else if mv < 36000 then { s with card := { s.card with lowAt := some (s.card.lowAt.getD s.now) } }
  else if mv < 40000 then { s with card := { s.card with lowAt := none, auxLow := true, uv := true } }
  else { s with card := { s.card with lowAt := none } }

def execAuxVoltageChange (mv : Int) (now : Nat) (s : State) : Host.Outcome State Fault Refusal := .next ((s.tick now).auxVolts mv)

/-- R588: above 41 V for 1 s. -/
def State.auxRecover (s : State) : State :=
  if s.card.auxLow ∧ 41000 < s.card.mv ∧ s.card.uvAt + 1000000000 ≤ s.now then { s with card := { s.card with auxLow := false } } else s

def execAuxUvRecover (now : Nat) (s : State) : Host.Outcome State Fault Refusal := .next ((s.tick now).auxRecover)

/-- R588, R590: below 36 V for 100 µs while running. -/
def State.auxLoss (s : State) : State :=
  match s.card.lowAt with
  | some t => if ! s.power.off ∧ t + 100000 ≤ s.now then s.powerOff else s
  | none => s

def execAuxPowerLoss (now : Nat) (s : State) : Host.Outcome State Fault Refusal := .next ((s.tick now).auxLoss)

/-! ### Cages (R591) -/

/-- The switch has opened by a trip of the module that is in the cage. -/
def Cage.tripped (c : Cage) : Bool := ! c.on && (match c.trips.getLast? with | some t => decide (c.insAt ≤ t) | none => false)

/-- R591: 50 ms after insertion the switch closes; a module that advertises more than 20 W is held in low-power mode. -/
def State.cagePower (s : State) (q : Nat) : State :=
  let c := s.cage q
  if c.present ∧ ! c.on ∧ ! c.fault ∧ ! c.tripped ∧ c.insAt + 50000000 ≤ s.now then
    s.modCage q fun c => { c with on := true, lowpwr := decide (20 < c.power) }
  else s

def execCageInsertPower (port : Fin 8) (now : Nat) (s : State) : Host.Outcome State Fault Refusal := .next ((s.tick now).cagePower port.val)

/-- R591: an overcurrent opens the switch; the third trip within 60 s latches FAULT. -/
def State.cageTrip (s : State) (q : Nat) : State :=
  if ! (s.cage q).on then s else
    let l := (s.cage q).trips.filter (fun t => decide (s.now < t + 60000000000)) ++ [s.now]
    (s.portAllDown q).modCage q fun c =>
      { c with on := false, tripCnt := satAdd 0xFFFF c.tripCnt 1, trips := l, fault := c.fault || decide (3 ≤ l.length) }

def execCageOvercurrent (port : Fin 8) (now : Nat) (s : State) : Host.Outcome State Fault Refusal := .next ((s.tick now).cageTrip port.val)

/-- R591: 1 s after a trip. -/
def State.cageRetry (s : State) (q : Nat) : State :=
  let c := s.cage q
  match c.trips.getLast? with
  | some t => if c.present ∧ c.tripped ∧ ! c.fault ∧ t + 1000000000 ≤ s.now then
      s.modCage q fun c => { c with on := true, lowpwr := decide (20 < c.power) } else s
  | none => s

def execCageRetry (port : Fin 8) (now : Nat) (s : State) : Host.Outcome State Fault Refusal := .next ((s.tick now).cageRetry port.val)

/-! ### Coolant (R593, R594) -/

/-- A cause of the cooling cap is present (R594). -/
def Card.coolCause (c : Card) : Bool := decide (c.flow < 120) || c.flowL ≠ 0 || decide (752 < c.tin) || c.tinL ≠ 0

/-- What a sensor line is classified as, and since when; the state in effect once it has been seen for 1 s (R593). -/
def Card.classify (c : Card) (i seen now : Nat) : Card × Bool :=
  let (was, t) := agetD c.lines i (0, 0)
  let t := if was = seen then t else now
  ({ c with lines := aset c.lines i (seen, t) }, decide (t + 1000000000 ≤ now))

/-- R593: how the FLOW line is classified by FLOW_PWR's current in µA: 0 OK, 1 OPEN, 2 SHORT. -/
def flowLine (ua : Nat) (held : Bool) : Nat := if ua < 500 then 1 else if 50000 < ua || held then 2 else 0

/-- R593: how a TIN or TOUT line is classified by its sense voltage in per mille of the excitation. -/
def tempLine (pm : Nat) : Nat := if 950 < pm then 1 else if pm < 50 then 2 else 0

/-- R593: what a reading leaves of the sensors. A line that is not seen OK gives no new value (DEDUCED, log 58). -/
def Card.reading (c : Card) (x : Sensors) (now : Nat) : Card :=
  let fl := flowLine x.flowUa x.held
  let ti := tempLine x.tinPm
  let tu := tempLine x.toutPm
  let (c, a) := c.classify 0 fl now
  let (c, b) := c.classify 1 ti now
  let (c, d) := c.classify 2 tu now
  { c with flow := if fl = 0 then x.flow % 65536 else c.flow, tin := if ti = 0 then x.tin else c.tin, tout := if tu = 0 then x.tout else c.tout,
           flowL := if a then fl else c.flowL, tinL := if b then ti else c.tinL, toutL := if d then tu else c.toutL }

/-- R593, R594: a reading, and the cap that its cause sets. -/
def State.coolant (s : State) (x : Sensors) : State :=
  let c := s.card.reading x s.now
  { s with card := if c.coolCause then { c with coolCap := true, coolAt := s.now } else c }

def execCoolantSensorRead (x : Sensors) (now : Nat) (s : State) : Host.Outcome State Fault Refusal := .next ((s.tick now).coolant x)

/-- R594: 10 s without a cause. -/
def State.coolLift (s : State) : State :=
  if s.card.coolCap ∧ ! s.card.coolCause ∧ s.card.coolAt + 10000000000 ≤ s.now then { s with card := { s.card with coolCap := false } } else s

def execCoolingCapLift (now : Nat) (s : State) : Host.Outcome State Fault Refusal := .next ((s.tick now).coolLift)

/-! ### LEDs (R538, R595) -/

/-- Colours of an LED, with a flashing rate in Hz (0 steady). -/
inductive Led where
  | off | green (hz : Nat) | amber (hz : Nat) | red (hz : Nat)
  deriving DecidableEq, Repr

/-- The status LED (R538). -/
def State.statusLed (s : State) : Led :=
  if s.power.off then .off
  else match s.health with
    | 0 => .amber 0 | 1 => .green 0 | 2 => .green 1 | 3 => .amber 1 | 4 => .red 0 | _ => .red 4

/-- The auxiliary LED (R588, R595). -/
def State.auxLed (s : State) : Led :=
  if s.card.mv < -500 then .red 0
  else if s.power.off ∨ s.card.mv < 36000 then .off
  else if s.card.auxLow ∨ s.card.coolCap then .amber 0
  else .green 0

/-- The LED of a cage (R595). -/
def State.cageLed (s : State) (q : Nat) : Led :=
  let c := s.cage q
  let bps := (List.range (s.port q).bpCount).map fun k => s.bp q k
  if c.fault then .red 0
  else if ! c.present then .off
  else if c.lowpwr ∨ c.tripped then .amber 1
  else if ! bps.any (fun b => b.up) then .off
  else if bps.all fun b => b.up && ! b.degraded then .green 0
  else .amber 0

end Sys2Proof.Machine
end

