-- ==== Sys2Proof/Machine/Bist.lean ====
section
/-!
DEFINITION. Bist.lean: self-test, its results, and the clearing of secrets (R545-R555).
-/

namespace Sys2Proof.Machine

/-! ### Results (R545, R554) -/

/-- Failing units of a scope: region n's, or for 4 the chip-level units (R466, R554). -/
def badOf (i : Nat) (bad : List Nat) : List Nat :=
  bad.filter fun u => match regionOfUnit (u / 256) with | some n => n = i | none => i = 4

/-- The result of a complete run of a depth over a scope; its duration and the spares it fills are open (R2, R545). -/
def State.bistResult (s : State) (i : Nat) (full : Bool) (bad : List Nat) (boot : Bool) : BistRes :=
  let l := badOf i bad
  { result := if l = [] then 1 else 2, full := full, boot := boot, lcov := if full then 970 else 720, mcov := if full then 1000 else 125,
    dur := s.freeVal / 2 ^ (8 * i) % 2 ^ 32, fails := min 0xFFFF l.length,
    spares := s.bump.freeVal / 2 ^ (8 * i) % 2 ^ 16, funit := l.headD 0xFFFF, time := if boot then 0 else s.clk.time }

/-! ### A region (R548) -/

/-- Regions that may be tested now, of those asked for: fenced, and nothing under test. -/
def State.mayTest (s : State) (mask : Nat) : Option Nat :=
  if s.bist.run.isSome ∨ s.bist.crun ∨ s.err.fatal then none else ((bitList 4 mask).filter fun n => s.fenced n).head?

/-- The blocks that a chip test finds failing, where the command does not say: open (R549). -/
def State.openBad (s : State) : List Nat := ((List.range 93).filter s.openPick).map fun b => 256 * b + 0xFF

/-- The chip test may start (R549). -/
def State.mayTestChip (s : State) : Bool :=
  (List.range 16).all (fun p => ! (s.part p).cur.holds) && ! s.mgmt.sa && s.jrnl.used = 0 && s.bist.run.isNone

/-- R548 step 1: the domain is powered with every valid bit clear. -/
def State.testStart (s : State) (n : Nat) : State :=
  let s := { s with bist := { s.bist with run := some (n, s.now) }, err := { s.err with tested := s.err.tested.filter fun m => m ≠ n } }
  (s.modDom n fun d => { d with st := 4, k := 0, since := s.now }).wakeStart n

/-- R551: every secret is cleared, with what the valid bits of on-die SRAM and the touched bits of DRAM guard (UNVERIFIED, log 59). -/
def State.clearSecrets (s : State) : State :=
  let host := s.mem.bytes.filter fun (c : Host.Cell) => decide (c.1 < cellKey dramSpace 0)
  let bad := s.mem.poison.filter fun l => decide (l * 64 < cellKey dramSpace 0)
  let fns := s.fns.map fun (f : Nat × FnState) => (f.1, ({ gen := f.2.gen, cnt := f.2.cnt, msix := f.2.msix, rawmap := f.2.rawmap, ats := { enable := f.2.ats.enable, pri := f.2.ats.pri, alloc := f.2.ats.alloc } } : FnState))
  let parts := s.parts.map fun (p : Nat × Part) => (p.1, { p.2 with slots := [], mslots := [] })
  { s with mem := { s.mem with bytes := host, poison := bad, pages := [], rekeys := [], keys := [], devKey := none, drk := false, touched := [], atc := [], dir := [], lines := [] },
           fns := fns, parts := parts, links := s.links.map fun (l : Nat × Link) => (l.1, { l.2 with ideKeys := [] }),
           mesh := { s.mesh with circs := [] },
           sec := { s.sec with peers := [], contacts := [], sessions := [], drbg := 0 },
           bist := { s.bist with cleared := true } }

/-- R549: the chip test runs, and the chip resets with its results kept in the always-on island. -/
def State.testChip (s : State) (bad : List Nat) : State :=
  let s := s.clearSecrets
  let res : AMap BistRes := (List.range 5).map fun i => (i, s.bistResult i true bad true)
  let s := s.bump.bump.restart false
  { s with bist := { s.bist with res := res, kept := true } }.refStable 0

/-- A write of BIST_CTL (R548, R549, R555): REGION in bits 3:0, CHIP in bit 8; `bad` are the units that a chip test would find failing. -/
def State.bistCtl (s : State) (o : Origin) (width v : Nat) (bad : List Nat) : State :=
  let chip := v.testBit 8 && s.mayTestChip
  match s.mayTest (v % 16) with
  | some n => s.setupWrite o 0x2000000 width false 0 v fun s => s.testStart n
  | none => s.setupWrite o 0x2000000 width (! chip) 0 v fun s => s.testChip bad

def execBistRegionStart (o : Origin) (mask : Nat) (s : State) : Host.Outcome State Fault Refusal := .next (s.bistCtl o 8 (mask % 16) [])

def execBistChipStart (o : Origin) (bad : List Nat) (s : State) : Host.Outcome State Fault Refusal := .next (s.bistCtl o 8 256 bad)

/-- R548: a region's test ends: PASS if no unit failed. Its record waits for space in a full journal (R440). -/
def State.testEnd (s : State) (n fails spares funit : Nat) : State :=
  match s.bist.run with
  | some (m, _) =>
    if m ≠ n ∨ s.jrnl.full then s else
      let s := s.bistEnd (if fails = 0 then 1 else 2) (min 0xFFFF fails) (spares % 2 ^ 16) (if fails = 0 then 0xFFFF else funit)
      if fails = 0 then { s with err := { s.err with tested := s.err.tested ++ [n] } } else s
  | none => s

def execBistRegionEnd (region : Fin 4) (fails spares funit now : Nat) (s : State) : Host.Outcome State Fault Refusal :=
  .next ((s.tick now).testEnd region.val fails spares funit)

/-- R552: a scan instruction is selected on the TAP of a CE card: journalled, then every secret is cleared. The TAP of a CL card is not
connected. -/
def State.tapSelect (s : State) : State :=
  if ! Config.cardIsCE ∨ s.jrnl.full then s else (s.jCommit .firmware (.fw 5 s.freeVal)).bump.clearSecrets

def execTapScanSelect (s : State) : Host.Outcome State Fault Refusal := .next s.tapSelect

end Sys2Proof.Machine
end

