-- ==== Sys2Proof/Machine/Operands.lean ====
section
/-!
DEFINITION. Operands.lean: the bytes of a submission entry and the ring command they spell, with every operand form of the body layouts
(R15, R50-R52, R65, R66, R72, R79, R80, R95, R98, R102, R104, R112, R116, R119, R120, R126, R136, R196, R227, R234, R235, R240, R257,
R259, R261, R267, R280, R305, R308, R309, R350, R391, R426, R531, R532). An entry is the number its bytes spell, least significant
first, so byte b holds bits 8b + 7 to 8b.
-/

namespace Sys2Proof.Machine

/-- A used field of an entry: bit `lo` of byte `b`, `w` bits. -/
def bitsAt (b lo w : Nat) : Nat × Nat := (8 * b + lo, w)

/-- Whole bytes: n from byte b. -/
def octs (b n : Nat) : Nat × Nat := (8 * b, 8 * n)

/-- A field's value. -/
def fieldAt (v : Nat) (x : Nat × Nat) : Nat := bitsOf v x.1 x.2

/-- A one-bit field. -/
def flag (v b lo : Nat) : Bool := v.testBit (8 * b + lo)

/-- R12: a bit outside the header and the used fields is set. Used fields do not overlap. -/
def rsvSet (v : Nat) (used : List (Nat × Nat)) : Bool :=
  decide (v ≠ used.foldl (fun n x => n + bitsOf v x.1 x.2 * 2 ^ x.1) (bitsOf v 0 64))

/-- The entry of a header on a ring (R50), with its reserved bits looked at. -/
def entryOf (fn : Fn) (ring v : Nat) (used : List (Nat × Nat)) : Entry :=
  { fn := fn, ring := ring, tag := hdrTag v, gen := hdrGen v, slots := hdrSlots v, rsv := rsvSet v used }

/-! ### Bodies -/

/-- R80: the one-sided operations and TSEND. -/
def oneSidedOf (v : Nat) : OneSided :=
  { conn := fieldAt v (bitsAt 8 0 20), lspace := flag v 12 0, ltEn := flag v 12 1, laddr := fieldAt v (octs 16 8), len := fieldAt v (octs 24 4),
    wref := fieldAt v (octs 28 4), roff := fieldAt v (octs 32 8), opnd1 := BitVec.ofNat 64 (fieldAt v (octs 40 8)), opnd2 := BitVec.ofNat 64 (fieldAt v (octs 48 8)),
    ltally := fieldAt v (octs 56 2) }

/-- R80: the fields every one of them uses; WREF is 12 bits for TSEND. -/
def oneSidedUsed (opcode : Nat) : List (Nat × Nat) :=
  [bitsAt 8 0 20, bitsAt 12 0 2, octs 16 8, octs 24 4, bitsAt 28 0 (if opcode = 0x050 then 12 else 32), octs 32 8, octs 56 2] ++
  (if opcode = 0x042 then [octs 40 4] else if 0x048 ≤ opcode ∧ opcode ≤ 0x04D then [octs 40 8] else []) ++
  (if opcode = 0x04D then [octs 48 8] else [])

/-- R95. -/
def winOpenOf (v : Nat) : WinOpenBody :=
  { base := fieldAt v (octs 8 8), length := fieldAt v (octs 16 8), rd := flag v 24 0, wr := flag v 24 1, atom := flag v 24 2, notify := flag v 24 3,
    space := flag v 24 4, nring := fieldAt v (bitsAt 26 0 10), oneConn := flag v 31 7, scope := fieldAt v (bitsAt 28 0 20), btally := fieldAt v (octs 32 2),
    btEn := flag v 34 0 }

def winOpenUsed (v : Nat) : List (Nat × Nat) :=
  [octs 8 8, octs 16 8, bitsAt 24 0 5, bitsAt 26 0 10, bitsAt 31 7 1, octs 32 2, bitsAt 34 0 1] ++ (if flag v 31 7 then [bitsAt 28 0 20] else [])

/-- R104. -/
def trecvOf (v : Nat) : TrecvBody :=
  { list := fieldAt v (bitsAt 8 0 12), any := flag v 15 7, src := fieldAt v (bitsAt 12 0 20), laddr := fieldAt v (octs 16 8), len := fieldAt v (octs 24 4),
    lspace := flag v 28 0, tag := BitVec.ofNat 64 (fieldAt v (octs 32 8)), ignore := BitVec.ofNat 64 (fieldAt v (octs 40 8)), info := fieldAt v (octs 48 8) }

def trecvUsed : List (Nat × Nat) := [bitsAt 8 0 12, bitsAt 15 7 1, bitsAt 12 0 20, octs 16 8, octs 24 4, bitsAt 28 0 1, octs 32 8, octs 40 8, octs 48 8]

/-- R119: the trigger of an ARM, with the fields it uses. -/
def triggerOf (v : Nat) : Trigger :=
  let t := fieldAt v (octs 8 1)
  if t = 0 then .tally (fieldAt v (octs 10 2)) (fieldAt v (octs 16 8))
  else if t = 1 then .msg
    { list := fieldAt v (bitsAt 12 0 12), any := flag v 59 7, src := fieldAt v (bitsAt 56 0 20), laddr := fieldAt v (octs 40 8), len := fieldAt v (octs 48 4),
      lspace := flag v 52 0, tag := BitVec.ofNat 64 (fieldAt v (octs 24 8)), ignore := BitVec.ofNat 64 (fieldAt v (octs 32 8)), info := 0 }
  else if t = 2 then .time (fieldAt v (octs 16 8))
  else .reserved t

def triggerUsed (v : Nat) : List (Nat × Nat) :=
  let t := fieldAt v (octs 8 1)
  octs 8 1 :: (if t = 0 then [octs 10 2, octs 16 8]
    else if t = 1 then [bitsAt 12 0 12, bitsAt 59 7 1, bitsAt 56 0 20, octs 40 8, octs 48 4, bitsAt 52 0 1, octs 24 8, octs 32 8]
    else [octs 16 8])

/-- R116: the fields of tally commands; TALLY is reserved in TALLY_ALLOC. -/
def tallyUsed (opcode : Nat) : List (Nat × Nat) := [octs 16 8, octs 24 8] ++ (if opcode = 0x070 then [] else [octs 8 2])

/-- R120: the embedded entry of an ARM. -/
def embedOf (v : Nat) : Embed :=
  let op := hdrOpcode v
  let used := if op = 0x072 ∨ op = 0x073 then tallyUsed op else oneSidedUsed op
  { opcode := op, slots := hdrSlots v, gen := hdrGen v, phase := hdrPhase v, rsv := rsvSet v used, body := oneSidedOf v,
    imm := BitVec.ofNat 32 (fieldAt v (octs 40 4)), tally := fieldAt v (octs 8 2), value := BitVec.ofNat 64 (fieldAt v (octs 16 8)) }

/-- R136. The address is a byte string in network order (R15). -/
def connectOf (v : Nat) : ConnectBody :=
  { peerIp := ipField (fieldAt v (octs 8 16)), service := fieldAt v (octs 24 4), peerPort := fieldAt v (octs 28 2), ports := fieldAt v (octs 30 1),
    paths := fieldAt v (octs 31 1), pmtu := fieldAt v (octs 32 1), cls := fieldAt v (bitsAt 33 0 3), vid := fieldAt v (bitsAt 34 0 12), pcp := fieldAt v (bitsAt 34 12 3),
    ven := flag v 34 15, laddrIdx := fieldAt v (octs 36 1), tsel := fieldAt v (octs 37 1) }

def connectUsed : List (Nat × Nat) :=
  [octs 8 16, octs 24 4, octs 28 2, octs 30 1, octs 31 1, octs 32 1, bitsAt 33 0 3, octs 34 2, octs 36 1, octs 37 1]

/-- R235. -/
def herdOf (v : Nat) : HerdBody :=
  { nmemb := fieldAt v (octs 8 4), rank := fieldAt v (bitsAt 12 0 13), hring := fieldAt v (bitsAt 14 0 10), defalg := fieldAt v (octs 16 1), defchunk := fieldAt v (octs 17 1),
    ports := fieldAt v (octs 18 1), paths := fieldAt v (octs 19 1), pmtu := fieldAt v (octs 20 1), rblk := fieldAt v (bitsAt 21 0 3), a2a := flag v 21 3,
    laddrIdx := fieldAt v (octs 22 1), tsel := fieldAt v (octs 23 1), label := BitVec.ofNat 64 (fieldAt v (octs 24 8)), mtab := fieldAt v (octs 32 8),
    soff := fieldAt v (octs 40 8), slen := fieldAt v (octs 48 4), hb := fieldAt v (octs 52 2) }

def herdUsed : List (Nat × Nat) :=
  [octs 8 4, bitsAt 12 0 13, bitsAt 14 0 10, octs 16 1, octs 17 1, octs 18 1, octs 19 1, octs 20 1, bitsAt 21 0 4, octs 22 1, octs 23 1, octs 24 8, octs 32 8, octs 40 8,
   octs 48 4, octs 52 2]

/-- R240, with the quantisation block (R227) and the fields of dispatch and combine (R257). -/
def collOf (v : Nat) : CollBody :=
  { herd := fieldAt v (bitsAt 8 0 12), alg := fieldAt v (octs 10 1), ifmt := fieldAt v (bitsAt 11 0 4), ofmt := fieldAt v (bitsAt 11 4 4), op := fieldAt v (bitsAt 12 0 4),
    mode := fieldAt v (bitsAt 12 4 2), pacc := flag v 12 6, sat := flag v 12 7, sspace := flag v 13 0, dspace := flag v 13 1, ltEn := flag v 13 2,
    ptEn := flag v 13 3, qen := flag v 13 4, root := fieldAt v (bitsAt 14 0 13), src := fieldAt v (octs 16 8), dst := fieldAt v (octs 24 8),
    count := fieldAt v (octs 32 8), ltally := fieldAt v (octs 40 2), ptally := fieldAt v (octs 42 2), chunk := fieldAt v (octs 44 1),
    qblk := { wfmt := fieldAt v (bitsAt 48 0 4), ef := flag v 49 0, reset := flag v 49 1, resOff := fieldAt v (octs 56 8) },
    recaddr := fieldAt v (octs 64 8), ntok := fieldAt v (octs 72 4), rowb := fieldAt v (octs 76 2), k := fieldAt v (octs 78 1), rtab := fieldAt v (octs 80 8),
    emap := fieldAt v (octs 88 8), nexp := fieldAt v (octs 96 2), cap := fieldAt v (octs 100 4), cnt := fieldAt v (octs 104 8), wtab := fieldAt v (octs 112 8),
    mta := fieldAt v (octs 120 8) }

/-- Every field of the body; which of them an opcode reserves is weighed with its other checks. -/
def collUsed : List (Nat × Nat) :=
  [bitsAt 8 0 12, octs 10 1, octs 11 1, octs 12 1, bitsAt 13 0 5, bitsAt 14 0 13, octs 16 8, octs 24 8, octs 32 8, octs 40 2, octs 42 2, octs 44 1, bitsAt 48 0 4, bitsAt 49 0 2,
   octs 56 8, octs 64 8, octs 72 4, octs 76 2, octs 78 1, octs 80 8, octs 88 8, octs 96 2, octs 100 4, octs 104 8, octs 112 8, octs 120 8]

/-- R261. -/
def attnOf (v : Nat) : AttnBody :=
  { sess := fieldAt v (bitsAt 8 0 6), skey := fieldAt v (bitsAt 12 0 26), dcode := fieldAt v (octs 16 1), nqh := fieldAt v (octs 17 1), nkvh := fieldAt v (octs 18 1),
    qfmt := fieldAt v (bitsAt 19 0 4), ofmt := fieldAt v (bitsAt 19 4 4), kvfmt := fieldAt v (bitsAt 20 0 4), cmode := flag v 20 4, sat := flag v 20 5,
    omode := flag v 20 6, causal := flag v 21 0, window := flag v 21 1, nbuf := fieldAt v (octs 22 1), cunits := fieldAt v (octs 23 1),
    scale := BitVec.ofNat 32 (fieldAt v (octs 24 4)), win := fieldAt v (bitsAt 28 0 24), nq := fieldAt v (bitsAt 32 0 25), qspace := flag v 36 0,
    ospace := flag v 36 1, ltEn := flag v 36 2, rtEn := flag v 36 3, lseEn := flag v 36 4, blks := fieldAt v (octs 40 8), qaddr := fieldAt v (octs 48 8),
    qpos := fieldAt v (octs 56 8), oaddr := fieldAt v (octs 64 8), qstride := fieldAt v (octs 72 4), ostride := fieldAt v (octs 76 4), laddr := fieldAt v (octs 80 8),
    expect := fieldAt v (octs 88 8), ltally := fieldAt v (octs 96 2), rtally := fieldAt v (octs 98 2) }

/-- WIN is reserved without WINDOW (R261), and LADDR where no statistics are written (R280). -/
def attnUsed (v : Nat) : List (Nat × Nat) :=
  [bitsAt 8 0 6, bitsAt 12 0 26, octs 16 1, octs 17 1, octs 18 1, octs 19 1, bitsAt 20 0 7, bitsAt 21 0 2, octs 22 1, octs 23 1, octs 24 4, bitsAt 32 0 25, bitsAt 36 0 5,
   octs 40 8, octs 48 8, octs 56 8, octs 64 8, octs 72 4, octs 76 4, octs 88 8, octs 96 2, octs 98 2] ++
  (if flag v 21 1 then [bitsAt 28 0 24] else []) ++ (if flag v 20 6 ∨ flag v 36 4 then [octs 80 8] else [])

/-- R267. -/
def feedOf (v : Nat) : FeedBody :=
  { conn := fieldAt v (bitsAt 8 0 20), local_ := flag v 11 7, sref := fieldAt v (octs 12 4), kvh := fieldAt v (octs 16 1), kvfmt := fieldAt v (bitsAt 17 0 4),
    space := flag v 17 4, ltEn := flag v 17 5, dcode := fieldAt v (octs 18 1), ntok := fieldAt v (octs 20 4), pos0 := fieldAt v (bitsAt 24 0 24),
    kaddr := fieldAt v (octs 28 8), vaddr := fieldAt v (octs 36 8), kstride := fieldAt v (octs 44 4), vstride := fieldAt v (octs 48 4), ltally := fieldAt v (octs 52 2) }

/-- CONN is reserved with LOCAL; the strides of MX formats are weighed with the other checks. -/
def feedUsed (v : Nat) : List (Nat × Nat) :=
  [bitsAt 11 7 1, octs 12 4, octs 16 1, bitsAt 17 0 6, octs 18 1, octs 20 4, bitsAt 24 0 24, octs 28 8, octs 36 8, octs 44 4, octs 48 4, octs 52 2] ++
  (if flag v 11 7 then [] else [bitsAt 8 0 20])

/-- R309. -/
def launchOf (v : Nat) : LaunchBody :=
  { handle := fieldAt v (bitsAt 8 0 6), lref := fieldAt v (octs 12 4), blks := fieldAt v (octs 16 8), saveOff := fieldAt v (octs 24 8), saveLen := fieldAt v (octs 32 8),
    args := fieldAt v (octs 40 8), ptab := fieldAt v (octs 48 8), ttab := fieldAt v (octs 56 8), spwait := fieldAt v (octs 64 2), ltally := fieldAt v (octs 66 2),
    ltEn := flag v 68 0 }

def launchUsed : List (Nat × Nat) :=
  [bitsAt 8 0 6, octs 12 4, octs 16 8, octs 24 8, octs 32 8, octs 40 8, octs 48 8, octs 56 8, octs 64 2, octs 66 2, bitsAt 68 0 1]

/-- R196: what Q_STOP and Q_START use of bytes 12 to 15, by scope. -/
def stopWidth (scope : Nat) : Nat := if scope = 0 then 20 else if scope = 1 then 3 else 0

/-! ### Ring commands (R65, R79, R136, R196, R234, R259, R305, R350, R391, R426, R531, R532) -/

/-- Ring commands of opcodes 0x000 to 0x03F, and the frame forms. -/
def ringEntry (fn : Fn) (ring op v : Nat) : Option Instr :=
  let e := entryOf fn ring v
  let r := fieldAt v (bitsAt 8 0 10)
  if op = 0x000 then some (.nop { e [] with rsv := false })
  else if op = 0x001 then some (.fence (e [bitsAt 8 0 3]) (flag v 8 0) (flag v 8 1) (flag v 8 2))
  else if op = 0x002 then some (.ringInval (e [bitsAt 8 0 10, octs 12 2, octs 16 4]) r (fieldAt v (octs 12 2)) (fieldAt v (octs 16 4)))
  else if op = 0x003 then some (.ringCreate (e [bitsAt 8 0 10, octs 10 1, octs 11 1, bitsAt 12 0 3, octs 16 8, octs 24 8]) r (fieldAt v (octs 10 1))
    (fieldAt v (octs 11 1)) (fieldAt v (bitsAt 12 0 3)) (fieldAt v (octs 16 8)) (fieldAt v (octs 24 8)))
  else if op = 0x004 then some (.ringDestroy (e [bitsAt 8 0 10]) r)
  else if op = 0x005 then some (.ringPause (e [bitsAt 8 0 10]) r)
  else if op = 0x006 then some (.ringResume (e [bitsAt 8 0 10]) r)
  else if op = 0x007 then some (.ringFlush (e [bitsAt 8 0 10]) r)
  else if op = 0x008 then some (.dbgCfg (e [octs 8 1, octs 10 2]) (fieldAt v (octs 8 1)) (fieldAt v (octs 10 2)))
  else if op = 0x009 then some (.cqModerate (e [bitsAt 8 0 10, octs 10 1, bitsAt 12 0 10]) r (fieldAt v (octs 10 1)) (fieldAt v (bitsAt 12 0 10)))
  else if op = 0x7F0 then some (.frameTx (e [bitsAt 8 0 6, octs 10 2, octs 16 8]) (fieldAt v (bitsAt 8 0 3)) (fieldAt v (bitsAt 8 3 2)) (flag v 8 5)
    (fieldAt v (octs 16 8)) (fieldAt v (octs 10 2)))
  else if op = 0x7F1 then some (.frameRxbuf (e [octs 12 4, octs 16 8]) (fieldAt v (octs 16 8)) (fieldAt v (octs 12 4)))
  else none

/-- Remote operations, tags, windows, tallies and armed requests: 0x040 to 0x0FF. -/
def remoteEntry (fn : Fn) (ring op v : Nat) : Option Instr :=
  let e := entryOf fn ring v
  let one := e (oneSidedUsed op)
  let b := oneSidedOf v
  let t := fieldAt v (octs 8 2)
  let value := BitVec.ofNat 64 (fieldAt v (octs 16 8))
  if op = 0x040 then some (.write one b)
  else if op = 0x041 then some (.read one b)
  else if op = 0x042 then some (.writeNotify one b (BitVec.ofNat 32 (fieldAt v (octs 40 4))))
  else if op = 0x048 then some (.atFadd one b)
  else if op = 0x049 then some (.atFand one b)
  else if op = 0x04A then some (.atFor one b)
  else if op = 0x04B then some (.atFxor one b)
  else if op = 0x04C then some (.atSwap one b)
  else if op = 0x04D then some (.atCas one b)
  else if op = 0x050 then some (.tsend one b)
  else if op = 0x051 then some (.trecv (e trecvUsed) (trecvOf v))
  else if op = 0x052 then some (.trecvCancel (e [octs 8 2, octs 12 4]) (fieldAt v (octs 8 2)) (BitVec.ofNat 32 (fieldAt v (octs 12 4))))
  else if op = 0x053 then some (.mlistCreate (e [bitsAt 8 0 12, octs 12 4]) (fieldAt v (bitsAt 8 0 12)) (fieldAt v (octs 12 4)))
  else if op = 0x054 then some (.mlistDestroy (e [bitsAt 8 0 12]) (fieldAt v (bitsAt 8 0 12)))
  else if op = 0x060 then some (.winOpen (e (winOpenUsed v)) (winOpenOf v))
  else if op = 0x061 then some (.winRevoke (e [octs 8 4]) (fieldAt v (octs 8 4)))
  else if op = 0x070 then some (.tallyAlloc (e (tallyUsed op)) value)
  else if op = 0x071 then some (.tallyFree (e (tallyUsed op)) t)
  else if op = 0x072 then some (.tallyAdd (e (tallyUsed op)) t value)
  else if op = 0x073 then some (.tallySet (e (tallyUsed op)) t value)
  else if op = 0x074 then some (.tallyRead (e (tallyUsed op)) t (fieldAt v (octs 24 8)))
  else if op = 0x080 then
    -- slot 0 holds the trigger; the embedded entry follows it
    let head := v % 2 ^ 512
    some (.arm { entryOf fn ring v [] with rsv := rsvSet head (triggerUsed head) } (triggerOf head) (embedOf (v / 2 ^ 512)))
  else if op = 0x081 then some (.armCancel (e [octs 12 4]) (BitVec.ofNat 32 (fieldAt v (octs 12 4))))
  else none

/-- Connections: 0x100 to 0x17F; shaping and gates: 0x180 to 0x1FF. -/
def connEntry (fn : Fn) (ring op v : Nat) : Option Instr :=
  let e := entryOf fn ring v
  let h := fieldAt v (bitsAt 8 0 20)
  if op = 0x100 then some (.connConnect (e connectUsed) (connectOf v))
  else if op = 0x101 then some (.connListen (e [octs 8 4, bitsAt 12 0 10, octs 14 1, octs 16 4]) (fieldAt v (octs 8 4)) (fieldAt v (octs 14 1)) (fieldAt v (bitsAt 12 0 10))
    (fieldAt v (octs 16 4)))
  else if op = 0x102 then some (.connUnlisten (e [octs 8 4, octs 14 1]) (fieldAt v (octs 8 4)) (fieldAt v (octs 14 1)))
  else if op = 0x103 then some (.connClose (e [bitsAt 8 0 20]) h)
  else if op = 0x104 then some (.connAbort (e [bitsAt 8 0 20]) h)
  else if op = 0x105 then some (.connQuery (e [bitsAt 8 0 20, octs 16 8]) h (fieldAt v (octs 16 8)))
  else if op = 0x106 then some (.connModify (e [bitsAt 8 0 20, octs 12 1, octs 13 1]) h (fieldAt v (octs 12 1)) (fieldAt v (octs 13 1)))
  else if op = 0x180 then some (.gateLoad (e [octs 8 1, octs 10 2, octs 16 8, octs 24 8]) (fieldAt v (octs 8 1)) (fieldAt v (octs 10 2)) (fieldAt v (octs 24 8))
    (fieldAt v (octs 16 8)))
  else if op = 0x188 then
    let w := stopWidth (fieldAt v (octs 8 1))
    some (.qStop (e [octs 8 1, bitsAt 12 0 w]) (fieldAt v (octs 8 1)) (fieldAt v (bitsAt 12 0 w)))
  else if op = 0x189 then
    let w := stopWidth (fieldAt v (octs 8 1))
    some (.qStart (e [octs 8 1, bitsAt 12 0 w]) (fieldAt v (octs 8 1)) (fieldAt v (bitsAt 12 0 w)))
  else if op = 0x18A then some (.qSample (e [octs 16 8]) (fieldAt v (octs 16 8)))
  else none

/-- Herds, collectives and attention: 0x200 to 0x2FF. -/
def herdEntry (fn : Fn) (ring op v : Nat) : Option Instr :=
  let e := entryOf fn ring v
  let c := e collUsed
  let b := collOf v
  let x := fieldAt v (octs 8 4)
  if op = 0x200 then some (.herdCreate (e herdUsed) (herdOf v))
  else if op = 0x201 then some (.herdDestroy (e [bitsAt 8 0 12]) (fieldAt v (bitsAt 8 0 12)))
  else if op = 0x202 then some (.herdQuery (e [bitsAt 8 0 12, octs 16 8]) (fieldAt v (bitsAt 8 0 12)) (fieldAt v (octs 16 8)))
  else if op = 0x210 then some (.collAllreduce c b)
  else if op = 0x211 then some (.collReduceScatter c b)
  else if op = 0x212 then some (.collAllgather c b)
  else if op = 0x213 then some (.collBcast c b)
  else if op = 0x214 then some (.collReduce c b)
  else if op = 0x215 then some (.collAlltoall c b)
  else if op = 0x216 then some (.collDispatch c b)
  else if op = 0x217 then some (.collCombine c b)
  else if op = 0x218 then some (.collBarrier c b)
  else if op = 0x280 then some (.attnOpen (e (attnUsed v)) (attnOf v))
  else if op = 0x281 then some (.attnFeed (e (feedUsed v)) (feedOf v))
  else if op = 0x282 then some (.attnFinish (e [octs 8 4]) x)
  else if op = 0x283 then some (.attnAbort (e [octs 8 4]) x)
  else if op = 0x284 then some (.attnQuery (e [octs 8 4, octs 16 8]) x (fieldAt v (octs 16 8)))
  else none

/-- Programs, memory, partitions and keys: 0x300 to 0x4FF. -/
def progEntry (fn : Fn) (ring op v : Nat) : Option Instr :=
  let e := entryOf fn ring v
  let x := fieldAt v (octs 8 4)
  let p := fieldAt v (octs 8 1)
  let a := fieldAt v (octs 16 8)
  if op = 0x300 then some (.progLoad (e [bitsAt 8 0 1, octs 16 8, octs 24 4, octs 32 8, octs 40 4]) (flag v 8 0) a (fieldAt v (octs 24 4)) (fieldAt v (octs 32 8))
    (fieldAt v (octs 40 4)))
  else if op = 0x301 then some (.progUnload (e [bitsAt 8 0 6]) (fieldAt v (bitsAt 8 0 6)))
  else if op = 0x302 then some (.progLaunch (e launchUsed) (launchOf v))
  else if op = 0x303 then some (.progStop (e [octs 8 4]) x)
  else if op = 0x304 then some (.progQuery (e [octs 8 4, octs 16 8]) x a)
  else if op = 0x380 then some (.atcPrefetch (e [octs 8 8, octs 16 8, bitsAt 24 0 2]) (fieldAt v (octs 8 8)) a (flag v 24 0) (flag v 24 1))
  else if op = 0x381 then some (.sliceRekey (e [octs 8 8, octs 16 4, bitsAt 20 0 6]) (fieldAt v (octs 8 8)) (fieldAt v (octs 16 4)) (fieldAt v (bitsAt 20 0 6)))
  else if op = 0x382 then some (.sliceInfo (e [octs 16 8]) a)
  else if op = 0x400 then some (.partApply (e [octs 8 1, octs 12 4, octs 16 8]) p (fieldAt v (octs 12 4)) a)
  else if op = 0x401 then some (.partReset (e [octs 8 1]) p)
  else if op = 0x402 then some (.partFreeze (e [octs 8 1, octs 12 4]) p (fieldAt v (octs 12 4)))
  else if op = 0x403 then some (.partSave (e [octs 8 1, octs 9 1, octs 16 8, octs 24 4]) p a (fieldAt v (octs 24 4)) (fieldAt v (octs 9 1)))
  else if op = 0x404 then some (.partRestore (e [octs 8 1, octs 9 1, octs 16 8, octs 24 4]) p a (fieldAt v (octs 24 4)) (fieldAt v (octs 9 1)))
  else if op = 0x405 then some (.partThaw (e [octs 8 1]) p)
  else if op = 0x406 then some (.partQuery (e [octs 8 1, octs 16 8]) p a)
  else if op = 0x480 then some (.keySelSet (e [bitsAt 8 0 2, octs 9 1]) (fieldAt v (bitsAt 8 0 2)) (fieldAt v (octs 9 1)))
  else if op = 0x481 then some (.keySelClear (e [bitsAt 8 0 2]) (fieldAt v (bitsAt 8 0 2)))
  else if op = 0x482 then some (.keyAdvance (e [bitsAt 8 0 20]) (fieldAt v (bitsAt 8 0 20)))
  else if op = 0x483 then some (.keySeal (e [octs 8 1, bitsAt 9 0 2, octs 16 8, octs 24 8, octs 32 4]) p (flag v 9 0) (flag v 9 1) a (fieldAt v (octs 24 8))
    (fieldAt v (octs 32 4)))
  else if op = 0x484 then some (.keyUnseal (e [octs 8 1, bitsAt 9 0 2, octs 16 8, octs 24 8, octs 32 4]) p (flag v 9 0) (flag v 9 1) a (fieldAt v (octs 24 8))
    (fieldAt v (octs 32 4)))
  else if op = 0x485 then some (.keyStatus (e [octs 16 8]) a)
  else none

/-- The ring command an entry's bytes spell; none for a reserved opcode (R51). -/
def decodeEntry (fn : Fn) (ring v : Nat) : Option Instr :=
  let op := hdrOpcode v
  if op < 0x040 ∨ 0x500 ≤ op then ringEntry fn ring op v
  else if op < 0x100 then remoteEntry fn ring op v
  else if op < 0x200 then connEntry fn ring op v
  else if op < 0x300 then herdEntry fn ring op v
  else progEntry fn ring op v

end Sys2Proof.Machine
end

