-- ==== Sys2Proof/Machine/Regs.lean ====
section
/-!
DEFINITION. Regs.lean: the setup register map and the instance register map: which register an offset names, what it reads, what a read
clears and what a write does (R529, R530, R533, R580, R598-R613 and the register tables they name).
-/

namespace Sys2Proof.Machine

/-! ### Stand-alone registers (R529, R533) -/

/-- R529, R544: a write of MGMT_SA_CFG. -/
def State.saCfgWrite (s : State) (o : Origin) (width v : Nat) : State :=
  let sizes := bitsOf v 0 5 + 2 ^ 8 * bitsOf v 8 5
  let old := s.reg 0x3000020 + 2 ^ 30 * bit s.mgmt.saErr + 2 ^ 31 * bit s.mgmt.saEn
  s.setupWrite o 0x3000020 width false old v fun s =>
    let s := s.setReg 0x3000020 sizes
    let sq := bitsOf v 0 5
    let cq := bitsOf v 8 5
    if ! v.testBit 31 then s
    else if 6 ≤ sq ∧ sq ≤ 16 ∧ 6 ≤ cq ∧ cq ≤ 16 ∧ (s.ring 0 1).state = .free then
      let r := newRing sq cq 0 (s.reg 0x3000010) (s.reg 0x3000018) true
      { s with mgmt := { s.mgmt with saEn := true, saErr := false } }.modFn 0 fun x => { x with rings := aset x.rings 1 r }
    else { s with mgmt := { s.mgmt with saErr := true } }

def execMgmtSaEnable (o : Origin) (value : Nat) (s : State) : Host.Outcome State Fault Refusal :=
  .next (s.saCfgWrite o 8 (value % 2 ^ 32 ||| 2 ^ 31))

/-- Both copies of the boot control block, the current one rewritten into the older (R523). -/
def Mgmt.bcbCurrent (m : Mgmt) : Option Bcb :=
  match m.bcb0, m.bcb1 with
  | some a, some b => if modSub (2 ^ 32) b.seq a.seq < 2 ^ 31 ∧ a.seq ≠ b.seq then some b else some a
  | some a, none => some a
  | none, b => b

/-- R523: the firmware updates the block by writing the older copy with SEQ + 1. -/
def Mgmt.bcbWrite (m : Mgmt) (g : Bcb → Bcb) : Mgmt :=
  let cur := m.bcbCurrent.getD {}
  let new := { g cur with seq := (cur.seq + 1) % 2 ^ 32 }
  if m.bcb0 = some cur then { m with bcb1 := some new } else { m with bcb0 := some new }

/-- An entry is replaced by one with V = 0 under R504; it waits while an older version of the index retires. -/
def Filters.drop (x : Filters) (i : Nat) : Filters :=
  let y := { x with next0 := 0, next1 := 0, index := i, held := true }
  if (aget x.retiring i).isSome then y else { y.commit with next0 := x.next0, next1 := x.next1, index := x.index, held := x.held }

/-- R533: a write of MGMT_MODE.EXIT. -/
def State.modeWrite (s : State) (o : Origin) (width v : Nat) : State :=
  s.setupWrite o 0x3000008 width (v % 2 = 0 ∨ ! s.mgmt.sa) 0 v fun s =>
    let links := (List.range 3).foldl (fun (l : AMap Link) i => amod l (i + 1) {} fun x => { x with detect := true }) s.links
    { s with flts := s.flts.drop 255, links := links, mgmt := { s.mgmt.bcbWrite (fun b => { b with sa := false }) with sa := false } }

def execMgmtModeExit (o : Origin) (s : State) : Host.Outcome State Fault Refusal := .next (s.modeWrite o 8 1)

/-! ### The map (R605-R612) -/

/-- A setup register or instance register, or one 64-bit word of it. `held` registers hold RW fields, those of the mask, as they were
written; `wide` tells a 64-bit register from a 32-bit one (R599). -/
inductive Reg where
  | held (mask : Nat) (wide : Bool)
  | glbId | glbCap | tpfVer | glbFw | tltCfg
  | adm (fn i : Nat)
  | rawmap (fn w : Nat)
  | instId (fn : Nat) | mbxWin (fn : Nat) | mbxStat (fn : Nat) | mbxRbase (fn : Nat) | mbxRcfg (fn : Nat)
  | refStat | domSel | clkStat | regStat (n : Nat)
  | pwrCtl | pwrStat | pwrReg (n : Nat) | cardStat | sens | cageReg (q : Nat)
  | partStat (p : Nat) | partCur (p i : Nat) | partAddr (p i w : Nat)
  | circUse
  | portCfg (q : Nat) | portStat (q : Nat) | fecCnt (q : Nat) | portDrop (q : Nat)
  | fltNext (w : Nat) | fltCtl | flt (i w : Nat)
  | hlnkStat (n : Nat) | hlnkCfg (n : Nat) | hlnkCnt (n : Nat) | hlnkLc (n : Nat)
  | secStat | secCnt | secDevid | secPart (p : Nat)
  | keyLive | faultStat | scrubStat (k w : Nat)
  | errFence | errRec (r : RecRef) (w : Nat)
  | bistCtl | bistStat | bistRes (i w : Nat)
  | expBase | expCfg | expHead | jTail | expSeq | jStat | jChain (w : Nat)
  | timeNow | timeCfg | timeStat | timeAdj | timeFreq
  | gateStat (q w : Nat)
  | mgmtStat | mgmtMode | saCfg | busStat | telBase | telCfg | telHead
  deriving DecidableEq, Repr

/-- The index of an offset in an array of registers, if it lies there. -/
def arrayIdx (off base step n : Nat) : Option Nat :=
  if base ≤ off ∧ off < base + step * n ∧ (off - base) % step = 0 then some ((off - base) / step) else none

/-- Registers of RW fields alone, with their masks (R34, R168, R200, R201, R354, R388, R390, R441, R473, R493, R517, R544, R581,
R582). -/
def heldReg (off : Nat) : Option Reg :=
  if off = 0x208 then some (.held 0xFFFFFFFF false)
  else if (arrayIdx off 0x100100 8 4).isSome then some (.held 0x1F false)
  else if off = 0x200010 then some (.held 0xFF07FF false)
  else if off = 0x200018 then some (.held 0xFF false)
  else if (arrayIdx off 0x200100 8 4).isSome then some (.held 0xFFFFFFFF false)
  else if 0x400000 ≤ off ∧ off < 0x410000 ∧ 0x100 ≤ off % 0x1000 ∧ off % 0x1000 < 0x138 then
    let i := (off % 0x1000 - 0x100) / 8
    some (.held ((recOf fun _ => 2 ^ 64 - 1).word i) true)
  else if off = 0x410000 then some (.held 0xFFFFFF false)
  else if off = 0x800100 then some (.held 0x03FF03FF false)
  else if off = 0x1400000 then some (.held (2 ^ 34 - 1) true)
  else if off = 0x1800000 then some (.held 0xFFFFFF3F false)
  else if off = 0x1800100 then some (.held 0xFFFF false)
  else if off = 0x1C00000 then some (.held 0xFFFF1FFF false)
  else if off = 0x1C00008 then some (.held 0xFFFFFFFF false)
  else if off = 0x2C00000 then some (.held (2 ^ 56 - 1) true)
  else if off = 0x2C00008 then some (.held 0xFF false)
  else if off = 0x2C00010 ∨ off = 0x2C00018 then some (.held 0xFFFF false)
  else if off = 0x2C00020 then some (.held 0xFF false)
  else if off = 0x2C00028 then some (.held 0x3FF false)
  else if (arrayIdx off 0x2C00040 8 8).isSome then some (.held 0x3F07 false)
  else if 0x2C01000 ≤ off ∧ off < 0x2C05000 then some (.held (if off % 16 = 0 then 0xFFFFFFFF else 2 ^ 40 - 1) true)
  else if off = 0x3000010 ∨ off = 0x3000018 then some (.held (2 ^ 64 - 4096) true)
  else if off = 0x3000040 then some (.held 0xFFFFFFFF01FF true)
  else if off = 0x3000068 then some (.held 0x7F7F false)
  else if off = 0x3000070 then some (.held 0xFFFF false)
  else none

/-- Registers of a port (R517). -/
def portReg (q o : Nat) : Option Reg :=
  if o = 0 then some (.portCfg q)
  else if o = 8 then some (.portStat q)
  else if o = 0x10 then some (.fecCnt q)
  else if o = 0x18 then some (.portDrop q)
  else if o = 0x20 then some (.held 0x0FFFFFFF false)
  else if o = 0x28 then some (.held 0xFFFFFFFF false)
  else if 0x40 ≤ o ∧ o < 0x60 then some (.held (2 ^ 48 - 1) true)
  else none

/-- Registers of a partition other than PART_NEXT (R387-R389). -/
def partReg (p o : Nat) : Option Reg :=
  if o = 0 then some (.partStat p)
  else if 0x200 ≤ o ∧ o < 0x238 then some (.partCur p ((o - 0x200) / 8))
  else if 0x400 ≤ o ∧ o < 0x600 ∧ o % 0x20 ≠ 0x18 then some (.partAddr p ((o - 0x400) / 0x20) (o % 0x20 / 8))
  else none

/-- Registers of the ERR block other than its configuration (R467, R473). -/
def errReg (off : Nat) : Option Reg :=
  if off = 0x1C00010 then some .errFence
  else if 0x1C00100 ≤ off ∧ off < 0x1C00140 then some (.errRec .chip ((off - 0x1C00100) / 8))
  else if 0x1C00200 ≤ off ∧ off < 0x1C00300 then
    some (.errRec (.region ⟨(off - 0x1C00200) / 0x40 % 4, Nat.mod_lt _ (by decide)⟩) (off % 0x40 / 8))
  else if 0x1C01000 ≤ off ∧ off < 0x1C01000 + 0x40 * 93 then some (.errRec (.block ((off - 0x1C01000) / 0x40)) (off % 0x40 / 8))
  else none

/-- Blocks CLK to PWR (R581, R582, R597). -/
def clkReg (off : Nat) : Option Reg :=
  if off = 0x100000 then some .refStat
  else if off = 0x100008 then some .domSel
  else if off = 0x100010 then some .clkStat
  else if off = 0x200000 then some .pwrCtl
  else if off = 0x200008 then some .pwrStat
  else if off = 0x200200 then some .cardStat
  else if off = 0x200208 then some .sens
  else match arrayIdx off 0x100140 8 4, arrayIdx off 0x200140 8 4, arrayIdx off 0x200240 8 8 with
    | some n, _, _ => some (.regStat n)
    | _, some n, _ => some (.pwrReg n)
    | _, _, some q => some (.cageReg q)
    | _, _, _ => none

/-- Blocks HLNK to MEM (R354, R383, R441, R494). -/
def linkReg (off : Nat) : Option Reg :=
  if 0x1000000 ≤ off ∧ off < 0x1040000 then
    let n := (off - 0x1000000) / 0x10000
    let o := off % 0x10000
    if o = 0 then some (.hlnkStat n) else if o = 8 then some (.hlnkCfg n) else if o = 0x10 then some (.hlnkCnt n)
    else if o = 0x18 then some (.hlnkLc n) else none
  else if off = 0x1400008 then some .secStat
  else if off = 0x1400010 then some .secCnt
  else if off = 0x1400018 then some .secDevid
  else if off = 0x1800008 then some .keyLive
  else if off = 0x1800010 then some .faultStat
  else match arrayIdx off 0x1400100 8 16, arrayIdx off 0x1800140 8 12 with
    | some p, _ => some (.secPart p)
    | _, some i => some (.scrubStat (i / 2) (i % 2))
    | _, _ => none

/-- Blocks BIST to MGMT (R202, R442, R519, R544, R554, R555). -/
def lateReg (off : Nat) : Option Reg :=
  if off = 0x2000000 then some .bistCtl
  else if off = 0x2000008 then some .bistStat
  else if 0x2000100 ≤ off ∧ off < 0x20001A0 ∧ off % 0x20 < 0x18 then some (.bistRes ((off - 0x2000100) / 0x20) (off % 0x20 / 8))
  else if off = 0x2400000 then some .expBase
  else if off = 0x2400008 then some .expCfg
  else if off = 0x2400010 then some .expHead
  else if off = 0x2400018 then some .jTail
  else if off = 0x2400020 then some .expSeq
  else if off = 0x2400028 then some .jStat
  else if 0x2400040 ≤ off ∧ off < 0x2400070 then some (.jChain ((off - 0x2400040) / 8))
  else if off = 0x2800000 then some .timeNow
  else if off = 0x2800008 then some .timeCfg
  else if off = 0x2800010 then some .timeStat
  else if off = 0x2800018 then some .timeAdj
  else if off = 0x2800020 then some .timeFreq
  else if 0x2C06000 ≤ off ∧ off < 0x2C06200 ∧ off % 0x40 < 0x28 then some (.gateStat ((off - 0x2C06000) / 0x40) (off % 0x40 / 8))
  else if off = 0x3000000 then some .mgmtStat
  else if off = 0x3000008 then some .mgmtMode
  else if off = 0x3000020 then some .saCfg
  else if off = 0x3000048 then some .busStat
  else if off = 0x3000050 then some .telBase
  else if off = 0x3000058 then some .telCfg
  else if off = 0x3000060 then some .telHead
  else none

/-- The register that an offset of PF BAR0 names (R612); the offset is a multiple of 8. -/
def regOf (off : Nat) : Option Reg :=
  if off % 8 ≠ 0 then none
  else match heldReg off with
    | some r => some r
    | none =>
      if off = 0 then some .glbId
      else if off = 8 then some .glbCap
      else if off = 0x10 then some .tpfVer
      else if off = 0x18 then some .glbFw
      else if off = 0x200 then some .tltCfg
      else if 0x1000 ≤ off ∧ off < 0x1400 then (if off % 0x100 < 0x30 then some (.adm ((off - 0x1000) / 0x100) (off % 0x100 / 8)) else none)
      else if off < 0x400000 then clkReg off
      else if off < 0x410000 then partReg ((off - 0x400000) / 0x1000) (off % 0x1000)
      else if off = 0x800108 then some .circUse
      else if 0xC00000 ≤ off ∧ off < 0xD00000 then portReg ((off - 0xC00000) / 0x20000) (off % 0x20000)
      else if 0xD00000 ≤ off ∧ off < 0xD00018 then some (.fltNext ((off - 0xD00000) / 8))
      else if off = 0xD00040 then some .fltCtl
      else if 0xD01000 ≤ off ∧ off < 0xD03000 then (if off % 0x20 < 0x18 then some (.flt ((off - 0xD01000) / 0x20) (off % 0x20 / 8)) else none)
      else if off < 0x1000000 then none
      else if off < 0x1C00000 then linkReg off
      else if off < 0x2000000 then errReg off
      else lateReg off

/-- The register that an offset of an instance's BAR0 names (R609). -/
def instReg (f off : Nat) : Option Reg :=
  if off % 8 ≠ 0 then none
  else if off = 0 then some (.instId f)
  else if 0x1000 ≤ off ∧ off < 0x1030 then some (.adm f ((off - 0x1000) / 8))
  else if 0x1040 ≤ off ∧ off < 0x10C0 then some (.rawmap f ((off - 0x1040) / 8))
  else if 0x2000 ≤ off ∧ off < 0x2040 then some (.mbxWin f)
  else if off = 0x2040 then some (.mbxStat f)
  else if off = 0x2048 then some (.mbxRbase f)
  else if off = 0x2050 then some (.mbxRcfg f)
  else none

/-- 64-bit registers (R599). -/
def Reg.wide : Reg → Bool
  | .held _ w => w
  | .adm _ i => i ≠ 2 && i ≠ 3
  | .glbCap | .glbFw | .rawmap _ _ | .mbxWin _ | .mbxStat _ | .mbxRbase _ | .mbxRcfg _ => true
  | .pwrReg _ | .sens | .cageReg _ | .partCur _ _ | .partAddr _ _ _ | .portStat _ | .fecCnt _ | .portDrop _ | .fltNext _ | .flt _ _ => true
  | .hlnkCnt _ | .hlnkLc _ | .secStat | .secCnt | .secDevid | .secPart _ | .keyLive | .faultStat | .scrubStat _ _ => true
  | .errRec _ _ | .bistRes _ _ | .expBase | .expHead | .jTail | .expSeq | .jStat | .jChain _ | .timeNow | .timeAdj => true
  | .gateStat _ _ | .busStat | .telBase | .telCfg | .telHead => true
  | _ => false

/-- The region whose full fence stops the register's domain (R580). -/
def Reg.edge (off : Nat) : Option Nat :=
  if 0xC00000 ≤ off ∧ off < 0xD00000 then some ((off - 0xC00000) / 0x20000 / 2)
  else if 0x1000000 ≤ off ∧ off < 0x1040000 then some ((off - 0x1000000) / 0x10000)
  else none

/-- A register's domain is powered down or held in reset (R580). -/
def State.regDown (s : State) (off : Nat) : Bool := match Reg.edge off with | some n => s.edgeDown n | none => false

/-! ### What a register reads -/

/-- A saturating sum over the breakout ports of a port. -/
def Port.sumBp (x : Port) (top : Nat) (g : Bp → Nat) : Nat := x.bps.foldl (fun n (b : Nat × Bp) => satAdd top n (g b.2)) 0

/-- BPk of PORT_STAT (R517). -/
def State.bpStat (s : State) (q k : Nat) : Nat :=
  let b := s.bp q k
  if (s.port q).bpCount ≤ k then 0 else
    bit b.up + 2 * bit b.degraded + b.lanes % 8 * 4 + 32 * bit b.shedPeer +
    64 * bit (decide (s.now < b.pauseAll) || b.pauseEnd.any fun (p : Nat × Nat) => decide (s.now < p.2))

/-- Admin ring and register fence registers of a function (R47, R363, R608). -/
def FnState.admReg (x : FnState) (i : Nat) : Nat :=
  if i = 0 then x.admSq else if i = 1 then x.admCq else if i = 2 then x.admCfg else if i = 3 then x.gen
  else if i = 5 then x.fenceDone + 2 ^ 32 * bit (! x.fences.isEmpty) else 0

/-- Word w of a BIST_RES record (R554). -/
def BistRes.word (r : BistRes) (w : Nat) : Nat :=
  if w = 0 then r.result + 4 * bit r.full + 8 * bit r.boot + 2 ^ 8 * r.lcov + 2 ^ 18 * r.mcov + r.dur % 2 ^ 32 * 2 ^ 32
  else if w = 1 then r.fails + 2 ^ 16 * r.spares + 2 ^ 32 * r.funit
  else if w = 2 then r.time else 0

/-- Word w of SCHED_GATE_STAT (R202). -/
def Port.gateWord (x : Port) (w : Nat) : Nat :=
  if w = 0 then bit x.running + 2 * bit x.pend.isSome
  else if w = 1 then (if x.running then x.anchor else 0)
  else if w = 2 then (match x.pend with | some p => p.at_ | none => 0)
  else if w = 3 then x.overrun else x.waits

/-- An address entry with one word rewritten. -/
def AddrEntry.put (e : AddrEntry) (w v : Nat) : AddrEntry :=
  let x := ipField e.ip
  if w = 0 then { e with ip := ipField (x / 2 ^ 64 * 2 ^ 64 + v % 2 ^ 64) }
  else if w = 1 then { e with ip := ipField (v % 2 ^ 64 * 2 ^ 64 + x % 2 ^ 64) }
  else { e with vid := bitsOf v 0 12, pcp := bitsOf v 12 3, ven := v.testBit 15, ports := bitsOf v 16 8, valid := v.testBit 31 }

/-- CLK_REG_STAT (R581); CUR is 0 while the domain is stopped. -/
def State.clkRegStat (s : State) (n : Nat) : Nat :=
  let d := s.dom n
  (if d.powered then d.k else 0) + 2 ^ 5 * bit (s.ramping n) + 2 ^ 6 * bit (s.onRef n) + 2 ^ 8 * d.pcap + 2 ^ 16 * d.tcap + s.ncap n * 2 ^ 24

/-- PWR_REG_STAT (R582). -/
def State.pwrRegStat (s : State) (n : Nat) : Nat :=
  let d := s.dom n
  d.st + d.rail % 1024 * 2 ^ 16 + unsignedOf 16 d.temp * 2 ^ 32 + 2 ^ 48 * d.throttles

/-- Card input power, a measurement: an open value of the moment, 0 at reset (R597; log 99). -/
def State.inputNow (s : State) : Nat := if s.now = 0 then 0 else Config.cardWatts s.now % 4096

/-- PWR_CARD_STAT, with INPUT given, and PWR_SENS (R597). -/
def Card.stat (c : Card) (input : Nat) : Nat :=
  min 0xFFFF ((max 0 c.mv).toNat / 10) + input % 4096 * 2 ^ 16 + 2 ^ 28 * bit c.uv + 2 ^ 29 * bit c.revSeen + 2 ^ 30 * bit c.coolCap +
  bit c.auxLow * 2 ^ 31
def Card.sensReg (c : Card) : Nat :=
  c.flow + unsignedOf 16 c.tin * 2 ^ 16 + unsignedOf 16 c.tout * 2 ^ 32 + 2 ^ 48 * c.flowL + 2 ^ 50 * c.tinL + 2 ^ 52 * c.toutL

/-- PWR_CAGE at a moment; its power is a measurement, an open value, and 0 while the switch is open (R597; log 99). -/
def Cage.stat (c : Cage) (q now : Nat) : Nat :=
  bit c.present + 2 * bit c.on + 4 * bit c.lowpwr + 8 * bit c.fault + (if c.on then Config.cagePower q now % 2 ^ 16 else 0) * 2 ^ 16 + 2 ^ 32 * c.tripCnt

/-- MGMT_STAT (R544). -/
def State.mgmtStat (s : State) : Nat :=
  let m := s.mgmt
  s.health + 2 ^ 3 * bit (s.power.saiga = 1) + 2 ^ 5 * bit m.shed + 2 ^ 6 * bit m.sa + m.slot % 2 * 2 ^ 7 +
  bit (match m.bcbCurrent with | some b => b.trial | none => false) * 2 ^ 8 + m.busyPct % 128 * 2 ^ 16

/-- SEC_PART (R441). -/
def State.secPart (s : State) (p : Nat) : Nat :=
  let x := s.part p
  slotMask x.slots 8 (fun y => y.value.isSome) + slotMask x.slots 8 (fun y => y.spent) * 2 ^ 8 +
  slotMask x.mslots 4 (fun y => y.value.isSome) * 2 ^ 16 + s.selMask p * 2 ^ 20 + 2 ^ 24 * x.tdi

/-- What a register reads; `off` is its offset. -/
def State.regVal (s : State) (off : Nat) (r : Reg) : Nat :=
  match r with
  | .held mask _ => s.reg off &&& mask
  | .glbId => 0x8160 + 2 ^ 16 + 2 ^ 24 * bit Config.cardIsCE
  | .glbCap => 64 + 8 * 2 ^ 8 + 4 * 2 ^ 12 + 16 * 2 ^ 16 + 16 * 2 ^ 32
  | .tpfVer => 2 ^ 16
  | .glbFw => if s.mgmt.recovery then 0 else s.mgmt.svn % 2 ^ 16 + s.mgmt.build % 2 ^ 32 * 2 ^ 32
  | .tltCfg => s.reg off + 2 ^ 31 * bit (s.fns.any fun (f : Nat × FnState) => f.2.conns.any fun c => c.2.state ≠ .free)
  | .adm f i => (s.fn f).admReg i
  | .rawmap f w => agetD (s.fn f).rawmap w 0
  | .instId f => partOf f + s.linkOf f * 2 ^ 4
  | .mbxWin _ => 0
  | .mbxStat f => let m := (s.fn f).mbx
                  (16 - m.used) + 2 ^ 8 * m.defers + 2 ^ 24 * m.drops + 2 ^ 40 * m.stale
  | .mbxRbase f => (s.fn f).mbx.rbase * 2 ^ 12
  | .mbxRcfg f => (s.fn f).mbx.rcfg
  | .refStat => bit s.power.stable + 2 ^ 16 * s.power.restarts
  | .domSel => s.power.ref + 2 ^ 16 * s.power.lock
  | .clkStat => s.power.stopwr + 2 ^ 16 * s.power.switches
  | .regStat n => s.clkRegStat n
  | .pwrCtl => 0
  | .pwrStat => s.pState + s.power.watts % 2 ^ 16 * 2 ^ 16
  | .pwrReg n => s.pwrRegStat n
  | .cardStat => s.card.stat s.inputNow
  | .sens => s.card.sensReg
  | .cageReg q => (s.cage q).stat q s.now
  | .partStat p => let x := s.part p
                   x.state.code + 2 ^ 4 * bit x.clean + 2 ^ 5 * bit x.saved + 2 ^ 6 * bit x.apply.isSome + (s.fn (4 + p)).gen * 2 ^ 16
  | .partCur p i => (s.part p).cur.word i
  | .partAddr p i w => (s.addrEnt p i).word w
  | .circUse => s.mesh.circs.length % 64 + 2 ^ 8 * min 63 s.mesh.peak + 2 ^ 16 * s.mesh.refused
  | .portCfg _ => s.reg off
  | .portStat q => (List.range 4).foldl (fun v k => v + s.bpStat q k * 2 ^ (8 * k)) 0 + (s.port q).sumBp 0xFFFFFFFF (fun b => b.sheds) * 2 ^ 32
  | .fecCnt q => (s.port q).sumBp 0xFFFFFFFF (fun b => b.corr) + (s.port q).sumBp 0xFFFFFFFF (fun b => b.uncorr) * 2 ^ 32
  | .portDrop q => (s.port q).noMatch + (s.port q).saigaDrop * 2 ^ 32 + (s.port q).sumBp 0xFFFF (fun b => b.degrades) * 2 ^ 48
  | .fltNext w => if w = 0 then s.flts.next0 else if w = 1 then s.flts.next1 else 0
  | .fltCtl => s.flts.index + 512 * bit s.flts.held
  | .flt i w => if w = 0 then (agetD s.flts.cur i (0, 0)).1 else if w = 1 then (agetD s.flts.cur i (0, 0)).2 else agetD s.flts.hits i 0
  | .hlnkStat n => let l := s.link n
                   bit l.up + l.speed * 2 + 2 ^ 4 * l.width + 2 ^ 9 * bit l.cxl + 2 ^ 10 * bit l.cxl + 2 ^ 11 * bit l.cxl
  | .hlnkCfg _ => s.reg off
  | .hlnkCnt n => let l := s.link n
                  l.mbxDrops + 2 ^ 16 * l.mbxUr + 2 ^ 32 * l.memRef + 2 ^ 48 * l.staleCpl + 2 ^ 56 * l.cto
  | .hlnkLc n => (s.mem.lines.filter fun x => x.link = n).length + (s.mem.lines.filter fun x => x.link = n && x.dirty).length * 2 ^ 32
  | .secStat => s.sec.drbg + 2 ^ 16 * s.sec.peers.length + 2 ^ 32 * s.sec.maps.length
  | .secCnt => s.sec.authFail + 2 ^ 32 * s.sec.oldEpoch + 2 ^ 48 * s.sec.epochAdv
  | .secDevid => Config.devId.toNat
  | .secPart p => s.secPart p
  | .keyLive => (List.range 64).foldl (fun v i => v + bit (s.keyLive i) * 2 ^ i) 0
  | .faultStat => s.mem.batches + 2 ^ 16 * s.mem.timeouts + 2 ^ 32 * s.mem.stale + 2 ^ 48 * s.mem.refused
  | .scrubStat k w => let x := s.scrub k
                      if w = 0 then x.last + 2 ^ 32 * min 0xFFFFFFFF ((s.now - x.lapAt) / 1000000)
                      else bit x.urgent + 2 ^ 16 * x.urgLaps + 2 ^ 32 * x.ue + 2 ^ 48 * x.ce
  | .errFence => s.fenceReg
  | .errRec k w => (s.rec_ k.key).word w
  | .bistCtl => 0
  | .bistStat => (match s.bist.run with | some (n, _) => 2 ^ n | none => 0) + 2 ^ 4 * bit s.bist.crun + 2 ^ 5 * bit s.bist.cleared
  | .bistRes i w => (agetD s.bist.res i {}).word w
  | .expBase => s.reg off
  | .expCfg => s.reg off
  | .expHead => s.reg off
  | .jTail => s.jrnl.next
  | .expSeq => s.jrnl.exported
  | .jStat => min 0x3FFF s.jrnl.used + 2 ^ 14 * bit s.jrnl.full + 2 ^ 15 * bit s.jrnl.experr + 2 ^ 16 * s.jrnl.refused
  | .jChain w => bitsOf s.jrnl.latched.toNat (64 * w) 64
  | .timeNow => s.clk.time
  | .timeCfg => s.reg off
  | .timeStat => s.clk.latched + 2 ^ 8 * bit s.clk.locked + 2 ^ 9 * bit (s.clk.slew ≠ 0) + 2 ^ 16 * s.clk.steps
  | .timeAdj => 0
  | .timeFreq => s.reg off
  | .gateStat q w => (s.port q).gateWord w
  | .mgmtStat => s.mgmtStat
  | .mgmtMode => 0
  | .saCfg => s.reg off + 2 ^ 30 * bit s.mgmt.saErr + 2 ^ 31 * bit s.mgmt.saEn
  | .busStat => bit s.mgmt.polrev + 2 * bit s.mgmt.short + 4 * bit s.mgmt.open_ + 2 ^ 16 * s.mgmt.coll + 2 ^ 32 * s.mgmt.excess
  | .telBase => s.reg off
  | .telCfg => s.reg off + 2 ^ 24 * s.mgmt.lost
  | .telHead => s.reg off

/-! ### What a read does (R519, R442, R602, R603) -/

/-- Each breakout port of a port is changed. -/
def State.eachBp (s : State) (q : Nat) (g : Bp → Bp) : State :=
  s.modPort q fun x => { x with bps := x.bps.map fun (b : Nat × Bp) => (b.1, g b.2) }

/-- A read that returns the low half, the high half, or both: it clears the RC fields that it returns whole, and latches. -/
def State.regClear (s : State) (r : Reg) (lo hi : Bool) : State :=
  match r with
  | .mbxStat f => s.modMbx f fun m => { m with defers := if lo then 0 else m.defers, drops := if lo && hi then 0 else m.drops,
                                               stale := if hi then 0 else m.stale }
  | .refStat => if lo then { s with power := { s.power with restarts := 0 } } else s
  | .clkStat => if lo then { s with power := { s.power with stopwr := 0, switches := 0 } } else s
  | .pwrReg n => if hi then s.modDom n fun d => { d with throttles := 0 } else s
  | .cageReg q => if hi then s.modCage q fun c => { c with tripCnt := 0 } else s
  | .circUse => if lo then { s with mesh := { s.mesh with peak := s.mesh.circs.length, refused := 0 } } else s
  | .portStat q => if hi then s.eachBp q fun b => { b with sheds := 0 } else s
  | .fecCnt q => s.eachBp q fun b => { b with corr := if lo then 0 else b.corr, uncorr := if hi then 0 else b.uncorr }
  | .portDrop q =>
    let s := if hi then s.eachBp q fun b => { b with degrades := 0 } else s
    s.modPort q fun x => { x with noMatch := if lo then 0 else x.noMatch, saigaDrop := if hi then 0 else x.saigaDrop }
  | .flt i w => if w = 2 ∧ lo ∧ hi then { s with flts := { s.flts with hits := adel s.flts.hits i } } else s
  | .hlnkCnt n => s.modLink n fun l =>
      { l with mbxDrops := if lo then 0 else l.mbxDrops, mbxUr := if lo then 0 else l.mbxUr, memRef := if hi then 0 else l.memRef,
               staleCpl := if hi then 0 else l.staleCpl, cto := if hi then 0 else l.cto }
  | .secCnt => { s with sec := { s.sec with authFail := if lo then 0 else s.sec.authFail, oldEpoch := if hi then 0 else s.sec.oldEpoch,
                                            epochAdv := if hi then 0 else s.sec.epochAdv } }
  | .faultStat => { s with mem := { s.mem with batches := if lo then 0 else s.mem.batches, timeouts := if lo then 0 else s.mem.timeouts,
                                               stale := if hi then 0 else s.mem.stale, refused := if hi then 0 else s.mem.refused } }
  | .scrubStat k w => if w = 1 then s.modScrub k fun x => { x with urgLaps := if lo then 0 else x.urgLaps, ue := if hi then 0 else x.ue,
                                                                   ce := if hi then 0 else x.ce } else s
  | .jTail => { s with jrnl := { s.jrnl with latched := s.jrnl.chain } }
  | .jStat => if lo then { s with jrnl := { s.jrnl with refused := 0 } } else s
  | .timeNow => { s with clk := { s.clk with latched := s.clk.tepoch } }
  | .timeStat => if lo then { s with clk := { s.clk with steps := 0 } } else s
  | .gateStat q w => if w = 3 ∧ lo then s.modPort q fun x => { x with overrun := 0 }
                     else if w = 4 ∧ lo then s.modPort q fun x => { x with waits := 0 } else s
  | .busStat => { s with mgmt := { s.mgmt with coll := if lo then 0 else s.mgmt.coll, excess := if hi then 0 else s.mgmt.excess } }
  | .telCfg => if lo && hi then { s with mgmt := { s.mgmt with lost := 0 } } else s
  | _ => s

/-- How a read ends: Unsupported Request, Completer Abort, or a value. -/
inductive ReadOut where
  | ur | ca | val (v : Nat)
  deriving DecidableEq, Repr

/-- The part of a 64-bit word that an access of a width returns. -/
def halfOf (off width v : Nat) : Nat :=
  if width = 8 then v % 2 ^ 64 else if off % 8 = 0 then v % 2 ^ 32 else v / 2 ^ 32 % 2 ^ 32

/-- Aligned accesses of 8 or 4 bytes (R599). -/
def alignedAccess (off width : Nat) : Bool := (width = 8 && off % 8 = 0) || (width = 4 && off % 4 = 0)

/-- An access to the MGMT registers wakes the saiga domain (R580). -/
def State.saigaTouch (s : State) (off : Nat) : State :=
  if 0x3000000 ≤ off ∧ off < 0x3400000 ∧ s.power.saiga = 1 then { s with power := { s.power with saiga := 0 } } else s

/-- R599, R600, R602: a read through a map. -/
def State.mapRead (s : State) (m : Nat → Option Reg) (off width : Nat) : State × ReadOut :=
  if ! alignedAccess off width then (s, .ur)
  else match m (off / 8 * 8) with
    | none => (s, .val 0)
    | some r =>
      let both := decide (width = 8)
      (s.regClear r (both || off % 8 = 0) (both || off % 8 = 4), .val (halfOf off width (s.regVal (off / 8 * 8) r)))

/-- A read of PF BAR0 (R580). -/
def State.pfRead (s : State) (off width : Nat) : State × ReadOut :=
  if alignedAccess off width ∧ s.regDown off then (s, .ca) else (s.saigaTouch off).mapRead regOf off width

/-! ### What a write does (R601) -/

/-- R184: a write of SCHED_TCM sets both buckets of its queue full. -/
def State.tcmFull (s : State) (off : Nat) : State :=
  if off < 0x2C01000 ∨ 0x2C05000 ≤ off then s else
    let k := (off - 0x2C01000) / 16
    let b := s.bursts (k / 128) (k / 8 % 16) (k % 8)
    s.modClsq k fun x => { x with c := b.1, p := b.2, crem := 0, prem := 0, at_ := s.now }

/-- What a register held whole does besides holding its value. -/
def State.heldWrite (s : State) (o : Origin) (off width v mask : Nat) : State :=
  s.setupWrite o off width false (s.reg off &&& mask) v fun s => (s.setReg off (v &&& mask)).tcmFull off

/-- Bits of the frame-form map that a write reaches: those of FREE ring pairs other than the admin ring (R530). -/
def State.rawOpen (s : State) (f w : Nat) : Nat :=
  (List.range 64).foldl (fun v i => v + bit (64 * w + i ≠ 0 && (s.ring f (64 * w + i)).state = .free) * 2 ^ i) 0

/-- The map after a write of v. -/
def State.rawNew (s : State) (f w v : Nat) : Nat :=
  let old := agetD (s.fn f).rawmap w 0
  let m := s.rawOpen f w
  (v % 2 ^ 64 &&& m) ||| (old &&& (m ^^^ (2 ^ 64 - 1)))

/-- MGMT_TEL_CFG.EN (R544). -/
def State.telEn (s : State) : Bool := s.fld 0x3000058 7 1 = 1

/-- The function's admin ring and fence registers (R47, R48, R363). -/
def State.admWrite (s : State) (o : Origin) (off width v f i : Nat) : State :=
  let x := s.fn f
  if i = 0 then s.setupWrite o off width x.admEn x.admSq v fun s => s.modFn f fun x => { x with admSq := v / 4096 * 4096 }
  else if i = 1 then s.setupWrite o off width x.admEn x.admCq v fun s => s.modFn f fun x => { x with admCq := v / 4096 * 4096 }
  else if i = 2 then s.admCfgWrite f o width v
  else if i = 4 then s.regFence f o (v % 2 ^ 32) (v.testBit 32) (v.testBit 33) (bitsOf v 40 6) (v.testBit 47)
  else s.setupWrite o off width true (x.admReg i) v id

/-- The mailbox registers (R370). -/
def State.mbxRegWrite (s : State) (o : Origin) (off width v f : Nat) (base : Bool) : State :=
  let m := (s.fn f).mbx
  if base then s.setupWrite o off width (m.used ≠ 0) (2 ^ 12 * m.rbase) v fun s => s.modMbx f fun m => { m with rbase := v % 2 ^ 64 / 2 ^ 12 }
  else s.setupWrite o off width false m.rcfg v fun s => s.modMbx f fun m =>
    { m with rlog := if m.used ≠ 0 then m.rlog else bitsOf v 0 4, vector := bitsOf v 8 6, head := bitsOf v 16 12 }

/-- R514: TIME_CFG; another source than PTP is not locked (R516). -/
def State.timeCfgWrite (s : State) (o : Origin) (width v : Nat) : State :=
  s.setupWrite o 0x2800008 width false (s.reg 0x2800008) v fun s =>
    let s := s.setReg 0x2800008 (v &&& 0xFF7F)
    if v % 4 = 1 then s else { s with clk := { s.clk with locked := false, good := 0 } }

/-- R519: TIME_FREQ. -/
def State.timeFreqWrite (s : State) (o : Origin) (width v : Nat) : State :=
  s.setupWrite o 0x2800020 width false (s.reg 0x2800020) v fun s =>
    let f := max (-500000) (min 500000 (signedOf 32 v))
    { s.setReg 0x2800020 (v % 2 ^ 32) with clk := { s.clk with freq := f } }

/-- R365, R383: HLNK_CFG; clearing CACHE_EN writes back and drops every line of the link. -/
def State.hlnkWrite (s : State) (o : Origin) (off width v n : Nat) : State :=
  s.setupWrite o off width false (s.reg off) v fun s =>
    let s := if s.cacheEn n ∧ v % 2 = 0 then s.dropLink n else s
    s.setReg off (v &&& 0xFFFF03)

/-- R544: MGMT_TEL_CFG; LOG and LINK are ignored while EN is 1. -/
def State.telCfgWrite (s : State) (o : Origin) (width v : Nat) : State :=
  let old := s.reg 0x3000058
  s.setupWrite o 0x3000058 width false (old + 2 ^ 24 * s.mgmt.lost) v fun s =>
    let low := if s.telEn then old % 128 else v % 128
    s.setReg 0x3000058 (low + 2 ^ 7 * bitsOf v 7 17)

/-- W1C bits of PWR_CARD_STAT (R597). -/
def State.cardWrite (s : State) (o : Origin) (off width v : Nat) : State :=
  s.setupWrite o off width (! v.testBit 28 ∧ ! v.testBit 29) (s.card.stat s.inputNow) v fun s =>
    { s with card := { s.card with uv := s.card.uv && ! v.testBit 28, revSeen := s.card.revSeen && ! v.testBit 29 } }

/-- R504, R518: PORT_FLT_NEXT. -/
def State.fltNextWrite (s : State) (o : Origin) (off width v w : Nat) : State :=
  s.setupWrite o off width (s.flts.held ∨ 2 ≤ w) (s.regVal off (.fltNext w)) v fun s =>
    { s with flts := if w = 0 then { s.flts with next0 := v &&& 0xFFFFFFFF3FFFFFFF } else { s.flts with next1 := v &&& 0x03FF000F } }

/-- R167: UDP_PORT is ignored while LOCK is 1. -/
def State.tltCfgWrite (s : State) (o : Origin) (width v : Nat) : State :=
  let old := s.regVal 0x200 .tltCfg
  s.setupWrite o 0x200 width false old v fun s =>
    let port := if old.testBit 31 then old % 2 ^ 16 else v % 2 ^ 16
    s.setReg 0x200 (port + 2 ^ 16 * bitsOf v 16 3)

/-- A write that reaches a register: decided, journalled, and then it acts. -/
def State.regPut (s : State) (o : Origin) (off width v : Nat) (r : Reg) : State :=
  match r with
  | .held mask _ => s.heldWrite o off width v mask
  | .tltCfg => s.tltCfgWrite o width v
  | .adm f i => s.admWrite o off width v f i
  | .rawmap f w => let old := agetD (s.fn f).rawmap w 0
                   let new := s.rawNew f w v
                   s.setupWrite o off width (new = old ∧ v ≠ old) old v fun s => s.modFn f fun x => { x with rawmap := aset x.rawmap w new }
  | .mbxRbase f => s.mbxRegWrite o off width v f true
  | .mbxRcfg f => s.mbxRegWrite o off width v f false
  | .domSel => s.domSel o width v
  | .pwrCtl => s.sleepWrite o width v
  | .cardStat => s.cardWrite o off width v
  | .partAddr p i w => s.addrWrite p o off width i ((s.addrEnt p i).word w) v ((s.addrEnt p i).put w v)
  | .portCfg q => s.portCfgWrite o q width v
  | .fltNext w => s.fltNextWrite o off width v w
  | .fltCtl => s.fltCtl o width v
  | .hlnkCfg n => s.hlnkWrite o off width v n
  | .errFence => s.fenceWrite o width v
  | .errRec k w => if w = 0 then s.recClear o k v else s.setupWrite o off width true (s.regVal off r) v id
  | .bistCtl => s.bistCtl o width v s.openBad
  | .expBase => s.jrnlRegWrite o off width s.jrnlEn (s.reg off) v fun s => s.setReg off (v / 4096 * 4096)
  | .expCfg => s.jrnlCfgWrite o width v
  | .expHead => s.jrnlHeadWrite v
  | .jTail | .expSeq | .jStat | .jChain _ => s.jrnlRegWrite o off width true (s.regVal off r) v id
  | .timeCfg => s.timeCfgWrite o width v
  | .timeAdj => s.timeAdj o (signedOf 64 v)
  | .timeFreq => s.timeFreqWrite o width v
  | .mgmtMode => s.modeWrite o width v
  | .saCfg => s.saCfgWrite o width v
  | .telBase => s.setupWrite o off width s.telEn (s.reg off) v fun s => s.setReg off (v / 4096 * 4096)
  | .telCfg => s.telCfgWrite o width v
  | .telHead => s.setReg off v
  | _ => s.setupWrite o off width true (s.regVal off r) v id

/-- A write that reaches no register, or is of a size that the register does not take: discarded and journalled as ignored. -/
def State.mapDrop (s : State) (o : Origin) (off width old v : Nat) : State :=
  if 0x2400000 ≤ off ∧ off < 0x2800000 ∧ o.code ≠ 3 then s.jrnlRegWrite o off width true old v id else s.setupWrite o off width true old v id

/-- The width and half rules of R599: whether a write reaches a register. -/
def Reg.takes (r : Reg) (off width : Nat) : Bool := (width = 8 && off % 8 = 0) || (width = 4 && off % 8 = 0 && ! r.wide)

/-- R580, R599-R601: a write of PF BAR0. -/
def State.pfWrite (s : State) (o : Origin) (off width v : Nat) : State :=
  let v := v % 2 ^ (8 * min width 8)
  let a := off / 8 * 8
  if s.regDown off then s.stopWrite o off width v
  else match regOf a with
    | none => s.mapDrop o off width 0 v
    | some r =>
      let s := s.saigaTouch off
      if r.takes off width then s.regPut o a width v r
      else if r = .expHead ∨ r = .telHead then s
      else s.mapDrop o off width (halfOf off width (s.regVal a r)) v

/-! ### MSI-X tables (R359): two words an entry, the mask in bit 32 of the second -/

def msixEnt (x : FnState) (v : Nat) : Nat × Nat × Bool := agetD x.msix v (0, 0, true)

/-- Vectors of a function. -/
def msixCount (f : Nat) : Nat := if isPf f then 256 else 64

/-- Word w of an entry. -/
def msixWord (x : FnState) (v w : Nat) : Nat :=
  let e := msixEnt x v
  if w = 0 then e.1 else e.2.1 + 2 ^ 32 * bit e.2.2

/-- Replace the part of a 64-bit word that an access writes. -/
def putHalf (off width old v : Nat) : Nat :=
  if width = 8 then v else if off % 8 = 0 then old / 2 ^ 32 * 2 ^ 32 + v % 2 ^ 32 else old % 2 ^ 32 + v % 2 ^ 32 * 2 ^ 32

/-- Write an entry; a pending vector that becomes unmasked is signalled. -/
def State.msixPut (s : State) (f v w word : Nat) : State :=
  let e := msixEnt (s.fn f) v
  let e : Nat × Nat × Bool := if w = 0 then (word, e.2) else (e.1, word % 2 ^ 32, word.testBit 32)
  let s := s.modFn f fun x => { x with msix := aset x.msix v e }
  if ! e.2.2 ∧ (s.fn f).msixPba.contains v then (s.modFn f fun x => { x with msixPba := x.msixPba.filter fun u => u ≠ v }).msix f v else s

/-- Word i of the pending-bit array. -/
def pbaWord (x : FnState) (i : Nat) : Nat := (List.range 64).foldl (fun v j => v + bit (x.msixPba.contains (64 * i + j)) * 2 ^ j) 0

/-! ### Instance BAR0 (R374, R609) -/

/-- A mailbox access while the saiga domain is OFF (R374). -/
def mbxSpace (off : Nat) : Bool := decide (0x2000 ≤ off ∧ off < 0x3000)

def State.instRead (s : State) (f off width : Nat) : State × ReadOut :=
  if mbxSpace off ∧ s.power.saiga = 2 then (s, .ur)
  else if ! alignedAccess off width then (s, .ur)
  else if 0x8000 ≤ off ∧ off < 0x8400 then (s, .val (halfOf off width (msixWord (s.fn f) ((off - 0x8000) / 16) (off % 16 / 8))))
  else if 0x9000 ≤ off ∧ off < 0x9008 then (s, .val (halfOf off width (pbaWord (s.fn f) 0)))
  else s.mapRead (instReg f) off width

def State.instWrite (s : State) (f off width v : Nat) : State :=
  let o := s.originOf f
  let v := v % 2 ^ (8 * min width 8)
  let l := s.linkOf f
  if mbxSpace off ∧ s.power.saiga = 2 then (s.modLink l fun x => { x with mbxUr := satAdd 0xFFFF x.mbxUr 1 }).emit (.errNonfatal f)
  else if 0x2000 ≤ off ∧ off < 0x2040 then s.mbxDrop f l
  else if 0x8000 ≤ off ∧ off < 0x8400 ∧ alignedAccess off width then
    let i := (off - 0x8000) / 16
    let w := off % 16 / 8
    let old := msixWord (s.fn f) i w
    s.setupWrite o off width false (halfOf off width old) v fun s => s.msixPut f i w (putHalf off width old v)
  else match instReg f (off / 8 * 8) with
    | some r => if r.takes off width then s.regPut o (off / 8 * 8) width v r else s.setupWrite o off width true (halfOf off width (s.regVal (off / 8 * 8) r)) v id
    | none => s.setupWrite o off width true 0 v id

/-! ### BAR2 (R67, R70, R598, R613) -/

/-- Reported value of a ring state (R61). -/
def RingSt.code : RingSt → Nat
  | .free => 0 | .active => 1 | .paused => 2 | .error => 3 | .draining => 4

/-- RING_STAT (R67). CQFULL: a completion waits for space. -/
def Ring.stat (r : Ring) : Nat :=
  r.head + 2 ^ 16 * r.state.code + 2 ^ 19 * bit (decide (r.cqFree = 0) && r.waiting.any fun c => ! c.slot) + 2 ^ 32 * r.cqTail

/-- Register i of a doorbell group. -/
def Dbg.word (d : Dbg) (i : Nat) : Nat := if i = 0 then d.pend else if i = 1 then d.mask else if i = 2 then d.evt else d.emask

def dbgCount (f : Nat) : Nat := if isPf f then 2 else 32
def pageCount (f : Nat) : Nat := if isPf f then 64 else 1024

def State.bar2Read (s : State) (f off width : Nat) : State × ReadOut :=
  if ! alignedAccess off width then (s, .ur) else
    let val := fun (v : Nat) => (s, ReadOut.val (halfOf off width v))
    let x := s.fn f
    if off < 0x1000 * pageCount f then (if off % 0x1000 / 8 = 2 then val (s.ring f (off / 0x1000)).stat else val 0)
    else if 0x400000 ≤ off ∧ off < 0x400000 + 16 * dbgCount f then
      let d := agetD x.dbgs ((off - 0x400000) / 16) {}
      let i := off % 16 / 8 * 2
      val (d.word i + d.word (i + 1) * 2 ^ 32)
    else if isPf f then
      if 0x700000 ≤ off ∧ off < 0x701000 then val (msixWord x ((off - 0x700000) / 16) (off % 16 / 8))
      else if 0x701000 ≤ off ∧ off < 0x701020 then val (pbaWord x ((off - 0x701000) / 8))
      else if 0x702000 ≤ off ∧ off < 0x702080 then val (agetD x.rawmap ((off - 0x702000) / 8) 0)
      else (s, .val 0)
    else (s, .val 0)

/-- A BAR2 write that is discarded is counted (R613). -/
def State.barDrop (s : State) (f : Nat) : State := s.modFn f fun x => { x with cnt := { x.cnt with barDrop := x.cnt.barDrop + 1 } }

/-- A 4-byte write of register i of a doorbell group. -/
def State.dbgPut (s : State) (f g i v : Nat) : State :=
  if i = 0 then (groupRings s f g v).foldl (fun s k => s.doorbell f k none) s
  else if i = 1 then s.dbgMask f g v
  else if i = 2 then s.dbgEvt f g v
  else s.dbgEmask f g v

def State.bar2Write (s : State) (f off width v : Nat) : State :=
  if ! alignedAccess off width then s.barDrop f
  else if off < 0x1000 * pageCount f then
    let k := off / 0x1000
    let i := off % 0x1000
    if i = 0 then s.doorbell f k (some (v % 65536))
    else if i = 8 then s.onCq f k fun s => if v.testBit 31 then s.cqArm f k (v % 65536) else s.cqRelease f k (v % 65536)
    else if i = 16 ∧ width = 8 then s
    else s.barDrop f
  else if 0x400000 ≤ off ∧ off < 0x400000 + 16 * dbgCount f then
    let g := (off - 0x400000) / 16
    let i := off % 16 / 4
    if width = 4 then s.dbgPut f g i (v % 2 ^ 32) else (s.dbgPut f g i (v % 2 ^ 32)).dbgPut f g (i + 1) (v / 2 ^ 32 % 2 ^ 32)
  else if isPf f ∧ 0x700000 ≤ off ∧ off < 0x701000 then
    let i := (off - 0x700000) / 16
    let w := off % 16 / 8
    s.msixPut f i w (putHalf off width (msixWord (s.fn f) i w) v)
  else if isPf f ∧ 0x702000 ≤ off ∧ off < 0x702080 ∧ width = 8 then
    let w := (off - 0x702000) / 8
    s.modFn f fun x => { x with rawmap := aset x.rawmap w (s.rawNew f w v) }
  else s.barDrop f

/-! ### The commands (R601, R602, R604) -/

/-- The function whose BARs an origin's offsets name: none for the management bus and the firmware, which reach PF BAR0 alone. An offset
from 2^32 stands for offset − 2^32 of BAR2 (DEDUCED, log 60). -/
def originFn (o : Origin) : Option Nat :=
  match o with
  | .host l i => if i = 0 then some l.val else some (4 + (i - 1) % 16)
  | .inst p => some (4 + p.val)
  | .bus _ => none
  | .firmware => none

/-- A host reaches a VF through the link that carries it. -/
def State.carries (s : State) (o : Origin) : Bool :=
  match o with
  | .host l i => i = 0 || (decide (i ≤ 16) && s.linkOf (4 + (i - 1) % 16) = l.val)
  | _ => true

/-- The bytes of a BAR2 offset, if it is one. -/
def bar2Off (off : Nat) : Option Nat := if 2 ^ 32 ≤ off then some (off - 2 ^ 32) else none

/-- A read of a register by any origin. -/
def State.anyRead (s : State) (o : Origin) (off width : Nat) : State × ReadOut :=
  match originFn o with
  | none => s.pfRead off width
  | some f =>
    if ! s.answers f ∨ ! s.carries o then (s, .ur)
    else match bar2Off off with
      | some a => s.bar2Read f a width
      | none => if isPf f then s.pfRead off width else s.instRead f off width

/-- What a read's end looks like to its origin. -/
def State.readDone (s : State) (o : Origin) (off : Nat) (r : ReadOut) : State :=
  let f := (originFn o).getD 0
  match r with
  | .ur => s.emit (.ur f)
  | .ca => s.emit (.ca f)
  | .val v => s.emit (.value o off v)

/-- R602: RC_REGISTER_READ. -/
def execRcRegisterRead (o : Origin) (off width : Nat) (s : State) : Host.Outcome State Fault Refusal :=
  let (s, r) := s.anyRead o off width
  .next (s.readDone o off r)

/-- A write of a register by any origin. -/
def State.anyWrite (s : State) (o : Origin) (off width v : Nat) : State :=
  match originFn o with
  | none => s.pfWrite o off width v
  | some f =>
    if ! s.answers f ∨ ! s.carries o then s.emit (.ur f)
    else match bar2Off off with
      | some a => s.bar2Write f a width v
      | none => if isPf f then s.pfWrite o off width v else s.instWrite f off width v

/-- R601: SETUP_REG_WRITE. -/
def execSetupRegWrite (o : Origin) (off width value : Nat) (s : State) : Host.Outcome State Fault Refusal :=
  .next (s.anyWrite o off width value).settle

end Sys2Proof.Machine
end

