-- ==== Sys2Proof/Machine/Saiga.lean ====
section
/-!
DEFINITION. Saiga.lean: the saiga domain, boot, firmware images, management bus commands, telemetry and load shedding (R463, R520-R528,
R534-R543).
-/

namespace Sys2Proof.Machine

/-! ### The saiga domain (R520) -/

/-- The saiga domain is ON after a wake source. -/
def State.saigaOn (s : State) : State :=
  { s with power := { s.power with saiga := if s.power.saiga = 1 then 0 else s.power.saiga }, mgmt := { s.mgmt with idleAt := s.now } }

/-- A timed task of the firmware is due within 2 ms: telemetry, the health multicast, first-contact retries, the bus retry. -/
def State.taskSoon (s : State) : Bool :=
  let soon := fun (t : Nat) => decide (t < s.now + 2000000)
  let per := atLeast1 (s.fld 0x3000058 8 16) * (if s.mgmt.shed then 4 else 1)
  (s.telEn && soon (s.mgmt.telAt + 1000000 * per)) || soon (s.mgmt.healthAt + 1000000000 * atLeast1 (s.fld 0x3000040 24 8)) ||
  s.sec.contacts.any (fun c => soon (c.at_ + 1000000)) || (s.mgmt.short && soon (s.mgmt.shortAt + 1000000000))

/-- The firmware has work that waits: mailbox messages, error reports, slow-path set-ups. -/
def State.saigaWork (s : State) : Bool :=
  s.fns.any (fun (f : Nat × FnState) => ! f.2.mbx.queue.isEmpty || f.2.mbx.taken.isSome || ! f.2.mbx.replies.isEmpty ||
    f.2.conns.any fun c => c.2.state = .slowpath) || ! s.err.inbox.isEmpty

/-- R520: ON to DOZE. -/
def State.saigaDoze (s : State) : State :=
  let d := s.fld 0x3000070 0 16
  if s.mgmt.running ∧ s.powered ∧ s.power.saiga = 0 ∧ d ≠ 0 ∧ s.mgmt.idleAt + 1000 * d ≤ s.now ∧ ! s.saigaWork ∧ ! s.taskSoon then
    { s with power := { s.power with saiga := 1 } }
  else s

def execSaigaDoze (now : Nat) (s : State) : Host.Outcome State Fault Refusal := .next ((s.tick now).saigaDoze)

/-- R520: DOZE to ON by a wake source: 0 a mailbox message, 1 a bus frame, 2 a slow-path request, 3 an error report, 4 a timer. -/
def execSaigaWake (source : Nat) (s : State) : Host.Outcome State Fault Refusal :=
  .next (if s.power.saiga = 1 ∧ source < 5 then s.saigaOn else s)

/-! ### Flash and images (R522-R526) -/

/-- First flash address of an image slot, and its size. -/
def slotBase (i : Nat) : Nat := if i = 0 then 0x10000 else 0xC10000
def slotSize : Nat := 0xC00000

/-- The content of a slot as a number: what has been written to it, over what the card was shipped with (DESIGN CHOICE, log 11). -/
def State.slotMark (s : State) (i : Nat) : Nat :=
  (s.mgmt.flash.filter fun (c : Host.Cell) => decide (slotBase i ≤ c.1 ∧ c.1 < slotBase i + slotSize)).foldl
    (fun n (c : Host.Cell) => n * 2 ^ 40 + 256 * (c.1 - slotBase i) + c.2.toNat + 1) 0

/-- R524: an image verifies, and its security version is allowed. -/
def State.imageOk (s : State) (i floor : Nat) : Bool :=
  Config.imageSigned (s.slotMark i) && decide (floor ≤ Config.imageSvn (s.slotMark i) % 2 ^ 16)

/-- R524 steps 2 and 3: the slot that starts, and whether it is not ACTIVE. -/
def State.pickSlot (s : State) : Option (Nat × Bool) :=
  let b := s.mgmt.bcbCurrent.getD {}
  let a := b.active % 2
  if s.imageOk a b.svnFloor then some (a, false)
  else if s.imageOk (1 - a) b.svnFloor then some (1 - a, true)
  else none

/-- Firmware runs from a slot. -/
def State.runSlot (s : State) (i : Nat) : State :=
  let m := s.slotMark i
  { s with mgmt := { s.mgmt with running := true, recovery := false, slot := i, image := m, svn := Config.imageSvn m % 2 ^ 16,
                                 build := Config.imageBuild m % 2 ^ 32, hiRuns := 0, loRuns := 0, answers := [], written := [],
                                 idleAt := s.now, okAt := s.now } }

/-- R524 step 4. -/
def State.toRecovery (s : State) : State :=
  { s with mgmt := { s.mgmt with running := false, recovery := true, slot := (s.mgmt.bcbCurrent.getD {}).active % 2, svn := 0, build := 0 } }.noteHealth

/-- Commit an FW record; the manual gives no fields for its action. -/
def State.fwRecord (s : State) (action : Nat) : State := (s.jCommit .firmware (.fw action (s.freeVal))).bump

/-- The saiga complex restarts from its active image (R463): the data plane goes on. -/
def State.fwRestart (s : State) : State :=
  let s := { s with power := { s.power with saiga := 0 } }
  match s.pickSlot with
  | none => s.toRecovery
  | some (i, sw) => let s := s.runSlot i
                    (if sw then s.fwRecord 1 else s).noteHealth

/-- Messages whose handling had started are answered INTERNAL (R463). -/
def State.mbxInternal (s : State) : State :=
  (List.range 16).foldl (fun (s : State) p => if (s.fn (4 + p)).mbx.taken.isSome then s.mbxAnswer (4 + p) .internal 0 [] else s) s

/-- A restart will start the other slot, which is journalled (R524, R525). -/
def State.willSwitch (s : State) : Bool :=
  let b := s.mgmt.bcbCurrent.getD {}
  (b.trial && decide (2 ≤ b.tries)) || (match s.pickSlot with | some (_, sw) => sw | none => false)

/-- R463, R525: the watchdog expires. A restart that is journalled waits while the journal is full (R440). Under TRIAL it counts, and the third time the other slot becomes ACTIVE. -/
def State.watchdog (s : State) : State :=
  if ! s.mgmt.running ∨ ! s.powered ∨ (s.jrnl.full ∧ s.willSwitch) then s else
    let b := s.mgmt.bcbCurrent.getD {}
    let s := (s.report 90 0xFF 0x80 (s.freeVal % 2 ^ 48)).bump.mbxInternal
    if ! b.trial then s.fwRestart
    else if b.tries < 2 then { s with mgmt := s.mgmt.bcbWrite fun b => { b with tries := b.tries + 1 } }.fwRestart
    else
      let s := { s with mgmt := s.mgmt.bcbWrite fun b => { b with trial := false, tries := 0, active := 1 - b.active % 2 } }
      (s.fwRecord 1).fwRestart

def execSaigaWatchdogExpiry (s : State) : Host.Outcome State Fault Refusal := .next s.watchdog

/-- R525: 60 s of health OK confirm an image. -/
def State.trialOk (s : State) : State :=
  match s.mgmt.bcbCurrent with
  | some b => if b.trial ∧ s.mgmt.running ∧ s.health = 1 ∧ s.mgmt.okAt + 60000000000 ≤ s.now then
      { s with mgmt := s.mgmt.bcbWrite fun b => { b with trial := false } } else s
  | none => s

def execTrialConfirm (now : Nat) (s : State) : Host.Outcome State Fault Refusal := .next ((s.tick now).trialOk)

/-! ### Boot (R437, R520, R524, R527, R545, R550, R571) -/

/-- 32 bytes from the DRBG. -/
def State.nonce256 (s : State) : Nat := (List.range 4).foldl (fun n i => n + (Config.freeWord (s.free + i)).toNat * 2 ^ (64 * i)) 0

/-- The BOOT record: record 0 starts a chain from DEVID and the nonce (R437); after P-Sleep the chain goes on (R571). -/
def State.bootRecord (s : State) : State :=
  let n := s.nonce256
  let start := Config.sha384 ((leBytes 8 Config.devId.toNat ++ leBytes 32 n).map fun b => b.toNat)
  let s : State := if s.jrnl.next = 0 then { s with jrnl := { s.jrnl with chain := start } } else s
  { (s.jCommit .firmware (.boot n s.mgmt.slot s.mgmt.svn)) with free := s.free + 4 }

/-- A region that fails its quick self-test is fenced (R550), with its edge if a unit of the edge fails. -/
def State.bootFence (s : State) (n : Nat) (bad : List Nat) : State :=
  let l := badOf n bad
  if l = [] then s else
    let compute := fun (u : Nat) => decide (u / 256 < 64 ∨ (86 ≤ u / 256 ∧ u / 256 < 90))
    let x : Fence := { full := ! l.all compute, immediate := true, since := s.now, causes := [0] }
    { s with err := { s.err with fences := aset s.err.fences n x } }.fenceClose n

/-- The quick self-test (R545, R547, R550): regions in ascending order, then the chip-level units; each result is journalled. -/
def State.quickTest (s : State) (bad : List Nat) : State :=
  let res := (List.range 5).map fun i => (i, s.bistResult i false bad false)
  let s := res.foldl (fun (s : State) (r : Nat × BistRes) => s.bistPut r.1 r.2) s.bump.bump
  let s := (List.range 4).foldl (fun (s : State) n => s.bootFence n bad) s
  let fatal := bad.any (fun u => u / 256 = 80 || u / 256 = 81 || u / 256 = 92) || (List.range 4).all fun n => ! (badOf n bad).isEmpty
  if fatal then s.goFatal else s

/-- The firmware writes the port addresses of the card data (R517). -/
def State.bootMacs (s : State) : State :=
  (List.range 32).foldl (fun (s : State) i => s.setReg (portOff (i / 4) + 0x40 + 8 * (i % 4)) (Config.cardMac (i / 4) (i % 4)).toNat) s

/-- R527: stand-alone operation. -/
def State.standAlone (s : State) : State :=
  let links := (List.range 3).foldl (fun (l : AMap Link) i => amod l (i + 1) {} fun x => { x with detect := false }) s.links
  let flts := { s.flts with cur := aset s.flts.cur 255 (0xFF + 2 ^ 8 + 2 * 2 ^ 9, 2 + 2 ^ 16) }
  let s := { s with links := links, flts := flts, mgmt := { s.mgmt with sa := true } }
  s.modFn 0 fun x => { x with rawmap := aset x.rawmap 0 (agetD x.rawmap 0 0 ||| 2) }

/-- R524: the boot ROM selects, verifies and starts firmware. `bad` are the units that the quick self-test finds failing. After a full chip
test or P-Sleep there is no quick self-test (R549, R571). -/
def State.bootUp (s : State) (bad : List Nat) : State :=
  if s.mgmt.running ∨ s.mgmt.recovery ∨ ! s.powered ∨ ! s.power.stable then s else
    let cur := s.mgmt.bcbCurrent
    match s.pickSlot with
    | none => s.toRecovery
    | some (i, sw) =>
      let quick := s.jrnl.next = 0 ∧ ! s.bist.kept
      let s := s.runSlot i
      let s := { s with mem := { s.mem with devKey := if s.mem.drk then some s.mem.powerOns else none }, sec := { s.sec with drbg := if s.sec.failed then 2 else 1 } }
      let s := s.bootRecord
      let s := if sw then s.fwRecord 1 else s
      let s := if quick then s.quickTest bad else s
      let s := s.bootMacs
      let s := if (cur.getD { sa := true }).sa then s.standAlone else s
      s.noteHealth

def execBoot (bad : List Nat) (s : State) : Host.Outcome State Fault Refusal := .next (s.bootUp bad).settle

/-! ### Management bus commands (R534-R537, R543) -/

/-- A response leaves the node unless the pair is shorted (R535), and is remembered (R536). -/
def State.busReply (s : State) (node seq status : Nat) (data : List Nat) : State :=
  let m := { s.mgmt with answers := ((⟨node, seq, status, data⟩ : BusAns) :: s.mgmt.answers).take 8, idleAt := s.now }
  let s := { s with mgmt := m }
  if s.mgmt.short then s else s.emit (.busReply node seq status data)

/-- A request reaches the node: it wakes the saiga domain; a repeated one gets the stored response (R536). `boot` tells that the boot ROM
answers the command in recovery (R524); the firmware answers in its turn (R521). -/
def State.busCmd (s : State) (node seq : Nat) (boot : Bool) (session : Option Nat) (k : State → State) : State :=
  if ! s.powered ∨ (! s.mgmt.running ∧ ! (s.mgmt.recovery ∧ boot)) ∨ (s.mgmt.running ∧ ! s.fwTurn 6) then s else
    let s := s.saigaOn
    match s.mgmt.answers.find? fun a => a.node = node ∧ a.seq = seq with
    | some a => if s.mgmt.short then s else s.emit (.busReply node seq a.status a.data)
    | none =>
      match session with
      | some n => if s.session .bus n then k s else s.busReply node seq Status.prot.code []
      | none => k s

/-- BUSY under load shedding, with a hint (R543). -/
def State.busShed (s : State) (node seq : Nat) : State := (s.busReply node seq Status.busy.code [s.shedHint]).bump

def execId (node seq : Nat) (s : State) : Host.Outcome State Fault Refusal :=
  .next (s.busCmd node seq true none fun s => s.busReply node seq 0 s.idData)

/-- R537: REG_READ. -/
def State.busRead (s : State) (node seq addr width : Nat) : State :=
  if s.mgmt.shed then s.busShed node seq
  else if width ≠ 4 ∧ width ≠ 8 then s.busReply node seq Status.range.code []
  else match s.pfRead addr width with
    | (s, .val v) => s.busReply node seq 0 [v]
    | (s, .ca) => s.busReply node seq Status.state.code []
    | (s, .ur) => s.busReply node seq Status.range.code []

def execRegRead (node seq addr width session : Nat) (s : State) : Host.Outcome State Fault Refusal :=
  .next (s.busCmd node seq false (some session) fun s => s.busRead node seq addr width)

/-- Records with ORIGIN 1 name the node (R534). -/
def State.busOrigin (s : State) : Origin := .bus (s.fld 0x3000040 0 8)

/-- A register write that the full journal does not refuse: the JRNL block and MGMT_TEL_HEAD (R440). -/
def jrnlFree (addr : Nat) : Bool := decide (0x2400000 ≤ addr ∧ addr < 0x2800000) || addr = 0x3000060

/-- R537: REG_WRITE. A register of a powered-down domain ends STATE (R580). -/
def State.busWrite (s : State) (node seq addr width v : Nat) : State :=
  if width ≠ 4 ∧ width ≠ 8 then s.busReply node seq Status.range.code []
  else if s.jrnl.full ∧ ! jrnlFree addr then s.busReply node seq Status.busy.code []
  else
    let st := if s.regDown addr then Status.state.code else 0
    (s.pfWrite s.busOrigin addr width v).busReply node seq st []

def execRegWrite (node seq addr width value session : Nat) (s : State) : Host.Outcome State Fault Refusal :=
  .next (s.busCmd node seq false (some session) fun s => s.busWrite node seq addr width value).settle

/-- The part of the flash that a range lies in: 0 and 1 the image slots, 2 the card data, 3 anything that touches a boot control block. -/
def flashPart (a n : Nat) : Option Nat :=
  if a < 0x10000 then some 3
  else if a + n ≤ 0xC10000 then some 0
  else if 0xC10000 ≤ a ∧ a + n ≤ 0x1810000 then some 1
  else if 0x1810000 ≤ a ∧ a + n ≤ 0x2000000 then some 2
  else none

/-- A range touches a slot. -/
def touchesSlot (a n i : Nat) : Bool := decide (a < slotBase i + slotSize ∧ slotBase i < a + n)

/-- R526: FLASH_WRITE. -/
def State.busFlash (s : State) (node seq addr : Nat) (data : List Byte) : State :=
  if data.length ≠ 1024 ∨ 0x2000000 < addr + 1024 then s.busReply node seq Status.range.code []
  else if addr < 0x10000 ∨ touchesSlot addr 1024 s.mgmt.slot then s.busReply node seq Status.prot.code []
  else if s.jrnl.full then s.busReply node seq Status.busy.code []
  else match flashPart addr 1024 with
    | none => s.busReply node seq Status.range.code []
    | some p =>
      let new := p < 2 ∧ ! s.mgmt.written.contains p ∧ s.mgmt.running
      let s : State := if new then { s with mgmt := { s.mgmt with written := s.mgmt.written ++ [p] } }.fwRecord 2 else s
      let bytes := (List.range 1024).zip data
      let flash := bytes.foldl (fun (l : List Host.Cell) (b : Nat × Byte) => aset l (addr + b.1) b.2) s.mgmt.flash
      { s with mgmt := { s.mgmt with flash := flash } }.busReply node seq 0 []

def execFlashWrite (node seq addr : Nat) (data : List Byte) (session : Nat) (s : State) : Host.Outcome State Fault Refusal :=
  .next (s.busCmd node seq true (some session) fun s => s.busFlash node seq addr data)

/-- R525, R537: IMAGE_SWITCH. -/
def State.busSwitch (s : State) (node seq : Nat) (restart : Bool) : State :=
  if s.jrnl.full then s.busReply node seq Status.busy.code []
  else
    let other := 1 - s.mgmt.slot % 2
    let s := s.fwRecord 1
    let m := s.mgmt.bcbWrite fun b => { b with active := other, trial := true, tries := 0 }
    let s := { s with mgmt := { m with slot := other, written := [] } }.busReply node seq 0 []
    if restart then s.mbxInternal.fwRestart else s

def execImageSwitch (node seq : Nat) (restart : Bool) (session : Nat) (s : State) : Host.Outcome State Fault Refusal :=
  .next (s.busCmd node seq false (some session) fun s => s.busSwitch node seq restart)

/-- R537: JRNL_READ. -/
def State.busJrnl (s : State) (node seq n : Nat) : State :=
  if s.mgmt.shed then s.busShed node seq
  else match s.jrnl.recs.find? fun r => r.seq = n with
    | some r =>
      let bs := if r.bad then loseWord (s.freeVal % 16) r.bytes else r.bytes
      (if r.bad then s.bump else s).busReply node seq 0 (nats bs)
    | none => s.busReply node seq Status.range.code []

def execJrnlRead (node seq rec_ session : Nat) (s : State) : Host.Outcome State Fault Refusal :=
  .next (s.busCmd node seq false (some session) fun s => s.busJrnl node seq rec_)

/-- R538: every HEALTH_S seconds. -/
def State.healthCast (s : State) : State :=
  if s.mgmt.running ∧ s.powered ∧ s.mgmt.healthAt + 1000000000 * atLeast1 (s.fld 0x3000040 24 8) ≤ s.now then
    let s := { s.saigaOn with mgmt := { s.saigaOn.mgmt with healthAt := s.now } }
    if s.mgmt.short then s else s.emit (.busMulticast s.idData)
  else s

def execHealthMulticast (now : Nat) (s : State) : Host.Outcome State Fault Refusal := .next ((s.tick now).healthCast)

/-- R534: the collisions of a frame are counted; without PLCA one that has used its 16 attempts is dropped and counted. -/
def State.mbusColl (s : State) (n : Nat) : State :=
  let lost := s.fld 0x3000040 8 1 = 0 ∧ 16 ≤ n
  { s with mgmt := { s.mgmt with coll := satAdd 0xFFFF s.mgmt.coll n, excess := if lost then satAdd 0xFFFF s.mgmt.excess 1 else s.mgmt.excess } }

/-- R535: an attempt to transmit. One that meets the current limit sets SHORT; with SHORT set the PHY tries again every 1 s. POLREV and OPEN show what
the last attempt detected (DESIGN CHOICE, log 175). -/
def State.shortRetry (s : State) (x : MbusTry) : State :=
  if s.mgmt.short ∧ s.now < s.mgmt.shortAt + 1000000000 then s
  else
    let s := s.mbusColl x.colls
    { s with mgmt := { s.mgmt with polrev := x.rev, open_ := x.open_, short := x.short, shortAt := if x.short then s.now else s.mgmt.shortAt } }

def execMbusShortRetry (ok : MbusTry) (now : Nat) (s : State) : Host.Outcome State Fault Refusal := .next ((s.tick now).shortRetry ok)

/-! ### Telemetry (R539, R540) -/

/-- An open 8-byte word of this snapshot. -/
def State.openWord (s : State) (i : Nat) : Nat := leNat ((List.range 8).map fun j => Config.freeByte s.free (8 * i + j))

/-- A record before it has a SEQ: TYPE, unit, words. -/
structure TelRec where
  type  : Nat
  unit  : Nat
  words : List Nat
  deriving DecidableEq, Repr

def TelRec.bytes (r : TelRec) (seq time tepoch : Nat) : List Byte :=
  leBytes 8 seq ++ leBytes 8 time ++ leBytes 1 tepoch ++ leBytes 1 r.type ++ leBytes 2 r.unit ++ leBytes 4 0 ++
  ((r.words ++ List.replicate 5 0).take 5).flatMap fun w => leBytes 8 w

/-- R37: the counters of router port i at a sampling instant. What the mesh has carried since the last one is open: the flit and stall
counts grow by open amounts and wrap at 48 bits, the depths are open, and a high-water mark is at least the depth. -/
def State.meshNow (s : State) (i : Nat) : MeshPort :=
  let x := agetD s.mesh.ports i {}
  let w := fun (j : Nat) => s.openWord (17 * i + j)
  let more := fun (l : List Nat) (k : Nat) => l.mapIdx fun j v => (v + w (k + j)) % 2 ^ 48
  let depth := (List.range 4).map fun j => w (8 + j) % 256
  { sent := more x.sent 0, rcvd := more x.rcvd 4, depth := depth, stall := (x.stall + w 16) % 2 ^ 48,
    high := x.high.mapIdx fun j v => max (max v (depth.getD j 0)) (w (12 + j) % 256) }

/-- The router ports are sampled for the telemetry read port. -/
def State.meshSample (s : State) : State :=
  { s with mesh := { s.mesh with ports := (List.range 140).map fun i => (i, s.meshNow i) } }.bump

/-- R37: a high-water mark is cleared when it is read. -/
def State.meshRead (s : State) : State :=
  { s with mesh := { s.mesh with ports := s.mesh.ports.map fun x => (x.1, { x.2 with high := [0, 0, 0, 0] }) } }

/-- Mesh records of the router ports: 35 in each of four routers. -/
def State.telMesh (s : State) : List TelRec :=
  (List.range 140).flatMap fun i =>
    let u := 256 * (82 + i / 35) + i % 35
    let x := agetD s.mesh.ports i {}
    let four := fun (l : List Nat) => l.foldr (fun v n => v % 256 + 256 * n) 0
    [⟨1, u, x.sent ++ [x.stall]⟩, ⟨2, u, x.rcvd ++ [four x.depth + 2 ^ 32 * four x.high]⟩]

/-- Arithmetic records of the ibex blocks. -/
def State.telArith (s : State) : List TelRec :=
  (List.range 64).flatMap fun b =>
    let c := agetD s.ibex b {}
    [⟨3, 256 * b + 0xFF, [c.nanMade, c.overflow, c.saturated, c.intWrap, c.exactEsc]⟩, ⟨4, 256 * b + 0xFF, [c.exactBad, c.qnanBlk]⟩]

/-- PORT, CIRC and ENV records. -/
def State.telPorts (s : State) : List TelRec :=
  let t := fun (q : Nat) => (s.dom q)
  ((List.range 8).map fun q => ⟨6, 256 * (64 + q) + 0xFF,
    [s.regVal 0 (.fecCnt q), s.regVal 0 (.portDrop q), (s.port q).txFrames, (s.port q).rxFrames, s.regVal 0 (.portStat q)]⟩) ++
  [⟨7, 92 * 256 + 0xFF, [s.regVal 0 .circUse]⟩,
   ⟨8, 0xFFFF, [(List.range 4).foldl (fun v n => v + unsignedOf 16 (t n).temp * 2 ^ (16 * n)) 0,
                (List.range 4).foldl (fun v n => v + (t n).rail % 2 ^ 16 * 2 ^ (16 * n)) 0, 1000 * s.inputNow]⟩]

/-- QUEUE records: depth, head delay, largest head delay and colour of the last sample (R189, R199). -/
def State.telQueues (s : State) : List TelRec :=
  (List.range 1024).map fun i =>
    let r := s.sampleRec (i / 128) (i / 8 % 16) (i % 8)
    ⟨5, 256 * (64 + i / 128) + 0xFF, [i / 8 % 16 + i % 8 * 2 ^ 4, leNat (r.take 4), leNat ((r.drop 4).take 4), leNat ((r.drop 8).take 4), leNat ((r.drop 12).take 1)]⟩

/-- What the telemetry read port shows: the copies of the counters (R44). -/
def State.telView (s : State) : State :=
  { s with ibex := s.tel.ibex, ports := s.tel.ports, sched := s.tel.sched, mesh := { s.tel.mesh with ports := s.mesh.ports } }

/-- A whole snapshot; QUEUE records are left out under load shedding (R543). -/
def State.telRecs (s : State) : List TelRec := s.telMesh ++ s.telArith ++ s.telPorts ++ (if s.mgmt.shed then [] else s.telQueues)

/-- Write records in SEQ order while the ring has room; the rest are counted as lost. A page without a translation is asked for. -/
def State.telOne (f base n : Nat) (s : State) (l : List TelRec) : State × Option (List TelRec) :=
  match l with
  | [] => (s, none)
  | r :: t =>
    let lose := { s with mgmt := { s.mgmt with lost := satAdd 0xFFFF s.mgmt.lost (t.length + 1) } }
    if s.reg 0x3000060 + n ≤ s.mgmt.telSeq then (lose, none)
    else
      let a := base + s.mgmt.telSeq % n * 64
      match s.missing f a 64 true with
      | some p => (lose.askXlate f p true, none)
      | none =>
        let s := s.hostWrite f a (r.bytes s.mgmt.telSeq s.clk.time s.clk.tepoch)
        ({ s with mgmt := { s.mgmt with telSeq := s.mgmt.telSeq + 1 } }, some t)

/-- All of them. -/
def telWrite (s : State) (f base n : Nat) (l : List TelRec) : State := (loop (State.telOne f base n) (l.length + 1) s l).1

/-- R539: a snapshot every PERIOD. -/
def State.telemetry (s : State) : State :=
  let c := s.reg 0x3000058
  let log := bitsOf c 0 5
  let per := atLeast1 (bitsOf c 8 16) * (if s.mgmt.shed then 4 else 1)
  if s.telEn ∧ 16 ≤ log ∧ log ≤ 30 ∧ s.mgmt.running ∧ s.powered ∧ s.fwTurn 7 ∧ s.mgmt.telAt + 1000000 * per ≤ s.now then
    let s := s.saigaOn
    let s := { s with mgmt := { s.mgmt with telAt := s.now } }.meshSample
    telWrite s.meshRead (bitsOf c 5 2) (s.reg 0x3000050 / 4096 * 4096) (2 ^ log / 64) s.telView.telRecs
  else s

def execTelemetrySnapshot (now : Nat) (s : State) : Host.Outcome State Fault Refusal := .next ((s.tick now).telemetry)

/-! ### Load shedding (R542) -/

/-- The thresholds that are in force (R544). -/
def State.shedHi (s : State) : Nat := s.fld 0x3000068 0 7
def State.shedLo (s : State) : Nat :=
  let lo := s.fld 0x3000068 8 7
  if s.shedHi ≤ lo then s.shedHi - 1 else lo

/-- R542: a window of 10 ms ends. The record of a change waits for space in a full journal (R440). -/
def State.shedWindow (s : State) (busy : Nat) : State :=
  let m := s.mgmt
  if ! m.running then s else
    let hi := if s.shedHi < busy then m.hiRuns + 1 else 0
    let lo := if busy < s.shedLo then m.loRuns + 1 else 0
    let s := { s with mgmt := { m with busyPct := busy, hiRuns := hi, loRuns := lo } }
    if s.jrnl.full then s
    else if ! m.shed ∧ 3 ≤ hi then { s.fwRecord 3 with mgmt := { s.mgmt with shed := true } }.noteHealth
    else if m.shed ∧ 10 ≤ lo then { s.fwRecord 4 with mgmt := { s.mgmt with shed := false } }.noteHealth
    else s

def execLoadShedWindow (busy now : Nat) (s : State) : Host.Outcome State Fault Refusal := .next ((s.tick now).shedWindow (min 100 busy))

end Sys2Proof.Machine
end

