-- ==== Sys2Proof/Machine/Translate.lean ====
section
/-!
DEFINITION. Translate.lean: Translation Completions and ATS Enable: what waits for a page goes on (R336-R338, R343, R348, R349).
-/

namespace Sys2Proof.Machine

/-! ### Commands that run again once their page is there (R343) -/

/-- Run a parked ring command again under its operation. Commands that never park an operation do nothing here. -/
def rerun (i : Instr) (f id : Nat) (s : State) : State :=
  match i with
  | .write .. => runEmb i f id s
  | .read .. => runEmb i f id s
  | .writeNotify .. => runEmb i f id s
  | .atFadd .. => runEmb i f id s
  | .atFand .. => runEmb i f id s
  | .atFor .. => runEmb i f id s
  | .atFxor .. => runEmb i f id s
  | .atSwap .. => runEmb i f id s
  | .atCas .. => runEmb i f id s
  | .tsend .. => runEmb i f id s
  | .arm e t m => effArm e t m f id s
  | .trecv e b => effTrecv e b f id s
  | .tallyRead _ t a => effTallyRead t a f id s
  | .connQuery _ h a => effConnQuery h a f id s
  | .gateLoad e p n a t => effGateLoad e p n a t f id s
  | .qSample _ a => effQSample a f id s
  | .herdCreate _ b => effHerdCreate b f id s
  | .herdQuery _ h a => effHerdQuery h a f id s
  | .collAllreduce e b => effColl 0x210 e b f id s
  | .collReduceScatter e b => effColl 0x211 e b f id s
  | .collAllgather e b => effColl 0x212 e b f id s
  | .collBcast e b => effColl 0x213 e b f id s
  | .collReduce e b => effColl 0x214 e b f id s
  | .collAlltoall e b => effColl 0x215 e b f id s
  | .collDispatch e b => effColl 0x216 e b f id s
  | .collCombine e b => effColl 0x217 e b f id s
  | .collBarrier e b => effColl 0x218 e b f id s
  | .attnOpen _ b =>
    let s := effAttnOpen b f id s
    match s.sessOfOp f id with
    | some k => s.attnWrite f k
    | none => s
  | .attnFeed _ b => effAttnFeed b f id s
  | .attnQuery _ x a => effAttnQuery x a f id s
  | .progLoad _ sl im n co cl => effProgLoad sl im n co cl f id s
  | .progLaunch _ b => effProgLaunch b f id s
  | .progQuery _ l a => effProgQuery l a f id s
  | .atcPrefetch _ a n w _ => effAtcPrefetch a n w f id s
  | .sliceInfo _ a => effSliceInfo a f id s
  | .partApply _ p lim pt => effPartApply p lim pt f id s
  | .partSave _ p a n m => effPartSave p a n m f id s
  | .partRestore _ p a n m => effPartRestore p a n m f id s
  | .partQuery _ p a => effPartQuery p a f id s
  | .keySeal e k i o x y n => effKeySeal e k i o x y n f id s
  | .keyUnseal e k i o x y n => effKeyUnseal e k i o x y n f id s
  | .keyStatus e a => effKeyStatus e a f id s
  | .frameTx e q b sp a n => effFrameTx e.ring q b sp a n f id s
  | _ => s

/-- An armed request whose message waits to be copied out of eager space. -/
def State.armedRecv (s : State) (f id : Nat) : Option TrecvBody :=
  ((s.fn f).armed.find? fun a => a.op = id).bind fun a => match a.trig with
    | .msg r => some r
    | _ => none

/-- A parked operation goes on with its channels whose page `sel` names. One whose message travels waits for its packets, and a posted frame buffer for its next frame. -/
def State.resumeOp (s : State) (f id : Nat) (sel : Nat → Bool → Bool) : State :=
  match s.op? f id with
  | none => s
  | some o =>
    let s := s.modOp f id fun o =>
      { (if o.park.all (fun p => sel p.1 p.2) then { o with park := none, tries := 0, faulted := false } else o) with
        chans := o.chans.filter fun c => ! sel c.page c.wr }
    if o.msn.isSome then s
    else match s.armedRecv f id with
      | some r => s.postRecv f r.list id (recvPosted r (.op id 0 true) o.tag)
      | none => rerun o.cmd f id s

/-! ### Everything that waits for a page (R343, R348) -/

/-- Channels parked at a page that `sel` names (page, write) go on. -/
def State.resumeAt (s : State) (f : Nat) (sel : Nat → Bool → Bool) : State :=
  -- messages to send, messages that arrive, program operations, the mailbox reply
  let msg := fun (m : SendMsg) => match m.park with
    | some pg => if sel pg false then { m with park := none, tries := 0 } else m
    | none => m
  let inm := fun (m : InMsg) => match m.park with
    | some (pg, w) => if sel pg w then { m with park := none, tries := 0 } else m
    | none => m
  let asy := fun (a : Async) => match a.page with
    | some pg => if sel pg (a.op = 0x21) then { a with page := none, tries := 0 } else a
    | none => a
  let cop := fun (c : Nat × Copy) => (c.1, { c.2 with ops := c.2.ops.map asy })
  let con := fun (c : Nat × Conn) =>
    (c.1, { c.2 with tx := { c.2.tx with sendq := c.2.tx.sendq.map msg }, rx := { c.2.rx with msgs := c.2.rx.msgs.map inm } })
  let mb := fun (m : Mbx) => match m.park with
    | some pg => if sel pg true then { m with park := none, tries := 0 } else m
    | none => m
  -- operations whose message goes on may fault anew (R346)
  let sent := (s.fn f).conns.flatMap fun (c : Nat × Conn) => c.2.tx.sendq.filterMap fun m => match m.park, m.for_ with
    | some pg, .op id => if sel pg false then some id else none
    | some pg, .feed id => if sel pg false then some id else none
    | _, _ => none
  let rdv := (s.fn f).conns.flatMap fun (c : Nat × Conn) => c.2.rx.msgs.filterMap fun m => match m.park with
    | some (pg, w) => if sel pg w then (s.rdvOp f c.1 m).map (·.id) else none
    | none => none
  let s := (sent ++ rdv).foldl (fun (s : State) (id : Nat) => s.modOp f id fun o => { o with faulted := false }) s
  let s := s.modFn f fun x =>
    { x with conns := x.conns.map con, mbx := mb x.mbx,
             launches := x.launches.map fun (l : Nat × Launch) => (l.1, { l.2 with copies := l.2.copies.map cop }) }
  -- journal export (R439)
  let s : State := match s.jrnl.park with
    | some pg => if f = s.jrnlLink && sel pg true then { s with jrnl := { s.jrnl with park := none, tries := 0, retry := s.jrnl.experr } } else s
    | none => s
  -- ring memory (R62)
  let s := ((s.fn f).rings.map (·.1)).foldl (fun (s : State) (k : Nat) =>
    let r := s.ring f k
    let s : State := match r.sqPark with
      | some pg => if sel pg false then (s.modRing f k fun r => { r with sqPark := none, parkTries := 0 }).flushMore f k else s
      | none => s
    match r.cqPark with
    | some pg => if sel pg true then writeWaiting r.waiting.length (s.modRing f k fun r => { r with cqPark := none, parkTries := 0 }) f k else s
    | none => s) s
  -- operations, oldest first
  let ids := ((s.fn f).ops.filter fun o => o.park.any (fun p => sel p.1 p.2) || o.chans.any fun c => sel c.page c.wr).map (·.id)
  ids.foldl (fun (s : State) (id : Nat) => s.resumeOp f id sel) s

/-! ### Translation Completions (R337, R338) -/

/-- Cache a translation: an entry of 4 KiB, 2 MiB or 1 GiB, any other size as the 4 KiB entry of the page asked for. -/
def State.cacheXlate (s : State) (f page size : Nat) (r w : Bool) : State :=
  let n := if size = 2 ^ 21 ∨ size = 2 ^ 30 then size else 4096
  let e : AtcEnt := ⟨f, (s.fn f).gen, 4096 * page / n * n, n, r, w⟩
  let kept := s.mem.atc.filter fun x => ! (x.fn = f && x.addr = e.addr && x.size = e.size)
  { s with mem := { s.mem with atc := kept ++ [e] } }

/-- Entries beyond the function's share leave, least recently used first, once no access waits for a further translation (DEDUCED, log 38). -/
def State.atcSettle (s : State) (f : Nat) : State :=
  if (s.fn f).ats.reqs = [] then s.atcTrim f (if isPf f then 0 else (s.part (partOf f)).cur.atc) else s

/-- The instance's channels are saved as they are parked: nothing goes on before the thaw (R349). -/
def State.frozenFn (s : State) (f : Nat) : Bool := ! isPf f && decide ((s.part (partOf f)).state = .frozen)

/-- R338: a Translation Completion answers the oldest request outstanding for its translation unit. One that answers no request has no effect. -/
def State.xlateDone (s : State) (f addr : Nat) (reply : XlateReply) : State :=
  let unit := 2 ^ (s.fn f).ats.stu
  match (s.fn f).ats.reqs.find? fun r => r.1 / unit = addr / unit with
  | none => s
  | some q =>
    let page := q.1
    let s := s.modFn f fun x => { x with ats := { x.ats with reqs := x.ats.reqs.filter fun r => r ≠ q } }
    let wr := q.2
    let s : State := match reply with
      | .granted r w size => if r || w then s.cacheXlate f page size r w else s
      | _ => s
    let has : Bool := match reply with
      | .granted r w _ => if wr then w else r
      | _ => false
    let ask : Bool := match reply with
      | .urca => false
      | _ => true
    if s.frozenFn f then s
    else if has then (s.resumeAt f fun pg w => pg = page && w = wr).atcSettle f
    else (s.denyPage f page wr ask).atcSettle f

/-- R338: ATS_TRANSLATION_COMPLETION. -/
def execAtsTranslationCompletion (fn : Fn) (addr : Nat) (reply : XlateReply) (s : State) : Host.Outcome State Fault Refusal :=
  .next (s.xlateDone fn.idx (addr / 4096) reply).settle

/-! ### ATS Enable (R336) -/

/-- R335, R336: ATS Enable, with the smallest translation unit. No command of the table writes PRI Enable; it follows ATS Enable (PRESUMED, log 6).
Switching it on translates what waits for an Untranslated request. Switching it off drops the cache and withdraws page requests, and what waits for
a translation goes on with Untranslated requests. -/
def State.atsEnable (s : State) (f : Nat) (on : Bool) (stu : Nat) : State :=
  if on then
    let was := (s.fn f).ats.enable
    let s := s.modAts f fun a => { a with enable := true, pri := true, stu := stu % 32, ur := [] }
    if was ∨ s.frozenFn f = true then s else s.resumeAt f fun _ _ => true
  else
    let s := { s with mem := { s.mem with atc := s.mem.atc.filter fun e => e.fn ≠ f } }
    let s := s.modAts f fun a => { a with enable := false, pri := false, batch := [], closed := [], reqs := [] }
    if s.frozenFn f then s else s.resumeAt f fun _ _ => true

def execAtsEnableWrite (fn : Fn) (ctl : AtsCtl) (s : State) : Host.Outcome State Fault Refusal := .next (s.atsEnable fn.idx ctl.enable ctl.stu).settle

/-! ### Completions of host reads (R336, R380) -/

/-- R336: the completions of a function's Untranslated reads of a page: with Unsupported Request or Completer Abort what waits is refused, and
what reads the page later waits for the same; with success it goes on. -/
def State.untranslated (s : State) (f page : Nat) (reply : ReadReply) : State :=
  if (s.fn f).ats.enable then s
  else match reply with
    | .urca =>
      let s := s.modAts f fun a => { a with ur := if a.ur.contains page then a.ur else a.ur ++ [page] }
      if s.frozenFn f then s else s.denyPage f page false false
    | _ =>
      let s := s.modAts f fun a => { a with ur := a.ur.filter fun p => p ≠ page }
      if s.frozenFn f then s else s.resumeAt f fun pg w => pg = page && ! w

/-- R380: HOST_READ_COMPLETION of the read of a packet's data, by its tag, or, where `ans` names a function and an address, of an Untranslated
read by any other engine (R336; DEDUCED, log 152). -/
def execHostReadCompletion (link : Fin 4) (tag gen : Nat) (data : List Byte) (ans : ReadAns) (s : State) :
    Host.Outcome State Fault Refusal :=
  let live := (s.link link.val).reads.any fun r => r.tag = tag ∧ r.gen = gen
  .next (match ans.page with
    | some (fn, addr) => if s.linkOf fn.idx = link.val then (s.untranslated fn.idx (addr / 4096) ans.reply).settle else s
    | none => if live then (s.hostReadCpl link.val tag data ans.reply).settle else s)

end Sys2Proof.Machine
end

