-- ==== Sys2Proof/Machine/EntryStart.lean ====
section
/-!
DEFINITION. EntryStart.lean: the device starts the next posted entry of a ring: fetch, decode and run (R53-R60, R62, R68, R75).
-/

namespace Sys2Proof.Machine

/-- Run a ring command. -/
def runEntry (i : Instr) (s : State) : Host.Outcome State Fault Refusal :=
  match i with
  | .nop e => execNop e s
  | .fence e hostVis remoteVis inst => execFence e hostVis remoteVis inst s
  | .ringInval e ring first count => execRingInval e ring first count s
  | .ringCreate e ring sqLog cqLog cls sqBase cqBase => execRingCreate e ring sqLog cqLog cls sqBase cqBase s
  | .ringDestroy e ring => execRingDestroy e ring s
  | .ringPause e ring => execRingPause e ring s
  | .ringResume e ring => execRingResume e ring s
  | .ringFlush e ring => execRingFlush e ring s
  | .dbgCfg e group vector => execDbgCfg e group vector s
  | .cqModerate e ring count time => execCqModerate e ring count time s
  | .frameTx e port bp space addr len => execFrameTx e port bp space addr len s
  | .frameRxbuf e addr len => execFrameRxbuf e addr len s
  | .write e b => execWrite e b s
  | .read e b => execRead e b s
  | .writeNotify e b imm => execWriteNotify e b imm s
  | .atFadd e b => execAtFadd e b s
  | .atFand e b => execAtFand e b s
  | .atFor e b => execAtFor e b s
  | .atFxor e b => execAtFxor e b s
  | .atSwap e b => execAtSwap e b s
  | .atCas e b => execAtCas e b s
  | .tsend e b => execTsend e b s
  | .trecv e b => execTrecv e b s
  | .trecvCancel e list tag => execTrecvCancel e list tag s
  | .mlistCreate e list uq => execMlistCreate e list uq s
  | .mlistDestroy e list => execMlistDestroy e list s
  | .winOpen e b => execWinOpen e b s
  | .winRevoke e wref => execWinRevoke e wref s
  | .tallyAlloc e value => execTallyAlloc e value s
  | .tallyFree e tally => execTallyFree e tally s
  | .tallyAdd e tally value => execTallyAdd e tally value s
  | .tallySet e tally value => execTallySet e tally value s
  | .tallyRead e tally addr => execTallyRead e tally addr s
  | .arm e trig emb => execArm e trig emb s
  | .armCancel e tag => execArmCancel e tag s
  | .connConnect e b => execConnConnect e b s
  | .connListen e service laddrIdx nring maxConn => execConnListen e service laddrIdx nring maxConn s
  | .connUnlisten e service laddrIdx => execConnUnlisten e service laddrIdx s
  | .connClose e conn => execConnClose e conn s
  | .connAbort e conn => execConnAbort e conn s
  | .connQuery e conn addr => execConnQuery e conn addr s
  | .connModify e conn ports paths => execConnModify e conn ports paths s
  | .gateLoad e port count addr start => execGateLoad e port count addr start s
  | .qStop e scope arg => execQStop e scope arg s
  | .qStart e scope arg => execQStart e scope arg s
  | .qSample e addr => execQSample e addr s
  | .herdCreate e b => execHerdCreate e b s
  | .herdDestroy e herd => execHerdDestroy e herd s
  | .herdQuery e herd addr => execHerdQuery e herd addr s
  | .collAllreduce e b => execCollAllreduce e b s
  | .collReduceScatter e b => execCollReduceScatter e b s
  | .collAllgather e b => execCollAllgather e b s
  | .collBcast e b => execCollBcast e b s
  | .collReduce e b => execCollReduce e b s
  | .collAlltoall e b => execCollAlltoall e b s
  | .collDispatch e b => execCollDispatch e b s
  | .collCombine e b => execCollCombine e b s
  | .collBarrier e b => execCollBarrier e b s
  | .attnOpen e b => execAttnOpen e b s
  | .attnFeed e b => execAttnFeed e b s
  | .attnFinish e sref => execAttnFinish e sref s
  | .attnAbort e sref => execAttnAbort e sref s
  | .attnQuery e sess addr => execAttnQuery e sess addr s
  | .progLoad e slice image len codeOff codeLen => execProgLoad e slice image len codeOff codeLen s
  | .progUnload e handle => execProgUnload e handle s
  | .progLaunch e b => execProgLaunch e b s
  | .progStop e lref => execProgStop e lref s
  | .progQuery e launch addr => execProgQuery e launch addr s
  | .atcPrefetch e addr len wr faultOk => execAtcPrefetch e addr len wr faultOk s
  | .sliceRekey e first count ksel => execSliceRekey e first count ksel s
  | .sliceInfo e addr => execSliceInfo e addr s
  | .partApply e part limit ptab => execPartApply e part limit ptab s
  | .partReset e part => execPartReset e part s
  | .partFreeze e part limit => execPartFreeze e part limit s
  | .partSave e part addr len slot => execPartSave e part addr len slot s
  | .partRestore e part addr len slot => execPartRestore e part addr len slot s
  | .partThaw e part => execPartThaw e part s
  | .partQuery e part addr => execPartQuery e part addr s
  | .keySelSet e sel tsel => execKeySelSet e sel tsel s
  | .keySelClear e sel => execKeySelClear e sel s
  | .keyAdvance e conn => execKeyAdvance e conn s
  | .keySeal e slot ispace ospace src dst len => execKeySeal e slot ispace ospace src dst len s
  | .keyUnseal e slot ispace ospace src dst len => execKeyUnseal e slot ispace ospace src dst len s
  | .keyStatus e addr => execKeyStatus e addr s
  | _ => .next s

/-- Slots of an entry that no cached copy covers. -/
def Ring.uncached (r : Ring) (n : Nat) : List Nat := (List.range n).filter fun i => (aget r.cache (r.head + i)).isNone

/-- The first page an entry's uncached slots wait for (R62). -/
def State.slotMiss (s : State) (f k : Nat) (l : List Nat) : Option Nat :=
  let r := s.ring f k
  l.findSome? fun i => s.missing f (r.sqBase + 64 * (r.head + i)) 64 false

/-- An uncached slot of an entry is poisoned (R62). -/
def State.slotPoison (s : State) (f k : Nat) (l : List Nat) : Bool :=
  let r := s.ring f k
  l.any fun i => (s.locPoison f false (r.sqBase + 64 * (r.head + i)) 64).isSome

/-- The fetch parks at a page of ring memory (R62). -/
def State.fetchPark (s : State) (f k page : Nat) : State :=
  (s.modRing f k fun r => { r with sqPark := some page }).askXlate f page false

/-- The bytes of an entry: the cached copy of a slot, else ring memory (R58). -/
def State.entryBytes (s : State) (f k n : Nat) : List Byte :=
  (List.range n).flatMap fun i => s.slotBytes f k ((s.ring f k).head + i) 64

/-- The scan ends: at a header without the expected phase, or after one lap (R68). -/
def State.scanEnd (s : State) (f k : Nat) : State := s.modRing f k fun r => { r with scan := false, lap := none }

/-- Start the entry that n slots at the head hold. A reserved opcode ends RANGE (R51). -/
def State.startBytes (s : State) (fn : Fn) (k n : Nat) : Host.Outcome State Fault Refusal :=
  let v := leNat (s.entryBytes fn.idx k n)
  match decodeEntry fn k v with
  | some i => runEntry i s
  | none =>
    let e := entryOf fn k v []
    .next (s.startEntry e (hdrOpcode v) (fun _ => false) (.nop e) fun _ s => s)

/-- The entry at a ring pair's head is fetched and started: its header first and its body after it (R54); the body of a NOP is not read (R65). -/
def State.fetchEntry (s : State) (fn : Fn) (k : Nat) : Host.Outcome State Fault Refusal :=
  let f := fn.idx
  let r := s.ring f k
  if r.lap = some 0 then .next (s.scanEnd f k)
  else
    let first := r.uncached 1
    match s.slotMiss f k first with
    | some pg => .next (s.fetchPark f k pg)
    | none =>
      if s.slotPoison f k first then .next (s.sqMemError f k .poison r.head)
      else
        let h := leNat (s.slotBytes f k r.head 8)
        if hdrPhase h ≠ r.phase then .next (s.scanEnd f k)
        else
          let n := if hdrOpcode h = 0 then 1 else r.taken (hdrSlots h)
          let rest := r.uncached n
          match s.slotMiss f k rest with
          | some pg => .next (s.fetchPark f k pg)
          | none =>
            if s.slotPoison f k rest then .next (s.sqMemError f k .poison r.head)
            else s.startBytes fn k n

/-! ### The order of competing rings (R170) -/

/-- Ring pairs of a function that may start an entry. -/
def State.ringCands (s : State) (f : Nat) : List (Nat × Ring) := (s.fn f).rings.filter fun r => s.canStart f r.1 && r.2.scan

/-- Weight of a class of ring pair: the CW of the function's lowest port, one for a physical function (DESIGN CHOICE, log 159). -/
def State.ringWeight (s : State) (f c : Nat) : Nat :=
  if isPf f then 1 else s.classWeight ((bitList 8 (s.part (partOf f)).cur.ports).headD 0) (partOf f) c

/-- The ring pair whose turn it is to have an entry fetched and started, and the deficits after it: DWRR over the classes of the ring pairs
that compete, each entry counting its 64-byte slot, then round-robin over the ring pairs of the class (R170, R185). -/
def State.ringTurn (s : State) (f : Nat) : Option (Nat × Nat × AMap Nat) :=
  let l := s.ringCands f
  match dwrr (s.fn f).clsDef 0 (((l.map fun r => r.2.cls).eraseDups).map fun c => (c, s.ringWeight f c, 64)) with
  | none => none
  | some (c, d) =>
    let m := l.filter fun r => r.2.cls = c
    let p := agetD (s.fn f).clsRr c 0
    match (m.filter fun r => p ≤ r.1) ++ m with
    | r :: _ => some (r.1, c, d)
    | [] => none

/-- The turn is taken. -/
def State.ringTook (s : State) (f k c : Nat) (d : AMap Nat) : State :=
  s.modFn f fun x => { x with clsDef := d, clsRr := aset x.clsRr c (k + 1) }

/-- R75: the next posted entry of a ring pair starts, once it is the ring pair's turn (R170). -/
def State.entryStart (s : State) (fn : Fn) (k : Nat) : Host.Outcome State Fault Refusal :=
  let f := fn.idx
  match s.ringTurn f with
  | none => .next s
  | some (k', c, d) => if k' ≠ k then .next s else (s.ringTook f k c d).fetchEntry fn k

/-- R75: ENTRY_START. -/
def execEntryStart (fn : Fn) (ring : Nat) (s : State) : Host.Outcome State Fault Refusal := s.entryStart fn ring

end Sys2Proof.Machine
end

