-- ==== Sys2Proof/Machine/Dispatch.lean ====
section
/-! DEFINITION. Dispatch.lean: one arm for each command, a direct call of its meaning. -/

namespace Sys2Proof.Machine

open Sys2Proof

def exec (i : Instr) (s : State) : Host.Outcome State Fault Refusal :=
  match i with
  | .nop e => Sys2Proof.Machine.execNop e s
  | .fence e hostVis remoteVis inst => Sys2Proof.Machine.execFence e hostVis remoteVis inst s
  | .fenceRelease fn ring => Sys2Proof.Machine.execFenceRelease fn ring s
  | .ringInval e ring first count => Sys2Proof.Machine.execRingInval e ring first count s
  | .ringCreate e ring sqLog cqLog cls sqBase cqBase => Sys2Proof.Machine.execRingCreate e ring sqLog cqLog cls sqBase cqBase s
  | .ringDestroy e ring => Sys2Proof.Machine.execRingDestroy e ring s
  | .ringDrained fn ring => Sys2Proof.Machine.execRingDrained fn ring s
  | .ringPause e ring => Sys2Proof.Machine.execRingPause e ring s
  | .ringResume e ring => Sys2Proof.Machine.execRingResume e ring s
  | .ringFlush e ring => Sys2Proof.Machine.execRingFlush e ring s
  | .dbgCfg e group vector => Sys2Proof.Machine.execDbgCfg e group vector s
  | .cqModerate e ring count time => Sys2Proof.Machine.execCqModerate e ring count time s
  | .adminRingEnable fn o value => Sys2Proof.Machine.execAdminRingEnable fn o value s
  | .adminRingResume fn o => Sys2Proof.Machine.execAdminRingResume fn o s
  | .ringSqdb fn ring tail => Sys2Proof.Machine.execRingSqdb fn ring tail s
  | .entryStart fn ring => Sys2Proof.Machine.execEntryStart fn ring s
  | .cqHeadRelease fn ring head => Sys2Proof.Machine.execCqHeadRelease fn ring head s
  | .cqEventArm fn ring head => Sys2Proof.Machine.execCqEventArm fn ring head s
  | .dbgRingSet fn group bits => Sys2Proof.Machine.execDbgRingSet fn group bits s
  | .dbgMaskWrite fn group bits => Sys2Proof.Machine.execDbgMaskWrite fn group bits s
  | .dbgEvtClear fn group bits => Sys2Proof.Machine.execDbgEvtClear fn group bits s
  | .dbgEmaskWrite fn group bits => Sys2Proof.Machine.execDbgEmaskWrite fn group bits s
  | .pendingCompletionWrite fn ring => Sys2Proof.Machine.execPendingCompletionWrite fn ring s
  | .cqEventTimer fn ring now => Sys2Proof.Machine.execCqEventTimer fn ring now s
  | .stateRecordCommit now => Sys2Proof.Machine.execStateRecordCommit now s
  | .registerFence fn o token hostVis remoteVis vector irq => Sys2Proof.Machine.execRegisterFence fn o token hostVis remoteVis vector irq s
  | .registerFenceDone fn => Sys2Proof.Machine.execRegisterFenceDone fn s
  | .frameTx e port bp space addr len => Sys2Proof.Machine.execFrameTx e port bp space addr len s
  | .frameRxbuf e addr len => Sys2Proof.Machine.execFrameRxbuf e addr len s
  | .rcRegisterRead o off width => Sys2Proof.Machine.execRcRegisterRead o off width s
  | .setupRegWrite o off width value => Sys2Proof.Machine.execSetupRegWrite o off width value s
  | .write e b => Sys2Proof.Machine.execWrite e b s
  | .read e b => Sys2Proof.Machine.execRead e b s
  | .writeNotify e b imm => Sys2Proof.Machine.execWriteNotify e b imm s
  | .atFadd e b => Sys2Proof.Machine.execAtFadd e b s
  | .atFand e b => Sys2Proof.Machine.execAtFand e b s
  | .atFor e b => Sys2Proof.Machine.execAtFor e b s
  | .atFxor e b => Sys2Proof.Machine.execAtFxor e b s
  | .atSwap e b => Sys2Proof.Machine.execAtSwap e b s
  | .atCas e b => Sys2Proof.Machine.execAtCas e b s
  | .tsend e b => Sys2Proof.Machine.execTsend e b s
  | .trecv e b => Sys2Proof.Machine.execTrecv e b s
  | .trecvCancel e list tag => Sys2Proof.Machine.execTrecvCancel e list tag s
  | .mlistCreate e list uq => Sys2Proof.Machine.execMlistCreate e list uq s
  | .mlistDestroy e list => Sys2Proof.Machine.execMlistDestroy e list s
  | .winOpen e b => Sys2Proof.Machine.execWinOpen e b s
  | .winRevoke e wref => Sys2Proof.Machine.execWinRevoke e wref s
  | .tallyAlloc e value => Sys2Proof.Machine.execTallyAlloc e value s
  | .tallyFree e tally => Sys2Proof.Machine.execTallyFree e tally s
  | .tallyAdd e tally value => Sys2Proof.Machine.execTallyAdd e tally value s
  | .tallySet e tally value => Sys2Proof.Machine.execTallySet e tally value s
  | .tallyRead e tally addr => Sys2Proof.Machine.execTallyRead e tally addr s
  | .arm e trig emb => Sys2Proof.Machine.execArm e trig emb s
  | .armCancel e tag => Sys2Proof.Machine.execArmCancel e tag s
  | .armedTimeFire fn ring tag now => Sys2Proof.Machine.execArmedTimeFire fn ring tag now s
  | .connConnect e b => Sys2Proof.Machine.execConnConnect e b s
  | .connListen e service laddrIdx nring maxConn => Sys2Proof.Machine.execConnListen e service laddrIdx nring maxConn s
  | .connUnlisten e service laddrIdx => Sys2Proof.Machine.execConnUnlisten e service laddrIdx s
  | .connClose e conn => Sys2Proof.Machine.execConnClose e conn s
  | .connAbort e conn => Sys2Proof.Machine.execConnAbort e conn s
  | .connQuery e conn addr => Sys2Proof.Machine.execConnQuery e conn addr s
  | .connModify e conn ports paths => Sys2Proof.Machine.execConnModify e conn ports paths s
  | .synReceive x => Sys2Proof.Machine.execSynReceive x s
  | .synAckReceive x => Sys2Proof.Machine.execSynAckReceive x s
  | .connAckReceive rx fn grant => Sys2Proof.Machine.execConnAckReceive rx fn grant s
  | .finReceive rx fn => Sys2Proof.Machine.execFinReceive rx fn s
  | .finAckReceive rx fn => Sys2Proof.Machine.execFinAckReceive rx fn s
  | .abortReceive rx fn ext => Sys2Proof.Machine.execAbortReceive rx fn ext s
  | .synRetryTimer fn conn now => Sys2Proof.Machine.execSynRetryTimer fn conn now s
  | .slowpathDone fn conn => Sys2Proof.Machine.execSlowpathDone fn conn s
  | .slowpathFail fn conn => Sys2Proof.Machine.execSlowpathFail fn conn s
  | .lostTimeExpiry fn conn now => Sys2Proof.Machine.execLostTimeExpiry fn conn now s
  | .rekeyKeyInstalled fn conn => Sys2Proof.Machine.execRekeyKeyInstalled fn conn s
  | .dataReceive rx fn wref roff moff mlen notify imm payload => Sys2Proof.Machine.execDataReceive rx fn wref roff moff mlen notify imm payload s
  | .readReqReceive rx fn wref roff len req => Sys2Proof.Machine.execReadReqReceive rx fn wref roff len req s
  | .readRespReceive rx fn req moff payload => Sys2Proof.Machine.execReadRespReceive rx fn req moff payload s
  | .atomicReqReceive rx fn op wref roff opnd1 opnd2 => Sys2Proof.Machine.execAtomicReqReceive rx fn op wref roff opnd1 opnd2 s
  | .atomicRespReceive rx fn req old => Sys2Proof.Machine.execAtomicRespReceive rx fn req old s
  | .tsendReceive rx fn list tag mlen moff rdv payload => Sys2Proof.Machine.execTsendReceive rx fn list tag mlen moff rdv payload s
  | .rdvReqReceive rx fn req moff len => Sys2Proof.Machine.execRdvReqReceive rx fn req moff len s
  | .rdvRespReceive rx fn req moff payload => Sys2Proof.Machine.execRdvRespReceive rx fn req moff payload s
  | .nakReceive rx fn msn status detail => Sys2Proof.Machine.execNakReceive rx fn msn status detail s
  | .abandonNoticeReceive rx fn msn status => Sys2Proof.Machine.execAbandonNoticeReceive rx fn msn status s
  | .ackDelayTimer fn conn now => Sys2Proof.Machine.execAckDelayTimer fn conn now s
  | .ackReceive rx fn x => Sys2Proof.Machine.execAckReceive rx fn x s
  | .retxTimerExpiry fn conn psn now => Sys2Proof.Machine.execRetxTimerExpiry fn conn psn now s
  | .pathStrikeEval fn conn now => Sys2Proof.Machine.execPathStrikeEval fn conn now s
  | .pathProbeTimer fn conn path now => Sys2Proof.Machine.execPathProbeTimer fn conn path now s
  | .probeReceive rx fn => Sys2Proof.Machine.execProbeReceive rx fn s
  | .silenceProbeTimer fn conn now => Sys2Proof.Machine.execSilenceProbeTimer fn conn now s
  | .abortRepeatTimer fn conn now => Sys2Proof.Machine.execAbortRepeatTimer fn conn now s
  | .grantInterval now => Sys2Proof.Machine.execGrantInterval now s
  | .creditChangeTimer fn conn now => Sys2Proof.Machine.execCreditChangeTimer fn conn now s
  | .creditGrantReceive rx fn grant => Sys2Proof.Machine.execCreditGrantReceive rx fn grant s
  | .creditReqReceive rx fn => Sys2Proof.Machine.execCreditReqReceive rx fn s
  | .creditReqTimer fn conn now => Sys2Proof.Machine.execCreditReqTimer fn conn now s
  | .packetSelect port now => Sys2Proof.Machine.execPacketSelect port now s
  | .frameTransmit port bp now => Sys2Proof.Machine.execFrameTransmit port bp now s
  | .queueEscalationTimer port part cls now => Sys2Proof.Machine.execQueueEscalationTimer port part cls now s
  | .queueSampleTimer now => Sys2Proof.Machine.execQueueSampleTimer now s
  | .gateLoad e port count addr start => Sys2Proof.Machine.execGateLoad e port count addr start s
  | .gateTakeover port now => Sys2Proof.Machine.execGateTakeover port now s
  | .gateEntryAdvance port now => Sys2Proof.Machine.execGateEntryAdvance port now s
  | .qStop e scope arg => Sys2Proof.Machine.execQStop e scope arg s
  | .qStart e scope arg => Sys2Proof.Machine.execQStart e scope arg s
  | .qSample e addr => Sys2Proof.Machine.execQSample e addr s
  | .herdCreate e b => Sys2Proof.Machine.execHerdCreate e b s
  | .herdFormTimeout fn herd now => Sys2Proof.Machine.execHerdFormTimeout fn herd now s
  | .herdDestroy e herd => Sys2Proof.Machine.execHerdDestroy e herd s
  | .herdQuery e herd addr => Sys2Proof.Machine.execHerdQuery e herd addr s
  | .collAllreduce e b => Sys2Proof.Machine.execCollAllreduce e b s
  | .collReduceScatter e b => Sys2Proof.Machine.execCollReduceScatter e b s
  | .collAllgather e b => Sys2Proof.Machine.execCollAllgather e b s
  | .collBcast e b => Sys2Proof.Machine.execCollBcast e b s
  | .collReduce e b => Sys2Proof.Machine.execCollReduce e b s
  | .collAlltoall e b => Sys2Proof.Machine.execCollAlltoall e b s
  | .collDispatch e b => Sys2Proof.Machine.execCollDispatch e b s
  | .collCombine e b => Sys2Proof.Machine.execCollCombine e b s
  | .collBarrier e b => Sys2Proof.Machine.execCollBarrier e b s
  | .collStart fn herd => Sys2Proof.Machine.execCollStart fn herd s
  | .bulkCollReceive rx fn x npk pidx payload => Sys2Proof.Machine.execBulkCollReceive rx fn x npk pidx payload s
  | .haltReceive rx fn mepoch cseq origin cause => Sys2Proof.Machine.execHaltReceive rx fn mepoch cseq origin cause s
  | .barrierTokenReceive rx fn mepoch cseq sig srank step => Sys2Proof.Machine.execBarrierTokenReceive rx fn mepoch cseq sig srank step s
  | .heartbeatTimer fn herd now => Sys2Proof.Machine.execHeartbeatTimer fn herd now s
  | .heartbeatMiss fn herd now => Sys2Proof.Machine.execHeartbeatMiss fn herd now s
  | .tokenProposeReceive rx fn t => Sys2Proof.Machine.execTokenProposeReceive rx fn t s
  | .tokenCommitReceive rx fn t => Sys2Proof.Machine.execTokenCommitReceive rx fn t s
  | .proposeLapTimer fn herd now => Sys2Proof.Machine.execProposeLapTimer fn herd now s
  | .settleTimer fn herd now => Sys2Proof.Machine.execSettleTimer fn herd now s
  | .agreeTimer fn herd now => Sys2Proof.Machine.execAgreeTimer fn herd now s
  | .collectiveResume fn herd sources => Sys2Proof.Machine.execCollectiveResume fn herd sources s
  | .attnOpen e b => Sys2Proof.Machine.execAttnOpen e b s
  | .attnLoadingDone fn sess => Sys2Proof.Machine.execAttnLoadingDone fn sess s
  | .attnFeed e b => Sys2Proof.Machine.execAttnFeed e b s
  | .attnFinish e sref => Sys2Proof.Machine.execAttnFinish e sref s
  | .attnAbort e sref => Sys2Proof.Machine.execAttnAbort e sref s
  | .attnQuery e sess addr => Sys2Proof.Machine.execAttnQuery e sess addr s
  | .bulkKvReceive rx fn x npk pidx payload => Sys2Proof.Machine.execBulkKvReceive rx fn x npk pidx payload s
  | .kvBlockMerge fn sess block slot => Sys2Proof.Machine.execKvBlockMerge fn sess block slot s
  | .attnOutputWrite fn sess => Sys2Proof.Machine.execAttnOutputWrite fn sess s
  | .progLoad e slice image len codeOff codeLen => Sys2Proof.Machine.execProgLoad e slice image len codeOff codeLen s
  | .progUnload e handle => Sys2Proof.Machine.execProgUnload e handle s
  | .progLaunch e b => Sys2Proof.Machine.execProgLaunch e b s
  | .launchRunning fn launch => Sys2Proof.Machine.execLaunchRunning fn launch s
  | .progStop e lref => Sys2Proof.Machine.execProgStop e lref s
  | .progQuery e launch addr => Sys2Proof.Machine.execProgQuery e launch addr s
  | .launchStopped fn launch => Sys2Proof.Machine.execLaunchStopped fn launch s
  | .launchEnded fn launch => Sys2Proof.Machine.execLaunchEnded fn launch s
  | .atcPrefetch e addr len wr faultOk => Sys2Proof.Machine.execAtcPrefetch e addr len wr faultOk s
  | .sliceRekey e first count ksel => Sys2Proof.Machine.execSliceRekey e first count ksel s
  | .sliceRekeyPage page => Sys2Proof.Machine.execSliceRekeyPage page s
  | .sliceInfo e addr => Sys2Proof.Machine.execSliceInfo e addr s
  | .atsTranslationCompletion fn addr reply => Sys2Proof.Machine.execAtsTranslationCompletion fn addr reply s
  | .pageRequestBatchSend fn now => Sys2Proof.Machine.execPageRequestBatchSend fn now s
  | .priResponseReceive fn group gen reply => Sys2Proof.Machine.execPriResponseReceive fn group gen reply s
  | .priTimeout fn group now => Sys2Proof.Machine.execPriTimeout fn group now s
  | .atsInvalidateRequest fn tag addr len => Sys2Proof.Machine.execAtsInvalidateRequest fn tag addr len s
  | .atsInvalidateComplete fn tag => Sys2Proof.Machine.execAtsInvalidateComplete fn tag s
  | .hostReadCompletion link tag gen data ans => Sys2Proof.Machine.execHostReadCompletion link tag gen data ans s
  | .completionTimeout link tag now => Sys2Proof.Machine.execCompletionTimeout link tag now s
  | .vfFlr link part => Sys2Proof.Machine.execVfFlr link part s
  | .pfFlr link => Sys2Proof.Machine.execPfFlr link s
  | .linkDlDown link => Sys2Proof.Machine.execLinkDlDown link s
  | .linkUp link speed width cxl => Sys2Proof.Machine.execLinkUp link speed width cxl s
  | .cxlMemRead link addr => Sys2Proof.Machine.execCxlMemRead link addr s
  | .cxlMemWrite link addr data => Sys2Proof.Machine.execCxlMemWrite link addr data s
  | .hostSnoop link addr inval => Sys2Proof.Machine.execHostSnoop link addr inval s
  | .directoryRecall link addr dirty => Sys2Proof.Machine.execDirectoryRecall link addr dirty s
  | .lineCacheDisable link o => Sys2Proof.Machine.execLineCacheDisable link o s
  | .instMbx part link gen opcode tag args deferrable => Sys2Proof.Machine.execInstMbx part link gen opcode tag args deferrable s
  | .mailboxTake part => Sys2Proof.Machine.execMailboxTake part s
  | .mailboxReplyWrite part index => Sys2Proof.Machine.execMailboxReplyWrite part index s
  | .mbxReplyHead fn head => Sys2Proof.Machine.execMbxReplyHead fn head s
  | .mbxEcho part => Sys2Proof.Machine.execMbxEcho part s
  | .mbxInfo part => Sys2Proof.Machine.execMbxInfo part s
  | .mbxQuota part => Sys2Proof.Machine.execMbxQuota part s
  | .mbxKeystat part => Sys2Proof.Machine.execMbxKeystat part s
  | .mbxHealth part => Sys2Proof.Machine.execMbxHealth part s
  | .partApply e part limit ptab => Sys2Proof.Machine.execPartApply e part limit ptab s
  | .partApplyCommit part => Sys2Proof.Machine.execPartApplyCommit part s
  | .partApplyLimit part now => Sys2Proof.Machine.execPartApplyLimit part now s
  | .partReset e part => Sys2Proof.Machine.execPartReset e part s
  | .instanceResetComplete part => Sys2Proof.Machine.execInstanceResetComplete part s
  | .partFreeze e part limit => Sys2Proof.Machine.execPartFreeze e part limit s
  | .freezePoint part now => Sys2Proof.Machine.execFreezePoint part now s
  | .freezeCancel part now => Sys2Proof.Machine.execFreezeCancel part now s
  | .partSave e part addr len slot => Sys2Proof.Machine.execPartSave e part addr len slot s
  | .partRestore e part addr len slot => Sys2Proof.Machine.execPartRestore e part addr len slot s
  | .partThaw e part => Sys2Proof.Machine.execPartThaw e part s
  | .partQuery e part addr => Sys2Proof.Machine.execPartQuery e part addr s
  | .partAddrWrite part o index ip vid pcp ven ports valid => Sys2Proof.Machine.execPartAddrWrite part o index ip vid pcp ven ports valid s
  | .quietExpiry part now => Sys2Proof.Machine.execQuietExpiry part now s
  | .keySelSet e sel tsel => Sys2Proof.Machine.execKeySelSet e sel tsel s
  | .keySelClear e sel => Sys2Proof.Machine.execKeySelClear e sel s
  | .keyAdvance e conn => Sys2Proof.Machine.execKeyAdvance e conn s
  | .keySeal e slot ispace ospace src dst len => Sys2Proof.Machine.execKeySeal e slot ispace ospace src dst len s
  | .keyUnseal e slot ispace ospace src dst len => Sys2Proof.Machine.execKeyUnseal e slot ispace ospace src dst len s
  | .keyStatus e addr => Sys2Proof.Machine.execKeyStatus e addr s
  | .contribSet part session kind slot value => Sys2Proof.Machine.execContribSet part session kind slot value s
  | .contribClear part session kind slot => Sys2Proof.Machine.execContribClear part session kind slot s
  | .spdmRequest ep r => Sys2Proof.Machine.execSpdmRequest ep r s
  | .firstContactDatagram peerIp peerDev ok final now => Sys2Proof.Machine.execFirstContactDatagram peerIp peerDev ok final now s
  | .firstContactRetry peerIp now => Sys2Proof.Machine.execFirstContactRetry peerIp now s
  | .rxNextKeyDerived fn conn => Sys2Proof.Machine.execRxNextKeyDerived fn conn s
  | .entropyWindowEnd ok => Sys2Proof.Machine.execEntropyWindowEnd ok s
  | .drbgReseed now => Sys2Proof.Machine.execDrbgReseed now s
  | .ideIntegrityFail link stream => Sys2Proof.Machine.execIdeIntegrityFail link stream s
  | .tdispRequest part r => Sys2Proof.Machine.execTdispRequest part r s
  | .jrnlExportWrite => Sys2Proof.Machine.execJrnlExportWrite s
  | .jrnlExportVisible => Sys2Proof.Machine.execJrnlExportVisible s
  | .jrnlExpHead o head => Sys2Proof.Machine.execJrnlExpHead o head s
  | .jrnlExpEnable o value => Sys2Proof.Machine.execJrnlExpEnable o value s
  | .jrnlTailRead o => Sys2Proof.Machine.execJrnlTailRead o s
  | .portDown port loss now => Sys2Proof.Machine.execPortDown port loss now s
  | .portUp port bp lanes => Sys2Proof.Machine.execPortUp port bp lanes s
  | .orderlyFenceProceed region => Sys2Proof.Machine.execOrderlyFenceProceed region s
  | .fenceWaitExpiry region now => Sys2Proof.Machine.execFenceWaitExpiry region now s
  | .errFenceReq o mask => Sys2Proof.Machine.execErrFenceReq o mask s
  | .errFenceUnfence o mask => Sys2Proof.Machine.execErrFenceUnfence o mask s
  | .errorArrival r strikes => Sys2Proof.Machine.execErrorArrival r strikes s
  | .errorActionEnd rec_ => Sys2Proof.Machine.execErrorActionEnd rec_ s
  | .errRecordClear o rec_ => Sys2Proof.Machine.execErrRecordClear o rec_ s
  | .saigaWatchdogExpiry => Sys2Proof.Machine.execSaigaWatchdogExpiry s
  | .scrubVisit scrubber f now => Sys2Proof.Machine.execScrubVisit scrubber f now s
  | .scrubStarve scrubber now => Sys2Proof.Machine.execScrubStarve scrubber now s
  | .frameReceive f => Sys2Proof.Machine.execFrameReceive f s
  | .pauseFrameReceive port bp quanta now => Sys2Proof.Machine.execPauseFrameReceive port bp quanta now s
  | .pfcFrameReceive port bp enables times now => Sys2Proof.Machine.execPfcFrameReceive port bp enables times now s
  | .pauseTimerExpiry port bp prio now => Sys2Proof.Machine.execPauseTimerExpiry port bp prio now s
  | .pfcRepeatTimer port bp now => Sys2Proof.Machine.execPfcRepeatTimer port bp now s
  | .overloadInterval port bp total corr uncorr now => Sys2Proof.Machine.execOverloadInterval port bp total corr uncorr now s
  | .shedCapReceive port bp lanes => Sys2Proof.Machine.execShedCapReceive port bp lanes s
  | .shedSample port bp rx now => Sys2Proof.Machine.execShedSample port bp rx now s
  | .shedReqReceive port bp seq lanes peerMac => Sys2Proof.Machine.execShedReqReceive port bp seq lanes peerMac s
  | .shedAckReceive port bp seq => Sys2Proof.Machine.execShedAckReceive port bp seq s
  | .shedNakReceive port bp seq => Sys2Proof.Machine.execShedNakReceive port bp seq s
  | .shedReqTimeout port bp now => Sys2Proof.Machine.execShedReqTimeout port bp now s
  | .shedLanesTrained port bp => Sys2Proof.Machine.execShedLanesTrained port bp s
  | .shedMarkReceive port bp => Sys2Proof.Machine.execShedMarkReceive port bp s
  | .shedMarkTimeout port bp now => Sys2Proof.Machine.execShedMarkTimeout port bp now s
  | .moduleInsert port power now => Sys2Proof.Machine.execModuleInsert port power now s
  | .moduleRemove port => Sys2Proof.Machine.execModuleRemove port s
  | .moduleIntl port flags => Sys2Proof.Machine.execModuleIntl port flags s
  | .portModeWrite o port value => Sys2Proof.Machine.execPortModeWrite o port value s
  | .fltCommit o index => Sys2Proof.Machine.execFltCommit o index s
  | .fltRetire index => Sys2Proof.Machine.execFltRetire index s
  | .timeAdj o delta => Sys2Proof.Machine.execTimeAdj o delta s
  | .ptpSyncReceive port bp domain offset now => Sys2Proof.Machine.execPtpSyncReceive port bp domain offset now s
  | .timeNowRead o => Sys2Proof.Machine.execTimeNowRead o s
  | .saigaDoze now => Sys2Proof.Machine.execSaigaDoze now s
  | .saigaWake source => Sys2Proof.Machine.execSaigaWake source s
  | .boot bad => Sys2Proof.Machine.execBoot bad s
  | .trialConfirm now => Sys2Proof.Machine.execTrialConfirm now s
  | .id node seq => Sys2Proof.Machine.execId node seq s
  | .regRead node seq addr width session => Sys2Proof.Machine.execRegRead node seq addr width session s
  | .regWrite node seq addr width value session => Sys2Proof.Machine.execRegWrite node seq addr width value session s
  | .flashWrite node seq addr data session => Sys2Proof.Machine.execFlashWrite node seq addr data session s
  | .imageSwitch node seq restart session => Sys2Proof.Machine.execImageSwitch node seq restart session s
  | .jrnlRead node seq rec_ session => Sys2Proof.Machine.execJrnlRead node seq rec_ session s
  | .healthMulticast now => Sys2Proof.Machine.execHealthMulticast now s
  | .telemetrySnapshot now => Sys2Proof.Machine.execTelemetrySnapshot now s
  | .loadShedWindow busy now => Sys2Proof.Machine.execLoadShedWindow busy now s
  | .mbusShortRetry ok now => Sys2Proof.Machine.execMbusShortRetry ok now s
  | .mgmtModeExit o => Sys2Proof.Machine.execMgmtModeExit o s
  | .mgmtSaEnable o value => Sys2Proof.Machine.execMgmtSaEnable o value s
  | .bistRegionStart o mask => Sys2Proof.Machine.execBistRegionStart o mask s
  | .bistRegionEnd region fails spares funit now => Sys2Proof.Machine.execBistRegionEnd region fails spares funit now s
  | .bistChipStart o bad => Sys2Proof.Machine.execBistChipStart o bad s
  | .tapScanSelect => Sys2Proof.Machine.execTapScanSelect s
  | .refStable restarts => Sys2Proof.Machine.execRefStable restarts s
  | .refLoss => Sys2Proof.Machine.execRefLoss s
  | .clkRampStep domain => Sys2Proof.Machine.execClkRampStep domain s
  | .clkSourceSwitch domain => Sys2Proof.Machine.execClkSourceSwitch domain s
  | .pllLockLoss pll => Sys2Proof.Machine.execPllLockLoss pll s
  | .clkDomSel o value => Sys2Proof.Machine.execClkDomSel o value s
  | .regionIdle region now => Sys2Proof.Machine.execRegionIdle region now s
  | .regionIdleWake region => Sys2Proof.Machine.execRegionIdleWake region s
  | .regionDoze region now => Sys2Proof.Machine.execRegionDoze region now s
  | .regionWake region => Sys2Proof.Machine.execRegionWake region s
  | .railSettled region mv => Sys2Proof.Machine.execRailSettled region mv s
  | .powerSwitchClosed region => Sys2Proof.Machine.execPowerSwitchClosed region s
  | .pllLocked region => Sys2Proof.Machine.execPllLocked region s
  | .pwrSleep o => Sys2Proof.Machine.execPwrSleep o s
  | .sleepExit source => Sys2Proof.Machine.execSleepExit source s
  | .powerLimitEval power now => Sys2Proof.Machine.execPowerLimitEval power now s
  | .powerLimitFence now => Sys2Proof.Machine.execPowerLimitFence now s
  | .thermalSample temps now => Sys2Proof.Machine.execThermalSample temps now s
  | .railFault region mv => Sys2Proof.Machine.execRailFault region mv s
  | .perstAssert link => Sys2Proof.Machine.execPerstAssert link s
  | .auxVoltageChange mv now => Sys2Proof.Machine.execAuxVoltageChange mv now s
  | .auxUvRecover now => Sys2Proof.Machine.execAuxUvRecover now s
  | .auxPowerLoss now => Sys2Proof.Machine.execAuxPowerLoss now s
  | .cageInsertPower port now => Sys2Proof.Machine.execCageInsertPower port now s
  | .cageOvercurrent port now => Sys2Proof.Machine.execCageOvercurrent port now s
  | .cageRetry port now => Sys2Proof.Machine.execCageRetry port now s
  | .coolantSensorRead x now => Sys2Proof.Machine.execCoolantSensorRead x now s
  | .coolingCapLift now => Sys2Proof.Machine.execCoolingCapLift now s
  | .connRefusalReceive rx fn kind hint now => Sys2Proof.Machine.execConnRefusalReceive rx fn kind hint now s
  | .priReset fn => Sys2Proof.Machine.execPriReset fn s
  | .vfEnableWrite link on => Sys2Proof.Machine.execVfEnableWrite link on s
  | .atsEnableWrite fn ctl => Sys2Proof.Machine.execAtsEnableWrite fn ctl s
  | .sleepExportTimeout now => Sys2Proof.Machine.execSleepExportTimeout now s
  | .slewAbsorbed now => Sys2Proof.Machine.execSlewAbsorbed now s
  | .tpfNop r => Sys2Proof.Machine.execTpfNop r s
  | .tpfEnd r => Sys2Proof.Machine.execTpfEnd r s
  | .tpfJmp r => Sys2Proof.Machine.execTpfJmp r s
  | .tpfBr r => Sys2Proof.Machine.execTpfBr r s
  | .tpfLoop r => Sys2Proof.Machine.execTpfLoop r s
  | .tpfSafepoint r => Sys2Proof.Machine.execTpfSafepoint r s
  | .tpfMovi r => Sys2Proof.Machine.execTpfMovi r s
  | .tpfAlu r => Sys2Proof.Machine.execTpfAlu r s
  | .tpfArg r => Sys2Proof.Machine.execTpfArg r s
  | .tpfId r => Sys2Proof.Machine.execTpfId r s
  | .tpfTime r => Sys2Proof.Machine.execTpfTime r s
  | .tpfExc r => Sys2Proof.Machine.execTpfExc r s
  | .tpfTread r => Sys2Proof.Machine.execTpfTread r s
  | .tpfTload r => Sys2Proof.Machine.execTpfTload r s
  | .tpfTstore r => Sys2Proof.Machine.execTpfTstore r s
  | .tpfTcopy r => Sys2Proof.Machine.execTpfTcopy r s
  | .tpfTfill r => Sys2Proof.Machine.execTpfTfill r s
  | .tpfMma r => Sys2Proof.Machine.execTpfMma r s
  | .tpfVop r => Sys2Proof.Machine.execTpfVop r s
  | .tpfVfn r => Sys2Proof.Machine.execTpfVfn r s
  | .tpfVred r => Sys2Proof.Machine.execTpfVred r s
  | .tpfQuant r => Sys2Proof.Machine.execTpfQuant r s
  | .tpfSend r => Sys2Proof.Machine.execTpfSend r s
  | .tpfRecv r => Sys2Proof.Machine.execTpfRecv r s
  | .tpfTadd r => Sys2Proof.Machine.execTpfTadd r s
  | .tpfTwait r => Sys2Proof.Machine.execTpfTwait r s
  | .tpfTset r => Sys2Proof.Machine.execTpfTset r s
  | .asyncOpEnd r op => Sys2Proof.Machine.execAsyncOpEnd r op s
  | .sendRetry r op now => Sys2Proof.Machine.execSendRetry r op now s
  | .peerMessageTransfer r op => Sys2Proof.Machine.execPeerMessageTransfer r op s
  | .copySave r => Sys2Proof.Machine.execCopySave r s
  | .copyResume r block => Sys2Proof.Machine.execCopyResume r block s
  | .spwaitExpiry r now => Sys2Proof.Machine.execSpwaitExpiry r now s

end Sys2Proof.Machine
end

