-- ==== Sys2Proof/Safety.lean ====
section
/-!
DEFINITION. Safety.lean: what a safe step is, and the terms in which claims say when a command runs. A safe step answers a next state:
a block stops on nothing the manual describes, so a fault or a refusal is never safe.
-/

namespace Sys2Proof

/-- The outcome is a next state. -/
def Safe (o : Host.Outcome Machine.State Machine.Fault Machine.Refusal) : Prop :=
  match o with
  | .next _ => True
  | .fault _ => False
  | .refused _ => False

/-- The next state an outcome gives, if it gives one. -/
def nextOf (o : Host.Outcome Machine.State Machine.Fault Machine.Refusal) : Option Machine.State :=
  match o with
  | .next s => some s
  | .fault _ => none
  | .refused _ => none

end Sys2Proof

namespace Sys2Proof.Machine

/-- Address translation is off for a function, and no host read of it has failed and waits for its answer (R336). -/
abbrev AtsOff (s : State) (f : Nat) : Prop := (s.fn f).ats.enable = false ∧ (s.fn f).ats.ur = []

/-- Host ranges (address, length, write) of a function can be used at once: each is translated, or translation is off and no failed read of it
waits for its answer (R336, R338). -/
abbrev Usable (s : State) (f : Nat) (l : List (Nat × Nat × Bool)) : Prop := ∀ r ∈ l, s.missing f r.1 r.2.1 r.2.2 = none

/-- The entry e can start at the head of its ring, and its header passes every check: its length is one that `lens` permits and fits
before the ring's last slot, no reserved bit is set, its GEN is the function's, and its opcode is permitted on a ring of this form
(R12, R52, R55, R57, R62, R72, R75, R78, R530). -/
structure Ready (s : State) (e : Entry) (lens : Nat → Bool) (raw : Bool) : Prop where
  starts : s.canStart e.fn.idx e.ring = true
  slots  : lens e.slots = true
  fits   : e.slots ≤ (s.ring e.fn.idx e.ring).sqSize - (s.ring e.fn.idx e.ring).head
  rsv    : e.rsv = false
  gen    : e.gen = (s.fn e.fn.idx).gen
  form   : (s.ring e.fn.idx e.ring).raw = raw

/-- The copy r issues an instruction of opcode op next, in the context k: its launch is RUNNING, its block issues, and no poison touches
its code (R290, R293, R310, R491). -/
structure Issues (s : State) (r : CopyRef) (op : Nat) (k : Ctx) : Prop where
  fn      : k.f = r.fn.idx
  li      : k.li = r.launch
  ci      : k.ci = r.copy
  launch  : aget (s.fn k.f).launches k.li = some k.l
  copy    : aget k.l.copies k.ci = some k.c
  prog    : aget (s.fn k.f).progs k.l.handle = some k.p
  running : k.l.state = .running
  issues  : k.c.issues s = true
  live    : (s.fn k.f).resetting = false
  insn    : k.p.insns[k.c.pc]? = some k.x
  opcode  : k.x.op = op
  code    : s.codeBad k.f k.p = false

/-- The header of a packet in the sequence of its connection, and the bytes of payload that come with it: the kinds that carry a PSN of their
own (R131, R144, R145). -/
def sequenced (c : Instr) : Option (Rx × Nat) :=
  match c with
  | .dataReceive rx _ _ _ _ _ _ _ payload => some (rx, payload.length)
  | .readReqReceive rx .. => some (rx, 0)
  | .readRespReceive rx _ _ _ payload => some (rx, payload.length)
  | .atomicReqReceive rx .. => some (rx, 0)
  | .atomicRespReceive rx .. => some (rx, 8)
  | .tsendReceive rx _ _ _ _ _ _ payload => some (rx, payload.length)
  | .rdvReqReceive rx .. => some (rx, 0)
  | .rdvRespReceive rx _ _ _ payload => some (rx, payload.length)
  | .nakReceive rx .. => some (rx, 0)
  | .abandonNoticeReceive rx .. => some (rx, 0)
  | .bulkCollReceive rx _ _ _ _ payload => some (rx, payload.length)
  | .haltReceive rx .. => some (rx, 0)
  | .barrierTokenReceive rx .. => some (rx, 0)
  | .tokenProposeReceive rx .. => some (rx, rx.plen)
  | .tokenCommitReceive rx .. => some (rx, rx.plen)
  | .bulkKvReceive rx _ _ _ _ payload => some (rx, payload.length)
  | _ => none

/-- The number of the operation that the next starting entry of e's function becomes. -/
def State.opId (s : State) (e : Entry) : Nat := (s.fn e.fn.idx).nextOp

/-- Every operation of every function has a number below the next one it gives. -/
def State.OpNumbers (s : State) : Prop := ∀ f : Nat, ∀ o ∈ (s.fn f).ops, o.id < (s.fn f).nextOp

/-- The command e of partition p is one that a physical function's admin ring takes: the journal has room for its record, and no
operation in flight has its number (R391, R440). -/
structure PartReady (s : State) (e : Entry) (p : Nat) : Prop where
  ready : Ready s e len1 false
  pf    : isPf e.fn.idx = true
  admin : e.ring = 0
  part  : p < 16
  room  : s.jrnl.full = false
  fresh : s.op? e.fn.idx (s.opId e) = none

/-- What no ring command's completion touches is the same in s and t: the queue, registers, clock, partitions, mesh, schedulers, ports,
filters, security, error, self-test, power, card and management state, and the images. -/
structure Kept (s t : State) : Prop where
  pending : t.pending = s.pending
  regs    : t.regs = s.regs
  clk     : t.clk = s.clk
  parts   : t.parts = s.parts
  mesh    : t.mesh = s.mesh
  sched   : t.sched = s.sched
  ports   : t.ports = s.ports
  flts    : t.flts = s.flts
  sec     : t.sec = s.sec
  err     : t.err = s.err
  bist    : t.bist = s.bist
  power   : t.power = s.power
  card    : t.card = s.card
  mgmt    : t.mgmt = s.mgmt
  ibex    : t.ibex = s.ibex
  images  : t.images = s.images

/-- Every function but f is the same in s and t, up to its pending vectors. -/
def OthersKept (f : Nat) (s t : State) : Prop := ∀ g : Nat, g ≠ f → t.fn g = { s.fn g with msixPba := (t.fn g).msixPba }

/-- The entry of a ring command whose whole effect is on its own function and on its completion. -/
def plainCommand (c : Instr) : Option Entry :=
  match c with
  | .nop e => some e
  | .ringInval e .. => some e
  | .ringPause e .. => some e
  | .ringResume e .. => some e
  | .dbgCfg e .. => some e
  | .tallyAlloc e .. => some e
  | .tallyFree e .. => some e
  | .winOpen e .. => some e
  | .mlistCreate e .. => some e
  | _ => none

/-- A management request reaches the running firmware: it is its turn (R521), it has not been answered
before, and its session is open (R534, R536). -/
structure BusReady (s : State) (node seq session : Nat) : Prop where
  powered : s.powered = true
  running : s.mgmt.running = true
  turn    : s.fwTurn 6 = true
  fresh   : (s.mgmt.answers.find? fun a => a.node = node ∧ a.seq = seq) = none
  secure  : s.session .bus session = true

/-- A partition command has been accepted: its record is in the journal, and the operation keeps the digest (R391, R435). -/
def State.partTaken (s : State) (f id opcode p : Nat) (more : List Nat) : State :=
  (s.jCommit (s.originOf f) (.partcmd opcode p .ok (s.partDigest f id more))).modOp f id fun o => { o with aux := [s.partDigest f id more] }

end Sys2Proof.Machine
end

