-- ==== Sys2Proof/Certificates/Slice0/Obligations.lean ====
section
/-!
DEFINITION. Obligations.lean: the statements for the provers. Each says of every state that meets its hypotheses which next state a command gives,
or what every step keeps; its docstring names the rules of the manual it rests on.
-/

open Sys2Proof Sys2Proof.Machine

/-! ### Ring pairs (R45-R78) -/

/-- R62, R65, R66: the ring commands that set a ring pair's state, on an admin ring, with valid operands: RING_CREATE makes it ACTIVE
with head 0, RING_PAUSE, RING_RESUME and RING_DESTROY move it (a flush that waits on a destroyed ring pair ends), and NOP ends OK without reading its body. -/
def Obligations.RingStateCommands : Prop :=
  ∀ (e : Entry) (ring : Nat) (s : State), e.ring = 0 → 0 < ring → ring < 1024 →
    let f := e.fn.idx
    let st := (s.ring f ring).state
    (∀ sqLog cqLog cls sqBase cqBase : Nat, Ready s e len2 false → ring < s.qRings f → 6 ≤ sqLog → sqLog ≤ 16 → 6 ≤ cqLog → cqLog ≤ 16 →
      cls ≤ 5 → sqBase % 4096 = 0 → cqBase % 4096 = 0 → st = .free →
      exec (.ringCreate e ring sqLog cqLog cls sqBase cqBase) s = .next
        (((s.begun e 0x003 (.ringCreate e ring sqLog cqLog cls sqBase cqBase)).modFn f fun x =>
          { x with rings := aset x.rings ring (newRing sqLog cqLog cls sqBase cqBase ((agetD (s.fn f).rawmap (ring / 64) 0).testBit (ring % 64))) }).endOp
          f (s.opId e) .ok 0 0)) ∧
    (Ready s e len1 false → st = .active ∨ st = .paused →
      exec (.ringPause e ring) s = .next
        (((s.begun e 0x005 (.ringPause e ring)).modRing f ring fun r => { r with state := .paused, scan := false }).endOp f (s.opId e) .ok 0
          (s.ring f ring).head)) ∧
    (Ready s e len1 false → st = .active ∨ st = .paused ∨ st = .error →
      exec (.ringResume e ring) s = .next
        (((s.begun e 0x006 (.ringResume e ring)).modRing f ring fun r =>
          { r with state := .active, scan := r.scan || decide (r.state ≠ .active), cache := if r.state = .error then [] else r.cache,
                   sqPark := if r.state = .error then none else r.sqPark, cqBad := false }).endOp f (s.opId e) .ok 0 0)) ∧
    (Ready s e len1 false → st = .active ∨ st = .paused ∨ st = .error →
      exec (.ringDestroy e ring) s = .next
        (((s.begun e 0x004 (.ringDestroy e ring)).flushEnd f ring).modRing f ring fun r =>
          { r with state := .draining, cache := [], scan := false, sqPark := none, destroy := some (s.opId e) }))

/-- R59, R62, R65, R66, R72, R76: NOP, FENCE, RING_INVAL, RING_FLUSH, DBG_CFG and CQ_MODERATE with valid operands. A NOP ends OK; a
FENCE holds its ring with the operations it covers; RING_INVAL drops cached slots and nothing else, of its own ring only those that lie
ahead; RING_FLUSH flushes a PAUSED ring pair, or waits behind a flush in progress there (the model's choice, log 139); DBG_CFG and
CQ_MODERATE set a group's vector and a ring pair's thresholds, which may be met already. -/
def Obligations.RingQueueCommands : Prop :=
  ∀ (e : Entry) (ring : Nat) (raw : Bool) (s : State),
    let f := e.fn.idx
    let id := s.opId e
    (Ready s e (fun n => 1 ≤ n ∧ n ≤ 16) raw → exec (.nop e) s = .next ((s.begun e 0x000 (.nop e)).endOp f id .ok 0 0)) ∧
    (∀ hv rv inst : Bool, Ready s e len1 raw →
      let t := s.begun e 0x001 (.fence e hv rv inst)
      exec (.fence e hv rv inst) s = .next
        ((t.modOp f id fun o => { o with covered := covers (t.fn f) e.ring inst id, bad := if inst then (t.fn f).rings.foldl (fun n r => n + r.2.badEnds) 0 else (t.ring f e.ring).badEnds }).modRing
          f e.ring fun r => { r with fence := some id })) ∧
    (∀ first count : Nat, Ready s e len1 raw → ring = e.ring ∨ (s.ring f ring).state = .paused → first < (s.ring f ring).sqSize →
      0 < count → count ≤ (s.ring f ring).sqSize →
      exec (.ringInval e ring first count) s = .next
        (((s.begun e 0x002 (.ringInval e ring first count)).modRing f ring fun r =>
          { r with cache := r.cache.filter fun c => ¬ (inRun r.sqSize first count c.1 ∧ (ring ≠ e.ring ∨ ahead r c.1)) }).endOp f id .ok 0 0)) ∧
    (Ready s e len1 false → e.ring = 0 → 0 < ring → ring < 1024 → (s.ring f ring).state = .paused →
      ((s.ring f ring).flushOp = none → exec (.ringFlush e ring) s = .next
        (flushGo ((s.ring f ring).sqSize + 1) ((s.begun e 0x007 (.ringFlush e ring)).modRing f ring fun r =>
          { r with flushOp := some id, flushed := 0 }) f ring)) ∧
      ((s.ring f ring).flushOp.isSome = true → exec (.ringFlush e ring) s = .next
        ((s.begun e 0x007 (.ringFlush e ring)).modRing f ring fun r => { r with flushNext := r.flushNext ++ [id] }))) ∧
    (∀ group vector : Nat, Ready s e len1 false → e.ring = 0 → group < (if isPf f then 2 else 32) → vector < (if isPf f then 256 else 64) →
      exec (.dbgCfg e group vector) s = .next
        (((s.begun e 0x008 (.dbgCfg e group vector)).modFn f fun x =>
          { x with dbgs := amod x.dbgs group {} fun d => { d with vector := vector } }).endOp f id .ok 0 0)) ∧
    (∀ count time : Nat, Ready s e len1 false → e.ring = 0 → 0 < ring → ring < 1024 → (s.ring f ring).state ≠ .free →
      (s.ring f ring).state ≠ .draining →
      let r := s.ring f ring
      let t := (s.begun e 0x009 (.cqModerate e ring count time)).modRing f ring fun r => { r with count := atLeast1 (count % 256), time := time % 1024 }
      exec (.cqModerate e ring count time) s = .next
        ((if r.armed = true ∧ atLeast1 (count % 256) ≤ r.armedN then t.fireEvent f ring else t).endOp f id .ok 0 0))

/-- R62, R64, R72, R75, R76, R364: the events of ring pairs. A fence whose conditions hold ends with the count of failures; the last
entry of a DRAINING ring pair frees it and RING_DESTROY ends; waiting completions are written in order; the event timer fires; a
gathered STATE record commits after 1 ms; a register fence is written and, once met, its token is shown and its vector signalled. -/
def Obligations.RingEvents : Prop :=
  ∀ (fn : Fn) (ring : Nat) (s : State),
    let f := fn.idx
    (∀ (id : Nat) (o : Op) (e : Entry) (hv rv inst : Bool), (s.ring f ring).fence = some id → s.op? f id = some o →
      o.cmd = .fence e hv rv inst → s.fenceMet f o.covered rv (if inst then none else some ring) id = true →
      exec (.fenceRelease fn ring) s = .next ((s.modRing f ring fun r => { r with fence := none }).endOp f id .ok 0 o.bad)) ∧
    (∀ id : Nat, (s.ring f ring).state = .draining → (∀ o ∈ (s.fn f).ops, o.ring ≠ ring) → (s.ring f ring).destroy = some id →
      exec (.ringDrained fn ring) s = .next
        ((s.modFn f fun x => { x with rings := adel x.rings ring, cnt := { x.cnt with complDropped := x.cnt.complDropped + (s.ring f ring).waiting.length } }).endOp
          f id .ok 0 0)) ∧
    (∀ c : Compl, (s.ring f ring).waiting = [c] → s.cqReady f ring c = true → (s.ring f ring).flushOp = none →
      exec (.pendingCompletionWrite fn ring) s = .next
        (((s.modRing f ring fun r => { r with waiting := [], cqPark := none }).putCompl f ring c).flushMore f ring)) ∧
    (∀ now t : Nat, (s.ring f ring).armed = true → (s.ring f ring).armedAt = some t → (s.ring f ring).time ≠ 0 →
      t + 1000 * (s.ring f ring).time ≤ (s.tick now).now →
      exec (.cqEventTimer fn ring now) s = .next ((s.tick now).fireEvent f ring)) ∧
    (∀ (now : Nat) (g : StateRec), s.jrnl.gather = [g] → g.at_ + 1000000 ≤ (s.tick now).now →
      exec (.stateRecordCommit now) s = .next ((s.tick now).gatherCommit g)) ∧
    (∀ (o : Origin) (token : Nat) (hv rv : Bool) (vector : Nat) (irq : Bool), s.answers f = true → s.jrnl.full = false →
      exec (.registerFence fn o token hv rv vector irq) s = .next
        ((s.jCommit o (.setup (admOff f + 0x10) 8 false 0 (token % 2 ^ 32 + 2 ^ 32 * bit hv + 2 ^ 33 * bit rv + vector % 64 * 2 ^ 40 + 2 ^ 47 * bit irq))).modFn
          f fun x => { x with fences := x.fences ++ [⟨token % 2 ^ 32, rv, vector % 64, irq, covers x 0 true x.nextOp⟩] })) ∧
    (∀ (x : RegFence) (l : List RegFence), (s.fn f).fences = x :: l → s.fenceMet f x.covered x.remoteVis none (s.fn f).nextOp = true →
      exec (.registerFenceDone fn) s = .next
        (let t := s.modFn f fun y => { y with fences := l, fenceDone := x.token }
         if x.irq then t.msix f x.vector else t))

/-- R47, R48, R63, R67, R68, R69, R70, R71, R76, R568: doorbells and the admin ring registers of a function that answers accesses, while the journal
has room. A doorbell to a FREE or DRAINING ring pair is dropped and counted; any other wakes the ring pair's domains and scans an
unmasked one; RING_CQDB releases entries and may arm the event; DBG_EVT bits clear by writing 1;
DBG_EMASK is replaced; bits of ring pairs that do not exist are ignored; ADMCFG creates the admin ring or resumes it from ERROR. -/
def Obligations.Doorbells : Prop :=
  ∀ (fn : Fn) (o : Origin) (ring group : Nat) (s : State), s.answers fn.idx = true → s.jrnl.full = false →
    let f := fn.idx
    let r := s.ring f ring
    let d := agetD (s.fn f).dbgs group {}
    (∀ tail : Nat, (r.state = .free ∨ r.state = .draining → exec (.ringSqdb fn ring tail) s = .next
        (s.modFn f fun x => { x with cnt := { x.cnt with bellsDropped := x.cnt.bellsDropped + 1 } })) ∧
      (r.state ≠ .free → r.state ≠ .draining → (isPf f = true ∨ (s.part (partOf f)).state = .active) →
        (agetD (s.fn f).dbgs (ring / 32) {}).mask.testBit (ring % 32) = false →
        exec (.ringSqdb fn ring tail) s = .next ((s.bellWake f).scanRing f ring (tail % 65536)))) ∧
    (∀ head : Nat, r.state = .active → exec (.cqHeadRelease fn ring head) s = .next
      (s.modRing f ring fun r => { r with cqHead := head % 65536 % r.cqSize })) ∧
    (∀ head : Nat, r.state = .active → r.cqTail ≠ head % 65536 % r.cqSize → exec (.cqEventArm fn ring head) s = .next
      (((s.modRing f ring fun r => { r with cqHead := head % 65536 % r.cqSize }).modRing f ring fun r =>
        { r with armed := true, armedN := 0, armedAt := none }).fireEvent f ring)) ∧
    (∀ bits : Nat, exec (.dbgRingSet fn group bits) s = .next
      ((groupRings s f group bits).foldl (fun s k => s.doorbell f k none) s)) ∧
    (∀ bits : Nat, d.pend = 0 → exec (.dbgMaskWrite fn group bits) s = .next
      (s.modFn f fun x => { x with dbgs := aset x.dbgs group { d with mask := groupPut s f group d.mask bits } })) ∧
    (∀ bits : Nat, let d' := { d with evt := d.evt &&& ((bits &&& groupBits s f group) ^^^ 0xFFFFFFFF) }
      d'.signals = 0 → exec (.dbgEvtClear fn group bits) s = .next (s.modFn f fun x => { x with dbgs := aset x.dbgs group d' })) ∧
    (∀ bits : Nat, let d' := { d with emask := groupPut s f group d.emask bits }
      d'.signals ≠ 0 → exec (.dbgEmaskWrite fn group bits) s = .next ((s.modFn f fun x => { x with dbgs := aset x.dbgs group d' }).msix f d.vector)) ∧
    (∀ value : Nat, (s.fn f).admEn = false →
      exec (.adminRingEnable fn o value) s = .next
        (((s.jCommit o (.setup (admOff f) 4 false (s.fn f).admCfg (value ||| 2 ^ 31))).modFn f fun x =>
          { x with sqLog := bitsOf (value ||| 2 ^ 31) 0 5, cqLog := bitsOf (value ||| 2 ^ 31) 8 5 }).admEnable f)) ∧
    ((s.fn f).admEn = true → (s.ring f 0).state = .error → (s.fn f).sqLog < 32 → (s.fn f).cqLog < 32 →
      exec (.adminRingResume fn o) s = .next
        ((s.jCommit o (.setup (admOff f) 4 false (s.fn f).admCfg ((s.fn f).sqLog + (s.fn f).cqLog * 2 ^ 8 + 2 ^ 30))).modRing f 0 fun r =>
          { r with state := .active, cache := [], scan := true, sqPark := none, cqBad := false }))

/-- R54, R58, R68, R75, R170: ENTRY_START starts the entry that its slots hold. Where it is the ring pair's turn among those of its function
(the order of log 159, and `u` is the state with the turn taken), and the slots at its head are at hand and carry the expected phase, the
command is exactly the one that the entry's bytes spell, and it answers a next state; a NOP so posted ends OK. A header without the expected
phase, or the end of a lap, ends the scan. Where the ring pair cannot start an entry, or another ring pair of the function comes first,
nothing changes. -/
def Obligations.EntryStarts : Prop :=
  ∀ (fn : Fn) (ring : Nat) (s : State),
    let f := fn.idx
    (∀ (c : Nat) (d : AMap Nat), s.ringTurn f = some (ring, c, d) →
      let u := s.ringTook f ring c d
      let r := u.ring f ring
      let h := leNat (u.slotBytes f ring r.head 8)
      let n := if hdrOpcode h = 0 then 1 else r.taken (hdrSlots h)
      (r.lap ≠ some 0 → u.slotMiss f ring (r.uncached 1) = none → u.slotPoison f ring (r.uncached 1) = false →
        (∀ i : Instr, hdrPhase h = r.phase → u.slotMiss f ring (r.uncached n) = none → u.slotPoison f ring (r.uncached n) = false →
          decodeEntry fn ring (leNat (u.entryBytes f ring n)) = some i →
          exec (.entryStart fn ring) s = exec i u ∧ (∃ t, exec (.entryStart fn ring) s = .next t) ∧
          (∀ (e : Entry) (raw : Bool), i = .nop e → Ready u e (fun n => 1 ≤ n ∧ n ≤ 16) raw →
            exec (.entryStart fn ring) s = .next ((u.begun e 0x000 (.nop e)).endOp f (u.opId e) .ok 0 0))) ∧
        (hdrPhase h ≠ r.phase → exec (.entryStart fn ring) s = .next (u.modRing f ring fun r => { r with scan := false, lap := none }))) ∧
      (r.lap = some 0 → exec (.entryStart fn ring) s = .next (u.modRing f ring fun r => { r with scan := false, lap := none }))) ∧
    ((∀ (c : Nat) (d : AMap Nat), s.ringTurn f ≠ some (ring, c, d)) → exec (.entryStart fn ring) s = .next s)

/-! ### Remote operations (R79-R126) -/

/-- R80, R84, R90, R92, R111: the one-sided operations. A WRITE, READ, WRITE_NOTIFY, atomic or TSEND whose checks pass takes the next
message number of its connection, and its message is queued there; the operation waits for its end. A WRITE and a WRITE_NOTIFY carry
their bytes, a READ and an atomic carry none, a TSEND above 8,192 bytes sends only its request. A host LADDR is translated first (log 146);
where its page is missing the operation parks at it and asks for it, and sends nothing yet. -/
def Obligations.OneSidedCommands : Prop :=
  ∀ (e : Entry) (b : OneSided) (s : State), Ready s e len1 false →
    let f := e.fn.idx
    let id := s.opId e
    let sent := fun (t : State) (ext : Ext) (len : Nat) (src : Src) =>
      ((t.modOp f id fun o => { o with conn := some b.conn, msn := some (t.nextMsn f b.conn), ltally := ltOf b.ltEn b.ltally, need := b.len }).queueMsg
        f b.conn ext len src (.op id))
    let go := fun (t : State) (wr : Bool) (u : State) =>
      match (locGranules b wr).findSome? (fun g => (t.missing f g.1 g.2.1 g.2.2).map fun p => (p, g.2.2)) with
      | some p => t.parkOp f id p.1 p.2
      | none => u
    let atomic := fun (c : Instr) (op : Nat) =>
      let t := s.begun e op c
      let ext := Ext.atomicReq b.wref b.roff op b.opnd1 b.opnd2
      t.opChecks f b true ext 0 = [] → exec c s = .next (go t true (sent t ext 0 .none))
    (let t := s.begun e 0x040 (.write e b)
     let ext := Ext.data b.wref b.roff b.len 0 false
     t.opChecks f b false ext (t.firstPlen f b.conn b.len) = [] → exec (.write e b) s = .next (go t false (sent t ext b.len (.mem b.lspace b.laddr)))) ∧
    (∀ imm : BitVec 32,
     let t := s.begun e 0x042 (.writeNotify e b imm)
     let ext := Ext.data b.wref b.roff b.len imm true
     t.opChecks f b false ext (t.firstPlen f b.conn b.len) = [] → exec (.writeNotify e b imm) s = .next (go t false (sent t ext b.len (.mem b.lspace b.laddr)))) ∧
    (let t := s.begun e 0x041 (.read e b)
     let ext := Ext.readReq b.wref b.roff b.len
     t.opChecks f b false ext 0 = [] → exec (.read e b) s = .next (go t true (sent t ext 0 .none))) ∧
    atomic (.atFadd e b) 0x48 ∧ atomic (.atFand e b) 0x49 ∧ atomic (.atFor e b) 0x4A ∧ atomic (.atFxor e b) 0x4B ∧
    atomic (.atSwap e b) 0x4C ∧ atomic (.atCas e b) 0x4D ∧
    (let t := s.begun e 0x050 (.tsend e b)
     let rdv := decide (8192 < b.len)
     let ext := Ext.tsend (b.wref % 4096) rdv (BitVec.ofNat 64 b.roff) b.len 0
     b.wref < 4096 → t.opChecks f b false ext (if rdv then 0 else t.firstPlen f b.conn b.len) = [] →
     (rdv = true → t.gateChecks f b.conn (.rdvResp 0 0) (t.firstPlen f b.conn b.len) = []) →
     exec (.tsend e b) s = .next (go t false (sent t ext (if rdv then 0 else b.len) (if rdv then .none else .mem b.lspace b.laddr))))

/-- R95, R96, R98, R102, R104, R112, R113: windows and matching lists. WIN_OPEN opens the index it picks with the next INCARN and answers
its WREF; WIN_REVOKE closes a window with no placement, and otherwise makes it CLOSING; MLIST_CREATE, MLIST_DESTROY, TRECV and
TRECV_CANCEL make a list, end it, post a receive on it and end the receives of a caller tag. -/
def Obligations.WindowAndListCommands : Prop :=
  ∀ (e : Entry) (s : State), Ready s e len1 false →
    let f := e.fn.idx
    let id := s.opId e
    (∀ (b : WinOpenBody) (i : Nat), let t := s.begun e 0x060 (.winOpen e b)
      t.winChecks f b = [] → t.pickWindow f = some i →
      let inc := ((t.win f i).incarn + 1) % 2 ^ 14
      exec (.winOpen e b) s = .next ((t.modWin f i fun _ =>
        { state := .open_, incarn := inc, base := b.base, length := b.length, rd := b.rd, wr := b.wr, atom := b.atom, notify := b.notify, slice := b.space, nring := b.nring, scope := if b.oneConn then some b.scope else none, btally := if b.btEn then some b.btally else none }).endOp
        f id .ok 0 (winRef i inc))) ∧
    (∀ wref : Nat, let t := s.begun e 0x061 (.winRevoke e wref)
      let i := wref % 2 ^ 18
      (s.win f i).state = .open_ → (s.win f i).incarn = wref / 2 ^ 18 →
      exec (.winRevoke e wref) s = .next (if (s.win f i).places = 0 then (t.winClose f i).endOp f id .ok 0 0
        else t.modWin f i fun w => { w with state := .closing, refused := 0, revoke := some id })) ∧
    (∀ list uq : Nat, list < 4096 → 0 < uq → uq ≤ 16384 → s.precvUsed f + uq ≤ s.qPrecv f → s.sliceTaken f + 8192 * uq ≤ s.sliceLen f →
      s.mlist? f list = none →
      exec (.mlistCreate e list uq) s = .next
        (((s.begun e 0x053 (.mlistCreate e list uq)).modFn f fun x => { x with mlists := aset x.mlists list { uq := uq } }).endOp f id .ok 0 0)) ∧
    (∀ list : Nat, list < 4096 → (s.mlist? f list).isSome →
      exec (.mlistDestroy e list) s = .next (((s.begun e 0x054 (.mlistDestroy e list)).mlistEnd f list .flushed).endOp f id .ok 0 0)) ∧
    (∀ (b : TrecvBody) (m : MList), let t := s.begun e 0x051 (.trecv e b)
      t.recvChecks f b = [] → t.mlist? f b.list = some m → t.boundAt f b.list id = none → s.precvUsed f < s.qPrecv f →
      (∀ u ∈ m.unexp, (recvPosted b (.op id b.info false) e.tag).matches u.conn u.tag = false) →
      exec (.trecv e b) s = .next
        (t.modMlist f b.list fun m => { m with posted := m.posted ++ [recvPosted b (.op id b.info false) e.tag] })) ∧
    (∀ (list : Nat) (tag : BitVec 32) (m : MList), s.mlist? f list = some m →
      let hit := m.posted.filterMap fun p => match p.to_ with
        | .op i _ false => if p.ctag = tag then some i else none
        | _ => none
      let t := (s.begun e 0x052 (.trecvCancel e list tag)).modMlist f list fun m => { m with posted := m.posted.filter fun p => match p.to_ with
        | .op i _ false => ¬ hit.contains i
        | _ => true }
      exec (.trecvCancel e list tag) s = .next ((hit.foldl (fun s i => s.endOp f i .flushed 0 0) t).endOp f id .ok 0 hit.length))

/-- R115, R116, R117: tallies. TALLY_ALLOC gives the lowest free index its value; TALLY_SET and TALLY_ADD give an allocated, sound
tally its new count, adding with saturation at 2^64 − 1, and end OK with the low half of the count as DETAIL; TALLY_READ writes the
count; TALLY_FREE frees the index, but ends STATE and frees nothing while any armed request waits on the tally or any window binds it. What
the new count fires follows at once. -/
def Obligations.TallyCommands : Prop :=
  ∀ (e : Entry) (i : Nat) (x : Tally) (v : Word) (s : State), Ready s e len1 false →
    let f := e.fn.idx
    let id := s.opId e
    (let j := firstGap ((s.fn f).tallies.map (·.1)) 0
     j < s.qTallies f → exec (.tallyAlloc e v) s = .next
       (((s.begun e 0x070 (.tallyAlloc e v)).modFn f fun y => { y with tallies := aset y.tallies j { count := v.toNat } }).endOp f id .ok 0 j)) ∧
    (aget (s.fn f).tallies i = some x → s.tallyBusy f i = false → exec (.tallyFree e i) s = .next
      (((s.begun e 0x071 (.tallyFree e i)).modFn f fun y => { y with tallies := adel y.tallies i }).endOp f id .ok 0 0)) ∧
    (aget (s.fn f).tallies i = some x →
      ((∃ a ∈ (s.fn f).armed, ∃ n : Nat, a.trig = .tally i n) ∨ (∃ w ∈ (s.fn f).wins, w.2.state ≠ .closed ∧ w.2.btally = some i)) →
      let t := (s.begun e 0x071 (.tallyFree e i)).endOp f id .state 0 0
      exec (.tallyFree e i) s = .next t ∧ (t.fn f).tallies = (s.fn f).tallies) ∧
    (aget (s.fn f).tallies i = some x → x.bad = false →
      (∃ t, t = (s.begun e 0x073 (.tallySet e i v)).tallyPut f i v.toNat ∧ t.tallyCount f i = v.toNat ∧
        exec (.tallySet e i v) s = .next (t.endOp f id .ok 0 (v.toNat % 2 ^ 32)).settle) ∧
      (let c := min (2 ^ 64 - 1) (x.count + v.toNat)
       ∃ t, t = (s.begun e 0x072 (.tallyAdd e i v)).tallyPut f i c ∧ t.tallyCount f i = c ∧
        exec (.tallyAdd e i v) s = .next (t.endOp f id .ok 0 (c % 2 ^ 32)).settle) ∧
      (∀ addr : Nat, Usable s f [(addr, 8, true)] → exec (.tallyRead e i addr) s = .next
        (((s.begun e 0x074 (.tallyRead e i addr)).hostWrite f addr (leBytes 8 x.count)).endOp f id .ok 8 (x.count % 2 ^ 32))))

/-- R119, R121, R122, R126: armed requests. ARM puts the embedded request in the armed list, WAITING, with the function's next arming
number; a tally trigger whose count has reached its threshold, or a time that has come, fires it at once; a message trigger posts its
receive; where the page of the embedded LADDR is missing, ARM parks at it first (log 146). ARM_CANCEL fires the requests whose time has
come (log 131), then ends every armed request of the function with the tag FLUSHED, its receive and the message matched to it with it, its DETAIL their number. Device time reaching the
TIME of a request fires it. -/
def Obligations.ArmedRequests : Prop :=
  (∀ (e : Entry) (trig : Trigger) (emb : Embed) (i : Instr) (s : State), Ready s e (fun n => 2 ≤ n ∧ n ≤ 16) false →
    embInstr emb e = some i →
    let f := e.fn.idx
    let id := s.opId e
    let t := s.begun e 0x080 (.arm e trig emb)
    let a : Armed := { op := id, trig := trig, emb := i, opcode := emb.opcode, seq := (s.fn f).armSeq }
    let u := (t.modFn f fun x => { x with armed := x.armed ++ [a], armSeq := x.armSeq + 1 }).modOp f id fun o => { o with cmd := i, waiting := true }
    let miss := (embGranules i).findSome? fun g => (t.missing f g.1 g.2.1 g.2.2).map fun p => (p, g.2.2)
    embHeader e emb ++ t.embChecks f i ++ t.trigChecks f trig = [] →
    (∀ p : Nat × Bool, miss = some p → exec (.arm e trig emb) s = .next (t.parkOp f id p.1 p.2).settle) ∧
    (miss = none →
    (∀ j th : Nat, trig = .tally j th → u.tallyCount f j < th → exec (.arm e trig emb) s = .next u.settle) ∧
    (∀ j th : Nat, trig = .tally j th → th ≤ u.tallyCount f j → exec (.arm e trig emb) s = .next (u.fire f [a]).settle) ∧
    (∀ r : TrecvBody, trig = .msg r → exec (.arm e trig emb) s = .next (u.postRecv f r.list id (recvPosted r (.op id 0 true) e.tag)).settle) ∧
    (∀ w : Nat, trig = .time w → s.clk.time < w → exec (.arm e trig emb) s = .next u.settle) ∧
    (∀ w : Nat, trig = .time w → w ≤ s.clk.time →
      exec (.arm e trig emb) s = .next ((u.modOp f id fun o => { o with late := true }).fire f [a]).settle))) ∧
  (∀ (e : Entry) (tag : BitVec 32) (s : State), Ready s e len1 false →
    let f := e.fn.idx
    let t := (s.begun e 0x081 (.armCancel e tag)).fire f (dueArmed ((s.begun e 0x081 (.armCancel e tag)).fn f) s.clk.time)
    let hit := ((t.fn f).armed.map (·.op)).filter fun i => match t.op? f i with | some o => o.tag = tag | none => false
    let u := t.modFn f fun x =>
      { x with armed := x.armed.filter (fun a => ¬ hit.contains a.op),
               mlists := x.mlists.map fun m => (m.1, { m.2 with bound := m.2.bound.filter (fun b => ! hit.contains b.1), posted := m.2.posted.filter fun p => match p.to_ with
                 | .op i _ true => ¬ hit.contains i
                 | _ => true }) }
    exec (.armCancel e tag) s = .next ((hit.foldl (fun s i => s.endOp f i .flushed 0 0) u).endOp f (s.opId e) .ok 0 hit.length).settle) ∧
  (∀ (fn : Fn) (ring now : Nat) (tag : BitVec 32) (s : State) (a : Armed) (o : Op) (w : Nat),
    let f := fn.idx
    let t := s.tick now
    (s.fn f).armed = [a] → a.trig = .time w → w ≤ t.clk.time → s.op? f a.op = some o → o.ring = ring → o.tag = tag →
    exec (.armedTimeFire fn ring tag now) s = .next (t.fire f [a]).settle)

/-- R128, R145, R179: the receive window. For an arriving sequenced packet whose payload is as long as PLEN tells and that the header checks
let through, with d = (p − RCV_BASE) mod 2^32 and u = (RCV_BASE − p) mod 2^32: one already marked received inside the window, or with
1 ≤ u ≤ 2^20 outside it, is discarded and acknowledged; any other one outside the window is discarded and counted in the context, with no
acknowledgement. One whose payload has another length is discarded and counted at its breakout port; one that finds no room in the port's
ingress buffer is discarded and counted there. -/
def Obligations.ReceiveWindow : Prop :=
  ∀ (c : Instr) (rx : Rx) (n : Nat) (s : State), sequenced c = some (rx, n) →
    (rx.plen ≠ n → exec c s = .next (s.modBp rx.port.val rx.bp fun b => { b with dropped := b.dropped + 1 })) ∧
    (rx.plen = n → s.ingressRoom rx.port.val rx.cls = false →
      exec c s = .next (s.modPort rx.port.val fun x => { x with ingDrop := x.ingDrop + 1 })) ∧
    (∀ v : State, rx.plen = n → s.hear rx true = (true, v) →
      let f := 4 + rx.part.val
      let h := rx.dconn
      let t := v.modConn f h fun c => { c with rx := { c.rx with activeAt := some v.now } }
      let r := (t.conn f h).rx
      let d := modSub (2 ^ 32) rx.psn r.base
      let u := modSub (2 ^ 32) r.base rx.psn
      (d < 2 ^ 20 → r.base + d ∈ r.got → exec c s = .next (t.sendAck f h rx.path rx.tstamp)) ∧
      (2 ^ 20 ≤ d → 1 ≤ u → u ≤ 2 ^ 20 → exec c s = .next (t.sendAck f h rx.path rx.tstamp)) ∧
      (2 ^ 20 ≤ d → u = 0 ∨ 2 ^ 20 < u →
        exec c s = .next (t.modConn f h fun c => { c with rx := { c.rx with outside := satAdd 0xFFFFFFFF c.rx.outside 1 } })))

/-- R163: a sequenced packet for a FREE context is discarded and answered with ABORT of cause 2, or 4 where DGEN is stale, at most once
per 100 µs for each DCONN, to the sender and on the path by which it came. (`t` is the state with the frame in the port's ingress buffer; the
chip is powered and has no fatal error; the partition is neither frozen nor being restored. The fields of the answer that no rule gives, its
port and the sender's context, are the model's: log 143.) -/
def Obligations.PacketForFreeContext : Prop :=
  ∀ (c : Instr) (rx : Rx) (n : Nat) (s t : State), sequenced c = some (rx, n) → rx.plen = n → rx.cls < 7 →
    s.ingressTake rx.port.val rx.cls (rx.plen + 118) = (true, t) → s.err.fatal = false → s.powered = true →
    (s.part rx.part.val).state ≠ .frozen → (s.part rx.part.val).state ≠ .restoring →
    (s.conn (4 + rx.part.val) rx.dconn).state = .free →
    let f := 4 + rx.part.val
    let q := rx.port.val
    let cause := if (s.fn f).gen = rx.dgen then 2 else 4
    let quiet := ! isPf f && decide (s.now < (s.part (partOf f)).quietTil)
    (quiet = false → (aget (s.fn f).abortAt rx.dconn = none ∨ ∃ w, aget (s.fn f).abortAt rx.dconn = some w ∧ w + 100000 ≤ s.now) →
      exec c s = .next (((t.modFn f fun x => { x with abortAt := aset x.abortAt rx.dconn s.now }).replyCtl f q
        (t.nameless (t.replyPkt f (t.entryAt rx.part.val q) rx.path rx.src 0 0 0 0 (.abort cause rx.dconn rx.dinc)))).bump)) ∧
    (∀ w : Nat, aget (s.fn f).abortAt rx.dconn = some w → s.now < w + 100000 → exec c s = .next t)

/-- R87, R145, R146, R149, R151, R155: a sequenced packet whose PSN is new and inside the receive window, and that the
header checks let through, is processed and marked received. Requests are admitted under the status their window gives; DATA is placed
at its window's base and offset, and the placement ends with the message's last packet; a response is placed at its operation's buffer;
a NAK fails its message, and an abandon notice abandons its own. One whose page is missing is not marked received (R343, R345). Each comes
with as many bytes as its PLEN tells (R128). -/
def Obligations.SequencedPackets : Prop :=
  ∀ (rx : Rx) (fn : Fn) (s v : State), s.hear rx true = (true, v) →
    let f := 4 + rx.part.val
    let h := rx.dconn
    let m := rx.msn
    let t := v.modConn f h fun c => { c with rx := { c.rx with activeAt := some v.now } }
    let r := (t.conn f h).rx
    let x := r.base + modSub (2 ^ 32) rx.psn r.base
    let gap := decide (max r.top r.base < x)
    modSub (2 ^ 32) rx.psn r.base < 2 ^ 20 → x ∉ r.got →
    -- requests
    (∀ wref roff len req : Nat, rx.plen = 0 → exec (.readReqReceive rx fn wref roff len req) s = .next
      ((t.admitMsg f h x 0 1 m (.readReq wref roff len) (t.winStatus f h wref roff len true false false false) (some (wref % 2 ^ 18))).rxAccept f rx x gap)) ∧
    (∀ (op wref roff : Nat) (o1 o2 : Word),
      let a := t.admitMsg f h x 0 1 m (.atomicReq wref roff op o1 o2) (t.winStatus f h wref roff 8 false false true false) (some (wref % 2 ^ 18))
      let w := a.win f (wref % 2 ^ 18)
      rx.plen = 0 → a.locMiss f w.slice (w.base + roff) 8 true = none → (a.inMsg f h m).isSome →
      exec (.atomicReqReceive rx fn op wref roff o1 o2) s = .next ((a.modIn f h m fun y => { y with park := none }).rxAccept f rx x gap)) ∧
    (∀ req moff len : Nat, rx.plen = 0 → exec (.rdvReqReceive rx fn req moff len) s = .next
      ((t.admitMsg f h x 0 1 m (.rdvReq req moff len) .ok none).rxAccept f rx x gap)) ∧
    -- data
    (∀ (wref roff moff mlen : Nat) (notify : Bool) (imm : BitVec 32) (bs : List Byte) (y z : InMsg),
      let i := wref % 2 ^ 18
      let a := t.admitMsg f h x (t.pktIdx f h moff) (t.npk f h mlen) m (.data wref (roff - moff) mlen imm notify)
        (t.winStatus f h wref (roff - moff) mlen false true false notify) (some i)
      let w := a.win f i
      let b := (a.locWrite f w.slice (w.base + roff) bs).modIn f h m fun y => { y with park := none, placed := y.placed + bs.length, got := y.got + 1 }
      rx.plen = bs.length → bs ≠ [] → a.inMsg f h m = some y → y.dead = false → a.locMiss f w.slice (w.base + roff) bs.length true = none → b.inMsg f h m = some z →
      (z.held = true ∧ z.npk ≤ z.got →
        exec (.dataReceive rx fn wref roff moff mlen notify imm bs) s = .next (((b.modIn f h m fun y => { y with held := false }).placeDone f i).rxAccept f rx x gap)) ∧
      (¬ (z.held = true ∧ z.npk ≤ z.got) →
        exec (.dataReceive rx fn wref roff moff mlen notify imm bs) s = .next (b.rxAccept f rx x gap))) ∧
    (∀ (wref roff moff mlen : Nat) (notify : Bool) (imm : BitVec 32) (bs : List Byte) (w : State), rx.plen = bs.length →
      t.dataBody f h x m wref roff moff mlen notify imm bs = (false, w) → exec (.dataReceive rx fn wref roff moff mlen notify imm bs) s = .next w) ∧
    (∀ (list : Nat) (tag : Word) (mlen moff : Nat) (rdv : Bool) (bs : List Byte), rx.plen = bs.length →
      exec (.tsendReceive rx fn list tag mlen moff rdv bs) s = .next
        ((t.tsendBody f h x m list tag mlen moff rdv bs).2.rxAccept f rx x gap)) ∧
    -- responses
    (∀ (req moff : Nat) (bs : List Byte), rx.plen = bs.length →
      let y := t.respBody rx f h x m req moff bs 0
      exec (.readRespReceive rx fn req moff bs) s = .next (if y.1 then y.2.rxAccept f rx x gap else y.2)) ∧
    (∀ (req : Nat) (old : Word), rx.plen = 8 →
      let y := t.respBody rx f h x m req 0 (leBytes 8 old.toNat) (old.toNat % 2 ^ 32)
      exec (.atomicRespReceive rx fn req old) s = .next (if y.1 then y.2.rxAccept f rx x gap else y.2)) ∧
    (∀ (req moff : Nat) (bs : List Byte), rx.plen = bs.length →
      let y := t.rdvBody rx f h x m req moff bs
      exec (.rdvRespReceive rx fn req moff bs) s = .next (if y.1 then y.2.rxAccept f rx x gap else y.2)) ∧
    -- refusals and notices
    (∀ (msn : Nat) (st : Status) (d : Nat), rx.plen = 0 → exec (.nakReceive rx fn msn st d) s = .next ((t.msgFails f h msn st d).rxAccept f rx x gap)) ∧
    (∀ (msn : Nat) (st : Status), rx.plen = 0 → exec (.abandonNoticeReceive rx fn msn st) s = .next ((t.noticeBody f h m msn st).rxAccept f rx x gap))

/-- R145, R146, R243, R250, R271: the packets of a herd and of key-value blocks. One whose PSN is new and inside the receive window, and
that the header checks let through, is admitted for its herd where the herd has a place for it, or for its session when the block is
admitted, and is marked received. A packet of a reserved KIND, or with a reserved field of a block set, is discarded and counted (R250, R269). -/
def Obligations.HerdAndKvPackets : Prop :=
  ∀ (rx : Rx) (fn : Fn) (s v : State), s.hear rx true = (true, v) →
    let f := 4 + rx.part.val
    let h := rx.dconn
    let m := rx.msn
    let t := v.modConn f h fun c => { c with rx := { c.rx with activeAt := some v.now } }
    let r := (t.conn f h).rx
    let x := r.base + modSub (2 ^ 32) rx.psn r.base
    let gap := decide (max r.top r.base < x)
    modSub (2 ^ 32) rx.psn r.base < 2 ^ 20 → x ∉ r.got →
    (∀ i o : Nat, t.herdOf f h = some (i, o) →
      (∀ (b : BulkExt) (npk pidx : Nat) (bs : List Byte) (w : State), rx.plen = bs.length → b.kind < 4 → t.collData f i h b bs = (true, w) →
        exec (.bulkCollReceive rx fn b npk pidx bs) s = .next ((w.admitMsg f h x pidx npk m (.coll b) .ok none).rxAccept f rx x gap)) ∧
      (∀ e q o c : Nat, rx.plen = 0 → t.holdRoom f i e q = true →
        exec (.haltReceive rx fn e q o c) s = .next ((t.admitMsg f h x 0 1 m (.halt e q o c) .ok none).rxAccept f rx x gap)) ∧
      (∀ e q g o k : Nat, rx.plen = 0 → t.holdRoom f i e q = true →
        exec (.barrierTokenReceive rx fn e q g o k) s = .next ((t.admitMsg f h x 0 1 m (.barrier e q g o k) .ok none).rxAccept f rx x gap)) ∧
      (∀ k : Token, t.tokenRoom f i k = true → exec (.tokenProposeReceive rx fn k) s = .next ((t.admitMsg f h x 0 1 m (.token false k) .ok none).rxAccept f rx x gap)) ∧
      (∀ k : Token, t.tokenRoom f i k = true → exec (.tokenCommitReceive rx fn k) s = .next ((t.admitMsg f h x 0 1 m (.token true k) .ok none).rxAccept f rx x gap))) ∧
    (∀ (k : KvExt) (npk pidx : Nat) (bs : List Byte) (w : State), rx.plen = bs.length → k.rsv = false → t.inMsg f h m = none →
      t.kvAdmit f (some h) m k = (.admitted, w) →
      exec (.bulkKvReceive rx fn k npk pidx bs) s = .next
        (((w.admitMsg f h x pidx npk m (.kv k) .ok none).kvPlace f (some h) m k bs).rxAccept f rx x gap)) ∧
    (∀ (b : BulkExt) (npk pidx : Nat) (bs : List Byte), rx.plen = bs.length → 6 ≤ b.kind →
      exec (.bulkCollReceive rx fn b npk pidx bs) s = .next (t.modBp rx.port.val rx.bp fun b => { b with dropped := b.dropped + 1 })) ∧
    (∀ (k : KvExt) (npk pidx : Nat) (bs : List Byte), rx.plen = bs.length → k.rsv = true →
      exec (.bulkKvReceive rx fn k npk pidx bs) s = .next (t.modBp rx.port.val rx.bp fun b => { b with dropped := b.dropped + 1 }))

/-- R152, R154, R160, R161, R166, R174, R175, R176: the packets outside the sequence and the timers of a connection. -/
def Obligations.AcknowledgementAndTimers : Prop :=
  (∀ (rx : Rx) (fn : Fn) (s t : State), rx.plen = 0 → s.hear rx false = (true, t) →
    let f := 4 + rx.part.val
    (∀ (x : AckExt) (refused : List Nat), exec (.ackReceive rx fn ⟨x, refused⟩) s = .next (t.ackIn f rx.dconn x refused).settle) ∧
    (∀ g : Grant, exec (.creditGrantReceive rx fn g) s = .next ((t.applyGrant f rx.dconn g).stopClock f rx.dconn)) ∧
    exec (.creditReqReceive rx fn) s = .next
      ((t.modConn f rx.dconn fun c => { c with rx := { c.rx with activeAt := some t.now } }).sendCredit f rx.dconn)) ∧
  (∀ (rx : Rx) (fn : Fn) (s t : State), rx.plen = 0 → s.hear rx false true = (true, t) →
    exec (.probeReceive rx fn) s = .next (if rx.ackreq then t.sendAck (4 + rx.part.val) rx.dconn rx.path rx.tstamp else t)) ∧
  (∀ (fn : Fn) (h now : Nat) (s : State),
    let f := fn.idx
    let t := s.tick now
    let c := s.conn f h
    (∀ a : Nat, c.rx.firstAt = some a → a + t.ackDelay ≤ t.now → c.state.live = true ∨ c.state = .exhausted →
      exec (.ackDelayTimer fn h now) s = .next (t.sendAck f h c.rx.lastPath c.rx.lastTs)) ∧
    (∀ (psn : Nat) (x : Sent), c.tx.sent = [x] → x.xpsn % 2 ^ 32 = psn % 2 ^ 32 → x.out = true → x.acked = false → x.lost = false →
      x.at_ + x.rto ≤ t.now →
      exec (.retxTimerExpiry fn h psn now) s = .next ((t.modConn f h fun c =>
        { c with tx := { c.tx with sent := c.tx.sent.map fun y => if y.xpsn = x.xpsn then { y with lost := true, out := false, rto := min 10000000 (2 * y.rto) } else y,
                                   paths := amod c.tx.paths x.path {} fun p => { p with lost := p.lost + 1 } } }).stopClock f h)) ∧
    (∀ p : Path, c.tx.paths = [(0, p)] → p.incl = true → c.tx.intervalAt + c.tx.srtt ≤ t.now → c.state.live = true →
      ∃ u : State, exec (.pathStrikeEval fn h now) s = .next u ∧ (u.conn f h).tx.intervalAt = t.now ∧
        (u.conn f h).tx.paths = [(0, { p with strikes := if p.struck then p.strikes + 1 else 0, carried := 0, lost := 0, acked := 0, acks := 0, ces := 0 })]) ∧
    (∀ i : Nat, (c.path i).incl = false → i < c.cid.paths → c.state.live = true → (c.path i).probeAt + min 100000 (16 * c.tx.srtt) ≤ t.now →
      exec (.pathProbeTimer fn h i now) s = .next ((t.modConn f h fun c => { c with tx := { c.tx with paths := amod c.tx.paths i {} fun p =>
        { p with probeAt := t.now, probeTs := none, good := if p.probeTs.isSome then 0 else p.good } } }).sendCtl f h i .probe true)) ∧
    (c.state.live = true → c.inboundOpen = true → c.tm.receipt + 1000000 ≤ t.now → c.tm.probeAt + 1000000 ≤ t.now →
      exec (.silenceProbeTimer fn h now) s = .next
        ((t.modConn f h fun c => { c with tm := { c.tm with probeAt := t.now } }).sendCtl f h c.turnPath .probe true)))

/-- R136, R137, R140, R142, R162: the connection commands, where their checks pass. CONN_CONNECT starts a handshake on the picked handle;
CONN_LISTEN and CONN_UNLISTEN add and take away a listener; CONN_CLOSE frees a LOST connection and begins to close an ESTABLISHED one;
CONN_ABORT ends the connection at once; CONN_QUERY writes the 64-byte record; CONN_MODIFY sets ports and paths. -/
def Obligations.ConnectionCommands : Prop :=
  (∀ (e : Entry) (b : ConnectBody) (h : Nat) (s : State), Ready s e len2 false →
    let f := e.fn.idx
    let t := s.begun e 0x100 (.connConnect e b)
    t.connectChecks f b = [] → t.pickHandle f = some h →
    let a := t.addrEnt (partOf f) b.laddrIdx
    exec (.connConnect e b) s = .next (t.startHandshake f h
      { op := some (s.opId e), peerIp := b.peerIp, peerPort := if b.peerPort = 0 then s.udpPort else b.peerPort, service := b.service,
        pmtu := b.pmtu, cls := b.cls, ports := if b.ports = 0 then a.ports else b.ports, paths := b.paths, vid := b.vid, pcp := b.pcp,
        ven := b.ven, laddrIdx := b.laddrIdx, tsel := b.tsel, tc := (t.contribution (partOf f) b.tsel).getD none })) ∧
  (∀ (e : Entry) (service la k mc : Nat) (s : State), Ready s e len1 false →
    let f := e.fn.idx
    k < s.qRings f → (s.ring f k).state ≠ .free → (s.ring f k).state ≠ .draining → isPf f = false → la < 16 →
    (s.addrEnt (partOf f) la).valid = true → s.listener? f service la = none →
    exec (.connListen e service la k mc) s = .next
      (((s.begun e 0x101 (.connListen e service la k mc)).modFn f fun x => { x with listeners := x.listeners ++ [⟨service, la, k, mc⟩] }).endOp
        f (s.opId e) .ok 0 0)) ∧
  (∀ (e : Entry) (service la : Nat) (l : Listener) (s : State), Ready s e len1 false →
    let f := e.fn.idx
    s.listener? f service la = some l →
    exec (.connUnlisten e service la) s = .next
      (((s.begun e 0x102 (.connUnlisten e service la)).modFn f fun x =>
        { x with listeners := x.listeners.filter fun l => ¬ (l.service = service ∧ l.laddrIdx = la) }).endOp f (s.opId e) .ok 0 0)) ∧
  (∀ (e : Entry) (h : Nat) (s : State), Ready s e len1 false →
    let f := e.fn.idx
    let id := s.opId e
    s.known f h = true →
    ((s.conn f h).state = .lost → exec (.connClose e h) s = .next (((s.begun e 0x103 (.connClose e h)).freeConn f h).endOp f id .ok 0 0).settle) ∧
    ((s.conn f h).state = .established → exec (.connClose e h) s = .next
      (((((s.begun e 0x103 (.connClose e h)).modConn f h fun c => { c with closes := c.closes ++ [id] })).beginClose f h).closeStep f h).settle) ∧
    exec (.connAbort e h) s = .next (((s.begun e 0x104 (.connAbort e h)).connAbort f h).endOp f id .ok 0 0).settle ∧
    (∀ addr : Nat, Usable s f [(addr, 64, true)] → exec (.connQuery e h addr) s = .next
      (((s.begun e 0x105 (.connQuery e h addr)).hostWrite f addr (s.conn f h).record).endOp f id .ok 64 0)) ∧
    (∀ ports paths : Nat, 0 < paths → paths ≤ 64 → (s.conn f h).state ≠ .connecting → (s.conn f h).state ≠ .slowpath →
      (s.addrEnt (partOf f) (s.conn f h).cid.laddrIdx).valid = true → ports ≠ 0 →
      ports &&& (255 ^^^ (s.addrEnt (partOf f) (s.conn f h).cid.laddrIdx).ports) = 0 →
      let u := (s.begun e 0x106 (.connModify e h ports paths)).modConn f h fun c =>
        { c with cid := { c.cid with ports := ports, paths := paths },
                 tx := { c.tx with paths := (List.range paths).map fun i => (i, agetD c.tx.paths i {}), rr := 0 } }
      (u.conn f h).included ≠ [] → exec (.connModify e h ports paths) s = .next (u.endOp f id .ok 0 0)))

/-- R137, R138, R140, R163, R164, R165, R174, R179, R419: the handshake, closing and tear-down packets, each with room in its port's ingress
buffer. A SYN_ACK to a CONNECTING context establishes it and ends CONN_CONNECT with handle and incarnation; the last ACK carries the first
grant; a SYN no listener knows is refused (its reply's open fields are the model's, log 143), and one that a listener takes is accepted; a
refusal ends CONN_CONNECT; FIN begins to close; FIN_ACK lets the closing go on; an ABORT from the peer's end loses a live connection with the
cause it carries, a reserved one as 2; an unauthenticated packet is only counted. The rekey's new key, made in its turn, is journalled, resumes injection at PCTR 0 and ends the KEY_ADVANCE that asked for it; the
ABORT of a reset goes again on its next path. -/
def Obligations.HandshakePackets : Prop :=
  (∀ (x : Syn) (s u : State), s.ingressTake x.port.val x.wcls 182 = (true, u) → x.authOk = true → u.family x.peerIp = true →
    (u.part x.part.val).state = .active → u.err.fatal = false → u.noKeys = false → x.resume = none →
    let f := 4 + x.part.val
    let v := u.learnMap x.peerIp x.peerDev
    v.synTwin f x = none → x.herdLabel = none →
    (v.listener? f x.service x.laddrIdx = none → exec (.synReceive x) s = .next (v.replyCtl f x.port.val
      (v.replyPkt f x.laddrIdx 0 x.peerIp x.peerPart x.peerConn x.peerInc x.peerGen (.connRefuse Status.range.code 0))).settle) ∧
    (∀ (l : Listener) (sel : Nat) (tc : Option Nat) (h : Nat), v.listener? f x.service x.laddrIdx = some l → l.maxConn = 0 →
      v.matchContrib x.part.val x.peerDev x.cchk = some (sel, tc) → v.pickHandle f = some h → (v.fn f).conns = [] → 0 < v.qConns f →
      exec (.synReceive x) s = .next (v.accept f h x none sel tc).settle)) ∧
  (∀ (x : SynAck) (s u : State) (id : Nat), s.ingressTake x.port.val x.wcls 182 = (true, u) →
    let f := x.fn.idx
    let h := x.handle
    x.authOk = true → u.names f h x.inc = true → (u.conn f h).state = .connecting → (u.conn f h).cid.op = some id →
    let t := u.modConn f h fun c =>
      { c with state := .established,
               cid := { c.cid with peerPart := x.peerPart, peerConn := x.peerConn, peerInc := x.peerInc, peerGen := x.peerGen, peerNonce := x.nonce,
                                   op := none },
               tm := { c.tm with progress := u.now, receipt := u.now } }
    exec (.synAckReceive x) s = .next
      ((((((t.applyGrant f h x.grant true).deriveSetup f h).sendConnAck f h).endOp f id .ok 0 (h % 2 ^ 20 + 2 ^ 20 * (u.conn f h).cid.inc)).connUp f h).settle)) ∧
  (∀ (rx : Rx) (fn : Fn) (s u : State), rx.plen = 0 → s.ingressTake rx.port.val rx.cls 182 = (true, u) →
    let f := fn.idx
    let h := rx.dconn
    let c := u.conn f h
    (u.namesRx f rx = true →
      (∀ (hint now : Nat) (s0 : State), s0.tick now = s → c.state = .connecting → c.cid.herd = none →
        exec (.connRefusalReceive rx fn Status.busy.code hint now) s0 = .next (u.connFail f h .busy hint).settle ∧
        exec (.connRefusalReceive rx fn Status.range.code hint now) s0 = .next (u.connFail f h .range 0).settle) ∧
      (∀ g : Grant, exec (.connAckReceive rx fn g) s = .next (u.applyGrant f h g (c.tx.grantAt = 0 ∧ c.tx.gwin = 0))) ∧
      (c.state = .established ∨ c.state = .rekey → exec (.finReceive rx fn) s = .next
        (((((u.modConn f h fun c => { c with rx := { c.rx with finRcvd := true } }).beginClose f h).connEvent f h).closeStep f h).settle)) ∧
      (c.state = .closing → exec (.finAckReceive rx fn) s = .next
        ((u.modConn f h fun c => { c with rx := { c.rx with finRcvd := true, finAckRcvd := true } }).closeStep f h).settle) ∧
      (∀ cause handle inc : Nat, c.state.live = true → c.cid.peerConn = handle → c.cid.peerInc = inc →
        exec (.abortReceive rx fn ⟨cause, handle, inc⟩) s = .next (u.connLost f h (if cause ≤ 5 then cause else 2)).settle)) ∧
    (rx.authOk = false →
      let t : State := { u with sec := { u.sec with authFail := u.sec.authFail + 1 } }
      (∀ (kind hint now : Nat) (s0 : State), s0.tick now = s → exec (.connRefusalReceive rx fn kind hint now) s0 = .next t) ∧
      (∀ g : Grant, exec (.connAckReceive rx fn g) s = .next t) ∧ exec (.finReceive rx fn) s = .next t ∧
      exec (.finAckReceive rx fn) s = .next t ∧ ∀ cause handle inc : Nat, exec (.abortReceive rx fn ⟨cause, handle, inc⟩) s = .next t)) ∧
  (∀ (fn : Fn) (h : Nat) (s : State),
    let f := fn.idx
    let d := s.deriveDone f h false
    let c := d.conn f h
    c.state = .rekey → s.noKeys = false → s.sec.failed = false → s.deriveTurn f h false = true →
    let t := d.modConn f h fun c => { c with state := .established, tx := { c.tx with kepoch := c.tx.kepoch + 1, pctr := 0 } }
    let u := t.epochCount.jMust (ownerOf f) (jKey 5 (partOf f) 0 .ok (2 ^ 12 * h + c.cid.inc) (c.tx.kepoch + 1) (t.dirOf f h))
    exec (.rekeyKeyInstalled fn h) s = .next (((u.fn f).ops.filter fun o => match o.cmd with
      | .keyAdvance _ n => n % 2 ^ 20 = h && o.gen = (u.fn f).gen
      | _ => false).foldl (fun (s : State) o => s.endOp f o.id .ok 0 (c.tx.kepoch + 1)) u).settle) ∧
  (∀ (fn : Fn) (h now : Nat) (a : AbortRpt) (q : Nat) (p : CtlPkt) (l : List (Nat × CtlPkt)) (s : State),
    let f := fn.idx
    let t := s.tick now
    (s.fn f).aborts = [a] → a.handle = h → a.at_ + 100000 ≤ t.now → a.left = (q, p) :: l → l ≠ [] →
    exec (.abortRepeatTimer fn h now) s = .next
      ((t.modFn f fun x => { x with aborts := [{ a with left := l, at_ := t.now }] }).queueCtl q p))

/-- R135, R137, R140, R180: the slow path and the timers of a connection. A successful slow path sends the initiator's SYN; a failed one and
LOST_TIME without an answer fail a connection that is not yet up; an unanswered SYN goes again with its wait doubled up to 10 ms;
LOST_TIME without progress loses a live connection with cause 1. The firmware's two rows act in their turn (R521; log 158). -/
def Obligations.ConnectionTimers : Prop :=
  ∀ (fn : Fn) (h now : Nat) (s : State),
    let f := fn.idx
    let t := s.tick now
    let c := s.conn f h
    (c.state = .connecting → c.tm.synAt + c.tm.synWait ≤ t.now →
      let path := (c.tm.synPath + 1) % max 1 c.cid.paths
      exec (.synRetryTimer fn h now) s = .next ((t.modConn f h fun c =>
        { c with tm := { c.tm with synAt := t.now, synWait := min 10000000 (2 * c.tm.synWait), synPath := path } }).sendSyn f h path)) ∧
    (s.firmwareUp = true → s.fwTurn 3 = true → c.state = .slowpath → c.cid.resume = false → c.cid.init = true → ∀ d : Nat,
      let u := s.modPart (partOf f) fun p => { p with neigh := if p.neigh.contains c.cid.peerIp then p.neigh else p.neigh ++ [c.cid.peerIp] }
      u.devOf c.cid.peerIp = some d →
      exec (.slowpathDone fn h) s = .next ((((u.usePeer d).modConn f h fun c =>
        { c with state := .connecting, cid := { c.cid with peerDev := d },
                 tm := { c.tm with synAt := s.now, synWait := s.rtoMin, synFirst := s.now, synPath := 0 } }).sendSyn f h 0).settle)) ∧
    (s.fwTurn 3 = true → c.state = .slowpath → exec (.slowpathFail fn h) s = .next (s.connFail f h .peerLost 0).settle) ∧
    (isPf f = true ∨ (s.part (partOf f)).state ≠ .frozen →
      (c.state = .connecting ∨ c.state = .slowpath → c.tm.synFirst + t.lostTime ≤ t.now →
        exec (.lostTimeExpiry fn h now) s = .next (t.connFail f h .peerLost 0).settle) ∧
      (c.state.live = true →
        let u := t.stopClock f h
        (u.conn f h).state.live = true → u.waitsProgress f h = true → (u.conn f h).tm.progress + u.lostTime ≤ u.now →
        exec (.lostTimeExpiry fn h now) s = .next (u.connLost f h 1).settle))

/-- R173, R175, R176, R177, R178, R179, R181, R182, R185, R186, R189, R202: selection, transmission and grants. A port whose transmit FIFOs are
above the mark selects nothing; another selects the class-7 packet whose turn it is, sealed with the counter it takes, and with none waiting
the packet of the queue whose turn it is. Of the heads that may start now, the one selected earliest leaves the port, a raw frame ending its
operation OK; a queue that has waited STARVE is escalated; every INTERVAL each queue is sampled, and every grant interval the pool is
divided; CREDIT and REQ packets go out after 8 µs. (How fast an ingress buffer empties is open, log 36.) -/
def Obligations.Scheduling : Prop :=
  (∀ (q : Fin 8) (now : Nat) (s : State),
    let t := ((s.refreshQueues q.val).tick now).refreshQueues q.val
    let u := t.modPort q.val fun x => { x with stopped := t.injStopped q.val }
    (t.injStopped q.val = true ∨ t.err.fatal = true → exec (.packetSelect q now) s = .next u.spentOut.settle) ∧
    (t.injStopped q.val = false → t.err.fatal = false →
      (∀ (c : CtlPkt) (p : Pkt) (key : BitVec 256) (n : Nat), u.ctlNext q.val = some c →
        let v := u.modPort q.val fun x => { x with ctl := dropFirst x.ctl (fun y => y = c), rr7 := (c.part + 1) % 16 }
        v.ctlSeal c = some (p, key, n) →
        let m := match c.conn with
          | some x => (v.conn c.fn x.1).cid.portList.length
          | none => 1
        exec (.packetSelect q now) s = .next ((v.ctlTaken c).enqueue q.val
          { fn := c.fn, conn := c.conn.map (·.1), part := c.part, cls := 7, bytes := p.frameLen, seq := 0, id := 0, ready := true, pkt := some p,
            bp := v.bpOf q.val m c.path, dev := c.dev, key := key, ntype := n }).spentOut.settle) ∧
      (u.ctlNext q.val = none →
        (u.turn q.val [] = none → exec (.packetSelect q now) s = .next u.spentOut.settle) ∧
        (∀ (w : State) (k : Turn), u.turn q.val [] = some k → u.selectPick q.val k.part k.cls k.pick = (w, true) →
          exec (.packetSelect q now) s = .next (w.turnTaken q.val k).spentOut.settle)))) ∧
  (∀ (q : Fin 8) (k now : Nat) (s : State) (e : FifoPkt),
    let t := s.tick now
    let ok := ((t.port q.val).heads k).filter fun e => e.ready ∧ (¬ (t.bp q.val k).degraded ∨ e.cls = 7) ∧ ¬ t.pausedCls q.val k e.cls ∧
      (e.cls ≠ 7 ∨ (t.port q.val).cls7At ≤ t.now) ∧ t.gateSays q.val k e.cls e.bytes ≠ .later
    (t.bp q.val k).up = true → (t.bp q.val k).markSent = false → s.err.fatal = false → (t.port q.val).holdTil ≤ t.now →
    e ∈ ok → (∀ y ∈ ok, y ≠ e → e.seq < y.seq) →
    ∃ u : State,
      (∀ p : Pkt, e.pkt = some p → exec (.frameTransmit q k now) s = .next u ∧
        (let p := { p with tstamp := t.clk.time % 2 ^ 32 }
         u.out = s.out ++ [.packet q.val k p (p.frame (t.mac q.val k) e.key e.ntype)])) ∧
      (∀ (op : Nat) (bs : List Byte), e.pkt = none → e.raw = some (op, bs) →
        exec (.frameTransmit q k now) s = .next (u.endOp e.fn op .ok bs.length 0) ∧ u.out = s.out ++ [.raw q.val k bs]) ∧
      ((u.port q.val).fifo.map (·.id) = ((t.port q.val).fifo.filter fun y => y.id ≠ e.id).map (·.id)) ∧
      (u.port q.val).overrun = (if t.gateSays q.val k e.cls e.bytes = .overrun then satAdd 0xFFFFFFFF (t.port q.val).overrun 1 else (t.port q.val).overrun)) ∧
  (∀ (q : Fin 8) (p : Fin 16) (c now since : Nat) (s : State),
    let t := (s.tick now).refreshQueues q.val
    let k := qKey q.val p.val c
    (t.clsq k).since = some since → c < 6 → since + t.starveNs ≤ t.now → (t.clsq k).escal = none →
    exec (.queueEscalationTimer q p c now) s = .next (t.modClsq k fun x => { x with escal := some t.now })) ∧
  (∀ (now : Nat) (s : State),
    let t := s.tick now
    (t.now < t.sched.sampleAt + t.sampleNs → exec (.queueSampleTimer now) s = .next t) ∧
    (t.sched.sampleAt + t.sampleNs ≤ t.now →
      exec (.queueSampleTimer now) s = .next ((List.range 8).foldl (fun s q =>
        (List.range 16).foldl (fun s p => (List.range 8).foldl (fun s c =>
          if s.sampleQ q p c = s.clsq (qKey q p c) then s else s.modClsq (qKey q p c) fun _ => s.sampleQ q p c) s) (s.refreshQueues q))
        { t with sched := { t.sched with sampleAt := t.now } })) ∧
    (t.now < t.sched.grantAt + t.gint → exec (.grantInterval now) s = .next t) ∧
    (t.sched.grantAt + t.gint ≤ t.now →
      let v := { t with sched := { t.sched with full := t.sched.full ||| t.ingressFull } }
      let act := v.liveConns.filter fun c => v.activeConn c.2.2
      let idle := v.liveConns.filter fun c => ¬ v.activeConn c.2.2
      let pool := adaptPool v.sched.pool v.credPool ((List.range 8).map fun q => max (v.port q).ingMax (v.ingressHeld q)) 0
      let parts := (act.map fun c => c.1).eraseDups
      let wsum := parts.foldl (fun n f => n + (v.part (partOf f)).cur.weight) 0
      let r := parts.foldl (v.grantPart pool wsum act) (v, 0)
      let u := idle.foldl (fun t c => t.setGrant c.1 c.2.1 (min c.2.2.rx.gwin (max t.ginit c.2.2.cid.gmin)) (stopOf v.sched.full c.2.2.rx)) r.1
      exec (.grantInterval now) s = .next { u with sched := { u.sched with pool := max r.2 pool, grantAt := u.now, full := v.ingressFull },
                                                   ports := u.ports.map fun x => (x.1, { x.2 with ingMax := v.ingressHeld x.1 }) })) ∧
  (∀ (fn : Fn) (h now : Nat) (s : State),
    let f := fn.idx
    let t := s.tick now
    let c := s.conn f h
    (∀ w : Nat, c.rx.changeAt = some w → c.state.live = true → w + 8000 ≤ t.now → exec (.creditChangeTimer fn h now) s = .next (t.sendCredit f h)) ∧
    (∀ k : Cand, c.nextCand h = some k → c.state.live = true → c.tx.gwin < k.cost → c.tx.grantAt + 8000 ≤ t.now → c.tx.reqAt + 8000 ≤ t.now →
      let u := t.sendCtl f h c.turnPath (.credit ⟨0, 0, false⟩ (min 0xFFFFFFFF (c.tx.backlog (pmtuBytes c.cid.pmtu))) true)
      exec (.creditReqTimer fn h now) s = .next (u.modConn f h fun y => { y with tx := { y.tx with reqAt := u.now } })))

/-- R190, R193, R194, R195, R196, R197, R198, R199: gate lists, stops and samples. GATE_LOAD of a legal list, empty or not, puts it in waiting
with its takeover time, and ends one that waited before FLUSHED; where its page is missing it parks there. At its time the list takes over
and GATE_LOAD ends OK, or LATE, with bits 31:0 of the time; before it nothing changes. A running list moves to the entry of the present
time. Q_STOP and Q_START set and clear the stop of a connection, a class or the whole instance, and Q_STOP counts the packets selected
before; Q_SAMPLE writes 64 records, of the ports granted, and starts their largest delays again. -/
def Obligations.GatesAndStops : Prop :=
  (∀ (e : Entry) (q count addr start : Nat) (s : State), Ready s e len1 false → isPf e.fn.idx = true → e.ring = 0 →
    q < 8 → count ≤ 1024 → start ≤ s.clk.time + 10 ^ 10 →
    let f := e.fn.idx
    let id := s.opId e
    let t := s.begun e 0x180 (.gateLoad e q count addr start)
    let bs := t.hostBytes f addr (8 * count)
    let l := gatesOf count bs
    let u := t.hostReadFill f addr (8 * count)
    (∀ p : Nat, t.missing f addr (8 * count) false = some p → exec (.gateLoad e q count addr start) s = .next (t.parkOp f id p false)) ∧
    (t.missing f addr (8 * count) false = none → t.locPoison f false addr (8 * count) = none → gatesRsv count bs = false → (∀ g ∈ l, 10 ≤ g.dur) →
      l = [] ∨ (1000 ≤ cycleNs l ∧ cycleNs l ≤ 10 ^ 9) →
      let v := match (u.port q).pend with
        | some p => u.endOp p.fn p.op .flushed 0 0
        | none => u
      exec (.gateLoad e q count addr start) s = .next
        (v.modPort q fun x => { x with pend := some ⟨l, (u.takeover q start l).1, start, f, id, (u.takeover q start l).2⟩ }))) ∧
  (∀ (q : Fin 8) (now : Nat) (s : State),
    let t := s.tick now
    (∀ p : GatePend, (s.port q.val).pend = some p → p.at_ ≤ t.clk.time → exec (.gateTakeover q now) s = .next
      ((t.modPort q.val fun x => { x with pend := none, gates := p.list, running := p.list ≠ [], anchor := p.at_, cursor := 0 }).endOp p.fn p.op
        (if p.late then .late else .ok) 0 (p.at_ % 2 ^ 32))) ∧
    ((∀ p : GatePend, (s.port q.val).pend = some p → t.clk.time < p.at_) → exec (.gateTakeover q now) s = .next t) ∧
    exec (.gateEntryAdvance q now) s = .next (if (s.port q.val).running then
      t.modPort q.val fun x => { x with cursor := (gateAt x.gates x.anchor t.clk.time).1 } else t)) ∧
  (∀ (e : Entry) (scope arg : Nat) (s : State), Ready s e len1 false →
    scope = 0 ∧ s.known e.fn.idx arg = true ∨ scope = 1 ∧ arg ≤ 6 ∨ scope = 2 ∧ arg = 0 →
    let f := e.fn.idx
    let id := s.opId e
    let stop := fun (x : Stops) => if scope = 0 then { x with conns := if x.conns.contains arg then x.conns else x.conns ++ [arg] }
      else if scope = 1 then { x with cls := x.cls ||| 2 ^ arg } else { x with all := true }
    let go := fun (x : Stops) => if scope = 0 then { x with conns := x.conns.filter fun y => y ≠ arg }
      else if scope = 1 then { x with cls := x.cls - (x.cls &&& 2 ^ arg) } else { x with all := false }
    (let t := (s.begun e 0x188 (.qStop e scope arg)).modFn f fun x => { x with stops := stop x.stops }
     exec (.qStop e scope arg) s = .next ((t.stopClocks f).endOp f id .ok 0 (t.selectedOf f scope arg))) ∧
    (let t := (s.begun e 0x189 (.qStart e scope arg)).modFn f fun x => { x with stops := go x.stops }
     exec (.qStart e scope arg) s = .next ((t.stopClocks f).endOp f id .ok 0 0))) ∧
  (∀ (e : Entry) (addr : Nat) (s : State), Ready s e len1 false →
    let f := e.fn.idx
    let id := s.opId e
    let t := s.begun e 0x18A (.qSample e addr)
    let granted := if isPf f then 0 else (t.part (partOf f)).cur.ports
    let bs := (List.range 8).flatMap fun q => (List.range 8).flatMap fun c =>
      if granted.testBit q then t.sampleRec q (partOf f) c else List.replicate 16 0
    let u := (bitList 8 granted).foldl (fun s q => (List.range 8).foldl (fun s c =>
      s.modClsq (qKey q (partOf f) c) fun x => { x with largest := 0 }) s) t
    (∀ p : Nat, t.missing f addr 1024 true = some p → exec (.qSample e addr) s = .next (t.parkOp f id p true)) ∧
    (t.missing f addr 1024 true = none → exec (.qSample e addr) s = .next ((u.hostWrite f addr bs).endOp f id .ok 1024 0)))

/-- R355, R356, R357, R365, R367, R368, R369, R378, R379, R380, R382, R491: host links. The completion of a current read fills its
packet, or fails it where it brings UR, CA or poison, and one of a stale generation is discarded and counted; a read unanswered for CTO ends; an FLR of a partition's VF is an instance
reset, one of the physical function resets the link's functions; a link that has trained is up; CXL.mem reads and writes one line where
the offset is served and is refused otherwise; a snoop is answered with the line's state; a recall forgets a tracked line. -/
def Obligations.HostLinks : Prop :=
  ∀ (l : Fin 4) (s : State),
    (∀ (r : HRead) (data : List Byte), (s.link l.val).reads.find? (fun x => x.tag = r.tag) = some r →
      let t := s.modLink l.val fun x => { x with reads := x.reads.filter fun y => y.tag ≠ r.tag }
      (t.staleRead r = false → exec (.hostReadCompletion l r.tag r.gen data ⟨.ok, none⟩) s = .next (t.modPort r.port fun x =>
        { x with fifo := x.fifo.map fun e => if e.id = r.fifo then { e with ready := true, pkt := e.pkt.map fun p => { p with payload := data.take r.len } } else e }).settle) ∧
      (t.staleRead r = true → exec (.hostReadCompletion l r.tag r.gen data ⟨.ok, none⟩) s = .next
        (t.modLink l.val fun x => { x with staleCpl := satAdd 0xFF x.staleCpl 1 }).settle) ∧
      (t.staleRead r = false → exec (.hostReadCompletion l r.tag r.gen data ⟨.urca, none⟩) s = .next (t.readFails r false).refusedCount.settle) ∧
      (t.staleRead r = false → exec (.hostReadCompletion l r.tag r.gen data ⟨.poison, none⟩) s = .next (t.readFails r true).settle)) ∧
    (∀ (r : HRead) (now : Nat), (s.link l.val).reads.find? (fun x => x.tag = r.tag ∧ x.at_ + (s.tick now).ctoNs l.val ≤ (s.tick now).now) = some r →
      let t := (s.tick now).modLink l.val fun x => { x with reads := x.reads.filter fun y => y.tag ≠ r.tag }
      (s.tick now).staleRead r = false →
      exec (.completionTimeout l r.tag now) s = .next
        ((((t.modLink l.val fun x => { x with cto := satAdd 0xFF x.cto 1 }).aer r.fn 14).readFails r false).refusedCount.settle)) ∧
    (∀ p : Fin 16, (s.part p.val).state ≠ .empty → (s.part p.val).cur.link = l.val →
      exec (.vfFlr l p) s = .next (((s.journalLink 1 l.val (p.val + 1)).tdiReset p.val).settle)) ∧
    exec (.pfFlr l) s = .next ((s.journalLink 2 l.val 0).linkReset l.val).settle ∧
    exec (.linkDlDown l) s = .next ((s.linkDown l.val).report (72 + l.val) 0xFF 0x51 (l.val + 3 * 2 ^ 8)).settle ∧
    (∀ (speed width : Nat) (cxl : Bool), 0 < speed → speed ≤ 6 → 0 < width → width ≤ 16 → (s.link l.val).perst = false →
      (s.link l.val).disabled = false → (s.link l.val).detect = true → s.powered = true → s.mgmt.recovery = false →
      exec (.linkUp l speed width cxl) s = .next
        ((if cxl then s.journalLink 4 l.val 0 else (s.journalLink 4 l.val 0).noCxl l.val).modLink l.val fun x =>
          { x with up := true, speed := speed, width := width, cxl := cxl })) ∧
    (∀ on : Bool, s.mgmt.sa = false → exec (.vfEnableWrite l on) s = .next (s.modLink l.val fun x => { x with vfEnable := on })) ∧
    (∀ (addr : Nat) (data : List Byte), s.cxlServes l.val addr = true →
      let a := s.cxlPhys addr
      let t := s.track l.val (a / 64)
      exec (.cxlMemWrite l addr data) s = .next
        (({ s with mem := (s.mem.touch a 64).write (cellKey dramSpace a) (data.take 64) } : State).emit (.memCmp l.val addr)) ∧
      (t.mem.firstPoison (cellKey dramSpace a) 64 = none → exec (.cxlMemRead l addr) s = .next
        (t.emit (.memData l.val addr false (cellsGet t.mem.bytes (cellKey dramSpace a) 64)))) ∧
      ((t.mem.firstPoison (cellKey dramSpace a) 64).isSome → exec (.cxlMemRead l addr) s = .next
        (t.emit (.memData l.val addr true (List.replicate 64 0))))) ∧
    (∀ (addr : Nat) (data : List Byte), s.cxlServes l.val addr = false →
      let t := s.modLink l.val fun x => { x with memRef := satAdd 0xFFFF x.memRef 1 }
      exec (.cxlMemWrite l addr data) s = .next (t.emit (.memCmp l.val addr)) ∧
      exec (.cxlMemRead l addr) s = .next (t.emit (.memData l.val addr true (List.replicate 64 0)))) ∧
    (∀ addr : Nat,
      let hit := fun (x : Line) => decide (x.link = l.val ∧ x.addr / 64 = addr / 64)
      let dirty := s.mem.lines.any fun x => hit x && x.dirty
      exec (.hostSnoop l addr true) s = .next ((s.modLines fun x => x.filter fun y => ! hit y).emit (.snoopRsp l.val (addr / 64 * 64) dirty)) ∧
      exec (.hostSnoop l addr false) s = .next ((s.modLines fun x => x.map fun y => if hit y then { y with dirty := false } else y).emit
          (.snoopRsp l.val (addr / 64 * 64) dirty))) ∧
    (∀ (addr : Nat) (d : List Byte), (l.val, addr / 64) ∈ s.mem.dir →
      let t := ({ s with mem := { s.mem with dir := s.mem.dir.filter fun x => x ≠ (l.val, addr / 64) } } : State).emit (.biSnp l.val (addr / 64 * 64))
      exec (.directoryRecall l addr none) s = .next t ∧
      exec (.directoryRecall l addr (some d)) s = .next
        { t with mem := (t.mem.touch (addr / 64 * 64) 64).write (cellKey dramSpace (addr / 64 * 64)) (d.take 64) }) ∧
    (∀ o : Origin, s.jrnl.full = false →
      let off := 0x1000008 + 0x10000 * l.val
      let v := s.reg off
      let t := s.jCommit o (.setup off 8 false v (v - v % 2))
      exec (.lineCacheDisable l o) s = .next ((t.modLines fun x => x.filter fun y => y.link ≠ l.val).setReg off (v - v % 2)))

/-- R351, R352, R353: the memory commands. ATC_PREFETCH with translation off ends at once with the bytes it covers; SLICE_REKEY marks
the first page of its range not yet under KSEL and goes through them in turn, or ends OK when there is none; the last line of a page moves
it to the new selector, with a record, and the last page ends the command with the bytes of its pages; SLICE_INFO writes its record. -/
def Obligations.MemoryCommands : Prop :=
  (∀ (e : Entry) (s : State), Ready s e len1 false →
    let f := e.fn.idx
    let id := s.opId e
    (∀ (addr len : Nat) (wr ok : Bool), addr % 4096 = 0 → len % 4096 = 0 → 0 < len → len ≤ 2 ^ 30 → AtsOff s f →
      exec (.atcPrefetch e addr len wr ok) s = .next ((s.begun e 0x380 (.atcPrefetch e addr len wr ok)).endOp f id .ok len
        (match (s.begun e 0x380 (.atcPrefetch e addr len wr ok)).op? f id with | some o => o.aux | none => []).length)) ∧
    (∀ first count ksel : Nat, first % 2 ^ 21 = 0 → 0 < count → first + 2 ^ 21 * count ≤ s.sliceLen f → isPf f = false → ksel / 4 = partOf f →
      s.keyLive ksel = true → (∀ j ∈ s.rekeyPages f first count ksel, (s.pageEnt j).rk = false) →
      let t := s.begun e 0x381 (.sliceRekey e first count ksel)
      let l := s.rekeyPages f first count ksel
      (l = [] → exec (.sliceRekey e first count ksel) s = .next (t.endOp f id .ok 0 0)) ∧
      (∀ (j : Nat) (l' : List Nat), l = j :: l' → s.mem.rekeys.find? (fun r => r.fn = f ∧ r.op = id) = none →
        exec (.sliceRekey e first count ksel) s = .next { t with mem := { s.mem with
          pages := amod s.mem.pages j {} fun p => { p with rk := true },
          rekeys := (⟨j, ksel, f, id⟩ : Rekey) :: (s.mem.rekeys ++ l.map fun j => (⟨j, ksel, f, id⟩ : Rekey)).erase ⟨j, ksel, f, id⟩ } })) ∧
    (∀ addr : Nat, Usable s f [(addr, 64 + (s.part (partOf f)).cur.spages, true)] → isPf f = false →
      exec (.sliceInfo e addr) s = .next (((s.begun e 0x382 (.sliceInfo e addr)).hostWrite f addr (s.sliceRecord f)).endOp f id .ok
        (64 + (s.part (partOf f)).cur.spages) 0))) ∧
  (∀ (page : Nat) (r : Rekey) (o : Op) (s : State), s.mem.rekeys = [r] → r.page = page → (s.pageEnt page).rk = true → s.jrnl.full = false →
    let t := (({ s with mem := { s.mem with rekeys := [], pages := amod s.mem.pages page {} fun p => { p with ksel := r.ksel, rk := false } } } : State).jCommit
      (ownerOf r.fn) (jKey 9 (partOf r.fn) r.ksel .ok)).modOp r.fn r.op fun o => { o with need := o.need + 2 ^ 21 }
    t.mem.rekeys = [] → t.op? r.fn r.op = some o →
    exec (.sliceRekeyPage page) s = .next (t.endOp r.fn r.op .ok o.need 0))

/-- R336, R337, R338, R339, R340, R341, R342: translations, page requests and invalidations. A batch that has waited goes out; a page
response frees its group, and its waiters translate again or are refused; a late one is counted; a group unanswered in time is refused;
PRI Reset ends the stop; an invalidation drops the overlapping entries at once and completes when nothing uses the range; a granted
translation is cached and what waited for the page goes on, and one that denies what is needed, or UR or CA, does not let it; ATS Enable turns translation on, or off with its cache emptied, and what waited
tries again. While it is off an Untranslated read answered with UR or CA refuses what waits for its page, and one that succeeds lets it go on
(R336; the completion names function and page: DEDUCED, log 152). -/
def Obligations.PageRequests : Prop :=
  ∀ (fn : Fn) (s : State),
    let f := fn.idx
    let a := (s.fn f).ats
    (∀ now : Nat, a.batch ≠ [] → a.batchAt + priWait a.batchCfg ≤ (s.tick now).now → exec (.pageRequestBatchSend fn now) s = .next ((s.tick now).closeBatch f)) ∧
    (∀ (g : PriGroup), a.groups.find? (fun x => x.index = g.index ∧ x.gen = g.gen ∧ g.gen = (s.fn f).gen) = some g →
      let t := s.modFn f fun x => { x with ats := { x.ats with groups := x.ats.groups.filter fun y => y ≠ g } }
      exec (.priResponseReceive fn g.index g.gen .success) s = .next
        (let u := g.reqs.foldl (fun s r => s.askXlate f r.1 r.2) t
         (sendGo ((u.fn f).ats.closed.length) u f).settle) ∧
      exec (.priResponseReceive fn g.index g.gen .invalid) s = .next
        (let u := t.denyAll f g.reqs
         (sendGo ((u.fn f).ats.closed.length) u f).settle)) ∧
    (∀ (gr gen : Nat) (rep : PriReply), (∀ g ∈ a.groups, g.index = gr → g.gen = gen → gen ≠ (s.fn f).gen) →
      exec (.priResponseReceive fn gr gen rep) s = .next ({ s with mem := { s.mem with stale := satAdd 0xFFFF s.mem.stale 1 } } : State).settle) ∧
    (∀ (g : PriGroup) (now : Nat), a.groups.find? (fun x => x.index = g.index ∧ x.sentAt + x.tmo ≤ (s.tick now).now) = some g → g.gen = (s.fn f).gen →
      let t := (s.tick now).modFn f fun x => { x with ats := { x.ats with groups := x.ats.groups.filter fun y => y ≠ g } }
      exec (.priTimeout fn g.index now) s = .next
        (let u := ({ t with mem := { t.mem with timeouts := satAdd 0xFFFF t.mem.timeouts 1 } } : State).denyAll f g.reqs
         (sendGo ((u.fn f).ats.closed.length) u f).settle)) ∧
    exec (.priReset fn) s = .next (s.modFn f fun x => { x with ats := { x.ats with stopped := false } }) ∧
    (∀ tag addr len : Nat, exec (.atsInvalidateRequest fn tag addr len) s = .next
      (({ s with mem := { s.mem with atc := s.mem.atc.filter fun e => ¬ (e.fn = f ∧ e.addr < addr + len ∧ addr < e.addr + e.size) } } : State).modFn f fun x =>
        { x with ats := { x.ats with invals := x.ats.invals ++ [(tag, addr, len)] } })) ∧
    (∀ tag addr len : Nat, a.invals.find? (fun i => i.1 = tag) = some (tag, addr, len) →
      (s.mem.atc.any fun e => e.fn = f && decide (e.addr < addr + len ∧ addr < e.addr + e.size)) = false →
      ((s.link (s.linkOf f)).reads.any fun r => r.fn = f && decide (r.addr < addr + len ∧ addr < r.addr + r.len)) = false →
      s.rangeHeld f addr len = false →
      exec (.atsInvalidateComplete fn tag) s = .next
        ((s.modFn f fun x => { x with ats := { x.ats with invals := x.ats.invals.filter fun i => i ≠ (tag, addr, len) } }).emit (.invalDone f tag))) ∧
    (∀ (addr size pg : Nat) (r w wr : Bool), a.reqs.find? (fun r => r.1 / 2 ^ a.stu = addr / 4096 / 2 ^ a.stu) = some (pg, wr) → s.frozenFn f = false →
      let t := s.modFn f fun x => { x with ats := { x.ats with reqs := x.ats.reqs.filter fun r => r ≠ (pg, wr) } }
      ((if wr then w else r) = true → exec (.atsTranslationCompletion fn addr (.granted r w size)) s = .next
        ((((t.cacheXlate f pg size r w).resumeAt f fun p v => p = pg && v = wr).atcSettle f).settle)) ∧
      ((if wr then w else r) = false → exec (.atsTranslationCompletion fn addr (.granted r w size)) s = .next
        ((((if r || w then t.cacheXlate f pg size r w else t).denyPage f pg wr true).atcSettle f).settle)) ∧
      exec (.atsTranslationCompletion fn addr .urca) s = .next (((t.denyPage f pg wr false).atcSettle f).settle)) ∧
    (∀ stu : Nat, let t := s.modFn f fun x => { x with ats := { x.ats with enable := true, pri := true, stu := stu % 32, ur := [] } }
      (a.enable = true → exec (.atsEnableWrite fn ⟨true, stu⟩) s = .next t.settle) ∧
      (a.enable = false → s.frozenFn f = false → exec (.atsEnableWrite fn ⟨true, stu⟩) s = .next (t.resumeAt f fun _ _ => true).settle)) ∧
    (∀ stu : Nat, s.frozenFn f = false → exec (.atsEnableWrite fn ⟨false, stu⟩) s = .next
      ((((({ s with mem := { s.mem with atc := s.mem.atc.filter fun e => e.fn ≠ f } } : State).modFn f fun x =>
        { x with ats := { x.ats with enable := false, pri := false, batch := [], closed := [], reqs := [] } })).resumeAt f fun _ _ => true).settle)) ∧
    (∀ (l : Fin 4) (tag gen addr : Nat) (data : List Byte) (rep : ReadReply), s.linkOf f = l.val → a.enable = false → s.frozenFn f = false →
      let pg := addr / 4096
      (rep = .urca → exec (.hostReadCompletion l tag gen data ⟨rep, some (fn, addr)⟩) s = .next
        (((s.modFn f fun x => { x with ats := { x.ats with ur := if x.ats.ur.contains pg then x.ats.ur else x.ats.ur ++ [pg] } }).denyPage f pg false false).settle)) ∧
      (rep ≠ .urca → exec (.hostReadCompletion l tag gen data ⟨rep, some (fn, addr)⟩) s = .next
        (((s.modFn f fun x => { x with ats := { x.ats with ur := x.ats.ur.filter fun p => p ≠ pg } }).resumeAt f fun p w => p = pg && ! w).settle)))

/-- R236, R238, R239, R447, R448, R453, R454, R455: herds. HERD_CREATE of a legal member table forms the herd; HERD_DESTROY of a RUNNING
herd drains it, its queued collectives ending FLUSHED, and of a READY one frees it; HERD_QUERY writes the record; FORMING ends PEER_LOST
after LOST_TIME; heartbeats go to the neighbours and a silent one is declared; a proposer repeats its lap, commits after SETTLE and gives
up after AGREE; once the new epoch's connections stand the herd goes on, a draining one ends, and a paused collective goes on under its new plan. -/
def Obligations.Herds : Prop :=
  (∀ (e : Entry) (s : State),
    let f := e.fn.idx
    let id := s.opId e
    (∀ b : HerdBody, Ready s e len2 false → Usable s f [(b.mtab, 32 * b.nmemb, false)] →
      let t := s.begun e 0x200 (.herdCreate e b)
      let bs := t.hostBytes f b.mtab (32 * b.nmemb)
      t.herdChecks f b = [] → t.locPoison f false b.mtab (32 * b.nmemb) = none → membsRsv b.nmemb bs = false →
      exec (.herdCreate e b) s = .next ((t.hostReadFill f b.mtab (32 * b.nmemb)).herdForm f id b (membsOf b.nmemb bs))) ∧
    (∀ i : Nat, Ready s e len1 false →
      ((s.herd f i).state = .ready → exec (.herdDestroy e i) s = .next (((s.begun e 0x201 (.herdDestroy e i)).herdFree f i).endOp f id .ok 0 0)) ∧
      ((s.herd f i).state = .running → exec (.herdDestroy e i) s = .next ((s.herd f i).queue.foldl (fun s c => s.endOp f c.op .flushed 0 0)
        ((s.begun e 0x201 (.herdDestroy e i)).modHerd f i fun h => { h with state := .draining, destroy := some id, queue := [] }))) ∧
      (∀ addr : Nat, (s.herd f i).state ≠ .free → Usable s f [(addr, (s.herd f i).record.length, true)] →
        exec (.herdQuery e i addr) s = .next
          (((s.begun e 0x202 (.herdQuery e i addr)).hostWrite f addr (s.herd f i).record).endOp f id .ok (s.herd f i).record.length 0)))) ∧
  (∀ (fn : Fn) (i now : Nat) (s : State),
    let f := fn.idx
    let t := s.tick now
    let h := s.herd f i
    (h.state = .forming → h.since + t.lostTime ≤ t.now → exec (.herdFormTimeout fn i now) s = .next ((t.herdFree f i).endOp f h.op .peerLost 0 0)) ∧
    (t.herdBeats f i = true →
      (h.hbAt + h.hbNs ≤ t.now → exec (.heartbeatTimer fn i now) s = .next (h.neighbours.foldl (fun s r => match s.herdConn f i r with
        | some hd => s.sendCtl f hd (s.conn f hd).turnPath .probe true
        | none => s) (t.modHerd f i fun h => { h with hbAt := t.now }))) ∧
      exec (.heartbeatMiss fn i now) s = .next
        ((h.neighbours.filter fun r => agetD h.seen r h.since + 3 * h.hbNs ≤ t.now).foldl (fun s r => s.herdDeclare f i r) t)) ∧
    (h.state = .reforming → h.commit = none →
      (h.proposer = true → h.origin = some h.me → h.lapBack = true →
        (h.lapAt + 100000000 ≤ t.now → exec (.proposeLapTimer fn i now) s = .next (t.startLap f i)) ∧
        (∀ k : Token, h.clean = some k → h.since + t.settleNs ≤ t.now → h.size < 2 * (h.members.filter fun r => ¬ k.bits.contains r).length →
          exec (.settleTimer fn i now) s = .next ((t.takeCommit f i k).heldTokens f i))) ∧
      (h.since + t.settleNs + t.agreeNs ≤ t.now → exec (.agreeTimer fn i now) s = .next (t.herdBreak f i))) ∧
    (∀ (k : Token) (src : List (Nat × Nat)), h.state = .reforming → h.commit = some k → s.herdJoined f i = true →
      let u := (s.modHerd f i fun h =>
        { h with state := if h.destroy.isSome then .draining else if (s.herd f i).run.isSome ∨ (s.herd f i).queue ≠ [] then .running else .ready,
                 commit := none, forward := h.forward.filter (·.1), proposal := none,
                 declared := [], proposer := false, origin := none, clean := none, hbAt := s.now,
                 seen := (List.range h.membs.length).map fun r => (r, s.now) }).heldTokens f i
      ((u.herd f i).run = none →
        (h.destroy = none → exec (.collectiveResume fn i src) s = .next u.settle) ∧
        (∀ id : Nat, h.destroy = some id → exec (.collectiveResume fn i src) s = .next ((u.herdFree f i).endOp f id .ok 0 0).settle)) ∧
      (∀ (c : Coll) (w : State), (u.herd f i).run = some c →
        let v := u.dropColl f i
        let g := v.herd f i
        let x := planOf g c
        let c' : Coll := { c with pieces := c.replan x k src, reforms := c.reforms + 1, alg := c.body.runAlg c.opcode g.size (evenGroups g.groups),
                                  bytes := c.bytesLeft (c.replan x k src),
                                  epochs := c.epochs ++ [(g.mepoch, g.rank, k.cbase.getD (2 ^ 64 - 1))], tokens := if isRows c.opcode then c.tokens else [],
                                  upSent := false, downSent := false, rowsOut := if isRows c.opcode then g.members else [] }
        (v.modRun f i fun _ => c').herdOpenAll f i ((c'.peers g).map g.orig) = (w, true) →
        exec (.collectiveResume fn i src) s = .next ((w.collHeld f i).collAdvance f i).settle)))

/-- R242, R243, R257: collectives. A COLL command whose checks pass joins its herd's queue, in order; DISPATCH and COMBINE read their tables first.
The oldest queued collective of a herd with none running starts: it takes the herd's next number, its plan and its circuits; one that fails R242's checks by then ends so (log 157). -/
def Obligations.Collectives : Prop :=
  (∀ (e : Entry) (b : CollBody) (s : State), Ready s e len2 false →
    let f := e.fn.idx
    let id := s.opId e
    let queued := fun (op : Nat) (t : State) => (((t.modOp f id fun o => { o with ltally := ltOf b.ltEn b.ltally }).modHerd f b.herd fun h =>
      { h with queue := h.queue ++ [{ op := id, opcode := op, body := b }] }).settle)
    (s.herd f b.herd).holds id = false → (s.herd f b.herd).state ≠ .broken → (s.herd f b.herd).state ≠ .draining →
    (∀ t : State, t = s.begun e 0x210 (.collAllreduce e b) → t.collChecks f e.ring 0x210 b = [] →
      exec (.collAllreduce e b) s = .next (queued 0x210 t)) ∧
    (∀ t : State, t = s.begun e 0x211 (.collReduceScatter e b) → t.collChecks f e.ring 0x211 b = [] →
      exec (.collReduceScatter e b) s = .next (queued 0x211 t)) ∧
    (∀ t : State, t = s.begun e 0x212 (.collAllgather e b) → t.collChecks f e.ring 0x212 b = [] →
      exec (.collAllgather e b) s = .next (queued 0x212 t)) ∧
    (∀ t : State, t = s.begun e 0x213 (.collBcast e b) → t.collChecks f e.ring 0x213 b = [] →
      exec (.collBcast e b) s = .next (queued 0x213 t)) ∧
    (∀ t : State, t = s.begun e 0x214 (.collReduce e b) → t.collChecks f e.ring 0x214 b = [] →
      exec (.collReduce e b) s = .next (queued 0x214 t)) ∧
    (∀ t : State, t = s.begun e 0x215 (.collAlltoall e b) → t.collChecks f e.ring 0x215 b = [] →
      exec (.collAlltoall e b) s = .next (queued 0x215 t)) ∧
    (∀ (op : Nat) (c : Instr) (t u v : State), (op = 0x216 ∧ c = .collDispatch e b ∨ op = 0x217 ∧ c = .collCombine e b) →
      t = s.begun e op c → t.collChecks f e.ring op b = [] → Usable s f [(b.rtab, 4 * b.ntok * b.k, false)] →
      t.locPoison f false b.rtab (4 * b.ntok * b.k) = none → u = t.hostReadFill f b.rtab (4 * b.ntok * b.k) → Usable u f [(b.emap, 2 * b.nexp, false)] →
      u.locPoison f false b.emap (2 * b.nexp) = none → v = u.hostReadFill f b.emap (2 * b.nexp) →
      tablesBad b (v.herd f b.herd).size (t.hostBytes f b.rtab (4 * b.ntok * b.k)) (u.hostBytes f b.emap (2 * b.nexp)) = false →
      (v.herd f b.herd).state ≠ .broken → (v.herd f b.herd).state ≠ .draining →
      exec c s = .next (queued op v)) ∧
    (∀ t : State, t = s.begun e 0x218 (.collBarrier e b) → t.collChecks f e.ring 0x218 b = [] →
      exec (.collBarrier e b) s = .next (queued 0x218 t))) ∧
  (∀ (fn : Fn) (i : Nat) (c : Coll) (q : List Coll) (s u : State),
    let f := fn.idx
    let h := s.herd f i
    let b := c.body
    h.run = none → h.queue = c :: q → h.state = .ready ∨ h.state = .running →
    (∀ st : Status, pick (s.collChecks f h.bd.hring c.opcode b) = some st → exec (.collStart fn i) s = .next
      (((s.modHerd f i fun h => { h with queue := q }).endOp f c.op st 0 0).herdAfter f i).settle) ∧
    (pick (s.collChecks f h.bd.hring c.opcode b) = none →
      let c1 := { c with cseq := h.cseq, sig := b.sig c.opcode (b.clog h), clog := b.clog h, alg := b.runAlg c.opcode h.size (evenGroups h.groups),
                         owners := h.members, epochs := [(h.mepoch, h.rank, 0)], rowsOut := if isRows c.opcode then h.members else [],
                         cur := if b.qen ∧ b.qblk.ef ∧ ¬ b.qblk.reset then leNat (s.sliceRead f b.qblk.resOff 1) % 2 else 0 }
      let c2 := { c1 with pieces := (planOf h c1).pieces, chunks := (planOf h c1).chunkCount }
      let t := s.modHerd f i fun h => { h with state := .running, run := some c2, queue := q, cseq := (h.cseq + 1) % 2 ^ 32 }
      (((t.resetResidual f c2 h.size).collCircuits f i).wakeBlocks h.blockMask).herdOpenAll f i ((c2.peers h).map h.orig) = (u, true) →
      exec (.collStart fn i) s = .next ((u.collHeld f i).collAdvance f i).settle))

/-- R259, R261, R262, R265, R266, R268, R270, R272-R276, R278-R281, R283: streamed attention. ATTN_OPEN of a legal body makes its session
LOADING; once its queries are read and converted it is ACCEPTING (or still FINISHING) and holds fresh rows, each block counting what its
rows' conversions count, and a poisoned query ends it POISON; ATTN_FEED queues its blocks; ATTN_FINISH makes it FINISHING; ATTN_ABORT ends
it FLUSHED; ATTN_QUERY writes its record; an ibex block merges the first complete KV block of its head into the rows it holds that the mask
does not skip; a WRITING session writes rows and statistics in order, ends POISON at a poisoned row, waits at a missing granule, and is
freed with ATTN_FINISH and then ATTN_OPEN ended OK once all is written. -/
def Obligations.AttentionSessions : Prop :=
  (∀ (e : Entry) (s : State),
    let f := e.fn.idx
    let id := s.opId e
    (∀ b : AttnBody, Ready s e len2 false →
      let t := s.begun e 0x280 (.attnOpen e b)
      let u := t.modOp f id fun o => { o with ltally := ltOf b.ltEn b.ltally }
      let v := (u.modSess f b.sess fun _ => { state := .loading, body := some b, key := b.skey, op := id }).attnCircuits f b.sess b
      t.sessOfOp f id = none → t.attnChecks f b = [] →
      exec (.attnOpen e b) s =
        .next ((v.modSess f b.sess fun x => { x with circuits := v.mesh.circs.length - s.mesh.circs.length }).wakeBlocks b.blks).settle) ∧
    (∀ b : FeedBody, Ready s e len1 false →
      let t := s.begun e 0x281 (.attnFeed e b)
      let u := (t.modOp f id fun o => { o with ltally := ltOf b.ltEn b.ltally, conn := if b.local_ then none else some b.conn }).modFn f fun x =>
        { x with feeds := aset x.feeds id { body := b } }
      aget (s.fn f).feeds id = none → t.feedChecks f b = [] →
      (b.local_ = true → exec (.attnFeed e b) s = .next (localGo (ceilDiv b.ntok 128 + 1) u f id).settle) ∧
      (b.local_ = false → exec (.attnFeed e b) s = .next (feedQueue u f id b (List.range (ceilDiv b.ntok 128))).settle)) ∧
    (∀ sref : Nat, Ready s e len1 false → s.sessMatch f sref = true →
      let i := srefIndex sref
      ((s.sess f i).state ≠ .finishing → (s.sess f i).state ≠ .writing → exec (.attnFinish e sref) s = .next
        ((((s.begun e 0x282 (.attnFinish e sref)).modSess f i fun x => { x with state := .finishing, finish := some id }).sessStep f i).localFeeds
          f).settle) ∧
      ((s.sess f i).state ≠ .writing → exec (.attnAbort e sref) s = .next
        (((s.begun e 0x283 (.attnAbort e sref)).sessFail f i .flushed 0).endOp f id .ok 0 0).settle) ∧
      (∀ addr : Nat, Usable s f [(addr, (s.sess f i).record.length, true)] → exec (.attnQuery e sref addr) s = .next
        (((s.begun e 0x284 (.attnQuery e sref addr)).hostWrite f addr (s.sess f i).record).endOp f id .ok (s.sess f i).record.length 0)))) ∧
  (∀ (fn : Fn) (i : Nat) (s : State),
    let f := fn.idx
    let x := s.sess f i
    let b := x.bd
    (x.state = .loading ∨ x.state = .finishing → x.loaded = false →
      let l := (queryRanges b).map (fun r => (b.qspace, r.1, r.2, false)) ++ [(false, b.qpos, 4 * b.nq, false)]
      l.findSome? (fun y => s.locMiss f y.1 y.2.1 y.2.2.1 false) = none →
      (∀ a, l.findSome? (fun y => s.locPoison f y.1 y.2.1 y.2.2.1) = some a →
        exec (.attnLoadingDone fn i) s = .next (s.sessFail f i .poison (granuleDetail a)).settle) ∧
      (l.findSome? (fun y => s.locPoison f y.1 y.2.1 y.2.2.1) = none →
        let t := l.foldl (fun s y => s.locUse f y.1 y.2.1 y.2.2.1) s
        let qs := (List.range b.nkvh).map fun k => (k, t.queryRows f b k)
        let u := qs.foldl (fun s q => s.countRows b q.1 (q.2.map (·.2))) t
        let v := u.modSess f i fun y =>
          { y with loaded := true, state := if y.state = .loading then .accepting else y.state, qs := qs.map (fun q => (q.1, queryTile q.2)),
                   rows := (List.range b.nkvh).map (fun k => (k, List.replicate (b.nq * b.g) (freshRow b.d))),
                   pos := (List.range b.nq).map fun k => leNat (t.hostBytes f (b.qpos + 4 * k) 4) % 2 ^ 24 }
        exec (.attnLoadingDone fn i) s =
          .next ((if b.rtEn = true ∧ x.state = .loading then v.tallyAdd f b.rtally 1 else v).sessStep f i).settle)) ∧
    (∀ (blk slot : Nat) (y : KvBlk), x.firstReady blk = some y → y.id = slot → x.loaded = true → x.state = .accepting ∨ x.state = .finishing →
      b.blks.testBit blk = true → s.regionLive (regionOf blk) = true →
      let ks := (blockRows b y.ntok y.k).1
      let vs := (blockRows b y.ntok y.v).1
      let skip := skippedTiles b x.pos y.bpos y.ntok
      let rows := agetD x.rows y.kvh []
      let out := ((List.range rows.length).zip rows).map fun z =>
        if b.blockOf y.kvh z.1 ≠ blk ∨ skip.contains (z.1 / 16) then (z.2, ({} : Exc))
        else mergeRow b (tileRow b.qConv b.d (agetD x.qs y.kvh ⟨[], []⟩) z.1) (x.pos.getD (z.1 / max 1 b.g) 0) y.bpos ks vs z.2
      exec (.kvBlockMerge fn i blk slot) s = .next ((((s.countExc blk (x.mergeExc y out)).modSess f i fun x =>
        x.merged_ blk y (out.map (·.1))).sessStep f i).localFeeds f).settle) ∧
    (x.state = .writing →
      let p := putPieces f b.ospace (x.outPieces.drop x.written) s
      let q := putPieces f false (x.statPieces.drop x.statted) p.1
      let v := q.1.modSess f i fun y => { y with written := x.outPieces.length - p.2.length, statted := x.statPieces.length - q.2.length }
      (∀ a, (((p.2.take 1 ++ q.2.take 1).filter (·.bad)).map (·.addr)).min? = some a →
        exec (.attnOutputWrite fn i) s = .next (v.sessFail f i .poison (granuleDetail a)).settle) ∧
      ((((p.2.take 1 ++ q.2.take 1).filter (·.bad)).map (·.addr)).min? = none → p.2 ≠ [] ∨ q.2 ≠ [] →
        exec (.attnOutputWrite fn i) s = .next ((v.outPark f x.op b.ospace p.2).outPark f x.op false q.2).settle) ∧
      (p.2 = [] → q.2 = [] →
        exec (.attnOutputWrite fn i) s = .next ((((v.sess f i).finish.elim (v.sessFree f i) fun j => (v.sessFree f i).endOp f j .ok 0 0).endOp f
          (v.sess f i).op .ok ((v.sess f i).bd.nq * (v.sess f i).bd.nqh * scalarBytes (v.sess f i).bd.ofmt (v.sess f i).bd.d) (v.sess f i).emptyRows).settle))))

/-- R290, R296, R314: control and scalar instructions of the program form. An instruction that issues moves its copy to the next
instruction, a jump to the one it names; END waits for outstanding operations, then ends the copy and, with the last copy, the launch
(receives posted are withdrawn, those whose message matched stay until it is placed); MOVI, ALU,
ARG, ID, TIME, EXC and TREAD set register A; SAFEPOINT parks a copy that is asked to give up its block, and otherwise waits for its slot
or goes on. -/
def Obligations.ProgramScalars : Prop :=
  ∀ (r : CopyRef) (s : State) (k : Ctx),
    (Issues s r 0x00 k → exec (.tpfNop r) s = .next (s.retire k id)) ∧
    (Issues s r 0x01 k →
      (k.c.busy = true → exec (.tpfEnd r) s = .next (s.modCopy k.f k.li k.ci fun c => { c with st := .waiting })) ∧
      (k.c.busy = false → exec (.tpfEnd r) s = .next
        (((s.retire k fun c =>
          { c with st := .done, endCode := k.x.aux, preempt := none,
                   ops := (c.ops.filter (s.matchedRecv k.f k.li k.ci)).map fun a => { a with slot := none } }).modFn k.f fun x =>
            { x with mlists := x.mlists.map fun m => (m.1, { m.2 with posted := m.2.posted.filter fun p =>
              match p.to_ with | .prog l c _ => ¬ (l = k.li ∧ c = k.ci) | _ => true }) }).modLaunch k.f k.li fun l =>
              { l with state := if l.copies.all (fun c => c.2.st = .done) then .ending else l.state }))) ∧
    (Issues s r 0x02 k → exec (.tpfJmp r) s = .next (s.retire k fun c => { c with pc := k.x.imm })) ∧
    (Issues s r 0x03 k →
      (brCond (k.x.fl % 8) (k.reg k.x.a) (k.reg k.x.b) = true → exec (.tpfBr r) s = .next (s.retire k fun c => { c with pc := k.x.imm })) ∧
      (brCond (k.x.fl % 8) (k.reg k.x.a) (k.reg k.x.b) = false → exec (.tpfBr r) s = .next (s.retire k id))) ∧
    (Issues s r 0x04 k →
      let v := (k.reg k.x.a + (2 ^ 64 - 1)) % 2 ^ 64
      (v ≠ 0 → exec (.tpfLoop r) s = .next (s.retire k fun c => { c with regs := aset c.regs k.x.a v, pc := k.x.imm })) ∧
      (v = 0 → exec (.tpfLoop r) s = .next (s.retire k fun c => { c with regs := aset c.regs k.x.a v }))) ∧
    (Issues s r 0x05 k →
      (k.c.preempt.isSome → k.x.fl.testBit 0 = true → exec (.tpfSafepoint r) s = .next
        (s.modCopy k.f k.li k.ci fun c => { c with st := .parking })) ∧
      (k.c.preempt.isSome → k.x.fl.testBit 0 = false → exec (.tpfSafepoint r) s = .next
        (s.retire k fun c => { c with st := .parking })) ∧
      (k.c.preempt = none → k.x.fl.testBit 0 = false → exec (.tpfSafepoint r) s = .next (s.retire k id)) ∧
      (k.c.preempt = none → k.x.fl.testBit 0 = true → s.tallyCount k.f (k.slot k.x.a) < (k.reg k.x.b + k.x.imm) % 2 ^ 64 →
        exec (.tpfSafepoint r) s = .next (s.modCopy k.f k.li k.ci fun c => { c with st := .waiting }))) ∧
    (Issues s r 0x10 k → exec (.tpfMovi r) s = .next (s.setX k k.x.imm)) ∧
    (Issues s r 0x11 k → exec (.tpfAlu r) s = .next
      (s.setX k (aluOp (k.x.fl % 16) (k.reg k.x.b) (if k.x.fl.testBit 7 = true then k.x.imm else k.reg k.x.c)))) ∧
    (Issues s r 0x12 k → exec (.tpfArg r) s = .next (s.setX k (k.l.args.getD k.x.b 0))) ∧
    (Issues s r 0x13 k → exec (.tpfId r) s = .next (s.setX k
      (if k.x.b = 0 then k.ci else if k.x.b = 1 then k.l.copies.length else if k.x.b = 2 then k.c.block.getD 0 else (s.fn k.f).gen))) ∧
    (Issues s r 0x14 k → exec (.tpfTime r) s = .next (s.setX k s.clk.time)) ∧
    (Issues s r 0x15 k → exec (.tpfExc r) s = .next (s.retire k fun c =>
      { c with regs := aset c.regs k.x.a c.exc, exc := if k.x.fl.testBit 0 = true then 0 else c.exc })) ∧
    (Issues s r 0x16 k → exec (.tpfTread r) s = .next (s.setX k (s.tallyCount k.f (k.slot k.x.b))))

/-- R293, R296, R297, R298, R299, R300, R301, R302: tile instructions, messages and tally slots of the program form. TLOAD and TSTORE of
an aligned address and pitch become outstanding operations, and others end the launch RANGE; the arithmetic writes tile A with its result, adds its exception counts and
sets its flags; SEND and RECV become outstanding, and go to their port; TADD and TSET change a slot's tally; TWAIT holds the copy until
the tally reaches its threshold. -/
def Obligations.ProgramTiles : Prop :=
  ∀ (r : CopyRef) (s : State) (k : Ctx),
    (Issues s r 0x20 k → 32 ≤ k.c.outstanding →
      exec (.tpfTload r) s = .next (s.modCopy k.f k.li k.ci fun c => { c with st := .waiting })) ∧
    (Issues s r 0x20 k → k.c.outstanding < 32 → k.x.fl.testBit 1 = true →
      let d := k.decl k.x.a
      (k.x.imm % 64 = 0 → d.rowPitch % 64 = 0 → d.rowBytes ≤ d.rowPitch →
        exec (.tpfTload r) s = .next (s.issueAsync k { id := 0, insn := k.c.pc, op := 0x20, tile := k.x.a, slot := k.ten, slice := k.x.fl.testBit 0, const := true, addr := k.x.imm, pitch := d.rowPitch, bytes := d.bytes, snap := ⟨[], []⟩ }))) ∧
    (Issues s r 0x20 k → k.c.outstanding < 32 → k.x.fl.testBit 1 = false →
      let d := k.decl k.x.a
      let addr := (k.reg k.x.b + k.x.imm) % 2 ^ 64
      let pitch := if k.reg k.x.c = 0 then d.rowBytes else k.reg k.x.c
      (addr % 64 = 0 → pitch % 64 = 0 → d.rowBytes ≤ pitch →
        exec (.tpfTload r) s = .next (s.issueAsync k { id := 0, insn := k.c.pc, op := 0x20, tile := k.x.a, slot := k.ten, slice := k.x.fl.testBit 0, const := false, addr := addr, pitch := pitch, bytes := d.bytes, snap := ⟨[], []⟩ })) ∧
      (addr % 64 ≠ 0 ∨ pitch % 64 ≠ 0 ∨ pitch < d.rowBytes → exec (.tpfTload r) s = .next (s.faultCopy k.f k.li k.ci k.c.pc .range))) ∧
    (Issues s r 0x21 k → k.c.outstanding < 32 →
      let d := k.decl k.x.a
      let addr := (k.reg k.x.b + k.x.imm) % 2 ^ 64
      let pitch := if k.reg k.x.c = 0 then d.rowBytes else k.reg k.x.c
      (addr % 64 = 0 → pitch % 64 = 0 → d.rowBytes ≤ pitch →
        exec (.tpfTstore r) s = .next (s.issueAsync k { id := 0, insn := k.c.pc, op := 0x21, tile := k.x.a, slot := k.ten, slice := k.x.fl.testBit 0, const := false, addr := addr, pitch := pitch, bytes := d.bytes, snap := s.tile k k.x.a })) ∧
      (addr % 64 ≠ 0 ∨ pitch % 64 ≠ 0 ∨ pitch < d.rowBytes → exec (.tpfTstore r) s = .next (s.faultCopy k.f k.li k.ci k.c.pc .range))) ∧
    (Issues s r 0x22 k →
      let v := tcopy (k.decl k.x.a) (k.decl k.x.b) (s.tile k k.x.b) (k.x.fl.testBit 0)
      exec (.tpfTcopy r) s = .next (s.tileDone k v.1 v.2)) ∧
    (Issues s r 0x23 k → exec (.tpfTfill r) s = .next (s.tileDone k (tfill (k.decl k.x.a) k.x.imm).1 (tfill (k.decl k.x.a) k.x.imm).2)) ∧
    (Issues s r 0x24 k →
      let v := mma (k.decl k.x.a) (k.decl k.x.b) (k.decl k.x.c) (s.tile k k.x.a) (s.tile k k.x.b) (s.tile k k.x.c) (k.x.fl.testBit 0)
      exec (.tpfMma r) s = .next (s.tileDone k v.1 v.2)) ∧
    (Issues s r 0x25 k →
      let v := vop (k.decl k.x.a) (k.decl k.x.b) (k.decl k.x.c) (s.tile k k.x.a) (s.tile k k.x.b) (s.tile k k.x.c) k.x.fl
        (decNum 0 (k.reg k.x.c % 2 ^ 32))
      exec (.tpfVop r) s = .next (s.tileDone k v.1 v.2)) ∧
    (Issues s r 0x26 k →
      let v := vfn (k.decl k.x.a) (k.decl k.x.b) (s.tile k k.x.b) k.x.fl (k.x.imm % 2 ^ 32)
      exec (.tpfVfn r) s = .next (s.tileDone k v.1 v.2)) ∧
    (Issues s r 0x27 k →
      let v := vred (k.decl k.x.a) (k.decl k.x.b) (s.tile k k.x.b) k.x.fl
      exec (.tpfVred r) s = .next (s.tileDone k v.1 v.2)) ∧
    (Issues s r 0x28 k →
      let noef := k.x.fl.testBit 0
      let v := quant (k.decl k.x.a) (k.decl k.x.b) (k.decl k.x.c) (s.tile k k.x.b) (s.tile k k.x.c) noef
      exec (.tpfQuant r) s = .next ((if noef = true then s else s.putTile k k.x.c v.2.1).tileDone k v.1 v.2.2)) ∧
    (Issues s r 0x30 k → k.c.outstanding < 32 →
      let a : Async := { id := k.c.nextOp, insn := k.c.pc, op := 0x30, tile := k.x.b, slot := k.ten, port := k.x.a, bytes := (k.decl k.x.b).bytes, snap := s.tile k k.x.b }
      let b := { a with peer := some (k.reg k.x.c), tag := k.x.imm }
      let c := { a with tag := (k.bind.base + k.reg k.x.c + k.x.imm) % 2 ^ 64 }
      (k.kind = 4 → k.reg k.x.c < k.l.copies.length → exec (.tpfSend r) s = .next ((s.issueAsync k b).peerAccept k.f k.li k.ci b)) ∧
      (k.kind ≠ 4 → exec (.tpfSend r) s = .next ((s.issueAsync k c).progSend k.f k.li k.ci k.p k.l c))) ∧
    (Issues s r 0x31 k → k.c.receives < 64 → k.kind = 4 →
      exec (.tpfRecv r) s = .next (s.issueAsync k { id := k.c.nextOp, insn := k.c.pc, op := 0x31, tile := k.x.b, slot := k.ten, port := k.x.a, bytes := (k.decl k.x.b).bytes, tag := k.x.imm, peer := some 0 })) ∧
    (Issues s r 0x31 k → k.c.receives < 64 → k.kind ≠ 4 → s.precvUsed k.f < s.qPrecv k.f →
      let tag := (k.bind.base + k.reg k.x.c + k.x.imm) % 2 ^ 64
      let t := s.issueAsync k { id := k.c.nextOp, insn := k.c.pc, op := 0x31, tile := k.x.b, slot := k.ten, port := k.x.a, bytes := (k.decl k.x.b).bytes, tag := tag }
      (∀ m, t.mlist? k.f k.bind.list = some m → exec (.tpfRecv r) s = .next (t.postRecv k.f k.bind.list 0
        { to_ := .prog k.li k.ci k.c.nextOp, ctag := 0, src := k.bind.src, laddr := 0, len := (k.decl k.x.b).bytes, slice := true,
          tag := BitVec.ofNat 64 tag, ignore := BitVec.ofNat 64 k.bind.ignore })) ∧
      (t.mlist? k.f k.bind.list = none → exec (.tpfRecv r) s = .next (t.progStatus k.f k.li k.ci k.c.nextOp .range 0))) ∧
    (Issues s r 0x40 k → exec (.tpfTadd r) s = .next
      ((s.tallyAdd k.f (k.slot k.x.a) ((k.reg k.x.b + k.x.imm) % 2 ^ 64)).retire k id).settle) ∧
    (Issues s r 0x41 k →
      ((k.reg k.x.b + k.x.imm) % 2 ^ 64 ≤ s.tallyCount k.f (k.slot k.x.a) → exec (.tpfTwait r) s = .next (s.retire k id)) ∧
      (s.tallyCount k.f (k.slot k.x.a) < (k.reg k.x.b + k.x.imm) % 2 ^ 64 →
        exec (.tpfTwait r) s = .next (s.modCopy k.f k.li k.ci fun c => { c with st := .waiting }))) ∧
    (Issues s r 0x42 k → exec (.tpfTset r) s = .next
      ((s.tallyPut k.f (k.slot k.x.a) ((k.reg k.x.b + k.x.imm) % 2 ^ 64)).retire k id).settle)

/-- R290, R296: what issuing leaves unchanged. An instruction that sets register A leaves the copy's other registers, its tiles and its
block as they were and moves it to the next instruction; the launch counts one more; other copies, other launches, other functions, all of
memory, the ports and the registers are unchanged. -/
def Obligations.ProgramScalarFrame : Prop :=
  ∀ (s : State) (k : Ctx) (v : Nat), aget (s.fn k.f).launches k.li = some k.l → aget k.l.copies k.ci = some k.c →
    let t := s.setX k v
    (∃ l, aget (t.fn k.f).launches k.li = some l ∧ l.retired = satAdd (2 ^ 64 - 1) k.l.retired 1 ∧
      aget l.copies k.ci = some { k.c with regs := aset k.c.regs k.x.a (v % 2 ^ 64), pc := k.c.pc + 1, st := .running } ∧
      (∀ j : Nat, j ≠ k.ci → aget l.copies j = aget k.l.copies j)) ∧
    (∀ i : Nat, i ≠ k.x.a → agetD (aset k.c.regs k.x.a (v % 2 ^ 64)) i 0 = agetD k.c.regs i 0) ∧
    (∀ i : Nat, i ≠ k.li → aget (t.fn k.f).launches i = aget (s.fn k.f).launches i) ∧
    (∀ f : Nat, f ≠ k.f → t.fn f = s.fn f) ∧
    t.mem = s.mem ∧ t.ports = s.ports ∧ t.regs = s.regs ∧ t.parts = s.parts ∧ t.jrnl = s.jrnl ∧ t.clk = s.clk

/-- R303, R307, R308, R309, R310, R311, R313: programs and launches. PROG_LOAD of an image that the loader takes gives it the lowest free
handle and its SAVESIZE, of a poisoned one ends POISON, and of one that it refuses ends RANGE with the reason and index; PROG_UNLOAD takes it away; PROG_LAUNCH of a legal body starts a launch, STARTING, which then is RUNNING;
PROG_STOP makes it STOPPING; PROG_QUERY writes its record; a STOPPING launch with nothing outstanding ends with the fault's status, or
FLUSHED, and PROG_STOP OK; an ENDING one ends OK, and is FREE once its completion is written and no matched receive is left. -/
def Obligations.Launches : Prop :=
  (∀ (e : Entry) (s : State),
    let f := e.fn.idx
    let id := s.opId e
    (∀ (slice : Bool) (image len off n : Nat), Ready s e len1 false → 64 ≤ len → len ≤ 2 ^ 26 → off % 4096 = 0 →
      (slice = true → s.sliceCheck f image len = []) → (slice = false → Usable s f [(image, len, false)]) →
      s.sliceCheck f off n = [] ∨ n = 0 →
      let t := s.begun e 0x300 (.progLoad e slice image len off n)
      let bs := t.locRead f slice image len
      let h := firstGap ((s.fn f).progs.map (·.1)) 0
      let p := loadProg bs off n
      let u := t.locUse f slice image len
      (∀ a, t.locPoison f slice image len = some a →
        exec (.progLoad e slice image len off n) s = .next (t.endOp f id .poison 0 (granuleDetail a))) ∧
      (t.locPoison f slice image len = none →
        (∀ why i, loadFail bs len n (s.fn f).progs.length = some (why, i) →
          exec (.progLoad e slice image len off n) s = .next (u.endOp f id .range 0 (why + 2 ^ 16 * i))) ∧
        (loadFail bs len n (s.fn f).progs.length = none →
          exec (.progLoad e slice image len off n) s = .next
            (((((u.sliceWrite f off (u.openBytes n)).bump).sliceWrite f p.constOff (poolOf bs)).modFn f fun x =>
              { x with progs := aset x.progs h p }).endOp f id .ok p.saveSize h)))) ∧
    (∀ (h : Nat) (p : Prog), Ready s e len1 false → aget (s.fn f).progs h = some p →
      ((s.fn f).launches.any fun l => l.2.state ≠ .free && l.2.handle = h) = false →
      exec (.progUnload e h) s = .next (((s.begun e 0x301 (.progUnload e h)).modFn f fun x => { x with progs := adel x.progs h }).endOp f id .ok 0 0)) ∧
    (∀ (b : LaunchBody) (p : Prog), Ready s e len2 false → aget (s.fn f).progs b.handle = some p → Usable s f (launchRanges b p) →
      let t := s.begun e 0x302 (.progLaunch e b)
      let rs := launchRanges b p
      let u := rs.foldl (fun s r => s.hostReadFill f r.1 r.2.1) t
      let rd := fun (r : Nat × Nat × Bool) => u.hostBytes f r.1 r.2.1
      let entry := fun (i : Nat) => ((rd (rs.getD 1 (0, 0, false))).drop (32 * i)).take 32
      let slots := (List.range (popCount 64 b.blks * p.nslot)).map fun i => numAt (rd (rs.getD 2 (0, 0, false))) (2 * i) 2
      t.launchChecks f b = [] → rs.findSome? (fun r => t.locPoison f false r.1 r.2.1) = none → t.initBad f p = none →
      ((List.range p.nport).any fun i => u.portBad f (p.pkind.getD i 0) (entry i)) = false → (slots.any fun t => ¬ u.tallyOk f t) = false →
      exec (.progLaunch e b) s = .next (u.launchStart f id b p ((List.range 16).map fun i => numAt (rd (rs.getD 0 (0, 0, false))) (8 * i) 8)
        ((List.range p.nport).map fun i => portBind (p.pkind.getD i 0) (entry i)) slots)) ∧
    (∀ lref : Nat, Ready s e len1 false →
      let i := lrefIndex lref
      let l := s.launch f i
      l.key = lrefKey lref →
      (l.state = .starting ∨ l.state = .running → exec (.progStop e lref) s = .next
        (((s.begun e 0x303 (.progStop e lref)).modLaunch f i fun l => { l with stop := some id }).stopLaunch f i)) ∧
      (∀ addr : Nat, l.state ≠ .free → Usable s f [(addr, l.record.length, true)] → exec (.progQuery e lref addr) s = .next
        (((s.begun e 0x304 (.progQuery e lref addr)).hostWrite f addr l.record).endOp f id .ok l.record.length 0)))) ∧
  (∀ (fn : Fn) (i : Nat) (s : State),
    let f := fn.idx
    let l := s.launch f i
    (l.state = .starting → (l.copies.all fun c => match c.2.block with | some b => s.regionLive (regionOf b) | none => true) = true →
      exec (.launchRunning fn i) s = .next (s.modLaunch f i fun x => { x with state := .running })) ∧
    (l.state = .stopping → l.copies.all (fun c => ¬ c.2.busy ∧ ¬ c.2.ops.any (s.matchedRecv f i c.1)) = true →
      let t := s.endOp f l.op (l.fault.getD (.flushed, 0)).1 0 (l.fault.getD (.flushed, 0)).2
      (∀ id, l.stop = some id → exec (.launchStopped fn i) s = .next ((t.endOp f id .ok 0 0).launchFree f i).settle) ∧
      (l.stop = none → exec (.launchStopped fn i) s = .next (t.launchFree f i).settle)) ∧
    (l.state = .ending → l.copies.all (fun c => ¬ c.2.ops.any (s.matchedRecv f i c.1)) = true →
      let t := if (s.op? f l.op).isSome then s.endOp f l.op .ok l.written l.endDetail else s
      let wait := (t.fn f).rings.any fun r => r.2.waiting.any fun c => c.op = some l.op
      (wait = false → exec (.launchEnded fn i) s = .next (t.launchFree f i).settle) ∧
      (wait = true → exec (.launchEnded fn i) s = .next t.settle)))

/-- R293, R294, R295, R300, R301, R312, R314, R315, R316, R317: what a running copy's operations and pre-emption do. An operation that has what
it waits for ends: a TLOAD fills its tile, a TSTORE writes its rows, a SEND counts its bytes, a RECV puts its message into the tile; a refused
SEND goes again after its hint; a PEER message goes from the first queued SEND to the first posted RECV, and a poisoned one ends POISON;
a PARKING copy with nothing outstanding saves its state, and faults where its slot's page has no key or a tile is poisoned; the lowest
PARKED copy resumes on the lowest free block with what its slot holds; one that stays away from SAFEPOINT past SPWAIT stops its launch. -/
def Obligations.CopyEvents : Prop :=
  ∀ (r : CopyRef) (s : State),
    let f := r.fn.idx
    let l := r.launch
    let c := r.copy
    (∀ (op : Nat) (p : Prog) (a : Async), s.async? f l c op = some (p, a) →
      (∀ st : Status, a.op = 0x20 ∨ a.op = 0x21 → a.status = some st → exec (.asyncOpEnd r op) s = .next (s.asyncDone f l c a st).settle) ∧
      (a.op = 0x20 → a.status = none → exec (.asyncOpEnd r op) s = .next (s.tloadEnd f l c p a).settle) ∧
      (a.op = 0x21 → a.status = none → exec (.asyncOpEnd r op) s = .next (s.tstoreEnd f l c p a).settle) ∧
      (∀ st : Status, a.op = 0x30 → a.status = some st → a.retry = none → exec (.asyncOpEnd r op) s = .next
        (((s.modLaunch f l fun x => { x with written := satAdd (2 ^ 64 - 1) x.written (if st.good then a.bytes else 0) }).asyncDone f l c a st).settle)) ∧
      (∀ m, a.op = 0x31 → ((s.fn f).progRx.find? fun z => z.1 = l ∧ z.2.1 = c ∧ z.2.2.1 = op) = some m → exec (.asyncOpEnd r op) s = .next
        ((s.modFn f fun x => { x with progRx := dropFirst x.progRx fun y => y = m }).recvPut f l c p a m.2.2.2.2).settle) ∧
      (a.op = 0x31 → ((s.fn f).progRx.find? fun z => z.1 = l ∧ z.2.1 = c ∧ z.2.2.1 = op) = none →
        (∀ bs : List Byte, a.got = some bs → exec (.asyncOpEnd r op) s = .next (s.recvPut f l c p a bs).settle) ∧
        (∀ st : Status, a.got = none → a.status = some st → exec (.asyncOpEnd r op) s = .next (s.asyncDone f l c a st).settle))) ∧
    (∀ (op now t : Nat) (p : Prog) (a : Async), (s.tick now).async? f l c op = some (p, a) → a.retry = some t → t ≤ (s.tick now).now →
      exec (.sendRetry r op now) s = .next ((s.tick now).progSend f l c p ((s.tick now).launch f l) a)) ∧
    (∀ (op t : Nat) (p : Prog) (a x : Async), s.async? f l c op = some (p, a) → a.peer = some t → a.op = 0x30 → a.status = none →
      ((s.copy f l t).peerQ.find? fun m => m.1 = a.port ∧ m.2.2.2 = a.tag) = some (a.port, c, op, a.tag) →
      ((s.copy f l t).ops.find? fun x => x.op = 0x31 ∧ x.peer.isSome ∧ x.port = a.port ∧ x.tag = a.tag ∧ x.got.isNone ∧ x.status.isNone) = some x →
      let bs := (p.tiles.getD a.tile ⟨0, 1, 1, none⟩).sendable a.snap
      (bs.length < a.bytes → exec (.peerMessageTransfer r op) s = .next
        (((s.modCopy f l t fun y => { y with peerQ := dropFirst y.peerQ fun z => z = (a.port, c, op, a.tag) }).modAsync f l c op fun y =>
          { y with status := some .poison }).peerNext f l t a.port)) ∧
      (a.bytes ≤ bs.length → exec (.peerMessageTransfer r op) s = .next
        ((((s.modCopy f l t fun y => { y with peerQ := dropFirst y.peerQ fun z => z = (a.port, c, op, a.tag) }).modAsync f l t x.id fun y =>
          { y with got := some bs }).modAsync f l c op fun y => { y with status := some .ok }).peerNext f l t a.port))) ∧
    (∀ p : Prog, aget (s.fn f).progs (s.launch f l).handle = some p → (s.launch f l).state = .running →
      ((s.copy f l c).st = .parking → (s.copy f l c).busy = false →
        (match (s.copy f l c).block with | some b => s.regionLive (regionOf b) | none => false) = true →
        (∀ st, pick (s.sliceCheck f ((s.launch f l).slotOff p c) p.saveSize ++ ck ((s.copy f l c).poisoned p = true) .poison) = some st →
          exec (.copySave r) s = .next (s.faultCopy f l c (s.copy f l c).pc st)) ∧
        (s.sliceCheck f ((s.launch f l).slotOff p c) p.saveSize = [] → (s.copy f l c).poisoned p = false →
          exec (.copySave r) s = .next (((s.slotWrite f l c p).modLaunch f l fun x =>
            { x with preempts := satAdd (2 ^ 64 - 1) x.preempts 1 }).modCopy f l c fun y => { y with st := .parked, block := none, preempt := none }))) ∧
      (∀ b : Nat, (s.copy f l c).st = .parked → ((s.launch f l).copies.find? fun z => z.2.st = .parked).map (·.1) = some c →
        ((List.range 64).find? fun b => s.blockFree f b) = some b → s.starts f = true →
        ((s.locPoison f true ((s.launch f l).slotOff p c) p.saveSize).isSome = true →
          exec (.copyResume r b) s = .next (s.faultCopy f l c (s.copy f l c).pc .poison)) ∧
        (s.locPoison f true ((s.launch f l).slotOff p c) p.saveSize = none → s.slotKept f l c p = true →
          exec (.copyResume r b) s = .next ((s.modCopy f l c fun _ => { s.copy f l c with st := .running, block := some b, saved := [] }).wakeBlocks
            (2 ^ b))) ∧
        (s.locPoison f true ((s.launch f l).slotOff p c) p.saveSize = none → s.slotKept f l c p = false →
          exec (.copyResume r b) s = .next ((s.bump.modCopy f l c fun _ =>
            { s.openCopy p (s.copy f l c) with st := .running, block := some b, saved := [] }).wakeBlocks (2 ^ b))))) ∧
    (∀ now t : Nat, (s.copy f l c).preempt = some t → (s.launch f l).state = .running ∨ (s.launch f l).state = .starting →
      (s.copy f l c).st = .running ∨ (s.copy f l c).st = .waiting →
      t + 1000 * (s.launch f l).spwait ≤ (s.tick now).now →
      exec (.spwaitExpiry r now) s = .next ((((s.tick now).modLaunch f l fun x => { x with fault := some (.flushed, 0xFFFF + 2 ^ 16 * c) }).stopLaunch f l).jMust
        (ownerOf f) (.partcmd 0x302 (partOf f) .flushed 0)))

/-- R391, R393, R394, R396, R397, R398, R399, R402, R403, R406, R407: the partition commands. Each that is legal is journalled; PART_APPLY of a holding
record makes the partition RESIZING and pre-empts the copies of blocks that leave, and of an empty one resets the instance; PART_RESET
resets it; PART_FREEZE makes it FREEZING; PART_SAVE writes the image; PART_THAW makes it ACTIVE; PART_QUERY writes its record. The open
values in an image are log 39. -/
def Obligations.PartitionCommands : Prop :=
  ∀ (e : Entry) (p : Nat) (s : State), PartReady s e p →
    let f := e.fn.idx
    let id := s.opId e
    let x := s.part p
    (∀ limit ptab : Nat,
      let t := s.begun e 0x400 (.partApply e p limit ptab)
      let r := s.partNext p
      let n := if ptab = 0 then 0 else 8 * r.spages
      let bs := t.hostBytes f ptab n
      let l := if ptab = 0 then [] else (List.range r.spages).map fun i => leNat ((bs.drop (8 * i)).take 8)
      (n ≠ 0 → Usable s f [(ptab, n, false)]) → t.applyRange p r ptab l = false → t.locPoison f false ptab n = none ∨ n = 0 →
      t.applyState p r = false →
      let u := t.partTaken f id 0x400 p (((List.range 8).flatMap fun i => leBytes 8 (r.word i)).map (·.toNat) ++ bs.map (·.toNat))
      let a : Applying := ⟨r, l, f, id, u.now + 1000000 * (if limit = 0 then 1000 else limit), ! r.holds, decide (ptab ≠ 0), decide (x.state = .empty)⟩
      let v := u.modPart p fun y => { y with apply := some a }
      let w := v.modPart p fun y => { y with state := .resizing }
      (r.holds = false → exec (.partApply e p limit ptab) s = .next ((v.modPart p fun y => { y with release := true }).tdiReset p)) ∧
      (r.holds = true → exec (.partApply e p limit ptab) s = .next
        ((if (x.tdi = 1 ∨ x.tdi = 2) ∧ ¬ (x.cur.mild r = true ∧ ptab = 0) then w.tdiReset p else w).preemptBlocks (4 + p) fun b =>
          ! r.blks.testBit b))) ∧
    (x.state ≠ .empty → exec (.partReset e p) s = .next (((s.begun e 0x401 (.partReset e p)).partTaken f id 0x401 p []).tdiReset p)) ∧
    (∀ limit : Nat, x.state = .active → x.apply = none → x.tdi ≠ 1 → x.tdi ≠ 2 →
      let u := (s.begun e 0x402 (.partFreeze e p limit)).partTaken f id 0x402 p []
      let z : Freezing := ⟨f, id, u.now + 1000000 * (if limit = 0 then 1000 else limit), 0⟩
      let v := (u.modPart p fun y => { y with state := .freezing, freeze := some z, saved := false, restored := false }).stopAll (4 + p) true
      exec (.partFreeze e p limit) s = .next
        (if (v.fn (4 + p)).sess.any (fun y => y.2.state ≠ .free) then v.freezeCancel p else v.preemptBlocks (4 + p) fun _ => true)) ∧
    (x.state = .frozen → x.saved = false → x.apply = none →
      let u := (s.begun e 0x405 (.partThaw e p)).partTaken f id 0x405 p []
      let n := if x.restored = true then
          ((u.fn (4 + p)).conns.filter fun c => c.2.state.live || c.2.state = .connecting || c.2.state = .slowpath).length
        else u.connCount (4 + p)
      exec (.partThaw e p) s = .next ((u.thaw p).partEnd f id p .ok 0 n).settle) ∧
    (∀ addr : Nat,
      let u := (s.begun e 0x406 (.partQuery e p addr)).partTaken f id 0x406 p []
      Usable u f [(addr, (u.partRecord p).length, true)] →
      exec (.partQuery e p addr) s = .next ((u.hostWrite f addr (u.partRecord p)).endOp f id .ok (u.partRecord p).length 0)) ∧
    (∀ addr n m : Nat, x.state = .frozen → m < 4 → 0 < n → n ≤ 4096 →
      let t := s.begun e 0x403 (.partSave e p addr n m)
      let ext := extentsOf n (t.hostBytes f addr (16 * n))
      Usable t f [(addr, 16 * n, false)] → Usable t f (ext.map fun y => (y.1, y.2, true)) →
      t.locPoison f false addr (16 * n) = none → extentsBad ext = false → x.imgLen ≤ extentsLen ext → (s.mslot p m).isSome = true →
      let u := t.partTaken f id 0x403 p []
      let bs := u.imageBytes p m
      let im : Image := ⟨bs, (u.mslot p m).getD 0, u.fn (4 + p), x.cur.spages, u.sliceCells p, u.slicePoison p,
        (List.range x.cur.spages).map fun i => (u.pageEnt (x.cur.sbase + i)).ksel % 4⟩
      let v := (writeExtents { u with images := u.images ++ [im] }.bump.bump f ext bs).modPart p fun y => { y with saved := true }
      exec (.partSave e p addr n m) s =
        .next ((v.jCommit (v.originOf f) (jKey 10 p m .ok 0 0 0 1 0 (leNat u.saltBytes))).partEnd f id p .ok bs.length 0))

/-- R397, R403, R404, R405: PART_RESTORE into an ACTIVE partition that is clean, from extents that hold MITT, version 1 and a length that fits.
An image whose bytes authenticate under the contribution of its migration slot, with no reserved TYPE, whose uses the record covers and whose
selectors are live, loads and leaves the partition FROZEN; one whose later records do not authenticate clears the slice and ends AUTH; one
whose head does not ends AUTH with nothing loaded; both leave the partition ACTIVE (log 39). -/
def Obligations.PartitionRestore : Prop :=
  ∀ (e : Entry) (p addr n m : Nat) (s : State), PartReady s e p →
    let f := e.fn.idx
    let id := s.opId e
    let x := s.part p
    let t := (s.begun e 0x404 (.partRestore e p addr n m)).modPart p fun y => { y with state := .restoring, restoreOp := some (f, id) }
    let ext := extentsOf n (t.hostBytes f addr (16 * n))
    let bs := t.readExtents f ext
    let len := leNat ((bs.drop 40).take 8)
    Usable t f [(addr, 16 * n, false)] → Usable t f (ext.map fun y => (y.1, y.2, false)) →
    x.state = .active → x.clean = true → x.apply = none → m < 4 → 0 < n → n ≤ 4096 →
    t.locPoison f false addr (16 * n) = none → extentsBad ext = false → leNat (bs.take 4) = 0x4D495454 → leNat ((bs.drop 4).take 2) = 1 →
    len ≤ extentsLen ext → 64 ≤ len → ext.any (fun e => (t.locPoison f false e.1 e.2).isSome) = false →
    ∀ v : Nat, t.mslot p m = some v →
      (t.imageFor (bs.take len) v = none →
        exec (.partRestore e p addr n m) s = .next ((t.partCmd f id 0x404 p [] [.auth] fun s => s).restoreBack f id p)) ∧
      (∀ (i : Image) (whole : Bool), t.imageFor (bs.take len) v = some (i, false, whole) → t.covers p i = true →
        (i.ksels.all fun k => t.keyLive (4 * p + k)) = true →
        let u := t.partTaken f id 0x404 p []
        let w := ((u.imageLoad p i).modPart p fun y => { y with imgLen := imageLen u.free, imgSeed := u.free }).bump
        (whole = true → exec (.partRestore e p addr n m) s = .next
          ((w.jCommit (w.originOf f) (jKey 11 p m .ok 0 0 0 1 0 (leNat ((bs.drop 16).take 16)))).partEnd f id p .ok len 0)) ∧
        (whole = false → exec (.partRestore e p addr n m) s = .next (((u.sliceClear p).partEnd f id p .auth 0 0).restoreBack f id p)))

/-- R394, R396, R397, R399, R400, R407, R434: what happens to partitions in time and the writes of address entries. A pending record commits once
no removed block is in use, LIMIT or a freeze's LIMIT ends it BUSY, a reset is complete once no operation of the old generation is left, a
freeze reaches its point, and the quiet period after a move ends. -/
def Obligations.PartitionEvents : Prop :=
  ∀ (part : Fin 16) (now : Nat) (s : State),
    let p := part.val
    let x := s.part p
    let t := s.tick now
    (∀ a : Applying, x.apply = some a → a.release = false →
      (x.state = .resizing ∨ x.state = .active → s.blocksClear p a.rec_ = true → ∃ u : State, exec (.partApplyCommit part) s = .next u ∧ (u.part p).cur = a.rec_ ∧
        (u.part p).apply = none ∧ (u.part p).state = .active) ∧
      (a.limitAt ≤ t.now →
        let st := if x.state = .resizing then (if a.wasEmpty then .empty else .active) else x.state
        exec (.partApplyLimit part now) s = .next (((t.modPart p fun y => { y with apply := none, state := st }).unpreempt (4 + p)).partEnd a.fn a.op p .busy 0 1000))) ∧
    (∀ g : Nat, x.newGen = some g → x.state = .resetting → (s.fn (4 + p)).ops.any (fun o => o.gen = g) = false →
      let u := (s.modFn (4 + p) fun y => { y with gen := g, resetting := false }).modPart p fun y =>
        { y with newGen := none, clean := true, saved := false, state := .active, imgLen := 0 }
      let w := if x.release = true then u.releaseEnd p else u
      exec (.instanceResetComplete part) s = .next ((w.resetOps p).foldl (fun s o => s.partEnd o.1 o.2 p .ok 0 0) w)) ∧
    (∀ z : Freezing, x.freeze = some z → x.state = .freezing →
      (t.freezeStill (4 + p) = true →
        let since := if z.drainAt = 0 then t.now else z.drainAt
        (t.drained (4 + p) = true ∨ (z.drainAt ≠ 0 ∧ since + t.drainNs ≤ t.now) →
          let u := t.modAts (4 + p) fun a => { a with reqs := [], batch := [], closed := [], groups := [] }
          let v := (u.modPart p fun y => { y with state := .frozen, freeze := none, imgLen := imageLen u.free, imgSeed := u.free }).bump
          exec (.freezePoint part now) s = .next (v.partEnd z.fn z.op p .ok 0 (v.connCount (4 + p)))) ∧
        (t.drained (4 + p) = false → z.drainAt = 0 →
          exec (.freezePoint part now) s = .next (t.modPart p fun y => { y with freeze := some { z with drainAt := t.now } }))) ∧
      (z.limitAt ≤ t.now → exec (.freezeCancel part now) s = .next (t.freezeCancel p))) ∧
    (x.quietTil ≤ t.now → exec (.quietExpiry part now) s = .next (t.modPart p fun y => { y with quietTil := 0, formerIps := [] })) ∧
    (∀ (o : Origin) (index ip vid pcp ports : Nat) (ven valid : Bool), s.jrnl.full = false →
      let i := index % 16
      let en : AddrEntry := { ip := ip % 2 ^ 128, vid := vid % 2 ^ 12, pcp := pcp % 8, ven := ven, ports := (ports % 256) &&& x.cur.ports, valid := valid }
      let u := s.jCommit o (.setup (partOff p + 0x400 + 0x20 * i) 8 false ((s.addrEnt p i).word 0) (ipField ip % 2 ^ 64))
      s.addrUsed p i = false → (valid = true → s.addrClash p i en = false) →
      exec (.partAddrWrite part o index ip vid pcp ven ports valid) s = .next ((u.tdiError p).modPart p fun y => { y with addrs := aset y.addrs i en }))

/-- R332, R413, R422, R425, R426, R427, R428: the key commands, on an instance's admin ring with room in the journal. Each is journalled;
KEY_SEL_SET installs a selector key (its install nonce is a free value), KEY_SEL_CLEAR erases it, KEY_ADVANCE puts the connection in
REKEY, KEY_SEAL writes a blob, KEY_UNSEAL writes the plaintext, or zeros when the tag fails, and ends RANGE for a header that does not match, and KEY_STATUS its record. -/
def Obligations.KeyCommands : Prop :=
  ∀ (e : Entry) (s : State), isPf e.fn.idx = false → e.ring = 0 → Ready s e len1 false → s.jrnl.full = false →
    let f := e.fn.idx
    let id := s.opId e
    let p := partOf f
    (∀ sel tsel : Nat, let k := 4 * p + sel % 4
      let v := (agetD (s.part p).slots tsel {}).value
      s.keyLive k = false → s.noKeys = false → (tsel = 0xFF ∨ (tsel ≤ 7 ∧ v.isSome = true)) →
      let u := (s.begun e 0x480 (.keySelSet e sel tsel)).jCommit (s.originOf f) (jKey 3 p k .ok)
      exec (.keySelSet e sel tsel) s = .next
        ({ u.bump.bump with mem := { u.mem with keys := aset u.mem.keys k (if tsel = 0xFF then none else v, u.freeVal + 2 ^ 64 * u.bump.freeVal) } }.endOp f id .ok 0 0)) ∧
    (∀ sel : Nat, let k := 4 * p + sel % 4
      s.keyLive k = true → s.selNamed k = false →
      let u := (s.begun e 0x481 (.keySelClear e sel)).jCommit (s.originOf f) (jKey 4 p k .ok)
      exec (.keySelClear e sel) s = .next ({ u with mem := { u.mem with keys := adel u.mem.keys k } }.endOp f id .ok 0 0)) ∧
    (∀ conn : Nat, let c := s.conn f (conn % 2 ^ 20)
      c.state = .established → c.cid.herd = none → c.tx.kepoch ≠ 0xFFFF →
      exec (.keyAdvance e conn) s = .next ((s.begun e 0x482 (.keyAdvance e conn)).rekeyEnter f (conn % 2 ^ 20))) ∧
    (∀ addr : Nat, Usable s f [(addr, 64, true)] →
      let u := (s.begun e 0x485 (.keyStatus e addr)).jCommit (s.originOf f) (jKey 0 p 0 .ok)
      exec (.keyStatus e addr) s = .next ((u.hostWrite f addr (s.keyRecord p)).endOp f id .ok 64 0)) ∧
    (∀ (slot src dst len : Nat) (isp osp : Bool), slot ≤ 7 →
      let x := agetD (s.part p).slots slot {}
      s.noKeys = false → s.locMiss f isp src len false = none → s.locPoison f isp src len = none → s.locCheck f isp src len = [] →
      (∀ v : Nat, len ≤ 2 ^ 24 → s.locCheck f osp dst (len + 48) = [] → s.locMiss f osp dst (len + 48) true = none → x.value = some v →
        x.seals < 2 ^ 32 →
        let t := s.begun e 0x483 (.keySeal e slot isp osp src dst len)
        let u := t.locUse f isp src len
        let w := (u.bump.jCommit (u.originOf f) (jKey 0 p slot .ok)).modPart p fun y => { y with slots := aset y.slots slot { x with seals := x.seals + 1 } }
        exec (.keySeal e slot isp osp src dst len) s = .next
          ((w.locWrite f osp dst (blobOf p slot v (u.openBytes 12) (t.locRead f isp src len))).endOp f id .ok (len + 48) 0)) ∧
      (∀ v : Nat, 48 ≤ len → len ≤ 2 ^ 24 + 48 → s.locCheck f osp dst (len - 48) = [] → s.locMiss f osp dst (len - 48) true = none → x.value = some v →
        let t := s.begun e 0x484 (.keyUnseal e slot isp osp src dst len)
        let b := t.locRead f isp src len
        let u := t.locUse f isp src len
        let key := sealKey p slot v
        let iv := beNat ((b.drop 8).take 12)
        let ct := (b.take (len - 16)).drop 32
        (blobFits p len b = false → exec (.keyUnseal e slot isp osp src dst len) s = .next
          ((u.jCommit (u.originOf f) (jKey 0 p slot .range)).endOp f id .range 0 0)) ∧
        (blobFits p len b = true → gcmTag key iv (b.take 32) ct = b.drop (len - 16) → exec (.keyUnseal e slot isp osp src dst len) s = .next
          (((u.jCommit (u.originOf f) (jKey 0 p slot .ok)).locWrite f osp dst (gcmXor key iv ct)).endOp f id .ok (len - 48) 0)) ∧
        (blobFits p len b = true → gcmTag key iv (b.take 32) ct ≠ b.drop (len - 16) → exec (.keyUnseal e slot isp osp src dst len) s = .next
          (((u.jCommit (u.originOf f) (jKey 0 p slot .auth)).locWrite f osp dst (List.replicate (len - 48) 0)).endOp f id .auth 0 0))))

/-- R414, R432, R433, R434, R521: the requests of the SPDM endpoints, in the firmware's turn. A contribution request in the session that locked the TDI changes its slot
and is journalled; a session opens while fewer than 4 are open; measurements answer their digests; IDE keys are programmed in a session of
the link's own PF; TDISP requests move the TDI; a failed integrity check makes the stream Insecure and puts every TDI bound to it in
ERROR. Digests and whether a key can be made are Config values. -/
def Obligations.SecurityRequests : Prop :=
  (∀ (part : Fin 16) (session kind slot value : Nat) (s : State), s.responds (.vf part) = true → s.fwTurn 4 = true → s.jrnl.full = false →
    s.contribOpen part.val session = true →
    kind ≤ 1 → slot < (if kind = 0 then 8 else 4) →
    let p := part.val
    let put := fun (code : Nat) (g : Slot) =>
      ((s.jCommit (s.originOf (4 + p)) (jKey code p slot .ok 0 0 0 kind)).modPart p fun x =>
        if kind = 0 then { x with slots := aset x.slots slot g } else { x with mslots := aset x.mslots slot g }).emit (.spdm code .ok 0 [])
    exec (.contribSet part session kind slot value) s = .next (put 1 { value := some (value % 2 ^ 256) }) ∧
    exec (.contribClear part session kind slot) s = .next (put 2 {})) ∧
  (∀ (ep : SpdmEnd) (s : State), s.responds ep = true → s.fwTurn 4 = true →
    (s.jrnl.full = false → (s.sec.sessions.filter fun x => x.1 = ep).length < 4 → s.noKeys = false →
      let u := s.jCommit (s.endOrigin ep) (jKey 12 (endPart ep) 0 .ok)
      exec (.spdmRequest ep .openSession) s = .next
        ({ u with sec := { u.sec with sessions := u.sec.sessions ++ [(ep, s.sec.nextSess)], nextSess := s.sec.nextSess + 1 } }.emit
          (.spdm 3 .ok 0 [s.sec.nextSess]))) ∧
    (∀ id : Nat, s.session ep id = true → s.jrnl.full = false →
      let u := s.jCommit (s.endOrigin ep) (jKey 13 (endPart ep) 0 .ok)
      exec (.spdmRequest ep (.closeSession id)) s = .next
        ({ u with sec := { u.sec with sessions := u.sec.sessions.filter fun x => x ≠ (ep, id) } }.emit (.spdm 4 .ok 0 []))) ∧
    (∀ i d : Nat, s.measurement ep i = some d → exec (.spdmRequest ep (.measurement i)) s = .next (s.emit (.spdm 5 .ok 0 [d]))) ∧
    (∀ (l : Fin 4) (stream : Nat), ep = .pf l → s.sec.sessions.any (fun x => x.1 = ep) = true → stream ≤ 18 → s.jrnl.full = false →
      exec (.spdmRequest ep (.ideKey l stream)) s = .next (((s.jCommit (s.endOrigin ep) (jKey 14 0 stream .ok)).modLink l.val fun x =>
        { x with ideKeys := if x.ideKeys.contains stream then x.ideKeys else x.ideKeys ++ [stream], ideBad := x.ideBad.filter fun y => y ≠ stream }).emit
          (.spdm 6 .ok 0 [])))) ∧
  (∀ (link : Fin 4) (stream : Nat) (s : State),
    exec (.ideIntegrityFail link stream) s = .next
      (((List.range 16).filter fun p => (s.part p).cur.holds && (s.part p).cur.link = link.val && (stream = 0 || stream = 2 + p)).foldl
        (fun s p => s.tdiError p) (s.modLink link.val fun x => { x with ideBad := if x.ideBad.contains stream then x.ideBad else x.ideBad ++ [stream] }))) ∧
  (∀ (part : Fin 16) (s : State), s.responds (.vf part) = true → s.fwTurn 4 = true → s.jrnl.full = false →
    let p := part.val
    (∀ n : Nat, (s.part p).tdi = 0 → s.session (.vf part) n = true →
      exec (.tdispRequest part (.lock n)) s = .next (((s.tdiSet p 1).modPart p fun x => { x with lockedBy := some n }).emit (.spdm 7 .ok 0 []))) ∧
    ((s.part p).tdi = 1 → exec (.tdispRequest part .start) s = .next ((s.tdiSet p 2).emit (.spdm 7 .ok 0 []))) ∧
    exec (.tdispRequest part .stop) s = .next ((s.tdiSet p 0).emit (.spdm 7 .ok 0 [])))

/-- R43, R420, R423, R424, R430, R431: first contact and random numbers. Where both devices start, the session of the lower DEVID goes on.
A datagram whose sender's chain verifies and whose firmware is not below MIN_SVN is answered, and the last one gives the pair root,
the device's entry and a record; one that fails, or the ninth silence, ends the attempt; a silent one is sent again after 1 ms. The
derivation unit's next key is there. Three failed entropy windows in a row fail the source, and after the next reseed the DRBG serves nothing. -/
def Obligations.KeyEvents : Prop :=
  (∀ (ip dev now : Nat) (s : State), s.firmwareUp = true → s.noKeys = false →
    let t := s.tick now
    t.fwTurn 3 = true →
    (∀ x : ContactProof, x.opens = true → (t.sec.contacts.any fun c => c.ip = ip && c.mine) = true → x.chain = true → s.minSvn ≤ x.svn →
      let seq := ((t.sec.contacts.find? fun x => x.ip = ip).map fun c => c.seq + 1).getD 0
      exec (.firstContactDatagram ip dev x false now) s = .next (if devNum ownDev < devNum dev then t else
        { t with sec := { t.sec with contacts := (t.sec.contacts.filter fun (x : Contact) => x.ip ≠ ip) ++ [(⟨ip, 0, t.now, seq, false⟩ : Contact)] } }.emit
          (.datagram ip (s.fld 0x1400000 0 16) (spdmBytes ip seq))).settle) ∧
    (∀ (x : ContactProof) (final : Bool), t.rival ip dev x = false → (x.chain = false ∨ x.svn < s.minSvn) →
      exec (.firstContactDatagram ip dev x final now) s = .next (t.contactFail ip).settle) ∧
    (∀ x : ContactProof, t.rival ip dev x = false → x.chain = true → s.minSvn ≤ x.svn →
      (s.jrnl.full = false → exec (.firstContactDatagram ip dev x true now) s = .next (t.pairUp ip dev).settle) ∧
      (let seq := ((t.sec.contacts.find? fun x => x.ip = ip).map fun c => c.seq + 1).getD 0
       let mine := ! x.opens && ((t.sec.contacts.find? fun x => x.ip = ip).map fun c => c.mine).getD false
       exec (.firstContactDatagram ip dev x false now) s = .next
        ({ t with sec := { t.sec with contacts := (t.sec.contacts.filter fun (x : Contact) => x.ip ≠ ip) ++ [(⟨ip, 0, t.now, seq, mine⟩ : Contact)] } }.emit
          (.datagram ip (s.fld 0x1400000 0 16) (spdmBytes ip seq))).settle)) ∧
    (∀ c : Contact, (t.sec.contacts.find? fun c => c.ip = ip ∧ c.at_ + 1000000 ≤ t.now) = some c →
      (8 ≤ c.tries → exec (.firstContactRetry ip now) s = .next (t.contactFail ip).settle) ∧
      (c.tries < 8 → exec (.firstContactRetry ip now) s = .next
        ({ t with sec := { t.sec with contacts := t.sec.contacts.map fun (x : Contact) => if x.ip = ip then { x with tries := x.tries + 1, at_ := t.now } else x } }.emit
          (.datagram ip (s.fld 0x1400000 0 16) (spdmBytes ip c.seq))).settle))) ∧
  (∀ (fn : Fn) (h : Nat) (s : State), (s.conn fn.idx h).rx.nextKey = 1 → s.noKeys = false → s.deriveTurn fn.idx h true = true →
    exec (.rxNextKeyDerived fn h) s = .next
      ((s.deriveDone fn.idx h true).modConn fn.idx h fun c => { c with rx := { c.rx with nextKey := 2 } })) ∧
  (∀ s : State,
    exec (.entropyWindowEnd true) s = .next
      { s with sec := { s.sec with badRun := 0, drbg := if s.sec.drbg = 0 ∧ ! s.sec.failed then 1 else s.sec.drbg } } ∧
    (s.sec.badRun < 2 ∨ s.sec.failed = true → exec (.entropyWindowEnd false) s = .next { s with sec := { s.sec with badRun := s.sec.badRun + 1, badWins := s.sec.badWins + 1 } }) ∧
    (2 ≤ s.sec.badRun → s.sec.failed = false → exec (.entropyWindowEnd false) s = .next
      (({ s with sec := { s.sec with badRun := s.sec.badRun + 1, badWins := s.sec.badWins + 1, failed := true } }.jMust .firmware (jKey 16 0 0 .internal)).report 0xFF 0xFF 0x31
        (s.sec.badRun + 1)))) ∧
  ∀ (now : Nat) (s : State),
    let t := s.tick now
    exec (.drbgReseed now) s = .next { t with sec := { t.sec with reseedAt := t.now, drbg := if t.sec.failed then 2 else t.sec.drbg } }

/-- R439, R442, R489: the journal's export. The next record is written to its place in the host ring while there is room (one word of zeros where it
was lost on die), or waits for its page; once visible it is no longer
held on die; a write of JRNL_EXP_HEAD or one that sets EN lets a refused export be tried again, and the latter is journalled; a read of
JRNL_TAIL gives the next SEQ and latches the chain. -/
def Obligations.JournalExport : Prop :=
  (∀ (r : JRec) (s : State),
    let n := s.jrnl.written
    let size := 2 ^ s.jrnlLog / 128
    let f := s.jrnlLink
    let addr := s.jrnlBase + n % size * 128
    s.mayExport = true → n < s.jrnlHead + size → (s.jrnl.recs.find? fun r => r.seq = n) = some r →
    (∀ p, s.missing f addr 128 true = some p →
      exec .jrnlExportWrite s = .next ({ s with jrnl := { s.jrnl with park := some p, retry := false } }.askXlate f p true)) ∧
    (s.missing f addr 128 true = none →
      let t := (if r.bad = true then s.bump else s).hostWrite f addr (if r.bad = true then loseWord (s.freeVal % 16) r.bytes else r.bytes)
      exec .jrnlExportWrite s = .next { t with jrnl := { t.jrnl with written := n + 1, experr := false, retry := false, tries := 0 } })) ∧
  (∀ s : State, s.jrnl.exported < s.jrnl.written →
    let l := s.jrnl.recs.filter fun r => decide (s.jrnl.exported + 1 ≤ r.seq)
    exec .jrnlExportVisible s = .next ({ s with jrnl := { s.jrnl with exported := s.jrnl.exported + 1, recs := l } }.jDrain.sleepGo)) ∧
  ∀ (o : Origin) (v : Nat) (s : State),
    (let t := s.setReg 0x2400010 (v % 2 ^ 64)
     exec (.jrnlExpHead o v) s = .next { t with jrnl := { t.jrnl with retry := t.jrnl.experr } }) ∧
    (let w := v ||| 2 ^ 31
     let old := s.reg 0x2400008
     let t := (s.jMust o (.setup 0x2400008 8 false old (w % 2 ^ 32))).setReg 0x2400008 ((if s.jrnlEn then old % 128 else w % 128) + 2 ^ 8 * bitsOf w 8 8 + 2 ^ 31)
     exec (.jrnlExpEnable o v) s = .next { t with jrnl := { t.jrnl with retry := t.jrnl.experr } }) ∧
    exec (.jrnlTailRead o) s = .next ({ s with jrnl := { s.jrnl with latched := s.jrnl.chain } }.emit (.value o 0x2400018 s.jrnl.next))

/-- R444, R445, R446, R457, R458, R461: ports and fences. A port that goes down loses its link state, excludes its paths and reports an error;
one that comes up on its full lanes is up. A fence whose work has moved off, or whose wait has passed, closes; ERR_FENCE.REQ reports a
request for each region without a fence, and UNFENCE lifts those that may be lifted; both are journalled. -/
def Obligations.PortsAndFences : Prop :=
  (∀ (port : Fin 8) (k now : Nat) (s : State),
    let q := port.val
    let t := s.tick now
    ((t.bp q k).up = true →
      let u := (t.portLoses q k).modBp q k fun b => b.downed
      exec (.portDown port ⟨k, none⟩ now) s = .next (u.report (64 + q) 0xFF 0x21 q).noteHealth ∧
      ∀ lane : Nat, exec (.portDown port ⟨k, some lane⟩ now) s = .next (u.report (64 + q) 0xFF 0x20 lane).noteHealth) ∧
    (let x := s.port q
     k < x.bpCount → (aget s.err.fences (q / 2) = none) → s.powered = true → s.err.fatal = false → s.mgmt.recovery = false → s.mgmt.running = true →
      (s.bp q k).up = false → (s.cage q).present = true → (s.cage q).on = true → (s.cage q).lowpwr = false →
      let u := s.modBp q k fun b => { b.downed with up := true, lanes := modeLanes x.mode, upAt := s.now }
      exec (.portUp port k (modeLanes x.mode)) s = .next
        ((if u.fld (0xC00000 + 0x20000 * q) 4 1 = 1 then u.emit (.shed q k (shedFrame (u.mac q k) 1 0 (modeLanes x.mode))) else u).noteHealth))) ∧
  (∀ (region : Fin 4) (x : Fence) (now : Nat) (s : State),
    let n := region.val
    let t := s.tick now
    aget s.err.fences n = some x →
    (s.movedOff n = true → exec (.orderlyFenceProceed region) s = .next (s.fenceClose n).settle) ∧
    (x.since + t.fenceWait ≤ t.now → x.done = false → exec (.fenceWaitExpiry region now) s = .next
      ({ t with err := { t.err with fences := aset t.err.fences n { x with immediate := true } } }.fenceClose n).settle)) ∧
  ∀ (o : Origin) (mask : Nat) (s : State), s.jrnl.full = false →
    let v := mask % 16 * 2 ^ 8
    let w := mask % 16 * 2 ^ 12
    let req := (bitList 4 (bitsOf v 8 4)).filter fun n => (aget s.err.fences n).isNone
    let lift := (bitList 4 (bitsOf w 12 4)).filter fun n => s.mayLift n
    (req ≠ [] → exec (.errFenceReq o mask) s = .next (((bitList 4 (bitsOf v 12 4)).filter fun n => s.mayLift n).foldl (fun s n => s.fenceLift n)
      (req.foldl (fun s n => s.report (0xF0 + n) 0xFF 0x65 0) (s.jCommit o (.setup 0x1C00010 8 false s.fenceReg v))))) ∧
    (lift ≠ [] → exec (.errFenceUnfence o mask) s = .next (lift.foldl (fun s n => s.fenceLift n)
      (((bitList 4 (bitsOf w 8 4)).filter fun n => (aget s.err.fences n).isNone).foldl (fun s n => s.report (0xF0 + n) 0xFF 0x65 0)
        (s.jCommit o (.setup 0x1C00010 8 false s.fenceReg w)))))

/-- R464, R465, R467, R468, R471, R472: error records. A CORRECTED error that a cell detects is handled there; the
first report at a block's record fills its fields; a report of severity CORRECTED or lower starts
no action; an action that is over hands its error to the chip record and the next one runs; a write of VALID clears a record without an
action in progress, and the cells beneath it. -/
def Obligations.ErrorRecords : Prop :=
  (∀ (r : ErrReport) (c : CtxRef) (s : State), exec (.errorArrival r c) s = .next (((s.arrival r).demandUe r c).strike c).settle) ∧
  (∀ (r : ErrReport) (s : State), r.block < 93 → r.cell ≠ 0xFF → severity r.code r.block = 0 → r.code ≠ 8 →
    (s.arrival r).err.recs = s.err.recs ∧ (agetD (s.arrival r).err.cells r.unit {}).valid = true) ∧
  (∀ (r : ErrReport) (s : State), r.block < 64 → r.cell = 0xFF → severity r.code r.block < 2 → r.code ≠ 8 → (s.rec_ r.block).valid = false →
    (s.arrival r).rec_ r.block = { (s.rec_ r.block).first (severity r.code r.block) r.unit r.syn s.clk.time with run := none } ∧
    (s.arrival r).err.inbox = dropFirst s.err.inbox fun x => x = r) ∧
  (∀ (k : RecRef) (a : ErrAct) (s : State), (s.rec_ k.key).run = some a → s.actionOver k.key = true →
    let t := s.modRec k.key fun r => { r with run := r.waits.head?, waits := r.waits.drop 1 }
    let u := if k.key = 0xFF then t else t.atChip a.sev a.unit a.syn
    ((s.rec_ k.key).waits = [] → exec (.errorActionEnd k) s = .next u.settle) ∧
    (∀ (b : ErrAct) (l : List ErrAct), (s.rec_ k.key).waits = b :: l → exec (.errorActionEnd k) s = .next (u.runAction k.key b).settle)) ∧
  ∀ (o : Origin) (k : RecRef) (s : State), s.jrnl.full = false → (s.rec_ k.key).run = none →
    let t := s.jCommit o (.setup k.off 8 false ((s.rec_ k.key).word 0) 1)
    exec (.errRecordClear o k) s = .next
      { t with err := { t.err with recs := adel t.err.recs k.key, cells := t.err.cells.filter fun c => ! recHolds k c.1 } }

/-- R480, R481, R483, R485, R486, R487, R493: the scrubbers. A visit to the next line of a region's macros that finds it clean moves on, and after the last
line the lap ends; a visit of a DRAM scrubber with no line left ends its lap; what a visit finds is corrected or poisoned and reported;
a lap that takes longer than LIMIT goes on as urgent scrub. -/
def Obligations.Scrubbing : Prop :=
  ∀ (k now : Nat) (s : State),
    let t := s.tick now
    (∀ f : ScrubFind, k < 4 → t.scrubRuns k = true →
      let n := (t.scrub k).next
      let u := (t.scrubFound k n f).modScrub k fun x => { x with next := n + 1 }
      (n + 1 < sramLines → exec (.scrubVisit k f now) s = .next u.settle) ∧ (sramLines ≤ n + 1 → exec (.scrubVisit k f now) s = .next (u.lapEnd k).settle)) ∧
    (∀ f : ScrubFind, 4 ≤ k → k < 6 → t.scrubRuns k = true →
      (t.dramLine k = none → exec (.scrubVisit k f now) s = .next (t.lapEnd k).settle) ∧
      (∀ l : Nat, t.dramLine k = some l → exec (.scrubVisit k f now) s = .next ((t.scrubFound k l f).modScrub k fun x => { x with next := l + 1 }).settle)) ∧
    (k < 6 → (t.scrub k).urgent = false → (t.scrub k).lapAt + t.scrubLimit < t.now → t.powered = true →
      exec (.scrubStarve k now) s = .next ((t.modScrub k fun x => { x with urgent := true, urgLaps := satAdd 0xFFFF x.urgLaps 1 }).scrubWake k))

/-- R370, R372, R375, R376, R377, R408, R428, R541: the instance mailbox. A well-formed message is queued while a queue entry is free; the firmware
takes the oldest; each of the five commands is answered OK with its RESULT; a reply goes to the next entry of the reply ring and signals
its vector; HEAD releases reply entries, and its write is journalled. -/
def Obligations.Mailbox : Prop :=
  (∀ (part : Fin 16) (link : Fin 4) (gen opcode tag : Nat) (args : List Byte) (s : State),
    let p := part.val
    let f := 4 + p
    let m := (s.fn f).mbx
    s.power.saiga ≠ 2 → s.answers f = true → (s.part p).cur.link = link.val → args.length = 56 → m.enabled = true → m.used < 16 → (s.part p).state ≠ .frozen →
      let t := s.modMbx f fun m => { m with queue := m.queue ++ [⟨opcode % 2 ^ 16, gen % 2 ^ 16, tag % 2 ^ 32, args⟩] }
      let u := { t with power := { t.power with saiga := 0 } }
      exec (.instMbx part link gen opcode tag args false) s = .next u ∧
      exec (.instMbx part link gen opcode tag args true) s = .next (u.emit (.mbxStatus p false))) ∧
  (∀ (part : Fin 16) (t : MbxMsg) (q : List MbxMsg) (s : State),
    let f := 4 + part.val
    (s.fn f).mbx.taken = none → (s.fn f).mbx.queue = t :: q → s.serves = true → t.gen = (s.fn f).gen → mbxKnown t.cmd = true → t.rsv = false →
    s.mgmt.shed = false → s.jrnl.full = false →
    exec (.mailboxTake part) s = .next (s.modMbx f fun m => { m with queue := q, taken := some t })) ∧
  (∀ (part : Fin 16) (t : MbxMsg) (s : State),
    let p := part.val
    (s.fn (4 + p)).mbx.taken = some t → s.serves = true →
    (t.cmd = 0x000 → exec (.mbxEcho part) s = .next (s.mbxAnswer (4 + p) .ok 0 (nats (t.args.take 48)))) ∧
    (t.cmd = 0x001 → exec (.mbxInfo part) s = .next (s.mbxAnswer (4 + p) .ok 0 (nats (s.mbxInfo p)))) ∧
    (t.cmd = 0x100 → exec (.mbxQuota part) s = .next (s.mbxAnswer (4 + p) .ok 0 (nats (s.part p).cur.quota))) ∧
    (t.cmd = 0x200 → exec (.mbxKeystat part) s = .next (s.mbxAnswer (4 + p) .ok 0 (nats ((s.keyRecord p).take 48)))) ∧
    (t.cmd = 0x300 → exec (.mbxHealth part) s = .next (s.mbxAnswer (4 + p) .ok 0 (nats (s.mbxHealth p))))) ∧
  (∀ (part : Fin 16) (i : Nat) (r : MbxReply) (s : State),
    let p := part.val
    let f := 4 + p
    let m := (s.fn f).mbx
    m.replies[i]? = some r → m.enabled = true → s.serves = true → (s.part p).state ≠ .frozen → r.gen = (s.fn f).gen →
    (m.tail + 1) % 2 ^ m.rlog ≠ m.head % 2 ^ m.rlog → s.missing f (2 ^ 12 * m.rbase + 64 * m.tail) 64 true = none →
    let n := 2 ^ m.rlog
    let next := fun (x : Mbx) => { x with replies := x.replies.eraseIdx i, tail := (x.tail + 1) % n, park := none, tries := 0, phase := if x.tail + 1 = n then ! x.phase else x.phase }
    exec (.mailboxReplyWrite part i) s = .next (((s.hostWrite f (2 ^ 12 * m.rbase + 64 * m.tail) (r.bytes64 m.phase)).modMbx f next).msix f m.vector)) ∧
  ∀ (part : Fin 16) (head : Nat) (s : State),
    let f := 4 + part.val
    let m := (s.fn f).mbx
    s.answers f = true → s.jrnl.full = false →
    let t := s.jCommit (s.originOf f) (.setup 0x2050 8 false m.rcfg (m.rlog + 2 ^ 8 * m.vector + 2 ^ 16 * (head % 2 ^ 12)))
    exec (.mbxReplyHead (.vf part) head) s = .next (t.modMbx f fun m => { m with head := head % 2 ^ 12 })

/-- R179, R500, R501, R502, R504, R530, R531, R532: frames and filters. A frame at a breakout port that is up takes its room in the ingress buffer
or is discarded and counted; one to another address is discarded, MAC control stays at the port, and what is the saiga's goes there; any other
is counted at the first entry that matches it and takes its action, or is counted as unmatched; a commit makes
the staged entry current, or is held while an older version retires; raw entries post receive buffers and queue frames to send. -/
def Obligations.FramesAndFilters : Prop :=
  (∀ (f : Frame) (s t : State),
    let q := f.port.val
    let own := f.etype = 0x88F7 ∨ f.udpPort = some 319 ∨ f.udpPort = some 320 ∨ f.etype = 0x0806 ∨ f.nd = true ∨
      f.udpPort = some (t.fld 0x1400000 0 16)
    (s.bp q f.bp).up = true →
    (s.isTlt f = true → s.ingressRoom q f.base.cls = false →
      exec (.frameReceive f) s = .next (s.modPort q fun x => { x with ingDrop := x.ingDrop + 1 })) ∧
    (s.isTlt f = false → s.ingressTake q 0 (f.bytes.length + 4) = (false, t) → exec (.frameReceive f) s = .next t) ∧
    ((s.isTlt f = true ∧ s.ingressRoom q f.base.cls = true ∧ t = s) ∨ (s.isTlt f = false ∧ s.ingressTake q 0 (f.bytes.length + 4) = (true, t)) →
      (f.group = false → f.toMac ≠ t.mac q f.bp → exec (.frameReceive f) s = .next (t.dropFrame q f.bp)) ∧
      (f.group = true ∨ f.toMac = t.mac q f.bp →
        (f.etype = 0x8808 → exec (.frameReceive f) s = .next t) ∧
        (f.etype = 0x8809 → ¬ (f.subtype = 0x0A ∧ f.oui = 0x7A51C3) → exec (.frameReceive f) s = .next (t.toSaiga q f.bp)) ∧
        (f.etype ≠ 0x8808 → f.etype ≠ 0x8809 → own → exec (.frameReceive f) s = .next (t.toSaiga q f.bp)) ∧
        (f.etype ≠ 0x8808 → f.etype ≠ 0x8809 → ¬ own →
          ((t.flts.cur.find? fun (e : Nat × (Nat × Nat)) => t.fltMatch e.2 f) = none → exec (.frameReceive f) s = .next (t.noMatch q)) ∧
          (∀ (i : Nat) (w : Nat × Nat), (t.flts.cur.find? fun (e : Nat × (Nat × Nat)) => t.fltMatch e.2 f) = some (i, w) →
            let hits := aset t.flts.hits i (satAdd (2 ^ 48 - 1) (agetD t.flts.hits i 0) 1)
            exec (.frameReceive f) s = .next ({ t with flts := { t.flts with hits := hits } }.fltAct w f)))))) ∧
  (∀ (o : Origin) (n : Nat) (s : State), s.jrnl.full = false → s.flts.held = false →
    let i := n % 256
    let t := s.jCommit o (.setup 0xD00040 8 false s.flts.index (i + 256))
    let x := { t.flts with index := i }
    ((aget x.retiring i).isNone = true → exec (.fltCommit o n) s = .next { t with flts := x.commit }) ∧
    ((aget x.retiring i).isSome = true → exec (.fltCommit o n) s = .next { t with flts := { x with held := true } })) ∧
  (∀ (i : Nat) (s : State), (aget s.flts.retiring i).isSome = true →
    let x := { s.flts with retiring := adel s.flts.retiring i }
    exec (.fltRetire i) s = .next { s with flts := if x.held ∧ x.index = i then x.commit else x }) ∧
  ∀ (e : Entry) (s : State), Ready s e len1 true →
    let f := e.fn.idx
    (∀ (q bp addr len : Nat) (sp : Bool), 60 ≤ len → len ≤ s.maxFrame q - 4 → q < 8 → bp < 4 →
      (isPf f || (s.part (partOf f)).cur.ports.testBit q) = true → s.locCheck f sp addr len = [] →
      ((s.bp q bp).up = false ∨ (s.bp q bp).degraded = true →
        exec (.frameTx e q bp sp addr len) s = .next ((s.begun e 0x7F0 (.frameTx e q bp sp addr len)).endOp f (s.opId e) .busy 0 1000).settle) ∧
      ((s.bp q bp).up = true → (s.bp q bp).degraded = false → s.locMiss f sp addr len false = none → s.locPoison f sp addr len = none →
      let t := s.begun e 0x7F0 (.frameTx e q bp sp addr len)
      let r : RawPkt := { fn := f, op := s.opId e, cls := (t.ring f e.ring).cls, part := partOf f, bp := bp, bytes := t.locRead f sp addr len }
      exec (.frameTx e q bp sp addr len) s = .next ((t.locUse f sp addr len).modPort q fun x => { x with raws := x.raws ++ [r] }).settle)) ∧
    (∀ addr len : Nat, 64 ≤ len → len ≤ 65535 → exec (.frameRxbuf e addr len) s = .next
      ((s.begun e 0x7F1 (.frameRxbuf e addr len)).modRing f e.ring fun r => { r with rxbufs := r.rxbufs ++ [⟨s.opId e, addr, len⟩] }).settle)

/-- R499, R505, R506, R507: flow control and receiver overload. A PAUSE or PFC frame gives pause times where the port takes it, which run out; PFC is
sent above XOFF, every 20 µs above XON, and ended below XON; each 100 µs interval counts codewords, and 100 bad ones in a row degrade
the port, 1,000 clear ones mend it. -/
def Obligations.FlowControl : Prop :=
  ∀ (port : Fin 8) (k now : Nat) (s : State),
    let q := port.val
    let t := s.tick now
    let b := t.bp q k
    b.up = true →
    (∀ quanta : Nat, t.fc q = 1 → exec (.pauseFrameReceive port k quanta now) s = .next
      (t.modBp q k fun b => { b with pauseAll := t.now + t.pauseNs q k quanta })) ∧
    (∀ (en : Nat) (times : List Nat), t.fc q = 2 → exec (.pfcFrameReceive port k en times now) s = .next
      ((bitList 8 en).foldl (fun (s : State) i => s.modBp q k fun b => { b with pauseEnd := aset b.pauseEnd i (s.now + s.pauseNs q k (times.getD i 0)) }) t)) ∧
    (∀ prio : Nat, b.pauseAll ≤ t.now → agetD b.pauseEnd prio 0 ≤ t.now → exec (.pauseTimerExpiry port k prio now) s = .next
      (t.modBp q k fun b => { b with pauseAll := 0, pauseEnd := adel b.pauseEnd prio })) ∧
    (let prios := bitList 8 (t.fld (portOff q + 0x20) 0 8)
     let level := t.ingressHeld q
     t.fc q = 2 → prios ≠ [] →
      (b.pfcOn = false → t.xoff q < level → exec (.pfcRepeatTimer port k now) s = .next
        ((prios.foldl (fun s i => s.emit (.pfc q k i true)) t).modBp q k fun b => { b with pfcOn := true, pfcAt := t.now })) ∧
      (b.pfcOn = true → level < t.xon q → exec (.pfcRepeatTimer port k now) s = .next
        ((prios.foldl (fun s i => s.emit (.pfc q k i false)) t).modBp q k fun b => { b with pfcOn := false })) ∧
      (b.pfcOn = true → t.xon q < level → b.pfcAt + 20000 ≤ t.now → exec (.pfcRepeatTimer port k now) s = .next
        ((prios.foldl (fun s i => s.emit (.pfc q k i true)) t).modBp q k fun b => { b with pfcAt := t.now }))) ∧
    (∀ total corr uncorr : Nat,
      let bad : Bool := b.alarm || decide (0 < uncorr ∧ total ≤ 1000 * uncorr)
      let overs := if bad then b.overs + 1 else 0
      let clear := if bad then 0 else b.clear + 1
      let next := fun (x : Bp) => { x with corr := satAdd 0xFFFFFFFF x.corr corr, uncorr := satAdd 0xFFFFFFFF x.uncorr uncorr, alarm := false, overs := if bad then x.overs + 1 else 0, clear := if bad then 0 else x.clear + 1 }
      let u := t.modBp q k next
      (b.degraded = false → 100 ≤ overs → exec (.overloadInterval port k total corr uncorr now) s = .next (u.bpDegrade q k)) ∧
      (b.degraded = true → 1000 ≤ clear → exec (.overloadInterval port k total corr uncorr now) s = .next
        (u.modBp q k fun b => { b with degraded := false }).noteHealth) ∧
      (b.degraded = false → overs < 100 → exec (.overloadInterval port k total corr uncorr now) s = .next u))

/-- R508, R509, R510, R511: lane shedding. A CAP frame in time tells that the peer can shed; a sample asks for the full lanes while the port is
busy, and for half of them after HOLD below DOWN; a request is agreed to, refused, or times out, and of two
that cross the one for more lanes wins, then the one from the lower MAC address; the end that begins sends MARK at once for
a downshift, and after training for an upshift; when both MARKs have passed the port runs on the new lanes. -/
def Obligations.LaneShedding : Prop :=
  ∀ (port : Fin 8) (k : Nat) (s : State),
    let q := port.val
    let b := s.bp q k
    (∀ lanes : Nat, b.up = true → lanes ≠ 0 → s.now ≤ b.upAt + 10000000 →
      exec (.shedCapReceive port k lanes) s = .next (s.modBp q k fun b => { b with shedPeer := true })) ∧
    (∀ rx now : Nat,
      let t := s.tick now
      let b := t.bp q k
      let d := t.now - b.sampAt
      let tx := b.sentBytes - b.sampTx
      let sel := b.sentBytes + (t.port q).waitingBytes k
      let busy := t.overPct q k tx d (t.shedUp q) || t.overPct q k (sel - b.sampSel) d (t.shedUp q)
      let md := t.now - b.msAt
      let low := t.underPct q k (b.msTx + tx) md (t.shedDown q) && t.underPct q k (b.msRx + rx) md (t.shedDown q)
      let below := if md < 1000000 then b.belowAt else if low then some (b.belowAt.getD b.msAt) else none
      let new := decide (1000000 ≤ md)
      let next := fun (x : Bp) => { x with sampAt := t.now, sampTx := x.sentBytes, sampSel := sel, belowAt := below, msAt := if new then t.now else x.msAt, msTx := if new then 0 else x.msTx + tx, msRx := if new then 0 else x.msRx + rx }
      let u := t.modBp q k next
      let full := modeLanes (t.port q).mode
      b.up = true → 100000 ≤ d →
        (b.shedReq.isSome = true ∨ b.target.isSome = true ∨ t.now < b.holdTil → exec (.shedSample port k rx now) s = .next u) ∧
        (b.shedReq = none → b.target = none → b.holdTil ≤ t.now →
          (b.lanes < full → busy = true ∨ u.canShed q k = false → exec (.shedSample port k rx now) s = .next (u.shedRequest q k full)) ∧
          (full ≤ b.lanes ∨ (busy = false ∧ u.canShed q k = true) → 2 ≤ b.lanes → u.canShed q k = true → u.belowLong q k = true →
            exec (.shedSample port k rx now) s = .next (u.shedRequest q k (b.lanes / 2))))) ∧
    (∀ seq lanes mac : Nat, b.up = true → b.target = none → (lanes = 1 ∨ lanes = 2 ∨ lanes = 4) → lanes ≤ modeLanes (s.port q).mode → lanes ≠ b.lanes →
      (b.shedReq = none → b.lanes < lanes ∨ (s.canShed q k = true ∧ s.belowLong q k = true) →
        exec (.shedReqReceive port k seq lanes mac) s = .next ((s.emit (.shed q k (shedFrame (s.mac q k) 3 seq lanes))).shedStart q k seq lanes)) ∧
      (b.shedReq = none → lanes < b.lanes → s.canShed q k = false ∨ s.belowLong q k = false →
        exec (.shedReqReceive port k seq lanes mac) s = .next (s.emit (.shed q k (shedFrame (s.mac q k) 4 seq lanes)))) ∧
      (∀ r, b.shedReq = some r →
        (r.2.1 < lanes ∨ (r.2.1 = lanes ∧ mac < s.mac q k) → exec (.shedReqReceive port k seq lanes mac) s = .next
          ((s.emit (.shed q k (shedFrame (s.mac q k) 3 seq lanes))).shedStart q k seq lanes)) ∧
        (lanes < r.2.1 ∨ (r.2.1 = lanes ∧ s.mac q k ≤ mac) → exec (.shedReqReceive port k seq lanes mac) s = .next (s.emit (.shed q k (shedFrame (s.mac q k) 4 seq lanes)))))) ∧
    (∀ n lanes t0 : Nat, b.shedReq = some (n, lanes, t0) →
      exec (.shedAckReceive port k n) s = .next (s.shedStart q k n lanes) ∧
      exec (.shedNakReceive port k n) s = .next (s.modBp q k fun b => { b with shedReq := none, belowAt := none }) ∧
      (∀ now : Nat, let t := s.tick now
        t0 + 1000000 ≤ t.now → exec (.shedReqTimeout port k now) s = .next (t.modBp q k fun b => { b with shedReq := none, holdTil := t.now + t.shedHold q }))) ∧
    (∀ n : Nat, b.target = some n →
      (b.lanes < n → b.markSent = false → exec (.shedLanesTrained port k) s = .next
        (((s.modBp q k fun b => { b with trained := true }).sendMark q k n).restripe q k)) ∧
      exec (.shedMarkReceive port k) s = .next ((s.modBp q k fun b => { b with markRcvd := true }).restripe q k)) ∧
    ∀ now : Nat, let t := s.tick now
      b.markSent = true → b.markRcvd = false → b.markAt + 1000000 ≤ t.now → exec (.shedMarkTimeout port k now) s = .next (t.bpDown q k 0x21)

/-- R495, R496, R499, R512, R513, R514, R515, R516, R517, R519: modules, modes and device time. Inserting and removing a module changes its cage;
its alarms feed the interval in progress; a mode write takes the port down into the mode; TIME_ADJ slews up to 1 ms and steps beyond it,
with the record first; a Sync on the PTP port corrects the whole offset (the servo's law is the model's choice, log 55); a read of TIME_NOW
latches TEPOCH; a slew is absorbed as time passes. -/
def Obligations.ModulesAndTime : Prop :=
  (∀ (port : Fin 8) (s : State),
    let q := port.val
    (∀ power now : Nat, (s.cage q).present = false →
      let t := s.tick now
      exec (.moduleInsert port power now) s = .next
        ((t.modCage q fun c => { c with present := true, power := power, insAt := t.now, on := false, lowpwr := false, fault := false }).noteHealth)) ∧
    ((s.cage q).present = true → exec (.moduleRemove port) s = .next
      (((s.portAllDown q).modCage q fun c => { c with present := false, on := false, lowpwr := false, power := 0 }).noteHealth)) ∧
    (∀ flags : Nat, exec (.moduleIntl port flags) s = .next ((List.range (s.port q).bpCount).foldl (fun s k =>
      if laneMask (s.port q).mode k &&& flags ≠ 0 then s.modBp q k fun b => { b with alarm := true } else s) s)) ∧
    (∀ (o : Origin) (v : Nat), s.jrnl.full = false → s.edgeDown (q / 2) = false →
      let w := v % 2 ^ 32
      let t := (s.jCommit o (.setup (portOff q) 8 false (s.reg (portOff q)) w)).setReg (portOff q) (w &&& 0x3FFF1F)
      (w % 4 ≠ 3 → w % 4 ≠ (t.port q).mode → exec (.portModeWrite o port v) s = .next ((t.portAllDown q).modPort q fun x => { x with mode := w % 4 })) ∧
      (w % 4 = 3 ∨ w % 4 = (t.port q).mode → exec (.portModeWrite o port v) s = .next t))) ∧
  (∀ (o : Origin) (d : Int) (s : State), s.jrnl.full = false → s.timeSrc = 2 →
    let x := signedOf 64 (unsignedOf 64 d)
    let t := s.jCommit o (.setup 0x2800018 8 false 0 (unsignedOf 64 x))
    (-1000000 ≤ x → x ≤ 1000000 → exec (.timeAdj o d) s = .next { t with clk := { t.clk with slew := x, slewRes := 0 } }.settle) ∧
    (1000000 < x ∨ x < -1000000 → exec (.timeAdj o d) s = .next (t.stepTime o x).settle)) ∧
  (∀ (port : Fin 8) (k domain now : Nat) (d : Int) (s : State),
    let t := s.tick now
    t.fwTurn 2 = true → t.timeSrc = 1 → bitsOf (t.reg 0x2800008) 2 3 = port.val → bitsOf (t.reg 0x2800008) 5 2 = k → bitsOf (t.reg 0x2800008) 8 8 = domain → (t.bp port.val k).up = true →
    let good := if -1000 ≤ d ∧ d ≤ 1000 then t.clk.good + 1 else 0
    exec (.ptpSyncReceive port k domain d now) s = .next
      ({ t with clk := { t.clk with good := good, locked := decide (16 ≤ good) } }.correct .firmware (-d)).settle) ∧
  (∀ (o : Origin) (s : State), exec (.timeNowRead o) s = .next ({ s with clk := { s.clk with latched := s.clk.tepoch } }.emit (.value o 0x2800000 s.clk.time))) ∧
  ∀ (now : Nat) (s : State), exec (.slewAbsorbed now) s = .next (s.tick now) ∧ (s.tick now).now = max s.now now

/-- R557, R558, R560, R561, R562, R563, R564, R565, R566, R568, R581: clocks and the power states of a region. A ramp goes one step at a time while the rails allow
it, and holds each; a source switch waits for the hold; a settled rail, the closed switch and the locked PLL take a waking domain to ACTIVE at k = 4; a stable reference starts the PLLs, and its
loss stops the device; a lost PLL puts its domain on the reference; idle domains go to IDLE and DOZE and come back. That domains leave
reset at k = 4 is log 57. -/
def Obligations.ClocksAndRegions : Prop :=
  (∀ (n : Nat) (s : State), n < 4 → s.mayStep n = true → exec (.clkRampStep n) s = .next (s.modDom n fun d => { d with k := s.nextK n, hold := true })) ∧
  (∀ (n : Nat) (s : State), n < 4 → s.mayStep n = false → (s.dom n).hold = true →
    exec (.clkRampStep n) s = .next (s.modDom n fun d => { d with hold := false })) ∧
  (∀ (r : Fin 4) (mv : Nat) (s : State), (s.dom r.val).powered = true ∨ (s.dom r.val).wake ≠ 0 → railNear mv (s.setpoint r.val) = true →
    exec (.railSettled r mv) s = .next (s.modDom r.val fun d => { d with rail := mv, railSet := true, wake := if (s.dom r.val).wake = 1 then 2 else d.wake })) ∧
  (∀ (n : Nat) (s : State), s.power.stable = false → s.powered = true →
    let t := { s with power := { s.power with stable := true, restarts := satAdd 0xFFFF s.power.restarts n, lock := 0x3F } }
    exec (.refStable n) s = .next ((List.range 4).foldl (fun (s : State) n => if (s.dom n).st = 3 then s.setLock n false
      else s.modDom n fun d => { d with st := 0, k := 4, rail := railV 4, since := s.now }) t)) ∧
  (∀ s : State, s.power.stable = true →
    let t := s.atChip 4 0xFFFF (0x61 + 0xFF * 2 ^ 16)
    exec .refLoss s = .next ({ t with power := { t.power with stable := false, dead := true, lock := 0 }, mgmt := { t.mgmt with running := false } } : State).settle) ∧
  (∀ (d : Nat) (s : State), d < 6 → s.power.refPend.testBit d = true → 4 ≤ d ∨ (s.dom d).hold = false → exec (.clkSourceSwitch d) s = .next
    { s with power := { s.power with refPend := s.power.refPend - 2 ^ d, switches := satAdd 0xFFFF s.power.switches 1 } }) ∧
  (∀ (n : Nat) (s : State), n < 6 → s.power.lock.testBit n = true → s.onRef n = false →
    let p := { s.power with ref := s.power.ref ||| 2 ^ n, refPend := (s.power.refPend ||| 2 ^ n) - 2 ^ n, switches := satAdd 0xFFFF s.power.switches 1 }
    exec (.pllLockLoss n) s = .next (({ s with power := p }.setLock n false).report (if n < 4 then 0xF0 + n else 0xFF) 0xFF 0x61 n)) ∧
  (∀ (o : Origin) (v : Nat) (s : State), s.jrnl.full = false →
    let w := v % 2 ^ 32
    let old := s.power.ref
    let held := (bitList 6 old).filter fun d => ! w.testBit d && ! s.mayReturn d
    let new := held.foldl (fun n d => n ||| 2 ^ d) (w % 64)
    held = [] ∨ new ≠ old →
    let t := s.jCommit o (.setup 0x100008 8 false (old + 2 ^ 16 * s.power.lock) w)
    exec (.clkDomSel o v) s = .next { t with power := { t.power with ref := new, refPend := t.power.refPend ^^^ (old ^^^ new) } }) ∧
  ∀ (r : Fin 4) (s : State),
    let n := r.val
    let d := s.dom n
    (∀ now : Nat, let t := s.tick now
      (d.st = 0 → d.wake = 0 → t.idleNs n ≠ 0 → d.since + t.idleNs n ≤ t.now → t.regionBusy n = false → t.powered = true →
        exec (.regionIdle r now) s = .next (t.modDom n fun d => { d with st := 1, since := t.now })) ∧
      (d.st = 1 → t.idleNs n ≠ 0 → t.dozeNs n ≠ 0 → d.since + t.dozeNs n ≤ t.now → t.regionBusy n = false →
        exec (.regionDoze r now) s = .next ((t.modDom n fun d => { d with st := 2, k := 0, rail := railV 4, wake := 0, since := t.now }).setLock n false))) ∧
    (d.st = 1 → exec (.regionIdleWake r) s = .next (s.modDom n fun d => { d with st := 0, since := s.now })) ∧
    (d.st = 2 → d.wake = 0 → s.powered = true → exec (.regionWake r) s = .next (s.wakeStart n)) ∧
    (d.wake = 2 → exec (.powerSwitchClosed r) s = .next (s.modDom n fun d => { d with wake := 3 })) ∧
    (d.wake = 3 → exec (.pllLocked r) s = .next
      ((s.modDom n fun d => { d with k := 4, wake := 0, hold := false, st := if (s.dom n).st = 4 then 4 else 0, since := s.now }).setLock n true))

/-- R570, R571, R572, R573, R576, R577: P-Sleep, the power limit, temperatures and rails. PWR_CTL.SLEEP is asked for while no partition holds anything and
the journal is exported, and lapses after 10 ms; a wake source starts the reference again; an evaluation over the limit lowers the PCAP of
the hottest domain, one below it raises the last lowered; 10 ms over the limit fence a region; a temperature sample acts on every region
in turn; a rail that is off is reported. -/
def Obligations.SleepAndLimits : Prop :=
  (∀ (o : Origin) (s : State), s.jrnl.full = false → s.maySleep = true →
    let t := s.jCommit o (.setup 0x200000 8 false 0 1)
    exec (.pwrSleep o) s = .next { t with power := { t.power with sleepAsk := some (t.jrnl.next - 1, t.now) } }) ∧
  (∀ (seq t0 now : Nat) (s : State), s.power.sleepAsk = some (seq, t0) →
    let t := s.tick now
    t0 + 10000000 ≤ t.now → exec (.sleepExportTimeout now) s = .next { t with power := { t.power with sleepAsk := none } }) ∧
  (∀ s : State, s.power.sleeping = true →
    let wake := fun (s : State) => { s with power := { s.power with sleeping := false, saiga := 0, stable := false } }.refStable 0
    exec (.sleepExit 1) s = .next (wake s) ∧ exec (.sleepExit 2) s = .next (wake s) ∧
    ((s.link 0).perst = true → exec (.sleepExit 0) s = .next (wake (s.modLink 0 fun l => { l with perst := false })))) ∧
  (∀ (w now : Nat) (s : State),
    let t := s.tick now
    t.power.evalAt + 100000 ≤ t.now →
    let u := { t with power := { t.power with watts := w, evalAt := t.now } }
    let fin := fun (v : State) => { v with power := { v.power with overAt := if decide (v.limitW < w) && v.allLow then some (v.power.overAt.getD v.now) else none } }
    (∀ n : Nat, u.limitW < w → u.hottest = some n →
      let v := u.modDom n fun d => { d with pcap := d.pcap - 1 }
      exec (.powerLimitEval w now) s = .next (fin { v with power := { v.power with lowered := n :: v.power.lowered } })) ∧
    (u.limitW < w → u.hottest = none → exec (.powerLimitEval w now) s = .next (fin u)) ∧
    (∀ (n : Nat) (l : List Nat), w + u.hystW < u.limitW → u.power.lowered = n :: l →
      let v := u.modDom n fun d => { d with pcap := d.pcap + 1 }
      exec (.powerLimitEval w now) s = .next (fin { v with power := { v.power with lowered := l } })) ∧
    (w ≤ u.limitW → u.limitW ≤ w + u.hystW → exec (.powerLimitEval w now) s = .next (fin u))) ∧
  (∀ (now t0 n : Nat) (s : State),
    let t := s.tick now
    s.power.overAt = some t0 → ((List.range 4).filter fun n => (t.dom n).powered && (aget t.err.fences n).isNone).getLast? = some n →
    t0 + 10000000 ≤ t.now → t.power.fencing = none →
    exec (.powerLimitFence now) s = .next ({ t with power := { t.power with fencing := some n } }.report (0xF0 + n) 0xFF 0x66 t.power.watts)) ∧
  (∀ (temps : List Int) (now : Nat) (s : State), exec (.thermalSample temps now) s = .next
    ((List.range 4).foldl (fun (s : State) n => s.thermalStep n)
      ((List.range 4).foldl (fun (s : State) n => s.modDom n fun d => { d with temp := temps.getD n d.temp }) (s.tick now)))) ∧
  (∀ (mv : Nat) (s : State), exec (.railFault .chip mv) s = .next (s.report 0xFF 0xFF 0x60 mv) ∧
    exec (.railFault .alwaysOn mv) s = .next (s.report 91 0xFF 0x60 mv) ∧ severity 0x60 0xFF = 4 ∧ severity 0x60 91 = 4) ∧
  ∀ (r : Fin 4) (mv : Nat) (s : State),
    let n := r.val
    (s.dom n).powered = true → mv + 30 < s.setpoint n ∨ s.setpoint n + 30 < mv →
    let t := (s.modDom n fun d => { d with rail := mv }).report (0xF0 + n) 0xFF 0x60 mv
    let far := (s.near n).find? fun m => decide (mv + 60 < (s.dom m).rail ∨ (s.dom m).rail + 60 < mv)
    (far = none → exec (.railFault (.region r) mv) s = .next t) ∧ (∀ m : Nat, far = some m → exec (.railFault (.region r) mv) s = .next (t.report (0xF0 + n) 0xFF 0x63 (m + 2 ^ 8)))

/-- R584, R588, R590, R591, R593, R594: the card. PERST# of a link takes it down or resets it; J8 falling below 40 V sets the low limit, which lifts after 1 s
above 41 V; above 60 V, or below 36 V for 100 µs, the device loses its power, and above 42 V it powers on; 50 ms after insertion a cage's
switch closes, an overcurrent opens it and it closes again after 1 s; a coolant reading is taken and its cause caps cooling, which lifts
10 s after. That a line not seen OK gives no new reading is log 58. -/
def Obligations.Card : Prop :=
  (∀ (l : Fin 4) (s : State),
    (s.powered = false → exec (.perstAssert l) s = .next (s.modLink l.val fun x => { x with perst := true }).settle) ∧
    (s.powered = true → (s.link l.val).up = true → exec (.perstAssert l) s = .next
      ((s.linkDown l.val).report (72 + l.val) 0xFF 0x51 (l.val + 3 * 2 ^ 8)).settle) ∧
    (s.powered = true → (s.link l.val).up = false → exec (.perstAssert l) s = .next (s.linkReset l.val).settle)) ∧
  (∀ (mv : Int) (now : Nat) (s : State),
    let t := s.tick now
    let c := t.card
    let uv := if c.mv ≤ 41000 ∨ mv ≤ 41000 then t.now else c.uvAt
    let set := fun (o : Bool) => { t with card := { c with mv := mv, revSeen := c.revSeen || decide (mv < -500), uvAt := uv, overs := o } }
    (t.power.off = true → 42000 < mv → mv < 59000 → exec (.auxVoltageChange mv now) s = .next (set false).powerOn) ∧
    (t.power.off = false → 60000 < mv → exec (.auxVoltageChange mv now) s = .next (set true).powerOff) ∧
    (t.power.off = false → mv < 36000 → exec (.auxVoltageChange mv now) s = .next
      { set false with card := { (set false).card with lowAt := some (c.lowAt.getD t.now) } }) ∧
    (t.power.off = false → 36000 ≤ mv → mv < 40000 → exec (.auxVoltageChange mv now) s = .next
      { set false with card := { (set false).card with lowAt := none, auxLow := true, uv := true } }) ∧
    (t.power.off = false → 40000 ≤ mv → mv < 59000 → exec (.auxVoltageChange mv now) s = .next
      { set false with card := { (set false).card with lowAt := none } }) ∧
    (c.auxLow = true → 41000 < c.mv → c.uvAt + 1000000000 ≤ t.now → exec (.auxUvRecover now) s = .next { t with card := { c with auxLow := false } }) ∧
    (∀ t0 : Nat, c.lowAt = some t0 → t.power.off = false → t0 + 100000 ≤ t.now → exec (.auxPowerLoss now) s = .next t.powerOff)) ∧
  (∀ (port : Fin 8) (now : Nat) (s : State),
    let q := port.val
    let t := s.tick now
    let c := t.cage q
    let close := fun (x : Cage) => { x with on := true, lowpwr := decide (20 < x.power) }
    (c.present = true → c.on = false → c.fault = false → c.tripped = false → c.insAt + 50000000 ≤ t.now →
      exec (.cageInsertPower port now) s = .next (t.modCage q close)) ∧
    (c.on = true → let l := c.trips.filter (fun x => decide (t.now < x + 60000000000)) ++ [t.now]
      let trip := fun (x : Cage) => { x with on := false, tripCnt := satAdd 0xFFFF x.tripCnt 1, trips := l, fault := x.fault || decide (3 ≤ l.length) }
      exec (.cageOvercurrent port now) s = .next ((t.portAllDown q).modCage q trip)) ∧
    (∀ t0 : Nat, c.trips.getLast? = some t0 → c.present = true → c.tripped = true → c.fault = false → t0 + 1000000000 ≤ t.now →
      exec (.cageRetry port now) s = .next (t.modCage q close))) ∧
  ∀ (x : Sensors) (now : Nat) (s : State),
    let t := s.tick now
    let c := t.card.reading x t.now
    exec (.coolantSensorRead x now) s = .next { t with card := if c.coolCause then { c with coolCap := true, coolAt := t.now } else c } ∧
    (500 ≤ x.flowUa → x.flowUa ≤ 50000 → x.held = false → c.flow = x.flow % 65536) ∧
    (x.flowUa < 500 ∨ 50000 < x.flowUa ∨ x.held = true → c.flow = t.card.flow) ∧ (50 ≤ x.tinPm → x.tinPm ≤ 950 → c.tin = x.tin) ∧
    (t.card.coolCap = true → t.card.coolCause = false → t.card.coolAt + 10000000000 ≤ t.now →
      exec (.coolingCapLift now) s = .next { t with card := { t.card with coolCap := false } })

/-- R548, R549, R551, R552, R553: self-test. A fenced region is tested at once, its record of the write before; when it ends without a failing unit it has been
tested; the chip test clears every secret, runs and resets the chip; a scan instruction on a CE card's TAP is journalled before every
secret is cleared. What is cleared is log 59, and durations are free values. -/
def Obligations.SelfTest : Prop :=
  (∀ (o : Origin) (mask n : Nat) (s : State), s.jrnl.full = false → s.mayTest (mask % 16) = some n →
    exec (.bistRegionStart o mask) s = .next ((s.jCommit o (.setup 0x2000000 8 false 0 (mask % 16))).testStart n)) ∧
  (∀ (r : Fin 4) (t0 spares now : Nat) (s : State),
    let t := s.tick now
    s.bist.run = some (r.val, t0) → s.jrnl.full = false →
    (∀ unit : Nat, let u := t.bistEnd 1 0 (spares % 2 ^ 16) 0xFFFF
      exec (.bistRegionEnd r 0 spares unit now) s = .next { u with err := { u.err with tested := u.err.tested ++ [r.val] } }) ∧
    (∀ fails unit : Nat, 0 < fails → exec (.bistRegionEnd r fails spares unit now) s = .next (t.bistEnd 2 (min 0xFFFF fails) (spares % 2 ^ 16) unit))) ∧
  (∀ (o : Origin) (bad : List Nat) (s : State), s.jrnl.full = false → s.mayTestChip = true →
    exec (.bistChipStart o bad) s = .next ((s.jCommit o (.setup 0x2000000 8 false 0 256)).testChip bad)) ∧
  (∀ s : State, s.jrnl.full = false → Config.cardIsCE = true →
    exec .tapScanSelect s = .next (s.jCommit .firmware (.fw 5 s.freeVal)).bump.clearSecrets) ∧
  (∀ s : State, Config.cardIsCE = false → exec .tapScanSelect s = .next s)

/-- R599, R600, R602, R605, R580: what a host reads through a link's physical function. An access of another size or alignment ends Unsupported
Request; a register of a stopped edge ends Completer Abort; an offset of no register reads zero; GLB_ID reads the part, the stepping and the
card. A read of the low half of JRNL_STAT clears REFUSED; a read of its high half leaves it. -/
def Obligations.RegisterReads : Prop :=
  ∀ (l : Fin 4) (off width : Nat) (s : State), s.powered = true → off < 0x3000000 →
    let o := Origin.host l 0
    (alignedAccess off width = false → exec (.rcRegisterRead o off width) s = .next (s.emit (.ur l.val))) ∧
    (alignedAccess off width = true → s.regDown off = true → exec (.rcRegisterRead o off width) s = .next (s.emit (.ca l.val))) ∧
    (alignedAccess off width = true → s.regDown off = false → regOf (off / 8 * 8) = none →
      exec (.rcRegisterRead o off width) s = .next (s.emit (.value o off 0))) ∧
    exec (.rcRegisterRead o 0 8) s = .next (s.emit (.value o 0 (0x8160 + 2 ^ 16 + 2 ^ 24 * bit Config.cardIsCE))) ∧
    (let v := min 0x3FFF s.jrnl.used + 2 ^ 14 * bit s.jrnl.full + 2 ^ 15 * bit s.jrnl.experr + 2 ^ 16 * s.jrnl.refused
     let t := { s with jrnl := { s.jrnl with refused := 0 } }
     exec (.rcRegisterRead o 0x2400028 8) s = .next (t.emit (.value o 0x2400028 (v % 2 ^ 64))) ∧
     exec (.rcRegisterRead o 0x2400028 4) s = .next (t.emit (.value o 0x2400028 (v % 2 ^ 32))) ∧
     exec (.rcRegisterRead o 0x240002C 4) s = .next (s.emit (.value o 0x240002C (v / 2 ^ 32 % 2 ^ 32))))

/-- R184, R440, R529, R533, R599, R600, R601: writes of registers by the firmware. A register of RW fields takes the bits of its fields, after its record
(one of SCHED_TCM fills its queues' buckets); a write of an offset of no register is
journalled as ignored; a full journal discards the write and counts it. MGMT_MODE.EXIT ends
stand-alone operation. MGMT_SA_CFG.EN creates ring pair 1 of link 0 in frame form. -/
def Obligations.RegisterWrites : Prop :=
  (∀ (off mask v : Nat) (wide : Bool) (s : State), off < 0x3000000 → off % 8 = 0 → s.regDown off = false →
    let w := v % 2 ^ 64
    (s.jrnl.full = false → heldReg off = some (.held mask wide) → exec (.setupRegWrite .firmware off 8 v) s = .next
      (((s.jCommit .firmware (.setup off 8 false (s.reg off &&& mask) w)).setReg off (w &&& mask)).tcmFull off).settle) ∧
    (s.jrnl.full = true → heldReg off = some (.held mask wide) → exec (.setupRegWrite .firmware off 8 v) s = .next
      { s with jrnl := { s.jrnl with refused := satAdd 0xFFFF s.jrnl.refused 1 } }.settle) ∧
    (s.jrnl.full = false → (off < 0x2400000 ∨ 0x2800000 ≤ off) → regOf off = none → exec (.setupRegWrite .firmware off 8 v) s = .next
      (s.jCommit .firmware (.setup off 8 true 0 w)).settle)) ∧
  (∀ (o : Origin) (s : State), s.jrnl.full = false → s.mgmt.sa = true →
    let t := s.jCommit o (.setup 0x3000008 8 false 0 1)
    let links := (List.range 3).foldl (fun (l : AMap Link) i => amod l (i + 1) {} fun x => { x with detect := true }) t.links
    exec (.mgmtModeExit o) s = .next
      { t with flts := t.flts.drop 255, links := links, mgmt := { t.mgmt.bcbWrite (fun b => { b with sa := false }) with sa := false } }) ∧
  (∀ (o : Origin) (s : State), s.jrnl.full = false → s.mgmt.sa = false →
    exec (.mgmtModeExit o) s = .next (s.jCommit o (.setup 0x3000008 8 true 0 1))) ∧
  ∀ (o : Origin) (sq cq : Nat) (s : State), s.jrnl.full = false → sq < 32 → cq < 32 →
    let v := sq + 2 ^ 8 * cq
    let old := s.reg 0x3000020 + 2 ^ 30 * bit s.mgmt.saErr + 2 ^ 31 * bit s.mgmt.saEn
    let t := (s.jCommit o (.setup 0x3000020 8 false old (v + 2 ^ 31))).setReg 0x3000020 v
    let r := newRing sq cq 0 (t.reg 0x3000010) (t.reg 0x3000018) true
    (6 ≤ sq → sq ≤ 16 → 6 ≤ cq → cq ≤ 16 → (s.ring 0 1).state = .free → exec (.mgmtSaEnable o v) s = .next
      ({ t with mgmt := { t.mgmt with saEn := true, saErr := false } }.modFn 0 fun x => { x with rings := aset x.rings 1 r })) ∧
    (¬ (6 ≤ sq ∧ sq ≤ 16 ∧ 6 ≤ cq ∧ cq ≤ 16 ∧ (s.ring 0 1).state = .free) → exec (.mgmtSaEnable o v) s = .next
      { t with mgmt := { t.mgmt with saErr := true } })

/-- R521, R524, R526, R536, R537, R543: management commands. The firmware answers one in its turn; each wakes the saiga domain. ID answers in recovery too and outside a session; the others outside
a session end PROT; a repeated request gets the stored response and is not executed again. REG_READ and JRNL_READ end BUSY under load shedding.
FLASH_WRITE writes the card data, and ends PROT on the slot that runs. IMAGE_SWITCH makes the other slot active under trial. That ORIGIN 1's ID
is MGMT_BUS_CFG.NODE is log 62. -/
def Obligations.BusCommands : Prop :=
  (∀ (node seq : Nat) (s : State), s.powered = true → (s.mgmt.running = true ∨ s.mgmt.recovery = true) →
    (s.mgmt.running = true → s.fwTurn 6 = true) →
    let u := s.saigaOn
    ((s.mgmt.answers.find? fun a => a.node = node ∧ a.seq = seq) = none →
      exec (.id node seq) s = .next (u.busReply node seq 0 [Config.devId.toNat, u.health, u.mgmt.slot, u.mgmt.svn])) ∧
    (∀ a : BusAns, (s.mgmt.answers.find? fun a => a.node = node ∧ a.seq = seq) = some a → s.mgmt.short = false →
      exec (.id node seq) s = .next (u.emit (.busReply node seq a.status a.data)) ∧
      (s.mgmt.running = true → ∀ (addr width value session : Nat) (restart : Bool),
        exec (.regWrite node seq addr width value session) s = .next (u.emit (.busReply node seq a.status a.data)).settle ∧
        exec (.imageSwitch node seq restart session) s = .next (u.emit (.busReply node seq a.status a.data))))) ∧
  (∀ (node seq addr width value session rec_ : Nat) (restart : Bool) (s : State), s.powered = true → s.mgmt.running = true → s.fwTurn 6 = true →
    (s.mgmt.answers.find? fun a => a.node = node ∧ a.seq = seq) = none → s.session .bus session = false →
    let t := s.saigaOn.busReply node seq Status.prot.code []
    exec (.regRead node seq addr width session) s = .next t ∧ exec (.regWrite node seq addr width value session) s = .next t.settle ∧
    exec (.imageSwitch node seq restart session) s = .next t ∧ exec (.jrnlRead node seq rec_ session) s = .next t ∧
    ∀ data : List Byte, exec (.flashWrite node seq addr data session) s = .next t) ∧
  (∀ (node seq session : Nat) (s : State), BusReady s node seq session →
    let u := s.saigaOn
    (∀ addr width rec_ : Nat, s.mgmt.shed = true →
      let t := (u.busReply node seq Status.busy.code [u.shedHint]).bump
      exec (.regRead node seq addr width session) s = .next t ∧ exec (.jrnlRead node seq rec_ session) s = .next t) ∧
    (∀ (addr width v : Nat) (t : State), s.mgmt.shed = false → (width = 4 ∨ width = 8) → u.pfRead addr width = (t, .val v) →
      exec (.regRead node seq addr width session) s = .next (t.busReply node seq 0 [v])) ∧
    (∀ addr width v : Nat, (width = 4 ∨ width = 8) → s.jrnl.full = false → u.regDown addr = false →
      exec (.regWrite node seq addr width v session) s = .next
        ((u.pfWrite (.bus (u.fld 0x3000040 0 8)) addr width v).busReply node seq 0 []).settle) ∧
    (∀ (addr : Nat) (data : List Byte), data.length = 1024 → 0x1810000 ≤ addr → addr + 1024 ≤ 0x2000000 → s.mgmt.slot < 2 → s.jrnl.full = false →
      let flash := ((List.range 1024).zip data).foldl (fun (l : List Host.Cell) (b : Nat × Byte) => aset l (addr + b.1) b.2) s.mgmt.flash
      exec (.flashWrite node seq addr data session) s = .next
        ({ u with mgmt := { u.mgmt with flash := flash } }.busReply node seq 0 [])) ∧
    (∀ (addr : Nat) (data : List Byte), data.length = 1024 → addr + 1024 ≤ 0x2000000 → (addr < 0x10000 ∨ touchesSlot addr 1024 s.mgmt.slot = true) →
      exec (.flashWrite node seq addr data session) s = .next (u.busReply node seq Status.prot.code [])) ∧
    (s.jrnl.full = false →
      let other := 1 - s.mgmt.slot % 2
      let w := u.fwRecord 1
      let m := w.mgmt.bcbWrite fun b => { b with active := other, trial := true, tries := 0 }
      let t := { w with mgmt := { m with slot := other, written := [] } }.busReply node seq 0 []
      exec (.imageSwitch node seq false session) s = .next t ∧ exec (.imageSwitch node seq true session) s = .next t.mbxInternal.fwRestart) ∧
    (∀ r : JRec, s.mgmt.shed = false → r.bad = false → (s.jrnl.recs.find? fun x => x.seq = r.seq) = some r →
      exec (.jrnlRead node seq r.seq session) s = .next (u.busReply node seq 0 (nats r.bytes))))

/-- R463, R520, R524, R525: the saiga domain. It dozes after its idle time and wakes on a source; a watchdog expiry restarts the firmware, and under
TRIAL the third takes the other slot; 60 s of health OK confirm an image; a boot without a valid image ends in recovery, and one after P-Sleep
starts the active image without self-test. Whether an image verifies is open (log 11). -/
def Obligations.SaigaDomain : Prop :=
  (∀ (now : Nat) (s : State),
    let t := s.tick now
    let d := t.fld 0x3000070 0 16
    (t.mgmt.running = true → t.powered = true → t.power.saiga = 0 → d ≠ 0 → t.mgmt.idleAt + 1000 * d ≤ t.now → t.saigaWork = false → t.taskSoon = false →
      exec (.saigaDoze now) s = .next { t with power := { t.power with saiga := 1 } }) ∧
    (d = 0 → exec (.saigaDoze now) s = .next t)) ∧
  (∀ (source : Nat) (s : State), s.power.saiga = 1 → source < 5 → exec (.saigaWake source) s = .next
    { s with power := { s.power with saiga := 0 }, mgmt := { s.mgmt with idleAt := s.now } }) ∧
  (∀ s : State, s.mgmt.running = true → s.powered = true → s.jrnl.full = false ∨ s.willSwitch = false →
    let b := s.mgmt.bcbCurrent.getD {}
    let t := (s.report 90 0xFF 0x80 (s.freeVal % 2 ^ 48)).bump.mbxInternal
    (b.trial = false → exec .saigaWatchdogExpiry s = .next t.fwRestart) ∧
    (b.trial = true → b.tries < 2 → exec .saigaWatchdogExpiry s = .next
      { t with mgmt := t.mgmt.bcbWrite fun b => { b with tries := b.tries + 1 } }.fwRestart) ∧
    (b.trial = true → 2 ≤ b.tries → exec .saigaWatchdogExpiry s = .next
      (State.fwRecord { t with mgmt := t.mgmt.bcbWrite fun b => { b with trial := false, tries := 0, active := 1 - b.active % 2 } } 1).fwRestart)) ∧
  (∀ (b : Bcb) (now : Nat) (s : State),
    let t := s.tick now
    t.mgmt.bcbCurrent = some b → b.trial = true → t.mgmt.running = true → t.health = 1 → t.mgmt.okAt + 60000000000 ≤ t.now →
    exec (.trialConfirm now) s = .next { t with mgmt := t.mgmt.bcbWrite fun b => { b with trial := false } }) ∧
  ∀ (bad : List Nat) (s : State), s.mgmt.running = false → s.mgmt.recovery = false → s.powered = true → s.power.stable = true →
    (s.pickSlot = none → exec (.boot bad) s = .next s.toRecovery.settle) ∧
    (∀ (i : Nat) (b : Bcb), s.pickSlot = some (i, false) → s.jrnl.next ≠ 0 → s.mgmt.bcbCurrent = some b → b.sa = false →
      let u := s.runSlot i
      let v := { u with mem := { u.mem with devKey := if u.mem.drk then some u.mem.powerOns else none }, sec := { u.sec with drbg := if u.sec.failed then 2 else 1 } }
      exec (.boot bad) s = .next (v.bootRecord.bootMacs.noteHealth).settle)

/-- R535, R538, R539, R542, R543: timed work of the firmware. The health multicast and the telemetry snapshot run when their period has passed, with
four times the period under load shedding; a shorted pair is tried again after 1 s; load shedding is entered after three windows above HI and
left after ten below LO, each with its record. A snapshot is built in its turn (R521) from the copies of the records and counters. -/
def Obligations.TimedWork : Prop :=
  (∀ (now : Nat) (s : State),
    let t := s.tick now
    t.mgmt.running = true → t.powered = true →
    (t.mgmt.healthAt + 1000000000 * atLeast1 (t.fld 0x3000040 24 8) ≤ t.now → t.mgmt.short = false →
      let u := { t.saigaOn with mgmt := { t.saigaOn.mgmt with healthAt := t.now } }
      exec (.healthMulticast now) s = .next (u.emit (.busMulticast [Config.devId.toNat, u.health, u.mgmt.slot, u.mgmt.svn]))) ∧
    (t.now < t.mgmt.healthAt + 1000000000 * atLeast1 (t.fld 0x3000040 24 8) → exec (.healthMulticast now) s = .next t) ∧
    (let c := t.reg 0x3000058
     let log := bitsOf c 0 5
     let per := atLeast1 (bitsOf c 8 16) * (if t.mgmt.shed then 4 else 1)
     (t.telEn = true → 16 ≤ log → log ≤ 30 → t.fwTurn 7 = true → t.mgmt.telAt + 1000000 * per ≤ t.now →
       let v := t.saigaOn
       let u := { v with mgmt := { v.mgmt with telAt := v.now } }.meshSample
       exec (.telemetrySnapshot now) s = .next
         (telWrite u.meshRead (bitsOf c 5 2) (u.reg 0x3000050 / 4096 * 4096) (2 ^ log / 64) u.telView.telRecs)) ∧
     (t.now < t.mgmt.telAt + 1000000 * per → exec (.telemetrySnapshot now) s = .next t)) ∧
    ∀ busy : Nat, t.jrnl.full = false →
      let m := t.mgmt
      let b := min 100 busy
      let set := fun (hi lo : Nat) => { t with mgmt := { m with busyPct := b, hiRuns := hi, loRuns := lo } }
      (m.shed = false → t.shedHi < b → t.shedLo ≤ b → m.hiRuns < 2 → exec (.loadShedWindow busy now) s = .next (set (m.hiRuns + 1) 0)) ∧
      (m.shed = false → t.shedHi < b → t.shedLo ≤ b → 2 ≤ m.hiRuns → exec (.loadShedWindow busy now) s = .next
        (State.noteHealth { (set (m.hiRuns + 1) 0).fwRecord 3 with mgmt := { (set (m.hiRuns + 1) 0).mgmt with shed := true } })) ∧
      (m.shed = true → b ≤ t.shedHi → b < t.shedLo → 9 ≤ m.loRuns → exec (.loadShedWindow busy now) s = .next
        (State.noteHealth { (set 0 (m.loRuns + 1)).fwRecord 4 with mgmt := { (set 0 (m.loRuns + 1)).mgmt with shed := false } }))) ∧
  ∀ (x : MbusTry) (now : Nat) (s : State),
    let t := s.tick now
    (t.mgmt.short = true → t.now < t.mgmt.shortAt + 1000000000 → exec (.mbusShortRetry x now) s = .next t) ∧
    (t.mgmt.short = false ∨ t.mgmt.shortAt + 1000000000 ≤ t.now → exec (.mbusShortRetry x now) s = .next
      { t with mgmt := { t.mgmt with
          short := x.short, polrev := x.rev, open_ := x.open_, shortAt := if x.short then t.now else t.mgmt.shortAt,
          coll := satAdd 0xFFFF t.mgmt.coll x.colls,
          excess := if t.fld 0x3000040 8 1 = 0 ∧ 16 ≤ x.colls then satAdd 0xFFFF t.mgmt.excess 1 else t.mgmt.excess } })

/-- A step takes the command at the front of the queue and runs it with the queue's rest, and every command answers a next state, from every state: no
command stops this block. On an empty queue the block idles, which is the model's choice (log 12). -/
def Obligations.StepRunsFront : Prop :=
  (∀ (c : Instr) (rest : List Instr) (s : State), s.pending = c :: rest → step s = exec c { s with pending := rest }) ∧
  (∀ (c : Instr) (s : State), step { s with pending := c :: s.pending } = exec c s) ∧
  (∀ s : State, s.pending = [] → step s = .next s) ∧
  ∀ (c : Instr) (s : State), Safe (exec c s)

/-- R34, R167, R168, R354, R383, R390, R441, R473, R544, R581, R582: what reset leaves of the registers that the manual gives a reset value for, and that
memory has its canonical form and no operation is in flight. (An unlisted byte of device DRAM reads zero, R328; one of host memory does by log 1.) -/
def Obligations.ResetState : Prop :=
  let s := State.reset
  s.pending = [] ∧ s.mem.wf = true ∧ s.OpNumbers ∧ (∀ f a n : Nat, s.hostBytes f a n = List.replicate n 0) ∧
  s.udpPort = 0xB7FC ∧ s.enV4 = true ∧ s.enV6 = true ∧ s.rtoMin = 20000 ∧ s.ackPkts = 8 ∧ s.ackDelay = 2000 ∧ s.lostTime = 250000000 ∧
  s.drainNs = 1000000 ∧ s.quietNs = 30000000000 ∧ s.minSvn = 0 ∧ s.fld 0x1400000 0 16 = 0xB7FD ∧ s.notc = true ∧ s.openContrib = false ∧
  s.fld 0x800100 0 10 = 0x100 ∧ s.fld 0x800100 16 10 = 0x40 ∧ s.fld 0x1800000 0 6 = 32 ∧ s.fld 0x1800000 16 8 = 100 ∧
  s.fld 0x1C00000 16 16 = 20 ∧ s.fld 0x1C00008 0 16 = 2200 ∧ s.fld 0x1C00008 16 16 = 1000 ∧
  (∀ n : Fin 4, s.fld (0x100100 + 8 * n.val) 0 5 = 16 ∧ s.fld (0x200100 + 8 * n.val) 16 16 = 1000 ∧ s.fld (0x1000008 + 0x10000 * n.val) 8 8 = 64) ∧
  s.fld 0x200010 0 11 = 1400 ∧ s.fld 0x200018 0 8 = 100 ∧ s.fld 0x3000040 24 8 = 5 ∧ s.fld 0x3000040 32 16 = 0xB7FE ∧ s.telEn = false ∧
  s.shedHi = 90 ∧ s.shedLo = 60 ∧ s.fld 0x3000070 0 16 = 500 ∧
  (∀ p : Nat, (s.part p).state = .empty ∧ (s.part p).tdi = 0) ∧ (∀ f k : Nat, (s.ring f k).state = .free) ∧
  (∀ f h : Nat, (s.conn f h).state = .free) ∧ s.jrnl.next = 0 ∧ s.jrnl.full = false

/-- The memory keeps its one canonical form: addresses strictly rising, and no byte listed that reads the same unlisted. No step of any command, from any
state that has the form, leaves it. -/
def Obligations.StepKeepsMemory : Prop := ∀ s t : State, s.mem.wf = true → step s = .next t → t.mem.wf = true

/-- R73, R118: the completion entry. Its 32 bytes, at the tail of the completion ring, spell four little-endian words with the fields of the table and zeros in the
reserved bits; PHASE is 1 on a new ring's first lap and inverts each lap. An operation that ends hands over its own GEN, TAG and OPCODE, and the
device time and epoch at which its status is decided. One with LT_EN that ends OK, LATE or DEGRADED adds 1 to LTALLY before its completion is
written, and any other status leaves LTALLY unchanged. -/
def Obligations.CompletionEntry : Prop :=
  (∀ (f k : Nat) (c : Compl) (s : State),
    let r := s.ring f k
    s.mem.wf = true → r.state ≠ .free → r.cqBad = false → r.waiting = [] → (c.slot = true ∨ 0 < r.cqFree) →
    s.missing f (r.cqBase + 32 * r.cqTail) 32 true = none → c.gen < 2 ^ 16 → c.bytes < 2 ^ 48 → c.sqhead = none → r.head < 2 ^ 16 → c.time < 2 ^ 64 → c.tepoch < 2 ^ 8 →
    c.opcode < 2 ^ 11 → c.detail < 2 ^ 32 →
    let t := s.complete f k c
    let a := r.cqBase + 32 * r.cqTail
    let word := fun (i : Nat) => leNat (t.hostBytes f (a + 8 * i) 8)
    word 0 = c.tag.toNat + c.gen * 2 ^ 32 + c.status.code * 2 ^ 48 + bit r.cqPhase * 2 ^ 63 ∧
    word 1 = c.bytes + r.head * 2 ^ 48 ∧ word 2 = c.time ∧ word 3 = c.detail + c.opcode * 2 ^ 32 + c.tepoch * 2 ^ 56 ∧
    (r.cqBase % 4096 = 0 → a % 32 = 0) ∧ (t.ring f k).cqTail = (r.cqTail + 1) % r.cqSize ∧
    (t.ring f k).cqPhase = (if r.cqTail + 1 = r.cqSize then ! r.cqPhase else r.cqPhase)) ∧
  (∀ (sq cq cls sqBase cqBase : Nat) (raw : Bool), (newRing sq cq cls sqBase cqBase raw).cqPhase = true) ∧
  (∀ (f id n d : Nat) (st : Status) (o : Op) (s : State), s.op? f id = some o → o.gen = (s.fn f).gen → o.ltally = none → st ≠ .state →
    let u := s.dropOp f id (o.final st).good
    let v := if (o.final st).good ∨ o.waiting then u else u.modRing f o.ring fun r => { r with badEnds := r.badEnds + 1 }
    s.endOp f id st n d = v.complete f o.ring
      { status := o.final st, gen := o.gen, tag := o.tag, sqhead := none, bytes := n, opcode := o.opcode, detail := d, slot := o.slot,
        time := s.clk.time, tepoch := s.clk.tepoch, op := some id }) ∧
  ∀ (f id n d i : Nat) (st : Status) (o : Op) (x : Tally) (s : State), s.op? f id = some o → o.gen = (s.fn f).gen → o.ltally = some i →
    aget (s.fn f).tallies i = some x → x.bad = false →
    (st = .ok ∨ st = .late ∨ st = .degraded →
      let u := s.tallyAdd f i 1
      u.tallyCount f i = min (2 ^ 64 - 1) (x.count + 1) ∧
      s.endOp f id st n d = (u.dropOp f id true).complete f o.ring
        { status := o.final st, gen := o.gen, tag := o.tag, sqhead := none, bytes := n, opcode := o.opcode, detail := d, slot := o.slot,
          time := s.clk.time, tepoch := s.clk.tepoch, op := some id }) ∧
    (st ≠ .ok → st ≠ .late → st ≠ .degraded → (s.endOp f id st n d).tallyCount f i = x.count)

/-- R435, R436, R437: the change journal. A record is 128 bytes with its fields at the places of the table; the record that an event commits takes the next
SEQ, the time of the event and a CHAIN over the CHAIN before it and its own bytes 0 to 79; record 0 of a boot starts from DEVID and the boot
nonce. A commit changes nothing beside the journal and pending vectors. SHA-384 is a constant without a body. -/
def Obligations.JournalRecords : Prop :=
  (∀ r : JRec,
    r.bytes.length = 128 ∧ r.bytes.take 8 = leBytes 8 r.seq ∧ (r.bytes.drop 8).take 8 = leBytes 8 r.time ∧
    (r.bytes.drop 16).take 1 = leBytes 1 r.tepoch ∧ (r.bytes.drop 17).take 1 = leBytes 1 r.body.type ∧
    (r.bytes.drop 18).take 1 = leBytes 1 r.origin.code ∧ (r.bytes.drop 19).take 1 = leBytes 1 r.origin.link ∧
    (r.bytes.drop 20).take 2 = leBytes 2 r.origin.idNum ∧ (r.bytes.drop 22).take 1 = leBytes 1 (bit r.mixed + 2 * bit r.final) ∧
    (r.bytes.drop 23).take 1 = [0] ∧ (r.bytes.drop 24).take 4 = leBytes 4 r.count ∧ (r.bytes.drop 28).take 52 = r.body.bytes ∧
    r.bytes.drop 80 = leBytes 48 r.chain.toNat) ∧
  (∀ (o : Origin) (b : JBody) (s : State),
    let t := s.jCommit o b
    ∃ r : JRec, t.jrnl.recs = s.jrnl.recs ++ [r] ∧ t.jrnl.next = s.jrnl.next + 1 ∧ t.jrnl.chain = r.chain ∧
      r.seq = s.jrnl.next ∧ r.time = s.clk.time ∧ r.tepoch = s.clk.tepoch ∧ r.origin = o ∧ r.body = b ∧ r.count = 1 ∧
      r.chain = Config.sha384 ((leBytes 48 s.jrnl.chain.toNat ++ r.bytes.take 80).map fun x => x.toNat) ∧
      Kept s t ∧ t.mem = s.mem ∧ t.links = s.links ∧ ∀ f : Nat, t.fn f = { s.fn f with msixPba := (t.fn f).msixPba }) ∧
  ∀ s : State, s.jrnl.next = 0 →
    let nonce := (List.range 4).foldl (fun (n i : Nat) => n + (Config.freeWord (s.free + i)).toNat * 2 ^ (64 * i)) 0
    ∃ r : JRec, s.bootRecord.jrnl.recs = s.jrnl.recs ++ [r] ∧ r.seq = 0 ∧ r.body = .boot nonce s.mgmt.slot s.mgmt.svn ∧
      r.chain = Config.sha384 ((leBytes 48 (Config.sha384 ((leBytes 8 Config.devId.toNat ++ leBytes 32 nonce).map fun x => x.toNat)).toNat ++
        r.bytes.take 80).map fun x => x.toNat)

/-- The frame of nine ring commands (NOP, RING_INVAL, RING_PAUSE, RING_RESUME, DBG_CFG, TALLY_ALLOC, TALLY_FREE, WIN_OPEN, MLIST_CREATE), whatever status they
end with. What `Kept` names is unchanged; every other function is, up to its pending interrupt vectors; and every byte of memory is, outside the
32 bytes of the completion entry at the tail of the entry's own completion ring. (The entry's operation number is in use by no other operation.) -/
def Obligations.RingCommandFrame : Prop :=
  ∀ (c : Instr) (e : Entry) (s t : State), plainCommand c = some e → s.mem.wf = true → s.op? e.fn.idx (s.opId e) = none → exec c s = .next t →
    let f := e.fn.idx
    let r := s.ring f e.ring
    let slot := cellKey f (r.cqBase + 32 * r.cqTail)
    Kept s t ∧ OthersKept f s t ∧ ∀ a : Nat, a < slot ∨ slot + 32 ≤ a → cellGet t.mem.bytes a = cellGet s.mem.bytes a
end

