-- ==== Sys2Proof/Laws/State.lean ====
section
/-!
SUPPORT. State.lean: one lemma for each field and each update that leaves it alone, and the laws of keyed lists and of the contexts that
State holds under keys.
-/

namespace Sys2Proof.Machine

/-! ### Keyed lists -/

@[simp] theorem aget_aset_same {α : Type} (m : AMap α) (k : Nat) (v : α) : aget (aset m k v) k = some v := by
  induction m with
  | nil => simp [aset, aget]
  | cons x t ih =>
    obtain ⟨j, w⟩ := x
    unfold aset
    split
    · simp [aget]
    · split
      · simp [aget]
      · simp [aget, *]

theorem aget_aset_other {α : Type} {m : AMap α} {k j : Nat} {v : α} (h : j ≠ k) : aget (aset m k v) j = aget m j := by
  induction m with
  | nil => simp [aset, aget, Ne.symm h]
  | cons x t ih =>
    obtain ⟨i, w⟩ := x
    unfold aset
    split
    · subst_vars; simp [aget, Ne.symm h]
    · split
      · simp [aget, Ne.symm h]
      · simp only [aget, ih]

@[simp] theorem agetD_aset_same {α : Type} (m : AMap α) (k : Nat) (v d : α) : agetD (aset m k v) k d = v := by simp [agetD]

theorem agetD_aset_other {α : Type} {m : AMap α} {k j : Nat} {v d : α} (h : j ≠ k) : agetD (aset m k v) j d = agetD m j d := by
  simp [agetD, aget_aset_other h]

@[simp] theorem agetD_amod_same {α : Type} (m : AMap α) (k : Nat) (d : α) (g : α → α) : agetD (amod m k d g) k d = g (agetD m k d) := by
  simp [amod]

theorem agetD_amod_other {α : Type} {m : AMap α} {k j : Nat} {d : α} {g : α → α} (h : j ≠ k) : agetD (amod m k d g) j d = agetD m j d := by
  simp [amod, agetD_aset_other h]

/-! ### What each update leaves alone -/

@[simp] theorem setFn_pending (s : State) (f : Nat) (x : FnState) : (s.setFn f x).pending = s.pending := rfl
@[simp] theorem setFn_out (s : State) (f : Nat) (x : FnState) : (s.setFn f x).out = s.out := rfl
@[simp] theorem setFn_free (s : State) (f : Nat) (x : FnState) : (s.setFn f x).free = s.free := rfl
@[simp] theorem setFn_regs (s : State) (f : Nat) (x : FnState) : (s.setFn f x).regs = s.regs := rfl
@[simp] theorem setFn_clk (s : State) (f : Nat) (x : FnState) : (s.setFn f x).clk = s.clk := rfl
@[simp] theorem setFn_parts (s : State) (f : Nat) (x : FnState) : (s.setFn f x).parts = s.parts := rfl
@[simp] theorem setFn_mem (s : State) (f : Nat) (x : FnState) : (s.setFn f x).mem = s.mem := rfl
@[simp] theorem setFn_links (s : State) (f : Nat) (x : FnState) : (s.setFn f x).links = s.links := rfl
@[simp] theorem setFn_mesh (s : State) (f : Nat) (x : FnState) : (s.setFn f x).mesh = s.mesh := rfl
@[simp] theorem setFn_sched (s : State) (f : Nat) (x : FnState) : (s.setFn f x).sched = s.sched := rfl
@[simp] theorem setFn_ports (s : State) (f : Nat) (x : FnState) : (s.setFn f x).ports = s.ports := rfl
@[simp] theorem setFn_flts (s : State) (f : Nat) (x : FnState) : (s.setFn f x).flts = s.flts := rfl
@[simp] theorem setFn_sec (s : State) (f : Nat) (x : FnState) : (s.setFn f x).sec = s.sec := rfl
@[simp] theorem setFn_jrnl (s : State) (f : Nat) (x : FnState) : (s.setFn f x).jrnl = s.jrnl := rfl
@[simp] theorem setFn_err (s : State) (f : Nat) (x : FnState) : (s.setFn f x).err = s.err := rfl
@[simp] theorem setFn_bist (s : State) (f : Nat) (x : FnState) : (s.setFn f x).bist = s.bist := rfl
@[simp] theorem setFn_power (s : State) (f : Nat) (x : FnState) : (s.setFn f x).power = s.power := rfl
@[simp] theorem setFn_card (s : State) (f : Nat) (x : FnState) : (s.setFn f x).card = s.card := rfl
@[simp] theorem setFn_mgmt (s : State) (f : Nat) (x : FnState) : (s.setFn f x).mgmt = s.mgmt := rfl
@[simp] theorem setFn_ibex (s : State) (f : Nat) (x : FnState) : (s.setFn f x).ibex = s.ibex := rfl
@[simp] theorem setFn_images (s : State) (f : Nat) (x : FnState) : (s.setFn f x).images = s.images := rfl
@[simp] theorem setFn_tel (s : State) (f : Nat) (x : FnState) : (s.setFn f x).tel = s.tel := rfl
@[simp] theorem modFn_pending (s : State) (f : Nat) (g : FnState → FnState) : (s.modFn f g).pending = s.pending := rfl
@[simp] theorem modFn_out (s : State) (f : Nat) (g : FnState → FnState) : (s.modFn f g).out = s.out := rfl
@[simp] theorem modFn_free (s : State) (f : Nat) (g : FnState → FnState) : (s.modFn f g).free = s.free := rfl
@[simp] theorem modFn_regs (s : State) (f : Nat) (g : FnState → FnState) : (s.modFn f g).regs = s.regs := rfl
@[simp] theorem modFn_clk (s : State) (f : Nat) (g : FnState → FnState) : (s.modFn f g).clk = s.clk := rfl
@[simp] theorem modFn_parts (s : State) (f : Nat) (g : FnState → FnState) : (s.modFn f g).parts = s.parts := rfl
@[simp] theorem modFn_mem (s : State) (f : Nat) (g : FnState → FnState) : (s.modFn f g).mem = s.mem := rfl
@[simp] theorem modFn_links (s : State) (f : Nat) (g : FnState → FnState) : (s.modFn f g).links = s.links := rfl
@[simp] theorem modFn_mesh (s : State) (f : Nat) (g : FnState → FnState) : (s.modFn f g).mesh = s.mesh := rfl
@[simp] theorem modFn_sched (s : State) (f : Nat) (g : FnState → FnState) : (s.modFn f g).sched = s.sched := rfl
@[simp] theorem modFn_ports (s : State) (f : Nat) (g : FnState → FnState) : (s.modFn f g).ports = s.ports := rfl
@[simp] theorem modFn_flts (s : State) (f : Nat) (g : FnState → FnState) : (s.modFn f g).flts = s.flts := rfl
@[simp] theorem modFn_sec (s : State) (f : Nat) (g : FnState → FnState) : (s.modFn f g).sec = s.sec := rfl
@[simp] theorem modFn_jrnl (s : State) (f : Nat) (g : FnState → FnState) : (s.modFn f g).jrnl = s.jrnl := rfl
@[simp] theorem modFn_err (s : State) (f : Nat) (g : FnState → FnState) : (s.modFn f g).err = s.err := rfl
@[simp] theorem modFn_bist (s : State) (f : Nat) (g : FnState → FnState) : (s.modFn f g).bist = s.bist := rfl
@[simp] theorem modFn_power (s : State) (f : Nat) (g : FnState → FnState) : (s.modFn f g).power = s.power := rfl
@[simp] theorem modFn_card (s : State) (f : Nat) (g : FnState → FnState) : (s.modFn f g).card = s.card := rfl
@[simp] theorem modFn_mgmt (s : State) (f : Nat) (g : FnState → FnState) : (s.modFn f g).mgmt = s.mgmt := rfl
@[simp] theorem modFn_ibex (s : State) (f : Nat) (g : FnState → FnState) : (s.modFn f g).ibex = s.ibex := rfl
@[simp] theorem modFn_images (s : State) (f : Nat) (g : FnState → FnState) : (s.modFn f g).images = s.images := rfl
@[simp] theorem modFn_tel (s : State) (f : Nat) (g : FnState → FnState) : (s.modFn f g).tel = s.tel := rfl
@[simp] theorem setPart_pending (s : State) (p : Nat) (x : Part) : (s.setPart p x).pending = s.pending := rfl
@[simp] theorem setPart_out (s : State) (p : Nat) (x : Part) : (s.setPart p x).out = s.out := rfl
@[simp] theorem setPart_free (s : State) (p : Nat) (x : Part) : (s.setPart p x).free = s.free := rfl
@[simp] theorem setPart_regs (s : State) (p : Nat) (x : Part) : (s.setPart p x).regs = s.regs := rfl
@[simp] theorem setPart_clk (s : State) (p : Nat) (x : Part) : (s.setPart p x).clk = s.clk := rfl
@[simp] theorem setPart_fns (s : State) (p : Nat) (x : Part) : (s.setPart p x).fns = s.fns := rfl
@[simp] theorem setPart_mem (s : State) (p : Nat) (x : Part) : (s.setPart p x).mem = s.mem := rfl
@[simp] theorem setPart_links (s : State) (p : Nat) (x : Part) : (s.setPart p x).links = s.links := rfl
@[simp] theorem setPart_mesh (s : State) (p : Nat) (x : Part) : (s.setPart p x).mesh = s.mesh := rfl
@[simp] theorem setPart_sched (s : State) (p : Nat) (x : Part) : (s.setPart p x).sched = s.sched := rfl
@[simp] theorem setPart_ports (s : State) (p : Nat) (x : Part) : (s.setPart p x).ports = s.ports := rfl
@[simp] theorem setPart_flts (s : State) (p : Nat) (x : Part) : (s.setPart p x).flts = s.flts := rfl
@[simp] theorem setPart_sec (s : State) (p : Nat) (x : Part) : (s.setPart p x).sec = s.sec := rfl
@[simp] theorem setPart_jrnl (s : State) (p : Nat) (x : Part) : (s.setPart p x).jrnl = s.jrnl := rfl
@[simp] theorem setPart_err (s : State) (p : Nat) (x : Part) : (s.setPart p x).err = s.err := rfl
@[simp] theorem setPart_bist (s : State) (p : Nat) (x : Part) : (s.setPart p x).bist = s.bist := rfl
@[simp] theorem setPart_power (s : State) (p : Nat) (x : Part) : (s.setPart p x).power = s.power := rfl
@[simp] theorem setPart_card (s : State) (p : Nat) (x : Part) : (s.setPart p x).card = s.card := rfl
@[simp] theorem setPart_mgmt (s : State) (p : Nat) (x : Part) : (s.setPart p x).mgmt = s.mgmt := rfl
@[simp] theorem setPart_ibex (s : State) (p : Nat) (x : Part) : (s.setPart p x).ibex = s.ibex := rfl
@[simp] theorem setPart_images (s : State) (p : Nat) (x : Part) : (s.setPart p x).images = s.images := rfl
@[simp] theorem setPart_tel (s : State) (p : Nat) (x : Part) : (s.setPart p x).tel = s.tel := rfl
@[simp] theorem modPart_pending (s : State) (p : Nat) (g : Part → Part) : (s.modPart p g).pending = s.pending := rfl
@[simp] theorem modPart_out (s : State) (p : Nat) (g : Part → Part) : (s.modPart p g).out = s.out := rfl
@[simp] theorem modPart_free (s : State) (p : Nat) (g : Part → Part) : (s.modPart p g).free = s.free := rfl
@[simp] theorem modPart_regs (s : State) (p : Nat) (g : Part → Part) : (s.modPart p g).regs = s.regs := rfl
@[simp] theorem modPart_clk (s : State) (p : Nat) (g : Part → Part) : (s.modPart p g).clk = s.clk := rfl
@[simp] theorem modPart_fns (s : State) (p : Nat) (g : Part → Part) : (s.modPart p g).fns = s.fns := rfl
@[simp] theorem modPart_mem (s : State) (p : Nat) (g : Part → Part) : (s.modPart p g).mem = s.mem := rfl
@[simp] theorem modPart_links (s : State) (p : Nat) (g : Part → Part) : (s.modPart p g).links = s.links := rfl
@[simp] theorem modPart_mesh (s : State) (p : Nat) (g : Part → Part) : (s.modPart p g).mesh = s.mesh := rfl
@[simp] theorem modPart_sched (s : State) (p : Nat) (g : Part → Part) : (s.modPart p g).sched = s.sched := rfl
@[simp] theorem modPart_ports (s : State) (p : Nat) (g : Part → Part) : (s.modPart p g).ports = s.ports := rfl
@[simp] theorem modPart_flts (s : State) (p : Nat) (g : Part → Part) : (s.modPart p g).flts = s.flts := rfl
@[simp] theorem modPart_sec (s : State) (p : Nat) (g : Part → Part) : (s.modPart p g).sec = s.sec := rfl
@[simp] theorem modPart_jrnl (s : State) (p : Nat) (g : Part → Part) : (s.modPart p g).jrnl = s.jrnl := rfl
@[simp] theorem modPart_err (s : State) (p : Nat) (g : Part → Part) : (s.modPart p g).err = s.err := rfl
@[simp] theorem modPart_bist (s : State) (p : Nat) (g : Part → Part) : (s.modPart p g).bist = s.bist := rfl
@[simp] theorem modPart_power (s : State) (p : Nat) (g : Part → Part) : (s.modPart p g).power = s.power := rfl
@[simp] theorem modPart_card (s : State) (p : Nat) (g : Part → Part) : (s.modPart p g).card = s.card := rfl
@[simp] theorem modPart_mgmt (s : State) (p : Nat) (g : Part → Part) : (s.modPart p g).mgmt = s.mgmt := rfl
@[simp] theorem modPart_ibex (s : State) (p : Nat) (g : Part → Part) : (s.modPart p g).ibex = s.ibex := rfl
@[simp] theorem modPart_images (s : State) (p : Nat) (g : Part → Part) : (s.modPart p g).images = s.images := rfl
@[simp] theorem modPart_tel (s : State) (p : Nat) (g : Part → Part) : (s.modPart p g).tel = s.tel := rfl
@[simp] theorem modLink_pending (s : State) (l : Nat) (g : Link → Link) : (s.modLink l g).pending = s.pending := rfl
@[simp] theorem modLink_out (s : State) (l : Nat) (g : Link → Link) : (s.modLink l g).out = s.out := rfl
@[simp] theorem modLink_free (s : State) (l : Nat) (g : Link → Link) : (s.modLink l g).free = s.free := rfl
@[simp] theorem modLink_regs (s : State) (l : Nat) (g : Link → Link) : (s.modLink l g).regs = s.regs := rfl
@[simp] theorem modLink_clk (s : State) (l : Nat) (g : Link → Link) : (s.modLink l g).clk = s.clk := rfl
@[simp] theorem modLink_fns (s : State) (l : Nat) (g : Link → Link) : (s.modLink l g).fns = s.fns := rfl
@[simp] theorem modLink_parts (s : State) (l : Nat) (g : Link → Link) : (s.modLink l g).parts = s.parts := rfl
@[simp] theorem modLink_mem (s : State) (l : Nat) (g : Link → Link) : (s.modLink l g).mem = s.mem := rfl
@[simp] theorem modLink_mesh (s : State) (l : Nat) (g : Link → Link) : (s.modLink l g).mesh = s.mesh := rfl
@[simp] theorem modLink_sched (s : State) (l : Nat) (g : Link → Link) : (s.modLink l g).sched = s.sched := rfl
@[simp] theorem modLink_ports (s : State) (l : Nat) (g : Link → Link) : (s.modLink l g).ports = s.ports := rfl
@[simp] theorem modLink_flts (s : State) (l : Nat) (g : Link → Link) : (s.modLink l g).flts = s.flts := rfl
@[simp] theorem modLink_sec (s : State) (l : Nat) (g : Link → Link) : (s.modLink l g).sec = s.sec := rfl
@[simp] theorem modLink_jrnl (s : State) (l : Nat) (g : Link → Link) : (s.modLink l g).jrnl = s.jrnl := rfl
@[simp] theorem modLink_err (s : State) (l : Nat) (g : Link → Link) : (s.modLink l g).err = s.err := rfl
@[simp] theorem modLink_bist (s : State) (l : Nat) (g : Link → Link) : (s.modLink l g).bist = s.bist := rfl
@[simp] theorem modLink_power (s : State) (l : Nat) (g : Link → Link) : (s.modLink l g).power = s.power := rfl
@[simp] theorem modLink_card (s : State) (l : Nat) (g : Link → Link) : (s.modLink l g).card = s.card := rfl
@[simp] theorem modLink_mgmt (s : State) (l : Nat) (g : Link → Link) : (s.modLink l g).mgmt = s.mgmt := rfl
@[simp] theorem modLink_ibex (s : State) (l : Nat) (g : Link → Link) : (s.modLink l g).ibex = s.ibex := rfl
@[simp] theorem modLink_images (s : State) (l : Nat) (g : Link → Link) : (s.modLink l g).images = s.images := rfl
@[simp] theorem modLink_tel (s : State) (l : Nat) (g : Link → Link) : (s.modLink l g).tel = s.tel := rfl
@[simp] theorem modPort_pending (s : State) (q : Nat) (g : Port → Port) : (s.modPort q g).pending = s.pending := rfl
@[simp] theorem modPort_out (s : State) (q : Nat) (g : Port → Port) : (s.modPort q g).out = s.out := rfl
@[simp] theorem modPort_free (s : State) (q : Nat) (g : Port → Port) : (s.modPort q g).free = s.free := rfl
@[simp] theorem modPort_regs (s : State) (q : Nat) (g : Port → Port) : (s.modPort q g).regs = s.regs := rfl
@[simp] theorem modPort_clk (s : State) (q : Nat) (g : Port → Port) : (s.modPort q g).clk = s.clk := rfl
@[simp] theorem modPort_fns (s : State) (q : Nat) (g : Port → Port) : (s.modPort q g).fns = s.fns := rfl
@[simp] theorem modPort_parts (s : State) (q : Nat) (g : Port → Port) : (s.modPort q g).parts = s.parts := rfl
@[simp] theorem modPort_mem (s : State) (q : Nat) (g : Port → Port) : (s.modPort q g).mem = s.mem := rfl
@[simp] theorem modPort_links (s : State) (q : Nat) (g : Port → Port) : (s.modPort q g).links = s.links := rfl
@[simp] theorem modPort_mesh (s : State) (q : Nat) (g : Port → Port) : (s.modPort q g).mesh = s.mesh := rfl
@[simp] theorem modPort_sched (s : State) (q : Nat) (g : Port → Port) : (s.modPort q g).sched = s.sched := rfl
@[simp] theorem modPort_flts (s : State) (q : Nat) (g : Port → Port) : (s.modPort q g).flts = s.flts := rfl
@[simp] theorem modPort_sec (s : State) (q : Nat) (g : Port → Port) : (s.modPort q g).sec = s.sec := rfl
@[simp] theorem modPort_jrnl (s : State) (q : Nat) (g : Port → Port) : (s.modPort q g).jrnl = s.jrnl := rfl
@[simp] theorem modPort_err (s : State) (q : Nat) (g : Port → Port) : (s.modPort q g).err = s.err := rfl
@[simp] theorem modPort_bist (s : State) (q : Nat) (g : Port → Port) : (s.modPort q g).bist = s.bist := rfl
@[simp] theorem modPort_power (s : State) (q : Nat) (g : Port → Port) : (s.modPort q g).power = s.power := rfl
@[simp] theorem modPort_card (s : State) (q : Nat) (g : Port → Port) : (s.modPort q g).card = s.card := rfl
@[simp] theorem modPort_mgmt (s : State) (q : Nat) (g : Port → Port) : (s.modPort q g).mgmt = s.mgmt := rfl
@[simp] theorem modPort_ibex (s : State) (q : Nat) (g : Port → Port) : (s.modPort q g).ibex = s.ibex := rfl
@[simp] theorem modPort_images (s : State) (q : Nat) (g : Port → Port) : (s.modPort q g).images = s.images := rfl
@[simp] theorem modPort_tel (s : State) (q : Nat) (g : Port → Port) : (s.modPort q g).tel = s.tel := rfl
@[simp] theorem emit_pending (s : State) (o : Output) : (s.emit o).pending = s.pending := rfl
@[simp] theorem emit_free (s : State) (o : Output) : (s.emit o).free = s.free := rfl
@[simp] theorem emit_regs (s : State) (o : Output) : (s.emit o).regs = s.regs := rfl
@[simp] theorem emit_clk (s : State) (o : Output) : (s.emit o).clk = s.clk := rfl
@[simp] theorem emit_fns (s : State) (o : Output) : (s.emit o).fns = s.fns := rfl
@[simp] theorem emit_parts (s : State) (o : Output) : (s.emit o).parts = s.parts := rfl
@[simp] theorem emit_mem (s : State) (o : Output) : (s.emit o).mem = s.mem := rfl
@[simp] theorem emit_links (s : State) (o : Output) : (s.emit o).links = s.links := rfl
@[simp] theorem emit_mesh (s : State) (o : Output) : (s.emit o).mesh = s.mesh := rfl
@[simp] theorem emit_sched (s : State) (o : Output) : (s.emit o).sched = s.sched := rfl
@[simp] theorem emit_ports (s : State) (o : Output) : (s.emit o).ports = s.ports := rfl
@[simp] theorem emit_flts (s : State) (o : Output) : (s.emit o).flts = s.flts := rfl
@[simp] theorem emit_sec (s : State) (o : Output) : (s.emit o).sec = s.sec := rfl
@[simp] theorem emit_jrnl (s : State) (o : Output) : (s.emit o).jrnl = s.jrnl := rfl
@[simp] theorem emit_err (s : State) (o : Output) : (s.emit o).err = s.err := rfl
@[simp] theorem emit_bist (s : State) (o : Output) : (s.emit o).bist = s.bist := rfl
@[simp] theorem emit_power (s : State) (o : Output) : (s.emit o).power = s.power := rfl
@[simp] theorem emit_card (s : State) (o : Output) : (s.emit o).card = s.card := rfl
@[simp] theorem emit_mgmt (s : State) (o : Output) : (s.emit o).mgmt = s.mgmt := rfl
@[simp] theorem emit_ibex (s : State) (o : Output) : (s.emit o).ibex = s.ibex := rfl
@[simp] theorem emit_images (s : State) (o : Output) : (s.emit o).images = s.images := rfl
@[simp] theorem emit_tel (s : State) (o : Output) : (s.emit o).tel = s.tel := rfl
@[simp] theorem bump_pending (s : State) : (s.bump).pending = s.pending := rfl
@[simp] theorem bump_out (s : State) : (s.bump).out = s.out := rfl
@[simp] theorem bump_regs (s : State) : (s.bump).regs = s.regs := rfl
@[simp] theorem bump_clk (s : State) : (s.bump).clk = s.clk := rfl
@[simp] theorem bump_fns (s : State) : (s.bump).fns = s.fns := rfl
@[simp] theorem bump_parts (s : State) : (s.bump).parts = s.parts := rfl
@[simp] theorem bump_mem (s : State) : (s.bump).mem = s.mem := rfl
@[simp] theorem bump_links (s : State) : (s.bump).links = s.links := rfl
@[simp] theorem bump_mesh (s : State) : (s.bump).mesh = s.mesh := rfl
@[simp] theorem bump_sched (s : State) : (s.bump).sched = s.sched := rfl
@[simp] theorem bump_ports (s : State) : (s.bump).ports = s.ports := rfl
@[simp] theorem bump_flts (s : State) : (s.bump).flts = s.flts := rfl
@[simp] theorem bump_sec (s : State) : (s.bump).sec = s.sec := rfl
@[simp] theorem bump_jrnl (s : State) : (s.bump).jrnl = s.jrnl := rfl
@[simp] theorem bump_err (s : State) : (s.bump).err = s.err := rfl
@[simp] theorem bump_bist (s : State) : (s.bump).bist = s.bist := rfl
@[simp] theorem bump_power (s : State) : (s.bump).power = s.power := rfl
@[simp] theorem bump_card (s : State) : (s.bump).card = s.card := rfl
@[simp] theorem bump_mgmt (s : State) : (s.bump).mgmt = s.mgmt := rfl
@[simp] theorem bump_ibex (s : State) : (s.bump).ibex = s.ibex := rfl
@[simp] theorem bump_images (s : State) : (s.bump).images = s.images := rfl
@[simp] theorem bump_tel (s : State) : (s.bump).tel = s.tel := rfl
@[simp] theorem tick_pending (s : State) (n : Nat) : (s.tick n).pending = s.pending := rfl
@[simp] theorem tick_out (s : State) (n : Nat) : (s.tick n).out = s.out := rfl
@[simp] theorem tick_free (s : State) (n : Nat) : (s.tick n).free = s.free := rfl
@[simp] theorem tick_regs (s : State) (n : Nat) : (s.tick n).regs = s.regs := rfl
@[simp] theorem tick_fns (s : State) (n : Nat) : (s.tick n).fns = s.fns := rfl
@[simp] theorem tick_parts (s : State) (n : Nat) : (s.tick n).parts = s.parts := rfl
@[simp] theorem tick_mem (s : State) (n : Nat) : (s.tick n).mem = s.mem := rfl
@[simp] theorem tick_links (s : State) (n : Nat) : (s.tick n).links = s.links := rfl
@[simp] theorem tick_mesh (s : State) (n : Nat) : (s.tick n).mesh = s.mesh := rfl
@[simp] theorem tick_sched (s : State) (n : Nat) : (s.tick n).sched = s.sched := rfl
@[simp] theorem tick_ports (s : State) (n : Nat) : (s.tick n).ports = s.ports := rfl
@[simp] theorem tick_flts (s : State) (n : Nat) : (s.tick n).flts = s.flts := rfl
@[simp] theorem tick_sec (s : State) (n : Nat) : (s.tick n).sec = s.sec := rfl
@[simp] theorem tick_jrnl (s : State) (n : Nat) : (s.tick n).jrnl = s.jrnl := rfl
@[simp] theorem tick_err (s : State) (n : Nat) : (s.tick n).err = s.err := rfl
@[simp] theorem tick_bist (s : State) (n : Nat) : (s.tick n).bist = s.bist := rfl
@[simp] theorem tick_power (s : State) (n : Nat) : (s.tick n).power = s.power := rfl
@[simp] theorem tick_card (s : State) (n : Nat) : (s.tick n).card = s.card := rfl
@[simp] theorem tick_mgmt (s : State) (n : Nat) : (s.tick n).mgmt = s.mgmt := rfl
@[simp] theorem tick_ibex (s : State) (n : Nat) : (s.tick n).ibex = s.ibex := rfl
@[simp] theorem tick_images (s : State) (n : Nat) : (s.tick n).images = s.images := rfl
@[simp] theorem setReg_pending (s : State) (off v : Nat) : (s.setReg off v).pending = s.pending := rfl
@[simp] theorem setReg_out (s : State) (off v : Nat) : (s.setReg off v).out = s.out := rfl
@[simp] theorem setReg_free (s : State) (off v : Nat) : (s.setReg off v).free = s.free := rfl
@[simp] theorem setReg_clk (s : State) (off v : Nat) : (s.setReg off v).clk = s.clk := rfl
@[simp] theorem setReg_fns (s : State) (off v : Nat) : (s.setReg off v).fns = s.fns := rfl
@[simp] theorem setReg_parts (s : State) (off v : Nat) : (s.setReg off v).parts = s.parts := rfl
@[simp] theorem setReg_mem (s : State) (off v : Nat) : (s.setReg off v).mem = s.mem := rfl
@[simp] theorem setReg_links (s : State) (off v : Nat) : (s.setReg off v).links = s.links := rfl
@[simp] theorem setReg_mesh (s : State) (off v : Nat) : (s.setReg off v).mesh = s.mesh := rfl
@[simp] theorem setReg_sched (s : State) (off v : Nat) : (s.setReg off v).sched = s.sched := rfl
@[simp] theorem setReg_ports (s : State) (off v : Nat) : (s.setReg off v).ports = s.ports := rfl
@[simp] theorem setReg_flts (s : State) (off v : Nat) : (s.setReg off v).flts = s.flts := rfl
@[simp] theorem setReg_sec (s : State) (off v : Nat) : (s.setReg off v).sec = s.sec := rfl
@[simp] theorem setReg_jrnl (s : State) (off v : Nat) : (s.setReg off v).jrnl = s.jrnl := rfl
@[simp] theorem setReg_err (s : State) (off v : Nat) : (s.setReg off v).err = s.err := rfl
@[simp] theorem setReg_bist (s : State) (off v : Nat) : (s.setReg off v).bist = s.bist := rfl
@[simp] theorem setReg_power (s : State) (off v : Nat) : (s.setReg off v).power = s.power := rfl
@[simp] theorem setReg_card (s : State) (off v : Nat) : (s.setReg off v).card = s.card := rfl
@[simp] theorem setReg_mgmt (s : State) (off v : Nat) : (s.setReg off v).mgmt = s.mgmt := rfl
@[simp] theorem setReg_ibex (s : State) (off v : Nat) : (s.setReg off v).ibex = s.ibex := rfl
@[simp] theorem setReg_images (s : State) (off v : Nat) : (s.setReg off v).images = s.images := rfl
@[simp] theorem setReg_tel (s : State) (off v : Nat) : (s.setReg off v).tel = s.tel := rfl
@[simp] theorem modRing_pending (s : State) (f k : Nat) (g : Ring → Ring) : (s.modRing f k g).pending = s.pending := rfl
@[simp] theorem modRing_out (s : State) (f k : Nat) (g : Ring → Ring) : (s.modRing f k g).out = s.out := rfl
@[simp] theorem modRing_free (s : State) (f k : Nat) (g : Ring → Ring) : (s.modRing f k g).free = s.free := rfl
@[simp] theorem modRing_regs (s : State) (f k : Nat) (g : Ring → Ring) : (s.modRing f k g).regs = s.regs := rfl
@[simp] theorem modRing_clk (s : State) (f k : Nat) (g : Ring → Ring) : (s.modRing f k g).clk = s.clk := rfl
@[simp] theorem modRing_parts (s : State) (f k : Nat) (g : Ring → Ring) : (s.modRing f k g).parts = s.parts := rfl
@[simp] theorem modRing_mem (s : State) (f k : Nat) (g : Ring → Ring) : (s.modRing f k g).mem = s.mem := rfl
@[simp] theorem modRing_links (s : State) (f k : Nat) (g : Ring → Ring) : (s.modRing f k g).links = s.links := rfl
@[simp] theorem modRing_mesh (s : State) (f k : Nat) (g : Ring → Ring) : (s.modRing f k g).mesh = s.mesh := rfl
@[simp] theorem modRing_sched (s : State) (f k : Nat) (g : Ring → Ring) : (s.modRing f k g).sched = s.sched := rfl
@[simp] theorem modRing_ports (s : State) (f k : Nat) (g : Ring → Ring) : (s.modRing f k g).ports = s.ports := rfl
@[simp] theorem modRing_flts (s : State) (f k : Nat) (g : Ring → Ring) : (s.modRing f k g).flts = s.flts := rfl
@[simp] theorem modRing_sec (s : State) (f k : Nat) (g : Ring → Ring) : (s.modRing f k g).sec = s.sec := rfl
@[simp] theorem modRing_jrnl (s : State) (f k : Nat) (g : Ring → Ring) : (s.modRing f k g).jrnl = s.jrnl := rfl
@[simp] theorem modRing_err (s : State) (f k : Nat) (g : Ring → Ring) : (s.modRing f k g).err = s.err := rfl
@[simp] theorem modRing_bist (s : State) (f k : Nat) (g : Ring → Ring) : (s.modRing f k g).bist = s.bist := rfl
@[simp] theorem modRing_power (s : State) (f k : Nat) (g : Ring → Ring) : (s.modRing f k g).power = s.power := rfl
@[simp] theorem modRing_card (s : State) (f k : Nat) (g : Ring → Ring) : (s.modRing f k g).card = s.card := rfl
@[simp] theorem modRing_mgmt (s : State) (f k : Nat) (g : Ring → Ring) : (s.modRing f k g).mgmt = s.mgmt := rfl
@[simp] theorem modRing_ibex (s : State) (f k : Nat) (g : Ring → Ring) : (s.modRing f k g).ibex = s.ibex := rfl
@[simp] theorem modRing_images (s : State) (f k : Nat) (g : Ring → Ring) : (s.modRing f k g).images = s.images := rfl
@[simp] theorem modRing_tel (s : State) (f k : Nat) (g : Ring → Ring) : (s.modRing f k g).tel = s.tel := rfl
@[simp] theorem modOp_pending (s : State) (f i : Nat) (g : Op → Op) : (s.modOp f i g).pending = s.pending := rfl
@[simp] theorem modOp_out (s : State) (f i : Nat) (g : Op → Op) : (s.modOp f i g).out = s.out := rfl
@[simp] theorem modOp_free (s : State) (f i : Nat) (g : Op → Op) : (s.modOp f i g).free = s.free := rfl
@[simp] theorem modOp_regs (s : State) (f i : Nat) (g : Op → Op) : (s.modOp f i g).regs = s.regs := rfl
@[simp] theorem modOp_clk (s : State) (f i : Nat) (g : Op → Op) : (s.modOp f i g).clk = s.clk := rfl
@[simp] theorem modOp_parts (s : State) (f i : Nat) (g : Op → Op) : (s.modOp f i g).parts = s.parts := rfl
@[simp] theorem modOp_mem (s : State) (f i : Nat) (g : Op → Op) : (s.modOp f i g).mem = s.mem := rfl
@[simp] theorem modOp_links (s : State) (f i : Nat) (g : Op → Op) : (s.modOp f i g).links = s.links := rfl
@[simp] theorem modOp_mesh (s : State) (f i : Nat) (g : Op → Op) : (s.modOp f i g).mesh = s.mesh := rfl
@[simp] theorem modOp_sched (s : State) (f i : Nat) (g : Op → Op) : (s.modOp f i g).sched = s.sched := rfl
@[simp] theorem modOp_ports (s : State) (f i : Nat) (g : Op → Op) : (s.modOp f i g).ports = s.ports := rfl
@[simp] theorem modOp_flts (s : State) (f i : Nat) (g : Op → Op) : (s.modOp f i g).flts = s.flts := rfl
@[simp] theorem modOp_sec (s : State) (f i : Nat) (g : Op → Op) : (s.modOp f i g).sec = s.sec := rfl
@[simp] theorem modOp_jrnl (s : State) (f i : Nat) (g : Op → Op) : (s.modOp f i g).jrnl = s.jrnl := rfl
@[simp] theorem modOp_err (s : State) (f i : Nat) (g : Op → Op) : (s.modOp f i g).err = s.err := rfl
@[simp] theorem modOp_bist (s : State) (f i : Nat) (g : Op → Op) : (s.modOp f i g).bist = s.bist := rfl
@[simp] theorem modOp_power (s : State) (f i : Nat) (g : Op → Op) : (s.modOp f i g).power = s.power := rfl
@[simp] theorem modOp_card (s : State) (f i : Nat) (g : Op → Op) : (s.modOp f i g).card = s.card := rfl
@[simp] theorem modOp_mgmt (s : State) (f i : Nat) (g : Op → Op) : (s.modOp f i g).mgmt = s.mgmt := rfl
@[simp] theorem modOp_ibex (s : State) (f i : Nat) (g : Op → Op) : (s.modOp f i g).ibex = s.ibex := rfl
@[simp] theorem modOp_images (s : State) (f i : Nat) (g : Op → Op) : (s.modOp f i g).images = s.images := rfl
@[simp] theorem modOp_tel (s : State) (f i : Nat) (g : Op → Op) : (s.modOp f i g).tel = s.tel := rfl
@[simp] theorem modConn_pending (s : State) (f h : Nat) (g : Conn → Conn) : (s.modConn f h g).pending = s.pending := rfl
@[simp] theorem modConn_out (s : State) (f h : Nat) (g : Conn → Conn) : (s.modConn f h g).out = s.out := rfl
@[simp] theorem modConn_free (s : State) (f h : Nat) (g : Conn → Conn) : (s.modConn f h g).free = s.free := rfl
@[simp] theorem modConn_regs (s : State) (f h : Nat) (g : Conn → Conn) : (s.modConn f h g).regs = s.regs := rfl
@[simp] theorem modConn_clk (s : State) (f h : Nat) (g : Conn → Conn) : (s.modConn f h g).clk = s.clk := rfl
@[simp] theorem modConn_parts (s : State) (f h : Nat) (g : Conn → Conn) : (s.modConn f h g).parts = s.parts := rfl
@[simp] theorem modConn_mem (s : State) (f h : Nat) (g : Conn → Conn) : (s.modConn f h g).mem = s.mem := rfl
@[simp] theorem modConn_links (s : State) (f h : Nat) (g : Conn → Conn) : (s.modConn f h g).links = s.links := rfl
@[simp] theorem modConn_mesh (s : State) (f h : Nat) (g : Conn → Conn) : (s.modConn f h g).mesh = s.mesh := rfl
@[simp] theorem modConn_sched (s : State) (f h : Nat) (g : Conn → Conn) : (s.modConn f h g).sched = s.sched := rfl
@[simp] theorem modConn_ports (s : State) (f h : Nat) (g : Conn → Conn) : (s.modConn f h g).ports = s.ports := rfl
@[simp] theorem modConn_flts (s : State) (f h : Nat) (g : Conn → Conn) : (s.modConn f h g).flts = s.flts := rfl
@[simp] theorem modConn_sec (s : State) (f h : Nat) (g : Conn → Conn) : (s.modConn f h g).sec = s.sec := rfl
@[simp] theorem modConn_jrnl (s : State) (f h : Nat) (g : Conn → Conn) : (s.modConn f h g).jrnl = s.jrnl := rfl
@[simp] theorem modConn_err (s : State) (f h : Nat) (g : Conn → Conn) : (s.modConn f h g).err = s.err := rfl
@[simp] theorem modConn_bist (s : State) (f h : Nat) (g : Conn → Conn) : (s.modConn f h g).bist = s.bist := rfl
@[simp] theorem modConn_power (s : State) (f h : Nat) (g : Conn → Conn) : (s.modConn f h g).power = s.power := rfl
@[simp] theorem modConn_card (s : State) (f h : Nat) (g : Conn → Conn) : (s.modConn f h g).card = s.card := rfl
@[simp] theorem modConn_mgmt (s : State) (f h : Nat) (g : Conn → Conn) : (s.modConn f h g).mgmt = s.mgmt := rfl
@[simp] theorem modConn_ibex (s : State) (f h : Nat) (g : Conn → Conn) : (s.modConn f h g).ibex = s.ibex := rfl
@[simp] theorem modConn_images (s : State) (f h : Nat) (g : Conn → Conn) : (s.modConn f h g).images = s.images := rfl
@[simp] theorem modConn_tel (s : State) (f h : Nat) (g : Conn → Conn) : (s.modConn f h g).tel = s.tel := rfl
@[simp] theorem modWin_pending (s : State) (f i : Nat) (g : Win → Win) : (s.modWin f i g).pending = s.pending := rfl
@[simp] theorem modWin_out (s : State) (f i : Nat) (g : Win → Win) : (s.modWin f i g).out = s.out := rfl
@[simp] theorem modWin_free (s : State) (f i : Nat) (g : Win → Win) : (s.modWin f i g).free = s.free := rfl
@[simp] theorem modWin_regs (s : State) (f i : Nat) (g : Win → Win) : (s.modWin f i g).regs = s.regs := rfl
@[simp] theorem modWin_clk (s : State) (f i : Nat) (g : Win → Win) : (s.modWin f i g).clk = s.clk := rfl
@[simp] theorem modWin_parts (s : State) (f i : Nat) (g : Win → Win) : (s.modWin f i g).parts = s.parts := rfl
@[simp] theorem modWin_mem (s : State) (f i : Nat) (g : Win → Win) : (s.modWin f i g).mem = s.mem := rfl
@[simp] theorem modWin_links (s : State) (f i : Nat) (g : Win → Win) : (s.modWin f i g).links = s.links := rfl
@[simp] theorem modWin_mesh (s : State) (f i : Nat) (g : Win → Win) : (s.modWin f i g).mesh = s.mesh := rfl
@[simp] theorem modWin_sched (s : State) (f i : Nat) (g : Win → Win) : (s.modWin f i g).sched = s.sched := rfl
@[simp] theorem modWin_ports (s : State) (f i : Nat) (g : Win → Win) : (s.modWin f i g).ports = s.ports := rfl
@[simp] theorem modWin_flts (s : State) (f i : Nat) (g : Win → Win) : (s.modWin f i g).flts = s.flts := rfl
@[simp] theorem modWin_sec (s : State) (f i : Nat) (g : Win → Win) : (s.modWin f i g).sec = s.sec := rfl
@[simp] theorem modWin_jrnl (s : State) (f i : Nat) (g : Win → Win) : (s.modWin f i g).jrnl = s.jrnl := rfl
@[simp] theorem modWin_err (s : State) (f i : Nat) (g : Win → Win) : (s.modWin f i g).err = s.err := rfl
@[simp] theorem modWin_bist (s : State) (f i : Nat) (g : Win → Win) : (s.modWin f i g).bist = s.bist := rfl
@[simp] theorem modWin_power (s : State) (f i : Nat) (g : Win → Win) : (s.modWin f i g).power = s.power := rfl
@[simp] theorem modWin_card (s : State) (f i : Nat) (g : Win → Win) : (s.modWin f i g).card = s.card := rfl
@[simp] theorem modWin_mgmt (s : State) (f i : Nat) (g : Win → Win) : (s.modWin f i g).mgmt = s.mgmt := rfl
@[simp] theorem modWin_ibex (s : State) (f i : Nat) (g : Win → Win) : (s.modWin f i g).ibex = s.ibex := rfl
@[simp] theorem modWin_images (s : State) (f i : Nat) (g : Win → Win) : (s.modWin f i g).images = s.images := rfl
@[simp] theorem modWin_tel (s : State) (f i : Nat) (g : Win → Win) : (s.modWin f i g).tel = s.tel := rfl
@[simp] theorem modDom_pending (s : State) (n : Nat) (g : RegPow → RegPow) : (s.modDom n g).pending = s.pending := rfl
@[simp] theorem modDom_out (s : State) (n : Nat) (g : RegPow → RegPow) : (s.modDom n g).out = s.out := rfl
@[simp] theorem modDom_free (s : State) (n : Nat) (g : RegPow → RegPow) : (s.modDom n g).free = s.free := rfl
@[simp] theorem modDom_regs (s : State) (n : Nat) (g : RegPow → RegPow) : (s.modDom n g).regs = s.regs := rfl
@[simp] theorem modDom_clk (s : State) (n : Nat) (g : RegPow → RegPow) : (s.modDom n g).clk = s.clk := rfl
@[simp] theorem modDom_fns (s : State) (n : Nat) (g : RegPow → RegPow) : (s.modDom n g).fns = s.fns := rfl
@[simp] theorem modDom_parts (s : State) (n : Nat) (g : RegPow → RegPow) : (s.modDom n g).parts = s.parts := rfl
@[simp] theorem modDom_mem (s : State) (n : Nat) (g : RegPow → RegPow) : (s.modDom n g).mem = s.mem := rfl
@[simp] theorem modDom_links (s : State) (n : Nat) (g : RegPow → RegPow) : (s.modDom n g).links = s.links := rfl
@[simp] theorem modDom_mesh (s : State) (n : Nat) (g : RegPow → RegPow) : (s.modDom n g).mesh = s.mesh := rfl
@[simp] theorem modDom_sched (s : State) (n : Nat) (g : RegPow → RegPow) : (s.modDom n g).sched = s.sched := rfl
@[simp] theorem modDom_ports (s : State) (n : Nat) (g : RegPow → RegPow) : (s.modDom n g).ports = s.ports := rfl
@[simp] theorem modDom_flts (s : State) (n : Nat) (g : RegPow → RegPow) : (s.modDom n g).flts = s.flts := rfl
@[simp] theorem modDom_sec (s : State) (n : Nat) (g : RegPow → RegPow) : (s.modDom n g).sec = s.sec := rfl
@[simp] theorem modDom_jrnl (s : State) (n : Nat) (g : RegPow → RegPow) : (s.modDom n g).jrnl = s.jrnl := rfl
@[simp] theorem modDom_err (s : State) (n : Nat) (g : RegPow → RegPow) : (s.modDom n g).err = s.err := rfl
@[simp] theorem modDom_bist (s : State) (n : Nat) (g : RegPow → RegPow) : (s.modDom n g).bist = s.bist := rfl
@[simp] theorem modDom_card (s : State) (n : Nat) (g : RegPow → RegPow) : (s.modDom n g).card = s.card := rfl
@[simp] theorem modDom_mgmt (s : State) (n : Nat) (g : RegPow → RegPow) : (s.modDom n g).mgmt = s.mgmt := rfl
@[simp] theorem modDom_ibex (s : State) (n : Nat) (g : RegPow → RegPow) : (s.modDom n g).ibex = s.ibex := rfl
@[simp] theorem modDom_images (s : State) (n : Nat) (g : RegPow → RegPow) : (s.modDom n g).images = s.images := rfl
@[simp] theorem modDom_tel (s : State) (n : Nat) (g : RegPow → RegPow) : (s.modDom n g).tel = s.tel := rfl

/-! ### What each update sets -/

@[simp] theorem emit_out (s : State) (o : Output) : (s.emit o).out = s.out ++ [o] := rfl
@[simp] theorem bump_free (s : State) : s.bump.free = s.free + 1 := rfl
@[simp] theorem tick_clk (s : State) (n : Nat) : (s.tick n).clk = s.clk.tick n := rfl

@[simp] theorem tick_fn (s : State) (n f : Nat) : (s.tick n).fn f = s.fn f := rfl
@[simp] theorem tick_part (s : State) (n p : Nat) : (s.tick n).part p = s.part p := rfl
@[simp] theorem tick_link (s : State) (n l : Nat) : (s.tick n).link l = s.link l := rfl
@[simp] theorem tick_port (s : State) (n q : Nat) : (s.tick n).port q = s.port q := rfl
@[simp] theorem tick_ring (s : State) (n f k : Nat) : (s.tick n).ring f k = s.ring f k := rfl
@[simp] theorem tick_conn (s : State) (n f h : Nat) : (s.tick n).conn f h = s.conn f h := rfl
@[simp] theorem tick_reg (s : State) (n off : Nat) : (s.tick n).reg off = s.reg off := rfl

@[simp] theorem fn_modFn (s : State) (f : Nat) (g : FnState → FnState) : (s.modFn f g).fn f = g (s.fn f) := by
  simp [State.modFn, State.setFn, State.fn]

theorem fn_modFn_other {s : State} {f j : Nat} {g : FnState → FnState} (h : j ≠ f) : (s.modFn f g).fn j = s.fn j := by
  simp [State.modFn, State.setFn, State.fn, agetD_aset_other h]

@[simp] theorem part_modFn (s : State) (f p : Nat) (g : FnState → FnState) : (s.modFn f g).part p = s.part p := rfl
@[simp] theorem link_modFn (s : State) (f l : Nat) (g : FnState → FnState) : (s.modFn f g).link l = s.link l := rfl
@[simp] theorem port_modFn (s : State) (f q : Nat) (g : FnState → FnState) : (s.modFn f g).port q = s.port q := rfl

@[simp] theorem part_modPart (s : State) (p : Nat) (g : Part → Part) : (s.modPart p g).part p = g (s.part p) := by
  simp [State.modPart, State.setPart, State.part]

theorem part_modPart_other {s : State} {p j : Nat} {g : Part → Part} (h : j ≠ p) : (s.modPart p g).part j = s.part j := by
  simp [State.modPart, State.setPart, State.part, agetD_aset_other h]

@[simp] theorem fn_modPart (s : State) (p f : Nat) (g : Part → Part) : (s.modPart p g).fn f = s.fn f := rfl

@[simp] theorem link_modLink (s : State) (l : Nat) (g : Link → Link) : (s.modLink l g).link l = g (s.link l) := by
  simp [State.modLink, State.link]

@[simp] theorem port_modPort (s : State) (q : Nat) (g : Port → Port) : (s.modPort q g).port q = g (s.port q) := by
  simp [State.modPort, State.port]

@[simp] theorem ring_modRing (s : State) (f k : Nat) (g : Ring → Ring) : (s.modRing f k g).ring f k = g (s.ring f k) := by
  simp [State.modRing, State.ring]

theorem ring_modRing_other {s : State} {f k j : Nat} {g : Ring → Ring} (h : j ≠ k) : (s.modRing f k g).ring f j = s.ring f j := by
  simp [State.modRing, State.ring, agetD_amod_other h]

/-! ### Connections -/

@[simp] theorem conn_modConn (s : State) (f h : Nat) (g : Conn → Conn) : (s.modConn f h g).conn f h = g (s.conn f h) := by
  simp [State.conn, State.modConn]

theorem conn_modConn_other {s : State} {f h k : Nat} {g : Conn → Conn} (n : k ≠ h) : (s.modConn f h g).conn f k = s.conn f k := by
  simp [State.conn, State.modConn, agetD_amod_other n]

/-! ### Bytes -/

@[simp] theorem leBytes_length (n v : Nat) : (leBytes n v).length = n := by simp [leBytes]
@[simp] theorem beBytes_length (n v : Nat) : (beBytes n v).length = n := by simp [beBytes]

end Sys2Proof.Machine
end

