-- ==== Sys2Proof/Laws/Entry.lean ====
section
/-!
SUPPORT. Entry.lean: what a started entry changes: the laws every claim about a ring command rests on.
-/

namespace Sys2Proof.Machine

/-! ### Status conditions (R9) -/

@[simp] theorem ck_false (c : Prop) [Decidable c] (st : Status) (h : ¬ c) : ck c st = [] := by simp [ck, h]

@[simp] theorem pick_nil : pick [] = none := rfl

theorem checked_nil (s : State) (f id : Nat) (k : State → State) : s.checked f id [] k = k s := rfl

/-- Conditions that do not hold let a command go on. -/
theorem checked_ok {s : State} {f id : Nat} {l : List Status} {k : State → State} (h : l = []) : s.checked f id l k = k s := by
  subst h
  rfl

/-! ### Started entries -/

/-- A ready entry starts: its operation is in the in-flight table and its effect runs. -/
theorem startEntry_ready {s : State} {e : Entry} {op : Nat} {lens : Nat → Bool} {cmd : Instr} {eff : Nat → State → State}
    {raw norm form : Bool} (h : Ready s e lens form) (hf : (if form then raw else norm) = true) :
    s.startEntry e op lens cmd eff raw norm = eff (s.opId e) (s.begun e op cmd) := by
  have h1 : s.headerChecks e lens raw norm = [] := by
    have := h.fits
    have h2 := h.form
    simp only [State.headerChecks, h.slots, h.rsv, h.gen, h2, hf]
    simp [ck]
    omega
  unfold State.startEntry
  simp only [h.starts, h1, if_true, pick_nil]
  rfl

@[simp] theorem begun_pending (s : State) (e : Entry) (op : Nat) (c : Instr) : (s.begun e op c).pending = s.pending := rfl
@[simp] theorem begun_out (s : State) (e : Entry) (op : Nat) (c : Instr) : (s.begun e op c).out = s.out := rfl
@[simp] theorem begun_free (s : State) (e : Entry) (op : Nat) (c : Instr) : (s.begun e op c).free = s.free := rfl
@[simp] theorem begun_regs (s : State) (e : Entry) (op : Nat) (c : Instr) : (s.begun e op c).regs = s.regs := rfl
@[simp] theorem begun_clk (s : State) (e : Entry) (op : Nat) (c : Instr) : (s.begun e op c).clk = s.clk := rfl
@[simp] theorem begun_parts (s : State) (e : Entry) (op : Nat) (c : Instr) : (s.begun e op c).parts = s.parts := rfl
@[simp] theorem begun_mem (s : State) (e : Entry) (op : Nat) (c : Instr) : (s.begun e op c).mem = s.mem := rfl
@[simp] theorem begun_links (s : State) (e : Entry) (op : Nat) (c : Instr) : (s.begun e op c).links = s.links := rfl
@[simp] theorem begun_mesh (s : State) (e : Entry) (op : Nat) (c : Instr) : (s.begun e op c).mesh = s.mesh := rfl
@[simp] theorem begun_sched (s : State) (e : Entry) (op : Nat) (c : Instr) : (s.begun e op c).sched = s.sched := rfl
@[simp] theorem begun_ports (s : State) (e : Entry) (op : Nat) (c : Instr) : (s.begun e op c).ports = s.ports := rfl
@[simp] theorem begun_flts (s : State) (e : Entry) (op : Nat) (c : Instr) : (s.begun e op c).flts = s.flts := rfl
@[simp] theorem begun_sec (s : State) (e : Entry) (op : Nat) (c : Instr) : (s.begun e op c).sec = s.sec := rfl
@[simp] theorem begun_jrnl (s : State) (e : Entry) (op : Nat) (c : Instr) : (s.begun e op c).jrnl = s.jrnl := rfl
@[simp] theorem begun_err (s : State) (e : Entry) (op : Nat) (c : Instr) : (s.begun e op c).err = s.err := rfl
@[simp] theorem begun_bist (s : State) (e : Entry) (op : Nat) (c : Instr) : (s.begun e op c).bist = s.bist := rfl
@[simp] theorem begun_power (s : State) (e : Entry) (op : Nat) (c : Instr) : (s.begun e op c).power = s.power := rfl
@[simp] theorem begun_card (s : State) (e : Entry) (op : Nat) (c : Instr) : (s.begun e op c).card = s.card := rfl
@[simp] theorem begun_mgmt (s : State) (e : Entry) (op : Nat) (c : Instr) : (s.begun e op c).mgmt = s.mgmt := rfl
@[simp] theorem begun_ibex (s : State) (e : Entry) (op : Nat) (c : Instr) : (s.begun e op c).ibex = s.ibex := rfl
@[simp] theorem begun_images (s : State) (e : Entry) (op : Nat) (c : Instr) : (s.begun e op c).images = s.images := rfl

/-- A started entry changes its function's rings, operations and operation number, and nothing else of it. -/
theorem begun_fn (s : State) (e : Entry) (op : Nat) (c : Instr) :
    (s.begun e op c).fn e.fn.idx = { s.fn e.fn.idx with
      rings := amod (s.fn e.fn.idx).rings e.ring {} fun r => { r.advance (r.taken e.slots) with reserved := r.reserved + 1 },
      ops := (s.fn e.fn.idx).ops ++ [newOp s e op c], nextOp := (s.fn e.fn.idx).nextOp + 1 } := by
  simp [State.begun, State.taken, State.modRing]

theorem begun_fn_other {s : State} {e : Entry} {op j : Nat} {c : Instr} (h : j ≠ e.fn.idx) : (s.begun e op c).fn j = s.fn j := by
  simp [State.begun, State.taken, State.modRing, fn_modFn_other h]

@[simp] theorem begun_ring (s : State) (e : Entry) (op : Nat) (c : Instr) :
    (s.begun e op c).ring e.fn.idx e.ring =
      { (s.ring e.fn.idx e.ring).advance ((s.ring e.fn.idx e.ring).taken e.slots) with
        reserved := (s.ring e.fn.idx e.ring).reserved + 1 } := by
  simp [State.ring, begun_fn]

theorem begun_ring_other {s : State} {e : Entry} {op k : Nat} {c : Instr} (h : k ≠ e.ring) :
    (s.begun e op c).ring e.fn.idx k = s.ring e.fn.idx k := by
  simp [State.ring, begun_fn, agetD_amod_other h]

@[simp] theorem begun_sqSize (s : State) (e : Entry) (op : Nat) (c : Instr) (k : Nat) :
    ((s.begun e op c).ring e.fn.idx k).sqSize = (s.ring e.fn.idx k).sqSize := by
  by_cases h : k = e.ring
  · rw [h, begun_ring]
    rfl
  · rw [begun_ring_other h]

/-! ### What a started entry leaves of a function -/

@[simp] theorem begun_tallies (s : State) (e : Entry) (op : Nat) (c : Instr) (f : Nat) : ((s.begun e op c).fn f).tallies = (s.fn f).tallies := by
  by_cases h : f = e.fn.idx
  · subst h
    rw [begun_fn]
  · rw [begun_fn_other h]

@[simp] theorem begun_armed (s : State) (e : Entry) (op : Nat) (c : Instr) (f : Nat) : ((s.begun e op c).fn f).armed = (s.fn f).armed := by
  by_cases h : f = e.fn.idx
  · subst h
    rw [begun_fn]
  · rw [begun_fn_other h]

@[simp] theorem begun_wins (s : State) (e : Entry) (op : Nat) (c : Instr) (f : Nat) : ((s.begun e op c).fn f).wins = (s.fn f).wins := by
  by_cases h : f = e.fn.idx
  · subst h
    rw [begun_fn]
  · rw [begun_fn_other h]

@[simp] theorem begun_ats (s : State) (e : Entry) (op : Nat) (c : Instr) (f : Nat) : ((s.begun e op c).fn f).ats = (s.fn f).ats := by
  by_cases h : f = e.fn.idx
  · subst h
    rw [begun_fn]
  · rw [begun_fn_other h]

@[simp] theorem begun_armSeq (s : State) (e : Entry) (op : Nat) (c : Instr) (f : Nat) : ((s.begun e op c).fn f).armSeq = (s.fn f).armSeq := by
  by_cases h : f = e.fn.idx
  · subst h
    rw [begun_fn]
  · rw [begun_fn_other h]

@[simp] theorem begun_mlists (s : State) (e : Entry) (op : Nat) (c : Instr) (f : Nat) : ((s.begun e op c).fn f).mlists = (s.fn f).mlists := by
  by_cases h : f = e.fn.idx
  · subst h
    rw [begun_fn]
  · rw [begun_fn_other h]

@[simp] theorem begun_conns (s : State) (e : Entry) (op : Nat) (c : Instr) (f : Nat) : ((s.begun e op c).fn f).conns = (s.fn f).conns := by
  by_cases h : f = e.fn.idx
  · subst h
    rw [begun_fn]
  · rw [begun_fn_other h]

@[simp] theorem begun_listeners (s : State) (e : Entry) (op : Nat) (c : Instr) (f : Nat) : ((s.begun e op c).fn f).listeners = (s.fn f).listeners := by
  by_cases h : f = e.fn.idx
  · subst h
    rw [begun_fn]
  · rw [begun_fn_other h]

@[simp] theorem begun_herds (s : State) (e : Entry) (op : Nat) (c : Instr) (f : Nat) : ((s.begun e op c).fn f).herds = (s.fn f).herds := by
  by_cases h : f = e.fn.idx
  · subst h
    rw [begun_fn]
  · rw [begun_fn_other h]

@[simp] theorem begun_sess (s : State) (e : Entry) (op : Nat) (c : Instr) (f : Nat) : ((s.begun e op c).fn f).sess = (s.fn f).sess := by
  by_cases h : f = e.fn.idx
  · subst h
    rw [begun_fn]
  · rw [begun_fn_other h]

@[simp] theorem begun_feeds (s : State) (e : Entry) (op : Nat) (c : Instr) (f : Nat) : ((s.begun e op c).fn f).feeds = (s.fn f).feeds := by
  by_cases h : f = e.fn.idx
  · subst h
    rw [begun_fn]
  · rw [begun_fn_other h]

@[simp] theorem begun_progs (s : State) (e : Entry) (op : Nat) (c : Instr) (f : Nat) : ((s.begun e op c).fn f).progs = (s.fn f).progs := by
  by_cases h : f = e.fn.idx
  · subst h
    rw [begun_fn]
  · rw [begun_fn_other h]

@[simp] theorem begun_launches (s : State) (e : Entry) (op : Nat) (c : Instr) (f : Nat) : ((s.begun e op c).fn f).launches = (s.fn f).launches := by
  by_cases h : f = e.fn.idx
  · subst h
    rw [begun_fn]
  · rw [begun_fn_other h]

@[simp] theorem begun_gen (s : State) (e : Entry) (op : Nat) (c : Instr) (f : Nat) : ((s.begun e op c).fn f).gen = (s.fn f).gen := by
  by_cases h : f = e.fn.idx
  · subst h
    rw [begun_fn]
  · rw [begun_fn_other h]

@[simp] theorem begun_cnt (s : State) (e : Entry) (op : Nat) (c : Instr) (f : Nat) : ((s.begun e op c).fn f).cnt = (s.fn f).cnt := by
  by_cases h : f = e.fn.idx
  · subst h
    rw [begun_fn]
  · rw [begun_fn_other h]

@[simp] theorem begun_freeSeq (s : State) (e : Entry) (op : Nat) (c : Instr) (f : Nat) : ((s.begun e op c).fn f).freeSeq = (s.fn f).freeSeq := by
  by_cases h : f = e.fn.idx
  · subst h
    rw [begun_fn]
  · rw [begun_fn_other h]

@[simp] theorem begun_rawmap (s : State) (e : Entry) (op : Nat) (c : Instr) (f : Nat) : ((s.begun e op c).fn f).rawmap = (s.fn f).rawmap := by
  by_cases h : f = e.fn.idx
  · subst h
    rw [begun_fn]
  · rw [begun_fn_other h]

@[simp] theorem begun_mbx (s : State) (e : Entry) (op : Nat) (c : Instr) (f : Nat) : ((s.begun e op c).fn f).mbx = (s.fn f).mbx := by
  by_cases h : f = e.fn.idx
  · subst h
    rw [begun_fn]
  · rw [begun_fn_other h]

@[simp] theorem begun_firing (s : State) (e : Entry) (op : Nat) (c : Instr) (f : Nat) : ((s.begun e op c).fn f).firing = (s.fn f).firing := by
  by_cases h : f = e.fn.idx
  · subst h
    rw [begun_fn]
  · rw [begun_fn_other h]

@[simp] theorem begun_aer (s : State) (e : Entry) (op : Nat) (c : Instr) (f : Nat) : ((s.begun e op c).fn f).aer = (s.fn f).aer := by
  by_cases h : f = e.fn.idx
  · subst h
    rw [begun_fn]
  · rw [begun_fn_other h]

@[simp] theorem begun_conn (s : State) (e : Entry) (op : Nat) (c : Instr) (f h : Nat) : (s.begun e op c).conn f h = s.conn f h := by
  simp [State.conn]

/-! ### A wake changes the domains alone (R568) -/

theorem regionWake_fns (s : State) (n : Nat) : (s.regionWake n).fns = s.fns := by
  unfold State.regionWake
  dsimp only
  split <;> rfl

theorem regionWake_parts (s : State) (n : Nat) : (s.regionWake n).parts = s.parts := by
  unfold State.regionWake
  dsimp only
  split <;> rfl

theorem wakeBlocks_fns (s : State) (b : Nat) : (s.wakeBlocks b).fns = s.fns := by
  unfold State.wakeBlocks
  generalize List.range 4 = l
  induction l generalizing s with
  | nil => rfl
  | cons n t ih =>
    rw [List.foldl_cons, ih]
    split
    · rfl
    · exact regionWake_fns s n

theorem wakeBlocks_parts (s : State) (b : Nat) : (s.wakeBlocks b).parts = s.parts := by
  unfold State.wakeBlocks
  generalize List.range 4 = l
  induction l generalizing s with
  | nil => rfl
  | cons n t ih =>
    rw [List.foldl_cons, ih]
    split
    · rfl
    · exact regionWake_parts s n

theorem bellWake_fn (s : State) (f g : Nat) : (s.bellWake f).fn g = s.fn g := by
  unfold State.bellWake State.fn
  split
  · rw [regionWake_fns]
  · rw [wakeBlocks_fns]

theorem bellWake_part (s : State) (f p : Nat) : (s.bellWake f).part p = s.part p := by
  unfold State.bellWake State.part
  split
  · rw [regionWake_parts]
  · rw [wakeBlocks_parts]

/-! ### Host reads and writes of a command, with ATS off (R343, R348) -/

theorem missing_off {s : State} {f a n : Nat} {w : Bool} (h : AtsOff s f) : s.missing f a n w = none := by
  simp [State.missing, h.1, h.2]

/-- A command goes on where it can use its host ranges. -/
theorem withHost_ok {s : State} {f id : Nat} {l : List (Nat × Nat × Bool)} {k : State → State} (h : Usable s f l) :
    s.withHost f id l k = k s := by
  have : l.findSome? (fun (a, n, w) => (s.missing f a n w).map fun p => (p, w)) = none := by
    rw [List.findSome?_eq_none_iff]
    rintro ⟨a, n, w⟩ hr
    have := h _ hr
    dsimp only at this
    simp [this]
  rw [State.withHost, this]

theorem readHostFor_ok {s : State} {f id addr len : Nat} {k : List Byte → State → State} (h : Usable s f [(addr, len, false)])
    (hp : s.locPoison f false addr len = none) : s.readHostFor f id addr len k = k (s.hostBytes f addr len) (s.hostReadFill f addr len) := by
  rw [State.readHostFor, withHost_ok h, hp]

theorem writeRecord_ok {s : State} {f id addr d : Nat} {bs : List Byte} (h : Usable s f [(addr, bs.length, true)]) :
    s.writeRecord f id addr bs d = (s.hostWrite f addr bs).endOp f id .ok bs.length d := by
  rw [State.writeRecord, withHost_ok h]

/-- Starting an entry leaves what a host range waits for. -/
@[simp] theorem begun_missing (s : State) (e : Entry) (op : Nat) (c : Instr) (f a n : Nat) (w : Bool) :
    (s.begun e op c).missing f a n w = s.missing f a n w := by
  unfold State.missing
  simp

@[simp] theorem begun_locMiss (s : State) (e : Entry) (op : Nat) (c : Instr) (f : Nat) (sl : Bool) (a n : Nat) (w : Bool) :
    (s.begun e op c).locMiss f sl a n w = s.locMiss f sl a n w := by
  unfold State.locMiss
  simp

/-- Starting an entry leaves the checks of a local range. -/
@[simp] theorem begun_sliceCheck (s : State) (e : Entry) (o : Nat) (c : Instr) (f a n : Nat) :
    (s.begun e o c).sliceCheck f a n = s.sliceCheck f a n := by
  have h1 : (s.begun e o c).codeHit f a n = s.codeHit f a n := by unfold State.codeHit; rw [begun_progs]
  have h2 : ∀ i, (s.begun e o c).pageEnt i = s.pageEnt i := fun _ => rfl
  have h3 : ∀ p, (s.begun e o c).part p = s.part p := fun _ => rfl
  unfold State.sliceCheck
  simp [State.sliceLen, State.keyLive, h1, h2, h3]

@[simp] theorem begun_locCheck (s : State) (e : Entry) (o : Nat) (c : Instr) (f : Nat) (sl : Bool) (a n : Nat) :
    (s.begun e o c).locCheck f sl a n = s.locCheck f sl a n := by
  unfold State.locCheck
  rw [begun_sliceCheck]

/-- Starting an entry leaves what host ranges can be used. -/
theorem usable_begun {s : State} {e : Entry} {op : Nat} {c : Instr} {f : Nat} {l : List (Nat × Nat × Bool)} (h : Usable s f l) :
    Usable (s.begun e op c) f l := by
  intro r hr
  rw [begun_missing]
  exact h r hr

theorem withHost_off {s : State} {f id : Nat} {l : List (Nat × Nat × Bool)} {k : State → State} (h : AtsOff s f) :
    s.withHost f id l k = k s := by
  have : l.findSome? (fun (a, n, w) => (s.missing f a n w).map fun p => (p, w)) = none := by
    rw [List.findSome?_eq_none_iff]
    rintro ⟨a, n, w⟩ _
    simp [missing_off h]
  rw [State.withHost, this]

theorem readHostFor_off {s : State} {f id addr len : Nat} {k : List Byte → State → State} (h : AtsOff s f)
    (hp : s.locPoison f false addr len = none) : s.readHostFor f id addr len k = k (s.hostBytes f addr len) (s.hostReadFill f addr len) := by
  rw [State.readHostFor, withHost_off h, hp]

theorem writeRecord_off {s : State} {f id addr d : Nat} {bs : List Byte} (h : AtsOff s f) :
    s.writeRecord f id addr bs d = (s.hostWrite f addr bs).endOp f id .ok bs.length d := by
  rw [State.writeRecord, withHost_off h]

/-! ### Program instructions (R290) -/

/-- An instruction that issues acts. -/
theorem tpf_issues {s : State} {r : CopyRef} {op : Nat} {k : Ctx} {act : Ctx → State → State} (h : Issues s r op k) : s.tpf r op act = act k s := by
  obtain ⟨f, li, ci, l, p, c, x⟩ := k
  obtain ⟨h1, h2, h3, h4, h5, h6, h7, h8, h9, h10, h11, h12⟩ := h
  dsimp only at *
  subst h1 h2 h3
  rw [State.tpf, h4]
  dsimp only
  rw [h5, h6]
  dsimp only
  rw [if_pos ⟨h7, h8, by simp [h9]⟩, h10]
  dsimp only
  rw [if_neg (by simp [h11]), if_neg (by simp [h12]), h12]
  simp

end Sys2Proof.Machine
end

