-- ==== Sys2Proof/Laws/Journal.lean ====
section
/-!
SUPPORT. Journal.lean: what raising a vector and committing a record change: the journal, the output and the function's pending vectors,
and nothing else.
-/

namespace Sys2Proof.Machine

/-! ### Vectors -/

@[simp] theorem msix_pending (s : State) (f v : Nat) : (s.msix f v).pending = s.pending := by
  unfold State.msix
  split <;> rfl

@[simp] theorem msix_free (s : State) (f v : Nat) : (s.msix f v).free = s.free := by
  unfold State.msix
  split <;> rfl

@[simp] theorem msix_regs (s : State) (f v : Nat) : (s.msix f v).regs = s.regs := by
  unfold State.msix
  split <;> rfl

@[simp] theorem msix_clk (s : State) (f v : Nat) : (s.msix f v).clk = s.clk := by
  unfold State.msix
  split <;> rfl

@[simp] theorem msix_parts (s : State) (f v : Nat) : (s.msix f v).parts = s.parts := by
  unfold State.msix
  split <;> rfl

@[simp] theorem msix_mem (s : State) (f v : Nat) : (s.msix f v).mem = s.mem := by
  unfold State.msix
  split <;> rfl

@[simp] theorem msix_links (s : State) (f v : Nat) : (s.msix f v).links = s.links := by
  unfold State.msix
  split <;> rfl

@[simp] theorem msix_mesh (s : State) (f v : Nat) : (s.msix f v).mesh = s.mesh := by
  unfold State.msix
  split <;> rfl

@[simp] theorem msix_sched (s : State) (f v : Nat) : (s.msix f v).sched = s.sched := by
  unfold State.msix
  split <;> rfl

@[simp] theorem msix_ports (s : State) (f v : Nat) : (s.msix f v).ports = s.ports := by
  unfold State.msix
  split <;> rfl

@[simp] theorem msix_flts (s : State) (f v : Nat) : (s.msix f v).flts = s.flts := by
  unfold State.msix
  split <;> rfl

@[simp] theorem msix_sec (s : State) (f v : Nat) : (s.msix f v).sec = s.sec := by
  unfold State.msix
  split <;> rfl

@[simp] theorem msix_err (s : State) (f v : Nat) : (s.msix f v).err = s.err := by
  unfold State.msix
  split <;> rfl

@[simp] theorem msix_bist (s : State) (f v : Nat) : (s.msix f v).bist = s.bist := by
  unfold State.msix
  split <;> rfl

@[simp] theorem msix_power (s : State) (f v : Nat) : (s.msix f v).power = s.power := by
  unfold State.msix
  split <;> rfl

@[simp] theorem msix_card (s : State) (f v : Nat) : (s.msix f v).card = s.card := by
  unfold State.msix
  split <;> rfl

@[simp] theorem msix_mgmt (s : State) (f v : Nat) : (s.msix f v).mgmt = s.mgmt := by
  unfold State.msix
  split <;> rfl

@[simp] theorem msix_ibex (s : State) (f v : Nat) : (s.msix f v).ibex = s.ibex := by
  unfold State.msix
  split <;> rfl

@[simp] theorem msix_images (s : State) (f v : Nat) : (s.msix f v).images = s.images := by
  unfold State.msix
  split <;> rfl

/-- Raising a vector leaves everything of a function but its pending vectors. -/
theorem msix_fn (s : State) (f v g : Nat) : (s.msix f v).fn g = { s.fn g with msixPba := ((s.msix f v).fn g).msixPba } := by
  unfold State.msix
  split
  · rfl
  · by_cases h : g = f
    · subst h
      simp
    · rw [fn_modFn_other h]

/-! ### Records -/

@[simp] theorem jrnlSignal_pending (s : State) : s.jrnlSignal.pending = s.pending := by
  unfold State.jrnlSignal
  split
  · rw [msix_pending]
  · rfl

@[simp] theorem jrnlSignal_free (s : State) : s.jrnlSignal.free = s.free := by
  unfold State.jrnlSignal
  split
  · rw [msix_free]
  · rfl

@[simp] theorem jrnlSignal_regs (s : State) : s.jrnlSignal.regs = s.regs := by
  unfold State.jrnlSignal
  split
  · rw [msix_regs]
  · rfl

@[simp] theorem jrnlSignal_clk (s : State) : s.jrnlSignal.clk = s.clk := by
  unfold State.jrnlSignal
  split
  · rw [msix_clk]
  · rfl

@[simp] theorem jrnlSignal_parts (s : State) : s.jrnlSignal.parts = s.parts := by
  unfold State.jrnlSignal
  split
  · rw [msix_parts]
  · rfl

@[simp] theorem jrnlSignal_mem (s : State) : s.jrnlSignal.mem = s.mem := by
  unfold State.jrnlSignal
  split
  · rw [msix_mem]
  · rfl

@[simp] theorem jrnlSignal_links (s : State) : s.jrnlSignal.links = s.links := by
  unfold State.jrnlSignal
  split
  · rw [msix_links]
  · rfl

@[simp] theorem jrnlSignal_mesh (s : State) : s.jrnlSignal.mesh = s.mesh := by
  unfold State.jrnlSignal
  split
  · rw [msix_mesh]
  · rfl

@[simp] theorem jrnlSignal_sched (s : State) : s.jrnlSignal.sched = s.sched := by
  unfold State.jrnlSignal
  split
  · rw [msix_sched]
  · rfl

@[simp] theorem jrnlSignal_ports (s : State) : s.jrnlSignal.ports = s.ports := by
  unfold State.jrnlSignal
  split
  · rw [msix_ports]
  · rfl

@[simp] theorem jrnlSignal_flts (s : State) : s.jrnlSignal.flts = s.flts := by
  unfold State.jrnlSignal
  split
  · rw [msix_flts]
  · rfl

@[simp] theorem jrnlSignal_sec (s : State) : s.jrnlSignal.sec = s.sec := by
  unfold State.jrnlSignal
  split
  · rw [msix_sec]
  · rfl

@[simp] theorem jrnlSignal_err (s : State) : s.jrnlSignal.err = s.err := by
  unfold State.jrnlSignal
  split
  · rw [msix_err]
  · rfl

@[simp] theorem jrnlSignal_bist (s : State) : s.jrnlSignal.bist = s.bist := by
  unfold State.jrnlSignal
  split
  · rw [msix_bist]
  · rfl

@[simp] theorem jrnlSignal_power (s : State) : s.jrnlSignal.power = s.power := by
  unfold State.jrnlSignal
  split
  · rw [msix_power]
  · rfl

@[simp] theorem jrnlSignal_card (s : State) : s.jrnlSignal.card = s.card := by
  unfold State.jrnlSignal
  split
  · rw [msix_card]
  · rfl

@[simp] theorem jrnlSignal_mgmt (s : State) : s.jrnlSignal.mgmt = s.mgmt := by
  unfold State.jrnlSignal
  split
  · rw [msix_mgmt]
  · rfl

@[simp] theorem jrnlSignal_ibex (s : State) : s.jrnlSignal.ibex = s.ibex := by
  unfold State.jrnlSignal
  split
  · rw [msix_ibex]
  · rfl

@[simp] theorem jrnlSignal_images (s : State) : s.jrnlSignal.images = s.images := by
  unfold State.jrnlSignal
  split
  · rw [msix_images]
  · rfl

theorem jrnlSignal_fn (s : State) (g : Nat) : s.jrnlSignal.fn g = { s.fn g with msixPba := (s.jrnlSignal.fn g).msixPba } := by
  unfold State.jrnlSignal
  split
  · rw [msix_fn]
    rfl
  · rfl

@[simp] theorem jrnlSignal_ops (s : State) (g : Nat) : (s.jrnlSignal.fn g).ops = (s.fn g).ops := by
  rw [jrnlSignal_fn]

@[simp] theorem jrnlSignal_nextOp (s : State) (g : Nat) : (s.jrnlSignal.fn g).nextOp = (s.fn g).nextOp := by
  rw [jrnlSignal_fn]

@[simp] theorem jrnlSignal_gen (s : State) (g : Nat) : (s.jrnlSignal.fn g).gen = (s.fn g).gen := by
  rw [jrnlSignal_fn]

@[simp] theorem jrnlSignal_rings (s : State) (g : Nat) : (s.jrnlSignal.fn g).rings = (s.fn g).rings := by
  rw [jrnlSignal_fn]

@[simp] theorem jrnlSignal_conns (s : State) (g : Nat) : (s.jrnlSignal.fn g).conns = (s.fn g).conns := by
  rw [jrnlSignal_fn]

@[simp] theorem jrnlSignal_ats (s : State) (g : Nat) : (s.jrnlSignal.fn g).ats = (s.fn g).ats := by
  rw [jrnlSignal_fn]

@[simp] theorem jrnlSignal_launches (s : State) (g : Nat) : (s.jrnlSignal.fn g).launches = (s.fn g).launches := by
  rw [jrnlSignal_fn]

@[simp] theorem jrnlSignal_sess (s : State) (g : Nat) : (s.jrnlSignal.fn g).sess = (s.fn g).sess := by
  rw [jrnlSignal_fn]

@[simp] theorem jrnlSignal_herds (s : State) (g : Nat) : (s.jrnlSignal.fn g).herds = (s.fn g).herds := by
  rw [jrnlSignal_fn]

@[simp] theorem jrnlSignal_mbx (s : State) (g : Nat) : (s.jrnlSignal.fn g).mbx = (s.fn g).mbx := by
  rw [jrnlSignal_fn]

@[simp] theorem jrnlSignal_feeds (s : State) (g : Nat) : (s.jrnlSignal.fn g).feeds = (s.fn g).feeds := by
  rw [jrnlSignal_fn]

@[simp] theorem jrnlSignal_progs (s : State) (g : Nat) : (s.jrnlSignal.fn g).progs = (s.fn g).progs := by
  rw [jrnlSignal_fn]

@[simp] theorem jrnlSignal_part (s : State) (p : Nat) : s.jrnlSignal.part p = s.part p := by
  unfold State.part
  rw [jrnlSignal_parts]

@[simp] theorem jrnlSignal_op (s : State) (f i : Nat) : s.jrnlSignal.op? f i = s.op? f i := by
  unfold State.op?
  rw [jrnlSignal_ops]

@[simp] theorem jrnlSignal_conn (s : State) (f h : Nat) : s.jrnlSignal.conn f h = s.conn f h := by
  unfold State.conn
  rw [jrnlSignal_conns]

@[simp] theorem jCommit_pending (s : State) (o : Origin) (b : JBody) : (s.jCommit o b).pending = s.pending := by
  unfold State.jCommit
  rw [jrnlSignal_pending]

@[simp] theorem jCommit_free (s : State) (o : Origin) (b : JBody) : (s.jCommit o b).free = s.free := by
  unfold State.jCommit
  rw [jrnlSignal_free]

@[simp] theorem jCommit_regs (s : State) (o : Origin) (b : JBody) : (s.jCommit o b).regs = s.regs := by
  unfold State.jCommit
  rw [jrnlSignal_regs]

@[simp] theorem jCommit_clk (s : State) (o : Origin) (b : JBody) : (s.jCommit o b).clk = s.clk := by
  unfold State.jCommit
  rw [jrnlSignal_clk]

@[simp] theorem jCommit_parts (s : State) (o : Origin) (b : JBody) : (s.jCommit o b).parts = s.parts := by
  unfold State.jCommit
  rw [jrnlSignal_parts]

@[simp] theorem jCommit_mem (s : State) (o : Origin) (b : JBody) : (s.jCommit o b).mem = s.mem := by
  unfold State.jCommit
  rw [jrnlSignal_mem]

@[simp] theorem jCommit_links (s : State) (o : Origin) (b : JBody) : (s.jCommit o b).links = s.links := by
  unfold State.jCommit
  rw [jrnlSignal_links]

@[simp] theorem jCommit_mesh (s : State) (o : Origin) (b : JBody) : (s.jCommit o b).mesh = s.mesh := by
  unfold State.jCommit
  rw [jrnlSignal_mesh]

@[simp] theorem jCommit_sched (s : State) (o : Origin) (b : JBody) : (s.jCommit o b).sched = s.sched := by
  unfold State.jCommit
  rw [jrnlSignal_sched]

@[simp] theorem jCommit_ports (s : State) (o : Origin) (b : JBody) : (s.jCommit o b).ports = s.ports := by
  unfold State.jCommit
  rw [jrnlSignal_ports]

@[simp] theorem jCommit_flts (s : State) (o : Origin) (b : JBody) : (s.jCommit o b).flts = s.flts := by
  unfold State.jCommit
  rw [jrnlSignal_flts]

@[simp] theorem jCommit_sec (s : State) (o : Origin) (b : JBody) : (s.jCommit o b).sec = s.sec := by
  unfold State.jCommit
  rw [jrnlSignal_sec]

@[simp] theorem jCommit_err (s : State) (o : Origin) (b : JBody) : (s.jCommit o b).err = s.err := by
  unfold State.jCommit
  rw [jrnlSignal_err]

@[simp] theorem jCommit_bist (s : State) (o : Origin) (b : JBody) : (s.jCommit o b).bist = s.bist := by
  unfold State.jCommit
  rw [jrnlSignal_bist]

@[simp] theorem jCommit_power (s : State) (o : Origin) (b : JBody) : (s.jCommit o b).power = s.power := by
  unfold State.jCommit
  rw [jrnlSignal_power]

@[simp] theorem jCommit_card (s : State) (o : Origin) (b : JBody) : (s.jCommit o b).card = s.card := by
  unfold State.jCommit
  rw [jrnlSignal_card]

@[simp] theorem jCommit_mgmt (s : State) (o : Origin) (b : JBody) : (s.jCommit o b).mgmt = s.mgmt := by
  unfold State.jCommit
  rw [jrnlSignal_mgmt]

@[simp] theorem jCommit_ibex (s : State) (o : Origin) (b : JBody) : (s.jCommit o b).ibex = s.ibex := by
  unfold State.jCommit
  rw [jrnlSignal_ibex]

@[simp] theorem jCommit_images (s : State) (o : Origin) (b : JBody) : (s.jCommit o b).images = s.images := by
  unfold State.jCommit
  rw [jrnlSignal_images]

theorem jCommit_fn (s : State) (o : Origin) (b : JBody) (g : Nat) : (s.jCommit o b).fn g = { s.fn g with msixPba := ((s.jCommit o b).fn g).msixPba } := by
  unfold State.jCommit
  rw [jrnlSignal_fn]
  rfl

@[simp] theorem jCommit_ops (s : State) (o : Origin) (b : JBody) (g : Nat) : ((s.jCommit o b).fn g).ops = (s.fn g).ops := by
  rw [jCommit_fn]

@[simp] theorem jCommit_nextOp (s : State) (o : Origin) (b : JBody) (g : Nat) : ((s.jCommit o b).fn g).nextOp = (s.fn g).nextOp := by
  rw [jCommit_fn]

@[simp] theorem jCommit_gen (s : State) (o : Origin) (b : JBody) (g : Nat) : ((s.jCommit o b).fn g).gen = (s.fn g).gen := by
  rw [jCommit_fn]

@[simp] theorem jCommit_rings (s : State) (o : Origin) (b : JBody) (g : Nat) : ((s.jCommit o b).fn g).rings = (s.fn g).rings := by
  rw [jCommit_fn]

@[simp] theorem jCommit_conns (s : State) (o : Origin) (b : JBody) (g : Nat) : ((s.jCommit o b).fn g).conns = (s.fn g).conns := by
  rw [jCommit_fn]

@[simp] theorem jCommit_ats (s : State) (o : Origin) (b : JBody) (g : Nat) : ((s.jCommit o b).fn g).ats = (s.fn g).ats := by
  rw [jCommit_fn]

@[simp] theorem jCommit_launches (s : State) (o : Origin) (b : JBody) (g : Nat) : ((s.jCommit o b).fn g).launches = (s.fn g).launches := by
  rw [jCommit_fn]

@[simp] theorem jCommit_sess (s : State) (o : Origin) (b : JBody) (g : Nat) : ((s.jCommit o b).fn g).sess = (s.fn g).sess := by
  rw [jCommit_fn]

@[simp] theorem jCommit_herds (s : State) (o : Origin) (b : JBody) (g : Nat) : ((s.jCommit o b).fn g).herds = (s.fn g).herds := by
  rw [jCommit_fn]

@[simp] theorem jCommit_mbx (s : State) (o : Origin) (b : JBody) (g : Nat) : ((s.jCommit o b).fn g).mbx = (s.fn g).mbx := by
  rw [jCommit_fn]

@[simp] theorem jCommit_feeds (s : State) (o : Origin) (b : JBody) (g : Nat) : ((s.jCommit o b).fn g).feeds = (s.fn g).feeds := by
  rw [jCommit_fn]

@[simp] theorem jCommit_progs (s : State) (o : Origin) (b : JBody) (g : Nat) : ((s.jCommit o b).fn g).progs = (s.fn g).progs := by
  rw [jCommit_fn]

@[simp] theorem jCommit_part (s : State) (o : Origin) (b : JBody) (p : Nat) : (s.jCommit o b).part p = s.part p := by
  unfold State.part
  rw [jCommit_parts]

@[simp] theorem jCommit_op (s : State) (o : Origin) (b : JBody) (f i : Nat) : (s.jCommit o b).op? f i = s.op? f i := by
  unfold State.op?
  rw [jCommit_ops]

@[simp] theorem jCommit_conn (s : State) (o : Origin) (b : JBody) (f h : Nat) : (s.jCommit o b).conn f h = s.conn f h := by
  unfold State.conn
  rw [jCommit_conns]

@[simp] theorem jMust_pending (s : State) (o : Origin) (b : JBody) (x : Bool) : (s.jMust o b x).pending = s.pending := by
  unfold State.jMust
  dsimp only
  split
  · rw [jrnlSignal_pending]
  · rfl

@[simp] theorem jMust_free (s : State) (o : Origin) (b : JBody) (x : Bool) : (s.jMust o b x).free = s.free := by
  unfold State.jMust
  dsimp only
  split
  · rw [jrnlSignal_free]
  · rfl

@[simp] theorem jMust_regs (s : State) (o : Origin) (b : JBody) (x : Bool) : (s.jMust o b x).regs = s.regs := by
  unfold State.jMust
  dsimp only
  split
  · rw [jrnlSignal_regs]
  · rfl

@[simp] theorem jMust_clk (s : State) (o : Origin) (b : JBody) (x : Bool) : (s.jMust o b x).clk = s.clk := by
  unfold State.jMust
  dsimp only
  split
  · rw [jrnlSignal_clk]
  · rfl

@[simp] theorem jMust_parts (s : State) (o : Origin) (b : JBody) (x : Bool) : (s.jMust o b x).parts = s.parts := by
  unfold State.jMust
  dsimp only
  split
  · rw [jrnlSignal_parts]
  · rfl

@[simp] theorem jMust_mem (s : State) (o : Origin) (b : JBody) (x : Bool) : (s.jMust o b x).mem = s.mem := by
  unfold State.jMust
  dsimp only
  split
  · rw [jrnlSignal_mem]
  · rfl

@[simp] theorem jMust_links (s : State) (o : Origin) (b : JBody) (x : Bool) : (s.jMust o b x).links = s.links := by
  unfold State.jMust
  dsimp only
  split
  · rw [jrnlSignal_links]
  · rfl

@[simp] theorem jMust_mesh (s : State) (o : Origin) (b : JBody) (x : Bool) : (s.jMust o b x).mesh = s.mesh := by
  unfold State.jMust
  dsimp only
  split
  · rw [jrnlSignal_mesh]
  · rfl

@[simp] theorem jMust_sched (s : State) (o : Origin) (b : JBody) (x : Bool) : (s.jMust o b x).sched = s.sched := by
  unfold State.jMust
  dsimp only
  split
  · rw [jrnlSignal_sched]
  · rfl

@[simp] theorem jMust_ports (s : State) (o : Origin) (b : JBody) (x : Bool) : (s.jMust o b x).ports = s.ports := by
  unfold State.jMust
  dsimp only
  split
  · rw [jrnlSignal_ports]
  · rfl

@[simp] theorem jMust_flts (s : State) (o : Origin) (b : JBody) (x : Bool) : (s.jMust o b x).flts = s.flts := by
  unfold State.jMust
  dsimp only
  split
  · rw [jrnlSignal_flts]
  · rfl

@[simp] theorem jMust_sec (s : State) (o : Origin) (b : JBody) (x : Bool) : (s.jMust o b x).sec = s.sec := by
  unfold State.jMust
  dsimp only
  split
  · rw [jrnlSignal_sec]
  · rfl

@[simp] theorem jMust_err (s : State) (o : Origin) (b : JBody) (x : Bool) : (s.jMust o b x).err = s.err := by
  unfold State.jMust
  dsimp only
  split
  · rw [jrnlSignal_err]
  · rfl

@[simp] theorem jMust_bist (s : State) (o : Origin) (b : JBody) (x : Bool) : (s.jMust o b x).bist = s.bist := by
  unfold State.jMust
  dsimp only
  split
  · rw [jrnlSignal_bist]
  · rfl

@[simp] theorem jMust_power (s : State) (o : Origin) (b : JBody) (x : Bool) : (s.jMust o b x).power = s.power := by
  unfold State.jMust
  dsimp only
  split
  · rw [jrnlSignal_power]
  · rfl

@[simp] theorem jMust_card (s : State) (o : Origin) (b : JBody) (x : Bool) : (s.jMust o b x).card = s.card := by
  unfold State.jMust
  dsimp only
  split
  · rw [jrnlSignal_card]
  · rfl

@[simp] theorem jMust_mgmt (s : State) (o : Origin) (b : JBody) (x : Bool) : (s.jMust o b x).mgmt = s.mgmt := by
  unfold State.jMust
  dsimp only
  split
  · rw [jrnlSignal_mgmt]
  · rfl

@[simp] theorem jMust_ibex (s : State) (o : Origin) (b : JBody) (x : Bool) : (s.jMust o b x).ibex = s.ibex := by
  unfold State.jMust
  dsimp only
  split
  · rw [jrnlSignal_ibex]
  · rfl

@[simp] theorem jMust_images (s : State) (o : Origin) (b : JBody) (x : Bool) : (s.jMust o b x).images = s.images := by
  unfold State.jMust
  dsimp only
  split
  · rw [jrnlSignal_images]
  · rfl

theorem jMust_fn (s : State) (o : Origin) (b : JBody) (x : Bool) (g : Nat) : (s.jMust o b x).fn g = { s.fn g with msixPba := ((s.jMust o b x).fn g).msixPba } := by
  unfold State.jMust
  dsimp only
  split
  · rw [jrnlSignal_fn]
    rfl
  · rfl

@[simp] theorem jMust_ops (s : State) (o : Origin) (b : JBody) (x : Bool) (g : Nat) : ((s.jMust o b x).fn g).ops = (s.fn g).ops := by
  rw [jMust_fn]

@[simp] theorem jMust_nextOp (s : State) (o : Origin) (b : JBody) (x : Bool) (g : Nat) : ((s.jMust o b x).fn g).nextOp = (s.fn g).nextOp := by
  rw [jMust_fn]

@[simp] theorem jMust_gen (s : State) (o : Origin) (b : JBody) (x : Bool) (g : Nat) : ((s.jMust o b x).fn g).gen = (s.fn g).gen := by
  rw [jMust_fn]

@[simp] theorem jMust_rings (s : State) (o : Origin) (b : JBody) (x : Bool) (g : Nat) : ((s.jMust o b x).fn g).rings = (s.fn g).rings := by
  rw [jMust_fn]

@[simp] theorem jMust_conns (s : State) (o : Origin) (b : JBody) (x : Bool) (g : Nat) : ((s.jMust o b x).fn g).conns = (s.fn g).conns := by
  rw [jMust_fn]

@[simp] theorem jMust_ats (s : State) (o : Origin) (b : JBody) (x : Bool) (g : Nat) : ((s.jMust o b x).fn g).ats = (s.fn g).ats := by
  rw [jMust_fn]

@[simp] theorem jMust_launches (s : State) (o : Origin) (b : JBody) (x : Bool) (g : Nat) : ((s.jMust o b x).fn g).launches = (s.fn g).launches := by
  rw [jMust_fn]

@[simp] theorem jMust_sess (s : State) (o : Origin) (b : JBody) (x : Bool) (g : Nat) : ((s.jMust o b x).fn g).sess = (s.fn g).sess := by
  rw [jMust_fn]

@[simp] theorem jMust_herds (s : State) (o : Origin) (b : JBody) (x : Bool) (g : Nat) : ((s.jMust o b x).fn g).herds = (s.fn g).herds := by
  rw [jMust_fn]

@[simp] theorem jMust_mbx (s : State) (o : Origin) (b : JBody) (x : Bool) (g : Nat) : ((s.jMust o b x).fn g).mbx = (s.fn g).mbx := by
  rw [jMust_fn]

@[simp] theorem jMust_feeds (s : State) (o : Origin) (b : JBody) (x : Bool) (g : Nat) : ((s.jMust o b x).fn g).feeds = (s.fn g).feeds := by
  rw [jMust_fn]

@[simp] theorem jMust_progs (s : State) (o : Origin) (b : JBody) (x : Bool) (g : Nat) : ((s.jMust o b x).fn g).progs = (s.fn g).progs := by
  rw [jMust_fn]

@[simp] theorem jMust_part (s : State) (o : Origin) (b : JBody) (x : Bool) (p : Nat) : (s.jMust o b x).part p = s.part p := by
  unfold State.part
  rw [jMust_parts]

@[simp] theorem jMust_op (s : State) (o : Origin) (b : JBody) (x : Bool) (f i : Nat) : (s.jMust o b x).op? f i = s.op? f i := by
  unfold State.op?
  rw [jMust_ops]

@[simp] theorem jMust_conn (s : State) (o : Origin) (b : JBody) (x : Bool) (f h : Nat) : (s.jMust o b x).conn f h = s.conn f h := by
  unfold State.conn
  rw [jMust_conns]

/-! ### Partition commands -/

/-- A started entry's operation is found by its number, when no other has it. -/
theorem begun_op {s : State} {e : Entry} {op : Nat} {c : Instr} (h : s.op? e.fn.idx (s.opId e) = none) :
    (s.begun e op c).op? e.fn.idx (s.opId e) = some (newOp s e op c) := by
  unfold State.op? at h ⊢
  rw [begun_fn]
  dsimp only
  rw [List.find?_append, h]
  simp [newOp, State.opId]

@[simp] theorem begun_part (s : State) (e : Entry) (op : Nat) (c : Instr) (p : Nat) : (s.begun e op c).part p = s.part p := rfl

theorem part_place {s : State} {e : Entry} {p op : Nat} {c : Instr} (h : PartReady s e p) :
    (s.begun e op c).partPlace e.fn.idx (s.opId e) p = [] := by
  unfold State.partPlace
  rw [begun_op h.fresh]
  have := h.pf
  have := h.admin
  have := h.part
  simp_all [ck, newOp]

/-- A partition command that no condition refuses is journalled and goes on. -/
theorem part_taken {s : State} {e : Entry} {p op : Nat} {c : Instr} {l : List Status} {more : List Nat} {k : State → State} (h : PartReady s e p)
    (hl : l = []) : (s.begun e op c).partCmd e.fn.idx (s.opId e) op p more l k =
      k ((s.begun e op c).partTaken e.fn.idx (s.opId e) op p more) := by
  have hj : (s.begun e op c).jrnl = s.jrnl := rfl
  have h2 := h.room
  subst hl
  unfold State.partCmd
  rw [begun_op h.fresh, hj, h2]
  rfl

@[simp] theorem partTaken_part (s : State) (f id opcode p : Nat) (more : List Nat) (q : Nat) : (s.partTaken f id opcode p more).part q = s.part q := by
  unfold State.partTaken
  exact jCommit_part _ _ _ _

@[simp] theorem partTaken_mem (s : State) (f id opcode p : Nat) (more : List Nat) : (s.partTaken f id opcode p more).mem = s.mem := by
  unfold State.partTaken
  exact jCommit_mem _ _ _

theorem partTaken_ats (s : State) (f id opcode p : Nat) (more : List Nat) (g : Nat) : ((s.partTaken f id opcode p more).fn g).ats = (s.fn g).ats := by
  unfold State.partTaken State.modOp
  by_cases h : g = f
  · subst h
    simp
  · rw [fn_modFn_other h]
    simp

end Sys2Proof.Machine
end

