-- ==== Sys2Proof/Laws/Complete.lean ====
section
/-!
SUPPORT. Complete.lean: what ending an operation leaves alone: everything but its function, the journal, pending vectors, the host line
cache, the translation cache and the completion entry in host memory.
-/

namespace Sys2Proof.Machine

theorem Kept.refl (s : State) : Kept s s :=
  ⟨rfl, rfl, rfl, rfl, rfl, rfl, rfl, rfl, rfl, rfl, rfl, rfl, rfl, rfl, rfl, rfl⟩

theorem Kept.trans {s t u : State} (h1 : Kept s t) (h2 : Kept t u) : Kept s u :=
  ⟨h2.pending.trans h1.pending, h2.regs.trans h1.regs, h2.clk.trans h1.clk, h2.parts.trans h1.parts, h2.mesh.trans h1.mesh,
   h2.sched.trans h1.sched, h2.ports.trans h1.ports, h2.flts.trans h1.flts, h2.sec.trans h1.sec, h2.err.trans h1.err,
   h2.bist.trans h1.bist, h2.power.trans h1.power, h2.card.trans h1.card, h2.mgmt.trans h1.mgmt, h2.ibex.trans h1.ibex,
   h2.images.trans h1.images⟩

theorem kept_modFn (s : State) (f : Nat) (g : FnState → FnState) : Kept s (s.modFn f g) :=
  ⟨rfl, rfl, rfl, rfl, rfl, rfl, rfl, rfl, rfl, rfl, rfl, rfl, rfl, rfl, rfl, rfl⟩

theorem kept_modRing (s : State) (f k : Nat) (g : Ring → Ring) : Kept s (s.modRing f k g) := kept_modFn s f _

theorem kept_modOp (s : State) (f i : Nat) (g : Op → Op) : Kept s (s.modOp f i g) := kept_modFn s f _

theorem kept_bump (s : State) : Kept s s.bump :=
  ⟨rfl, rfl, rfl, rfl, rfl, rfl, rfl, rfl, rfl, rfl, rfl, rfl, rfl, rfl, rfl, rfl⟩

theorem kept_emit (s : State) (o : Output) : Kept s (s.emit o) :=
  ⟨rfl, rfl, rfl, rfl, rfl, rfl, rfl, rfl, rfl, rfl, rfl, rfl, rfl, rfl, rfl, rfl⟩

theorem kept_begun (s : State) (e : Entry) (op : Nat) (c : Instr) : Kept s (s.begun e op c) :=
  ⟨rfl, rfl, rfl, rfl, rfl, rfl, rfl, rfl, rfl, rfl, rfl, rfl, rfl, rfl, rfl, rfl⟩

theorem kept_msix (s : State) (f v : Nat) : Kept s (s.msix f v) :=
  ⟨msix_pending _ _ _, msix_regs _ _ _, msix_clk _ _ _, msix_parts _ _ _, msix_mesh _ _ _, msix_sched _ _ _, msix_ports _ _ _,
   msix_flts _ _ _, msix_sec _ _ _, msix_err _ _ _, msix_bist _ _ _, msix_power _ _ _, msix_card _ _ _, msix_mgmt _ _ _, msix_ibex _ _ _,
   msix_images _ _ _⟩

theorem kept_jrnlSignal (s : State) : Kept s s.jrnlSignal :=
  ⟨jrnlSignal_pending _, jrnlSignal_regs _, jrnlSignal_clk _, jrnlSignal_parts _, jrnlSignal_mesh _, jrnlSignal_sched _,
   jrnlSignal_ports _, jrnlSignal_flts _, jrnlSignal_sec _, jrnlSignal_err _, jrnlSignal_bist _, jrnlSignal_power _, jrnlSignal_card _,
   jrnlSignal_mgmt _, jrnlSignal_ibex _, jrnlSignal_images _⟩

theorem kept_jCommit (s : State) (o : Origin) (b : JBody) : Kept s (s.jCommit o b) :=
  ⟨jCommit_pending _ _ _, jCommit_regs _ _ _, jCommit_clk _ _ _, jCommit_parts _ _ _, jCommit_mesh _ _ _, jCommit_sched _ _ _,
   jCommit_ports _ _ _, jCommit_flts _ _ _, jCommit_sec _ _ _, jCommit_err _ _ _, jCommit_bist _ _ _, jCommit_power _ _ _,
   jCommit_card _ _ _, jCommit_mgmt _ _ _, jCommit_ibex _ _ _, jCommit_images _ _ _⟩

theorem kept_jMust (s : State) (o : Origin) (b : JBody) (x : Bool) : Kept s (s.jMust o b x) :=
  ⟨jMust_pending _ _ _ _, jMust_regs _ _ _ _, jMust_clk _ _ _ _, jMust_parts _ _ _ _, jMust_mesh _ _ _ _, jMust_sched _ _ _ _,
   jMust_ports _ _ _ _, jMust_flts _ _ _ _, jMust_sec _ _ _ _, jMust_err _ _ _ _, jMust_bist _ _ _ _, jMust_power _ _ _ _,
   jMust_card _ _ _ _, jMust_mgmt _ _ _ _, jMust_ibex _ _ _ _, jMust_images _ _ _ _⟩

theorem kept_jrnl (s : State) (j : Jrnl) : Kept s { s with jrnl := j } :=
  ⟨rfl, rfl, rfl, rfl, rfl, rfl, rfl, rfl, rfl, rfl, rfl, rfl, rfl, rfl, rfl, rfl⟩

theorem kept_mem (s : State) (m : Mem) : Kept s { s with mem := m } :=
  ⟨rfl, rfl, rfl, rfl, rfl, rfl, rfl, rfl, rfl, rfl, rfl, rfl, rfl, rfl, rfl, rfl⟩

theorem kept_hostWrite (s : State) (f a : Nat) (bs : List Byte) : Kept s (s.hostWrite f a bs) := by
  have h : Kept s ((s.dropLines f a bs.length).useXlate f a bs.length) := by
    unfold State.useXlate
    split
    · exact (kept_mem s _).trans (kept_mem _ _)
    · exact kept_mem s _
  exact h.trans (kept_mem _ _)

theorem kept_askXlate (s : State) (f p : Nat) (w : Bool) : Kept s (s.askXlate f p w) := by
  unfold State.askXlate
  dsimp only
  split
  · exact Kept.refl s
  · exact (kept_modFn s f _).trans (kept_emit _ _)

theorem kept_ringEvent (s : State) (f k : Nat) : Kept s (s.ringEvent f k) := by
  unfold State.ringEvent
  dsimp only
  split
  · exact (kept_modFn s f _).trans (kept_msix _ _ _)
  · exact kept_modFn s f _

theorem kept_countEvent (s : State) (f k : Nat) : Kept s (s.countEvent f k) := by
  unfold State.countEvent State.fireEvent
  dsimp only
  split
  · split
    · exact (kept_modRing s f k _).trans ((kept_modRing _ f k _).trans (kept_ringEvent _ f k))
    · exact kept_modRing s f k _
  · exact Kept.refl s

theorem kept_putCompl (s : State) (f k : Nat) (c : Compl) : Kept s (s.putCompl f k c) :=
  (kept_hostWrite s f _ _).trans ((kept_modRing _ f k _).trans (kept_countEvent _ f k))

theorem kept_complete (s : State) (f k : Nat) (c : Compl) : Kept s (s.complete f k c) := by
  unfold State.complete
  dsimp only
  split
  · exact kept_modFn s f _
  · split
    · exact kept_putCompl s f k c
    · split
      · exact (kept_modRing s f k _).trans ((kept_modRing _ f k _).trans (kept_askXlate _ f _ _))
      · exact kept_modRing s f k _

theorem kept_tallyPut (s : State) (f i n : Nat) : Kept s (s.tallyPut f i n) := by
  unfold State.tallyPut
  split
  · exact Kept.refl s
  · split
    · exact Kept.refl s
    · exact (kept_modFn s f _).trans (kept_modFn _ f _)

theorem kept_tallyAdd (s : State) (f i n : Nat) : Kept s (s.tallyAdd f i n) := by
  unfold State.tallyAdd
  split
  · exact Kept.refl s
  · exact kept_tallyPut s f i _

theorem kept_gatherState (s : State) (f r o : Nat) (t : BitVec 32) : Kept s (s.gatherState f r o t) := by
  unfold State.gatherState
  dsimp only
  have hg : ∀ g : StateRec, Kept s (s.gatherCommit g) := fun g => (kept_jrnl s _).trans (kept_jrnlSignal _)
  split <;> split <;> first
    | exact kept_jrnl s _
    | exact (hg _).trans (kept_jrnl _ _)

/-- Ending an operation leaves alone what `Kept` names (R8, R73, R118). -/
theorem kept_endOp (s : State) (f id : Nat) (st : Status) (n d : Nat) : Kept s (s.endOp f id st n d) := by
  unfold State.endOp
  split
  · exact Kept.refl s
  · rename_i o _
    split
    · exact kept_modFn s f _
    · dsimp only
      have h1 : ∀ c : Prop, [Decidable c] → Kept s (if c then s.bump else s) := fun c _ => by
        split
        · exact kept_bump s
        · exact Kept.refl s
      refine Kept.trans (h1 (o.final st = .state ∧ s.jrnl.full = true)) ?_
      refine Kept.trans (t := if (if o.final st = .state ∧ s.jrnl.full = true then Status.busy else o.final st) = .state then
        (if o.final st = .state ∧ s.jrnl.full = true then s.bump else s).gatherState f o.ring o.opcode o.tag
        else (if o.final st = .state ∧ s.jrnl.full = true then s.bump else s)) ?_ ?_
      · have h2 : ∀ (u : State) (c : Prop), [Decidable c] → Kept u (if c then u.gatherState f o.ring o.opcode o.tag else u) := fun u c _ => by
          split
          · exact kept_gatherState _ _ _ _ _
          · exact Kept.refl _
        exact h2 _ _
      refine Kept.trans ?_ (kept_complete _ _ _ _)
      have h3 : ∀ (u : State) (ok : Prop), [Decidable ok] → Kept u (if ok then u else u.modRing f o.ring fun r => { r with badEnds := r.badEnds + 1 }) :=
        fun u ok _ => by
          split
          · exact Kept.refl _
          · exact kept_modRing _ _ _ _
      have h4 : ∀ u : State, ∀ ok : Prop, [Decidable ok] → Kept u (match o.ltally with
        | some t => if ok then u.tallyAdd f t 1 else u
        | none => u) := fun u ok _ => by
          split
          · split
            · exact kept_tallyAdd _ _ _ _
            · exact Kept.refl _
          · exact Kept.refl _
      have h5 : ∀ (u : State) (g : Bool), Kept u (u.dropOp f id g) := fun u g => kept_modFn u f _
      exact ((h4 _ _).trans (h5 _ _)).trans (h3 _ _)

theorem kept_endBusy (s : State) (f id : Nat) : Kept s (s.endBusy f id) := (kept_endOp s f id _ _ _).trans (kept_bump _)

theorem kept_checked {s : State} {f id : Nat} {l : List Status} {k : State → State} (h : Kept s (k s)) : Kept s (s.checked f id l k) := by
  unfold State.checked
  split
  · exact kept_endBusy s f id
  · exact kept_endOp s f id _ _ _
  · exact h

theorem kept_partEnd (s : State) (f id p : Nat) (st : Status) (n d : Nat) : Kept s (s.partEnd f id p st n d) := by
  unfold State.partEnd
  split
  · exact Kept.refl s
  · dsimp only
    split
    · exact kept_endOp s f id _ _ _
    · exact (kept_jMust s _ _ _).trans (kept_endOp _ f id _ _ _)

end Sys2Proof.Machine
end

