-- ==== Sys2Proof/Laws/Memory.lean ====
section
/-!
SUPPORT. Memory.lean: the laws of the one memory: a write keeps the canonical form, a byte written reads back, and every other byte
reads as before.
-/

namespace Sys2Proof.Machine

/-! ### One cell -/

theorem cellsFrom_mono {l : List Host.Cell} {a b : Nat} (hab : a ≤ b) (h : cellsFrom b l = true) : cellsFrom a l = true := by
  cases l with
  | nil => rfl
  | cons x t => obtain ⟨j, c⟩ := x; simp only [cellsFrom, Bool.and_eq_true, decide_eq_true_eq] at h ⊢; exact ⟨⟨by omega, h.1.2⟩, h.2⟩

theorem cellGet_below {l : List Host.Cell} {a k : Nat} (h : cellsFrom a l = true) (hk : k < a) : cellGet l k = unlisted := by
  induction l generalizing a with
  | nil => rfl
  | cons x t ih =>
    obtain ⟨j, c⟩ := x
    simp only [cellsFrom, Bool.and_eq_true, decide_eq_true_eq] at h
    have hj : j ≠ k := by omega
    simp only [cellGet, hj, if_false]
    exact ih h.2 (by omega)

theorem cellSet_from {l : List Host.Cell} {a k : Nat} {b : Byte} (h : cellsFrom a l = true) (hk : a ≤ k) :
    cellsFrom a (cellSet l k b) = true := by
  induction l generalizing a with
  | nil => unfold cellSet; split <;> simp_all [cellsFrom]
  | cons x t ih =>
    obtain ⟨j, c⟩ := x
    have h0 := h
    simp only [cellsFrom, Bool.and_eq_true, decide_eq_true_eq] at h
    unfold cellSet
    split
    · split
      · exact h0
      · simp only [cellsFrom, Bool.and_eq_true, decide_eq_true_eq]
        refine ⟨⟨hk, by assumption⟩, ⟨by omega, h.1.2⟩, h.2⟩
    · split
      · split
        · exact cellsFrom_mono (by omega) h.2
        · simp only [cellsFrom, Bool.and_eq_true, decide_eq_true_eq]
          subst_vars
          exact ⟨⟨hk, by assumption⟩, h.2⟩
      · simp only [cellsFrom, Bool.and_eq_true, decide_eq_true_eq]
        exact ⟨⟨h.1.1, h.1.2⟩, ih h.2 (by omega)⟩

/-- A byte written reads back. -/
theorem cellGet_cellSet_same {l : List Host.Cell} {a k : Nat} {b : Byte} (h : cellsFrom a l = true) : cellGet (cellSet l k b) k = b := by
  induction l generalizing a with
  | nil => unfold cellSet; split <;> simp_all [cellGet]
  | cons x t ih =>
    obtain ⟨j, c⟩ := x
    have h0 := h
    simp only [cellsFrom, Bool.and_eq_true, decide_eq_true_eq] at h
    unfold cellSet
    split
    · split
      · subst_vars
        exact cellGet_below (a := k + 1) (cellsFrom_mono (l := (j, c) :: t) (b := j) (by omega)
          (by simp [cellsFrom, h.1.2, h.2])) (by omega)
      · simp [cellGet]
    · split
      · split
        · subst_vars; exact cellGet_below h.2 (by omega)
        · simp [cellGet]
      · have hj : j ≠ k := by omega
        simp only [cellGet, hj, if_false]
        exact ih h.2

/-- Every other byte reads as before. -/
theorem cellGet_cellSet_other {l : List Host.Cell} {a k i : Nat} {b : Byte} (h : cellsFrom a l = true) (hi : i ≠ k) :
    cellGet (cellSet l k b) i = cellGet l i := by
  induction l generalizing a with
  | nil => unfold cellSet; split <;> simp_all [cellGet, Ne.symm hi]
  | cons x t ih =>
    obtain ⟨j, c⟩ := x
    simp only [cellsFrom, Bool.and_eq_true, decide_eq_true_eq] at h
    unfold cellSet
    split
    · split
      · rfl
      · simp [cellGet, Ne.symm hi]
    · split
      · split
        · subst_vars; simp [cellGet, Ne.symm hi]
        · subst_vars; simp [cellGet, Ne.symm hi]
      · simp only [cellGet]
        split
        · rfl
        · exact ih h.2

/-! ### Runs of cells -/

theorem cellsSet_from {l : List Host.Cell} {k : Nat} {bs : List Byte} (h : cellsFrom 0 l = true) : cellsFrom 0 (cellsSet l k bs) = true := by
  induction bs generalizing l k with
  | nil => exact h
  | cons b t ih => exact ih (cellSet_from h (Nat.zero_le _))

/-- A run written leaves every byte outside it. -/
theorem cellGet_cellsSet_other {l : List Host.Cell} {k i : Nat} {bs : List Byte} (h : cellsFrom 0 l = true) (hi : i < k ∨ k + bs.length ≤ i) :
    cellGet (cellsSet l k bs) i = cellGet l i := by
  induction bs generalizing l k with
  | nil => rfl
  | cons b t ih =>
    simp only [List.length_cons] at hi
    unfold cellsSet
    rw [ih (cellSet_from h (Nat.zero_le _)) (by omega), cellGet_cellSet_other h (by omega)]

/-- Byte i of a run written reads back. -/
theorem cellGet_cellsSet_same {l : List Host.Cell} {k i : Nat} {bs : List Byte} (h : cellsFrom 0 l = true) (hi : i < bs.length) :
    cellGet (cellsSet l k bs) (k + i) = bs[i] := by
  induction bs generalizing l k i with
  | nil => simp at hi
  | cons b t ih =>
    unfold cellsSet
    cases i with
    | zero =>
      rw [Nat.add_zero, cellGet_cellsSet_other (cellSet_from h (Nat.zero_le _)) (by omega)]
      exact cellGet_cellSet_same h
    | succ i =>
      have e : k + (i + 1) = (k + 1) + i := by omega
      rw [e, ih (cellSet_from h (Nat.zero_le _)) (by simpa using hi)]
      rfl

theorem cellsGet_length (l : List Host.Cell) (k n : Nat) : (cellsGet l k n).length = n := by simp [cellsGet]

/-- A run written reads back. -/
theorem cellsGet_cellsSet {l : List Host.Cell} {k : Nat} {bs : List Byte} (h : cellsFrom 0 l = true) :
    cellsGet (cellsSet l k bs) k bs.length = bs := by
  apply List.ext_getElem (by simp [cellsGet])
  intro i h1 h2
  simp only [cellsGet, List.getElem_map, List.getElem_range]
  exact cellGet_cellsSet_same h h2

/-- Cells removed: the form stays. -/
theorem cellsFrom_filter {l : List Host.Cell} {a : Nat} {p : Host.Cell → Bool} (h : cellsFrom a l = true) : cellsFrom a (l.filter p) = true := by
  induction l generalizing a with
  | nil => rfl
  | cons x t ih =>
    obtain ⟨j, c⟩ := x
    simp only [cellsFrom, Bool.and_eq_true, decide_eq_true_eq] at h
    rw [List.filter_cons]
    split
    · simp only [cellsFrom, Bool.and_eq_true, decide_eq_true_eq]
      exact ⟨h.1, ih h.2⟩
    · exact cellsFrom_mono (by omega) (ih h.2)

/-! ### Memory -/

theorem Mem.wf_write {m : Mem} {k : Nat} {bs : List Byte} (h : m.wf = true) : (m.write k bs).wf = true := cellsSet_from h

theorem Mem.wf_touch {m : Mem} {p n : Nat} (h : m.wf = true) : (m.touch p n).wf = true := by
  unfold Mem.touch; split <;> exact h

theorem Mem.write_other {m : Mem} {k i : Nat} {bs : List Byte} (h : m.wf = true) (hi : i < k ∨ k + bs.length ≤ i) :
    cellGet (m.write k bs).bytes i = cellGet m.bytes i := cellGet_cellsSet_other h hi

theorem Mem.write_same {m : Mem} {k : Nat} {bs : List Byte} (h : m.wf = true) : cellsGet (m.write k bs).bytes k bs.length = bs :=
  cellsGet_cellsSet h

/-- The memory right after reset has the canonical form. -/
theorem State.reset_wf : State.reset.mem.wf = true := rfl

end Sys2Proof.Machine
end

