-- ==== Sys2Proof/Laws/Bytes.lean ====
section
/-!
SUPPORT. Bytes.lean: bytes and the numbers they spell, and what a completion entry's write and its event leave alone.
-/

namespace Sys2Proof.Machine

/-- Bytes in a row spell the sum of their parts. -/
theorem leNat_append (a b : List Byte) : leNat (a ++ b) = leNat a + 256 ^ a.length * leNat b := by
  induction a with
  | nil => simp [leNat]
  | cons x t ih =>
    simp only [leNat, List.cons_append, List.foldr_cons, List.length_cons] at *
    rw [ih, Nat.pow_succ]
    ring

/-- The first byte of a number, and the rest. -/
theorem leBytes_succ (n v : Nat) : leBytes (n + 1) v = BitVec.ofNat 8 v :: leBytes n (v / 256) := by
  unfold leBytes
  rw [List.range_succ_eq_map, List.map_cons, List.map_map]
  congr 1
  apply List.map_congr_left
  intro i _
  simp only [Function.comp_apply, Nat.shiftRight_eq_div_pow, Nat.div_div_eq_div_mul]
  congr 2
  rw [Nat.succ_eq_add_one, Nat.mul_add, Nat.pow_add, Nat.mul_comm]

/-- The bytes of a number spell it, up to their width (R15). -/
theorem leNat_leBytes (n v : Nat) : leNat (leBytes n v) = v % 256 ^ n := by
  induction n generalizing v with
  | zero => simp [leBytes, leNat, Nat.mod_one]
  | succ n ih =>
    rw [leBytes_succ]
    show (BitVec.ofNat 8 v).toNat + 256 * leNat (leBytes n (v / 256)) = _
    rw [ih, BitVec.toNat_ofNat, show 256 ^ (n + 1) = 256 * 256 ^ n from Nat.pow_succ', Nat.mod_mul]

/-- A part of a run read by itself. -/
theorem cellsGet_split (l : List Host.Cell) (k m n p : Nat) : cellsGet l (k + m) n = ((cellsGet l k (m + n + p)).drop m).take n := by
  unfold cellsGet
  apply List.ext_getElem
  · simp
    omega
  · intro i h1 h2
    simp [Nat.add_assoc]

/-- Counting a completion event writes no memory (R76). -/
theorem countEvent_mem (s : State) (f k : Nat) : (s.countEvent f k).mem = s.mem := by
  have hr : ∀ t : State, (t.ringEvent f k).mem = t.mem := by
    intro t
    unfold State.ringEvent
    dsimp only
    split
    · rw [msix_mem]
      rfl
    · rfl
  unfold State.countEvent State.fireEvent
  dsimp only
  split
  · split
    · rw [hr]
      rfl
    · rfl
  · rfl

/-- It moves no completion tail. -/
theorem countEvent_cq (s : State) (f k : Nat) : ((s.countEvent f k).ring f k).cqTail = (s.ring f k).cqTail ∧ ((s.countEvent f k).ring f k).cqPhase = (s.ring f k).cqPhase := by
  have hr : ∀ t : State, (t.ringEvent f k).ring f k = t.ring f k := by
    intro t
    unfold State.ringEvent
    dsimp only
    split
    · rw [State.ring, msix_fn]
      simp [State.ring]
    · simp [State.ring]
  unfold State.countEvent State.fireEvent
  dsimp only
  split
  · split
    · rw [hr]
      simp [State.ring, State.modRing]
    · simp [State.ring, State.modRing]
  · exact ⟨rfl, rfl⟩

/-- A host write changes the bytes it covers. -/
theorem hostWrite_bytes (s : State) (f a : Nat) (bs : List Byte) : (s.hostWrite f a bs).mem.bytes = cellsSet s.mem.bytes (cellKey f a) bs := by
  unfold State.hostWrite State.useXlate
  dsimp only
  split <;> rfl

/-- A host write changes no function. -/
theorem hostWrite_fn (s : State) (f a : Nat) (bs : List Byte) (g : Nat) : (s.hostWrite f a bs).fn g = s.fn g := by
  unfold State.hostWrite State.useXlate
  dsimp only
  split <;> rfl

end Sys2Proof.Machine
end

