-- ==== Sys2Proof/Laws/Exec.lean ====
section
/-!
SUPPORT. Exec.lean: the arm of every command, one rewriting rule each, so that no proof unfolds the whole dispatch.
-/

namespace Sys2Proof.Machine

theorem exec_nop (e : Entry) (s : State) : exec (.nop e) s = execNop e s := rfl
theorem exec_fence (e : Entry) (hostVis remoteVis : Bool) (inst : Bool) (s : State) : exec (.fence e hostVis remoteVis inst) s = execFence e hostVis remoteVis inst s := rfl
theorem exec_fenceRelease (fn : Fn) (ring : Nat) (s : State) : exec (.fenceRelease fn ring) s = execFenceRelease fn ring s := rfl
theorem exec_ringInval (e : Entry) (ring first count : Nat) (s : State) : exec (.ringInval e ring first count) s = execRingInval e ring first count s := rfl
theorem exec_ringCreate (e : Entry) (ring sqLog cqLog cls sqBase cqBase : Nat) (s : State) : exec (.ringCreate e ring sqLog cqLog cls sqBase cqBase) s = execRingCreate e ring sqLog cqLog cls sqBase cqBase s := rfl
theorem exec_ringDestroy (e : Entry) (ring : Nat) (s : State) : exec (.ringDestroy e ring) s = execRingDestroy e ring s := rfl
theorem exec_ringDrained (fn : Fn) (ring : Nat) (s : State) : exec (.ringDrained fn ring) s = execRingDrained fn ring s := rfl
theorem exec_ringPause (e : Entry) (ring : Nat) (s : State) : exec (.ringPause e ring) s = execRingPause e ring s := rfl
theorem exec_ringResume (e : Entry) (ring : Nat) (s : State) : exec (.ringResume e ring) s = execRingResume e ring s := rfl
theorem exec_ringFlush (e : Entry) (ring : Nat) (s : State) : exec (.ringFlush e ring) s = execRingFlush e ring s := rfl
theorem exec_dbgCfg (e : Entry) (group vector : Nat) (s : State) : exec (.dbgCfg e group vector) s = execDbgCfg e group vector s := rfl
theorem exec_cqModerate (e : Entry) (ring count time : Nat) (s : State) : exec (.cqModerate e ring count time) s = execCqModerate e ring count time s := rfl
theorem exec_adminRingEnable (fn : Fn) (o : Origin) (value : Nat) (s : State) : exec (.adminRingEnable fn o value) s = execAdminRingEnable fn o value s := rfl
theorem exec_adminRingResume (fn : Fn) (o : Origin) (s : State) : exec (.adminRingResume fn o) s = execAdminRingResume fn o s := rfl
theorem exec_ringSqdb (fn : Fn) (ring tail : Nat) (s : State) : exec (.ringSqdb fn ring tail) s = execRingSqdb fn ring tail s := rfl
theorem exec_entryStart (fn : Fn) (ring : Nat) (s : State) : exec (.entryStart fn ring) s = execEntryStart fn ring s := rfl
theorem exec_cqHeadRelease (fn : Fn) (ring head : Nat) (s : State) : exec (.cqHeadRelease fn ring head) s = execCqHeadRelease fn ring head s := rfl
theorem exec_cqEventArm (fn : Fn) (ring head : Nat) (s : State) : exec (.cqEventArm fn ring head) s = execCqEventArm fn ring head s := rfl
theorem exec_dbgRingSet (fn : Fn) (group : Nat) (bits : Nat) (s : State) : exec (.dbgRingSet fn group bits) s = execDbgRingSet fn group bits s := rfl
theorem exec_dbgMaskWrite (fn : Fn) (group : Nat) (bits : Nat) (s : State) : exec (.dbgMaskWrite fn group bits) s = execDbgMaskWrite fn group bits s := rfl
theorem exec_dbgEvtClear (fn : Fn) (group : Nat) (bits : Nat) (s : State) : exec (.dbgEvtClear fn group bits) s = execDbgEvtClear fn group bits s := rfl
theorem exec_dbgEmaskWrite (fn : Fn) (group : Nat) (bits : Nat) (s : State) : exec (.dbgEmaskWrite fn group bits) s = execDbgEmaskWrite fn group bits s := rfl
theorem exec_pendingCompletionWrite (fn : Fn) (ring : Nat) (s : State) : exec (.pendingCompletionWrite fn ring) s = execPendingCompletionWrite fn ring s := rfl
theorem exec_cqEventTimer (fn : Fn) (ring : Nat) (now : Nat) (s : State) : exec (.cqEventTimer fn ring now) s = execCqEventTimer fn ring now s := rfl
theorem exec_stateRecordCommit (now : Nat) (s : State) : exec (.stateRecordCommit now) s = execStateRecordCommit now s := rfl
theorem exec_registerFence (fn : Fn) (o : Origin) (token : Nat) (hostVis remoteVis : Bool) (vector : Nat) (irq : Bool) (s : State) : exec (.registerFence fn o token hostVis remoteVis vector irq) s = execRegisterFence fn o token hostVis remoteVis vector irq s := rfl
theorem exec_registerFenceDone (fn : Fn) (s : State) : exec (.registerFenceDone fn) s = execRegisterFenceDone fn s := rfl
theorem exec_frameTx (e : Entry) (port bp : Nat) (space : Bool) (addr len : Nat) (s : State) : exec (.frameTx e port bp space addr len) s = execFrameTx e port bp space addr len s := rfl
theorem exec_frameRxbuf (e : Entry) (addr len : Nat) (s : State) : exec (.frameRxbuf e addr len) s = execFrameRxbuf e addr len s := rfl
theorem exec_rcRegisterRead (o : Origin) (off width : Nat) (s : State) : exec (.rcRegisterRead o off width) s = execRcRegisterRead o off width s := rfl
theorem exec_setupRegWrite (o : Origin) (off width value : Nat) (s : State) : exec (.setupRegWrite o off width value) s = execSetupRegWrite o off width value s := rfl
theorem exec_write (e : Entry) (b : OneSided) (s : State) : exec (.write e b) s = execWrite e b s := rfl
theorem exec_read (e : Entry) (b : OneSided) (s : State) : exec (.read e b) s = execRead e b s := rfl
theorem exec_writeNotify (e : Entry) (b : OneSided) (imm : BitVec 32) (s : State) : exec (.writeNotify e b imm) s = execWriteNotify e b imm s := rfl
theorem exec_atFadd (e : Entry) (b : OneSided) (s : State) : exec (.atFadd e b) s = execAtFadd e b s := rfl
theorem exec_atFand (e : Entry) (b : OneSided) (s : State) : exec (.atFand e b) s = execAtFand e b s := rfl
theorem exec_atFor (e : Entry) (b : OneSided) (s : State) : exec (.atFor e b) s = execAtFor e b s := rfl
theorem exec_atFxor (e : Entry) (b : OneSided) (s : State) : exec (.atFxor e b) s = execAtFxor e b s := rfl
theorem exec_atSwap (e : Entry) (b : OneSided) (s : State) : exec (.atSwap e b) s = execAtSwap e b s := rfl
theorem exec_atCas (e : Entry) (b : OneSided) (s : State) : exec (.atCas e b) s = execAtCas e b s := rfl
theorem exec_tsend (e : Entry) (b : OneSided) (s : State) : exec (.tsend e b) s = execTsend e b s := rfl
theorem exec_trecv (e : Entry) (b : TrecvBody) (s : State) : exec (.trecv e b) s = execTrecv e b s := rfl
theorem exec_trecvCancel (e : Entry) (list : Nat) (tag : BitVec 32) (s : State) : exec (.trecvCancel e list tag) s = execTrecvCancel e list tag s := rfl
theorem exec_mlistCreate (e : Entry) (list uq : Nat) (s : State) : exec (.mlistCreate e list uq) s = execMlistCreate e list uq s := rfl
theorem exec_mlistDestroy (e : Entry) (list : Nat) (s : State) : exec (.mlistDestroy e list) s = execMlistDestroy e list s := rfl
theorem exec_winOpen (e : Entry) (b : WinOpenBody) (s : State) : exec (.winOpen e b) s = execWinOpen e b s := rfl
theorem exec_winRevoke (e : Entry) (wref : Nat) (s : State) : exec (.winRevoke e wref) s = execWinRevoke e wref s := rfl
theorem exec_tallyAlloc (e : Entry) (value : Word) (s : State) : exec (.tallyAlloc e value) s = execTallyAlloc e value s := rfl
theorem exec_tallyFree (e : Entry) (tally : Nat) (s : State) : exec (.tallyFree e tally) s = execTallyFree e tally s := rfl
theorem exec_tallyAdd (e : Entry) (tally : Nat) (value : Word) (s : State) : exec (.tallyAdd e tally value) s = execTallyAdd e tally value s := rfl
theorem exec_tallySet (e : Entry) (tally : Nat) (value : Word) (s : State) : exec (.tallySet e tally value) s = execTallySet e tally value s := rfl
theorem exec_tallyRead (e : Entry) (tally : Nat) (addr : Nat) (s : State) : exec (.tallyRead e tally addr) s = execTallyRead e tally addr s := rfl
theorem exec_arm (e : Entry) (trig : Trigger) (emb : Embed) (s : State) : exec (.arm e trig emb) s = execArm e trig emb s := rfl
theorem exec_armCancel (e : Entry) (tag : BitVec 32) (s : State) : exec (.armCancel e tag) s = execArmCancel e tag s := rfl
theorem exec_armedTimeFire (fn : Fn) (ring : Nat) (tag : BitVec 32) (now : Nat) (s : State) : exec (.armedTimeFire fn ring tag now) s = execArmedTimeFire fn ring tag now s := rfl
theorem exec_connConnect (e : Entry) (b : ConnectBody) (s : State) : exec (.connConnect e b) s = execConnConnect e b s := rfl
theorem exec_connListen (e : Entry) (service laddrIdx nring maxConn : Nat) (s : State) : exec (.connListen e service laddrIdx nring maxConn) s = execConnListen e service laddrIdx nring maxConn s := rfl
theorem exec_connUnlisten (e : Entry) (service laddrIdx : Nat) (s : State) : exec (.connUnlisten e service laddrIdx) s = execConnUnlisten e service laddrIdx s := rfl
theorem exec_connClose (e : Entry) (conn : Nat) (s : State) : exec (.connClose e conn) s = execConnClose e conn s := rfl
theorem exec_connAbort (e : Entry) (conn : Nat) (s : State) : exec (.connAbort e conn) s = execConnAbort e conn s := rfl
theorem exec_connQuery (e : Entry) (conn addr : Nat) (s : State) : exec (.connQuery e conn addr) s = execConnQuery e conn addr s := rfl
theorem exec_connModify (e : Entry) (conn ports paths : Nat) (s : State) : exec (.connModify e conn ports paths) s = execConnModify e conn ports paths s := rfl
theorem exec_synReceive (x : Syn) (s : State) : exec (.synReceive x) s = execSynReceive x s := rfl
theorem exec_synAckReceive (x : SynAck) (s : State) : exec (.synAckReceive x) s = execSynAckReceive x s := rfl
theorem exec_connAckReceive (rx : Rx) (fn : Fn) (grant : Grant) (s : State) : exec (.connAckReceive rx fn grant) s = execConnAckReceive rx fn grant s := rfl
theorem exec_finReceive (rx : Rx) (fn : Fn) (s : State) : exec (.finReceive rx fn) s = execFinReceive rx fn s := rfl
theorem exec_finAckReceive (rx : Rx) (fn : Fn) (s : State) : exec (.finAckReceive rx fn) s = execFinAckReceive rx fn s := rfl
theorem exec_abortReceive (rx : Rx) (fn : Fn) (ext : AbortExt) (s : State) : exec (.abortReceive rx fn ext) s = execAbortReceive rx fn ext s := rfl
theorem exec_synRetryTimer (fn : Fn) (conn : Nat) (now : Nat) (s : State) : exec (.synRetryTimer fn conn now) s = execSynRetryTimer fn conn now s := rfl
theorem exec_slowpathDone (fn : Fn) (conn : Nat) (s : State) : exec (.slowpathDone fn conn) s = execSlowpathDone fn conn s := rfl
theorem exec_slowpathFail (fn : Fn) (conn : Nat) (s : State) : exec (.slowpathFail fn conn) s = execSlowpathFail fn conn s := rfl
theorem exec_lostTimeExpiry (fn : Fn) (conn : Nat) (now : Nat) (s : State) : exec (.lostTimeExpiry fn conn now) s = execLostTimeExpiry fn conn now s := rfl
theorem exec_rekeyKeyInstalled (fn : Fn) (conn : Nat) (s : State) : exec (.rekeyKeyInstalled fn conn) s = execRekeyKeyInstalled fn conn s := rfl
theorem exec_dataReceive (rx : Rx) (fn : Fn) (wref roff moff mlen : Nat) (notify : Bool) (imm : BitVec 32) (payload : List Byte) (s : State) : exec (.dataReceive rx fn wref roff moff mlen notify imm payload) s = execDataReceive rx fn wref roff moff mlen notify imm payload s := rfl
theorem exec_readReqReceive (rx : Rx) (fn : Fn) (wref roff len req : Nat) (s : State) : exec (.readReqReceive rx fn wref roff len req) s = execReadReqReceive rx fn wref roff len req s := rfl
theorem exec_readRespReceive (rx : Rx) (fn : Fn) (req moff : Nat) (payload : List Byte) (s : State) : exec (.readRespReceive rx fn req moff payload) s = execReadRespReceive rx fn req moff payload s := rfl
theorem exec_atomicReqReceive (rx : Rx) (fn : Fn) (op wref roff : Nat) (opnd1 opnd2 : Word) (s : State) : exec (.atomicReqReceive rx fn op wref roff opnd1 opnd2) s = execAtomicReqReceive rx fn op wref roff opnd1 opnd2 s := rfl
theorem exec_atomicRespReceive (rx : Rx) (fn : Fn) (req : Nat) (old : Word) (s : State) : exec (.atomicRespReceive rx fn req old) s = execAtomicRespReceive rx fn req old s := rfl
theorem exec_tsendReceive (rx : Rx) (fn : Fn) (list : Nat) (tag : Word) (mlen moff : Nat) (rdv : Bool) (payload : List Byte) (s : State) : exec (.tsendReceive rx fn list tag mlen moff rdv payload) s = execTsendReceive rx fn list tag mlen moff rdv payload s := rfl
theorem exec_rdvReqReceive (rx : Rx) (fn : Fn) (req moff len : Nat) (s : State) : exec (.rdvReqReceive rx fn req moff len) s = execRdvReqReceive rx fn req moff len s := rfl
theorem exec_rdvRespReceive (rx : Rx) (fn : Fn) (req moff : Nat) (payload : List Byte) (s : State) : exec (.rdvRespReceive rx fn req moff payload) s = execRdvRespReceive rx fn req moff payload s := rfl
theorem exec_nakReceive (rx : Rx) (fn : Fn) (msn : Nat) (status : Status) (detail : Nat) (s : State) : exec (.nakReceive rx fn msn status detail) s = execNakReceive rx fn msn status detail s := rfl
theorem exec_abandonNoticeReceive (rx : Rx) (fn : Fn) (msn : Nat) (status : Status) (s : State) : exec (.abandonNoticeReceive rx fn msn status) s = execAbandonNoticeReceive rx fn msn status s := rfl
theorem exec_ackDelayTimer (fn : Fn) (conn : Nat) (now : Nat) (s : State) : exec (.ackDelayTimer fn conn now) s = execAckDelayTimer fn conn now s := rfl
theorem exec_ackReceive (rx : Rx) (fn : Fn) (x : AckRx) (s : State) : exec (.ackReceive rx fn x) s = execAckReceive rx fn x s := rfl
theorem exec_retxTimerExpiry (fn : Fn) (conn psn : Nat) (now : Nat) (s : State) : exec (.retxTimerExpiry fn conn psn now) s = execRetxTimerExpiry fn conn psn now s := rfl
theorem exec_pathStrikeEval (fn : Fn) (conn : Nat) (now : Nat) (s : State) : exec (.pathStrikeEval fn conn now) s = execPathStrikeEval fn conn now s := rfl
theorem exec_pathProbeTimer (fn : Fn) (conn path : Nat) (now : Nat) (s : State) : exec (.pathProbeTimer fn conn path now) s = execPathProbeTimer fn conn path now s := rfl
theorem exec_probeReceive (rx : Rx) (fn : Fn) (s : State) : exec (.probeReceive rx fn) s = execProbeReceive rx fn s := rfl
theorem exec_silenceProbeTimer (fn : Fn) (conn : Nat) (now : Nat) (s : State) : exec (.silenceProbeTimer fn conn now) s = execSilenceProbeTimer fn conn now s := rfl
theorem exec_abortRepeatTimer (fn : Fn) (conn : Nat) (now : Nat) (s : State) : exec (.abortRepeatTimer fn conn now) s = execAbortRepeatTimer fn conn now s := rfl
theorem exec_grantInterval (now : Nat) (s : State) : exec (.grantInterval now) s = execGrantInterval now s := rfl
theorem exec_creditChangeTimer (fn : Fn) (conn : Nat) (now : Nat) (s : State) : exec (.creditChangeTimer fn conn now) s = execCreditChangeTimer fn conn now s := rfl
theorem exec_creditGrantReceive (rx : Rx) (fn : Fn) (grant : Grant) (s : State) : exec (.creditGrantReceive rx fn grant) s = execCreditGrantReceive rx fn grant s := rfl
theorem exec_creditReqReceive (rx : Rx) (fn : Fn) (s : State) : exec (.creditReqReceive rx fn) s = execCreditReqReceive rx fn s := rfl
theorem exec_creditReqTimer (fn : Fn) (conn : Nat) (now : Nat) (s : State) : exec (.creditReqTimer fn conn now) s = execCreditReqTimer fn conn now s := rfl
theorem exec_packetSelect (port : Fin 8) (now : Nat) (s : State) : exec (.packetSelect port now) s = execPacketSelect port now s := rfl
theorem exec_frameTransmit (port : Fin 8) (bp : Nat) (now : Nat) (s : State) : exec (.frameTransmit port bp now) s = execFrameTransmit port bp now s := rfl
theorem exec_queueEscalationTimer (port : Fin 8) (part : Fin 16) (cls : Nat) (now : Nat) (s : State) : exec (.queueEscalationTimer port part cls now) s = execQueueEscalationTimer port part cls now s := rfl
theorem exec_queueSampleTimer (now : Nat) (s : State) : exec (.queueSampleTimer now) s = execQueueSampleTimer now s := rfl
theorem exec_gateLoad (e : Entry) (port count addr start : Nat) (s : State) : exec (.gateLoad e port count addr start) s = execGateLoad e port count addr start s := rfl
theorem exec_gateTakeover (port : Fin 8) (now : Nat) (s : State) : exec (.gateTakeover port now) s = execGateTakeover port now s := rfl
theorem exec_gateEntryAdvance (port : Fin 8) (now : Nat) (s : State) : exec (.gateEntryAdvance port now) s = execGateEntryAdvance port now s := rfl
theorem exec_qStop (e : Entry) (scope arg : Nat) (s : State) : exec (.qStop e scope arg) s = execQStop e scope arg s := rfl
theorem exec_qStart (e : Entry) (scope arg : Nat) (s : State) : exec (.qStart e scope arg) s = execQStart e scope arg s := rfl
theorem exec_qSample (e : Entry) (addr : Nat) (s : State) : exec (.qSample e addr) s = execQSample e addr s := rfl
theorem exec_herdCreate (e : Entry) (b : HerdBody) (s : State) : exec (.herdCreate e b) s = execHerdCreate e b s := rfl
theorem exec_herdFormTimeout (fn : Fn) (herd : Nat) (now : Nat) (s : State) : exec (.herdFormTimeout fn herd now) s = execHerdFormTimeout fn herd now s := rfl
theorem exec_herdDestroy (e : Entry) (herd : Nat) (s : State) : exec (.herdDestroy e herd) s = execHerdDestroy e herd s := rfl
theorem exec_herdQuery (e : Entry) (herd addr : Nat) (s : State) : exec (.herdQuery e herd addr) s = execHerdQuery e herd addr s := rfl
theorem exec_collAllreduce (e : Entry) (b : CollBody) (s : State) : exec (.collAllreduce e b) s = execCollAllreduce e b s := rfl
theorem exec_collReduceScatter (e : Entry) (b : CollBody) (s : State) : exec (.collReduceScatter e b) s = execCollReduceScatter e b s := rfl
theorem exec_collAllgather (e : Entry) (b : CollBody) (s : State) : exec (.collAllgather e b) s = execCollAllgather e b s := rfl
theorem exec_collBcast (e : Entry) (b : CollBody) (s : State) : exec (.collBcast e b) s = execCollBcast e b s := rfl
theorem exec_collReduce (e : Entry) (b : CollBody) (s : State) : exec (.collReduce e b) s = execCollReduce e b s := rfl
theorem exec_collAlltoall (e : Entry) (b : CollBody) (s : State) : exec (.collAlltoall e b) s = execCollAlltoall e b s := rfl
theorem exec_collDispatch (e : Entry) (b : CollBody) (s : State) : exec (.collDispatch e b) s = execCollDispatch e b s := rfl
theorem exec_collCombine (e : Entry) (b : CollBody) (s : State) : exec (.collCombine e b) s = execCollCombine e b s := rfl
theorem exec_collBarrier (e : Entry) (b : CollBody) (s : State) : exec (.collBarrier e b) s = execCollBarrier e b s := rfl
theorem exec_collStart (fn : Fn) (herd : Nat) (s : State) : exec (.collStart fn herd) s = execCollStart fn herd s := rfl
theorem exec_bulkCollReceive (rx : Rx) (fn : Fn) (x : BulkExt) (npk : Nat) (pidx : Nat) (payload : List Byte) (s : State) : exec (.bulkCollReceive rx fn x npk pidx payload) s = execBulkCollReceive rx fn x npk pidx payload s := rfl
theorem exec_haltReceive (rx : Rx) (fn : Fn) (mepoch cseq origin cause : Nat) (s : State) : exec (.haltReceive rx fn mepoch cseq origin cause) s = execHaltReceive rx fn mepoch cseq origin cause s := rfl
theorem exec_barrierTokenReceive (rx : Rx) (fn : Fn) (mepoch cseq sig srank step : Nat) (s : State) : exec (.barrierTokenReceive rx fn mepoch cseq sig srank step) s = execBarrierTokenReceive rx fn mepoch cseq sig srank step s := rfl
theorem exec_heartbeatTimer (fn : Fn) (herd : Nat) (now : Nat) (s : State) : exec (.heartbeatTimer fn herd now) s = execHeartbeatTimer fn herd now s := rfl
theorem exec_heartbeatMiss (fn : Fn) (herd : Nat) (now : Nat) (s : State) : exec (.heartbeatMiss fn herd now) s = execHeartbeatMiss fn herd now s := rfl
theorem exec_tokenProposeReceive (rx : Rx) (fn : Fn) (t : Token) (s : State) : exec (.tokenProposeReceive rx fn t) s = execTokenProposeReceive rx fn t s := rfl
theorem exec_tokenCommitReceive (rx : Rx) (fn : Fn) (t : Token) (s : State) : exec (.tokenCommitReceive rx fn t) s = execTokenCommitReceive rx fn t s := rfl
theorem exec_proposeLapTimer (fn : Fn) (herd : Nat) (now : Nat) (s : State) : exec (.proposeLapTimer fn herd now) s = execProposeLapTimer fn herd now s := rfl
theorem exec_settleTimer (fn : Fn) (herd : Nat) (now : Nat) (s : State) : exec (.settleTimer fn herd now) s = execSettleTimer fn herd now s := rfl
theorem exec_agreeTimer (fn : Fn) (herd : Nat) (now : Nat) (s : State) : exec (.agreeTimer fn herd now) s = execAgreeTimer fn herd now s := rfl
theorem exec_collectiveResume (fn : Fn) (herd : Nat) (sources : List (Nat × Nat)) (s : State) : exec (.collectiveResume fn herd sources) s = execCollectiveResume fn herd sources s := rfl
theorem exec_attnOpen (e : Entry) (b : AttnBody) (s : State) : exec (.attnOpen e b) s = execAttnOpen e b s := rfl
theorem exec_attnLoadingDone (fn : Fn) (sess : Nat) (s : State) : exec (.attnLoadingDone fn sess) s = execAttnLoadingDone fn sess s := rfl
theorem exec_attnFeed (e : Entry) (b : FeedBody) (s : State) : exec (.attnFeed e b) s = execAttnFeed e b s := rfl
theorem exec_attnFinish (e : Entry) (sref : Nat) (s : State) : exec (.attnFinish e sref) s = execAttnFinish e sref s := rfl
theorem exec_attnAbort (e : Entry) (sref : Nat) (s : State) : exec (.attnAbort e sref) s = execAttnAbort e sref s := rfl
theorem exec_attnQuery (e : Entry) (sess addr : Nat) (s : State) : exec (.attnQuery e sess addr) s = execAttnQuery e sess addr s := rfl
theorem exec_bulkKvReceive (rx : Rx) (fn : Fn) (x : KvExt) (npk : Nat) (pidx : Nat) (payload : List Byte) (s : State) : exec (.bulkKvReceive rx fn x npk pidx payload) s = execBulkKvReceive rx fn x npk pidx payload s := rfl
theorem exec_kvBlockMerge (fn : Fn) (sess : Nat) (block slot : Nat) (s : State) : exec (.kvBlockMerge fn sess block slot) s = execKvBlockMerge fn sess block slot s := rfl
theorem exec_attnOutputWrite (fn : Fn) (sess : Nat) (s : State) : exec (.attnOutputWrite fn sess) s = execAttnOutputWrite fn sess s := rfl
theorem exec_progLoad (e : Entry) (slice : Bool) (image len codeOff codeLen : Nat) (s : State) : exec (.progLoad e slice image len codeOff codeLen) s = execProgLoad e slice image len codeOff codeLen s := rfl
theorem exec_progUnload (e : Entry) (handle : Nat) (s : State) : exec (.progUnload e handle) s = execProgUnload e handle s := rfl
theorem exec_progLaunch (e : Entry) (b : LaunchBody) (s : State) : exec (.progLaunch e b) s = execProgLaunch e b s := rfl
theorem exec_launchRunning (fn : Fn) (launch : Nat) (s : State) : exec (.launchRunning fn launch) s = execLaunchRunning fn launch s := rfl
theorem exec_progStop (e : Entry) (lref : Nat) (s : State) : exec (.progStop e lref) s = execProgStop e lref s := rfl
theorem exec_progQuery (e : Entry) (launch addr : Nat) (s : State) : exec (.progQuery e launch addr) s = execProgQuery e launch addr s := rfl
theorem exec_launchStopped (fn : Fn) (launch : Nat) (s : State) : exec (.launchStopped fn launch) s = execLaunchStopped fn launch s := rfl
theorem exec_launchEnded (fn : Fn) (launch : Nat) (s : State) : exec (.launchEnded fn launch) s = execLaunchEnded fn launch s := rfl
theorem exec_atcPrefetch (e : Entry) (addr len : Nat) (wr : Bool) (faultOk : Bool) (s : State) : exec (.atcPrefetch e addr len wr faultOk) s = execAtcPrefetch e addr len wr faultOk s := rfl
theorem exec_sliceRekey (e : Entry) (first count ksel : Nat) (s : State) : exec (.sliceRekey e first count ksel) s = execSliceRekey e first count ksel s := rfl
theorem exec_sliceRekeyPage (page : Nat) (s : State) : exec (.sliceRekeyPage page) s = execSliceRekeyPage page s := rfl
theorem exec_sliceInfo (e : Entry) (addr : Nat) (s : State) : exec (.sliceInfo e addr) s = execSliceInfo e addr s := rfl
theorem exec_atsTranslationCompletion (fn : Fn) (addr : Nat) (reply : XlateReply) (s : State) : exec (.atsTranslationCompletion fn addr reply) s = execAtsTranslationCompletion fn addr reply s := rfl
theorem exec_pageRequestBatchSend (fn : Fn) (now : Nat) (s : State) : exec (.pageRequestBatchSend fn now) s = execPageRequestBatchSend fn now s := rfl
theorem exec_priResponseReceive (fn : Fn) (group : Nat) (gen : Nat) (reply : PriReply) (s : State) : exec (.priResponseReceive fn group gen reply) s = execPriResponseReceive fn group gen reply s := rfl
theorem exec_priTimeout (fn : Fn) (group : Nat) (now : Nat) (s : State) : exec (.priTimeout fn group now) s = execPriTimeout fn group now s := rfl
theorem exec_atsInvalidateRequest (fn : Fn) (tag addr len : Nat) (s : State) : exec (.atsInvalidateRequest fn tag addr len) s = execAtsInvalidateRequest fn tag addr len s := rfl
theorem exec_atsInvalidateComplete (fn : Fn) (tag : Nat) (s : State) : exec (.atsInvalidateComplete fn tag) s = execAtsInvalidateComplete fn tag s := rfl
theorem exec_hostReadCompletion (link : Fin 4) (tag : Nat) (gen : Nat) (data : List Byte) (ans : ReadAns) (s : State) : exec (.hostReadCompletion link tag gen data ans) s = execHostReadCompletion link tag gen data ans s := rfl
theorem exec_completionTimeout (link : Fin 4) (tag : Nat) (now : Nat) (s : State) : exec (.completionTimeout link tag now) s = execCompletionTimeout link tag now s := rfl
theorem exec_vfFlr (link : Fin 4) (part : Fin 16) (s : State) : exec (.vfFlr link part) s = execVfFlr link part s := rfl
theorem exec_pfFlr (link : Fin 4) (s : State) : exec (.pfFlr link) s = execPfFlr link s := rfl
theorem exec_linkDlDown (link : Fin 4) (s : State) : exec (.linkDlDown link) s = execLinkDlDown link s := rfl
theorem exec_linkUp (link : Fin 4) (speed width : Nat) (cxl : Bool) (s : State) : exec (.linkUp link speed width cxl) s = execLinkUp link speed width cxl s := rfl
theorem exec_cxlMemRead (link : Fin 4) (addr : Nat) (s : State) : exec (.cxlMemRead link addr) s = execCxlMemRead link addr s := rfl
theorem exec_cxlMemWrite (link : Fin 4) (addr : Nat) (data : List Byte) (s : State) : exec (.cxlMemWrite link addr data) s = execCxlMemWrite link addr data s := rfl
theorem exec_hostSnoop (link : Fin 4) (addr : Nat) (inval : Bool) (s : State) : exec (.hostSnoop link addr inval) s = execHostSnoop link addr inval s := rfl
theorem exec_directoryRecall (link : Fin 4) (addr : Nat) (dirty : Option (List Byte)) (s : State) : exec (.directoryRecall link addr dirty) s = execDirectoryRecall link addr dirty s := rfl
theorem exec_lineCacheDisable (link : Fin 4) (o : Origin) (s : State) : exec (.lineCacheDisable link o) s = execLineCacheDisable link o s := rfl
theorem exec_instMbx (part : Fin 16) (link : Fin 4) (gen opcode tag : Nat) (args : List Byte) (deferrable : Bool) (s : State) : exec (.instMbx part link gen opcode tag args deferrable) s = execInstMbx part link gen opcode tag args deferrable s := rfl
theorem exec_mailboxTake (part : Fin 16) (s : State) : exec (.mailboxTake part) s = execMailboxTake part s := rfl
theorem exec_mailboxReplyWrite (part : Fin 16) (index : Nat) (s : State) : exec (.mailboxReplyWrite part index) s = execMailboxReplyWrite part index s := rfl
theorem exec_mbxReplyHead (fn : Fn) (head : Nat) (s : State) : exec (.mbxReplyHead fn head) s = execMbxReplyHead fn head s := rfl
theorem exec_mbxEcho (part : Fin 16) (s : State) : exec (.mbxEcho part) s = execMbxEcho part s := rfl
theorem exec_mbxInfo (part : Fin 16) (s : State) : exec (.mbxInfo part) s = execMbxInfo part s := rfl
theorem exec_mbxQuota (part : Fin 16) (s : State) : exec (.mbxQuota part) s = execMbxQuota part s := rfl
theorem exec_mbxKeystat (part : Fin 16) (s : State) : exec (.mbxKeystat part) s = execMbxKeystat part s := rfl
theorem exec_mbxHealth (part : Fin 16) (s : State) : exec (.mbxHealth part) s = execMbxHealth part s := rfl
theorem exec_partApply (e : Entry) (part limit ptab : Nat) (s : State) : exec (.partApply e part limit ptab) s = execPartApply e part limit ptab s := rfl
theorem exec_partApplyCommit (part : Fin 16) (s : State) : exec (.partApplyCommit part) s = execPartApplyCommit part s := rfl
theorem exec_partApplyLimit (part : Fin 16) (now : Nat) (s : State) : exec (.partApplyLimit part now) s = execPartApplyLimit part now s := rfl
theorem exec_partReset (e : Entry) (part : Nat) (s : State) : exec (.partReset e part) s = execPartReset e part s := rfl
theorem exec_instanceResetComplete (part : Fin 16) (s : State) : exec (.instanceResetComplete part) s = execInstanceResetComplete part s := rfl
theorem exec_partFreeze (e : Entry) (part limit : Nat) (s : State) : exec (.partFreeze e part limit) s = execPartFreeze e part limit s := rfl
theorem exec_freezePoint (part : Fin 16) (now : Nat) (s : State) : exec (.freezePoint part now) s = execFreezePoint part now s := rfl
theorem exec_freezeCancel (part : Fin 16) (now : Nat) (s : State) : exec (.freezeCancel part now) s = execFreezeCancel part now s := rfl
theorem exec_partSave (e : Entry) (part addr len slot : Nat) (s : State) : exec (.partSave e part addr len slot) s = execPartSave e part addr len slot s := rfl
theorem exec_partRestore (e : Entry) (part addr len slot : Nat) (s : State) : exec (.partRestore e part addr len slot) s = execPartRestore e part addr len slot s := rfl
theorem exec_partThaw (e : Entry) (part : Nat) (s : State) : exec (.partThaw e part) s = execPartThaw e part s := rfl
theorem exec_partQuery (e : Entry) (part addr : Nat) (s : State) : exec (.partQuery e part addr) s = execPartQuery e part addr s := rfl
theorem exec_partAddrWrite (part : Fin 16) (o : Origin) (index : Nat) (ip vid pcp : Nat) (ven : Bool) (ports : Nat) (valid : Bool) (s : State) : exec (.partAddrWrite part o index ip vid pcp ven ports valid) s = execPartAddrWrite part o index ip vid pcp ven ports valid s := rfl
theorem exec_quietExpiry (part : Fin 16) (now : Nat) (s : State) : exec (.quietExpiry part now) s = execQuietExpiry part now s := rfl
theorem exec_keySelSet (e : Entry) (sel tsel : Nat) (s : State) : exec (.keySelSet e sel tsel) s = execKeySelSet e sel tsel s := rfl
theorem exec_keySelClear (e : Entry) (sel : Nat) (s : State) : exec (.keySelClear e sel) s = execKeySelClear e sel s := rfl
theorem exec_keyAdvance (e : Entry) (conn : Nat) (s : State) : exec (.keyAdvance e conn) s = execKeyAdvance e conn s := rfl
theorem exec_keySeal (e : Entry) (slot : Nat) (ispace ospace : Bool) (src dst len : Nat) (s : State) : exec (.keySeal e slot ispace ospace src dst len) s = execKeySeal e slot ispace ospace src dst len s := rfl
theorem exec_keyUnseal (e : Entry) (slot : Nat) (ispace ospace : Bool) (src dst len : Nat) (s : State) : exec (.keyUnseal e slot ispace ospace src dst len) s = execKeyUnseal e slot ispace ospace src dst len s := rfl
theorem exec_keyStatus (e : Entry) (addr : Nat) (s : State) : exec (.keyStatus e addr) s = execKeyStatus e addr s := rfl
theorem exec_contribSet (part : Fin 16) (session kind slot : Nat) (value : Nat) (s : State) : exec (.contribSet part session kind slot value) s = execContribSet part session kind slot value s := rfl
theorem exec_contribClear (part : Fin 16) (session kind slot : Nat) (s : State) : exec (.contribClear part session kind slot) s = execContribClear part session kind slot s := rfl
theorem exec_spdmRequest (ep : SpdmEnd) (r : SpdmReq) (s : State) : exec (.spdmRequest ep r) s = execSpdmRequest ep r s := rfl
theorem exec_firstContactDatagram (peerIp peerDev : Nat) (ok : ContactProof) (final : Bool) (now : Nat) (s : State) : exec (.firstContactDatagram peerIp peerDev ok final now) s = execFirstContactDatagram peerIp peerDev ok final now s := rfl
theorem exec_firstContactRetry (peerIp : Nat) (now : Nat) (s : State) : exec (.firstContactRetry peerIp now) s = execFirstContactRetry peerIp now s := rfl
theorem exec_rxNextKeyDerived (fn : Fn) (conn : Nat) (s : State) : exec (.rxNextKeyDerived fn conn) s = execRxNextKeyDerived fn conn s := rfl
theorem exec_entropyWindowEnd (ok : Bool) (s : State) : exec (.entropyWindowEnd ok) s = execEntropyWindowEnd ok s := rfl
theorem exec_drbgReseed (now : Nat) (s : State) : exec (.drbgReseed now) s = execDrbgReseed now s := rfl
theorem exec_ideIntegrityFail (link : Fin 4) (stream : Nat) (s : State) : exec (.ideIntegrityFail link stream) s = execIdeIntegrityFail link stream s := rfl
theorem exec_tdispRequest (part : Fin 16) (r : TdispReq) (s : State) : exec (.tdispRequest part r) s = execTdispRequest part r s := rfl
theorem exec_jrnlExportWrite (s : State) : exec .jrnlExportWrite s = execJrnlExportWrite s := rfl
theorem exec_jrnlExportVisible (s : State) : exec .jrnlExportVisible s = execJrnlExportVisible s := rfl
theorem exec_jrnlExpHead (o : Origin) (head : Nat) (s : State) : exec (.jrnlExpHead o head) s = execJrnlExpHead o head s := rfl
theorem exec_jrnlExpEnable (o : Origin) (value : Nat) (s : State) : exec (.jrnlExpEnable o value) s = execJrnlExpEnable o value s := rfl
theorem exec_jrnlTailRead (o : Origin) (s : State) : exec (.jrnlTailRead o) s = execJrnlTailRead o s := rfl
theorem exec_portDown (port : Fin 8) (loss : PortLoss) (now : Nat) (s : State) : exec (.portDown port loss now) s = execPortDown port loss now s := rfl
theorem exec_portUp (port : Fin 8) (bp : Nat) (lanes : Nat) (s : State) : exec (.portUp port bp lanes) s = execPortUp port bp lanes s := rfl
theorem exec_orderlyFenceProceed (region : Fin 4) (s : State) : exec (.orderlyFenceProceed region) s = execOrderlyFenceProceed region s := rfl
theorem exec_fenceWaitExpiry (region : Fin 4) (now : Nat) (s : State) : exec (.fenceWaitExpiry region now) s = execFenceWaitExpiry region now s := rfl
theorem exec_errFenceReq (o : Origin) (mask : Nat) (s : State) : exec (.errFenceReq o mask) s = execErrFenceReq o mask s := rfl
theorem exec_errFenceUnfence (o : Origin) (mask : Nat) (s : State) : exec (.errFenceUnfence o mask) s = execErrFenceUnfence o mask s := rfl
theorem exec_errorArrival (r : ErrReport) (strikes : CtxRef) (s : State) : exec (.errorArrival r strikes) s = execErrorArrival r strikes s := rfl
theorem exec_errorActionEnd (rec_ : RecRef) (s : State) : exec (.errorActionEnd rec_) s = execErrorActionEnd rec_ s := rfl
theorem exec_errRecordClear (o : Origin) (rec_ : RecRef) (s : State) : exec (.errRecordClear o rec_) s = execErrRecordClear o rec_ s := rfl
theorem exec_saigaWatchdogExpiry (s : State) : exec .saigaWatchdogExpiry s = execSaigaWatchdogExpiry s := rfl
theorem exec_scrubVisit (scrubber : Nat) (f : ScrubFind) (now : Nat) (s : State) : exec (.scrubVisit scrubber f now) s = execScrubVisit scrubber f now s := rfl
theorem exec_scrubStarve (scrubber : Nat) (now : Nat) (s : State) : exec (.scrubStarve scrubber now) s = execScrubStarve scrubber now s := rfl
theorem exec_frameReceive (f : Frame) (s : State) : exec (.frameReceive f) s = execFrameReceive f s := rfl
theorem exec_pauseFrameReceive (port : Fin 8) (bp quanta : Nat) (now : Nat) (s : State) : exec (.pauseFrameReceive port bp quanta now) s = execPauseFrameReceive port bp quanta now s := rfl
theorem exec_pfcFrameReceive (port : Fin 8) (bp enables : Nat) (times : List Nat) (now : Nat) (s : State) : exec (.pfcFrameReceive port bp enables times now) s = execPfcFrameReceive port bp enables times now s := rfl
theorem exec_pauseTimerExpiry (port : Fin 8) (bp prio : Nat) (now : Nat) (s : State) : exec (.pauseTimerExpiry port bp prio now) s = execPauseTimerExpiry port bp prio now s := rfl
theorem exec_pfcRepeatTimer (port : Fin 8) (bp : Nat) (now : Nat) (s : State) : exec (.pfcRepeatTimer port bp now) s = execPfcRepeatTimer port bp now s := rfl
theorem exec_overloadInterval (port : Fin 8) (bp total corr uncorr : Nat) (now : Nat) (s : State) : exec (.overloadInterval port bp total corr uncorr now) s = execOverloadInterval port bp total corr uncorr now s := rfl
theorem exec_shedCapReceive (port : Fin 8) (bp lanes : Nat) (s : State) : exec (.shedCapReceive port bp lanes) s = execShedCapReceive port bp lanes s := rfl
theorem exec_shedSample (port : Fin 8) (bp rx : Nat) (now : Nat) (s : State) : exec (.shedSample port bp rx now) s = execShedSample port bp rx now s := rfl
theorem exec_shedReqReceive (port : Fin 8) (bp seq lanes peerMac : Nat) (s : State) : exec (.shedReqReceive port bp seq lanes peerMac) s = execShedReqReceive port bp seq lanes peerMac s := rfl
theorem exec_shedAckReceive (port : Fin 8) (bp seq : Nat) (s : State) : exec (.shedAckReceive port bp seq) s = execShedAckReceive port bp seq s := rfl
theorem exec_shedNakReceive (port : Fin 8) (bp seq : Nat) (s : State) : exec (.shedNakReceive port bp seq) s = execShedNakReceive port bp seq s := rfl
theorem exec_shedReqTimeout (port : Fin 8) (bp : Nat) (now : Nat) (s : State) : exec (.shedReqTimeout port bp now) s = execShedReqTimeout port bp now s := rfl
theorem exec_shedLanesTrained (port : Fin 8) (bp : Nat) (s : State) : exec (.shedLanesTrained port bp) s = execShedLanesTrained port bp s := rfl
theorem exec_shedMarkReceive (port : Fin 8) (bp : Nat) (s : State) : exec (.shedMarkReceive port bp) s = execShedMarkReceive port bp s := rfl
theorem exec_shedMarkTimeout (port : Fin 8) (bp : Nat) (now : Nat) (s : State) : exec (.shedMarkTimeout port bp now) s = execShedMarkTimeout port bp now s := rfl
theorem exec_moduleInsert (port : Fin 8) (power : Nat) (now : Nat) (s : State) : exec (.moduleInsert port power now) s = execModuleInsert port power now s := rfl
theorem exec_moduleRemove (port : Fin 8) (s : State) : exec (.moduleRemove port) s = execModuleRemove port s := rfl
theorem exec_moduleIntl (port : Fin 8) (flags : Nat) (s : State) : exec (.moduleIntl port flags) s = execModuleIntl port flags s := rfl
theorem exec_portModeWrite (o : Origin) (port : Fin 8) (value : Nat) (s : State) : exec (.portModeWrite o port value) s = execPortModeWrite o port value s := rfl
theorem exec_fltCommit (o : Origin) (index : Nat) (s : State) : exec (.fltCommit o index) s = execFltCommit o index s := rfl
theorem exec_fltRetire (index : Nat) (s : State) : exec (.fltRetire index) s = execFltRetire index s := rfl
theorem exec_timeAdj (o : Origin) (delta : Int) (s : State) : exec (.timeAdj o delta) s = execTimeAdj o delta s := rfl
theorem exec_ptpSyncReceive (port : Fin 8) (bp domain : Nat) (offset : Int) (now : Nat) (s : State) : exec (.ptpSyncReceive port bp domain offset now) s = execPtpSyncReceive port bp domain offset now s := rfl
theorem exec_timeNowRead (o : Origin) (s : State) : exec (.timeNowRead o) s = execTimeNowRead o s := rfl
theorem exec_saigaDoze (now : Nat) (s : State) : exec (.saigaDoze now) s = execSaigaDoze now s := rfl
theorem exec_saigaWake (source : Nat) (s : State) : exec (.saigaWake source) s = execSaigaWake source s := rfl
theorem exec_boot (bad : List Nat) (s : State) : exec (.boot bad) s = execBoot bad s := rfl
theorem exec_trialConfirm (now : Nat) (s : State) : exec (.trialConfirm now) s = execTrialConfirm now s := rfl
theorem exec_id (node seq : Nat) (s : State) : exec (.id node seq) s = execId node seq s := rfl
theorem exec_regRead (node seq addr width session : Nat) (s : State) : exec (.regRead node seq addr width session) s = execRegRead node seq addr width session s := rfl
theorem exec_regWrite (node seq addr width value session : Nat) (s : State) : exec (.regWrite node seq addr width value session) s = execRegWrite node seq addr width value session s := rfl
theorem exec_flashWrite (node seq addr : Nat) (data : List Byte) (session : Nat) (s : State) : exec (.flashWrite node seq addr data session) s = execFlashWrite node seq addr data session s := rfl
theorem exec_imageSwitch (node seq : Nat) (restart : Bool) (session : Nat) (s : State) : exec (.imageSwitch node seq restart session) s = execImageSwitch node seq restart session s := rfl
theorem exec_jrnlRead (node seq rec_ session : Nat) (s : State) : exec (.jrnlRead node seq rec_ session) s = execJrnlRead node seq rec_ session s := rfl
theorem exec_healthMulticast (now : Nat) (s : State) : exec (.healthMulticast now) s = execHealthMulticast now s := rfl
theorem exec_telemetrySnapshot (now : Nat) (s : State) : exec (.telemetrySnapshot now) s = execTelemetrySnapshot now s := rfl
theorem exec_loadShedWindow (busy : Nat) (now : Nat) (s : State) : exec (.loadShedWindow busy now) s = execLoadShedWindow busy now s := rfl
theorem exec_mbusShortRetry (ok : MbusTry) (now : Nat) (s : State) : exec (.mbusShortRetry ok now) s = execMbusShortRetry ok now s := rfl
theorem exec_mgmtModeExit (o : Origin) (s : State) : exec (.mgmtModeExit o) s = execMgmtModeExit o s := rfl
theorem exec_mgmtSaEnable (o : Origin) (value : Nat) (s : State) : exec (.mgmtSaEnable o value) s = execMgmtSaEnable o value s := rfl
theorem exec_bistRegionStart (o : Origin) (mask : Nat) (s : State) : exec (.bistRegionStart o mask) s = execBistRegionStart o mask s := rfl
theorem exec_bistRegionEnd (region : Fin 4) (fails spares funit : Nat) (now : Nat) (s : State) : exec (.bistRegionEnd region fails spares funit now) s = execBistRegionEnd region fails spares funit now s := rfl
theorem exec_bistChipStart (o : Origin) (bad : List Nat) (s : State) : exec (.bistChipStart o bad) s = execBistChipStart o bad s := rfl
theorem exec_tapScanSelect (s : State) : exec .tapScanSelect s = execTapScanSelect s := rfl
theorem exec_refStable (restarts : Nat) (s : State) : exec (.refStable restarts) s = execRefStable restarts s := rfl
theorem exec_refLoss (s : State) : exec .refLoss s = execRefLoss s := rfl
theorem exec_clkRampStep (domain : Nat) (s : State) : exec (.clkRampStep domain) s = execClkRampStep domain s := rfl
theorem exec_clkSourceSwitch (domain : Nat) (s : State) : exec (.clkSourceSwitch domain) s = execClkSourceSwitch domain s := rfl
theorem exec_pllLockLoss (pll : Nat) (s : State) : exec (.pllLockLoss pll) s = execPllLockLoss pll s := rfl
theorem exec_clkDomSel (o : Origin) (value : Nat) (s : State) : exec (.clkDomSel o value) s = execClkDomSel o value s := rfl
theorem exec_regionIdle (region : Fin 4) (now : Nat) (s : State) : exec (.regionIdle region now) s = execRegionIdle region now s := rfl
theorem exec_regionIdleWake (region : Fin 4) (s : State) : exec (.regionIdleWake region) s = execRegionIdleWake region s := rfl
theorem exec_regionDoze (region : Fin 4) (now : Nat) (s : State) : exec (.regionDoze region now) s = execRegionDoze region now s := rfl
theorem exec_regionWake (region : Fin 4) (s : State) : exec (.regionWake region) s = execRegionWake region s := rfl
theorem exec_railSettled (region : Fin 4) (mv : Nat) (s : State) : exec (.railSettled region mv) s = execRailSettled region mv s := rfl
theorem exec_powerSwitchClosed (region : Fin 4) (s : State) : exec (.powerSwitchClosed region) s = execPowerSwitchClosed region s := rfl
theorem exec_pllLocked (region : Fin 4) (s : State) : exec (.pllLocked region) s = execPllLocked region s := rfl
theorem exec_pwrSleep (o : Origin) (s : State) : exec (.pwrSleep o) s = execPwrSleep o s := rfl
theorem exec_sleepExit (source : Nat) (s : State) : exec (.sleepExit source) s = execSleepExit source s := rfl
theorem exec_powerLimitEval (power : Nat) (now : Nat) (s : State) : exec (.powerLimitEval power now) s = execPowerLimitEval power now s := rfl
theorem exec_powerLimitFence (now : Nat) (s : State) : exec (.powerLimitFence now) s = execPowerLimitFence now s := rfl
theorem exec_thermalSample (temps : List Int) (now : Nat) (s : State) : exec (.thermalSample temps now) s = execThermalSample temps now s := rfl
theorem exec_railFault (region : RailRef) (mv : Nat) (s : State) : exec (.railFault region mv) s = execRailFault region mv s := rfl
theorem exec_perstAssert (link : Fin 4) (s : State) : exec (.perstAssert link) s = execPerstAssert link s := rfl
theorem exec_auxVoltageChange (mv : Int) (now : Nat) (s : State) : exec (.auxVoltageChange mv now) s = execAuxVoltageChange mv now s := rfl
theorem exec_auxUvRecover (now : Nat) (s : State) : exec (.auxUvRecover now) s = execAuxUvRecover now s := rfl
theorem exec_auxPowerLoss (now : Nat) (s : State) : exec (.auxPowerLoss now) s = execAuxPowerLoss now s := rfl
theorem exec_cageInsertPower (port : Fin 8) (now : Nat) (s : State) : exec (.cageInsertPower port now) s = execCageInsertPower port now s := rfl
theorem exec_cageOvercurrent (port : Fin 8) (now : Nat) (s : State) : exec (.cageOvercurrent port now) s = execCageOvercurrent port now s := rfl
theorem exec_cageRetry (port : Fin 8) (now : Nat) (s : State) : exec (.cageRetry port now) s = execCageRetry port now s := rfl
theorem exec_coolantSensorRead (x : Sensors) (now : Nat) (s : State) : exec (.coolantSensorRead x now) s = execCoolantSensorRead x now s := rfl
theorem exec_coolingCapLift (now : Nat) (s : State) : exec (.coolingCapLift now) s = execCoolingCapLift now s := rfl
theorem exec_connRefusalReceive (rx : Rx) (fn : Fn) (kind hint : Nat) (now : Nat) (s : State) : exec (.connRefusalReceive rx fn kind hint now) s = execConnRefusalReceive rx fn kind hint now s := rfl
theorem exec_priReset (fn : Fn) (s : State) : exec (.priReset fn) s = execPriReset fn s := rfl
theorem exec_vfEnableWrite (link : Fin 4) (on : Bool) (s : State) : exec (.vfEnableWrite link on) s = execVfEnableWrite link on s := rfl
theorem exec_atsEnableWrite (fn : Fn) (ctl : AtsCtl) (s : State) : exec (.atsEnableWrite fn ctl) s = execAtsEnableWrite fn ctl s := rfl
theorem exec_sleepExportTimeout (now : Nat) (s : State) : exec (.sleepExportTimeout now) s = execSleepExportTimeout now s := rfl
theorem exec_slewAbsorbed (now : Nat) (s : State) : exec (.slewAbsorbed now) s = execSlewAbsorbed now s := rfl
theorem exec_tpfNop (r : CopyRef) (s : State) : exec (.tpfNop r) s = execTpfNop r s := rfl
theorem exec_tpfEnd (r : CopyRef) (s : State) : exec (.tpfEnd r) s = execTpfEnd r s := rfl
theorem exec_tpfJmp (r : CopyRef) (s : State) : exec (.tpfJmp r) s = execTpfJmp r s := rfl
theorem exec_tpfBr (r : CopyRef) (s : State) : exec (.tpfBr r) s = execTpfBr r s := rfl
theorem exec_tpfLoop (r : CopyRef) (s : State) : exec (.tpfLoop r) s = execTpfLoop r s := rfl
theorem exec_tpfSafepoint (r : CopyRef) (s : State) : exec (.tpfSafepoint r) s = execTpfSafepoint r s := rfl
theorem exec_tpfMovi (r : CopyRef) (s : State) : exec (.tpfMovi r) s = execTpfMovi r s := rfl
theorem exec_tpfAlu (r : CopyRef) (s : State) : exec (.tpfAlu r) s = execTpfAlu r s := rfl
theorem exec_tpfArg (r : CopyRef) (s : State) : exec (.tpfArg r) s = execTpfArg r s := rfl
theorem exec_tpfId (r : CopyRef) (s : State) : exec (.tpfId r) s = execTpfId r s := rfl
theorem exec_tpfTime (r : CopyRef) (s : State) : exec (.tpfTime r) s = execTpfTime r s := rfl
theorem exec_tpfExc (r : CopyRef) (s : State) : exec (.tpfExc r) s = execTpfExc r s := rfl
theorem exec_tpfTread (r : CopyRef) (s : State) : exec (.tpfTread r) s = execTpfTread r s := rfl
theorem exec_tpfTload (r : CopyRef) (s : State) : exec (.tpfTload r) s = execTpfTload r s := rfl
theorem exec_tpfTstore (r : CopyRef) (s : State) : exec (.tpfTstore r) s = execTpfTstore r s := rfl
theorem exec_tpfTcopy (r : CopyRef) (s : State) : exec (.tpfTcopy r) s = execTpfTcopy r s := rfl
theorem exec_tpfTfill (r : CopyRef) (s : State) : exec (.tpfTfill r) s = execTpfTfill r s := rfl
theorem exec_tpfMma (r : CopyRef) (s : State) : exec (.tpfMma r) s = execTpfMma r s := rfl
theorem exec_tpfVop (r : CopyRef) (s : State) : exec (.tpfVop r) s = execTpfVop r s := rfl
theorem exec_tpfVfn (r : CopyRef) (s : State) : exec (.tpfVfn r) s = execTpfVfn r s := rfl
theorem exec_tpfVred (r : CopyRef) (s : State) : exec (.tpfVred r) s = execTpfVred r s := rfl
theorem exec_tpfQuant (r : CopyRef) (s : State) : exec (.tpfQuant r) s = execTpfQuant r s := rfl
theorem exec_tpfSend (r : CopyRef) (s : State) : exec (.tpfSend r) s = execTpfSend r s := rfl
theorem exec_tpfRecv (r : CopyRef) (s : State) : exec (.tpfRecv r) s = execTpfRecv r s := rfl
theorem exec_tpfTadd (r : CopyRef) (s : State) : exec (.tpfTadd r) s = execTpfTadd r s := rfl
theorem exec_tpfTwait (r : CopyRef) (s : State) : exec (.tpfTwait r) s = execTpfTwait r s := rfl
theorem exec_tpfTset (r : CopyRef) (s : State) : exec (.tpfTset r) s = execTpfTset r s := rfl
theorem exec_asyncOpEnd (r : CopyRef) (op : Nat) (s : State) : exec (.asyncOpEnd r op) s = execAsyncOpEnd r op s := rfl
theorem exec_sendRetry (r : CopyRef) (op : Nat) (now : Nat) (s : State) : exec (.sendRetry r op now) s = execSendRetry r op now s := rfl
theorem exec_peerMessageTransfer (r : CopyRef) (op : Nat) (s : State) : exec (.peerMessageTransfer r op) s = execPeerMessageTransfer r op s := rfl
theorem exec_copySave (r : CopyRef) (s : State) : exec (.copySave r) s = execCopySave r s := rfl
theorem exec_copyResume (r : CopyRef) (block : Nat) (s : State) : exec (.copyResume r block) s = execCopyResume r block s := rfl
theorem exec_spwaitExpiry (r : CopyRef) (now : Nat) (s : State) : exec (.spwaitExpiry r now) s = execSpwaitExpiry r now s := rfl

end Sys2Proof.Machine
end

