-- ==== Sys2Proof/Laws/Good.lean ====
section
/-!
SUPPORT. Good.lean: the memory of a state has the canonical form, and how that is carried through record updates, branches, folds,
pairs, options and outcomes.
-/

namespace Sys2Proof.Machine

/-- The memory of a state has its canonical form. -/
def State.Good (s : State) : Prop := s.mem.wf = true

/-- Every next state of an outcome has a canonical memory. -/
def OkOut (o : Host.Outcome State Fault Refusal) : Prop := ∀ t, o = .next t → t.Good

/-- The state of a pair whose second part it is has a canonical memory. -/
def OkR {α : Type} (p : α × State) : Prop := p.2.Good

/-- The state of a pair whose first part it is has a canonical memory. -/
def OkL {α : Type} (p : State × α) : Prop := p.1.Good

/-- The state an option holds has a canonical memory. -/
def OkOpt (o : Option State) : Prop := ∀ t, o = some t → t.Good

theorem good_mk {s : State} {a1 a2 a3 a4 a5 a6 a7 b1 b2 b3 b4 b5 b6 b7 b8 b9 c1 c2 c3 c4 c5 c6} (h : s.Good) :
    (State.mk a1 a2 a3 a4 a5 a6 a7 s.mem b1 b2 b3 b4 b5 b6 b7 b8 b9 c1 c2 c3 c4 c5 c6).Good := h

theorem good_mem {m : Mem} {a1 a2 a3 a4 a5 a6 a7 b1 b2 b3 b4 b5 b6 b7 b8 b9 c1 c2 c3 c4 c5 c6} (h : m.wf = true) :
    (State.mk a1 a2 a3 a4 a5 a6 a7 m b1 b2 b3 b4 b5 b6 b7 b8 b9 c1 c2 c3 c4 c5 c6).Good := h

theorem good_bytes {s : State} {a1 a2 a3 a4 a5 a6 a7 b1 b2 b3 b4 b5 b6 b7 b8 b9 c1 c2 c3 c4 c5 c6 d1 d2 d3 d4 d5 d6 d7 d8 d9 e1 e2 e3 e4 e5 e6 e7 e8}
    (h : s.Good) :
    (State.mk a1 a2 a3 a4 a5 a6 a7 (Mem.mk s.mem.bytes d1 d2 d3 d4 d5 d6 d7 d8 d9 e1 e2 e3 e4 e5 e6 e7 e8)
      b1 b2 b3 b4 b5 b6 b7 b8 b9 c1 c2 c3 c4 c5 c6).Good := h

theorem good_write {s : State} {k : Nat} {bs : List Byte} {a1 a2 a3 a4 a5 a6 a7 b1 b2 b3 b4 b5 b6 b7 b8 b9 c1 c2 c3 c4 c5 c6} (h : s.Good) :
    (State.mk a1 a2 a3 a4 a5 a6 a7 (s.mem.write k bs) b1 b2 b3 b4 b5 b6 b7 b8 b9 c1 c2 c3 c4 c5 c6).Good := good_mem (Mem.wf_write h)

theorem good_filter {s : State} {p : Host.Cell → Bool}
    {a1 a2 a3 a4 a5 a6 a7 b1 b2 b3 b4 b5 b6 b7 b8 b9 c1 c2 c3 c4 c5 c6 d1 d2 d3 d4 d5 d6 d7 d8 d9 e1 e2 e3 e4 e5 e6 e7 e8} (h : s.Good) :
    (State.mk a1 a2 a3 a4 a5 a6 a7 (Mem.mk (s.mem.bytes.filter p) d1 d2 d3 d4 d5 d6 d7 d8 d9 e1 e2 e3 e4 e5 e6 e7 e8)
      b1 b2 b3 b4 b5 b6 b7 b8 b9 c1 c2 c3 c4 c5 c6).Good := cellsFrom_filter h

theorem good_touchWrite {s : State} {k n i : Nat} {bs : List Byte} {a1 a2 a3 a4 a5 a6 a7 b1 b2 b3 b4 b5 b6 b7 b8 b9 c1 c2 c3 c4 c5 c6}
    (h : s.Good) :
    (State.mk a1 a2 a3 a4 a5 a6 a7 ((s.mem.touch i n).write k bs) b1 b2 b3 b4 b5 b6 b7 b8 b9 c1 c2 c3 c4 c5 c6).Good :=
  good_mem (Mem.wf_write (Mem.wf_touch h))

theorem good_id {s : State} (h : s.Good) : (id s).Good := h

theorem good_ite {c : Prop} [Decidable c] {a b : State} (ha : c → a.Good) (hb : ¬ c → b.Good) : (if c then a else b).Good := by
  split
  · exact ha (by assumption)
  · exact hb (by assumption)

theorem good_foldl {α : Type} {g : State → α → State} {l : List α} {s : State} (h : s.Good) (hg : ∀ s x, s.Good → (g s x).Good) :
    (l.foldl g s).Good := by
  induction l generalizing s with
  | nil => exact h
  | cons x t ih => exact ih (hg s x h)

theorem good_cut {s : State} {g : Prop} (h : s.Good) (k : s.Good → g) : g := k h

theorem okR_cut {α : Type} {p : α × State} {g : Prop} (h : OkR p) (k : OkR p → g) : g := k h

theorem okL_cut {α : Type} {p : State × α} {g : Prop} (h : OkL p) (k : OkL p → g) : g := k h

theorem okL_foldl {α β : Type} {g : State × β → α → State × β} {l : List α} {p : State × β} (h : OkL p)
    (hg : ∀ p x, OkL p → OkL (g p x)) : OkL (l.foldl g p) := by
  induction l generalizing p with
  | nil => exact h
  | cons x t ih => exact ih (hg p x h)

theorem okR_foldl {α β : Type} {g : β × State → α → β × State} {l : List α} {p : β × State} (h : OkR p)
    (hg : ∀ p x, OkR p → OkR (g p x)) : OkR (l.foldl g p) := by
  induction l generalizing p with
  | nil => exact h
  | cons x t ih => exact ih (hg p x h)

theorem okOpt_cut {o : Option State} {g : Prop} (h : OkOpt o) (k : OkOpt o → g) : g := k h

theorem okOpt_of {s : State} (h : OkOpt (some s)) : s.Good := h s rfl

theorem okR_of {α : Type} {a : α} {s : State} (h : OkR (a, s)) : s.Good := h

theorem okL_of {α : Type} {a : α} {s : State} (h : OkL (s, a)) : s.Good := h

/-- Only a memory fits: a local memory is written out rather than forgotten. -/
theorem is_mem (_ : Mem) : True := trivial

/-- Only a list of cells fits: a local one is written out rather than forgotten. -/
theorem is_cells (_ : List Host.Cell) : True := trivial

/-- Only a function fits: a local function is written out rather than forgotten. -/
theorem is_fun {α β : Type} (_ : α → β) : True := trivial

theorem okOut_next {s : State} (h : s.Good) : OkOut (.next s) := by
  intro t ht
  cases ht
  exact h

theorem okOut_ite {c : Prop} [Decidable c] {a b : Host.Outcome State Fault Refusal} (ha : c → OkOut a) (hb : ¬ c → OkOut b) :
    OkOut (if c then a else b) := by
  split
  · exact ha (by assumption)
  · exact hb (by assumption)

theorem okR_mk {α : Type} {a : α} {s : State} (h : s.Good) : OkR (a, s) := h

theorem okR_ite {α : Type} {c : Prop} [Decidable c] {a b : α × State} (ha : c → OkR a) (hb : ¬ c → OkR b) : OkR (if c then a else b) := by
  split
  · exact ha (by assumption)
  · exact hb (by assumption)

theorem okR_eq {α : Type} {p : α × State} {a : α} {s : State} (h : p = (a, s)) (hp : OkR p) : s.Good := by
  subst h
  exact hp

theorem okR_snd {α : Type} {p : α × State} (h : OkR p) : p.2.Good := h

theorem okL_mk {α : Type} {a : α} {s : State} (h : s.Good) : OkL (s, a) := h

theorem okL_ite {α : Type} {c : Prop} [Decidable c] {a b : State × α} (ha : c → OkL a) (hb : ¬ c → OkL b) : OkL (if c then a else b) := by
  split
  · exact ha (by assumption)
  · exact hb (by assumption)

theorem okL_eq {α : Type} {p : State × α} {a : α} {s : State} (h : p = (s, a)) (hp : OkL p) : s.Good := by
  subst h
  exact hp

theorem okL_fst {α : Type} {p : State × α} (h : OkL p) : p.1.Good := h

theorem okOpt_some {s : State} (h : s.Good) : OkOpt (some s) := by
  intro t ht
  cases ht
  exact h

theorem okOpt_none : OkOpt none := by
  intro t ht
  cases ht

theorem okOpt_ite {c : Prop} [Decidable c] {a b : Option State} (ha : c → OkOpt a) (hb : ¬ c → OkOpt b) : OkOpt (if c then a else b) := by
  split
  · exact ha (by assumption)
  · exact hb (by assumption)

theorem okOpt_getD {o : Option State} {s : State} (ho : OkOpt o) (h : s.Good) : (o.getD s).Good := by
  cases o with
  | none => exact h
  | some t => exact ho t rfl

theorem okOpt_eq {o : Option State} {s : State} (h : o = some s) (ho : OkOpt o) : s.Good := ho s h

/-- Repeating work that keeps the form keeps it. -/
theorem good_loop {α : Type} {work : State → α → State × Option α} {fuel : Nat} {s : State} {a : α}
    (hw : ∀ s a, s.Good → OkL (work s a)) (h : s.Good) : OkL (loop work fuel s a) := by
  induction fuel generalizing s a with
  | zero => exact h
  | succ n ih =>
    rw [loop]
    split
    · exact hw s a h
    · exact ih (hw s a h)

end Sys2Proof.Machine
end

