-- ==== Sys2Proof/Laws/GoodOps.lean ====
section
/-!
SUPPORT. GoodOps.lean: every operation and meaning of Ops.lean keeps the canonical form of memory.
-/

namespace Sys2Proof.Machine

set_option linter.all false


theorem good_State_setFn (s : State) (f : ℕ) (x : FnState) (h_s : s.Good) :
    (State.setFn s f x).Good := by
  unfold State.setFn
  repeat' (with_reducible first | assumption | ((first | apply good_bytes | apply good_mk); first | assumption))

theorem good_State_modFn (s : State) (f : ℕ) (g : FnState → FnState) (h_s : s.Good) :
    (State.modFn s f g).Good := by
  unfold State.modFn
  repeat' (with_reducible first | assumption | apply good_State_setFn)

theorem good_State_setPart (s : State) (p : ℕ) (x : Part) (h_s : s.Good) :
    (State.setPart s p x).Good := by
  unfold State.setPart
  repeat' (with_reducible first | assumption | apply good_ite | apply good_foldl | apply good_write | apply good_touchWrite | ((first | apply good_bytes | apply good_mk); first | assumption | apply good_ite | apply good_foldl | apply good_write | apply good_touchWrite) | intro _ | (extract_lets +onlyGivenNames x; first | (apply good_cut (s := x); rotate_left; clear_value x; rotate_left; subst x) | (have hf := is_fun x; clear hf; subst x) | (have hf := is_mem x; clear hf; subst x) | (have hf := is_cells x; clear hf; subst x) | clear_value x | subst x) | split)

theorem good_State_modPart (s : State) (p : ℕ) (g : Part → Part) (h_s : s.Good) :
    (State.modPart s p g).Good := by
  unfold State.modPart
  repeat' (with_reducible first | assumption | apply good_State_setPart | apply good_ite | apply good_foldl | apply good_write | apply good_touchWrite | ((first | apply good_bytes | apply good_mk); first | assumption | apply good_State_setPart | apply good_ite | apply good_foldl | apply good_write | apply good_touchWrite) | intro _ | (extract_lets +onlyGivenNames x; first | (apply good_cut (s := x); rotate_left; clear_value x; rotate_left; subst x) | (have hf := is_fun x; clear hf; subst x) | (have hf := is_mem x; clear hf; subst x) | (have hf := is_cells x; clear hf; subst x) | clear_value x | subst x) | split)

theorem good_State_modLink (s : State) (l : ℕ) (g : Link → Link) (h_s : s.Good) :
    (State.modLink s l g).Good := by
  unfold State.modLink
  repeat' (with_reducible first | assumption | apply good_ite | apply good_foldl | apply good_write | apply good_touchWrite | ((first | apply good_bytes | apply good_mk); first | assumption | apply good_ite | apply good_foldl | apply good_write | apply good_touchWrite) | intro _ | (extract_lets +onlyGivenNames x; first | (apply good_cut (s := x); rotate_left; clear_value x; rotate_left; subst x) | (have hf := is_fun x; clear hf; subst x) | (have hf := is_mem x; clear hf; subst x) | (have hf := is_cells x; clear hf; subst x) | clear_value x | subst x) | split)

theorem good_State_modPort (s : State) (q : ℕ) (g : Port → Port) (h_s : s.Good) :
    (State.modPort s q g).Good := by
  unfold State.modPort
  repeat' (with_reducible first | assumption | apply good_ite | apply good_foldl | apply good_write | apply good_touchWrite | ((first | apply good_bytes | apply good_mk); first | assumption | apply good_ite | apply good_foldl | apply good_write | apply good_touchWrite) | intro _ | (extract_lets +onlyGivenNames x; first | (apply good_cut (s := x); rotate_left; clear_value x; rotate_left; subst x) | (have hf := is_fun x; clear hf; subst x) | (have hf := is_mem x; clear hf; subst x) | (have hf := is_cells x; clear hf; subst x) | clear_value x | subst x) | split)

theorem good_State_emit (s : State) (o : Output) (h_s : s.Good) :
    (State.emit s o).Good := by
  unfold State.emit
  repeat' (with_reducible first | assumption | apply good_ite | apply good_foldl | apply good_write | apply good_touchWrite | ((first | apply good_bytes | apply good_mk); first | assumption | apply good_ite | apply good_foldl | apply good_write | apply good_touchWrite) | intro _ | (extract_lets +onlyGivenNames x; first | (apply good_cut (s := x); rotate_left; clear_value x; rotate_left; subst x) | (have hf := is_fun x; clear hf; subst x) | (have hf := is_mem x; clear hf; subst x) | (have hf := is_cells x; clear hf; subst x) | clear_value x | subst x) | split)

theorem good_State_bump (s : State) (h_s : s.Good) :
    (State.bump s).Good := by
  unfold State.bump
  repeat' (with_reducible first | assumption | ((first | apply good_bytes | apply good_mk); first | assumption))

theorem good_State_setReg (s : State) (off : ℕ) (v : ℕ) (h_s : s.Good) :
    (State.setReg s off v).Good := by
  unfold State.setReg
  repeat' (with_reducible first | assumption | ((first | apply good_bytes | apply good_mk); first | assumption))

theorem good_State_tick (s : State) (now : ℕ) (h_s : s.Good) :
    (State.tick s now).Good := by
  unfold State.tick
  repeat' (with_reducible first | assumption | ((first | apply good_bytes | apply good_mk); first | assumption))

theorem good_State_recall (s : State) (phys : ℕ) (len : ℕ) (h_s : s.Good) :
    (State.recall s phys len).Good := by
  unfold State.recall
  repeat' (with_reducible first | assumption | apply good_State_emit | apply good_foldl | ((first | apply good_bytes | apply good_mk); first | assumption | apply good_State_emit | apply good_foldl) | intro _ | (extract_lets +onlyGivenNames x; first | (apply good_cut (s := x); rotate_left; clear_value x; rotate_left; subst x) | (have hf := is_fun x; clear hf; subst x) | (have hf := is_mem x; clear hf; subst x) | clear_value x | subst x))

theorem good_State_physWrite (s : State) (phys : ℕ) (bs : List Byte) (h_s : s.Good) :
    (State.physWrite s phys bs).Good :=
  good_mem (Mem.wf_write (Mem.wf_touch (good_State_recall s phys _ h_s)))

theorem good_sliceWriteGo (s : State) (f : ℕ) (ps : List (ℕ × ℕ)) (bs : List Byte) (h_s : s.Good) :
    (sliceWriteGo s f ps bs).Good := by
  induction ps generalizing s f bs h_s with
  | nil => rw [sliceWriteGo.eq_1]; repeat' (with_reducible first | assumption | apply good_State_physWrite | intro _ | split)
  | cons x t ih => rw [sliceWriteGo.eq_2]; repeat' (with_reducible first | assumption | apply good_State_physWrite | apply ih | intro _ | split)

theorem good_State_sliceWrite (s : State) (f : ℕ) (off : ℕ) (bs : List Byte) (h_s : s.Good) :
    (State.sliceWrite s f off bs).Good := by
  unfold State.sliceWrite
  repeat' (with_reducible first | assumption | apply good_sliceWriteGo)

theorem good_State_askXlate (s : State) (f : ℕ) (page : ℕ) (wr : Bool) (h_s : s.Good) :
    (State.askXlate s f page wr).Good := by
  unfold State.askXlate
  repeat' (with_reducible first | assumption | apply good_State_emit | apply good_State_modFn | apply good_ite | ((first | apply good_bytes | apply good_mk); first | assumption | apply good_State_emit | apply good_State_modFn | apply good_ite) | intro _ | (extract_lets +onlyGivenNames x; first | (apply good_cut (s := x); rotate_left; clear_value x; rotate_left; subst x) | (have hf := is_fun x; clear hf; subst x) | clear_value x | subst x) | split)

theorem good_State_useXlate (s : State) (f : ℕ) (addr : ℕ) (len : ℕ) (h_s : s.Good) :
    (State.useXlate s f addr len).Good := by
  unfold State.useXlate
  repeat' (with_reducible first | assumption | apply good_ite | ((first | apply good_bytes | apply good_mk); first | assumption | apply good_ite) | intro _ | (extract_lets +onlyGivenNames x; first | (apply good_cut (s := x); rotate_left; clear_value x; rotate_left; subst x) | (have hf := is_fun x; clear hf; subst x) | (have hf := is_mem x; clear hf; subst x) | clear_value x | subst x) | split)

theorem good_State_modLines (s : State) (g : List Line → List Line) (h_s : s.Good) :
    (State.modLines s g).Good := by
  unfold State.modLines
  repeat' (with_reducible first | assumption | ((first | apply good_bytes | apply good_mk); first | assumption))

theorem good_State_dropLink (s : State) (l : ℕ) (h_s : s.Good) :
    (State.dropLink s l).Good := by
  unfold State.dropLink
  repeat' (with_reducible first | assumption | apply good_State_modLines | intro _)

theorem good_State_dropLines (s : State) (f : ℕ) (addr : ℕ) (len : ℕ) (h_s : s.Good) :
    (State.dropLines s f addr len).Good := by
  unfold State.dropLines
  repeat' (with_reducible first | assumption | apply good_State_modLines | intro _)

theorem good_State_fillLine (s : State) (f : ℕ) (addr : ℕ) (dirty : Bool) (h_s : s.Good) :
    (State.fillLine s f addr dirty).Good := by
  unfold State.fillLine
  repeat' (with_reducible first | assumption | apply good_State_modLines | apply good_ite | intro _ | (extract_lets +onlyGivenNames x; first | (apply good_cut (s := x); rotate_left; clear_value x; rotate_left; subst x) | (have hf := is_fun x; clear hf; subst x) | clear_value x | subst x) | split)

theorem good_State_hostWrite (s : State) (f : ℕ) (addr : ℕ) (bs : List Byte) (h_s : s.Good) :
    (State.hostWrite s f addr bs).Good :=
  good_mem (Mem.wf_write (good_State_useXlate _ f addr _ (good_State_dropLines s f addr _ h_s)))

theorem good_State_hostReadFill (s : State) (f : ℕ) (addr : ℕ) (len : ℕ) (h_s : s.Good) :
    (State.hostReadFill s f addr len).Good := by
  unfold State.hostReadFill
  repeat' (with_reducible first | assumption | apply good_State_useXlate | apply good_State_fillLine | apply good_ite | apply good_foldl | intro _ | (extract_lets +onlyGivenNames x; first | (apply good_cut (s := x); rotate_left; clear_value x; rotate_left; subst x) | (have hf := is_fun x; clear hf; subst x) | clear_value x | subst x) | split)

theorem good_State_locWrite (s : State) (f : ℕ) (slice : Bool) (addr : ℕ) (bs : List Byte) (h_s : s.Good) :
    (State.locWrite s f slice addr bs).Good := by
  unfold State.locWrite
  repeat' (with_reducible first | assumption | apply good_State_sliceWrite | apply good_State_hostWrite | apply good_ite | intro _ | split)

theorem good_State_sliceUse (s : State) (f : ℕ) (off : ℕ) (len : ℕ) (h_s : s.Good) :
    (State.sliceUse s f off len).Good := by
  unfold State.sliceUse
  repeat' (with_reducible first | assumption | apply good_State_recall | apply good_foldl | intro _)

theorem good_State_locUse (s : State) (f : ℕ) (slice : Bool) (addr : ℕ) (len : ℕ) (h_s : s.Good) :
    (State.locUse s f slice addr len).Good := by
  unfold State.locUse
  repeat' (with_reducible first | assumption | apply good_State_sliceUse | apply good_State_hostReadFill | apply good_ite | intro _ | split)

theorem good_State_msix (s : State) (f : ℕ) (v : ℕ) (h_s : s.Good) :
    (State.msix s f v).Good := by
  unfold State.msix
  repeat' (with_reducible first | assumption | apply good_State_emit | apply good_State_modFn | apply good_ite | ((first | apply good_bytes | apply good_mk); first | assumption | apply good_State_emit | apply good_State_modFn | apply good_ite) | intro _ | split)

theorem good_State_ringEvent (s : State) (f : ℕ) (k : ℕ) (h_s : s.Good) :
    (State.ringEvent s f k).Good := by
  unfold State.ringEvent
  repeat' (with_reducible first | assumption | apply good_State_modFn | apply good_State_msix | apply good_ite | ((first | apply good_bytes | apply good_mk); first | assumption | apply good_State_modFn | apply good_State_msix | apply good_ite) | intro _ | (extract_lets +onlyGivenNames x; first | (apply good_cut (s := x); rotate_left; clear_value x; rotate_left; subst x) | (have hf := is_fun x; clear hf; subst x) | clear_value x | subst x) | split)

theorem good_State_modDom (s : State) (n : ℕ) (g : RegPow → RegPow) (h_s : s.Good) :
    (State.modDom s n g).Good := by
  unfold State.modDom
  repeat' (with_reducible first | assumption | ((first | apply good_bytes | apply good_mk); first | assumption))

theorem good_State_report (s : State) (block : ℕ) (cell : ℕ) (code : ℕ) (info : ℕ) (h_s : s.Good) :
    (State.report s block cell code info).Good := by
  unfold State.report
  repeat' (with_reducible first | assumption | ((first | apply good_bytes | apply good_mk); first | assumption))

end Sys2Proof.Machine
end

