-- ==== Sys2Proof/Laws/GoodWake.lean ====
section
/-!
SUPPORT. GoodWake.lean: every operation and meaning of Wake.lean keeps the canonical form of memory.
-/

namespace Sys2Proof.Machine

set_option linter.all false

theorem good_State_wakeStart (s : State) (n : ℕ) (h_s : s.Good) :
    (State.wakeStart s n).Good := by
  unfold State.wakeStart
  repeat' (with_reducible first | assumption | apply good_State_modDom | apply good_ite | ((first | apply good_bytes | apply good_mk); first | assumption | apply good_State_modDom | apply good_ite) | intro _ | split)

theorem good_State_regionWake (s : State) (n : ℕ) (h_s : s.Good) :
    (State.regionWake s n).Good := by
  unfold State.regionWake
  repeat' (with_reducible first | assumption | apply good_State_wakeStart | apply good_ite | intro _ | (extract_lets +onlyGivenNames x; first | (apply good_cut (s := x); rotate_left; clear_value x; rotate_left; subst x) | clear_value x | subst x) | split)

theorem good_State_wakeBlocks (s : State) (blks : ℕ) (h_s : s.Good) :
    (State.wakeBlocks s blks).Good := by
  unfold State.wakeBlocks
  repeat' (with_reducible first | assumption | apply good_State_regionWake | apply good_ite | apply good_foldl | intro _ | split)

theorem good_State_bellWake (s : State) (f : ℕ) (h_s : s.Good) :
    (State.bellWake s f).Good := by
  unfold State.bellWake
  repeat' (with_reducible first | assumption | apply good_State_regionWake | apply good_State_wakeBlocks | apply good_ite | intro _ | split)

end Sys2Proof.Machine
end

