-- ==== Sys2Proof/Laws/GoodJournal.lean ====
section
/-!
SUPPORT. GoodJournal.lean: every operation and meaning of Journal.lean keeps the canonical form of memory.
-/

namespace Sys2Proof.Machine

set_option linter.all false

theorem good_State_jrnlSignal (s : State) (h_s : s.Good) :
    (State.jrnlSignal s).Good := by
  unfold State.jrnlSignal
  repeat' (with_reducible first | assumption | apply good_State_msix | apply good_ite | ((first | apply good_bytes | apply good_mk); first | assumption | apply good_State_msix | apply good_ite) | intro _ | split)

theorem good_State_jCommit (s : State) (o : Origin) (b : JBody) (h_s : s.Good) :
    (State.jCommit s o b).Good := by
  unfold State.jCommit
  repeat' (with_reducible first | assumption | apply good_State_jrnlSignal | ((first | apply good_bytes | apply good_mk); first | assumption | apply good_State_jrnlSignal))

theorem good_State_jMust (s : State) (o : Origin) (b : JBody) (final : optParam Bool false) (h_s : s.Good) :
    (State.jMust s o b final).Good := by
  unfold State.jMust
  repeat' (with_reducible first | assumption | apply good_State_jrnlSignal | apply good_ite | ((first | apply good_bytes | apply good_mk); first | assumption | apply good_State_jrnlSignal | apply good_ite) | intro _ | (extract_lets +onlyGivenNames x; first | (apply good_cut (s := x); rotate_left; clear_value x; rotate_left; subst x) | clear_value x | subst x) | split)

theorem good_State_jDrain (s : State) (h_s : s.Good) :
    (State.jDrain s).Good := by
  unfold State.jDrain
  repeat' (with_reducible first | assumption | apply good_State_jrnlSignal | apply good_ite | apply good_foldl | ((first | apply good_bytes | apply good_mk); first | assumption | apply good_State_jrnlSignal | apply good_ite | apply good_foldl) | intro _ | (extract_lets +onlyGivenNames x; first | (apply good_cut (s := x); rotate_left; clear_value x; rotate_left; subst x) | (have hf := is_fun x; clear hf; subst x) | clear_value x | subst x) | split)

theorem good_State_gatherCommit (s : State) (g : StateRec) (h_s : s.Good) :
    (State.gatherCommit s g).Good := by
  unfold State.gatherCommit
  repeat' (with_reducible first | assumption | apply good_State_jrnlSignal | ((first | apply good_bytes | apply good_mk); first | assumption | apply good_State_jrnlSignal) | intro _ | (extract_lets +onlyGivenNames x; first | (apply good_cut (s := x); rotate_left; clear_value x; rotate_left; subst x) | (have hf := is_fun x; clear hf; subst x) | clear_value x | subst x))

theorem good_State_gatherState (s : State) (f : ℕ) (ring : ℕ) (opcode : ℕ) (tag : BitVec 32) (h_s : s.Good) :
    (State.gatherState s f ring opcode tag).Good := by
  unfold State.gatherState
  repeat' (with_reducible first | assumption | apply good_State_gatherCommit | apply good_ite | ((first | apply good_bytes | apply good_mk); first | assumption | apply good_State_gatherCommit | apply good_ite) | intro _ | (extract_lets +onlyGivenNames x; first | (apply good_cut (s := x); rotate_left; clear_value x; rotate_left; subst x) | (have hf := is_fun x; clear hf; subst x) | clear_value x | subst x) | split)

end Sys2Proof.Machine
end

