-- ==== Sys2Proof/Laws/GoodComplete.lean ====
section
/-!
SUPPORT. GoodComplete.lean: every operation and meaning of Complete.lean keeps the canonical form of memory.
-/

namespace Sys2Proof.Machine

set_option linter.all false

theorem good_State_modRing (s : State) (f : ℕ) (k : ℕ) (g : Ring → Ring) (h_s : s.Good) :
    (State.modRing s f k g).Good := by
  unfold State.modRing
  repeat' (with_reducible first | assumption | apply good_State_modFn | ((first | apply good_bytes | apply good_mk); first | assumption | apply good_State_modFn) | intro _)

theorem good_State_fireEvent (s : State) (f : ℕ) (k : ℕ) (h_s : s.Good) :
    (State.fireEvent s f k).Good := by
  unfold State.fireEvent
  repeat' (with_reducible first | assumption | apply good_State_ringEvent | apply good_State_modRing | ((first | apply good_bytes | apply good_mk); first | assumption | apply good_State_ringEvent | apply good_State_modRing) | intro _)

theorem good_State_countEvent (s : State) (f : ℕ) (k : ℕ) (h_s : s.Good) :
    (State.countEvent s f k).Good := by
  unfold State.countEvent
  repeat' (with_reducible first | assumption | apply good_State_modRing | apply good_State_fireEvent | apply good_ite | ((first | apply good_bytes | apply good_mk); first | assumption | apply good_State_modRing | apply good_State_fireEvent | apply good_ite) | intro _ | (extract_lets +onlyGivenNames x; first | (apply good_cut (s := x); rotate_left; clear_value x; rotate_left; subst x) | (have hf := is_fun x; clear hf; subst x) | clear_value x | subst x) | split)

theorem good_State_putCompl (s : State) (f : ℕ) (k : ℕ) (c : Compl) (h_s : s.Good) :
    (State.putCompl s f k c).Good := by
  unfold State.putCompl
  repeat' (with_reducible first | assumption | apply good_State_hostWrite | apply good_State_modRing | apply good_State_countEvent | apply good_ite | ((first | apply good_bytes | apply good_mk); first | assumption | apply good_State_hostWrite | apply good_State_modRing | apply good_State_countEvent | apply good_ite) | intro _ | (extract_lets +onlyGivenNames x; first | (apply good_cut (s := x); rotate_left; clear_value x; rotate_left; subst x) | (have hf := is_fun x; clear hf; subst x) | (have hf := is_cells x; clear hf; subst x) | clear_value x | subst x) | split)

theorem good_State_complete (s : State) (f : ℕ) (k : ℕ) (c : Compl) (h_s : s.Good) :
    (State.complete s f k c).Good := by
  unfold State.complete
  repeat' (with_reducible first | assumption | apply good_State_modFn | apply good_State_putCompl | apply good_State_modRing | apply good_State_askXlate | apply good_ite | ((first | apply good_bytes | apply good_mk); first | assumption | apply good_State_modFn | apply good_State_putCompl | apply good_State_modRing | apply good_State_askXlate | apply good_ite) | intro _ | (extract_lets +onlyGivenNames x; first | (apply good_cut (s := x); rotate_left; clear_value x; rotate_left; subst x) | (have hf := is_fun x; clear hf; subst x) | clear_value x | subst x) | split)

theorem good_State_fire (s : State) (f : ℕ) (l : List Armed) (h_s : s.Good) :
    (State.fire s f l).Good := by
  unfold State.fire
  repeat' (with_reducible first | assumption | apply good_State_modFn | ((first | apply good_bytes | apply good_mk); first | assumption | apply good_State_modFn) | intro _)

theorem good_State_tallyPut (s : State) (f : ℕ) (i : ℕ) (count : ℕ) (h_s : s.Good) :
    (State.tallyPut s f i count).Good := by
  unfold State.tallyPut
  repeat' (with_reducible first | assumption | apply good_State_modFn | apply good_State_fire | apply good_ite | ((first | apply good_bytes | apply good_mk); first | assumption | apply good_State_modFn | apply good_State_fire | apply good_ite) | intro _ | (extract_lets +onlyGivenNames x; first | (apply good_cut (s := x); rotate_left; clear_value x; rotate_left; subst x) | (have hf := is_fun x; clear hf; subst x) | clear_value x | subst x) | split)

theorem good_State_tallyAdd (s : State) (f : ℕ) (i : ℕ) (v : ℕ) (h_s : s.Good) :
    (State.tallyAdd s f i v).Good := by
  unfold State.tallyAdd
  repeat' (with_reducible first | assumption | apply good_State_tallyPut | intro _ | split)

theorem good_State_modOp (s : State) (f : ℕ) (id : ℕ) (g : Op → Op) (h_s : s.Good) :
    (State.modOp s f id g).Good := by
  unfold State.modOp
  repeat' (with_reducible first | assumption | apply good_State_modFn | apply good_ite | ((first | apply good_bytes | apply good_mk); first | assumption | apply good_State_modFn | apply good_ite) | intro _ | split)

theorem good_State_dropOp (s : State) (f : ℕ) (id : ℕ) (good : Bool) (h_s : s.Good) :
    (State.dropOp s f id good).Good := by
  unfold State.dropOp
  repeat' (with_reducible first | assumption | apply good_State_modFn | apply good_ite | ((first | apply good_bytes | apply good_mk); first | assumption | apply good_State_modFn | apply good_ite) | intro _ | split)

theorem good_State_endOp (s : State) (f : ℕ) (id : ℕ) (st : Status) (bytes : ℕ) (detail : ℕ) (h_s : s.Good) :
    (State.endOp s f id st bytes detail).Good := by
  unfold State.endOp
  repeat' (with_reducible first | assumption | apply good_State_dropOp | apply good_State_bump | apply good_State_gatherState | apply good_State_tallyAdd | apply good_State_modRing | apply good_State_complete | apply good_ite | ((first | apply good_bytes | apply good_mk); first | assumption | apply good_State_dropOp | apply good_State_bump | apply good_State_gatherState | apply good_State_tallyAdd | apply good_State_modRing | apply good_State_complete | apply good_ite) | intro _ | (extract_lets +onlyGivenNames x; first | (apply good_cut (s := x); rotate_left; clear_value x; rotate_left; subst x) | (have hf := is_fun x; clear hf; subst x) | (have hf := is_cells x; clear hf; subst x) | clear_value x | subst x) | split)

theorem good_State_endBusy (s : State) (f : ℕ) (id : ℕ) (h_s : s.Good) :
    (State.endBusy s f id).Good := by
  unfold State.endBusy
  repeat' (with_reducible first | assumption | apply good_State_bump | apply good_State_endOp)

theorem good_State_checked (s : State) (f : ℕ) (id : ℕ) (l : List Status) (k : State → State) (h_s : s.Good) (h_k : ∀ t : State, t.Good → (k t).Good) :
    (State.checked s f id l k).Good := by
  unfold State.checked
  repeat' (with_reducible first | assumption | apply good_State_endBusy | apply good_State_endOp | apply h_k | intro _ | split)

theorem good_State_parkOp (s : State) (f : ℕ) (id : ℕ) (page : ℕ) (wr : Bool) (h_s : s.Good) :
    (State.parkOp s f id page wr).Good := by
  unfold State.parkOp
  repeat' (with_reducible first | assumption | apply good_State_askXlate | apply good_State_modOp | ((first | apply good_bytes | apply good_mk); first | assumption | apply good_State_askXlate | apply good_State_modOp) | intro _)

theorem good_State_withHost (s : State) (f : ℕ) (id : ℕ) (l : List (ℕ × ℕ × Bool)) (k : State → State) (h_s : s.Good) (h_k : ∀ t : State, t.Good → (k t).Good) :
    (State.withHost s f id l k).Good := by
  unfold State.withHost
  repeat' (with_reducible first | assumption | apply good_State_parkOp | apply h_k | intro _ | split)

theorem good_State_readHostFor (s : State) (f : ℕ) (id : ℕ) (addr : ℕ) (len : ℕ) (k : List Byte → State → State) (h_s : s.Good) (h_k : ∀ x0 (t : State), t.Good → (k x0 t).Good) :
    (State.readHostFor s f id addr len k).Good := by
  unfold State.readHostFor
  repeat' (with_reducible first | assumption | apply good_State_withHost | apply good_State_endOp | apply good_State_hostReadFill | apply h_k | intro _ | split)

theorem good_State_writeRecord (s : State) (f : ℕ) (id : ℕ) (addr : ℕ) (bs : List Byte) (detail : ℕ) (h_s : s.Good) :
    (State.writeRecord s f id addr bs detail).Good := by
  unfold State.writeRecord
  repeat' (with_reducible first | assumption | apply good_State_withHost | apply good_State_endOp | apply good_State_hostWrite | apply good_write | apply good_touchWrite | intro _)

theorem good_State_taken (s : State) (e : Entry) (h_s : s.Good) :
    (State.taken s e).Good := by
  unfold State.taken
  repeat' (with_reducible first | assumption | apply good_State_modRing | ((first | apply good_bytes | apply good_mk); first | assumption | apply good_State_modRing) | intro _)

theorem good_State_begun (s : State) (e : Entry) (opcode : ℕ) (cmd : Instr) (h_s : s.Good) :
    (State.begun s e opcode cmd).Good := by
  unfold State.begun
  repeat' (with_reducible first | assumption | apply good_State_modFn | apply good_State_taken | ((first | apply good_bytes | apply good_mk); first | assumption | apply good_State_modFn | apply good_State_taken) | intro _)

theorem good_State_startEntry (s : State) (e : Entry) (opcode : ℕ) (lens : ℕ → Bool) (cmd : Instr) (eff : ℕ → State → State) (raw : optParam Bool false) (norm : optParam Bool true) (h_s : s.Good) (h_eff : ∀ x0 (t : State), t.Good → (eff x0 t).Good) :
    (State.startEntry s e opcode lens cmd eff raw norm).Good := by
  unfold State.startEntry
  repeat' (with_reducible first | assumption | apply good_State_complete | apply good_State_taken | apply good_State_begun | apply h_eff | apply good_ite | ((first | apply good_bytes | apply good_mk); first | assumption | apply good_State_complete | apply good_State_taken | apply good_State_begun | apply h_eff | apply good_ite) | intro _ | (extract_lets +onlyGivenNames x; first | (apply good_cut (s := x); rotate_left; clear_value x; rotate_left; subst x) | clear_value x | subst x) | split)

theorem good_State_sqMemError (s : State) (f : ℕ) (k : ℕ) (st : Status) (slot : ℕ) (h_s : s.Good) :
    (State.sqMemError s f k st slot).Good := by
  unfold State.sqMemError
  repeat' (with_reducible first | assumption | apply good_State_complete | apply good_State_modRing | apply good_State_report | apply good_ite | ((first | apply good_bytes | apply good_mk); first | assumption | apply good_State_complete | apply good_State_modRing | apply good_State_report | apply good_ite) | intro _ | (extract_lets +onlyGivenNames x; first | (apply good_cut (s := x); rotate_left; clear_value x; rotate_left; subst x) | (have hf := is_fun x; clear hf; subst x) | clear_value x | subst x) | split)

theorem good_State_cqMemError (s : State) (f : ℕ) (k : ℕ) (st : Status) (h_s : s.Good) :
    (State.cqMemError s f k st).Good := by
  unfold State.cqMemError
  repeat' (with_reducible first | assumption | apply good_State_modRing | apply good_State_complete | apply good_State_report | apply good_State_ringEvent | apply good_State_modFn | apply good_ite | ((first | apply good_bytes | apply good_mk); first | assumption | apply good_State_modRing | apply good_State_complete | apply good_State_report | apply good_State_ringEvent | apply good_State_modFn | apply good_ite) | intro _ | (extract_lets +onlyGivenNames x; first | (apply good_cut (s := x); rotate_left; clear_value x; rotate_left; subst x) | (have hf := is_fun x; clear hf; subst x) | clear_value x | subst x) | split)

end Sys2Proof.Machine
end

