-- ==== Sys2Proof/Laws/GoodRings.lean ====
section
/-!
SUPPORT. GoodRings.lean: every operation and meaning of Rings.lean keeps the canonical form of memory.
-/

namespace Sys2Proof.Machine

set_option linter.all false

theorem good_State_onBar (s : State) (f : ℕ) (k : State → State) (h_s : s.Good) (h_k : ∀ t : State, t.Good → (k t).Good) :
    (State.onBar s f k).Good := by
  unfold State.onBar
  repeat' (with_reducible first | assumption | apply good_State_emit | apply h_k | apply good_ite | intro _ | split)

theorem good_State_setupWrite (s : State) (o : Origin) (off : ℕ) (width : ℕ) (ignored : Bool) (old : ℕ) (new : ℕ) (act : State → State) (h_s : s.Good) (h_act : ∀ t : State, t.Good → (act t).Good) :
    (State.setupWrite s o off width ignored old new act).Good := by
  unfold State.setupWrite
  repeat' (with_reducible first | assumption | apply good_State_jCommit | apply h_act | apply good_ite | ((first | apply good_bytes | apply good_mk); first | assumption | apply good_State_jCommit | apply h_act | apply good_ite) | intro _ | (extract_lets +onlyGivenNames x; first | (apply good_cut (s := x); rotate_left; clear_value x; rotate_left; subst x) | clear_value x | subst x) | split)

theorem good_State_admEnable (s : State) (f : ℕ) (h_s : s.Good) :
    (State.admEnable s f).Good := by
  unfold State.admEnable
  repeat' (with_reducible first | assumption | apply good_State_modFn | apply good_State_modPart | apply good_ite | ((first | apply good_bytes | apply good_mk); first | assumption | apply good_State_modFn | apply good_State_modPart | apply good_ite) | intro _ | (extract_lets +onlyGivenNames x; first | (apply good_cut (s := x); rotate_left; clear_value x; rotate_left; subst x) | (have hf := is_fun x; clear hf; subst x) | clear_value x | subst x) | split)

theorem good_State_admCfgWrite (s : State) (f : ℕ) (o : Origin) (width : ℕ) (v : ℕ) (h_s : s.Good) :
    (State.admCfgWrite s f o width v).Good := by
  unfold State.admCfgWrite
  repeat' (with_reducible first | assumption | apply good_State_setupWrite | apply good_State_modFn | apply good_State_admEnable | apply good_State_modRing | apply good_ite | ((first | apply good_bytes | apply good_mk); first | assumption | apply good_State_setupWrite | apply good_State_modFn | apply good_State_admEnable | apply good_State_modRing | apply good_ite) | intro _ | (extract_lets +onlyGivenNames x; first | (apply good_cut (s := x); rotate_left; clear_value x; rotate_left; subst x) | (have hf := is_fun x; clear hf; subst x) | clear_value x | subst x) | split)

theorem good_execAdminRingEnable (fn : Fn) (o : Origin) (value : ℕ) (s : State) (h_s : s.Good) :
    OkOut (execAdminRingEnable fn o value s) := by
  unfold execAdminRingEnable
  repeat' (with_reducible first | assumption | apply good_State_onBar | apply good_State_admCfgWrite | apply okOut_next | intro _)

theorem good_execAdminRingResume (fn : Fn) (o : Origin) (s : State) (h_s : s.Good) :
    OkOut (execAdminRingResume fn o s) := by
  unfold execAdminRingResume
  repeat' (with_reducible first | assumption | apply good_State_onBar | apply good_State_admCfgWrite | apply okOut_next | intro _)

theorem good_effNop (f : ℕ) (id : ℕ) (s : State) (h_s : s.Good) :
    (effNop f id s).Good := by
  unfold effNop
  repeat' (with_reducible first | assumption | apply good_State_endOp)

theorem good_execNop (e : Entry) (s : State) (h_s : s.Good) :
    OkOut (execNop e s) := by
  unfold execNop
  repeat' (with_reducible first | assumption | apply good_State_startEntry | apply good_effNop | apply okOut_next | ((first | apply good_bytes | apply good_mk); first | assumption | apply good_State_startEntry | apply good_effNop | apply okOut_next) | intro _)

theorem good_effFence (ring : ℕ) (inst : Bool) (f : ℕ) (id : ℕ) (s : State) (h_s : s.Good) :
    (effFence ring inst f id s).Good := by
  unfold effFence
  repeat' (with_reducible first | assumption | apply good_State_modRing | apply good_State_modOp | apply good_ite | apply good_foldl | ((first | apply good_bytes | apply good_mk); first | assumption | apply good_State_modRing | apply good_State_modOp | apply good_ite | apply good_foldl) | intro _ | (extract_lets +onlyGivenNames x; first | (apply good_cut (s := x); rotate_left; clear_value x; rotate_left; subst x) | (have hf := is_fun x; clear hf; subst x) | clear_value x | subst x) | split)

theorem good_execFence (e : Entry) (hostVis : Bool) (remoteVis : Bool) (inst : Bool) (s : State) (h_s : s.Good) :
    OkOut (execFence e hostVis remoteVis inst s) := by
  unfold execFence
  repeat' (with_reducible first | assumption | apply good_State_startEntry | apply good_effFence | apply okOut_next)

theorem good_State_fenceRelease (s : State) (f : ℕ) (k : ℕ) (h_s : s.Good) :
    (State.fenceRelease s f k).Good := by
  unfold State.fenceRelease
  repeat' (with_reducible first | assumption | apply good_State_endOp | apply good_State_modRing | apply good_ite | ((first | apply good_bytes | apply good_mk); first | assumption | apply good_State_endOp | apply good_State_modRing | apply good_ite) | intro _ | split)

theorem good_execFenceRelease (fn : Fn) (ring : ℕ) (s : State) (h_s : s.Good) :
    OkOut (execFenceRelease fn ring s) := by
  unfold execFenceRelease
  repeat' (with_reducible first | assumption | apply good_State_fenceRelease | apply okOut_next)

theorem good_effRingInval (own : ℕ) (ring : ℕ) (first : ℕ) (count : ℕ) (f : ℕ) (id : ℕ) (s : State) (h_s : s.Good) :
    (effRingInval own ring first count f id s).Good := by
  unfold effRingInval
  repeat' (with_reducible first | assumption | apply good_State_checked | apply good_State_endOp | apply good_State_modRing | ((first | apply good_bytes | apply good_mk); first | assumption | apply good_State_checked | apply good_State_endOp | apply good_State_modRing) | intro _ | (extract_lets +onlyGivenNames x; first | (apply good_cut (s := x); rotate_left; clear_value x; rotate_left; subst x) | (have hf := is_fun x; clear hf; subst x) | clear_value x | subst x))

theorem good_execRingInval (e : Entry) (ring : ℕ) (first : ℕ) (count : ℕ) (s : State) (h_s : s.Good) :
    OkOut (execRingInval e ring first count s) := by
  unfold execRingInval
  repeat' (with_reducible first | assumption | apply good_State_startEntry | apply good_effRingInval | apply okOut_next)

theorem good_effRingCreate (e : Entry) (ring : ℕ) (sqLog : ℕ) (cqLog : ℕ) (cls : ℕ) (sqBase : ℕ) (cqBase : ℕ) (f : ℕ) (id : ℕ) (s : State) (h_s : s.Good) :
    (effRingCreate e ring sqLog cqLog cls sqBase cqBase f id s).Good := by
  unfold effRingCreate
  repeat' (with_reducible first | assumption | apply good_State_checked | apply good_State_endOp | apply good_State_modFn | ((first | apply good_bytes | apply good_mk); first | assumption | apply good_State_checked | apply good_State_endOp | apply good_State_modFn) | intro _ | (extract_lets +onlyGivenNames x; first | (apply good_cut (s := x); rotate_left; clear_value x; rotate_left; subst x) | (have hf := is_fun x; clear hf; subst x) | clear_value x | subst x))

theorem good_execRingCreate (e : Entry) (ring : ℕ) (sqLog : ℕ) (cqLog : ℕ) (cls : ℕ) (sqBase : ℕ) (cqBase : ℕ) (s : State) (h_s : s.Good) :
    OkOut (execRingCreate e ring sqLog cqLog cls sqBase cqBase s) := by
  unfold execRingCreate
  repeat' (with_reducible first | assumption | apply good_State_startEntry | apply good_effRingCreate | apply okOut_next)

theorem good_State_flushEnd (s : State) (f : ℕ) (k : ℕ) (h_s : s.Good) :
    (State.flushEnd s f k).Good := by
  unfold State.flushEnd
  repeat' (with_reducible first | assumption | apply good_State_modRing | apply good_State_endOp | apply good_foldl | ((first | apply good_bytes | apply good_mk); first | assumption | apply good_State_modRing | apply good_State_endOp | apply good_foldl) | intro _ | (extract_lets +onlyGivenNames x; first | (apply good_cut (s := x); rotate_left; clear_value x; rotate_left; subst x) | (have hf := is_fun x; clear hf; subst x) | clear_value x | subst x) | split)

theorem good_effRingDestroy (e : Entry) (ring : ℕ) (f : ℕ) (id : ℕ) (s : State) (h_s : s.Good) :
    (effRingDestroy e ring f id s).Good := by
  unfold effRingDestroy
  repeat' (with_reducible first | assumption | apply good_State_checked | apply good_State_modRing | apply good_State_flushEnd | ((first | apply good_bytes | apply good_mk); first | assumption | apply good_State_checked | apply good_State_modRing | apply good_State_flushEnd) | intro _)

theorem good_execRingDestroy (e : Entry) (ring : ℕ) (s : State) (h_s : s.Good) :
    OkOut (execRingDestroy e ring s) := by
  unfold execRingDestroy
  repeat' (with_reducible first | assumption | apply good_State_startEntry | apply good_effRingDestroy | apply okOut_next)

theorem good_State_ringDrained (s : State) (f : ℕ) (k : ℕ) (h_s : s.Good) :
    (State.ringDrained s f k).Good := by
  unfold State.ringDrained
  repeat' (with_reducible first | assumption | apply good_State_modFn | apply good_State_endOp | apply good_ite | ((first | apply good_bytes | apply good_mk); first | assumption | apply good_State_modFn | apply good_State_endOp | apply good_ite) | intro _ | (extract_lets +onlyGivenNames x; first | (apply good_cut (s := x); rotate_left; clear_value x; rotate_left; subst x) | (have hf := is_fun x; clear hf; subst x) | clear_value x | subst x) | split)

theorem good_execRingDrained (fn : Fn) (ring : ℕ) (s : State) (h_s : s.Good) :
    OkOut (execRingDrained fn ring s) := by
  unfold execRingDrained
  repeat' (with_reducible first | assumption | apply good_State_ringDrained | apply okOut_next)

theorem good_effRingPause (e : Entry) (ring : ℕ) (f : ℕ) (id : ℕ) (s : State) (h_s : s.Good) :
    (effRingPause e ring f id s).Good := by
  unfold effRingPause
  repeat' (with_reducible first | assumption | apply good_State_checked | apply good_State_modRing | apply good_State_endOp | ((first | apply good_bytes | apply good_mk); first | assumption | apply good_State_checked | apply good_State_modRing | apply good_State_endOp) | intro _ | (extract_lets +onlyGivenNames x; first | (apply good_cut (s := x); rotate_left; clear_value x; rotate_left; subst x) | (have hf := is_fun x; clear hf; subst x) | clear_value x | subst x))

theorem good_execRingPause (e : Entry) (ring : ℕ) (s : State) (h_s : s.Good) :
    OkOut (execRingPause e ring s) := by
  unfold execRingPause
  repeat' (with_reducible first | assumption | apply good_State_startEntry | apply good_effRingPause | apply okOut_next)

theorem good_effRingResume (e : Entry) (ring : ℕ) (f : ℕ) (id : ℕ) (s : State) (h_s : s.Good) :
    (effRingResume e ring f id s).Good := by
  unfold effRingResume
  repeat' (with_reducible first | assumption | apply good_State_checked | apply good_State_endOp | apply good_State_modRing | apply good_ite | ((first | apply good_bytes | apply good_mk); first | assumption | apply good_State_checked | apply good_State_endOp | apply good_State_modRing | apply good_ite) | intro _ | split)

theorem good_execRingResume (e : Entry) (ring : ℕ) (s : State) (h_s : s.Good) :
    OkOut (execRingResume e ring s) := by
  unfold execRingResume
  repeat' (with_reducible first | assumption | apply good_State_startEntry | apply good_effRingResume | apply okOut_next)

theorem good_State_flushEntry (s : State) (f : ℕ) (k : ℕ) (h : ℕ) (h_s : s.Good) :
    (State.flushEntry s f k h).Good := by
  unfold State.flushEntry
  repeat' (with_reducible first | assumption | apply good_State_modRing | apply good_State_complete | ((first | apply good_bytes | apply good_mk); first | assumption | apply good_State_modRing | apply good_State_complete) | intro _ | (extract_lets +onlyGivenNames x; first | (apply good_cut (s := x); rotate_left; clear_value x; rotate_left; subst x) | (have hf := is_fun x; clear hf; subst x) | clear_value x | subst x))

theorem good_State_flushOne (f : ℕ) (k : ℕ) (s : State) (x_u : Unit) (h_s : s.Good) :
    OkL (State.flushOne f k s x_u) := by
  unfold State.flushOne
  repeat' (with_reducible first | assumption | apply good_State_askXlate | apply good_State_modRing | apply good_State_sqMemError | apply good_State_flushEnd | apply good_State_flushEntry | apply good_ite | apply okL_ite | refine okL_eq (by assumption) ?_ | exact okL_of (by assumption) | apply okL_fst | ((first | apply good_bytes | apply good_mk); first | assumption | apply good_State_askXlate | apply good_State_modRing | apply good_State_sqMemError | apply good_State_flushEnd | apply good_State_flushEntry | apply good_ite | apply okL_ite | refine okL_eq (by assumption) ?_ | exact okL_of (by assumption) | apply okL_fst) | intro _ | (extract_lets +onlyGivenNames x; first | (apply good_cut (s := x); rotate_left; clear_value x; rotate_left; subst x) | (apply okL_cut (p := x); rotate_left; clear_value x; rotate_left; subst x) | (have hf := is_fun x; clear hf; subst x) | clear_value x | subst x) | split | apply okL_mk)

theorem good_flushGo (fuel : ℕ) (s : State) (f : ℕ) (k : ℕ) (h_s : s.Good) :
    (flushGo fuel s f k).Good := by
  unfold flushGo
  repeat' (with_reducible first | assumption | apply good_loop | apply good_State_flushOne | apply okL_fst | apply okL_mk)

theorem good_State_flushMore (s : State) (f : ℕ) (k : ℕ) (h_s : s.Good) :
    (State.flushMore s f k).Good := by
  unfold State.flushMore
  repeat' (with_reducible first | assumption | apply good_flushGo | apply good_ite | intro _ | split)

theorem good_effRingFlush (e : Entry) (ring : ℕ) (f : ℕ) (id : ℕ) (s : State) (h_s : s.Good) :
    (effRingFlush e ring f id s).Good := by
  unfold effRingFlush
  repeat' (with_reducible first | assumption | apply good_State_checked | apply good_State_modRing | apply good_flushGo | apply good_ite | ((first | apply good_bytes | apply good_mk); first | assumption | apply good_State_checked | apply good_State_modRing | apply good_flushGo | apply good_ite) | intro _ | split)

theorem good_execRingFlush (e : Entry) (ring : ℕ) (s : State) (h_s : s.Good) :
    OkOut (execRingFlush e ring s) := by
  unfold execRingFlush
  repeat' (with_reducible first | assumption | apply good_State_startEntry | apply good_effRingFlush | apply okOut_next)

theorem good_effDbgCfg (e : Entry) (group : ℕ) (vector : ℕ) (f : ℕ) (id : ℕ) (s : State) (h_s : s.Good) :
    (effDbgCfg e group vector f id s).Good := by
  unfold effDbgCfg
  repeat' (with_reducible first | assumption | apply good_State_checked | apply good_State_endOp | apply good_State_modFn | apply good_ite | ((first | apply good_bytes | apply good_mk); first | assumption | apply good_State_checked | apply good_State_endOp | apply good_State_modFn | apply good_ite) | intro _ | split)

theorem good_execDbgCfg (e : Entry) (group : ℕ) (vector : ℕ) (s : State) (h_s : s.Good) :
    OkOut (execDbgCfg e group vector s) := by
  unfold execDbgCfg
  repeat' (with_reducible first | assumption | apply good_State_startEntry | apply good_effDbgCfg | apply okOut_next)

theorem good_effCqModerate (e : Entry) (ring : ℕ) (count : ℕ) (time : ℕ) (f : ℕ) (id : ℕ) (s : State) (h_s : s.Good) :
    (effCqModerate e ring count time f id s).Good := by
  unfold effCqModerate
  repeat' (with_reducible first | assumption | apply good_State_checked | apply good_State_modRing | apply good_State_fireEvent | apply good_State_endOp | apply good_ite | ((first | apply good_bytes | apply good_mk); first | assumption | apply good_State_checked | apply good_State_modRing | apply good_State_fireEvent | apply good_State_endOp | apply good_ite) | intro _ | (extract_lets +onlyGivenNames x; first | (apply good_cut (s := x); rotate_left; clear_value x; rotate_left; subst x) | (have hf := is_fun x; clear hf; subst x) | clear_value x | subst x) | split)

theorem good_execCqModerate (e : Entry) (ring : ℕ) (count : ℕ) (time : ℕ) (s : State) (h_s : s.Good) :
    OkOut (execCqModerate e ring count time s) := by
  unfold execCqModerate
  repeat' (with_reducible first | assumption | apply good_State_startEntry | apply good_effCqModerate | apply okOut_next)

theorem good_State_cacheSlots (s : State) (f : ℕ) (k : ℕ) (pos : ℕ) (n : ℕ) (h_s : s.Good) :
    (State.cacheSlots s f k pos n).Good := by
  unfold State.cacheSlots
  repeat' (with_reducible first | assumption | apply good_State_bump | apply good_State_modRing | apply good_ite | apply good_foldl | ((first | apply good_bytes | apply good_mk); first | assumption | apply good_State_bump | apply good_State_modRing | apply good_ite | apply good_foldl) | intro _ | (extract_lets +onlyGivenNames x; first | (apply good_cut (s := x); rotate_left; clear_value x; rotate_left; subst x) | (have hf := is_fun x; clear hf; subst x) | clear_value x | subst x) | split)

theorem good_State_cacheOne (f : ℕ) (k : ℕ) (s : State) (a : ℕ × Bool × ℕ) (h_s : s.Good) :
    OkL (State.cacheOne f k s a) := by
  unfold State.cacheOne
  repeat' (with_reducible first | assumption | apply good_State_cacheSlots | apply good_ite | apply okL_ite | refine okL_eq (by assumption) ?_ | exact okL_of (by assumption) | apply okL_fst | intro _ | (extract_lets +onlyGivenNames x; first | (apply good_cut (s := x); rotate_left; clear_value x; rotate_left; subst x) | (apply okL_cut (p := x); rotate_left; clear_value x; rotate_left; subst x) | clear_value x | subst x) | split | apply okL_mk)

theorem good_cacheGo (fuel : ℕ) (s : State) (f : ℕ) (k : ℕ) (pos : ℕ) (phase : Bool) (left : ℕ) (h_s : s.Good) :
    (cacheGo fuel s f k pos phase left).Good := by
  unfold cacheGo
  repeat' (with_reducible first | assumption | apply good_loop | apply good_State_cacheOne | apply okL_fst | apply okL_mk)

theorem good_State_scanRing (s : State) (f : ℕ) (k : ℕ) (tail : ℕ) (h_s : s.Good) :
    (State.scanRing s f k tail).Good := by
  unfold State.scanRing
  repeat' (with_reducible first | assumption | apply good_State_modRing | apply good_State_modFn | apply good_cacheGo | apply good_ite | ((first | apply good_bytes | apply good_mk); first | assumption | apply good_State_modRing | apply good_State_modFn | apply good_cacheGo | apply good_ite) | intro _ | (extract_lets +onlyGivenNames x; first | (apply good_cut (s := x); rotate_left; clear_value x; rotate_left; subst x) | (have hf := is_fun x; clear hf; subst x) | clear_value x | subst x) | split)

theorem good_State_bellTaken (s : State) (f : ℕ) (k : ℕ) (t : ℕ) (h_s : s.Good) :
    (State.bellTaken s f k t).Good := by
  unfold State.bellTaken
  repeat' (with_reducible first | assumption | apply good_State_modRing | apply good_State_modFn | apply good_State_scanRing | apply good_ite | ((first | apply good_bytes | apply good_mk); first | assumption | apply good_State_modRing | apply good_State_modFn | apply good_State_scanRing | apply good_ite) | intro _ | split)

theorem good_State_doorbell (s : State) (f : ℕ) (k : ℕ) (tail : Option ℕ) (h_s : s.Good) :
    (State.doorbell s f k tail).Good := by
  unfold State.doorbell
  repeat' (with_reducible first | assumption | apply good_State_modFn | apply good_State_bellTaken | apply good_State_bellWake | apply good_ite | apply good_foldl | apply good_write | apply good_touchWrite | ((first | apply good_bytes | apply good_mk); first | assumption | apply good_State_modFn | apply good_State_bellTaken | apply good_State_bellWake | apply good_ite | apply good_foldl | apply good_write | apply good_touchWrite) | intro _ | (extract_lets +onlyGivenNames x; first | (apply good_cut (s := x); rotate_left; clear_value x; rotate_left; subst x) | (have hf := is_fun x; clear hf; subst x) | (have hf := is_mem x; clear hf; subst x) | (have hf := is_cells x; clear hf; subst x) | clear_value x | subst x) | split)

theorem good_execRingSqdb (fn : Fn) (ring : ℕ) (tail : ℕ) (s : State) (h_s : s.Good) :
    OkOut (execRingSqdb fn ring tail s) := by
  unfold execRingSqdb
  repeat' (with_reducible first | assumption | apply good_State_onBar | apply good_State_doorbell | apply okOut_next | intro _)

theorem good_State_cqRelease (s : State) (f : ℕ) (k : ℕ) (head : ℕ) (h_s : s.Good) :
    (State.cqRelease s f k head).Good := by
  unfold State.cqRelease
  repeat' (with_reducible first | assumption | apply good_State_modRing | ((first | apply good_bytes | apply good_mk); first | assumption | apply good_State_modRing) | intro _)

theorem good_State_onCq (s : State) (f : ℕ) (k : ℕ) (g : State → State) (h_s : s.Good) (h_g : ∀ t : State, t.Good → (g t).Good) :
    (State.onCq s f k g).Good := by
  unfold State.onCq
  repeat' (with_reducible first | assumption | apply good_State_modFn | apply h_g | apply good_ite | ((first | apply good_bytes | apply good_mk); first | assumption | apply good_State_modFn | apply h_g | apply good_ite) | intro _ | split)

theorem good_execCqHeadRelease (fn : Fn) (ring : ℕ) (head : ℕ) (s : State) (h_s : s.Good) :
    OkOut (execCqHeadRelease fn ring head s) := by
  unfold execCqHeadRelease
  repeat' (with_reducible first | assumption | apply good_State_onBar | apply good_State_onCq | apply good_State_cqRelease | apply okOut_next | intro _)

theorem good_State_cqArm (s : State) (f : ℕ) (k : ℕ) (head : ℕ) (h_s : s.Good) :
    (State.cqArm s f k head).Good := by
  unfold State.cqArm
  repeat' (with_reducible first | assumption | apply good_State_cqRelease | apply good_State_modRing | apply good_State_fireEvent | apply good_ite | ((first | apply good_bytes | apply good_mk); first | assumption | apply good_State_cqRelease | apply good_State_modRing | apply good_State_fireEvent | apply good_ite) | intro _ | (extract_lets +onlyGivenNames x; first | (apply good_cut (s := x); rotate_left; clear_value x; rotate_left; subst x) | (have hf := is_fun x; clear hf; subst x) | clear_value x | subst x) | split)

theorem good_execCqEventArm (fn : Fn) (ring : ℕ) (head : ℕ) (s : State) (h_s : s.Good) :
    OkOut (execCqEventArm fn ring head s) := by
  unfold execCqEventArm
  repeat' (with_reducible first | assumption | apply good_State_onBar | apply good_State_onCq | apply good_State_cqArm | apply okOut_next | intro _)

theorem good_execDbgRingSet (fn : Fn) (group : ℕ) (bits : ℕ) (s : State) (h_s : s.Good) :
    OkOut (execDbgRingSet fn group bits s) := by
  unfold execDbgRingSet
  repeat' (with_reducible first | assumption | apply good_State_onBar | apply good_State_doorbell | apply good_foldl | apply okOut_next | intro _)

theorem good_State_dbgMask (s : State) (f : ℕ) (group : ℕ) (bits : ℕ) (h_s : s.Good) :
    (State.dbgMask s f group bits).Good := by
  unfold State.dbgMask
  repeat' (with_reducible first | assumption | apply good_State_modFn | apply good_State_scanRing | apply good_ite | apply good_foldl | ((first | apply good_bytes | apply good_mk); first | assumption | apply good_State_modFn | apply good_State_scanRing | apply good_ite | apply good_foldl) | intro _ | (extract_lets +onlyGivenNames x; first | (apply good_cut (s := x); rotate_left; clear_value x; rotate_left; subst x) | (have hf := is_fun x; clear hf; subst x) | clear_value x | subst x) | split)

theorem good_execDbgMaskWrite (fn : Fn) (group : ℕ) (bits : ℕ) (s : State) (h_s : s.Good) :
    OkOut (execDbgMaskWrite fn group bits s) := by
  unfold execDbgMaskWrite
  repeat' (with_reducible first | assumption | apply good_State_onBar | apply good_State_dbgMask | apply okOut_next | intro _)

theorem good_State_dbgWrite (s : State) (f : ℕ) (group : ℕ) (g : Dbg → Dbg) (h_s : s.Good) :
    (State.dbgWrite s f group g).Good := by
  unfold State.dbgWrite
  repeat' (with_reducible first | assumption | apply good_State_modFn | apply good_State_msix | apply good_ite | ((first | apply good_bytes | apply good_mk); first | assumption | apply good_State_modFn | apply good_State_msix | apply good_ite) | intro _ | (extract_lets +onlyGivenNames x; first | (apply good_cut (s := x); rotate_left; clear_value x; rotate_left; subst x) | (have hf := is_fun x; clear hf; subst x) | clear_value x | subst x) | split)

theorem good_State_dbgEvt (s : State) (f : ℕ) (group : ℕ) (bits : ℕ) (h_s : s.Good) :
    (State.dbgEvt s f group bits).Good := by
  unfold State.dbgEvt
  repeat' (with_reducible first | assumption | apply good_State_dbgWrite | ((first | apply good_bytes | apply good_mk); first | assumption | apply good_State_dbgWrite) | intro _)

theorem good_State_dbgEmask (s : State) (f : ℕ) (group : ℕ) (bits : ℕ) (h_s : s.Good) :
    (State.dbgEmask s f group bits).Good := by
  unfold State.dbgEmask
  repeat' (with_reducible first | assumption | apply good_State_dbgWrite | ((first | apply good_bytes | apply good_mk); first | assumption | apply good_State_dbgWrite) | intro _)

theorem good_execDbgEvtClear (fn : Fn) (group : ℕ) (bits : ℕ) (s : State) (h_s : s.Good) :
    OkOut (execDbgEvtClear fn group bits s) := by
  unfold execDbgEvtClear
  repeat' (with_reducible first | assumption | apply good_State_onBar | apply good_State_dbgEvt | apply okOut_next | intro _)

theorem good_execDbgEmaskWrite (fn : Fn) (group : ℕ) (bits : ℕ) (s : State) (h_s : s.Good) :
    OkOut (execDbgEmaskWrite fn group bits s) := by
  unfold execDbgEmaskWrite
  repeat' (with_reducible first | assumption | apply good_State_onBar | apply good_State_dbgEmask | apply okOut_next | intro _)

theorem good_State_writeOne (f : ℕ) (k : ℕ) (s : State) (x_u : Unit) (h_s : s.Good) :
    OkL (State.writeOne f k s x_u) := by
  unfold State.writeOne
  repeat' (with_reducible first | assumption | apply good_State_putCompl | apply good_State_modRing | apply good_State_askXlate | apply good_ite | apply okL_ite | refine okL_eq (by assumption) ?_ | exact okL_of (by assumption) | apply okL_fst | apply good_write | apply good_touchWrite | ((first | apply good_bytes | apply good_mk); first | assumption | apply good_State_putCompl | apply good_State_modRing | apply good_State_askXlate | apply good_ite | apply okL_ite | refine okL_eq (by assumption) ?_ | exact okL_of (by assumption) | apply okL_fst | apply good_write | apply good_touchWrite) | intro _ | split | apply okL_mk)

theorem good_writeWaiting (fuel : ℕ) (s : State) (f : ℕ) (k : ℕ) (h_s : s.Good) :
    (writeWaiting fuel s f k).Good := by
  unfold writeWaiting
  repeat' (with_reducible first | assumption | apply good_loop | apply good_State_writeOne | apply okL_fst | apply good_write | apply good_touchWrite | apply okL_mk)

theorem good_execPendingCompletionWrite (fn : Fn) (ring : ℕ) (s : State) (h_s : s.Good) :
    OkOut (execPendingCompletionWrite fn ring s) := by
  unfold execPendingCompletionWrite
  repeat' (with_reducible first | assumption | apply good_State_flushMore | apply good_writeWaiting | apply okOut_next)

theorem good_State_cqTimer (s : State) (f : ℕ) (k : ℕ) (h_s : s.Good) :
    (State.cqTimer s f k).Good := by
  unfold State.cqTimer
  repeat' (with_reducible first | assumption | apply good_State_fireEvent | apply good_ite | intro _ | (extract_lets +onlyGivenNames x; first | (apply good_cut (s := x); rotate_left; clear_value x; rotate_left; subst x) | clear_value x | subst x) | split)

theorem good_execCqEventTimer (fn : Fn) (ring : ℕ) (now : ℕ) (s : State) (h_s : s.Good) :
    OkOut (execCqEventTimer fn ring now s) := by
  unfold execCqEventTimer
  repeat' (with_reducible first | assumption | apply good_State_cqTimer | apply good_State_tick | apply okOut_next)

theorem good_execStateRecordCommit (now : ℕ) (s : State) (h_s : s.Good) :
    OkOut (execStateRecordCommit now s) := by
  unfold execStateRecordCommit
  repeat' (with_reducible first | assumption | apply good_State_tick | apply good_State_gatherCommit | apply good_foldl | apply okOut_next | intro _ | (extract_lets +onlyGivenNames x; first | (apply good_cut (s := x); rotate_left; clear_value x; rotate_left; subst x) | (have hf := is_fun x; clear hf; subst x) | clear_value x | subst x))

theorem good_State_regFence (s : State) (f : ℕ) (o : Origin) (token : ℕ) (hostVis : Bool) (remoteVis : Bool) (vector : ℕ) (irq : Bool) (h_s : s.Good) :
    (State.regFence s f o token hostVis remoteVis vector irq).Good := by
  unfold State.regFence
  repeat' (with_reducible first | assumption | apply good_State_setupWrite | apply good_State_modFn | ((first | apply good_bytes | apply good_mk); first | assumption | apply good_State_setupWrite | apply good_State_modFn) | intro _ | (extract_lets +onlyGivenNames x; first | (apply good_cut (s := x); rotate_left; clear_value x; rotate_left; subst x) | (have hf := is_fun x; clear hf; subst x) | clear_value x | subst x))

theorem good_execRegisterFence (fn : Fn) (o : Origin) (token : ℕ) (hostVis : Bool) (remoteVis : Bool) (vector : ℕ) (irq : Bool) (s : State) (h_s : s.Good) :
    OkOut (execRegisterFence fn o token hostVis remoteVis vector irq s) := by
  unfold execRegisterFence
  repeat' (with_reducible first | assumption | apply good_State_onBar | apply good_State_regFence | apply okOut_next | intro _)

theorem good_State_regFenceDone (s : State) (f : ℕ) (h_s : s.Good) :
    (State.regFenceDone s f).Good := by
  unfold State.regFenceDone
  repeat' (with_reducible first | assumption | apply good_State_modFn | apply good_State_msix | apply good_ite | ((first | apply good_bytes | apply good_mk); first | assumption | apply good_State_modFn | apply good_State_msix | apply good_ite) | intro _ | (extract_lets +onlyGivenNames x; first | (apply good_cut (s := x); rotate_left; clear_value x; rotate_left; subst x) | (have hf := is_fun x; clear hf; subst x) | clear_value x | subst x) | split)

theorem good_execRegisterFenceDone (fn : Fn) (s : State) (h_s : s.Good) :
    OkOut (execRegisterFenceDone fn s) := by
  unfold execRegisterFenceDone
  repeat' (with_reducible first | assumption | apply good_State_regFenceDone | apply okOut_next)

end Sys2Proof.Machine
end

