-- ==== Sys2Proof/Laws/GoodWire.lean ====
section
/-!
SUPPORT. GoodWire.lean: every operation and meaning of Wire.lean keeps the canonical form of memory.
-/

namespace Sys2Proof.Machine

set_option linter.all false

theorem good_State_sayShed (s : State) (q : ℕ) (k : ℕ) (type : ℕ) (seq : ℕ) (lanes : ℕ) (h_s : s.Good) :
    (State.sayShed s q k type seq lanes).Good := by
  unfold State.sayShed
  repeat' (with_reducible first | assumption | apply good_State_emit)

end Sys2Proof.Machine
end

