-- ==== Sys2Proof/Laws/GoodTransport.lean ====
section
/-!
SUPPORT. GoodTransport.lean: every operation and meaning of Transport.lean keeps the canonical form of memory.
-/

namespace Sys2Proof.Machine

set_option linter.all false

theorem good_State_modConn (s : State) (f : ℕ) (h : ℕ) (g : Conn → Conn) (h_s : s.Good) :
    (State.modConn s f h g).Good := by
  unfold State.modConn
  repeat' (with_reducible first | assumption | apply good_State_modFn | ((first | apply good_bytes | apply good_mk); first | assumption | apply good_State_modFn) | intro _)

theorem good_State_connEvent (s : State) (f : ℕ) (h : ℕ) (h_s : s.Good) :
    (State.connEvent s f h).Good := by
  unfold State.connEvent
  repeat' (with_reducible first | assumption | apply good_State_bump | apply good_State_complete | (extract_lets +onlyGivenNames x; first | (apply good_cut (s := x); rotate_left; clear_value x; rotate_left; subst x) | clear_value x | subst x))

theorem good_State_setDeriving (s : State) (n : ℕ) (l : List Deriv) (h_s : s.Good) :
    (State.setDeriving s n l).Good := by
  unfold State.setDeriving
  repeat' (with_reducible first | assumption | ((first | apply good_bytes | apply good_mk); first | assumption))

theorem good_State_deriveEpoch (s : State) (f : ℕ) (h : ℕ) (rx : Bool) (h_s : s.Good) :
    (State.deriveEpoch s f h rx).Good := by
  unfold State.deriveEpoch
  repeat' (with_reducible first | assumption | apply good_State_setDeriving | apply good_ite | intro _ | (extract_lets +onlyGivenNames x; first | (apply good_cut (s := x); rotate_left; clear_value x; rotate_left; subst x) | clear_value x | subst x) | split)

theorem good_State_deriveSetup (s : State) (f : ℕ) (h : ℕ) (h_s : s.Good) :
    (State.deriveSetup s f h).Good := by
  unfold State.deriveSetup
  repeat' (with_reducible first | assumption | apply good_State_setDeriving | apply good_ite | intro _ | (extract_lets +onlyGivenNames x; first | (apply good_cut (s := x); rotate_left; clear_value x; rotate_left; subst x) | clear_value x | subst x) | split)

theorem good_State_deriveDone (s : State) (f : ℕ) (h : ℕ) (rx : Bool) (h_s : s.Good) :
    (State.deriveDone s f h rx).Good := by
  unfold State.deriveDone
  repeat' (with_reducible first | assumption | apply good_State_setDeriving | apply good_ite | intro _ | (extract_lets +onlyGivenNames x; first | (apply good_cut (s := x); rotate_left; clear_value x; rotate_left; subst x) | (have hf := is_fun x; clear hf; subst x) | clear_value x | subst x) | split)

theorem good_State_deriveDrop (s : State) (f : ℕ) (h : ℕ) (h_s : s.Good) :
    (State.deriveDrop s f h).Good := by
  unfold State.deriveDrop
  repeat' (with_reducible first | assumption | apply good_ite | ((first | apply good_bytes | apply good_mk); first | assumption | apply good_ite) | intro _ | (extract_lets +onlyGivenNames x; first | (apply good_cut (s := x); rotate_left; clear_value x; rotate_left; subst x) | (have hf := is_fun x; clear hf; subst x) | clear_value x | subst x) | split)

theorem good_State_rekeyEnter (s : State) (f : ℕ) (h : ℕ) (h_s : s.Good) :
    (State.rekeyEnter s f h).Good := by
  unfold State.rekeyEnter
  repeat' (with_reducible first | assumption | apply good_State_modConn | apply good_State_deriveEpoch | apply good_ite | ((first | apply good_bytes | apply good_mk); first | assumption | apply good_State_modConn | apply good_State_deriveEpoch | apply good_ite) | intro _ | split)

theorem good_State_exhaust (s : State) (f : ℕ) (h : ℕ) (h_s : s.Good) :
    (State.exhaust s f h).Good := by
  unfold State.exhaust
  repeat' (with_reducible first | assumption | apply good_State_modConn | apply good_State_modPart | apply good_State_jMust | apply good_State_connEvent | apply good_ite | ((first | apply good_bytes | apply good_mk); first | assumption | apply good_State_modConn | apply good_State_modPart | apply good_State_jMust | apply good_State_connEvent | apply good_ite) | intro _ | (extract_lets +onlyGivenNames x; first | (apply good_cut (s := x); rotate_left; clear_value x; rotate_left; subst x) | (have hf := is_fun x; clear hf; subst x) | clear_value x | subst x) | split)

theorem good_State_epochCount (s : State) (h_s : s.Good) :
    (State.epochCount s).Good := by
  unfold State.epochCount
  repeat' (with_reducible first | assumption | ((first | apply good_bytes | apply good_mk); first | assumption))

theorem good_State_takeCtr (s : State) (f : ℕ) (h : ℕ) (h_s : s.Good) :
    (State.takeCtr s f h).Good := by
  unfold State.takeCtr
  repeat' (with_reducible first | assumption | apply good_State_modConn | apply good_State_rekeyEnter | apply good_State_exhaust | apply good_ite | ((first | apply good_bytes | apply good_mk); first | assumption | apply good_State_modConn | apply good_State_rekeyEnter | apply good_State_exhaust | apply good_ite) | intro _ | (extract_lets +onlyGivenNames x; first | (apply good_cut (s := x); rotate_left; clear_value x; rotate_left; subst x) | (have hf := is_fun x; clear hf; subst x) | clear_value x | subst x) | split)

theorem good_State_dropPeer (s : State) (dev : ℕ) (h_s : s.Good) :
    (State.dropPeer s dev).Good := by
  unfold State.dropPeer
  repeat' (with_reducible first | assumption | apply good_State_jMust | ((first | apply good_bytes | apply good_mk); first | assumption | apply good_State_jMust) | intro _ | (extract_lets +onlyGivenNames x; first | (apply good_cut (s := x); rotate_left; clear_value x; rotate_left; subst x) | (have hf := is_fun x; clear hf; subst x) | clear_value x | subst x))

theorem good_State_pairTaken (s : State) (dev : ℕ) (h_s : s.Good) :
    (State.pairTaken s dev).Good := by
  unfold State.pairTaken
  repeat' (with_reducible first | assumption | apply good_State_dropPeer | apply good_ite | ((first | apply good_bytes | apply good_mk); first | assumption | apply good_State_dropPeer | apply good_ite) | intro _ | (extract_lets +onlyGivenNames x; first | (apply good_cut (s := x); rotate_left; clear_value x; rotate_left; subst x) | (have hf := is_fun x; clear hf; subst x) | clear_value x | subst x) | split)

theorem good_State_ctlTaken (s : State) (c : CtlPkt) (h_s : s.Good) :
    (State.ctlTaken s c).Good := by
  unfold State.ctlTaken
  repeat' (with_reducible first | assumption | apply good_State_pairTaken | apply good_State_takeCtr | apply good_ite | ((first | apply good_bytes | apply good_mk); first | assumption | apply good_State_pairTaken | apply good_State_takeCtr | apply good_ite) | intro _ | split)

theorem good_State_queueCtl (s : State) (q : ℕ) (c : CtlPkt) (h_s : s.Good) :
    (State.queueCtl s q c).Good := by
  unfold State.queueCtl
  repeat' (with_reducible first | assumption | apply good_State_modPort | apply good_ite | ((first | apply good_bytes | apply good_mk); first | assumption | apply good_State_modPort | apply good_ite) | intro _ | split)

theorem good_State_sendCtl (s : State) (f : ℕ) (h : ℕ) (path : ℕ) (ext : Ext) (ackreq : optParam Bool false) (h_s : s.Good) :
    (State.sendCtl s f h path ext ackreq).Good := by
  unfold State.sendCtl
  repeat' (with_reducible first | assumption | apply good_State_queueCtl | apply good_ite | ((first | apply good_bytes | apply good_mk); first | assumption | apply good_State_queueCtl | apply good_ite) | intro _ | (extract_lets +onlyGivenNames x; first | (apply good_cut (s := x); rotate_left; clear_value x; rotate_left; subst x) | clear_value x | subst x) | split)

theorem good_State_stopGrant (s : State) (f : ℕ) (h : ℕ) (h_s : s.Good) :
    (State.stopGrant s f h).Good := by
  unfold State.stopGrant
  repeat' (with_reducible first | assumption | apply good_State_modConn | apply good_ite | ((first | apply good_bytes | apply good_mk); first | assumption | apply good_State_modConn | apply good_ite) | intro _ | (extract_lets +onlyGivenNames x; first | (apply good_cut (s := x); rotate_left; clear_value x; rotate_left; subst x) | (have hf := is_fun x; clear hf; subst x) | clear_value x | subst x) | split)

theorem good_State_sendAck (s : State) (f : ℕ) (h : ℕ) (path : ℕ) (echoTs : ℕ) (h_s : s.Good) :
    (State.sendAck s f h path echoTs).Good := by
  unfold State.sendAck
  repeat' (with_reducible first | assumption | apply good_State_stopGrant | apply good_State_sendCtl | apply good_State_modConn | apply good_ite | ((first | apply good_bytes | apply good_mk); first | assumption | apply good_State_stopGrant | apply good_State_sendCtl | apply good_State_modConn | apply good_ite) | intro _ | (extract_lets +onlyGivenNames x; first | (apply good_cut (s := x); rotate_left; clear_value x; rotate_left; subst x) | (have hf := is_fun x; clear hf; subst x) | clear_value x | subst x) | split)

theorem good_State_sendCredit (s : State) (f : ℕ) (h : ℕ) (h_s : s.Good) :
    (State.sendCredit s f h).Good := by
  unfold State.sendCredit
  repeat' (with_reducible first | assumption | apply good_State_stopGrant | apply good_State_sendCtl | apply good_State_modConn | apply good_ite | ((first | apply good_bytes | apply good_mk); first | assumption | apply good_State_stopGrant | apply good_State_sendCtl | apply good_State_modConn | apply good_ite) | intro _ | (extract_lets +onlyGivenNames x; first | (apply good_cut (s := x); rotate_left; clear_value x; rotate_left; subst x) | (have hf := is_fun x; clear hf; subst x) | clear_value x | subst x) | split)

theorem good_State_setGrant (s : State) (f : ℕ) (h : ℕ) (win : ℕ) (stop : Bool) (h_s : s.Good) :
    (State.setGrant s f h win stop).Good := by
  unfold State.setGrant
  repeat' (with_reducible first | assumption | apply good_State_modConn | apply good_State_sendCredit | apply good_ite | ((first | apply good_bytes | apply good_mk); first | assumption | apply good_State_modConn | apply good_State_sendCredit | apply good_ite) | intro _ | (extract_lets +onlyGivenNames x; first | (apply good_cut (s := x); rotate_left; clear_value x; rotate_left; subst x) | (have hf := is_fun x; clear hf; subst x) | clear_value x | subst x) | split)

theorem good_State_queueMsg (s : State) (f : ℕ) (h : ℕ) (ext : Ext) (len : ℕ) (src : Src) (for_ : MsgFor) (h_s : s.Good) :
    (State.queueMsg s f h ext len src for_).Good := by
  unfold State.queueMsg
  repeat' (with_reducible first | assumption | apply good_State_modConn | apply good_ite | ((first | apply good_bytes | apply good_mk); first | assumption | apply good_State_modConn | apply good_ite) | intro _ | split)

theorem good_State_sendNak (s : State) (f : ℕ) (h : ℕ) (msn : ℕ) (st : Status) (detail : ℕ) (h_s : s.Good) :
    (State.sendNak s f h msn st detail).Good := by
  unfold State.sendNak
  repeat' (with_reducible first | assumption | apply good_State_queueMsg | apply good_ite | intro _ | split)

theorem good_State_abandonMsg (s : State) (f : ℕ) (h : ℕ) (msn : ℕ) (st : Status) (numbered : Bool) (h_s : s.Good) :
    (State.abandonMsg s f h msn st numbered).Good := by
  unfold State.abandonMsg
  repeat' (with_reducible first | assumption | apply good_State_modConn | apply good_ite | ((first | apply good_bytes | apply good_mk); first | assumption | apply good_State_modConn | apply good_ite) | intro _ | (extract_lets +onlyGivenNames x; first | (apply good_cut (s := x); rotate_left; clear_value x; rotate_left; subst x) | (have hf := is_fun x; clear hf; subst x) | clear_value x | subst x) | split)

theorem good_State_modWin (s : State) (f : ℕ) (i : ℕ) (g : Win → Win) (h_s : s.Good) :
    (State.modWin s f i g).Good := by
  unfold State.modWin
  repeat' (with_reducible first | assumption | apply good_State_modFn | ((first | apply good_bytes | apply good_mk); first | assumption | apply good_State_modFn) | intro _)

theorem good_State_winClose (s : State) (f : ℕ) (i : ℕ) (h_s : s.Good) :
    (State.winClose s f i).Good := by
  unfold State.winClose
  repeat' (with_reducible first | assumption | apply good_State_modFn | apply good_State_endOp | ((first | apply good_bytes | apply good_mk); first | assumption | apply good_State_modFn | apply good_State_endOp) | intro _ | (extract_lets +onlyGivenNames x; first | (apply good_cut (s := x); rotate_left; clear_value x; rotate_left; subst x) | (have hf := is_fun x; clear hf; subst x) | clear_value x | subst x) | split)

theorem good_State_placeDone (s : State) (f : ℕ) (i : ℕ) (h_s : s.Good) :
    (State.placeDone s f i).Good := by
  unfold State.placeDone
  repeat' (with_reducible first | assumption | apply good_State_modWin | apply good_State_winClose | apply good_ite | ((first | apply good_bytes | apply good_mk); first | assumption | apply good_State_modWin | apply good_State_winClose | apply good_ite) | intro _ | (extract_lets +onlyGivenNames x; first | (apply good_cut (s := x); rotate_left; clear_value x; rotate_left; subst x) | (have hf := is_fun x; clear hf; subst x) | clear_value x | subst x) | split)

theorem good_State_serveDone (s : State) (f : ℕ) (h : ℕ) (w : ℕ) (req : ℕ) (h_s : s.Good) :
    (State.serveDone s f h w req).Good := by
  unfold State.serveDone
  repeat' (with_reducible first | assumption | apply good_State_placeDone | apply good_State_modConn | ((first | apply good_bytes | apply good_mk); first | assumption | apply good_State_placeDone | apply good_State_modConn) | intro _)

theorem good_State_abandonIn (s : State) (f : ℕ) (h : ℕ) (m : InMsg) (h_s : s.Good) :
    (State.abandonIn s f h m).Good := by
  unfold State.abandonIn
  repeat' (with_reducible first | assumption | apply good_State_modConn | apply good_State_placeDone | apply good_ite | ((first | apply good_bytes | apply good_mk); first | assumption | apply good_State_modConn | apply good_State_placeDone | apply good_ite) | intro _ | (extract_lets +onlyGivenNames x; first | (apply good_cut (s := x); rotate_left; clear_value x; rotate_left; subst x) | (have hf := is_fun x; clear hf; subst x) | clear_value x | subst x) | split)

theorem good_State_abandonAll (s : State) (f : ℕ) (h : ℕ) (h_s : s.Good) :
    (State.abandonAll s f h).Good := by
  unfold State.abandonAll
  repeat' (with_reducible first | assumption | apply good_State_abandonIn | apply good_foldl | intro _)

theorem good_State_modLaunch (s : State) (f : ℕ) (l : ℕ) (g : Launch → Launch) (h_s : s.Good) :
    (State.modLaunch s f l g).Good := by
  unfold State.modLaunch
  repeat' (with_reducible first | assumption | apply good_State_modFn | ((first | apply good_bytes | apply good_mk); first | assumption | apply good_State_modFn) | intro _)

theorem good_State_modCopy (s : State) (f : ℕ) (l : ℕ) (c : ℕ) (g : Copy → Copy) (h_s : s.Good) :
    (State.modCopy s f l c g).Good := by
  unfold State.modCopy
  repeat' (with_reducible first | assumption | apply good_State_modLaunch | ((first | apply good_bytes | apply good_mk); first | assumption | apply good_State_modLaunch) | intro _)

theorem good_State_modAsync (s : State) (f : ℕ) (l : ℕ) (c : ℕ) (id : ℕ) (g : Async → Async) (h_s : s.Good) :
    (State.modAsync s f l c id g).Good := by
  unfold State.modAsync
  repeat' (with_reducible first | assumption | apply good_State_modCopy | apply good_ite | ((first | apply good_bytes | apply good_mk); first | assumption | apply good_State_modCopy | apply good_ite) | intro _ | split)

theorem good_State_progStatus (s : State) (f : ℕ) (l : ℕ) (c : ℕ) (id : ℕ) (st : Status) (hint : ℕ) (h_s : s.Good) :
    (State.progStatus s f l c id st hint).Good := by
  unfold State.progStatus
  repeat' (with_reducible first | assumption | apply good_State_modAsync | apply good_ite | ((first | apply good_bytes | apply good_mk); first | assumption | apply good_State_modAsync | apply good_ite) | intro _ | split)

theorem good_State_progConnEnd (s : State) (f : ℕ) (h : ℕ) (unsent : Status) (h_s : s.Good) :
    (State.progConnEnd s f h unsent).Good := by
  unfold State.progConnEnd
  repeat' (with_reducible first | assumption | apply good_State_modFn | apply good_ite | ((first | apply good_bytes | apply good_mk); first | assumption | apply good_State_modFn | apply good_ite) | intro _ | (extract_lets +onlyGivenNames x; first | (apply good_cut (s := x); rotate_left; clear_value x; rotate_left; subst x) | (have hf := is_fun x; clear hf; subst x) | clear_value x | subst x) | split)

theorem good_State_endConnOps (s : State) (f : ℕ) (h : ℕ) (unsent : Status) (h_s : s.Good) :
    (State.endConnOps s f h unsent).Good := by
  unfold State.endConnOps
  repeat' (with_reducible first | assumption | apply good_State_endOp | apply good_State_progConnEnd | apply good_ite | apply good_foldl | ((first | apply good_bytes | apply good_mk); first | assumption | apply good_State_endOp | apply good_State_progConnEnd | apply good_ite | apply good_foldl) | intro _ | (extract_lets +onlyGivenNames x; first | (apply good_cut (s := x); rotate_left; clear_value x; rotate_left; subst x) | (have hf := is_fun x; clear hf; subst x) | (have hf := is_cells x; clear hf; subst x) | clear_value x | subst x) | split)

theorem good_State_endRdv (s : State) (f : ℕ) (h : ℕ) (st : Status) (h_s : s.Good) :
    (State.endRdv s f h st).Good := by
  unfold State.endRdv
  repeat' (with_reducible first | assumption | apply good_State_modConn | apply good_State_endOp | apply good_State_modFn | apply good_State_progStatus | apply good_foldl | ((first | apply good_bytes | apply good_mk); first | assumption | apply good_State_modConn | apply good_State_endOp | apply good_State_modFn | apply good_State_progStatus | apply good_foldl) | intro _ | (extract_lets +onlyGivenNames x; first | (apply good_cut (s := x); rotate_left; clear_value x; rotate_left; subst x) | (have hf := is_fun x; clear hf; subst x) | clear_value x | subst x) | split)

theorem good_State_endCloses (s : State) (f : ℕ) (h : ℕ) (st : Status) (h_s : s.Good) :
    (State.endCloses s f h st).Good := by
  unfold State.endCloses
  repeat' (with_reducible first | assumption | apply good_State_modConn | apply good_State_endOp | apply good_foldl | ((first | apply good_bytes | apply good_mk); first | assumption | apply good_State_modConn | apply good_State_endOp | apply good_foldl) | intro _ | (extract_lets +onlyGivenNames x; first | (apply good_cut (s := x); rotate_left; clear_value x; rotate_left; subst x) | (have hf := is_fun x; clear hf; subst x) | clear_value x | subst x))

theorem good_State_freeConn (s : State) (f : ℕ) (h : ℕ) (h_s : s.Good) :
    (State.freeConn s f h).Good := by
  unfold State.freeConn
  repeat' (with_reducible first | assumption | apply good_State_modFn | apply good_State_deriveDrop | ((first | apply good_bytes | apply good_mk); first | assumption | apply good_State_modFn | apply good_State_deriveDrop) | intro _)

theorem good_State_loseConn (s : State) (f : ℕ) (h : ℕ) (cause : ℕ) (h_s : s.Good) :
    (State.loseConn s f h cause).Good := by
  unfold State.loseConn
  repeat' (with_reducible first | assumption | apply good_State_abandonAll | apply good_State_modConn | apply good_State_endRdv | apply good_State_endConnOps | apply good_State_endCloses | apply good_State_connEvent | ((first | apply good_bytes | apply good_mk); first | assumption | apply good_State_abandonAll | apply good_State_modConn | apply good_State_endRdv | apply good_State_endConnOps | apply good_State_endCloses | apply good_State_connEvent) | intro _ | (extract_lets +onlyGivenNames x; first | (apply good_cut (s := x); rotate_left; clear_value x; rotate_left; subst x) | (have hf := is_fun x; clear hf; subst x) | clear_value x | subst x))

theorem good_State_failConn (s : State) (f : ℕ) (h : ℕ) (st : Status) (hint : ℕ) (h_s : s.Good) :
    (State.failConn s f h st hint).Good := by
  unfold State.failConn
  repeat' (with_reducible first | assumption | apply good_State_freeConn | apply good_State_endOp | intro _ | (extract_lets +onlyGivenNames x; first | (apply good_cut (s := x); rotate_left; clear_value x; rotate_left; subst x) | clear_value x | subst x) | split)

theorem good_State_sendAborts (s : State) (f : ℕ) (h : ℕ) (cause : ℕ) (times : ℕ) (h_s : s.Good) :
    (State.sendAborts s f h cause times).Good := by
  unfold State.sendAborts
  repeat' (with_reducible first | assumption | apply good_State_bump | apply good_State_queueCtl | apply good_State_modFn | apply good_ite | ((first | apply good_bytes | apply good_mk); first | assumption | apply good_State_bump | apply good_State_queueCtl | apply good_State_modFn | apply good_ite) | intro _ | (extract_lets +onlyGivenNames x; first | (apply good_cut (s := x); rotate_left; clear_value x; rotate_left; subst x) | (have hf := is_fun x; clear hf; subst x) | clear_value x | subst x) | split)

theorem good_State_modBp (s : State) (q : ℕ) (k : ℕ) (g : Bp → Bp) (h_s : s.Good) :
    (State.modBp s q k g).Good := by
  unfold State.modBp
  repeat' (with_reducible first | assumption | apply good_State_modPort | ((first | apply good_bytes | apply good_mk); first | assumption | apply good_State_modPort) | intro _)

theorem good_State_dropFrame (s : State) (q : ℕ) (k : ℕ) (h_s : s.Good) :
    (State.dropFrame s q k).Good := by
  unfold State.dropFrame
  repeat' (with_reducible first | assumption | apply good_State_modBp | ((first | apply good_bytes | apply good_mk); first | assumption | apply good_State_modBp) | intro _)

theorem good_State_sized (s : State) (rx : Rx) (n : ℕ) (k : State → State) (h_s : s.Good) (h_k : ∀ t : State, t.Good → (k t).Good) :
    (State.sized s rx n k).Good := by
  unfold State.sized
  repeat' (with_reducible first | assumption | apply good_State_dropFrame | apply h_k | apply good_ite | intro _ | split)

end Sys2Proof.Machine
end

