-- ==== Sys2Proof/Laws/GoodRemote.lean ====
section
/-!
SUPPORT. GoodRemote.lean: every operation and meaning of Remote.lean keeps the canonical form of memory.
-/

namespace Sys2Proof.Machine

set_option linter.all false

theorem good_State_initiate (s : State) (f : ℕ) (id : ℕ) (b : OneSided) (ext : Ext) (len : ℕ) (src : Src) (h_s : s.Good) :
    (State.initiate s f id b ext len src).Good := by
  unfold State.initiate
  repeat' (with_reducible first | assumption | apply good_State_queueMsg | apply good_State_modOp | ((first | apply good_bytes | apply good_mk); first | assumption | apply good_State_queueMsg | apply good_State_modOp) | intro _ | (extract_lets +onlyGivenNames x; first | (apply good_cut (s := x); rotate_left; clear_value x; rotate_left; subst x) | (have hf := is_fun x; clear hf; subst x) | clear_value x | subst x))

theorem good_State_locReady (s : State) (f : ℕ) (id : ℕ) (b : OneSided) (wr : Bool) (k : State → State) (h_s : s.Good) (h_k : ∀ t : State, t.Good → (k t).Good) :
    (State.locReady s f id b wr k).Good := by
  unfold State.locReady
  repeat' (with_reducible first | assumption | apply good_State_withHost | apply h_k | intro _)

theorem good_effWrite (b : OneSided) (notify : Bool) (imm : BitVec 32) (f : ℕ) (id : ℕ) (s : State) (h_s : s.Good) :
    (effWrite b notify imm f id s).Good := by
  unfold effWrite
  repeat' (with_reducible first | assumption | apply good_State_checked | apply good_State_locReady | apply good_State_initiate | intro _ | (extract_lets +onlyGivenNames x; first | (apply good_cut (s := x); rotate_left; clear_value x; rotate_left; subst x) | (have hf := is_fun x; clear hf; subst x) | (have hf := is_mem x; clear hf; subst x) | clear_value x | subst x))

theorem good_execWrite (e : Entry) (b : OneSided) (s : State) (h_s : s.Good) :
    OkOut (execWrite e b s) := by
  unfold execWrite
  repeat' (with_reducible first | assumption | apply good_State_startEntry | apply good_effWrite | apply okOut_next | apply good_write | apply good_touchWrite)

theorem good_execWriteNotify (e : Entry) (b : OneSided) (imm : BitVec 32) (s : State) (h_s : s.Good) :
    OkOut (execWriteNotify e b imm s) := by
  unfold execWriteNotify
  repeat' (with_reducible first | assumption | apply good_State_startEntry | apply good_effWrite | apply okOut_next | apply good_write | apply good_touchWrite)

theorem good_effRead (b : OneSided) (f : ℕ) (id : ℕ) (s : State) (h_s : s.Good) :
    (effRead b f id s).Good := by
  unfold effRead
  repeat' (with_reducible first | assumption | apply good_State_checked | apply good_State_locReady | apply good_State_initiate | intro _ | (extract_lets +onlyGivenNames x; first | (apply good_cut (s := x); rotate_left; clear_value x; rotate_left; subst x) | (have hf := is_fun x; clear hf; subst x) | clear_value x | subst x))

theorem good_execRead (e : Entry) (b : OneSided) (s : State) (h_s : s.Good) :
    OkOut (execRead e b s) := by
  unfold execRead
  repeat' (with_reducible first | assumption | apply good_State_startEntry | apply good_effRead | apply okOut_next)

theorem good_effAtomic (op : ℕ) (b : OneSided) (f : ℕ) (id : ℕ) (s : State) (h_s : s.Good) :
    (effAtomic op b f id s).Good := by
  unfold effAtomic
  repeat' (with_reducible first | assumption | apply good_State_checked | apply good_State_locReady | apply good_State_initiate | intro _ | (extract_lets +onlyGivenNames x; first | (apply good_cut (s := x); rotate_left; clear_value x; rotate_left; subst x) | (have hf := is_fun x; clear hf; subst x) | clear_value x | subst x))

theorem good_execAtFadd (e : Entry) (b : OneSided) (s : State) (h_s : s.Good) :
    OkOut (execAtFadd e b s) := by
  unfold execAtFadd
  repeat' (with_reducible first | assumption | apply good_State_startEntry | apply good_effAtomic | apply okOut_next)

theorem good_execAtFand (e : Entry) (b : OneSided) (s : State) (h_s : s.Good) :
    OkOut (execAtFand e b s) := by
  unfold execAtFand
  repeat' (with_reducible first | assumption | apply good_State_startEntry | apply good_effAtomic | apply okOut_next)

theorem good_execAtFor (e : Entry) (b : OneSided) (s : State) (h_s : s.Good) :
    OkOut (execAtFor e b s) := by
  unfold execAtFor
  repeat' (with_reducible first | assumption | apply good_State_startEntry | apply good_effAtomic | apply okOut_next)

theorem good_execAtFxor (e : Entry) (b : OneSided) (s : State) (h_s : s.Good) :
    OkOut (execAtFxor e b s) := by
  unfold execAtFxor
  repeat' (with_reducible first | assumption | apply good_State_startEntry | apply good_effAtomic | apply okOut_next)

theorem good_execAtSwap (e : Entry) (b : OneSided) (s : State) (h_s : s.Good) :
    OkOut (execAtSwap e b s) := by
  unfold execAtSwap
  repeat' (with_reducible first | assumption | apply good_State_startEntry | apply good_effAtomic | apply okOut_next)

theorem good_execAtCas (e : Entry) (b : OneSided) (s : State) (h_s : s.Good) :
    OkOut (execAtCas e b s) := by
  unfold execAtCas
  repeat' (with_reducible first | assumption | apply good_State_startEntry | apply good_effAtomic | apply okOut_next)

theorem good_effTsend (b : OneSided) (f : ℕ) (id : ℕ) (s : State) (h_s : s.Good) :
    (effTsend b f id s).Good := by
  unfold effTsend
  repeat' (with_reducible first | assumption | apply good_State_checked | apply good_State_locReady | apply good_State_initiate | apply good_ite | intro _ | (extract_lets +onlyGivenNames x; first | (apply good_cut (s := x); rotate_left; clear_value x; rotate_left; subst x) | (have hf := is_fun x; clear hf; subst x) | (have hf := is_mem x; clear hf; subst x) | clear_value x | subst x) | split)

theorem good_execTsend (e : Entry) (b : OneSided) (s : State) (h_s : s.Good) :
    OkOut (execTsend e b s) := by
  unfold execTsend
  repeat' (with_reducible first | assumption | apply good_State_startEntry | apply good_effTsend | apply okOut_next)

theorem good_effWinOpen (b : WinOpenBody) (f : ℕ) (id : ℕ) (s : State) (h_s : s.Good) :
    (effWinOpen b f id s).Good := by
  unfold effWinOpen
  repeat' (with_reducible first | assumption | apply good_State_checked | apply good_State_endOp | apply good_State_modWin | apply good_ite | intro _ | (extract_lets +onlyGivenNames x; first | (apply good_cut (s := x); rotate_left; clear_value x; rotate_left; subst x) | (have hf := is_fun x; clear hf; subst x) | clear_value x | subst x) | split)

theorem good_execWinOpen (e : Entry) (b : WinOpenBody) (s : State) (h_s : s.Good) :
    OkOut (execWinOpen e b s) := by
  unfold execWinOpen
  repeat' (with_reducible first | assumption | apply good_State_startEntry | apply good_effWinOpen | apply okOut_next)

theorem good_effWinRevoke (wref : ℕ) (f : ℕ) (id : ℕ) (s : State) (h_s : s.Good) :
    (effWinRevoke wref f id s).Good := by
  unfold effWinRevoke
  repeat' (with_reducible first | assumption | apply good_State_checked | apply good_State_endOp | apply good_State_winClose | apply good_State_modWin | apply good_ite | ((first | apply good_bytes | apply good_mk); first | assumption | apply good_State_checked | apply good_State_endOp | apply good_State_winClose | apply good_State_modWin | apply good_ite) | intro _ | (extract_lets +onlyGivenNames x; first | (apply good_cut (s := x); rotate_left; clear_value x; rotate_left; subst x) | (have hf := is_fun x; clear hf; subst x) | clear_value x | subst x) | split)

theorem good_execWinRevoke (e : Entry) (wref : ℕ) (s : State) (h_s : s.Good) :
    OkOut (execWinRevoke e wref s) := by
  unfold execWinRevoke
  repeat' (with_reducible first | assumption | apply good_State_startEntry | apply good_effWinRevoke | apply okOut_next)

theorem good_State_modMlist (s : State) (f : ℕ) (l : ℕ) (g : MList → MList) (h_s : s.Good) :
    (State.modMlist s f l g).Good := by
  unfold State.modMlist
  repeat' (with_reducible first | assumption | apply good_State_modFn | ((first | apply good_bytes | apply good_mk); first | assumption | apply good_State_modFn) | intro _ | split)

theorem good_State_delivered (s : State) (f : ℕ) (p : Posted) (conn : ℕ) (tag : Word) (placed : ℕ) (full : ℕ) (h_s : s.Good) :
    (State.delivered s f p conn tag placed full).Good := by
  unfold State.delivered
  repeat' (with_reducible first | assumption | apply good_State_fire | apply good_State_hostWrite | apply good_State_endOp | apply good_State_modFn | apply good_ite | ((first | apply good_bytes | apply good_mk); first | assumption | apply good_State_fire | apply good_State_hostWrite | apply good_State_endOp | apply good_State_modFn | apply good_ite) | intro _ | (extract_lets +onlyGivenNames x; first | (apply good_cut (s := x); rotate_left; clear_value x; rotate_left; subst x) | (have hf := is_fun x; clear hf; subst x) | clear_value x | subst x) | split)

theorem good_State_deliverEager (s : State) (f : ℕ) (p : Posted) (u : Unexp) (h_s : s.Good) :
    (State.deliverEager s f p u).Good := by
  unfold State.deliverEager
  repeat' (with_reducible first | assumption | apply good_State_modFn | apply good_State_delivered | apply good_State_locWrite | ((first | apply good_bytes | apply good_mk); first | assumption | apply good_State_modFn | apply good_State_delivered | apply good_State_locWrite) | intro _ | (extract_lets +onlyGivenNames x; first | (apply good_cut (s := x); rotate_left; clear_value x; rotate_left; subst x) | (have hf := is_fun x; clear hf; subst x) | clear_value x | subst x) | split)

theorem good_State_startRdv (s : State) (f : ℕ) (p : Posted) (u : Unexp) (h_s : s.Good) :
    (State.startRdv s f p u).Good := by
  unfold State.startRdv
  repeat' (with_reducible first | assumption | apply good_State_endOp | apply good_State_modFn | apply good_State_progStatus | apply good_State_queueMsg | apply good_State_delivered | apply good_State_modConn | apply good_ite | ((first | apply good_bytes | apply good_mk); first | assumption | apply good_State_endOp | apply good_State_modFn | apply good_State_progStatus | apply good_State_queueMsg | apply good_State_delivered | apply good_State_modConn | apply good_ite) | intro _ | (extract_lets +onlyGivenNames x; first | (apply good_cut (s := x); rotate_left; clear_value x; rotate_left; subst x) | (have hf := is_fun x; clear hf; subst x) | clear_value x | subst x) | split)

theorem good_State_deliver (s : State) (f : ℕ) (p : Posted) (u : Unexp) (h_s : s.Good) :
    (State.deliver s f p u).Good := by
  unfold State.deliver
  repeat' (with_reducible first | assumption | apply good_State_startRdv | apply good_State_deliverEager | apply good_ite | intro _ | split)

theorem good_State_takeMsg (s : State) (f : ℕ) (k : ℕ) (id : ℕ) (p : Posted) (u : Unexp) (h_s : s.Good) :
    (State.takeMsg s f k id p u).Good := by
  unfold State.takeMsg
  repeat' (with_reducible first | assumption | apply good_State_parkOp | apply good_State_modMlist | apply good_State_deliver | ((first | apply good_bytes | apply good_mk); first | assumption | apply good_State_parkOp | apply good_State_modMlist | apply good_State_deliver) | intro _ | split)

theorem good_State_postRecv (s : State) (f : ℕ) (l : ℕ) (id : ℕ) (p : Posted) (h_s : s.Good) :
    (State.postRecv s f l id p).Good := by
  unfold State.postRecv
  repeat' (with_reducible first | assumption | apply good_State_takeMsg | apply good_State_modMlist | ((first | apply good_bytes | apply good_mk); first | assumption | apply good_State_takeMsg | apply good_State_modMlist) | intro _ | split)

theorem good_effTrecv (e : Entry) (b : TrecvBody) (f : ℕ) (id : ℕ) (s : State) (h_s : s.Good) :
    (effTrecv e b f id s).Good := by
  unfold effTrecv
  repeat' (with_reducible first | assumption | apply good_State_checked | apply good_State_postRecv | apply good_ite | intro _ | (extract_lets +onlyGivenNames x; first | (apply good_cut (s := x); rotate_left; clear_value x; rotate_left; subst x) | (have hf := is_fun x; clear hf; subst x) | clear_value x | subst x) | split)

theorem good_execTrecv (e : Entry) (b : TrecvBody) (s : State) (h_s : s.Good) :
    OkOut (execTrecv e b s) := by
  unfold execTrecv
  repeat' (with_reducible first | assumption | apply good_State_startEntry | apply good_effTrecv | apply okOut_next)

theorem good_effTrecvCancel (list : ℕ) (tag : BitVec 32) (f : ℕ) (id : ℕ) (s : State) (h_s : s.Good) :
    (effTrecvCancel list tag f id s).Good := by
  unfold effTrecvCancel
  repeat' (with_reducible first | assumption | apply good_State_checked | apply good_State_modMlist | apply good_State_endOp | apply good_ite | apply good_foldl | ((first | apply good_bytes | apply good_mk); first | assumption | apply good_State_checked | apply good_State_modMlist | apply good_State_endOp | apply good_ite | apply good_foldl) | intro _ | (extract_lets +onlyGivenNames x; first | (apply good_cut (s := x); rotate_left; clear_value x; rotate_left; subst x) | (have hf := is_fun x; clear hf; subst x) | clear_value x | subst x) | split)

theorem good_execTrecvCancel (e : Entry) (list : ℕ) (tag : BitVec 32) (s : State) (h_s : s.Good) :
    OkOut (execTrecvCancel e list tag s) := by
  unfold execTrecvCancel
  repeat' (with_reducible first | assumption | apply good_State_startEntry | apply good_effTrecvCancel | apply okOut_next)

theorem good_effMlistCreate (list : ℕ) (uq : ℕ) (f : ℕ) (id : ℕ) (s : State) (h_s : s.Good) :
    (effMlistCreate list uq f id s).Good := by
  unfold effMlistCreate
  repeat' (with_reducible first | assumption | apply good_State_checked | apply good_State_endOp | apply good_State_modFn | ((first | apply good_bytes | apply good_mk); first | assumption | apply good_State_checked | apply good_State_endOp | apply good_State_modFn) | intro _)

theorem good_execMlistCreate (e : Entry) (list : ℕ) (uq : ℕ) (s : State) (h_s : s.Good) :
    OkOut (execMlistCreate e list uq s) := by
  unfold execMlistCreate
  repeat' (with_reducible first | assumption | apply good_State_startEntry | apply good_effMlistCreate | apply okOut_next)

theorem good_State_keepBound (s : State) (f : ℕ) (l : ℕ) (b : AMap Unexp) (h_s : s.Good) :
    (State.keepBound s f l b).Good := by
  unfold State.keepBound
  repeat' (with_reducible first | assumption | apply good_State_modFn | apply good_ite | ((first | apply good_bytes | apply good_mk); first | assumption | apply good_State_modFn | apply good_ite) | intro _ | split)

theorem good_State_mlistEnd (s : State) (f : ℕ) (list : ℕ) (st : Status) (h_s : s.Good) :
    (State.mlistEnd s f list st).Good := by
  unfold State.mlistEnd
  repeat' (with_reducible first | assumption | apply good_State_progStatus | apply good_State_modFn | apply good_State_endOp | apply good_State_keepBound | apply good_State_sendNak | apply good_ite | apply good_foldl | ((first | apply good_bytes | apply good_mk); first | assumption | apply good_State_progStatus | apply good_State_modFn | apply good_State_endOp | apply good_State_keepBound | apply good_State_sendNak | apply good_ite | apply good_foldl) | intro _ | (extract_lets +onlyGivenNames x; first | (apply good_cut (s := x); rotate_left; clear_value x; rotate_left; subst x) | (have hf := is_fun x; clear hf; subst x) | clear_value x | subst x) | split)

theorem good_effMlistDestroy (list : ℕ) (f : ℕ) (id : ℕ) (s : State) (h_s : s.Good) :
    (effMlistDestroy list f id s).Good := by
  unfold effMlistDestroy
  repeat' (with_reducible first | assumption | apply good_State_checked | apply good_State_endOp | apply good_State_mlistEnd | intro _)

theorem good_execMlistDestroy (e : Entry) (list : ℕ) (s : State) (h_s : s.Good) :
    OkOut (execMlistDestroy e list s) := by
  unfold execMlistDestroy
  repeat' (with_reducible first | assumption | apply good_State_startEntry | apply good_effMlistDestroy | apply okOut_next)

theorem good_effTallyAlloc (value : Word) (f : ℕ) (id : ℕ) (s : State) (h_s : s.Good) :
    (effTallyAlloc value f id s).Good := by
  unfold effTallyAlloc
  repeat' (with_reducible first | assumption | apply good_State_checked | apply good_State_endOp | apply good_State_modFn | ((first | apply good_bytes | apply good_mk); first | assumption | apply good_State_checked | apply good_State_endOp | apply good_State_modFn) | intro _ | (extract_lets +onlyGivenNames x; first | (apply good_cut (s := x); rotate_left; clear_value x; rotate_left; subst x) | (have hf := is_fun x; clear hf; subst x) | clear_value x | subst x))

theorem good_execTallyAlloc (e : Entry) (value : Word) (s : State) (h_s : s.Good) :
    OkOut (execTallyAlloc e value s) := by
  unfold execTallyAlloc
  repeat' (with_reducible first | assumption | apply good_State_startEntry | apply good_effTallyAlloc | apply okOut_next)

theorem good_effTallyFree (tally : ℕ) (f : ℕ) (id : ℕ) (s : State) (h_s : s.Good) :
    (effTallyFree tally f id s).Good := by
  unfold effTallyFree
  repeat' (with_reducible first | assumption | apply good_State_checked | apply good_State_endOp | apply good_State_modFn | ((first | apply good_bytes | apply good_mk); first | assumption | apply good_State_checked | apply good_State_endOp | apply good_State_modFn) | intro _)

theorem good_execTallyFree (e : Entry) (tally : ℕ) (s : State) (h_s : s.Good) :
    OkOut (execTallyFree e tally s) := by
  unfold execTallyFree
  repeat' (with_reducible first | assumption | apply good_State_startEntry | apply good_effTallyFree | apply okOut_next)

theorem good_effTallyAdd (tally : ℕ) (value : Word) (f : ℕ) (id : ℕ) (s : State) (h_s : s.Good) :
    (effTallyAdd tally value f id s).Good := by
  unfold effTallyAdd
  repeat' (with_reducible first | assumption | apply good_State_checked | apply good_State_tallyAdd | apply good_State_endOp | intro _ | (extract_lets +onlyGivenNames x; first | (apply good_cut (s := x); rotate_left; clear_value x; rotate_left; subst x) | (have hf := is_fun x; clear hf; subst x) | clear_value x | subst x))

theorem good_effTallySet (tally : ℕ) (value : Word) (f : ℕ) (id : ℕ) (s : State) (h_s : s.Good) :
    (effTallySet tally value f id s).Good := by
  unfold effTallySet
  repeat' (with_reducible first | assumption | apply good_State_checked | apply good_State_tallyPut | apply good_State_endOp | intro _ | (extract_lets +onlyGivenNames x; first | (apply good_cut (s := x); rotate_left; clear_value x; rotate_left; subst x) | (have hf := is_fun x; clear hf; subst x) | clear_value x | subst x))

theorem good_effTallyRead (tally : ℕ) (addr : ℕ) (f : ℕ) (id : ℕ) (s : State) (h_s : s.Good) :
    (effTallyRead tally addr f id s).Good := by
  unfold effTallyRead
  repeat' (with_reducible first | assumption | apply good_State_checked | apply good_State_writeRecord | apply good_write | apply good_touchWrite | intro _)

theorem good_execTallyRead (e : Entry) (tally : ℕ) (addr : ℕ) (s : State) (h_s : s.Good) :
    OkOut (execTallyRead e tally addr s) := by
  unfold execTallyRead
  repeat' (with_reducible first | assumption | apply good_State_startEntry | apply good_effTallyRead | apply okOut_next)

theorem good_runEmb (i : Instr) (f : ℕ) (id : ℕ) (s : State) (h_s : s.Good) :
    (runEmb i f id s).Good := by
  unfold runEmb
  repeat' (with_reducible first | assumption | apply good_effWrite | apply good_effRead | apply good_effAtomic | apply good_effTsend | apply good_effTallyAdd | apply good_effTallySet | apply good_write | apply good_touchWrite | intro _ | split)

theorem good_State_settleOne (f : ℕ) (s : State) (x_u : Unit) (h_s : s.Good) :
    OkL (State.settleOne f s x_u) := by
  unfold State.settleOne
  repeat' (with_reducible first | assumption | apply good_State_modFn | apply good_runEmb | apply good_State_modOp | refine okL_eq (by assumption) ?_ | exact okL_of (by assumption) | apply okL_fst | ((first | apply good_bytes | apply good_mk); first | assumption | apply good_State_modFn | apply good_runEmb | apply good_State_modOp | refine okL_eq (by assumption) ?_ | exact okL_of (by assumption) | apply okL_fst) | intro _ | (extract_lets +onlyGivenNames x; first | (apply good_cut (s := x); rotate_left; clear_value x; rotate_left; subst x) | (apply okL_cut (p := x); rotate_left; clear_value x; rotate_left; subst x) | (have hf := is_fun x; clear hf; subst x) | clear_value x | subst x) | split | apply okL_mk)

theorem good_settleGo (fuel : ℕ) (s : State) (f : ℕ) (h_s : s.Good) :
    (settleGo fuel s f).Good := by
  unfold settleGo
  repeat' (with_reducible first | assumption | apply good_loop | apply good_State_settleOne | apply okL_fst | apply okL_mk)

theorem good_effArm (e : Entry) (trig : Trigger) (emb : Embed) (f : ℕ) (id : ℕ) (s : State) (h_s : s.Good) :
    (effArm e trig emb f id s).Good := by
  unfold effArm
  repeat' (with_reducible first | assumption | apply good_State_endOp | apply good_State_checked | apply good_State_withHost | apply good_State_modFn | apply good_State_modOp | apply good_State_fire | apply good_State_postRecv | apply good_ite | ((first | apply good_bytes | apply good_mk); first | assumption | apply good_State_endOp | apply good_State_checked | apply good_State_withHost | apply good_State_modFn | apply good_State_modOp | apply good_State_fire | apply good_State_postRecv | apply good_ite) | intro _ | (extract_lets +onlyGivenNames x; first | (apply good_cut (s := x); rotate_left; clear_value x; rotate_left; subst x) | (have hf := is_fun x; clear hf; subst x) | clear_value x | subst x) | split)

theorem good_effArmCancel (tag : BitVec 32) (f : ℕ) (id : ℕ) (s : State) (h_s : s.Good) :
    (effArmCancel tag f id s).Good := by
  unfold effArmCancel
  repeat' (with_reducible first | assumption | apply good_State_fire | apply good_State_modFn | apply good_State_endOp | apply good_foldl | ((first | apply good_bytes | apply good_mk); first | assumption | apply good_State_fire | apply good_State_modFn | apply good_State_endOp | apply good_foldl) | intro _ | (extract_lets +onlyGivenNames x; first | (apply good_cut (s := x); rotate_left; clear_value x; rotate_left; subst x) | (have hf := is_fun x; clear hf; subst x) | clear_value x | subst x) | split)

theorem good_State_notify (s : State) (f : ℕ) (k : ℕ) (i : ℕ) (imm : BitVec 32) (len : ℕ) (h_s : s.Good) :
    (State.notify s f k i imm len).Good := by
  unfold State.notify
  repeat' (with_reducible first | assumption | apply good_State_modFn | apply good_State_complete | apply good_ite | ((first | apply good_bytes | apply good_mk); first | assumption | apply good_State_modFn | apply good_State_complete | apply good_ite) | intro _ | split)

theorem good_State_boundTally (s : State) (f : ℕ) (t : Option ℕ) (h_s : s.Good) :
    (State.boundTally s f t).Good := by
  unfold State.boundTally
  repeat' (with_reducible first | assumption | apply good_State_tallyAdd | intro _ | split)

theorem good_State_serveAtomic (s : State) (f : ℕ) (h : ℕ) (i : ℕ) (msn : ℕ) (op : ℕ) (roff : ℕ) (o1 : Word) (o2 : Word) (h_s : s.Good) :
    (State.serveAtomic s f h i msn op roff o1 o2).Good := by
  unfold State.serveAtomic
  repeat' (with_reducible first | assumption | apply good_State_sendNak | apply good_State_placeDone | apply good_State_sliceWrite | apply good_State_fillLine | apply good_State_hostWrite | apply good_State_queueMsg | apply good_ite | apply good_write | apply good_touchWrite | ((first | apply good_bytes | apply good_mk); first | assumption | apply good_State_sendNak | apply good_State_placeDone | apply good_State_sliceWrite | apply good_State_fillLine | apply good_State_hostWrite | apply good_State_queueMsg | apply good_ite | apply good_write | apply good_touchWrite) | intro _ | (extract_lets +onlyGivenNames x; first | (apply good_cut (s := x); rotate_left; clear_value x; rotate_left; subst x) | (have hf := is_mem x; clear hf; subst x) | (have hf := is_cells x; clear hf; subst x) | clear_value x | subst x) | split)

theorem good_State_matchMsg (s : State) (f : ℕ) (list : ℕ) (u : Unexp) (h_s : s.Good) :
    (State.matchMsg s f list u).Good := by
  unfold State.matchMsg
  repeat' (with_reducible first | assumption | apply good_State_sendNak | apply good_State_modMlist | apply good_State_parkOp | apply good_State_deliver | apply good_State_bump | apply good_ite | ((first | apply good_bytes | apply good_mk); first | assumption | apply good_State_sendNak | apply good_State_modMlist | apply good_State_parkOp | apply good_State_deliver | apply good_State_bump | apply good_ite) | intro _ | (extract_lets +onlyGivenNames x; first | (apply good_cut (s := x); rotate_left; clear_value x; rotate_left; subst x) | (have hf := is_fun x; clear hf; subst x) | clear_value x | subst x) | split)

theorem good_State_listOne (f : ℕ) (list : ℕ) (s : State) (x_u : Unit) (h_s : s.Good) :
    OkL (State.listOne f list s x_u) := by
  unfold State.listOne
  repeat' (with_reducible first | assumption | apply good_State_matchMsg | apply good_State_modMlist | apply good_ite | apply good_foldl | apply okL_foldl | apply okL_ite | refine okL_eq (by assumption) ?_ | exact okL_of (by assumption) | apply okL_fst | ((first | apply good_bytes | apply good_mk); first | assumption | apply good_State_matchMsg | apply good_State_modMlist | apply good_ite | apply good_foldl | apply okL_foldl | apply okL_ite | refine okL_eq (by assumption) ?_ | exact okL_of (by assumption) | apply okL_fst) | intro _ | split | apply okL_mk)

theorem good_State_listGo (s : State) (f : ℕ) (list : ℕ) (h_s : s.Good) :
    (State.listGo s f list).Good := by
  unfold State.listGo
  repeat' (with_reducible first | assumption | apply good_loop | apply good_State_listOne | refine okL_eq (by assumption) ?_ | exact okL_of (by assumption) | apply okL_fst | intro _ | split | apply okL_mk)

theorem good_State_toList (s : State) (f : ℕ) (h : ℕ) (m : InMsg) (list : ℕ) (rdv : Bool) (tag : Word) (len : ℕ) (h_s : s.Good) :
    (State.toList s f h m list rdv tag len).Good := by
  unfold State.toList
  repeat' (with_reducible first | assumption | apply good_State_sendNak | apply good_State_listGo | apply good_State_modMlist | apply good_foldl | ((first | apply good_bytes | apply good_mk); first | assumption | apply good_State_sendNak | apply good_State_listGo | apply good_State_modMlist | apply good_foldl) | intro _ | (extract_lets +onlyGivenNames x; first | (apply good_cut (s := x); rotate_left; clear_value x; rotate_left; subst x) | (have hf := is_fun x; clear hf; subst x) | clear_value x | subst x) | split)

theorem good_State_serveRdv (s : State) (f : ℕ) (h : ℕ) (rq : ℕ) (req : ℕ) (moff : ℕ) (len : ℕ) (h_s : s.Good) :
    (State.serveRdv s f h rq req moff len).Good := by
  unfold State.serveRdv
  repeat' (with_reducible first | assumption | apply good_State_progStatus | apply good_State_queueMsg | apply good_State_endOp | apply good_ite | intro _ | (extract_lets +onlyGivenNames x; first | (apply good_cut (s := x); rotate_left; clear_value x; rotate_left; subst x) | (have hf := is_fun x; clear hf; subst x) | (have hf := is_mem x; clear hf; subst x) | (have hf := is_cells x; clear hf; subst x) | clear_value x | subst x) | split)

theorem good_State_passP2p (s : State) (f : ℕ) (h : ℕ) (m : InMsg) (h_s : s.Good) :
    (State.passP2p s f h m).Good := by
  unfold State.passP2p
  repeat' (with_reducible first | assumption | apply good_State_sendNak | apply good_State_boundTally | apply good_State_notify | apply good_State_queueMsg | apply good_State_serveAtomic | apply good_State_toList | apply good_State_serveRdv | apply good_ite | intro _ | (extract_lets +onlyGivenNames x; first | (apply good_cut (s := x); rotate_left; clear_value x; rotate_left; subst x) | (have hf := is_mem x; clear hf; subst x) | clear_value x | subst x) | split)

theorem good_State_listsGo (s : State) (f : ℕ) (h_s : s.Good) :
    (State.listsGo s f).Good := by
  unfold State.listsGo
  repeat' (with_reducible first | assumption | apply good_State_listGo | apply good_ite | apply good_foldl | intro _ | split)

theorem good_State_settle (s : State) (h_s : s.Good) :
    (State.settle s).Good := by
  unfold State.settle
  repeat' (with_reducible first | assumption | apply good_State_listsGo | apply good_settleGo | apply good_ite | apply good_foldl | intro _ | (extract_lets +onlyGivenNames x; first | (apply good_cut (s := x); rotate_left; clear_value x; rotate_left; subst x) | (have hf := is_fun x; clear hf; subst x) | clear_value x | subst x) | split)

theorem good_execTallyAdd (e : Entry) (tally : ℕ) (value : Word) (s : State) (h_s : s.Good) :
    OkOut (execTallyAdd e tally value s) := by
  unfold execTallyAdd
  repeat' (with_reducible first | assumption | apply good_State_settle | apply good_State_startEntry | apply good_effTallyAdd | apply okOut_next)

theorem good_execTallySet (e : Entry) (tally : ℕ) (value : Word) (s : State) (h_s : s.Good) :
    OkOut (execTallySet e tally value s) := by
  unfold execTallySet
  repeat' (with_reducible first | assumption | apply good_State_settle | apply good_State_startEntry | apply good_effTallySet | apply okOut_next)

theorem good_execArm (e : Entry) (trig : Trigger) (emb : Embed) (s : State) (h_s : s.Good) :
    OkOut (execArm e trig emb s) := by
  unfold execArm
  repeat' (with_reducible first | assumption | apply good_State_settle | apply good_State_startEntry | apply good_effArm | apply okOut_next | intro _)

theorem good_execArmCancel (e : Entry) (tag : BitVec 32) (s : State) (h_s : s.Good) :
    OkOut (execArmCancel e tag s) := by
  unfold execArmCancel
  repeat' (with_reducible first | assumption | apply good_State_settle | apply good_State_startEntry | apply good_effArmCancel | apply okOut_next)

theorem good_execArmedTimeFire (fn : Fn) (ring : ℕ) (tag : BitVec 32) (now : ℕ) (s : State) (h_s : s.Good) :
    OkOut (execArmedTimeFire fn ring tag now s) := by
  unfold execArmedTimeFire
  repeat' (with_reducible first | assumption | apply good_State_tick | apply good_State_settle | apply good_State_fire | apply okOut_next | intro _ | (extract_lets +onlyGivenNames x; first | (apply good_cut (s := x); rotate_left; clear_value x; rotate_left; subst x) | (have hf := is_fun x; clear hf; subst x) | clear_value x | subst x) | split)

end Sys2Proof.Machine
end

