-- ==== Sys2Proof/Laws/GoodSched.lean ====
section
/-!
SUPPORT. GoodSched.lean: every operation and meaning of Sched.lean keeps the canonical form of memory.
-/

namespace Sys2Proof.Machine

set_option linter.all false

theorem good_State_modClsq (s : State) (k : ℕ) (g : ClsQ → ClsQ) (h_s : s.Good) :
    (State.modClsq s k g).Good := by
  unfold State.modClsq
  repeat' (with_reducible first | assumption | ((first | apply good_bytes | apply good_mk); first | assumption))

theorem good_State_chargeQ (s : State) (q : ℕ) (k : ℕ) (p : ℕ) (c : ℕ) (l : ℕ) (h_s : s.Good) :
    (State.chargeQ s q k p c l).Good := by
  unfold State.chargeQ
  repeat' (with_reducible first | assumption | apply good_State_modClsq | apply good_ite | ((first | apply good_bytes | apply good_mk); first | assumption | apply good_State_modClsq | apply good_ite) | intro _ | (extract_lets +onlyGivenNames x; first | (apply good_cut (s := x); rotate_left; clear_value x; rotate_left; subst x) | (have hf := is_fun x; clear hf; subst x) | clear_value x | subst x) | split)

theorem good_State_stopClock (s : State) (f : ℕ) (h : ℕ) (h_s : s.Good) :
    (State.stopClock s f h).Good := by
  unfold State.stopClock
  repeat' (with_reducible first | assumption | apply good_State_modConn | ((first | apply good_bytes | apply good_mk); first | assumption | apply good_State_modConn) | intro _ | split)

theorem good_State_stopClocks (s : State) (f : ℕ) (h_s : s.Good) :
    (State.stopClocks s f).Good := by
  unfold State.stopClocks
  repeat' (with_reducible first | assumption | apply good_State_stopClock | apply good_ite | apply good_foldl | intro _ | split)

theorem good_State_enqueue (s : State) (q : ℕ) (e : FifoPkt) (h_s : s.Good) :
    (State.enqueue s q e).Good := by
  unfold State.enqueue
  repeat' (with_reducible first | assumption | apply good_State_modPort | ((first | apply good_bytes | apply good_mk); first | assumption | apply good_State_modPort) | intro _ | (extract_lets +onlyGivenNames x; first | (apply good_cut (s := x); rotate_left; clear_value x; rotate_left; subst x) | (have hf := is_fun x; clear hf; subst x) | clear_value x | subst x))

theorem good_State_modFeed (s : State) (f : ℕ) (id : ℕ) (g : Feed → Feed) (h_s : s.Good) :
    (State.modFeed s f id g).Good := by
  unfold State.modFeed
  repeat' (with_reducible first | assumption | apply good_State_modFn | ((first | apply good_bytes | apply good_mk); first | assumption | apply good_State_modFn) | intro _ | split)

theorem good_State_feedEnd (s : State) (f : ℕ) (id : ℕ) (h_s : s.Good) :
    (State.feedEnd s f id).Good := by
  unfold State.feedEnd
  repeat' (with_reducible first | assumption | apply good_State_endOp | apply good_State_modFn | ((first | apply good_bytes | apply good_mk); first | assumption | apply good_State_endOp | apply good_State_modFn) | intro _ | split)

theorem good_State_feedBlock (s : State) (f : ℕ) (h : ℕ) (id : ℕ) (msn : ℕ) (st : Status) (bad : optParam (Option ℕ) none) (h_s : s.Good) :
    (State.feedBlock s f h id msn st bad).Good := by
  unfold State.feedBlock
  repeat' (with_reducible first | assumption | apply good_State_modConn | apply good_State_modFeed | apply good_State_feedEnd | apply good_ite | ((first | apply good_bytes | apply good_mk); first | assumption | apply good_State_modConn | apply good_State_modFeed | apply good_State_feedEnd | apply good_ite) | intro _ | (extract_lets +onlyGivenNames x; first | (apply good_cut (s := x); rotate_left; clear_value x; rotate_left; subst x) | (have hf := is_fun x; clear hf; subst x) | (have hf := is_cells x; clear hf; subst x) | clear_value x | subst x) | split)

theorem good_State_failSrc (s : State) (f : ℕ) (h : ℕ) (m : MsgFor) (msn : ℕ) (st : Status) (addr : ℕ) (numbered : optParam Bool false) (h_s : s.Good) :
    (State.failSrc s f h m msn st addr numbered).Good := by
  unfold State.failSrc
  repeat' (with_reducible first | assumption | apply good_State_abandonMsg | apply good_State_modConn | apply good_State_endOp | apply good_State_feedBlock | apply good_State_serveDone | apply good_State_progStatus | apply good_ite | ((first | apply good_bytes | apply good_mk); first | assumption | apply good_State_abandonMsg | apply good_State_modConn | apply good_State_endOp | apply good_State_feedBlock | apply good_State_serveDone | apply good_State_progStatus | apply good_ite) | intro _ | (extract_lets +onlyGivenNames x; first | (apply good_cut (s := x); rotate_left; clear_value x; rotate_left; subst x) | (have hf := is_fun x; clear hf; subst x) | clear_value x | subst x) | split)

theorem good_State_issueRead (s : State) (f : ℕ) (addr : ℕ) (len : ℕ) (q : ℕ) (fifo : ℕ) (h_s : s.Good) :
    (State.issueRead s f addr len q fifo).Good := by
  unfold State.issueRead
  repeat' (with_reducible first | assumption | apply good_State_emit | apply good_State_modLink | apply good_State_hostReadFill | ((first | apply good_bytes | apply good_mk); first | assumption | apply good_State_emit | apply good_State_modLink | apply good_State_hostReadFill) | intro _ | (extract_lets +onlyGivenNames x; first | (apply good_cut (s := x); rotate_left; clear_value x; rotate_left; subst x) | (have hf := is_fun x; clear hf; subst x) | clear_value x | subst x))

theorem good_State_markReduced (s : State) (f : ℕ) (h : ℕ) (m : MsgFor) (h_s : s.Good) :
    (State.markReduced s f h m).Good := by
  unfold State.markReduced
  repeat' (with_reducible first | assumption | apply good_State_modOp | apply good_ite | ((first | apply good_bytes | apply good_mk); first | assumption | apply good_State_modOp | apply good_ite) | intro _ | (extract_lets +onlyGivenNames x; first | (apply good_cut (s := x); rotate_left; clear_value x; rotate_left; subst x) | (have hf := is_fun x; clear hf; subst x) | clear_value x | subst x) | split)

theorem good_State_sendData (s : State) (f : ℕ) (h : ℕ) (q : ℕ) (x : Sent) (off : ℕ) (h_s : s.Good) :
    (State.sendData s f h q x off).Good := by
  unfold State.sendData
  repeat' (with_reducible first | assumption | apply good_State_stopClock | apply good_State_takeCtr | apply good_State_markReduced | apply good_State_enqueue | apply good_State_sliceUse | apply good_State_issueRead | apply good_ite | apply good_foldl | ((first | apply good_bytes | apply good_mk); first | assumption | apply good_State_stopClock | apply good_State_takeCtr | apply good_State_markReduced | apply good_State_enqueue | apply good_State_sliceUse | apply good_State_issueRead | apply good_ite | apply good_foldl) | intro _ | (extract_lets +onlyGivenNames x; first | (apply good_cut (s := x); rotate_left; clear_value x; rotate_left; subst x) | (have hf := is_fun x; clear hf; subst x) | (have hf := is_mem x; clear hf; subst x) | (have hf := is_cells x; clear hf; subst x) | clear_value x | subst x) | split)

theorem good_State_selectConn (s : State) (f : ℕ) (q : ℕ) (k : Cand) (h_s : s.Good) :
    OkL (State.selectConn s f q k) := by
  unfold State.selectConn
  repeat' (with_reducible first | assumption | apply good_State_askXlate | apply good_State_failSrc | apply good_State_modConn | apply good_State_sendData | apply good_ite | apply okL_ite | refine okL_eq (by assumption) ?_ | exact okL_of (by assumption) | apply okL_fst | ((first | apply good_bytes | apply good_mk); first | assumption | apply good_State_askXlate | apply good_State_failSrc | apply good_State_modConn | apply good_State_sendData | apply good_ite | apply okL_ite | refine okL_eq (by assumption) ?_ | exact okL_of (by assumption) | apply okL_fst) | intro _ | (extract_lets +onlyGivenNames x; first | (apply good_cut (s := x); rotate_left; clear_value x; rotate_left; subst x) | (apply okL_cut (p := x); rotate_left; clear_value x; rotate_left; subst x) | (have hf := is_fun x; clear hf; subst x) | clear_value x | subst x) | split | apply okL_mk)

theorem good_State_selectRaw (s : State) (q : ℕ) (r : RawPkt) (h_s : s.Good) :
    (State.selectRaw s q r).Good := by
  unfold State.selectRaw
  repeat' (with_reducible first | assumption | apply good_State_modPort | apply good_State_enqueue | ((first | apply good_bytes | apply good_mk); first | assumption | apply good_State_modPort | apply good_State_enqueue) | intro _ | (extract_lets +onlyGivenNames x; first | (apply good_cut (s := x); rotate_left; clear_value x; rotate_left; subst x) | (have hf := is_fun x; clear hf; subst x) | (have hf := is_cells x; clear hf; subst x) | clear_value x | subst x))

theorem good_State_selectPick (s : State) (q : ℕ) (p : ℕ) (c : ℕ) (k : Pick) (h_s : s.Good) :
    OkL (State.selectPick s q p c k) := by
  unfold State.selectPick
  repeat' (with_reducible first | assumption | apply good_State_chargeQ | apply good_State_selectRaw | apply good_State_selectConn | apply good_State_modClsq | refine okL_eq (by assumption) ?_ | exact okL_of (by assumption) | apply okL_fst | ((first | apply good_bytes | apply good_mk); first | assumption | apply good_State_chargeQ | apply good_State_selectRaw | apply good_State_selectConn | apply good_State_modClsq | refine okL_eq (by assumption) ?_ | exact okL_of (by assumption) | apply okL_fst) | intro _ | (extract_lets +onlyGivenNames x; first | (apply good_cut (s := x); rotate_left; clear_value x; rotate_left; subst x) | (apply okL_cut (p := x); rotate_left; clear_value x; rotate_left; subst x) | (have hf := is_fun x; clear hf; subst x) | (have hf := is_cells x; clear hf; subst x) | clear_value x | subst x) | split | apply okL_mk)

theorem good_State_refreshQueues (s : State) (q : ℕ) (h_s : s.Good) :
    (State.refreshQueues s q).Good := by
  unfold State.refreshQueues
  repeat' (with_reducible first | assumption | apply good_State_modClsq | apply good_ite | apply good_foldl | ((first | apply good_bytes | apply good_mk); first | assumption | apply good_State_modClsq | apply good_ite | apply good_foldl) | intro _ | split)

theorem good_State_turnTaken (s : State) (q : ℕ) (t : Turn) (h_s : s.Good) :
    (State.turnTaken s q t).Good := by
  unfold State.turnTaken
  repeat' (with_reducible first | assumption | apply good_State_modPort | ((first | apply good_bytes | apply good_mk); first | assumption | apply good_State_modPort) | intro _ | split)

theorem good_selectGo (fuel : ℕ) (s : State) (q : ℕ) (skip : List (ℕ × ℕ)) (h_s : s.Good) :
    (selectGo fuel s q skip).Good := by
  induction fuel generalizing s q skip h_s with
  | zero => rw [selectGo.eq_1]; repeat' (with_reducible first | assumption | apply good_State_selectPick | apply good_State_turnTaken | refine okL_eq (by assumption) ?_ | exact okL_of (by assumption) | apply okL_fst | intro _ | split | apply okL_mk)
  | succ n ih => rw [selectGo.eq_2]; repeat' (with_reducible first | assumption | apply good_State_selectPick | apply good_State_turnTaken | apply ih | refine okL_eq (by assumption) ?_ | exact okL_of (by assumption) | apply okL_fst | intro _ | split | apply okL_mk)

theorem good_ctlGo (fuel : ℕ) (s : State) (q : ℕ) (h_s : s.Good) :
    OkL (ctlGo fuel s q) := by
  induction fuel generalizing s q h_s with
  | zero => rw [ctlGo.eq_1]; repeat' (with_reducible first | assumption | apply good_State_modPort | apply good_State_enqueue | apply good_State_ctlTaken | apply good_ite | apply good_foldl | apply okL_foldl | apply okL_ite | refine okL_eq (by assumption) ?_ | exact okL_of (by assumption) | apply okL_fst | apply good_write | apply good_touchWrite | ((first | apply good_bytes | apply good_mk); first | assumption | apply good_State_modPort | apply good_State_enqueue | apply good_State_ctlTaken | apply good_ite | apply good_foldl | apply okL_foldl | apply okL_ite | refine okL_eq (by assumption) ?_ | exact okL_of (by assumption) | apply okL_fst | apply good_write | apply good_touchWrite) | intro _ | (extract_lets +onlyGivenNames x; first | (apply good_cut (s := x); rotate_left; clear_value x; rotate_left; subst x) | (apply okL_cut (p := x); rotate_left; clear_value x; rotate_left; subst x) | (have hf := is_fun x; clear hf; subst x) | (have hf := is_mem x; clear hf; subst x) | (have hf := is_cells x; clear hf; subst x) | clear_value x | subst x) | split | apply okL_mk)
  | succ n ih => rw [ctlGo.eq_2]; repeat' (with_reducible first | assumption | apply good_State_modPort | apply good_State_enqueue | apply good_State_ctlTaken | apply ih | apply good_ite | apply good_foldl | apply okL_foldl | apply okL_ite | refine okL_eq (by assumption) ?_ | exact okL_of (by assumption) | apply okL_fst | apply good_write | apply good_touchWrite | ((first | apply good_bytes | apply good_mk); first | assumption | apply good_State_modPort | apply good_State_enqueue | apply good_State_ctlTaken | apply ih | apply good_ite | apply good_foldl | apply okL_foldl | apply okL_ite | refine okL_eq (by assumption) ?_ | exact okL_of (by assumption) | apply okL_fst | apply good_write | apply good_touchWrite) | intro _ | (extract_lets +onlyGivenNames x; first | (apply good_cut (s := x); rotate_left; clear_value x; rotate_left; subst x) | (apply okL_cut (p := x); rotate_left; clear_value x; rotate_left; subst x) | (have hf := is_fun x; clear hf; subst x) | (have hf := is_mem x; clear hf; subst x) | (have hf := is_cells x; clear hf; subst x) | clear_value x | subst x) | split | apply okL_mk)

theorem good_State_packetSelect (s : State) (q : ℕ) (h_s : s.Good) :
    (State.packetSelect s q).Good := by
  unfold State.packetSelect
  repeat' (with_reducible first | assumption | apply good_State_refreshQueues | apply good_State_modPort | apply good_ctlGo | apply good_selectGo | apply good_ite | apply good_foldl | apply okL_foldl | apply okL_ite | refine okL_eq (by assumption) ?_ | exact okL_of (by assumption) | apply okL_fst | ((first | apply good_bytes | apply good_mk); first | assumption | apply good_State_refreshQueues | apply good_State_modPort | apply good_ctlGo | apply good_selectGo | apply good_ite | apply good_foldl | apply okL_foldl | apply okL_ite | refine okL_eq (by assumption) ?_ | exact okL_of (by assumption) | apply okL_fst) | intro _ | (extract_lets +onlyGivenNames x; first | (apply good_cut (s := x); rotate_left; clear_value x; rotate_left; subst x) | (apply okL_cut (p := x); rotate_left; clear_value x; rotate_left; subst x) | (have hf := is_fun x; clear hf; subst x) | clear_value x | subst x) | split | apply okL_mk)

theorem good_execQueueEscalationTimer (port : Fin 8) (part : Fin 16) (cls : ℕ) (now : ℕ) (s : State) (h_s : s.Good) :
    OkOut (execQueueEscalationTimer port part cls now s) := by
  unfold execQueueEscalationTimer
  repeat' (with_reducible first | assumption | apply good_State_refreshQueues | apply good_State_tick | apply good_State_modClsq | apply good_ite | apply okOut_next | apply okOut_ite | ((first | apply good_bytes | apply good_mk); first | assumption | apply good_State_refreshQueues | apply good_State_tick | apply good_State_modClsq | apply good_ite | apply okOut_next | apply okOut_ite) | intro _ | (extract_lets +onlyGivenNames x; first | (apply good_cut (s := x); rotate_left; clear_value x; rotate_left; subst x) | (have hf := is_fun x; clear hf; subst x) | clear_value x | subst x) | split)

theorem good_State_noteSent (s : State) (e : FifoPkt) (p : Pkt) (h_s : s.Good) :
    (State.noteSent s e p).Good := by
  unfold State.noteSent
  repeat' (with_reducible first | assumption | apply good_State_modConn | apply good_ite | ((first | apply good_bytes | apply good_mk); first | assumption | apply good_State_modConn | apply good_ite) | intro _ | split)

theorem good_State_transmit (s : State) (q : ℕ) (k : ℕ) (h_s : s.Good) :
    (State.transmit s q k).Good := by
  unfold State.transmit
  repeat' (with_reducible first | assumption | apply good_State_modPort | apply good_State_modBp | apply good_State_emit | apply good_State_noteSent | apply good_State_endOp | apply good_ite | apply good_foldl | ((first | apply good_bytes | apply good_mk); first | assumption | apply good_State_modPort | apply good_State_modBp | apply good_State_emit | apply good_State_noteSent | apply good_State_endOp | apply good_ite | apply good_foldl) | intro _ | (extract_lets +onlyGivenNames x; first | (apply good_cut (s := x); rotate_left; clear_value x; rotate_left; subst x) | (have hf := is_fun x; clear hf; subst x) | (have hf := is_cells x; clear hf; subst x) | clear_value x | subst x) | split)

theorem good_execFrameTransmit (port : Fin 8) (bp : ℕ) (now : ℕ) (s : State) (h_s : s.Good) :
    OkOut (execFrameTransmit port bp now s) := by
  unfold execFrameTransmit
  repeat' (with_reducible first | assumption | apply good_State_transmit | apply good_State_tick | apply okOut_next)

theorem good_effGateLoad (e : Entry) (port : ℕ) (count : ℕ) (addr : ℕ) (start : ℕ) (f : ℕ) (id : ℕ) (s : State) (h_s : s.Good) :
    (effGateLoad e port count addr start f id s).Good := by
  unfold effGateLoad
  repeat' (with_reducible first | assumption | apply good_State_checked | apply good_State_readHostFor | apply good_State_endOp | apply good_State_modPort | ((first | apply good_bytes | apply good_mk); first | assumption | apply good_State_checked | apply good_State_readHostFor | apply good_State_endOp | apply good_State_modPort) | intro _ | (extract_lets +onlyGivenNames x; first | (apply good_cut (s := x); rotate_left; clear_value x; rotate_left; subst x) | (have hf := is_fun x; clear hf; subst x) | clear_value x | subst x) | split)

theorem good_execGateLoad (e : Entry) (port : ℕ) (count : ℕ) (addr : ℕ) (start : ℕ) (s : State) (h_s : s.Good) :
    OkOut (execGateLoad e port count addr start s) := by
  unfold execGateLoad
  repeat' (with_reducible first | assumption | apply good_State_startEntry | apply good_effGateLoad | apply okOut_next)

theorem good_State_gateTakeover (s : State) (q : ℕ) (h_s : s.Good) :
    (State.gateTakeover s q).Good := by
  unfold State.gateTakeover
  repeat' (with_reducible first | assumption | apply good_State_modPort | apply good_State_endOp | apply good_ite | ((first | apply good_bytes | apply good_mk); first | assumption | apply good_State_modPort | apply good_State_endOp | apply good_ite) | intro _ | (extract_lets +onlyGivenNames x; first | (apply good_cut (s := x); rotate_left; clear_value x; rotate_left; subst x) | (have hf := is_fun x; clear hf; subst x) | clear_value x | subst x) | split)

theorem good_execGateTakeover (port : Fin 8) (now : ℕ) (s : State) (h_s : s.Good) :
    OkOut (execGateTakeover port now s) := by
  unfold execGateTakeover
  repeat' (with_reducible first | assumption | apply good_State_gateTakeover | apply good_State_tick | apply okOut_next)

theorem good_execGateEntryAdvance (port : Fin 8) (now : ℕ) (s : State) (h_s : s.Good) :
    OkOut (execGateEntryAdvance port now s) := by
  unfold execGateEntryAdvance
  repeat' (with_reducible first | assumption | apply good_State_tick | apply good_State_modPort | apply good_ite | apply okOut_next | apply okOut_ite | ((first | apply good_bytes | apply good_mk); first | assumption | apply good_State_tick | apply good_State_modPort | apply good_ite | apply okOut_next | apply okOut_ite) | intro _ | (extract_lets +onlyGivenNames x; first | (apply good_cut (s := x); rotate_left; clear_value x; rotate_left; subst x) | (have hf := is_fun x; clear hf; subst x) | clear_value x | subst x) | split)

theorem good_effQStop (scope : ℕ) (arg : ℕ) (f : ℕ) (id : ℕ) (s : State) (h_s : s.Good) :
    (effQStop scope arg f id s).Good := by
  unfold effQStop
  repeat' (with_reducible first | assumption | apply good_State_checked | apply good_State_modFn | apply good_State_endOp | apply good_State_stopClocks | apply good_ite | ((first | apply good_bytes | apply good_mk); first | assumption | apply good_State_checked | apply good_State_modFn | apply good_State_endOp | apply good_State_stopClocks | apply good_ite) | intro _ | (extract_lets +onlyGivenNames x; first | (apply good_cut (s := x); rotate_left; clear_value x; rotate_left; subst x) | (have hf := is_fun x; clear hf; subst x) | clear_value x | subst x) | split)

theorem good_execQStop (e : Entry) (scope : ℕ) (arg : ℕ) (s : State) (h_s : s.Good) :
    OkOut (execQStop e scope arg s) := by
  unfold execQStop
  repeat' (with_reducible first | assumption | apply good_State_startEntry | apply good_effQStop | apply okOut_next)

theorem good_effQStart (scope : ℕ) (arg : ℕ) (f : ℕ) (id : ℕ) (s : State) (h_s : s.Good) :
    (effQStart scope arg f id s).Good := by
  unfold effQStart
  repeat' (with_reducible first | assumption | apply good_State_checked | apply good_State_endOp | apply good_State_stopClocks | apply good_State_modFn | apply good_ite | ((first | apply good_bytes | apply good_mk); first | assumption | apply good_State_checked | apply good_State_endOp | apply good_State_stopClocks | apply good_State_modFn | apply good_ite) | intro _ | split)

theorem good_execQStart (e : Entry) (scope : ℕ) (arg : ℕ) (s : State) (h_s : s.Good) :
    OkOut (execQStart e scope arg s) := by
  unfold execQStart
  repeat' (with_reducible first | assumption | apply good_State_startEntry | apply good_effQStart | apply okOut_next)

theorem good_effQSample (addr : ℕ) (f : ℕ) (id : ℕ) (s : State) (h_s : s.Good) :
    (effQSample addr f id s).Good := by
  unfold effQSample
  repeat' (with_reducible first | assumption | apply good_State_withHost | apply good_State_modClsq | apply good_State_writeRecord | apply good_ite | apply good_foldl | apply good_write | apply good_touchWrite | ((first | apply good_bytes | apply good_mk); first | assumption | apply good_State_withHost | apply good_State_modClsq | apply good_State_writeRecord | apply good_ite | apply good_foldl | apply good_write | apply good_touchWrite) | intro _ | (extract_lets +onlyGivenNames x; first | (apply good_cut (s := x); rotate_left; clear_value x; rotate_left; subst x) | (have hf := is_fun x; clear hf; subst x) | clear_value x | subst x) | split)

theorem good_execQSample (e : Entry) (addr : ℕ) (s : State) (h_s : s.Good) :
    OkOut (execQSample e addr s) := by
  unfold execQSample
  repeat' (with_reducible first | assumption | apply good_State_startEntry | apply good_effQSample | apply okOut_next)

theorem good_State_sampleAll (s : State) (h_s : s.Good) :
    (State.sampleAll s).Good := by
  unfold State.sampleAll
  repeat' (with_reducible first | assumption | apply good_State_refreshQueues | apply good_State_modClsq | apply good_ite | apply good_foldl | ((first | apply good_bytes | apply good_mk); first | assumption | apply good_State_refreshQueues | apply good_State_modClsq | apply good_ite | apply good_foldl) | intro _ | (extract_lets +onlyGivenNames x; first | (apply good_cut (s := x); rotate_left; clear_value x; rotate_left; subst x) | (have hf := is_fun x; clear hf; subst x) | clear_value x | subst x) | split)

theorem good_execQueueSampleTimer (now : ℕ) (s : State) (h_s : s.Good) :
    OkOut (execQueueSampleTimer now s) := by
  unfold execQueueSampleTimer
  repeat' (with_reducible first | assumption | apply good_State_sampleAll | apply good_State_tick | apply okOut_next)

theorem good_State_ingressTake (s : State) (q : ℕ) (cls : ℕ) (bytes : ℕ) (h_s : s.Good) :
    OkR (State.ingressTake s q cls bytes) := by
  unfold State.ingressTake
  repeat' (with_reducible first | assumption | apply good_State_modPort | apply good_ite | apply okR_ite | apply okR_snd | ((first | apply good_bytes | apply good_mk); first | assumption | apply good_State_modPort | apply good_ite | apply okR_ite | apply okR_snd) | intro _ | (extract_lets +onlyGivenNames x; first | (apply good_cut (s := x); rotate_left; clear_value x; rotate_left; subst x) | (apply okR_cut (p := x); rotate_left; clear_value x; rotate_left; subst x) | (have hf := is_fun x; clear hf; subst x) | (have hf := is_cells x; clear hf; subst x) | clear_value x | subst x) | split | apply okR_mk)

theorem good_State_grantClass (s : State) (f : ℕ) (num : ℕ) (den : ℕ) (c : ℕ) (mine : List (ℕ × ℕ × Conn)) (acc : State × ℕ) (h_s : s.Good) (h_acc : OkL (acc)) :
    OkL (State.grantClass s f num den c mine acc) := by
  unfold State.grantClass
  repeat' (with_reducible first | assumption | apply good_State_setGrant | apply good_ite | apply good_foldl | apply okL_foldl | apply okL_ite | apply okL_fst | ((first | apply good_bytes | apply good_mk); first | assumption | apply good_State_setGrant | apply good_ite | apply good_foldl | apply okL_foldl | apply okL_ite | apply okL_fst) | intro _ | (extract_lets +onlyGivenNames x; first | (apply good_cut (s := x); rotate_left; clear_value x; rotate_left; subst x) | (apply okL_cut (p := x); rotate_left; clear_value x; rotate_left; subst x) | (have hf := is_fun x; clear hf; subst x) | clear_value x | subst x) | split | apply okL_mk)

theorem good_State_grantPart (s : State) (pool : ℕ) (wsum : ℕ) (act : List (ℕ × ℕ × Conn)) (acc : State × ℕ) (f : ℕ) (h_s : s.Good) (h_acc : OkL (acc)) :
    OkL (State.grantPart s pool wsum act acc f) := by
  unfold State.grantPart
  repeat' (with_reducible first | assumption | apply good_State_grantClass | apply good_foldl | apply okL_foldl | apply okL_fst | intro _ | (extract_lets +onlyGivenNames x; first | (apply good_cut (s := x); rotate_left; clear_value x; rotate_left; subst x) | (apply okL_cut (p := x); rotate_left; clear_value x; rotate_left; subst x) | (have hf := is_fun x; clear hf; subst x) | clear_value x | subst x) | apply okL_mk)

theorem good_State_grantInterval (s : State) (h_s : s.Good) :
    (State.grantInterval s).Good := by
  unfold State.grantInterval
  repeat' (with_reducible first | assumption | apply good_State_grantPart | apply good_State_setGrant | apply good_ite | apply good_foldl | apply okL_foldl | apply okL_ite | apply okL_fst | ((first | apply good_bytes | apply good_mk); first | assumption | apply good_State_grantPart | apply good_State_setGrant | apply good_ite | apply good_foldl | apply okL_foldl | apply okL_ite | apply okL_fst) | intro _ | (extract_lets +onlyGivenNames x; first | (apply good_cut (s := x); rotate_left; clear_value x; rotate_left; subst x) | (apply okL_cut (p := x); rotate_left; clear_value x; rotate_left; subst x) | (have hf := is_fun x; clear hf; subst x) | clear_value x | subst x) | split | apply okL_mk)

theorem good_execGrantInterval (now : ℕ) (s : State) (h_s : s.Good) :
    OkOut (execGrantInterval now s) := by
  unfold execGrantInterval
  repeat' (with_reducible first | assumption | apply good_State_grantInterval | apply good_State_tick | apply okOut_next)

theorem good_execCreditChangeTimer (fn : Fn) (conn : ℕ) (now : ℕ) (s : State) (h_s : s.Good) :
    OkOut (execCreditChangeTimer fn conn now s) := by
  unfold execCreditChangeTimer
  repeat' (with_reducible first | assumption | apply good_State_tick | apply good_State_sendCredit | apply good_ite | apply okOut_next | apply okOut_ite | intro _ | (extract_lets +onlyGivenNames x; first | (apply good_cut (s := x); rotate_left; clear_value x; rotate_left; subst x) | clear_value x | subst x) | split)

theorem good_State_creditReq (s : State) (f : ℕ) (h : ℕ) (h_s : s.Good) :
    (State.creditReq s f h).Good := by
  unfold State.creditReq
  repeat' (with_reducible first | assumption | apply good_State_sendCtl | apply good_State_modConn | apply good_ite | ((first | apply good_bytes | apply good_mk); first | assumption | apply good_State_sendCtl | apply good_State_modConn | apply good_ite) | intro _ | (extract_lets +onlyGivenNames x; first | (apply good_cut (s := x); rotate_left; clear_value x; rotate_left; subst x) | (have hf := is_fun x; clear hf; subst x) | clear_value x | subst x) | split)

theorem good_execCreditReqTimer (fn : Fn) (conn : ℕ) (now : ℕ) (s : State) (h_s : s.Good) :
    OkOut (execCreditReqTimer fn conn now s) := by
  unfold execCreditReqTimer
  repeat' (with_reducible first | assumption | apply good_State_creditReq | apply good_State_tick | apply okOut_next)

end Sys2Proof.Machine
end

