-- ==== Sys2Proof/Laws/GoodTpf.lean ====
section
/-!
SUPPORT. GoodTpf.lean: every operation and meaning of Tpf.lean keeps the canonical form of memory.
-/

namespace Sys2Proof.Machine

set_option linter.all false

theorem good_State_modIbex (s : State) (b : ℕ) (g : IbexCnt → IbexCnt) (h_s : s.Good) :
    (State.modIbex s b g).Good := by
  unfold State.modIbex
  repeat' (with_reducible first | assumption | apply good_ite | ((first | apply good_bytes | apply good_mk); first | assumption | apply good_ite) | intro _ | split)

theorem good_State_countExc (s : State) (b : ℕ) (x : Exc) (h_s : s.Good) :
    (State.countExc s b x).Good := by
  unfold State.countExc
  repeat' (with_reducible first | assumption | apply good_State_modIbex | ((first | apply good_bytes | apply good_mk); first | assumption | apply good_State_modIbex) | intro _)

theorem good_State_stopLaunch (s : State) (f : ℕ) (li : ℕ) (h_s : s.Good) :
    (State.stopLaunch s f li).Good := by
  unfold State.stopLaunch
  repeat' (with_reducible first | assumption | apply good_State_modFn | apply good_State_modLaunch | apply good_ite | ((first | apply good_bytes | apply good_mk); first | assumption | apply good_State_modFn | apply good_State_modLaunch | apply good_ite) | intro _ | (extract_lets +onlyGivenNames x; first | (apply good_cut (s := x); rotate_left; clear_value x; rotate_left; subst x) | (have hf := is_fun x; clear hf; subst x) | clear_value x | subst x) | split)

theorem good_State_faultCopy (s : State) (f : ℕ) (li : ℕ) (ci : ℕ) (insn : ℕ) (st : Status) (h_s : s.Good) :
    (State.faultCopy s f li ci insn st).Good := by
  unfold State.faultCopy
  repeat' (with_reducible first | assumption | apply good_State_stopLaunch | apply good_State_modLaunch | apply good_ite | ((first | apply good_bytes | apply good_mk); first | assumption | apply good_State_stopLaunch | apply good_State_modLaunch | apply good_ite) | intro _ | (extract_lets +onlyGivenNames x; first | (apply good_cut (s := x); rotate_left; clear_value x; rotate_left; subst x) | (have hf := is_fun x; clear hf; subst x) | clear_value x | subst x) | split)

theorem good_State_tpf (s : State) (r : CopyRef) (op : ℕ) (act : Ctx → State → State) (h_s : s.Good) (h_act : ∀ x0 (t : State), t.Good → (act x0 t).Good) :
    (State.tpf s r op act).Good := by
  unfold State.tpf
  repeat' (with_reducible first | assumption | apply good_State_report | apply good_State_faultCopy | apply good_State_bump | apply h_act | apply good_ite | intro _ | (extract_lets +onlyGivenNames x; first | (apply good_cut (s := x); rotate_left; clear_value x; rotate_left; subst x) | clear_value x | subst x) | split)

theorem good_State_retire (s : State) (k : Ctx) (g : Copy → Copy) (h_s : s.Good) :
    (State.retire s k g).Good := by
  unfold State.retire
  repeat' (with_reducible first | assumption | apply good_State_modCopy | apply good_State_modLaunch | ((first | apply good_bytes | apply good_mk); first | assumption | apply good_State_modCopy | apply good_State_modLaunch) | intro _)

theorem good_State_hold (s : State) (k : Ctx) (h_s : s.Good) :
    (State.hold s k).Good := by
  unfold State.hold
  repeat' (with_reducible first | assumption | apply good_State_modCopy | ((first | apply good_bytes | apply good_mk); first | assumption | apply good_State_modCopy) | intro _)

theorem good_State_trap (s : State) (k : Ctx) (st : Status) (h_s : s.Good) :
    (State.trap s k st).Good := by
  unfold State.trap
  repeat' (with_reducible first | assumption | apply good_State_faultCopy)

theorem good_State_setX (s : State) (k : Ctx) (v : ℕ) (h_s : s.Good) :
    (State.setX s k v).Good := by
  unfold State.setX
  repeat' (with_reducible first | assumption | apply good_State_retire | ((first | apply good_bytes | apply good_mk); first | assumption | apply good_State_retire) | intro _)

theorem good_State_tilePut (s : State) (f : ℕ) (li : ℕ) (ci : ℕ) (d : TileDecl) (i : ℕ) (t : Tile) (h_s : s.Good) :
    (State.tilePut s f li ci d i t).Good := by
  unfold State.tilePut
  repeat' (with_reducible first | assumption | apply good_State_modCopy | apply good_State_bump | apply good_State_modConn | apply good_ite | apply good_foldl | ((first | apply good_bytes | apply good_mk); first | assumption | apply good_State_modCopy | apply good_State_bump | apply good_State_modConn | apply good_ite | apply good_foldl) | intro _ | (extract_lets +onlyGivenNames x; first | (apply good_cut (s := x); rotate_left; clear_value x; rotate_left; subst x) | (have hf := is_fun x; clear hf; subst x) | (have hf := is_cells x; clear hf; subst x) | clear_value x | subst x) | split)

theorem good_State_putTile (s : State) (k : Ctx) (i : ℕ) (t : Tile) (h_s : s.Good) :
    (State.putTile s k i t).Good := by
  unfold State.putTile
  repeat' (with_reducible first | assumption | apply good_State_tilePut)

theorem good_State_poisonCopy (s : State) (f : ℕ) (li : ℕ) (ci : ℕ) (h_s : s.Good) :
    (State.poisonCopy s f li ci).Good := by
  unfold State.poisonCopy
  repeat' (with_reducible first | assumption | apply good_State_bump | apply good_State_tilePut | intro _ | (extract_lets +onlyGivenNames x; first | (apply good_cut (s := x); rotate_left; clear_value x; rotate_left; subst x) | clear_value x | subst x) | split)

theorem good_State_tileDone (s : State) (k : Ctx) (t : Tile) (e : Exc) (h_s : s.Good) :
    (State.tileDone s k t e).Good := by
  unfold State.tileDone
  repeat' (with_reducible first | assumption | apply good_State_bump | apply good_State_retire | apply good_State_countExc | apply good_State_putTile | apply good_ite | ((first | apply good_bytes | apply good_mk); first | assumption | apply good_State_bump | apply good_State_retire | apply good_State_countExc | apply good_State_putTile | apply good_ite) | intro _ | (extract_lets +onlyGivenNames x; first | (apply good_cut (s := x); rotate_left; clear_value x; rotate_left; subst x) | (have hf := is_fun x; clear hf; subst x) | clear_value x | subst x) | split)

theorem good_execTpfNop (r : CopyRef) (s : State) (h_s : s.Good) :
    OkOut (execTpfNop r s) := by
  unfold execTpfNop
  repeat' (with_reducible first | assumption | apply good_State_tpf | apply good_State_retire | apply okOut_next | intro _)

theorem good_tpfEnd (k : Ctx) (s : State) (h_s : s.Good) :
    (tpfEnd k s).Good := by
  unfold tpfEnd
  repeat' (with_reducible first | assumption | apply good_State_hold | apply good_State_retire | apply good_State_modFn | apply good_State_modLaunch | apply good_ite | ((first | apply good_bytes | apply good_mk); first | assumption | apply good_State_hold | apply good_State_retire | apply good_State_modFn | apply good_State_modLaunch | apply good_ite) | intro _ | (extract_lets +onlyGivenNames x; first | (apply good_cut (s := x); rotate_left; clear_value x; rotate_left; subst x) | (have hf := is_fun x; clear hf; subst x) | clear_value x | subst x) | split)

theorem good_execTpfEnd (r : CopyRef) (s : State) (h_s : s.Good) :
    OkOut (execTpfEnd r s) := by
  unfold execTpfEnd
  repeat' (with_reducible first | assumption | apply good_State_tpf | apply good_tpfEnd | apply okOut_next)

theorem good_State_jump (s : State) (k : Ctx) (g : Copy → Copy) (h_s : s.Good) :
    (State.jump s k g).Good := by
  unfold State.jump
  repeat' (with_reducible first | assumption | apply good_State_retire | ((first | apply good_bytes | apply good_mk); first | assumption | apply good_State_retire) | intro _)

theorem good_execTpfJmp (r : CopyRef) (s : State) (h_s : s.Good) :
    OkOut (execTpfJmp r s) := by
  unfold execTpfJmp
  repeat' (with_reducible first | assumption | apply good_State_tpf | apply good_State_jump | apply okOut_next | intro _)

theorem good_execTpfBr (r : CopyRef) (s : State) (h_s : s.Good) :
    OkOut (execTpfBr r s) := by
  unfold execTpfBr
  repeat' (with_reducible first | assumption | apply good_State_tpf | apply good_State_jump | apply good_State_retire | apply good_ite | apply okOut_next | apply okOut_ite | intro _ | split)

theorem good_execTpfLoop (r : CopyRef) (s : State) (h_s : s.Good) :
    OkOut (execTpfLoop r s) := by
  unfold execTpfLoop
  repeat' (with_reducible first | assumption | apply good_State_tpf | apply good_State_jump | apply good_State_retire | apply good_ite | apply okOut_next | apply okOut_ite | ((first | apply good_bytes | apply good_mk); first | assumption | apply good_State_tpf | apply good_State_jump | apply good_State_retire | apply good_ite | apply okOut_next | apply okOut_ite) | intro _ | (extract_lets +onlyGivenNames x; first | (apply good_cut (s := x); rotate_left; clear_value x; rotate_left; subst x) | (have hf := is_fun x; clear hf; subst x) | clear_value x | subst x) | split)

theorem good_tpfSafepoint (k : Ctx) (s : State) (h_s : s.Good) :
    (tpfSafepoint k s).Good := by
  unfold tpfSafepoint
  repeat' (with_reducible first | assumption | apply good_State_modCopy | apply good_State_retire | apply good_State_hold | apply good_ite | ((first | apply good_bytes | apply good_mk); first | assumption | apply good_State_modCopy | apply good_State_retire | apply good_State_hold | apply good_ite) | intro _ | (extract_lets +onlyGivenNames x; first | (apply good_cut (s := x); rotate_left; clear_value x; rotate_left; subst x) | (have hf := is_fun x; clear hf; subst x) | clear_value x | subst x) | split)

theorem good_execTpfSafepoint (r : CopyRef) (s : State) (h_s : s.Good) :
    OkOut (execTpfSafepoint r s) := by
  unfold execTpfSafepoint
  repeat' (with_reducible first | assumption | apply good_State_tpf | apply good_tpfSafepoint | apply okOut_next)

theorem good_execTpfMovi (r : CopyRef) (s : State) (h_s : s.Good) :
    OkOut (execTpfMovi r s) := by
  unfold execTpfMovi
  repeat' (with_reducible first | assumption | apply good_State_tpf | apply good_State_setX | apply okOut_next | intro _)

theorem good_execTpfAlu (r : CopyRef) (s : State) (h_s : s.Good) :
    OkOut (execTpfAlu r s) := by
  unfold execTpfAlu
  repeat' (with_reducible first | assumption | apply good_State_tpf | apply good_State_setX | apply good_ite | apply okOut_next | apply okOut_ite | intro _ | split)

theorem good_execTpfArg (r : CopyRef) (s : State) (h_s : s.Good) :
    OkOut (execTpfArg r s) := by
  unfold execTpfArg
  repeat' (with_reducible first | assumption | apply good_State_tpf | apply good_State_setX | apply okOut_next | intro _)

theorem good_execTpfId (r : CopyRef) (s : State) (h_s : s.Good) :
    OkOut (execTpfId r s) := by
  unfold execTpfId
  repeat' (with_reducible first | assumption | apply good_State_tpf | apply good_State_setX | apply good_ite | apply okOut_next | apply okOut_ite | intro _ | split)

theorem good_execTpfTime (r : CopyRef) (s : State) (h_s : s.Good) :
    OkOut (execTpfTime r s) := by
  unfold execTpfTime
  repeat' (with_reducible first | assumption | apply good_State_tpf | apply good_State_setX | apply okOut_next | intro _)

theorem good_execTpfExc (r : CopyRef) (s : State) (h_s : s.Good) :
    OkOut (execTpfExc r s) := by
  unfold execTpfExc
  repeat' (with_reducible first | assumption | apply good_State_tpf | apply good_State_retire | apply good_ite | apply okOut_next | apply okOut_ite | ((first | apply good_bytes | apply good_mk); first | assumption | apply good_State_tpf | apply good_State_retire | apply good_ite | apply okOut_next | apply okOut_ite) | intro _ | split)

theorem good_execTpfTread (r : CopyRef) (s : State) (h_s : s.Good) :
    OkOut (execTpfTread r s) := by
  unfold execTpfTread
  repeat' (with_reducible first | assumption | apply good_State_tpf | apply good_State_setX | apply okOut_next | intro _)

theorem good_State_issueAsync (s : State) (k : Ctx) (a : Async) (h_s : s.Good) :
    (State.issueAsync s k a).Good := by
  unfold State.issueAsync
  repeat' (with_reducible first | assumption | apply good_State_bump | apply good_State_retire | apply good_ite | ((first | apply good_bytes | apply good_mk); first | assumption | apply good_State_bump | apply good_State_retire | apply good_ite) | intro _ | (extract_lets +onlyGivenNames x; first | (apply good_cut (s := x); rotate_left; clear_value x; rotate_left; subst x) | (have hf := is_fun x; clear hf; subst x) | clear_value x | subst x) | split)

theorem good_tpfMove (op : ℕ) (k : Ctx) (s : State) (h_s : s.Good) :
    (tpfMove op k s).Good := by
  unfold tpfMove
  repeat' (with_reducible first | assumption | apply good_State_hold | apply good_State_trap | apply good_State_issueAsync | apply good_ite | intro _ | (extract_lets +onlyGivenNames x; first | (apply good_cut (s := x); rotate_left; clear_value x; rotate_left; subst x) | (have hf := is_cells x; clear hf; subst x) | clear_value x | subst x) | split)

theorem good_execTpfTload (r : CopyRef) (s : State) (h_s : s.Good) :
    OkOut (execTpfTload r s) := by
  unfold execTpfTload
  repeat' (with_reducible first | assumption | apply good_State_tpf | apply good_tpfMove | apply okOut_next)

theorem good_execTpfTstore (r : CopyRef) (s : State) (h_s : s.Good) :
    OkOut (execTpfTstore r s) := by
  unfold execTpfTstore
  repeat' (with_reducible first | assumption | apply good_State_tpf | apply good_tpfMove | apply okOut_next)

theorem good_execTpfTcopy (r : CopyRef) (s : State) (h_s : s.Good) :
    OkOut (execTpfTcopy r s) := by
  unfold execTpfTcopy
  repeat' (with_reducible first | assumption | apply good_State_tpf | apply good_State_tileDone | apply okOut_next | intro _ | (extract_lets +onlyGivenNames x; first | (apply good_cut (s := x); rotate_left; clear_value x; rotate_left; subst x) | (have hf := is_fun x; clear hf; subst x) | clear_value x | subst x) | split)

theorem good_execTpfTfill (r : CopyRef) (s : State) (h_s : s.Good) :
    OkOut (execTpfTfill r s) := by
  unfold execTpfTfill
  repeat' (with_reducible first | assumption | apply good_State_tpf | apply good_State_tileDone | apply okOut_next | intro _ | (extract_lets +onlyGivenNames x; first | (apply good_cut (s := x); rotate_left; clear_value x; rotate_left; subst x) | (have hf := is_fun x; clear hf; subst x) | clear_value x | subst x) | split)

theorem good_execTpfMma (r : CopyRef) (s : State) (h_s : s.Good) :
    OkOut (execTpfMma r s) := by
  unfold execTpfMma
  repeat' (with_reducible first | assumption | apply good_State_tpf | apply good_State_tileDone | apply okOut_next | intro _ | (extract_lets +onlyGivenNames x; first | (apply good_cut (s := x); rotate_left; clear_value x; rotate_left; subst x) | (have hf := is_fun x; clear hf; subst x) | clear_value x | subst x) | split)

theorem good_execTpfVop (r : CopyRef) (s : State) (h_s : s.Good) :
    OkOut (execTpfVop r s) := by
  unfold execTpfVop
  repeat' (with_reducible first | assumption | apply good_State_tpf | apply good_State_tileDone | apply okOut_next | intro _ | (extract_lets +onlyGivenNames x; first | (apply good_cut (s := x); rotate_left; clear_value x; rotate_left; subst x) | (have hf := is_fun x; clear hf; subst x) | clear_value x | subst x) | split)

theorem good_execTpfVfn (r : CopyRef) (s : State) (h_s : s.Good) :
    OkOut (execTpfVfn r s) := by
  unfold execTpfVfn
  repeat' (with_reducible first | assumption | apply good_State_tpf | apply good_State_tileDone | apply okOut_next | intro _ | (extract_lets +onlyGivenNames x; first | (apply good_cut (s := x); rotate_left; clear_value x; rotate_left; subst x) | (have hf := is_fun x; clear hf; subst x) | clear_value x | subst x) | split)

theorem good_execTpfVred (r : CopyRef) (s : State) (h_s : s.Good) :
    OkOut (execTpfVred r s) := by
  unfold execTpfVred
  repeat' (with_reducible first | assumption | apply good_State_tpf | apply good_State_tileDone | apply okOut_next | intro _ | (extract_lets +onlyGivenNames x; first | (apply good_cut (s := x); rotate_left; clear_value x; rotate_left; subst x) | (have hf := is_fun x; clear hf; subst x) | clear_value x | subst x) | split)

theorem good_execTpfQuant (r : CopyRef) (s : State) (h_s : s.Good) :
    OkOut (execTpfQuant r s) := by
  unfold execTpfQuant
  repeat' (with_reducible first | assumption | apply good_State_tpf | apply good_State_putTile | apply good_State_tileDone | apply good_ite | apply okOut_next | apply okOut_ite | intro _ | (extract_lets +onlyGivenNames x; first | (apply good_cut (s := x); rotate_left; clear_value x; rotate_left; subst x) | (have hf := is_fun x; clear hf; subst x) | clear_value x | subst x) | split)

theorem good_State_progSend (s : State) (f : ℕ) (li : ℕ) (ci : ℕ) (p : Prog) (l : Launch) (a : Async) (h_s : s.Good) :
    (State.progSend s f li ci p l a).Good := by
  unfold State.progSend
  repeat' (with_reducible first | assumption | apply good_State_progStatus | apply good_State_queueMsg | apply good_State_modAsync | apply good_ite | ((first | apply good_bytes | apply good_mk); first | assumption | apply good_State_progStatus | apply good_State_queueMsg | apply good_State_modAsync | apply good_ite) | intro _ | (extract_lets +onlyGivenNames x; first | (apply good_cut (s := x); rotate_left; clear_value x; rotate_left; subst x) | (have hf := is_fun x; clear hf; subst x) | (have hf := is_cells x; clear hf; subst x) | clear_value x | subst x) | split)

theorem good_State_peerAccept (s : State) (f : ℕ) (li : ℕ) (ci : ℕ) (a : Async) (h_s : s.Good) :
    (State.peerAccept s f li ci a).Good := by
  unfold State.peerAccept
  repeat' (with_reducible first | assumption | apply good_State_modCopy | apply good_State_modAsync | apply good_ite | ((first | apply good_bytes | apply good_mk); first | assumption | apply good_State_modCopy | apply good_State_modAsync | apply good_ite) | intro _ | split)

theorem good_tpfSend (k : Ctx) (s : State) (h_s : s.Good) :
    (tpfSend k s).Good := by
  unfold tpfSend
  repeat' (with_reducible first | assumption | apply good_State_hold | apply good_State_trap | apply good_State_peerAccept | apply good_State_issueAsync | apply good_State_progSend | apply good_ite | ((first | apply good_bytes | apply good_mk); first | assumption | apply good_State_hold | apply good_State_trap | apply good_State_peerAccept | apply good_State_issueAsync | apply good_State_progSend | apply good_ite) | intro _ | (extract_lets +onlyGivenNames x; first | (apply good_cut (s := x); rotate_left; clear_value x; rotate_left; subst x) | (have hf := is_cells x; clear hf; subst x) | clear_value x | subst x) | split)

theorem good_execTpfSend (r : CopyRef) (s : State) (h_s : s.Good) :
    OkOut (execTpfSend r s) := by
  unfold execTpfSend
  repeat' (with_reducible first | assumption | apply good_State_tpf | apply good_tpfSend | apply okOut_next)

theorem good_tpfRecv (k : Ctx) (s : State) (h_s : s.Good) :
    (tpfRecv k s).Good := by
  unfold tpfRecv
  repeat' (with_reducible first | assumption | apply good_State_hold | apply good_State_issueAsync | apply good_State_progStatus | apply good_State_postRecv | apply good_ite | ((first | apply good_bytes | apply good_mk); first | assumption | apply good_State_hold | apply good_State_issueAsync | apply good_State_progStatus | apply good_State_postRecv | apply good_ite) | intro _ | (extract_lets +onlyGivenNames x; first | (apply good_cut (s := x); rotate_left; clear_value x; rotate_left; subst x) | (have hf := is_cells x; clear hf; subst x) | clear_value x | subst x) | split)

theorem good_execTpfRecv (r : CopyRef) (s : State) (h_s : s.Good) :
    OkOut (execTpfRecv r s) := by
  unfold execTpfRecv
  repeat' (with_reducible first | assumption | apply good_State_tpf | apply good_tpfRecv | apply okOut_next)

theorem good_execTpfTadd (r : CopyRef) (s : State) (h_s : s.Good) :
    OkOut (execTpfTadd r s) := by
  unfold execTpfTadd
  repeat' (with_reducible first | assumption | apply good_State_settle | apply good_State_tpf | apply good_State_retire | apply good_State_tallyAdd | apply okOut_next | intro _)

theorem good_execTpfTwait (r : CopyRef) (s : State) (h_s : s.Good) :
    OkOut (execTpfTwait r s) := by
  unfold execTpfTwait
  repeat' (with_reducible first | assumption | apply good_State_tpf | apply good_State_hold | apply good_State_retire | apply good_ite | apply okOut_next | apply okOut_ite | intro _ | split)

theorem good_execTpfTset (r : CopyRef) (s : State) (h_s : s.Good) :
    OkOut (execTpfTset r s) := by
  unfold execTpfTset
  repeat' (with_reducible first | assumption | apply good_State_settle | apply good_State_tpf | apply good_State_retire | apply good_State_tallyPut | apply okOut_next | intro _)

end Sys2Proof.Machine
end

