-- ==== Sys2Proof/Laws/GoodConnBase.lean ====
section
/-!
SUPPORT. GoodConnBase.lean: every operation and meaning of ConnBase.lean keeps the canonical form of memory.
-/

namespace Sys2Proof.Machine

set_option linter.all false

theorem good_State_usePeer (s : State) (dev : ℕ) (h_s : s.Good) :
    (State.usePeer s dev).Good := by
  unfold State.usePeer
  repeat' (with_reducible first | assumption | ((first | apply good_bytes | apply good_mk); first | assumption) | intro _)

theorem good_State_evictPeer (s : State) (h_s : s.Good) :
    OkOpt (State.evictPeer s) := by
  unfold State.evictPeer
  repeat' (with_reducible first | assumption | apply good_State_dropPeer | apply okOpt_getD | apply okOpt_some | apply okOpt_none | refine okOpt_eq (by assumption) ?_ | exact okOpt_of (by assumption) | intro _ | split)

theorem good_State_learnMap (s : State) (ip : ℕ) (dev : ℕ) (h_s : s.Good) :
    (State.learnMap s ip dev).Good := by
  unfold State.learnMap
  repeat' (with_reducible first | assumption | apply good_State_evictPeer | apply good_ite | apply okOpt_getD | apply okOpt_some | apply okOpt_none | apply okOpt_ite | refine okOpt_eq (by assumption) ?_ | exact okOpt_of (by assumption) | ((first | apply good_bytes | apply good_mk); first | assumption | apply good_State_evictPeer | apply good_ite | apply okOpt_getD | apply okOpt_some | apply okOpt_none | apply okOpt_ite | refine okOpt_eq (by assumption) ?_ | exact okOpt_of (by assumption)) | intro _ | (extract_lets +onlyGivenNames x; first | (apply good_cut (s := x); rotate_left; clear_value x; rotate_left; subst x) | (apply okOpt_cut (o := x); rotate_left; clear_value x; rotate_left; subst x) | (have hf := is_fun x; clear hf; subst x) | clear_value x | subst x) | split)

theorem good_State_sendSyn (s : State) (f : ℕ) (h : ℕ) (path : ℕ) (h_s : s.Good) :
    (State.sendSyn s f h path).Good := by
  unfold State.sendSyn
  repeat' (with_reducible first | assumption | apply good_State_sendCtl | apply good_ite | intro _ | (extract_lets +onlyGivenNames x; first | (apply good_cut (s := x); rotate_left; clear_value x; rotate_left; subst x) | clear_value x | subst x) | split)

theorem good_State_sayTo (s : State) (ip : ℕ) (seq : ℕ) (h_s : s.Good) :
    (State.sayTo s ip seq).Good := by
  unfold State.sayTo
  repeat' (with_reducible first | assumption | apply good_State_emit)

theorem good_State_askSlow (s : State) (ip : ℕ) (h_s : s.Good) :
    (State.askSlow s ip).Good := by
  unfold State.askSlow
  repeat' (with_reducible first | assumption | apply good_State_sayTo | apply good_ite | ((first | apply good_bytes | apply good_mk); first | assumption | apply good_State_sayTo | apply good_ite) | intro _ | (extract_lets +onlyGivenNames x; first | (apply good_cut (s := x); rotate_left; clear_value x; rotate_left; subst x) | (have hf := is_fun x; clear hf; subst x) | clear_value x | subst x) | split)

theorem good_State_startHandshake (s : State) (f : ℕ) (h : ℕ) (cid : ConnId) (h_s : s.Good) :
    (State.startHandshake s f h cid).Good := by
  unfold State.startHandshake
  repeat' (with_reducible first | assumption | apply good_State_bump | apply good_State_modConn | apply good_State_sendSyn | apply good_State_usePeer | apply good_State_askSlow | apply good_ite | ((first | apply good_bytes | apply good_mk); first | assumption | apply good_State_bump | apply good_State_modConn | apply good_State_sendSyn | apply good_State_usePeer | apply good_State_askSlow | apply good_ite) | intro _ | (extract_lets +onlyGivenNames x; first | (apply good_cut (s := x); rotate_left; clear_value x; rotate_left; subst x) | (have hf := is_fun x; clear hf; subst x) | clear_value x | subst x) | split)

theorem good_State_beginClose (s : State) (f : ℕ) (h : ℕ) (h_s : s.Good) :
    (State.beginClose s f h).Good := by
  unfold State.beginClose
  repeat' (with_reducible first | assumption | apply good_State_modConn | apply good_State_sendCtl | ((first | apply good_bytes | apply good_mk); first | assumption | apply good_State_modConn | apply good_State_sendCtl) | intro _ | (extract_lets +onlyGivenNames x; first | (apply good_cut (s := x); rotate_left; clear_value x; rotate_left; subst x) | (have hf := is_fun x; clear hf; subst x) | clear_value x | subst x))

theorem good_State_closeStep (s : State) (f : ℕ) (h : ℕ) (h_s : s.Good) :
    (State.closeStep s f h).Good := by
  unfold State.closeStep
  repeat' (with_reducible first | assumption | apply good_State_sendCtl | apply good_State_modConn | apply good_State_freeConn | apply good_State_endCloses | apply good_ite | ((first | apply good_bytes | apply good_mk); first | assumption | apply good_State_sendCtl | apply good_State_modConn | apply good_State_freeConn | apply good_State_endCloses | apply good_ite) | intro _ | (extract_lets +onlyGivenNames x; first | (apply good_cut (s := x); rotate_left; clear_value x; rotate_left; subst x) | (have hf := is_fun x; clear hf; subst x) | clear_value x | subst x) | split)

end Sys2Proof.Machine
end

