-- ==== Sys2Proof/Laws/GoodPrograms.lean ====
section
/-!
SUPPORT. GoodPrograms.lean: every operation and meaning of Programs.lean keeps the canonical form of memory.
-/

namespace Sys2Proof.Machine

set_option linter.all false

theorem good_State_checkedFence (s : State) (f : ℕ) (id : ℕ) (fenced : Bool) (l : List Status) (k : State → State) (h_s : s.Good) (h_k : ∀ t : State, t.Good → (k t).Good) :
    (State.checkedFence s f id fenced l k).Good := by
  unfold State.checkedFence
  repeat' (with_reducible first | assumption | apply good_State_endOp | apply good_State_endBusy | apply h_k | apply good_ite | intro _ | split)

theorem good_State_loadImage (s : State) (f : ℕ) (id : ℕ) (bs : List Byte) (len : ℕ) (codeOff : ℕ) (codeLen : ℕ) (codeBad : List Status) (h_s : s.Good) :
    (State.loadImage s f id bs len codeOff codeLen codeBad).Good := by
  unfold State.loadImage
  repeat' (with_reducible first | assumption | apply good_State_endOp | apply good_State_checked | apply good_State_sliceWrite | apply good_State_bump | apply good_State_modFn | ((first | apply good_bytes | apply good_mk); first | assumption | apply good_State_endOp | apply good_State_checked | apply good_State_sliceWrite | apply good_State_bump | apply good_State_modFn) | intro _ | (extract_lets +onlyGivenNames x; first | (apply good_cut (s := x); rotate_left; clear_value x; rotate_left; subst x) | (have hf := is_fun x; clear hf; subst x) | clear_value x | subst x) | split)

theorem good_effProgLoad (slice : Bool) (image : ℕ) (len : ℕ) (codeOff : ℕ) (codeLen : ℕ) (f : ℕ) (id : ℕ) (s : State) (h_s : s.Good) :
    (effProgLoad slice image len codeOff codeLen f id s).Good := by
  unfold effProgLoad
  repeat' (with_reducible first | assumption | apply good_State_endOp | apply good_State_checked | apply good_State_loadImage | apply good_State_sliceUse | apply good_State_withHost | apply good_State_hostReadFill | apply good_ite | intro _ | (extract_lets +onlyGivenNames x; first | (apply good_cut (s := x); rotate_left; clear_value x; rotate_left; subst x) | (have hf := is_fun x; clear hf; subst x) | clear_value x | subst x) | split)

theorem good_execProgLoad (e : Entry) (slice : Bool) (image : ℕ) (len : ℕ) (codeOff : ℕ) (codeLen : ℕ) (s : State) (h_s : s.Good) :
    OkOut (execProgLoad e slice image len codeOff codeLen s) := by
  unfold execProgLoad
  repeat' (with_reducible first | assumption | apply good_State_startEntry | apply good_effProgLoad | apply okOut_next)

theorem good_effProgUnload (handle : ℕ) (f : ℕ) (id : ℕ) (s : State) (h_s : s.Good) :
    (effProgUnload handle f id s).Good := by
  unfold effProgUnload
  repeat' (with_reducible first | assumption | apply good_State_checked | apply good_State_endOp | apply good_State_modFn | ((first | apply good_bytes | apply good_mk); first | assumption | apply good_State_checked | apply good_State_endOp | apply good_State_modFn) | intro _)

theorem good_execProgUnload (e : Entry) (handle : ℕ) (s : State) (h_s : s.Good) :
    OkOut (execProgUnload e handle s) := by
  unfold execProgUnload
  repeat' (with_reducible first | assumption | apply good_State_startEntry | apply good_effProgUnload | apply okOut_next)

theorem good_State_launchStart (s : State) (f : ℕ) (id : ℕ) (b : LaunchBody) (p : Prog) (args : List ℕ) (ports : List PortBind) (slots : List ℕ) (h_s : s.Good) :
    (State.launchStart s f id b p args ports slots).Good := by
  unfold State.launchStart
  repeat' (with_reducible first | assumption | apply good_State_wakeBlocks | apply good_State_modLaunch | apply good_State_modOp | apply good_ite | ((first | apply good_bytes | apply good_mk); first | assumption | apply good_State_wakeBlocks | apply good_State_modLaunch | apply good_State_modOp | apply good_ite) | intro _ | (extract_lets +onlyGivenNames x; first | (apply good_cut (s := x); rotate_left; clear_value x; rotate_left; subst x) | (have hf := is_fun x; clear hf; subst x) | clear_value x | subst x) | split)

theorem good_effProgLaunch (b : LaunchBody) (f : ℕ) (id : ℕ) (s : State) (h_s : s.Good) :
    (effProgLaunch b f id s).Good := by
  unfold effProgLaunch
  repeat' (with_reducible first | assumption | apply good_State_checked | apply good_State_endOp | apply good_State_withHost | apply good_State_checkedFence | apply good_State_hostReadFill | apply good_State_launchStart | apply good_foldl | intro _ | (extract_lets +onlyGivenNames x; first | (apply good_cut (s := x); rotate_left; clear_value x; rotate_left; subst x) | (have hf := is_fun x; clear hf; subst x) | clear_value x | subst x) | split)

theorem good_execProgLaunch (e : Entry) (b : LaunchBody) (s : State) (h_s : s.Good) :
    OkOut (execProgLaunch e b s) := by
  unfold execProgLaunch
  repeat' (with_reducible first | assumption | apply good_State_startEntry | apply good_effProgLaunch | apply okOut_next)

theorem good_State_launchRun (s : State) (f : ℕ) (l : ℕ) (h_s : s.Good) :
    (State.launchRun s f l).Good := by
  unfold State.launchRun
  repeat' (with_reducible first | assumption | apply good_State_modLaunch | apply good_ite | ((first | apply good_bytes | apply good_mk); first | assumption | apply good_State_modLaunch | apply good_ite) | intro _ | (extract_lets +onlyGivenNames x; first | (apply good_cut (s := x); rotate_left; clear_value x; rotate_left; subst x) | (have hf := is_fun x; clear hf; subst x) | clear_value x | subst x) | split)

theorem good_execLaunchRunning (fn : Fn) (launch : ℕ) (s : State) (h_s : s.Good) :
    OkOut (execLaunchRunning fn launch s) := by
  unfold execLaunchRunning
  repeat' (with_reducible first | assumption | apply good_State_launchRun | apply okOut_next)

theorem good_effProgStop (lref : ℕ) (f : ℕ) (id : ℕ) (s : State) (h_s : s.Good) :
    (effProgStop lref f id s).Good := by
  unfold effProgStop
  repeat' (with_reducible first | assumption | apply good_State_checked | apply good_State_stopLaunch | apply good_State_modLaunch | ((first | apply good_bytes | apply good_mk); first | assumption | apply good_State_checked | apply good_State_stopLaunch | apply good_State_modLaunch) | intro _ | (extract_lets +onlyGivenNames x; first | (apply good_cut (s := x); rotate_left; clear_value x; rotate_left; subst x) | (have hf := is_fun x; clear hf; subst x) | clear_value x | subst x))

theorem good_execProgStop (e : Entry) (lref : ℕ) (s : State) (h_s : s.Good) :
    OkOut (execProgStop e lref s) := by
  unfold execProgStop
  repeat' (with_reducible first | assumption | apply good_State_startEntry | apply good_effProgStop | apply okOut_next)

theorem good_effProgQuery (lref : ℕ) (addr : ℕ) (f : ℕ) (id : ℕ) (s : State) (h_s : s.Good) :
    (effProgQuery lref addr f id s).Good := by
  unfold effProgQuery
  repeat' (with_reducible first | assumption | apply good_State_checked | apply good_State_writeRecord | apply good_write | apply good_touchWrite | intro _ | (extract_lets +onlyGivenNames x; first | (apply good_cut (s := x); rotate_left; clear_value x; rotate_left; subst x) | (have hf := is_fun x; clear hf; subst x) | clear_value x | subst x))

theorem good_execProgQuery (e : Entry) (launch : ℕ) (addr : ℕ) (s : State) (h_s : s.Good) :
    OkOut (execProgQuery e launch addr s) := by
  unfold execProgQuery
  repeat' (with_reducible first | assumption | apply good_State_startEntry | apply good_effProgQuery | apply okOut_next)

theorem good_State_launchFree (s : State) (f : ℕ) (l : ℕ) (h_s : s.Good) :
    (State.launchFree s f l).Good := by
  unfold State.launchFree
  repeat' (with_reducible first | assumption | apply good_State_modFn | ((first | apply good_bytes | apply good_mk); first | assumption | apply good_State_modFn) | intro _)

theorem good_State_launchStopped (s : State) (f : ℕ) (li : ℕ) (h_s : s.Good) :
    (State.launchStopped s f li).Good := by
  unfold State.launchStopped
  repeat' (with_reducible first | assumption | apply good_State_endOp | apply good_State_launchFree | apply good_ite | intro _ | (extract_lets +onlyGivenNames x; first | (apply good_cut (s := x); rotate_left; clear_value x; rotate_left; subst x) | (have hf := is_fun x; clear hf; subst x) | clear_value x | subst x) | split)

theorem good_execLaunchStopped (fn : Fn) (launch : ℕ) (s : State) (h_s : s.Good) :
    OkOut (execLaunchStopped fn launch s) := by
  unfold execLaunchStopped
  repeat' (with_reducible first | assumption | apply good_State_settle | apply good_State_launchStopped | apply okOut_next)

theorem good_State_launchEnded (s : State) (f : ℕ) (li : ℕ) (h_s : s.Good) :
    (State.launchEnded s f li).Good := by
  unfold State.launchEnded
  repeat' (with_reducible first | assumption | apply good_State_endOp | apply good_State_launchFree | apply good_ite | intro _ | (extract_lets +onlyGivenNames x; first | (apply good_cut (s := x); rotate_left; clear_value x; rotate_left; subst x) | (have hf := is_fun x; clear hf; subst x) | clear_value x | subst x) | split)

theorem good_execLaunchEnded (fn : Fn) (launch : ℕ) (s : State) (h_s : s.Good) :
    OkOut (execLaunchEnded fn launch s) := by
  unfold execLaunchEnded
  repeat' (with_reducible first | assumption | apply good_State_settle | apply good_State_launchEnded | apply okOut_next)

theorem good_State_asyncDone (s : State) (f : ℕ) (l : ℕ) (c : ℕ) (a : Async) (st : Status) (h_s : s.Good) :
    (State.asyncDone s f l c a st).Good := by
  unfold State.asyncDone
  repeat' (with_reducible first | assumption | apply good_State_modCopy | apply good_State_tallyAdd | apply good_State_faultCopy | apply good_ite | ((first | apply good_bytes | apply good_mk); first | assumption | apply good_State_modCopy | apply good_State_tallyAdd | apply good_State_faultCopy | apply good_ite) | intro _ | (extract_lets +onlyGivenNames x; first | (apply good_cut (s := x); rotate_left; clear_value x; rotate_left; subst x) | (have hf := is_fun x; clear hf; subst x) | clear_value x | subst x) | split)

theorem good_State_asyncTile (s : State) (f : ℕ) (l : ℕ) (c : ℕ) (a : Async) (t : Tile) (h_s : s.Good) :
    (State.asyncTile s f l c a t).Good := by
  unfold State.asyncTile
  repeat' (with_reducible first | assumption | apply good_State_bump | apply good_State_modCopy | apply good_ite | ((first | apply good_bytes | apply good_mk); first | assumption | apply good_State_bump | apply good_State_modCopy | apply good_ite) | intro _ | (extract_lets +onlyGivenNames x; first | (apply good_cut (s := x); rotate_left; clear_value x; rotate_left; subst x) | (have hf := is_fun x; clear hf; subst x) | clear_value x | subst x) | split)

theorem good_State_asyncPark (s : State) (f : ℕ) (l : ℕ) (c : ℕ) (a : Async) (page : ℕ) (wr : Bool) (h_s : s.Good) :
    (State.asyncPark s f l c a page wr).Good := by
  unfold State.asyncPark
  repeat' (with_reducible first | assumption | apply good_State_askXlate | apply good_State_modAsync | ((first | apply good_bytes | apply good_mk); first | assumption | apply good_State_askXlate | apply good_State_modAsync) | intro _)

theorem good_State_tloadEnd (s : State) (f : ℕ) (l : ℕ) (c : ℕ) (p : Prog) (a : Async) (h_s : s.Good) :
    (State.tloadEnd s f l c p a).Good := by
  unfold State.tloadEnd
  repeat' (with_reducible first | assumption | apply good_State_asyncDone | apply good_State_modLaunch | apply good_State_asyncTile | apply good_State_asyncPark | apply good_State_locUse | apply good_ite | apply good_foldl | ((first | apply good_bytes | apply good_mk); first | assumption | apply good_State_asyncDone | apply good_State_modLaunch | apply good_State_asyncTile | apply good_State_asyncPark | apply good_State_locUse | apply good_ite | apply good_foldl) | intro _ | (extract_lets +onlyGivenNames x; first | (apply good_cut (s := x); rotate_left; clear_value x; rotate_left; subst x) | (have hf := is_fun x; clear hf; subst x) | (have hf := is_cells x; clear hf; subst x) | clear_value x | subst x) | split)

theorem good_State_tstoreEnd (s : State) (f : ℕ) (l : ℕ) (c : ℕ) (p : Prog) (a : Async) (h_s : s.Good) :
    (State.tstoreEnd s f l c p a).Good := by
  unfold State.tstoreEnd
  repeat' (with_reducible first | assumption | apply good_State_asyncDone | apply good_State_asyncPark | apply good_State_locWrite | apply good_State_modLaunch | apply good_ite | apply good_foldl | ((first | apply good_bytes | apply good_mk); first | assumption | apply good_State_asyncDone | apply good_State_asyncPark | apply good_State_locWrite | apply good_State_modLaunch | apply good_ite | apply good_foldl) | intro _ | (extract_lets +onlyGivenNames x; first | (apply good_cut (s := x); rotate_left; clear_value x; rotate_left; subst x) | (have hf := is_fun x; clear hf; subst x) | (have hf := is_cells x; clear hf; subst x) | clear_value x | subst x) | split)

theorem good_State_slotWrite (s : State) (f : ℕ) (l : ℕ) (c : ℕ) (p : Prog) (h_s : s.Good) :
    (State.slotWrite s f l c p).Good := by
  unfold State.slotWrite
  repeat' (with_reducible first | assumption | apply good_State_modCopy | apply good_State_bump | apply good_State_sliceWrite | ((first | apply good_bytes | apply good_mk); first | assumption | apply good_State_modCopy | apply good_State_bump | apply good_State_sliceWrite) | intro _ | (extract_lets +onlyGivenNames x; first | (apply good_cut (s := x); rotate_left; clear_value x; rotate_left; subst x) | (have hf := is_fun x; clear hf; subst x) | clear_value x | subst x))

theorem good_State_recvPut (s : State) (f : ℕ) (l : ℕ) (c : ℕ) (p : Prog) (a : Async) (bs : List Byte) (h_s : s.Good) :
    (State.recvPut s f l c p a bs).Good := by
  unfold State.recvPut
  repeat' (with_reducible first | assumption | apply good_State_asyncTile | apply good_State_slotWrite | apply good_State_asyncDone | apply good_ite | intro _ | (extract_lets +onlyGivenNames x; first | (apply good_cut (s := x); rotate_left; clear_value x; rotate_left; subst x) | clear_value x | subst x) | split)

theorem good_State_asyncEnd (s : State) (f : ℕ) (l : ℕ) (c : ℕ) (id : ℕ) (h_s : s.Good) :
    (State.asyncEnd s f l c id).Good := by
  unfold State.asyncEnd
  repeat' (with_reducible first | assumption | apply good_State_asyncDone | apply good_State_tloadEnd | apply good_State_tstoreEnd | apply good_State_recvPut | apply good_State_modFn | apply good_State_modLaunch | apply good_ite | ((first | apply good_bytes | apply good_mk); first | assumption | apply good_State_asyncDone | apply good_State_tloadEnd | apply good_State_tstoreEnd | apply good_State_recvPut | apply good_State_modFn | apply good_State_modLaunch | apply good_ite) | intro _ | (extract_lets +onlyGivenNames x; first | (apply good_cut (s := x); rotate_left; clear_value x; rotate_left; subst x) | (have hf := is_fun x; clear hf; subst x) | (have hf := is_cells x; clear hf; subst x) | clear_value x | subst x) | split)

theorem good_execAsyncOpEnd (r : CopyRef) (op : ℕ) (s : State) (h_s : s.Good) :
    OkOut (execAsyncOpEnd r op s) := by
  unfold execAsyncOpEnd
  repeat' (with_reducible first | assumption | apply good_State_settle | apply good_State_asyncEnd | apply okOut_next)

theorem good_State_sendAgain (s : State) (f : ℕ) (l : ℕ) (c : ℕ) (id : ℕ) (h_s : s.Good) :
    (State.sendAgain s f l c id).Good := by
  unfold State.sendAgain
  repeat' (with_reducible first | assumption | apply good_State_progSend | apply good_ite | intro _ | split)

theorem good_execSendRetry (r : CopyRef) (op : ℕ) (now : ℕ) (s : State) (h_s : s.Good) :
    OkOut (execSendRetry r op now s) := by
  unfold execSendRetry
  repeat' (with_reducible first | assumption | apply good_State_sendAgain | apply good_State_tick | apply okOut_next)

theorem good_State_peerNext (s : State) (f : ℕ) (l : ℕ) (t : ℕ) (port : ℕ) (h_s : s.Good) :
    (State.peerNext s f l t port).Good := by
  unfold State.peerNext
  repeat' (with_reducible first | assumption | apply good_State_peerAccept | apply good_State_bump | intro _ | (extract_lets +onlyGivenNames x; first | (apply good_cut (s := x); rotate_left; clear_value x; rotate_left; subst x) | clear_value x | subst x) | split)

theorem good_State_peerMove (s : State) (f : ℕ) (l : ℕ) (c : ℕ) (id : ℕ) (h_s : s.Good) :
    (State.peerMove s f l c id).Good := by
  unfold State.peerMove
  repeat' (with_reducible first | assumption | apply good_State_modCopy | apply good_State_modAsync | apply good_State_peerNext | apply good_ite | ((first | apply good_bytes | apply good_mk); first | assumption | apply good_State_modCopy | apply good_State_modAsync | apply good_State_peerNext | apply good_ite) | intro _ | (extract_lets +onlyGivenNames x; first | (apply good_cut (s := x); rotate_left; clear_value x; rotate_left; subst x) | (have hf := is_fun x; clear hf; subst x) | (have hf := is_cells x; clear hf; subst x) | clear_value x | subst x) | split)

theorem good_execPeerMessageTransfer (r : CopyRef) (op : ℕ) (s : State) (h_s : s.Good) :
    OkOut (execPeerMessageTransfer r op s) := by
  unfold execPeerMessageTransfer
  repeat' (with_reducible first | assumption | apply good_State_peerMove | apply okOut_next)

theorem good_State_preemptCopy (s : State) (f : ℕ) (l : ℕ) (c : ℕ) (h_s : s.Good) :
    (State.preemptCopy s f l c).Good := by
  unfold State.preemptCopy
  repeat' (with_reducible first | assumption | apply good_State_modCopy | apply good_ite | ((first | apply good_bytes | apply good_mk); first | assumption | apply good_State_modCopy | apply good_ite) | intro _ | split)

theorem good_State_preemptBlocks (s : State) (f : ℕ) (on : ℕ → Bool) (h_s : s.Good) :
    (State.preemptBlocks s f on).Good := by
  unfold State.preemptBlocks
  repeat' (with_reducible first | assumption | apply good_State_preemptCopy | apply good_ite | apply good_foldl | intro _ | split)

theorem good_State_copySave (s : State) (f : ℕ) (l : ℕ) (c : ℕ) (h_s : s.Good) :
    (State.copySave s f l c).Good := by
  unfold State.copySave
  repeat' (with_reducible first | assumption | apply good_State_faultCopy | apply good_State_modCopy | apply good_State_modLaunch | apply good_State_slotWrite | apply good_ite | ((first | apply good_bytes | apply good_mk); first | assumption | apply good_State_faultCopy | apply good_State_modCopy | apply good_State_modLaunch | apply good_State_slotWrite | apply good_ite) | intro _ | (extract_lets +onlyGivenNames x; first | (apply good_cut (s := x); rotate_left; clear_value x; rotate_left; subst x) | (have hf := is_fun x; clear hf; subst x) | clear_value x | subst x) | split)

theorem good_execCopySave (r : CopyRef) (s : State) (h_s : s.Good) :
    OkOut (execCopySave r s) := by
  unfold execCopySave
  repeat' (with_reducible first | assumption | apply good_State_copySave | apply okOut_next)

theorem good_State_copyResume (s : State) (f : ℕ) (l : ℕ) (c : ℕ) (block : ℕ) (h_s : s.Good) :
    (State.copyResume s f l c block).Good := by
  unfold State.copyResume
  repeat' (with_reducible first | assumption | apply good_State_faultCopy | apply good_State_bump | apply good_State_wakeBlocks | apply good_State_modCopy | apply good_ite | ((first | apply good_bytes | apply good_mk); first | assumption | apply good_State_faultCopy | apply good_State_bump | apply good_State_wakeBlocks | apply good_State_modCopy | apply good_ite) | intro _ | (extract_lets +onlyGivenNames x; first | (apply good_cut (s := x); rotate_left; clear_value x; rotate_left; subst x) | (have hf := is_fun x; clear hf; subst x) | clear_value x | subst x) | split)

theorem good_execCopyResume (r : CopyRef) (block : ℕ) (s : State) (h_s : s.Good) :
    OkOut (execCopyResume r block s) := by
  unfold execCopyResume
  repeat' (with_reducible first | assumption | apply good_State_copyResume | apply okOut_next)

theorem good_State_spwaitExpiry (s : State) (f : ℕ) (l : ℕ) (c : ℕ) (h_s : s.Good) :
    (State.spwaitExpiry s f l c).Good := by
  unfold State.spwaitExpiry
  repeat' (with_reducible first | assumption | apply good_State_stopLaunch | apply good_State_modLaunch | apply good_State_jMust | apply good_ite | ((first | apply good_bytes | apply good_mk); first | assumption | apply good_State_stopLaunch | apply good_State_modLaunch | apply good_State_jMust | apply good_ite) | intro _ | (extract_lets +onlyGivenNames x; first | (apply good_cut (s := x); rotate_left; clear_value x; rotate_left; subst x) | (have hf := is_fun x; clear hf; subst x) | clear_value x | subst x) | split)

theorem good_execSpwaitExpiry (r : CopyRef) (now : ℕ) (s : State) (h_s : s.Good) :
    OkOut (execSpwaitExpiry r now s) := by
  unfold execSpwaitExpiry
  repeat' (with_reducible first | assumption | apply good_State_spwaitExpiry | apply good_State_tick | apply okOut_next)

end Sys2Proof.Machine
end

