-- ==== Sys2Proof/Laws/GoodMesh.lean ====
section
/-!
SUPPORT. GoodMesh.lean: every operation and meaning of Mesh.lean keeps the canonical form of memory.
-/

namespace Sys2Proof.Machine

set_option linter.all false

theorem good_State_reqCircuit (s : State) (c : Circuit) (h_s : s.Good) :
    (State.reqCircuit s c).Good := by
  unfold State.reqCircuit
  repeat' (with_reducible first | assumption | apply good_ite | ((first | apply good_bytes | apply good_mk); first | assumption | apply good_ite) | intro _ | split)

theorem good_State_dropCircuits (s : State) (owner : ℕ × ℕ × ℕ) (h_s : s.Good) :
    (State.dropCircuits s owner).Good := by
  unfold State.dropCircuits
  repeat' (with_reducible first | assumption | ((first | apply good_bytes | apply good_mk); first | assumption) | intro _)

end Sys2Proof.Machine
end

