-- ==== Sys2Proof/Laws/GoodHerds.lean ====
section
/-!
SUPPORT. GoodHerds.lean: every operation and meaning of Herds.lean keeps the canonical form of memory.
-/

namespace Sys2Proof.Machine

set_option linter.all false

theorem good_State_modHerd (s : State) (f : ℕ) (i : ℕ) (g : Herd → Herd) (h_s : s.Good) :
    (State.modHerd s f i g).Good := by
  unfold State.modHerd
  repeat' (with_reducible first | assumption | apply good_State_modFn | ((first | apply good_bytes | apply good_mk); first | assumption | apply good_State_modFn) | intro _)

theorem good_State_herdOpen (s : State) (f : ℕ) (i : ℕ) (orig : ℕ) (force : optParam Bool false) (h_s : s.Good) :
    OkL (State.herdOpen s f i orig force) := by
  unfold State.herdOpen
  repeat' (with_reducible first | assumption | apply good_State_modHerd | apply good_State_startHandshake | apply good_ite | apply okL_ite | refine okL_eq (by assumption) ?_ | exact okL_of (by assumption) | apply okL_fst | ((first | apply good_bytes | apply good_mk); first | assumption | apply good_State_modHerd | apply good_State_startHandshake | apply good_ite | apply okL_ite | refine okL_eq (by assumption) ?_ | exact okL_of (by assumption) | apply okL_fst) | intro _ | (extract_lets +onlyGivenNames x; first | (apply good_cut (s := x); rotate_left; clear_value x; rotate_left; subst x) | (apply okL_cut (p := x); rotate_left; clear_value x; rotate_left; subst x) | (have hf := is_fun x; clear hf; subst x) | (have hf := is_mem x; clear hf; subst x) | clear_value x | subst x) | split | apply okL_mk)

theorem good_State_herdOpenAll (s : State) (f : ℕ) (i : ℕ) (l : List ℕ) (h_s : s.Good) :
    OkL (State.herdOpenAll s f i l) := by
  unfold State.herdOpenAll
  repeat' (with_reducible first | assumption | apply good_State_herdOpen | apply good_foldl | apply okL_foldl | refine okL_eq (by assumption) ?_ | exact okL_of (by assumption) | apply okL_fst | intro _ | (extract_lets +onlyGivenNames x; first | (apply good_cut (s := x); rotate_left; clear_value x; rotate_left; subst x) | (apply okL_cut (p := x); rotate_left; clear_value x; rotate_left; subst x) | (have hf := is_fun x; clear hf; subst x) | clear_value x | subst x) | split | apply okL_mk)

theorem good_State_herdFree (s : State) (f : ℕ) (i : ℕ) (h_s : s.Good) :
    (State.herdFree s f i).Good := by
  unfold State.herdFree
  repeat' (with_reducible first | assumption | apply good_State_beginClose | apply good_State_freeConn | apply good_State_modFn | apply good_State_dropCircuits | apply good_ite | apply good_foldl | ((first | apply good_bytes | apply good_mk); first | assumption | apply good_State_beginClose | apply good_State_freeConn | apply good_State_modFn | apply good_State_dropCircuits | apply good_ite | apply good_foldl) | intro _ | (extract_lets +onlyGivenNames x; first | (apply good_cut (s := x); rotate_left; clear_value x; rotate_left; subst x) | (have hf := is_fun x; clear hf; subst x) | clear_value x | subst x) | split)

theorem good_State_herdForm (s : State) (f : ℕ) (id : ℕ) (b : HerdBody) (ms : List Memb) (h_s : s.Good) :
    (State.herdForm s f id b ms).Good := by
  unfold State.herdForm
  repeat' (with_reducible first | assumption | apply good_State_checked | apply good_State_herdOpenAll | apply good_State_modHerd | apply okL_fst | intro _ | (extract_lets +onlyGivenNames x; first | (apply good_cut (s := x); rotate_left; clear_value x; rotate_left; subst x) | (apply okL_cut (p := x); rotate_left; clear_value x; rotate_left; subst x) | (have hf := is_fun x; clear hf; subst x) | (have hf := is_mem x; clear hf; subst x) | clear_value x | subst x) | apply okL_mk)

theorem good_effHerdCreate (b : HerdBody) (f : ℕ) (id : ℕ) (s : State) (h_s : s.Good) :
    (effHerdCreate b f id s).Good := by
  unfold effHerdCreate
  repeat' (with_reducible first | assumption | apply good_State_checked | apply good_State_readHostFor | apply good_State_herdForm | intro _)

theorem good_execHerdCreate (e : Entry) (b : HerdBody) (s : State) (h_s : s.Good) :
    OkOut (execHerdCreate e b s) := by
  unfold execHerdCreate
  repeat' (with_reducible first | assumption | apply good_State_startEntry | apply good_effHerdCreate | apply okOut_next)

theorem good_State_herdReady (s : State) (f : ℕ) (i : ℕ) (h_s : s.Good) :
    (State.herdReady s f i).Good := by
  unfold State.herdReady
  repeat' (with_reducible first | assumption | apply good_State_endOp | apply good_State_modHerd | apply good_ite | ((first | apply good_bytes | apply good_mk); first | assumption | apply good_State_endOp | apply good_State_modHerd | apply good_ite) | intro _ | (extract_lets +onlyGivenNames x; first | (apply good_cut (s := x); rotate_left; clear_value x; rotate_left; subst x) | (have hf := is_fun x; clear hf; subst x) | (have hf := is_mem x; clear hf; subst x) | clear_value x | subst x) | split)

theorem good_State_herdFormTimeout (s : State) (f : ℕ) (i : ℕ) (h_s : s.Good) :
    (State.herdFormTimeout s f i).Good := by
  unfold State.herdFormTimeout
  repeat' (with_reducible first | assumption | apply good_State_endOp | apply good_State_herdFree | apply good_ite | intro _ | (extract_lets +onlyGivenNames x; first | (apply good_cut (s := x); rotate_left; clear_value x; rotate_left; subst x) | clear_value x | subst x) | split)

theorem good_execHerdFormTimeout (fn : Fn) (herd : ℕ) (now : ℕ) (s : State) (h_s : s.Good) :
    OkOut (execHerdFormTimeout fn herd now s) := by
  unfold execHerdFormTimeout
  repeat' (with_reducible first | assumption | apply good_State_herdFormTimeout | apply good_State_tick | apply okOut_next)

theorem good_effHerdDestroy (herd : ℕ) (f : ℕ) (id : ℕ) (s : State) (h_s : s.Good) :
    (effHerdDestroy herd f id s).Good := by
  unfold effHerdDestroy
  repeat' (with_reducible first | assumption | apply good_State_checked | apply good_State_modHerd | apply good_State_endOp | apply good_State_herdFree | apply good_ite | apply good_foldl | ((first | apply good_bytes | apply good_mk); first | assumption | apply good_State_checked | apply good_State_modHerd | apply good_State_endOp | apply good_State_herdFree | apply good_ite | apply good_foldl) | intro _ | (extract_lets +onlyGivenNames x; first | (apply good_cut (s := x); rotate_left; clear_value x; rotate_left; subst x) | (have hf := is_fun x; clear hf; subst x) | clear_value x | subst x) | split)

theorem good_execHerdDestroy (e : Entry) (herd : ℕ) (s : State) (h_s : s.Good) :
    OkOut (execHerdDestroy e herd s) := by
  unfold execHerdDestroy
  repeat' (with_reducible first | assumption | apply good_State_startEntry | apply good_effHerdDestroy | apply okOut_next)

theorem good_effHerdQuery (herd : ℕ) (addr : ℕ) (f : ℕ) (id : ℕ) (s : State) (h_s : s.Good) :
    (effHerdQuery herd addr f id s).Good := by
  unfold effHerdQuery
  repeat' (with_reducible first | assumption | apply good_State_checked | apply good_State_writeRecord | apply good_write | apply good_touchWrite | intro _ | (extract_lets +onlyGivenNames x; first | (apply good_cut (s := x); rotate_left; clear_value x; rotate_left; subst x) | (have hf := is_fun x; clear hf; subst x) | clear_value x | subst x))

theorem good_execHerdQuery (e : Entry) (herd : ℕ) (addr : ℕ) (s : State) (h_s : s.Good) :
    OkOut (execHerdQuery e herd addr s) := by
  unfold execHerdQuery
  repeat' (with_reducible first | assumption | apply good_State_startEntry | apply good_effHerdQuery | apply okOut_next)

end Sys2Proof.Machine
end

