-- ==== Sys2Proof/Laws/GoodColl.lean ====
section
/-!
SUPPORT. GoodColl.lean: every operation and meaning of Coll.lean keeps the canonical form of memory.
-/

namespace Sys2Proof.Machine

set_option linter.all false

theorem good_State_modRun (s : State) (f : ℕ) (i : ℕ) (g : Coll → Coll) (h_s : s.Good) :
    (State.modRun s f i g).Good := by
  unfold State.modRun
  repeat' (with_reducible first | assumption | apply good_State_modHerd | ((first | apply good_bytes | apply good_mk); first | assumption | apply good_State_modHerd) | intro _)

theorem good_State_modPiece (s : State) (f : ℕ) (i : ℕ) (id : ℕ) (g : Piece → Piece) (h_s : s.Good) :
    (State.modPiece s f i id g).Good := by
  unfold State.modPiece
  repeat' (with_reducible first | assumption | apply good_State_modRun | apply good_ite | ((first | apply good_bytes | apply good_mk); first | assumption | apply good_State_modRun | apply good_ite) | intro _ | split)

theorem good_State_herdExc (s : State) (f : ℕ) (i : ℕ) (chunk : ℕ) (x : Exc) (h_s : s.Good) :
    (State.herdExc s f i chunk x).Good := by
  unfold State.herdExc
  repeat' (with_reducible first | assumption | apply good_State_countExc | intro _ | split)

theorem good_State_herdIbex (s : State) (f : ℕ) (i : ℕ) (chunk : ℕ) (g : IbexCnt → IbexCnt) (h_s : s.Good) :
    (State.herdIbex s f i chunk g).Good := by
  unfold State.herdIbex
  repeat' (with_reducible first | assumption | apply good_State_modIbex | intro _ | split)

theorem good_State_stepOf (s : State) (o : Option ℕ) (h_s : s.Good) :
    OkL (State.stepOf s o) := by
  unfold State.stepOf
  repeat' (with_reducible first | assumption | apply good_State_bump | refine okL_eq (by assumption) ?_ | exact okL_of (by assumption) | apply okL_fst | intro _ | split | apply okL_mk)

theorem good_State_queuePkts (s : State) (f : ℕ) (hd : ℕ) (pkts : List (ℕ × Ext)) (src : Src) (for_ : MsgFor) (h_s : s.Good) :
    (State.queuePkts s f hd pkts src for_).Good := by
  unfold State.queuePkts
  repeat' (with_reducible first | assumption | apply good_State_modConn | apply good_ite | apply good_foldl | ((first | apply good_bytes | apply good_mk); first | assumption | apply good_State_modConn | apply good_ite | apply good_foldl) | intro _ | split)

theorem good_State_collSend (s : State) (f : ℕ) (i : ℕ) (rank : ℕ) (pkts : List (ℕ × Ext)) (src : Src) (piece : ℕ) (h_s : s.Good) :
    (State.collSend s f i rank pkts src piece).Good := by
  unfold State.collSend
  repeat' (with_reducible first | assumption | apply good_State_queuePkts | intro _ | split)

theorem good_State_dropColl (s : State) (f : ℕ) (i : ℕ) (h_s : s.Good) :
    (State.dropColl s f i).Good := by
  unfold State.dropColl
  repeat' (with_reducible first | assumption | apply good_State_modConn | apply good_foldl | ((first | apply good_bytes | apply good_mk); first | assumption | apply good_State_modConn | apply good_foldl) | intro _)

theorem good_State_herdAfter (s : State) (f : ℕ) (i : ℕ) (h_s : s.Good) :
    (State.herdAfter s f i).Good := by
  unfold State.herdAfter
  repeat' (with_reducible first | assumption | apply good_State_modHerd | apply good_State_dropCircuits | apply good_State_endOp | apply good_State_herdFree | apply good_ite | ((first | apply good_bytes | apply good_mk); first | assumption | apply good_State_modHerd | apply good_State_dropCircuits | apply good_State_endOp | apply good_State_herdFree | apply good_ite) | intro _ | (extract_lets +onlyGivenNames x; first | (apply good_cut (s := x); rotate_left; clear_value x; rotate_left; subst x) | (have hf := is_fun x; clear hf; subst x) | clear_value x | subst x) | split)

theorem good_State_collStop (s : State) (f : ℕ) (i : ℕ) (st : Status) (detail : ℕ) (h_s : s.Good) :
    (State.collStop s f i st detail).Good := by
  unfold State.collStop
  repeat' (with_reducible first | assumption | apply good_State_herdAfter | apply good_State_endOp | apply good_State_dropColl | intro _ | split)

theorem good_State_herdBreak (s : State) (f : ℕ) (i : ℕ) (h_s : s.Good) :
    (State.herdBreak s f i).Good := by
  unfold State.herdBreak
  repeat' (with_reducible first | assumption | apply good_State_modHerd | apply good_State_collStop | apply good_State_endOp | apply good_foldl | ((first | apply good_bytes | apply good_mk); first | assumption | apply good_State_modHerd | apply good_State_collStop | apply good_State_endOp | apply good_foldl) | intro _ | (extract_lets +onlyGivenNames x; first | (apply good_cut (s := x); rotate_left; clear_value x; rotate_left; subst x) | (have hf := is_fun x; clear hf; subst x) | clear_value x | subst x))

theorem good_State_sendHalt (s : State) (f : ℕ) (i : ℕ) (h_s : s.Good) :
    (State.sendHalt s f i).Good := by
  unfold State.sendHalt
  repeat' (with_reducible first | assumption | apply good_State_queuePkts | apply good_foldl | intro _ | (extract_lets +onlyGivenNames x; first | (apply good_cut (s := x); rotate_left; clear_value x; rotate_left; subst x) | (have hf := is_fun x; clear hf; subst x) | clear_value x | subst x) | split)

theorem good_State_collHalt (s : State) (f : ℕ) (i : ℕ) (st : Status) (detail : ℕ) (h_s : s.Good) :
    (State.collHalt s f i st detail).Good := by
  unfold State.collHalt
  repeat' (with_reducible first | assumption | apply good_State_collStop | apply good_State_sendHalt)

theorem good_State_collBad (s : State) (f : ℕ) (i : ℕ) (addr : ℕ) (poison : Bool) (h_s : s.Good) :
    (State.collBad s f i addr poison).Good := by
  unfold State.collBad
  repeat' (with_reducible first | assumption | apply good_State_collHalt | apply good_ite | intro _ | split)

theorem good_State_collMismatch (s : State) (f : ℕ) (i : ℕ) (h_s : s.Good) :
    (State.collMismatch s f i).Good := by
  unfold State.collMismatch
  repeat' (with_reducible first | assumption | apply good_State_collHalt | apply good_ite | intro _ | split)

theorem good_State_collPark (s : State) (f : ℕ) (op : ℕ) (page : ℕ) (wr : Bool) (h_s : s.Good) :
    (State.collPark s f op page wr).Good := by
  unfold State.collPark
  repeat' (with_reducible first | assumption | apply good_State_askXlate | apply good_State_modOp | apply good_State_parkOp | apply good_ite | ((first | apply good_bytes | apply good_mk); first | assumption | apply good_State_askXlate | apply good_State_modOp | apply good_State_parkOp | apply good_ite) | intro _ | split)

theorem good_State_collReach (s : State) (f : ℕ) (i : ℕ) (l : List (Bool × ℕ × ℕ × Bool)) (k : State → State) (h_s : s.Good) (h_k : ∀ t : State, t.Good → (k t).Good) :
    (State.collReach s f i l k).Good := by
  unfold State.collReach
  repeat' (with_reducible first | assumption | apply good_State_collPark | apply good_State_collBad | apply good_State_locUse | apply h_k | apply good_ite | apply good_foldl | intro _ | split)

theorem good_State_quantSend (s : State) (f : ℕ) (i : ℕ) (c : Coll) (chunk : ℕ) (len : ℕ) (first : ℕ) (vals : List Num) (h_s : s.Good) :
    OkL (State.quantSend s f i c chunk len first vals) := by
  unfold State.quantSend
  repeat' (with_reducible first | assumption | apply good_State_sliceUse | apply good_State_sliceWrite | apply good_State_herdExc | apply good_ite | apply okL_ite | apply okL_fst | intro _ | (extract_lets +onlyGivenNames x; first | (apply good_cut (s := x); rotate_left; clear_value x; rotate_left; subst x) | (apply okL_cut (p := x); rotate_left; clear_value x; rotate_left; subst x) | (have hf := is_fun x; clear hf; subst x) | (have hf := is_cells x; clear hf; subst x) | clear_value x | subst x) | split | apply okL_mk)

theorem good_State_formFinal (s : State) (f : ℕ) (i : ℕ) (c : Coll) (p : Piece) (vals : List Num) (h_s : s.Good) :
    (State.formFinal s f i c p vals).Good := by
  unfold State.formFinal
  repeat' (with_reducible first | assumption | apply good_State_quantSend | apply good_State_modPiece | apply good_State_herdExc | apply good_ite | apply okL_ite | refine okL_eq (by assumption) ?_ | exact okL_of (by assumption) | apply okL_fst | ((first | apply good_bytes | apply good_mk); first | assumption | apply good_State_quantSend | apply good_State_modPiece | apply good_State_herdExc | apply good_ite | apply okL_ite | refine okL_eq (by assumption) ?_ | exact okL_of (by assumption) | apply okL_fst) | intro _ | (extract_lets +onlyGivenNames x; first | (apply good_cut (s := x); rotate_left; clear_value x; rotate_left; subst x) | (apply okL_cut (p := x); rotate_left; clear_value x; rotate_left; subst x) | (have hf := is_fun x; clear hf; subst x) | clear_value x | subst x) | split | apply okL_mk)

theorem good_State_combinePiece (s : State) (f : ℕ) (i : ℕ) (c : Coll) (p : Piece) (bs : List Byte) (h_s : s.Good) :
    (State.combinePiece s f i c p bs).Good := by
  unfold State.combinePiece
  repeat' (with_reducible first | assumption | apply good_State_stepOf | apply good_State_collHalt | apply good_State_herdIbex | apply good_State_modPiece | apply good_State_collSend | apply good_State_formFinal | apply good_State_herdExc | apply good_State_bump | apply good_State_quantSend | apply good_ite | apply good_foldl | apply okL_foldl | apply okL_ite | refine okL_eq (by assumption) ?_ | exact okL_of (by assumption) | apply okL_fst | ((first | apply good_bytes | apply good_mk); first | assumption | apply good_State_stepOf | apply good_State_collHalt | apply good_State_herdIbex | apply good_State_modPiece | apply good_State_collSend | apply good_State_formFinal | apply good_State_herdExc | apply good_State_bump | apply good_State_quantSend | apply good_ite | apply good_foldl | apply okL_foldl | apply okL_ite | refine okL_eq (by assumption) ?_ | exact okL_of (by assumption) | apply okL_fst) | intro _ | (extract_lets +onlyGivenNames x; first | (apply good_cut (s := x); rotate_left; clear_value x; rotate_left; subst x) | (apply okL_cut (p := x); rotate_left; clear_value x; rotate_left; subst x) | (have hf := is_fun x; clear hf; subst x) | (have hf := is_cells x; clear hf; subst x) | clear_value x | subst x) | split | apply okL_mk)

theorem good_State_pieceUp (s : State) (f : ℕ) (i : ℕ) (id : ℕ) (h_s : s.Good) :
    (State.pieceUp s f i id).Good := by
  unfold State.pieceUp
  repeat' (with_reducible first | assumption | apply good_State_collReach | apply good_State_combinePiece | apply good_ite | intro _ | (extract_lets +onlyGivenNames x; first | (apply good_cut (s := x); rotate_left; clear_value x; rotate_left; subst x) | (have hf := is_fun x; clear hf; subst x) | clear_value x | subst x) | split)

theorem good_State_pieceSource (s : State) (f : ℕ) (i : ℕ) (id : ℕ) (h_s : s.Good) :
    (State.pieceSource s f i id).Good := by
  unfold State.pieceSource
  repeat' (with_reducible first | assumption | apply good_State_collReach | apply good_State_formFinal | apply good_State_modPiece | apply good_ite | ((first | apply good_bytes | apply good_mk); first | assumption | apply good_State_collReach | apply good_State_formFinal | apply good_State_modPiece | apply good_ite) | intro _ | (extract_lets +onlyGivenNames x; first | (apply good_cut (s := x); rotate_left; clear_value x; rotate_left; subst x) | (have hf := is_fun x; clear hf; subst x) | clear_value x | subst x) | split)

theorem good_State_pieceFin (s : State) (f : ℕ) (i : ℕ) (id : ℕ) (h_s : s.Good) :
    (State.pieceFin s f i id).Good := by
  unfold State.pieceFin
  repeat' (with_reducible first | assumption | apply good_State_modPiece | apply good_ite | ((first | apply good_bytes | apply good_mk); first | assumption | apply good_State_modPiece | apply good_ite) | intro _ | split)

theorem good_State_pieceDown (s : State) (f : ℕ) (i : ℕ) (id : ℕ) (h_s : s.Good) :
    (State.pieceDown s f i id).Good := by
  unfold State.pieceDown
  repeat' (with_reducible first | assumption | apply good_State_stepOf | apply good_State_collSend | apply good_State_modPiece | apply good_ite | apply good_foldl | apply okL_foldl | apply okL_ite | refine okL_eq (by assumption) ?_ | exact okL_of (by assumption) | apply okL_fst | ((first | apply good_bytes | apply good_mk); first | assumption | apply good_State_stepOf | apply good_State_collSend | apply good_State_modPiece | apply good_ite | apply good_foldl | apply okL_foldl | apply okL_ite | refine okL_eq (by assumption) ?_ | exact okL_of (by assumption) | apply okL_fst) | intro _ | (extract_lets +onlyGivenNames x; first | (apply good_cut (s := x); rotate_left; clear_value x; rotate_left; subst x) | (apply okL_cut (p := x); rotate_left; clear_value x; rotate_left; subst x) | (have hf := is_fun x; clear hf; subst x) | (have hf := is_mem x; clear hf; subst x) | (have hf := is_cells x; clear hf; subst x) | clear_value x | subst x) | split | apply okL_mk)

theorem good_State_pieceWrite (s : State) (f : ℕ) (i : ℕ) (id : ℕ) (h_s : s.Good) :
    (State.pieceWrite s f i id).Good := by
  unfold State.pieceWrite
  repeat' (with_reducible first | assumption | apply good_State_collReach | apply good_State_herdExc | apply good_State_locWrite | apply good_State_modRun | apply good_State_modPiece | apply good_ite | ((first | apply good_bytes | apply good_mk); first | assumption | apply good_State_collReach | apply good_State_herdExc | apply good_State_locWrite | apply good_State_modRun | apply good_State_modPiece | apply good_ite) | intro _ | (extract_lets +onlyGivenNames x; first | (apply good_cut (s := x); rotate_left; clear_value x; rotate_left; subst x) | (have hf := is_fun x; clear hf; subst x) | (have hf := is_cells x; clear hf; subst x) | clear_value x | subst x) | split)

theorem good_State_pieceStep (s : State) (f : ℕ) (i : ℕ) (id : ℕ) (h_s : s.Good) :
    (State.pieceStep s f i id).Good := by
  unfold State.pieceStep
  repeat' (with_reducible first | assumption | apply good_State_pieceWrite | apply good_State_pieceDown | apply good_State_pieceUp | apply good_State_pieceSource | apply good_State_pieceFin)

theorem good_State_sendTokens (s : State) (f : ℕ) (i : ℕ) (c : Coll) (l : List ℕ) (h_s : s.Good) :
    (State.sendTokens s f i c l).Good := by
  unfold State.sendTokens
  repeat' (with_reducible first | assumption | apply good_State_collSend | apply good_foldl | intro _ | (extract_lets +onlyGivenNames x; first | (apply good_cut (s := x); rotate_left; clear_value x; rotate_left; subst x) | (have hf := is_fun x; clear hf; subst x) | clear_value x | subst x))

theorem good_State_barrierStep (s : State) (f : ℕ) (i : ℕ) (h_s : s.Good) :
    (State.barrierStep s f i).Good := by
  unfold State.barrierStep
  repeat' (with_reducible first | assumption | apply good_State_modRun | apply good_State_sendTokens | apply good_ite | ((first | apply good_bytes | apply good_mk); first | assumption | apply good_State_modRun | apply good_State_sendTokens | apply good_ite) | intro _ | (extract_lets +onlyGivenNames x; first | (apply good_cut (s := x); rotate_left; clear_value x; rotate_left; subst x) | (have hf := is_fun x; clear hf; subst x) | clear_value x | subst x) | split)

theorem good_State_rowsWire (s : State) (f : ℕ) (i : ℕ) (c : Coll) (used : List ℕ) (h_s : s.Good) :
    OkL (State.rowsWire s f i c used) := by
  unfold State.rowsWire
  repeat' (with_reducible first | assumption | apply good_State_quantSend | apply good_ite | apply good_foldl | apply okL_foldl | apply okL_ite | refine okL_eq (by assumption) ?_ | exact okL_of (by assumption) | apply okL_fst | intro _ | (extract_lets +onlyGivenNames x; first | (apply good_cut (s := x); rotate_left; clear_value x; rotate_left; subst x) | (apply okL_cut (p := x); rotate_left; clear_value x; rotate_left; subst x) | (have hf := is_fun x; clear hf; subst x) | clear_value x | subst x) | split | apply okL_mk)

theorem good_State_rowsSend (s : State) (f : ℕ) (i : ℕ) (c : Coll) (l : List RowOut) (wire : AMap (List Byte)) (h_s : s.Good) :
    (State.rowsSend s f i c l wire).Good := by
  unfold State.rowsSend
  repeat' (with_reducible first | assumption | apply good_State_modRun | apply good_State_stepOf | apply good_State_collSend | apply good_ite | apply good_foldl | apply okL_foldl | apply okL_ite | refine okL_eq (by assumption) ?_ | exact okL_of (by assumption) | apply okL_fst | ((first | apply good_bytes | apply good_mk); first | assumption | apply good_State_modRun | apply good_State_stepOf | apply good_State_collSend | apply good_ite | apply good_foldl | apply okL_foldl | apply okL_ite | refine okL_eq (by assumption) ?_ | exact okL_of (by assumption) | apply okL_fst) | intro _ | (extract_lets +onlyGivenNames x; first | (apply good_cut (s := x); rotate_left; clear_value x; rotate_left; subst x) | (apply okL_cut (p := x); rotate_left; clear_value x; rotate_left; subst x) | (have hf := is_fun x; clear hf; subst x) | (have hf := is_cells x; clear hf; subst x) | clear_value x | subst x) | split | apply okL_mk)

theorem good_State_rowsGo (s : State) (f : ℕ) (i : ℕ) (c : Coll) (n : ℕ) (l : List RowOut) (h_s : s.Good) :
    (State.rowsGo s f i c n l).Good := by
  unfold State.rowsGo
  repeat' (with_reducible first | assumption | apply good_State_collReach | apply good_State_rowsWire | apply good_State_modRun | apply good_State_rowsSend | refine okL_eq (by assumption) ?_ | exact okL_of (by assumption) | apply okL_fst | ((first | apply good_bytes | apply good_mk); first | assumption | apply good_State_collReach | apply good_State_rowsWire | apply good_State_modRun | apply good_State_rowsSend | refine okL_eq (by assumption) ?_ | exact okL_of (by assumption) | apply okL_fst) | intro _ | (extract_lets +onlyGivenNames x; first | (apply good_cut (s := x); rotate_left; clear_value x; rotate_left; subst x) | (apply okL_cut (p := x); rotate_left; clear_value x; rotate_left; subst x) | (have hf := is_fun x; clear hf; subst x) | clear_value x | subst x) | split | apply okL_mk)

theorem good_State_rowsOutStep (s : State) (f : ℕ) (i : ℕ) (h_s : s.Good) :
    (State.rowsOutStep s f i).Good := by
  unfold State.rowsOutStep
  repeat' (with_reducible first | assumption | apply good_State_collReach | apply good_State_collStop | apply good_State_rowsGo | apply good_ite | apply good_foldl | intro _ | (extract_lets +onlyGivenNames x; first | (apply good_cut (s := x); rotate_left; clear_value x; rotate_left; subst x) | (have hf := is_fun x; clear hf; subst x) | clear_value x | subst x) | split)

theorem good_State_rowsPlaced (s : State) (f : ℕ) (i : ℕ) (bytes : ℕ) (h_s : s.Good) :
    (State.rowsPlaced s f i bytes).Good := by
  unfold State.rowsPlaced
  repeat' (with_reducible first | assumption | apply good_State_modRun | apply good_State_tallyAdd | apply good_ite | ((first | apply good_bytes | apply good_mk); first | assumption | apply good_State_modRun | apply good_State_tallyAdd | apply good_ite) | intro _ | (extract_lets +onlyGivenNames x; first | (apply good_cut (s := x); rotate_left; clear_value x; rotate_left; subst x) | (have hf := is_fun x; clear hf; subst x) | (have hf := is_cells x; clear hf; subst x) | clear_value x | subst x) | split)

theorem good_State_rowsPutStep (s : State) (f : ℕ) (i : ℕ) (h_s : s.Good) :
    (State.rowsPutStep s f i).Good := by
  unfold State.rowsPutStep
  repeat' (with_reducible first | assumption | apply good_State_collReach | apply good_State_hostWrite | apply good_State_locWrite | apply good_State_rowsPlaced | apply good_State_herdExc | apply good_ite | intro _ | (extract_lets +onlyGivenNames x; first | (apply good_cut (s := x); rotate_left; clear_value x; rotate_left; subst x) | (have hf := is_fun x; clear hf; subst x) | clear_value x | subst x) | split)

theorem good_State_ptallyStep (s : State) (f : ℕ) (i : ℕ) (h_s : s.Good) :
    (State.ptallyStep s f i).Good := by
  unfold State.ptallyStep
  repeat' (with_reducible first | assumption | apply good_State_modRun | apply good_State_tallyAdd | apply good_ite | ((first | apply good_bytes | apply good_mk); first | assumption | apply good_State_modRun | apply good_State_tallyAdd | apply good_ite) | intro _ | (extract_lets +onlyGivenNames x; first | (apply good_cut (s := x); rotate_left; clear_value x; rotate_left; subst x) | (have hf := is_fun x; clear hf; subst x) | clear_value x | subst x) | split)

theorem good_State_collFinish (s : State) (f : ℕ) (i : ℕ) (h_s : s.Good) :
    (State.collFinish s f i).Good := by
  unfold State.collFinish
  repeat' (with_reducible first | assumption | apply good_State_collReach | apply good_State_hostWrite | apply good_State_sliceWrite | apply good_State_modOp | apply good_State_herdAfter | apply good_State_endOp | apply good_ite | ((first | apply good_bytes | apply good_mk); first | assumption | apply good_State_collReach | apply good_State_hostWrite | apply good_State_sliceWrite | apply good_State_modOp | apply good_State_herdAfter | apply good_State_endOp | apply good_ite) | intro _ | (extract_lets +onlyGivenNames x; first | (apply good_cut (s := x); rotate_left; clear_value x; rotate_left; subst x) | (have hf := is_fun x; clear hf; subst x) | (have hf := is_cells x; clear hf; subst x) | clear_value x | subst x) | split)

theorem good_State_collAdvance (s : State) (f : ℕ) (i : ℕ) (h_s : s.Good) :
    (State.collAdvance s f i).Good := by
  unfold State.collAdvance
  repeat' (with_reducible first | assumption | apply good_State_pieceStep | apply good_State_collFinish | apply good_State_ptallyStep | apply good_State_rowsPutStep | apply good_State_rowsOutStep | apply good_State_barrierStep | apply good_ite | apply good_foldl | intro _ | (extract_lets +onlyGivenNames x; first | (apply good_cut (s := x); rotate_left; clear_value x; rotate_left; subst x) | (have hf := is_fun x; clear hf; subst x) | clear_value x | subst x) | split)

theorem good_State_collTake (s : State) (f : ℕ) (i : ℕ) (x : BulkExt) (payload : List Byte) (h_s : s.Good) :
    (State.collTake s f i x payload).Good := by
  unfold State.collTake
  repeat' (with_reducible first | assumption | apply good_State_modRun | apply good_State_modPiece | apply good_State_collAdvance | apply good_State_wakeBlocks | apply good_ite | ((first | apply good_bytes | apply good_mk); first | assumption | apply good_State_modRun | apply good_State_modPiece | apply good_State_collAdvance | apply good_State_wakeBlocks | apply good_ite) | intro _ | (extract_lets +onlyGivenNames x; first | (apply good_cut (s := x); rotate_left; clear_value x; rotate_left; subst x) | (have hf := is_fun x; clear hf; subst x) | clear_value x | subst x) | split)

theorem good_State_collLand (s : State) (f : ℕ) (i : ℕ) (hd : ℕ) (x : BulkExt) (token : Option (Bool × Token)) (payload : List Byte) (act : State → State) (h_s : s.Good) (h_act : ∀ t : State, t.Good → (act t).Good) :
    OkR (State.collLand s f i hd x token payload act) := by
  unfold State.collLand
  repeat' (with_reducible first | assumption | apply good_State_modHerd | apply h_act | apply good_ite | apply okR_ite | refine okR_eq (by assumption) ?_ | exact okR_of (by assumption) | apply okR_snd | ((first | apply good_bytes | apply good_mk); first | assumption | apply good_State_modHerd | apply h_act | apply good_ite | apply okR_ite | refine okR_eq (by assumption) ?_ | exact okR_of (by assumption) | apply okR_snd) | intro _ | (extract_lets +onlyGivenNames x; first | (apply good_cut (s := x); rotate_left; clear_value x; rotate_left; subst x) | (apply okR_cut (p := x); rotate_left; clear_value x; rotate_left; subst x) | (have hf := is_fun x; clear hf; subst x) | clear_value x | subst x) | split | apply okR_mk)

theorem good_State_collData (s : State) (f : ℕ) (i : ℕ) (hd : ℕ) (x : BulkExt) (payload : List Byte) (h_s : s.Good) :
    OkR (State.collData s f i hd x payload) := by
  unfold State.collData
  repeat' (with_reducible first | assumption | apply good_State_collLand | apply good_State_herdBreak | apply good_State_collMismatch | apply good_State_collTake | apply good_ite | apply okR_ite | refine okR_eq (by assumption) ?_ | exact okR_of (by assumption) | apply okR_snd | intro _ | (extract_lets +onlyGivenNames x; first | (apply good_cut (s := x); rotate_left; clear_value x; rotate_left; subst x) | (apply okR_cut (p := x); rotate_left; clear_value x; rotate_left; subst x) | (have hf := is_fun x; clear hf; subst x) | clear_value x | subst x) | split | apply okR_mk)

theorem good_State_collHaltIn (s : State) (f : ℕ) (i : ℕ) (hd : ℕ) (x : BulkExt) (h_s : s.Good) :
    OkR (State.collHaltIn s f i hd x) := by
  unfold State.collHaltIn
  repeat' (with_reducible first | assumption | apply good_State_collLand | apply good_State_herdBreak | apply good_State_collMismatch | apply good_ite | apply okR_ite | refine okR_eq (by assumption) ?_ | exact okR_of (by assumption) | apply okR_snd | intro _ | (extract_lets +onlyGivenNames x; first | (apply good_cut (s := x); rotate_left; clear_value x; rotate_left; subst x) | (apply okR_cut (p := x); rotate_left; clear_value x; rotate_left; subst x) | (have hf := is_fun x; clear hf; subst x) | clear_value x | subst x) | split | apply okR_mk)

theorem good_State_collTokenIn (s : State) (f : ℕ) (i : ℕ) (hd : ℕ) (x : BulkExt) (h_s : s.Good) :
    OkR (State.collTokenIn s f i hd x) := by
  unfold State.collTokenIn
  repeat' (with_reducible first | assumption | apply good_State_collLand | apply good_State_herdBreak | apply good_State_collMismatch | apply good_State_collAdvance | apply good_State_modRun | apply good_ite | apply okR_ite | refine okR_eq (by assumption) ?_ | exact okR_of (by assumption) | apply okR_snd | ((first | apply good_bytes | apply good_mk); first | assumption | apply good_State_collLand | apply good_State_herdBreak | apply good_State_collMismatch | apply good_State_collAdvance | apply good_State_modRun | apply good_ite | apply okR_ite | refine okR_eq (by assumption) ?_ | exact okR_of (by assumption) | apply okR_snd) | intro _ | (extract_lets +onlyGivenNames x; first | (apply good_cut (s := x); rotate_left; clear_value x; rotate_left; subst x) | (apply okR_cut (p := x); rotate_left; clear_value x; rotate_left; subst x) | (have hf := is_fun x; clear hf; subst x) | clear_value x | subst x) | split | apply okR_mk)

theorem good_State_collHeld (s : State) (f : ℕ) (i : ℕ) (h_s : s.Good) :
    (State.collHeld s f i).Good := by
  unfold State.collHeld
  repeat' (with_reducible first | assumption | apply good_State_modHerd | apply good_State_collHaltIn | apply good_State_collTokenIn | apply good_State_collData | apply good_ite | apply good_foldl | apply okR_foldl | apply okR_ite | refine okR_eq (by assumption) ?_ | exact okR_of (by assumption) | apply okR_snd | ((first | apply good_bytes | apply good_mk); first | assumption | apply good_State_modHerd | apply good_State_collHaltIn | apply good_State_collTokenIn | apply good_State_collData | apply good_ite | apply good_foldl | apply okR_foldl | apply okR_ite | refine okR_eq (by assumption) ?_ | exact okR_of (by assumption) | apply okR_snd) | intro _ | (extract_lets +onlyGivenNames x; first | (apply good_cut (s := x); rotate_left; clear_value x; rotate_left; subst x) | (apply okR_cut (p := x); rotate_left; clear_value x; rotate_left; subst x) | (have hf := is_fun x; clear hf; subst x) | clear_value x | subst x) | split | apply okR_mk)

theorem good_State_collPassed (s : State) (f : ℕ) (i : ℕ) (x : BulkExt) (h_s : s.Good) :
    (State.collPassed s f i x).Good := by
  unfold State.collPassed
  repeat' (with_reducible first | assumption | apply good_State_collAdvance | apply good_State_modRun | apply good_ite | ((first | apply good_bytes | apply good_mk); first | assumption | apply good_State_collAdvance | apply good_State_modRun | apply good_ite) | intro _ | (extract_lets +onlyGivenNames x; first | (apply good_cut (s := x); rotate_left; clear_value x; rotate_left; subst x) | (have hf := is_fun x; clear hf; subst x) | clear_value x | subst x) | split)

theorem good_State_collAcked (s : State) (f : ℕ) (i : ℕ) (id : ℕ) (x : BulkExt) (rank : ℕ) (h_s : s.Good) :
    (State.collAcked s f i id x rank).Good := by
  unfold State.collAcked
  repeat' (with_reducible first | assumption | apply good_State_modPiece | apply good_State_collAdvance | apply good_ite | ((first | apply good_bytes | apply good_mk); first | assumption | apply good_State_modPiece | apply good_State_collAdvance | apply good_ite) | intro _ | (extract_lets +onlyGivenNames x; first | (apply good_cut (s := x); rotate_left; clear_value x; rotate_left; subst x) | (have hf := is_fun x; clear hf; subst x) | clear_value x | subst x) | split)

theorem good_State_collTables (s : State) (f : ℕ) (id : ℕ) (opcode : ℕ) (b : CollBody) (k : State → State) (h_s : s.Good) (h_k : ∀ t : State, t.Good → (k t).Good) :
    (State.collTables s f id opcode b k).Good := by
  unfold State.collTables
  repeat' (with_reducible first | assumption | apply good_State_readHostFor | apply good_State_checked | apply h_k | apply good_ite | intro _ | split)

theorem good_effColl (opcode : ℕ) (e : Entry) (b : CollBody) (f : ℕ) (id : ℕ) (s : State) (h_s : s.Good) :
    (effColl opcode e b f id s).Good := by
  unfold effColl
  repeat' (with_reducible first | assumption | apply good_State_collAdvance | apply good_State_checked | apply good_State_collTables | apply good_State_modHerd | apply good_State_modOp | apply good_ite | ((first | apply good_bytes | apply good_mk); first | assumption | apply good_State_collAdvance | apply good_State_checked | apply good_State_collTables | apply good_State_modHerd | apply good_State_modOp | apply good_ite) | intro _ | (extract_lets +onlyGivenNames x; first | (apply good_cut (s := x); rotate_left; clear_value x; rotate_left; subst x) | (have hf := is_fun x; clear hf; subst x) | clear_value x | subst x) | split)

theorem good_State_collCircuits (s : State) (f : ℕ) (i : ℕ) (h_s : s.Good) :
    (State.collCircuits s f i).Good := by
  unfold State.collCircuits
  repeat' (with_reducible first | assumption | apply good_State_reqCircuit | apply good_ite | apply good_foldl | intro _ | (extract_lets +onlyGivenNames x; first | (apply good_cut (s := x); rotate_left; clear_value x; rotate_left; subst x) | (have hf := is_fun x; clear hf; subst x) | clear_value x | subst x) | split)

theorem good_State_resetResidual (s : State) (f : ℕ) (c : Coll) (n : ℕ) (h_s : s.Good) :
    (State.resetResidual s f c n).Good := by
  unfold State.resetResidual
  repeat' (with_reducible first | assumption | apply good_State_sliceWrite | apply good_ite | intro _ | (extract_lets +onlyGivenNames x; first | (apply good_cut (s := x); rotate_left; clear_value x; rotate_left; subst x) | clear_value x | subst x) | split)

theorem good_State_collStart (s : State) (f : ℕ) (i : ℕ) (h_s : s.Good) :
    (State.collStart s f i).Good := by
  unfold State.collStart
  repeat' (with_reducible first | assumption | apply good_State_herdAfter | apply good_State_endOp | apply good_State_modHerd | apply good_State_wakeBlocks | apply good_State_collCircuits | apply good_State_resetResidual | apply good_State_herdOpenAll | apply good_State_collAdvance | apply good_State_collHeld | apply good_State_collHalt | apply good_ite | apply okL_ite | refine okL_eq (by assumption) ?_ | exact okL_of (by assumption) | apply okL_fst | ((first | apply good_bytes | apply good_mk); first | assumption | apply good_State_herdAfter | apply good_State_endOp | apply good_State_modHerd | apply good_State_wakeBlocks | apply good_State_collCircuits | apply good_State_resetResidual | apply good_State_herdOpenAll | apply good_State_collAdvance | apply good_State_collHeld | apply good_State_collHalt | apply good_ite | apply okL_ite | refine okL_eq (by assumption) ?_ | exact okL_of (by assumption) | apply okL_fst) | intro _ | (extract_lets +onlyGivenNames x; first | (apply good_cut (s := x); rotate_left; clear_value x; rotate_left; subst x) | (apply okL_cut (p := x); rotate_left; clear_value x; rotate_left; subst x) | (have hf := is_fun x; clear hf; subst x) | (have hf := is_mem x; clear hf; subst x) | clear_value x | subst x) | split | apply okL_mk)

theorem good_execCollAllreduce (e : Entry) (b : CollBody) (s : State) (h_s : s.Good) :
    OkOut (execCollAllreduce e b s) := by
  unfold execCollAllreduce
  repeat' (with_reducible first | assumption | apply good_State_settle | apply good_State_startEntry | apply good_effColl | apply okOut_next)

theorem good_execCollReduceScatter (e : Entry) (b : CollBody) (s : State) (h_s : s.Good) :
    OkOut (execCollReduceScatter e b s) := by
  unfold execCollReduceScatter
  repeat' (with_reducible first | assumption | apply good_State_settle | apply good_State_startEntry | apply good_effColl | apply okOut_next)

theorem good_execCollAllgather (e : Entry) (b : CollBody) (s : State) (h_s : s.Good) :
    OkOut (execCollAllgather e b s) := by
  unfold execCollAllgather
  repeat' (with_reducible first | assumption | apply good_State_settle | apply good_State_startEntry | apply good_effColl | apply okOut_next)

theorem good_execCollBcast (e : Entry) (b : CollBody) (s : State) (h_s : s.Good) :
    OkOut (execCollBcast e b s) := by
  unfold execCollBcast
  repeat' (with_reducible first | assumption | apply good_State_settle | apply good_State_startEntry | apply good_effColl | apply okOut_next)

theorem good_execCollReduce (e : Entry) (b : CollBody) (s : State) (h_s : s.Good) :
    OkOut (execCollReduce e b s) := by
  unfold execCollReduce
  repeat' (with_reducible first | assumption | apply good_State_settle | apply good_State_startEntry | apply good_effColl | apply okOut_next)

theorem good_execCollAlltoall (e : Entry) (b : CollBody) (s : State) (h_s : s.Good) :
    OkOut (execCollAlltoall e b s) := by
  unfold execCollAlltoall
  repeat' (with_reducible first | assumption | apply good_State_settle | apply good_State_startEntry | apply good_effColl | apply okOut_next)

theorem good_execCollDispatch (e : Entry) (b : CollBody) (s : State) (h_s : s.Good) :
    OkOut (execCollDispatch e b s) := by
  unfold execCollDispatch
  repeat' (with_reducible first | assumption | apply good_State_settle | apply good_State_startEntry | apply good_effColl | apply okOut_next)

theorem good_execCollCombine (e : Entry) (b : CollBody) (s : State) (h_s : s.Good) :
    OkOut (execCollCombine e b s) := by
  unfold execCollCombine
  repeat' (with_reducible first | assumption | apply good_State_settle | apply good_State_startEntry | apply good_effColl | apply okOut_next)

theorem good_execCollBarrier (e : Entry) (b : CollBody) (s : State) (h_s : s.Good) :
    OkOut (execCollBarrier e b s) := by
  unfold execCollBarrier
  repeat' (with_reducible first | assumption | apply good_State_settle | apply good_State_startEntry | apply good_effColl | apply okOut_next)

end Sys2Proof.Machine
end

