-- ==== Sys2Proof/Laws/GoodReform.lean ====
section
/-!
SUPPORT. GoodReform.lean: every operation and meaning of Reform.lean keeps the canonical form of memory.
-/

namespace Sys2Proof.Machine

set_option linter.all false

theorem good_State_markOne (f : ℕ) (i : ℕ) (commit : Bool) (s : State) (t : Token) (h_s : s.Good) :
    OkL (State.markOne f i commit s t) := by
  unfold State.markOne
  repeat' (with_reducible first | assumption | apply good_State_herdBreak | apply good_State_modHerd | apply good_State_queuePkts | apply good_State_herdOpen | apply good_ite | apply okL_ite | refine okL_eq (by assumption) ?_ | exact okL_of (by assumption) | apply okL_fst | ((first | apply good_bytes | apply good_mk); first | assumption | apply good_State_herdBreak | apply good_State_modHerd | apply good_State_queuePkts | apply good_State_herdOpen | apply good_ite | apply okL_ite | refine okL_eq (by assumption) ?_ | exact okL_of (by assumption) | apply okL_fst) | intro _ | (extract_lets +onlyGivenNames x; first | (apply good_cut (s := x); rotate_left; clear_value x; rotate_left; subst x) | (apply okL_cut (p := x); rotate_left; clear_value x; rotate_left; subst x) | (have hf := is_fun x; clear hf; subst x) | (have hf := is_mem x; clear hf; subst x) | (have hf := is_cells x; clear hf; subst x) | clear_value x | subst x) | split | apply okL_mk)

theorem good_markGo (fuel : ℕ) (s : State) (f : ℕ) (i : ℕ) (commit : Bool) (t : Token) (h_s : s.Good) :
    (markGo fuel s f i commit t).Good := by
  unfold markGo
  repeat' (with_reducible first | assumption | apply good_loop | apply good_State_markOne | apply okL_fst | apply okL_mk)

theorem good_State_sendToken (s : State) (f : ℕ) (i : ℕ) (commit : Bool) (t : Token) (h_s : s.Good) :
    (State.sendToken s f i commit t).Good := by
  unfold State.sendToken
  repeat' (with_reducible first | assumption | apply good_markGo)

theorem good_State_startLap (s : State) (f : ℕ) (i : ℕ) (h_s : s.Good) :
    (State.startLap s f i).Good := by
  unfold State.startLap
  repeat' (with_reducible first | assumption | apply good_State_herdBreak | apply good_State_sendToken | apply good_State_modHerd | apply good_ite | ((first | apply good_bytes | apply good_mk); first | assumption | apply good_State_herdBreak | apply good_State_sendToken | apply good_State_modHerd | apply good_ite) | intro _ | (extract_lets +onlyGivenNames x; first | (apply good_cut (s := x); rotate_left; clear_value x; rotate_left; subst x) | (have hf := is_fun x; clear hf; subst x) | (have hf := is_mem x; clear hf; subst x) | clear_value x | subst x) | split)

theorem good_State_reformEnter (s : State) (f : ℕ) (i : ℕ) (h_s : s.Good) :
    (State.reformEnter s f i).Good := by
  unfold State.reformEnter
  repeat' (with_reducible first | assumption | apply good_State_modHerd | apply good_ite | ((first | apply good_bytes | apply good_mk); first | assumption | apply good_State_modHerd | apply good_ite) | intro _ | split)

theorem good_State_herdDeclare (s : State) (f : ℕ) (i : ℕ) (orig : ℕ) (h_s : s.Good) :
    (State.herdDeclare s f i orig).Good := by
  unfold State.herdDeclare
  repeat' (with_reducible first | assumption | apply good_State_modHerd | apply good_State_reformEnter | apply good_State_startLap | apply good_ite | ((first | apply good_bytes | apply good_mk); first | assumption | apply good_State_modHerd | apply good_State_reformEnter | apply good_State_startLap | apply good_ite) | intro _ | (extract_lets +onlyGivenNames x; first | (apply good_cut (s := x); rotate_left; clear_value x; rotate_left; subst x) | (have hf := is_fun x; clear hf; subst x) | (have hf := is_mem x; clear hf; subst x) | clear_value x | subst x) | split)

theorem good_State_herdEmpty (s : State) (f : ℕ) (i : ℕ) (h_s : s.Good) :
    (State.herdEmpty s f i).Good := by
  unfold State.herdEmpty
  repeat' (with_reducible first | assumption | apply good_State_startLap | apply good_State_reformEnter | apply good_ite | intro _ | (extract_lets +onlyGivenNames x; first | (apply good_cut (s := x); rotate_left; clear_value x; rotate_left; subst x) | clear_value x | subst x) | split)

theorem good_State_heartbeat (s : State) (f : ℕ) (i : ℕ) (h_s : s.Good) :
    (State.heartbeat s f i).Good := by
  unfold State.heartbeat
  repeat' (with_reducible first | assumption | apply good_State_modHerd | apply good_State_sendCtl | apply good_ite | apply good_foldl | ((first | apply good_bytes | apply good_mk); first | assumption | apply good_State_modHerd | apply good_State_sendCtl | apply good_ite | apply good_foldl) | intro _ | (extract_lets +onlyGivenNames x; first | (apply good_cut (s := x); rotate_left; clear_value x; rotate_left; subst x) | (have hf := is_fun x; clear hf; subst x) | clear_value x | subst x) | split)

theorem good_execHeartbeatTimer (fn : Fn) (herd : ℕ) (now : ℕ) (s : State) (h_s : s.Good) :
    OkOut (execHeartbeatTimer fn herd now s) := by
  unfold execHeartbeatTimer
  repeat' (with_reducible first | assumption | apply good_State_heartbeat | apply good_State_tick | apply okOut_next)

theorem good_State_herdSeen (s : State) (f : ℕ) (hd : ℕ) (h_s : s.Good) :
    (State.herdSeen s f hd).Good := by
  unfold State.herdSeen
  repeat' (with_reducible first | assumption | apply good_State_modHerd | ((first | apply good_bytes | apply good_mk); first | assumption | apply good_State_modHerd) | intro _ | split)

theorem good_State_heartbeatMiss (s : State) (f : ℕ) (i : ℕ) (h_s : s.Good) :
    (State.heartbeatMiss s f i).Good := by
  unfold State.heartbeatMiss
  repeat' (with_reducible first | assumption | apply good_State_herdDeclare | apply good_ite | apply good_foldl | intro _ | (extract_lets +onlyGivenNames x; first | (apply good_cut (s := x); rotate_left; clear_value x; rotate_left; subst x) | (have hf := is_fun x; clear hf; subst x) | clear_value x | subst x) | split)

theorem good_execHeartbeatMiss (fn : Fn) (herd : ℕ) (now : ℕ) (s : State) (h_s : s.Good) :
    OkOut (execHeartbeatMiss fn herd now s) := by
  unfold execHeartbeatMiss
  repeat' (with_reducible first | assumption | apply good_State_heartbeatMiss | apply good_State_tick | apply okOut_next)

theorem good_State_dropMember (s : State) (f : ℕ) (i : ℕ) (orig : ℕ) (h_s : s.Good) :
    (State.dropMember s f i orig).Good := by
  unfold State.dropMember
  repeat' (with_reducible first | assumption | apply good_State_modHerd | apply good_State_freeConn | apply good_State_sendAborts | apply good_ite | ((first | apply good_bytes | apply good_mk); first | assumption | apply good_State_modHerd | apply good_State_freeConn | apply good_State_sendAborts | apply good_ite) | intro _ | (extract_lets +onlyGivenNames x; first | (apply good_cut (s := x); rotate_left; clear_value x; rotate_left; subst x) | (have hf := is_fun x; clear hf; subst x) | clear_value x | subst x) | split)

theorem good_State_openNeeded (s : State) (f : ℕ) (i : ℕ) (h_s : s.Good) :
    (State.openNeeded s f i).Good := by
  unfold State.openNeeded
  repeat' (with_reducible first | assumption | apply good_State_herdOpen | apply good_State_herdDeclare | apply good_ite | apply good_foldl | apply okL_foldl | apply okL_ite | apply okL_fst | intro _ | (extract_lets +onlyGivenNames x; first | (apply good_cut (s := x); rotate_left; clear_value x; rotate_left; subst x) | (apply okL_cut (p := x); rotate_left; clear_value x; rotate_left; subst x) | (have hf := is_fun x; clear hf; subst x) | clear_value x | subst x) | split | apply okL_mk)

theorem good_State_takeCommit (s : State) (f : ℕ) (i : ℕ) (t : Token) (h_s : s.Good) :
    (State.takeCommit s f i t).Good := by
  unfold State.takeCommit
  repeat' (with_reducible first | assumption | apply good_State_herdBreak | apply good_State_modHerd | apply good_State_dropMember | apply good_State_sendToken | apply good_State_openNeeded | apply good_ite | apply good_foldl | ((first | apply good_bytes | apply good_mk); first | assumption | apply good_State_herdBreak | apply good_State_modHerd | apply good_State_dropMember | apply good_State_sendToken | apply good_State_openNeeded | apply good_ite | apply good_foldl) | intro _ | (extract_lets +onlyGivenNames x; first | (apply good_cut (s := x); rotate_left; clear_value x; rotate_left; subst x) | (have hf := is_fun x; clear hf; subst x) | (have hf := is_mem x; clear hf; subst x) | clear_value x | subst x) | split)

theorem good_State_propose (s : State) (f : ℕ) (i : ℕ) (t : Token) (h_s : s.Good) :
    (State.propose s f i t).Good := by
  unfold State.propose
  repeat' (with_reducible first | assumption | apply good_State_reformEnter | apply good_State_herdBreak | apply good_State_modHerd | apply good_State_sendToken | apply good_ite | ((first | apply good_bytes | apply good_mk); first | assumption | apply good_State_reformEnter | apply good_State_herdBreak | apply good_State_modHerd | apply good_State_sendToken | apply good_ite) | intro _ | (extract_lets +onlyGivenNames x; first | (apply good_cut (s := x); rotate_left; clear_value x; rotate_left; subst x) | (have hf := is_fun x; clear hf; subst x) | (have hf := is_mem x; clear hf; subst x) | clear_value x | subst x) | split)

theorem good_State_tokenAct (s : State) (f : ℕ) (i : ℕ) (commit : Bool) (t : Token) (h_s : s.Good) :
    (State.tokenAct s f i commit t).Good := by
  unfold State.tokenAct
  repeat' (with_reducible first | assumption | apply good_State_takeCommit | apply good_State_propose | apply good_ite | intro _ | split)

theorem good_State_tokenIn (s : State) (f : ℕ) (i : ℕ) (hd : ℕ) (commit : Bool) (t : Token) (h_s : s.Good) :
    (State.tokenIn s f i hd commit t).Good := by
  unfold State.tokenIn
  repeat' (with_reducible first | assumption | apply good_State_modHerd | apply good_State_herdBreak | apply good_State_tokenAct | apply good_ite | ((first | apply good_bytes | apply good_mk); first | assumption | apply good_State_modHerd | apply good_State_herdBreak | apply good_State_tokenAct | apply good_ite) | intro _ | (extract_lets +onlyGivenNames x; first | (apply good_cut (s := x); rotate_left; clear_value x; rotate_left; subst x) | (have hf := is_fun x; clear hf; subst x) | clear_value x | subst x) | split)

theorem good_State_heldTokens (s : State) (f : ℕ) (i : ℕ) (h_s : s.Good) :
    (State.heldTokens s f i).Good := by
  unfold State.heldTokens
  repeat' (with_reducible first | assumption | apply good_State_modHerd | apply good_State_tokenIn | apply good_foldl | ((first | apply good_bytes | apply good_mk); first | assumption | apply good_State_modHerd | apply good_State_tokenIn | apply good_foldl) | intro _ | (extract_lets +onlyGivenNames x; first | (apply good_cut (s := x); rotate_left; clear_value x; rotate_left; subst x) | (have hf := is_fun x; clear hf; subst x) | clear_value x | subst x) | split)

theorem good_State_tokenPass (s : State) (f : ℕ) (i : ℕ) (hd : ℕ) (commit : Bool) (t : Token) (h_s : s.Good) :
    (State.tokenPass s f i hd commit t).Good := by
  unfold State.tokenPass
  repeat' (with_reducible first | assumption | apply good_State_tokenIn | apply good_State_heldTokens | apply good_ite | intro _ | (extract_lets +onlyGivenNames x; first | (apply good_cut (s := x); rotate_left; clear_value x; rotate_left; subst x) | clear_value x | subst x) | split)

theorem good_State_proposeLap (s : State) (f : ℕ) (i : ℕ) (h_s : s.Good) :
    (State.proposeLap s f i).Good := by
  unfold State.proposeLap
  repeat' (with_reducible first | assumption | apply good_State_startLap | apply good_ite | intro _ | (extract_lets +onlyGivenNames x; first | (apply good_cut (s := x); rotate_left; clear_value x; rotate_left; subst x) | clear_value x | subst x) | split)

theorem good_execProposeLapTimer (fn : Fn) (herd : ℕ) (now : ℕ) (s : State) (h_s : s.Good) :
    OkOut (execProposeLapTimer fn herd now s) := by
  unfold execProposeLapTimer
  repeat' (with_reducible first | assumption | apply good_State_proposeLap | apply good_State_tick | apply okOut_next)

theorem good_State_settleHerd (s : State) (f : ℕ) (i : ℕ) (h_s : s.Good) :
    (State.settleHerd s f i).Good := by
  unfold State.settleHerd
  repeat' (with_reducible first | assumption | apply good_State_heldTokens | apply good_State_takeCommit | apply good_ite | intro _ | (extract_lets +onlyGivenNames x; first | (apply good_cut (s := x); rotate_left; clear_value x; rotate_left; subst x) | (have hf := is_fun x; clear hf; subst x) | (have hf := is_mem x; clear hf; subst x) | clear_value x | subst x) | split)

theorem good_execSettleTimer (fn : Fn) (herd : ℕ) (now : ℕ) (s : State) (h_s : s.Good) :
    OkOut (execSettleTimer fn herd now s) := by
  unfold execSettleTimer
  repeat' (with_reducible first | assumption | apply good_State_settleHerd | apply good_State_tick | apply okOut_next)

theorem good_State_agreeHerd (s : State) (f : ℕ) (i : ℕ) (h_s : s.Good) :
    (State.agreeHerd s f i).Good := by
  unfold State.agreeHerd
  repeat' (with_reducible first | assumption | apply good_State_herdBreak | apply good_ite | intro _ | (extract_lets +onlyGivenNames x; first | (apply good_cut (s := x); rotate_left; clear_value x; rotate_left; subst x) | clear_value x | subst x) | split)

theorem good_execAgreeTimer (fn : Fn) (herd : ℕ) (now : ℕ) (s : State) (h_s : s.Good) :
    OkOut (execAgreeTimer fn herd now s) := by
  unfold execAgreeTimer
  repeat' (with_reducible first | assumption | apply good_State_agreeHerd | apply good_State_tick | apply okOut_next)

theorem good_State_herdResume (s : State) (f : ℕ) (i : ℕ) (sources : List (ℕ × ℕ)) (h_s : s.Good) :
    (State.herdResume s f i sources).Good := by
  unfold State.herdResume
  repeat' (with_reducible first | assumption | apply good_State_modHerd | apply good_State_heldTokens | apply good_State_endOp | apply good_State_herdFree | apply good_State_dropColl | apply good_State_modRun | apply good_State_herdOpenAll | apply good_State_collAdvance | apply good_State_collHeld | apply good_State_collHalt | apply good_ite | apply okL_ite | refine okL_eq (by assumption) ?_ | exact okL_of (by assumption) | apply okL_fst | ((first | apply good_bytes | apply good_mk); first | assumption | apply good_State_modHerd | apply good_State_heldTokens | apply good_State_endOp | apply good_State_herdFree | apply good_State_dropColl | apply good_State_modRun | apply good_State_herdOpenAll | apply good_State_collAdvance | apply good_State_collHeld | apply good_State_collHalt | apply good_ite | apply okL_ite | refine okL_eq (by assumption) ?_ | exact okL_of (by assumption) | apply okL_fst) | intro _ | (extract_lets +onlyGivenNames x; first | (apply good_cut (s := x); rotate_left; clear_value x; rotate_left; subst x) | (apply okL_cut (p := x); rotate_left; clear_value x; rotate_left; subst x) | (have hf := is_fun x; clear hf; subst x) | (have hf := is_mem x; clear hf; subst x) | (have hf := is_cells x; clear hf; subst x) | clear_value x | subst x) | split | apply okL_mk)

theorem good_execCollectiveResume (fn : Fn) (herd : ℕ) (sources : List (ℕ × ℕ)) (s : State) (h_s : s.Good) :
    OkOut (execCollectiveResume fn herd sources s) := by
  unfold execCollectiveResume
  repeat' (with_reducible first | assumption | apply good_State_settle | apply good_State_herdResume | apply okOut_next)

theorem good_execCollStart (fn : Fn) (herd : ℕ) (s : State) (h_s : s.Good) :
    OkOut (execCollStart fn herd s) := by
  unfold execCollStart
  repeat' (with_reducible first | assumption | apply good_State_settle | apply good_State_collStart | apply okOut_next)

theorem good_State_herdUp (s : State) (f : ℕ) (hd : ℕ) (h_s : s.Good) :
    (State.herdUp s f hd).Good := by
  unfold State.herdUp
  repeat' (with_reducible first | assumption | apply good_State_modHerd | apply good_State_herdReady | apply good_State_sendToken | apply good_State_collAdvance | apply good_ite | apply good_foldl | ((first | apply good_bytes | apply good_mk); first | assumption | apply good_State_modHerd | apply good_State_herdReady | apply good_State_sendToken | apply good_State_collAdvance | apply good_ite | apply good_foldl) | intro _ | (extract_lets +onlyGivenNames x; first | (apply good_cut (s := x); rotate_left; clear_value x; rotate_left; subst x) | (have hf := is_fun x; clear hf; subst x) | clear_value x | subst x) | split)

theorem good_State_tokenSkip (s : State) (f : ℕ) (i : ℕ) (o : ℕ) (h_s : s.Good) :
    (State.tokenSkip s f i o).Good := by
  unfold State.tokenSkip
  repeat' (with_reducible first | assumption | apply good_State_sendToken | apply good_ite | apply good_foldl | ((first | apply good_bytes | apply good_mk); first | assumption | apply good_State_sendToken | apply good_ite | apply good_foldl) | intro _ | (extract_lets +onlyGivenNames x; first | (apply good_cut (s := x); rotate_left; clear_value x; rotate_left; subst x) | (have hf := is_fun x; clear hf; subst x) | clear_value x | subst x) | split)

theorem good_State_herdDown (s : State) (f : ℕ) (hd : ℕ) (h_s : s.Good) :
    (State.herdDown s f hd).Good := by
  unfold State.herdDown
  repeat' (with_reducible first | assumption | apply good_State_modHerd | apply good_State_freeConn | apply good_State_herdDeclare | apply good_State_tokenSkip | ((first | apply good_bytes | apply good_mk); first | assumption | apply good_State_modHerd | apply good_State_freeConn | apply good_State_herdDeclare | apply good_State_tokenSkip) | intro _ | (extract_lets +onlyGivenNames x; first | (apply good_cut (s := x); rotate_left; clear_value x; rotate_left; subst x) | (have hf := is_fun x; clear hf; subst x) | clear_value x | subst x) | split)

theorem good_State_herdFail (s : State) (f : ℕ) (i : ℕ) (o : ℕ) (h_s : s.Good) :
    (State.herdFail s f i o).Good := by
  unfold State.herdFail
  repeat' (with_reducible first | assumption | apply good_State_modHerd | apply good_State_herdDeclare | apply good_State_tokenSkip | apply good_State_collHalt | apply good_ite | ((first | apply good_bytes | apply good_mk); first | assumption | apply good_State_modHerd | apply good_State_herdDeclare | apply good_State_tokenSkip | apply good_State_collHalt | apply good_ite) | intro _ | (extract_lets +onlyGivenNames x; first | (apply good_cut (s := x); rotate_left; clear_value x; rotate_left; subst x) | (have hf := is_fun x; clear hf; subst x) | clear_value x | subst x) | split)

end Sys2Proof.Machine
end

