-- ==== Sys2Proof/Laws/GoodAttn.lean ====
section
/-!
SUPPORT. GoodAttn.lean: every operation and meaning of Attn.lean keeps the canonical form of memory.
-/

namespace Sys2Proof.Machine

set_option linter.all false

theorem good_State_modSess (s : State) (f : ℕ) (i : ℕ) (g : Sess → Sess) (h_s : s.Good) :
    (State.modSess s f i g).Good := by
  unfold State.modSess
  repeat' (with_reducible first | assumption | apply good_State_modFn | ((first | apply good_bytes | apply good_mk); first | assumption | apply good_State_modFn) | intro _)

theorem good_State_kvAdmit (s : State) (f : ℕ) (conn : Option ℕ) (msn : ℕ) (k : KvExt) (h_s : s.Good) :
    OkR (State.kvAdmit s f conn msn k) := by
  unfold State.kvAdmit
  repeat' (with_reducible first | assumption | apply good_State_modSess | apply good_State_modFn | apply good_ite | apply okR_ite | refine okR_eq (by assumption) ?_ | exact okR_of (by assumption) | apply okR_snd | ((first | apply good_bytes | apply good_mk); first | assumption | apply good_State_modSess | apply good_State_modFn | apply good_ite | apply okR_ite | refine okR_eq (by assumption) ?_ | exact okR_of (by assumption) | apply okR_snd) | intro _ | (extract_lets +onlyGivenNames x; first | (apply good_cut (s := x); rotate_left; clear_value x; rotate_left; subst x) | (apply okR_cut (p := x); rotate_left; clear_value x; rotate_left; subst x) | (have hf := is_fun x; clear hf; subst x) | clear_value x | subst x) | split | apply okR_mk)

theorem good_State_kvPlace (s : State) (f : ℕ) (conn : Option ℕ) (msn : ℕ) (k : KvExt) (payload : List Byte) (h_s : s.Good) :
    (State.kvPlace s f conn msn k payload).Good := by
  unfold State.kvPlace
  repeat' (with_reducible first | assumption | apply good_State_modSess | apply good_ite | ((first | apply good_bytes | apply good_mk); first | assumption | apply good_State_modSess | apply good_ite) | intro _ | (extract_lets +onlyGivenNames x; first | (apply good_cut (s := x); rotate_left; clear_value x; rotate_left; subst x) | (have hf := is_fun x; clear hf; subst x) | clear_value x | subst x) | split)

theorem good_State_kvAbandon (s : State) (f : ℕ) (h : ℕ) (msn : Option ℕ) (h_s : s.Good) :
    (State.kvAbandon s f h msn).Good := by
  unfold State.kvAbandon
  repeat' (with_reducible first | assumption | apply good_State_modFn | ((first | apply good_bytes | apply good_mk); first | assumption | apply good_State_modFn) | intro _ | (extract_lets +onlyGivenNames x; first | (apply good_cut (s := x); rotate_left; clear_value x; rotate_left; subst x) | (have hf := is_fun x; clear hf; subst x) | clear_value x | subst x) | split)

theorem good_State_localOne (f : ℕ) (id : ℕ) (s : State) (x_u : Unit) (h_s : s.Good) :
    OkL (State.localOne f id s x_u) := by
  unfold State.localOne
  repeat' (with_reducible first | assumption | apply good_State_feedEnd | apply good_State_collPark | apply good_State_endOp | apply good_State_modFn | apply good_State_kvAdmit | apply good_State_modFeed | apply good_State_kvPlace | apply good_ite | apply okR_ite | refine okR_eq (by assumption) ?_ | exact okR_of (by assumption) | apply okR_snd | apply okL_ite | refine okL_eq (by assumption) ?_ | exact okL_of (by assumption) | apply okL_fst | ((first | apply good_bytes | apply good_mk); first | assumption | apply good_State_feedEnd | apply good_State_collPark | apply good_State_endOp | apply good_State_modFn | apply good_State_kvAdmit | apply good_State_modFeed | apply good_State_kvPlace | apply good_ite | apply okR_ite | refine okR_eq (by assumption) ?_ | exact okR_of (by assumption) | apply okR_snd | apply okL_ite | refine okL_eq (by assumption) ?_ | exact okL_of (by assumption) | apply okL_fst) | intro _ | (extract_lets +onlyGivenNames x; first | (apply good_cut (s := x); rotate_left; clear_value x; rotate_left; subst x) | (apply okR_cut (p := x); rotate_left; clear_value x; rotate_left; subst x) | (apply okL_cut (p := x); rotate_left; clear_value x; rotate_left; subst x) | (have hf := is_fun x; clear hf; subst x) | (have hf := is_cells x; clear hf; subst x) | clear_value x | subst x) | split | apply okR_mk | apply okL_mk)

theorem good_localGo (fuel : ℕ) (s : State) (f : ℕ) (id : ℕ) (h_s : s.Good) :
    (localGo fuel s f id).Good := by
  unfold localGo
  repeat' (with_reducible first | assumption | apply good_loop | apply good_State_localOne | apply okL_fst | apply okL_mk)

theorem good_State_localFeeds (s : State) (f : ℕ) (h_s : s.Good) :
    (State.localFeeds s f).Good := by
  unfold State.localFeeds
  repeat' (with_reducible first | assumption | apply good_localGo | apply good_foldl | intro _)

theorem good_feedQueue (s : State) (f : ℕ) (id : ℕ) (b : FeedBody) (l : List ℕ) (h_s : s.Good) :
    (feedQueue s f id b l).Good := by
  unfold feedQueue
  repeat' (with_reducible first | assumption | apply good_State_queuePkts | apply good_State_modFeed | apply good_foldl | ((first | apply good_bytes | apply good_mk); first | assumption | apply good_State_queuePkts | apply good_State_modFeed | apply good_foldl) | intro _ | (extract_lets +onlyGivenNames x; first | (apply good_cut (s := x); rotate_left; clear_value x; rotate_left; subst x) | (have hf := is_fun x; clear hf; subst x) | clear_value x | subst x))

theorem good_effAttnFeed (b : FeedBody) (f : ℕ) (id : ℕ) (s : State) (h_s : s.Good) :
    (effAttnFeed b f id s).Good := by
  unfold effAttnFeed
  repeat' (with_reducible first | assumption | apply good_State_localFeeds | apply good_State_checked | apply good_State_modOp | apply good_State_modFn | apply good_localGo | apply good_feedQueue | apply good_ite | ((first | apply good_bytes | apply good_mk); first | assumption | apply good_State_localFeeds | apply good_State_checked | apply good_State_modOp | apply good_State_modFn | apply good_localGo | apply good_feedQueue | apply good_ite) | intro _ | (extract_lets +onlyGivenNames x; first | (apply good_cut (s := x); rotate_left; clear_value x; rotate_left; subst x) | (have hf := is_fun x; clear hf; subst x) | clear_value x | subst x) | split)

theorem good_execAttnFeed (e : Entry) (b : FeedBody) (s : State) (h_s : s.Good) :
    OkOut (execAttnFeed e b s) := by
  unfold execAttnFeed
  repeat' (with_reducible first | assumption | apply good_State_settle | apply good_State_startEntry | apply good_effAttnFeed | apply okOut_next)

theorem good_State_attnCircuits (s : State) (f : ℕ) (i : ℕ) (b : AttnBody) (h_s : s.Good) :
    (State.attnCircuits s f i b).Good := by
  unfold State.attnCircuits
  repeat' (with_reducible first | assumption | apply good_State_reqCircuit | apply good_ite | apply good_foldl | intro _ | split)

theorem good_State_sessFree (s : State) (f : ℕ) (i : ℕ) (h_s : s.Good) :
    (State.sessFree s f i).Good := by
  unfold State.sessFree
  repeat' (with_reducible first | assumption | apply good_State_modFn | apply good_State_dropCircuits | ((first | apply good_bytes | apply good_mk); first | assumption | apply good_State_modFn | apply good_State_dropCircuits) | intro _)

theorem good_State_sessFail (s : State) (f : ℕ) (i : ℕ) (st : Status) (detail : ℕ) (h_s : s.Good) :
    (State.sessFail s f i st detail).Good := by
  unfold State.sessFail
  repeat' (with_reducible first | assumption | apply good_State_sessFree | apply good_State_endOp | apply good_State_localFeeds | ((first | apply good_bytes | apply good_mk); first | assumption | apply good_State_sessFree | apply good_State_endOp | apply good_State_localFeeds) | intro _ | (extract_lets +onlyGivenNames x; first | (apply good_cut (s := x); rotate_left; clear_value x; rotate_left; subst x) | clear_value x | subst x) | split)

theorem good_State_sessReach (s : State) (f : ℕ) (i : ℕ) (l : List (Bool × ℕ × ℕ × Bool)) (k : State → State) (h_s : s.Good) (h_k : ∀ t : State, t.Good → (k t).Good) :
    (State.sessReach s f i l k).Good := by
  unfold State.sessReach
  repeat' (with_reducible first | assumption | apply good_State_collPark | apply good_State_sessFail | apply good_State_locUse | apply h_k | apply good_ite | apply good_foldl | intro _ | (extract_lets +onlyGivenNames x; first | (apply good_cut (s := x); rotate_left; clear_value x; rotate_left; subst x) | (have hf := is_fun x; clear hf; subst x) | clear_value x | subst x) | split)

theorem good_State_countRows (s : State) (b : AttnBody) (kvh : ℕ) (l : List Exc) (h_s : s.Good) :
    (State.countRows s b kvh l).Good := by
  unfold State.countRows
  repeat' (with_reducible first | assumption | apply good_State_countExc | apply good_foldl | intro _)

theorem good_State_sessStep (s : State) (f : ℕ) (i : ℕ) (h_s : s.Good) :
    (State.sessStep s f i).Good := by
  unfold State.sessStep
  repeat' (with_reducible first | assumption | apply good_State_modSess | apply good_ite | ((first | apply good_bytes | apply good_mk); first | assumption | apply good_State_modSess | apply good_ite) | intro _ | split)

theorem good_State_attnLoaded (s : State) (f : ℕ) (i : ℕ) (h_s : s.Good) :
    (State.attnLoaded s f i).Good := by
  unfold State.attnLoaded
  repeat' (with_reducible first | assumption | apply good_State_sessReach | apply good_State_countRows | apply good_State_modSess | apply good_State_tallyAdd | apply good_State_sessStep | apply good_ite | apply good_foldl | ((first | apply good_bytes | apply good_mk); first | assumption | apply good_State_sessReach | apply good_State_countRows | apply good_State_modSess | apply good_State_tallyAdd | apply good_State_sessStep | apply good_ite | apply good_foldl) | intro _ | (extract_lets +onlyGivenNames x; first | (apply good_cut (s := x); rotate_left; clear_value x; rotate_left; subst x) | (have hf := is_fun x; clear hf; subst x) | clear_value x | subst x) | split)

theorem good_effAttnOpen (b : AttnBody) (f : ℕ) (id : ℕ) (s : State) (h_s : s.Good) :
    (effAttnOpen b f id s).Good := by
  unfold effAttnOpen
  repeat' (with_reducible first | assumption | apply good_State_attnLoaded | apply good_State_checkedFence | apply good_State_modOp | apply good_State_attnCircuits | apply good_State_modSess | apply good_State_wakeBlocks | ((first | apply good_bytes | apply good_mk); first | assumption | apply good_State_attnLoaded | apply good_State_checkedFence | apply good_State_modOp | apply good_State_attnCircuits | apply good_State_modSess | apply good_State_wakeBlocks) | intro _ | (extract_lets +onlyGivenNames x; first | (apply good_cut (s := x); rotate_left; clear_value x; rotate_left; subst x) | (have hf := is_fun x; clear hf; subst x) | clear_value x | subst x) | split)

theorem good_execAttnOpen (e : Entry) (b : AttnBody) (s : State) (h_s : s.Good) :
    OkOut (execAttnOpen e b s) := by
  unfold execAttnOpen
  repeat' (with_reducible first | assumption | apply good_State_settle | apply good_State_startEntry | apply good_effAttnOpen | apply okOut_next)

theorem good_execAttnLoadingDone (fn : Fn) (sess : ℕ) (s : State) (h_s : s.Good) :
    OkOut (execAttnLoadingDone fn sess s) := by
  unfold execAttnLoadingDone
  repeat' (with_reducible first | assumption | apply good_State_settle | apply good_State_attnLoaded | apply okOut_next)

theorem good_effAttnFinish (sref : ℕ) (f : ℕ) (id : ℕ) (s : State) (h_s : s.Good) :
    (effAttnFinish sref f id s).Good := by
  unfold effAttnFinish
  repeat' (with_reducible first | assumption | apply good_State_checked | apply good_State_localFeeds | apply good_State_sessStep | apply good_State_modSess | ((first | apply good_bytes | apply good_mk); first | assumption | apply good_State_checked | apply good_State_localFeeds | apply good_State_sessStep | apply good_State_modSess) | intro _ | (extract_lets +onlyGivenNames x; first | (apply good_cut (s := x); rotate_left; clear_value x; rotate_left; subst x) | (have hf := is_fun x; clear hf; subst x) | clear_value x | subst x))

theorem good_execAttnFinish (e : Entry) (sref : ℕ) (s : State) (h_s : s.Good) :
    OkOut (execAttnFinish e sref s) := by
  unfold execAttnFinish
  repeat' (with_reducible first | assumption | apply good_State_settle | apply good_State_startEntry | apply good_effAttnFinish | apply okOut_next)

theorem good_effAttnAbort (sref : ℕ) (f : ℕ) (id : ℕ) (s : State) (h_s : s.Good) :
    (effAttnAbort sref f id s).Good := by
  unfold effAttnAbort
  repeat' (with_reducible first | assumption | apply good_State_checked | apply good_State_endOp | apply good_State_sessFail | intro _ | (extract_lets +onlyGivenNames x; first | (apply good_cut (s := x); rotate_left; clear_value x; rotate_left; subst x) | (have hf := is_fun x; clear hf; subst x) | clear_value x | subst x))

theorem good_execAttnAbort (e : Entry) (sref : ℕ) (s : State) (h_s : s.Good) :
    OkOut (execAttnAbort e sref s) := by
  unfold execAttnAbort
  repeat' (with_reducible first | assumption | apply good_State_settle | apply good_State_startEntry | apply good_effAttnAbort | apply okOut_next)

theorem good_effAttnQuery (sref : ℕ) (addr : ℕ) (f : ℕ) (id : ℕ) (s : State) (h_s : s.Good) :
    (effAttnQuery sref addr f id s).Good := by
  unfold effAttnQuery
  repeat' (with_reducible first | assumption | apply good_State_checked | apply good_State_writeRecord | apply good_write | apply good_touchWrite | intro _)

theorem good_execAttnQuery (e : Entry) (sess : ℕ) (addr : ℕ) (s : State) (h_s : s.Good) :
    OkOut (execAttnQuery e sess addr s) := by
  unfold execAttnQuery
  repeat' (with_reducible first | assumption | apply good_State_startEntry | apply good_effAttnQuery | apply okOut_next)

theorem good_State_kvMerge (s : State) (f : ℕ) (i : ℕ) (blk : ℕ) (slot : ℕ) (h_s : s.Good) :
    (State.kvMerge s f i blk slot).Good := by
  unfold State.kvMerge
  repeat' (with_reducible first | assumption | apply good_State_modSess | apply good_State_countExc | apply good_State_localFeeds | apply good_State_sessStep | apply good_ite | intro _ | (extract_lets +onlyGivenNames x; first | (apply good_cut (s := x); rotate_left; clear_value x; rotate_left; subst x) | (have hf := is_fun x; clear hf; subst x) | clear_value x | subst x) | split)

theorem good_execKvBlockMerge (fn : Fn) (sess : ℕ) (block : ℕ) (slot : ℕ) (s : State) (h_s : s.Good) :
    OkOut (execKvBlockMerge fn sess block slot s) := by
  unfold execKvBlockMerge
  repeat' (with_reducible first | assumption | apply good_State_settle | apply good_State_kvMerge | apply okOut_next)

theorem good_State_poisonSess (s : State) (f : ℕ) (i : ℕ) (blk : ℕ) (h_s : s.Good) :
    (State.poisonSess s f i blk).Good := by
  unfold State.poisonSess
  repeat' (with_reducible first | assumption | apply good_State_bump | apply good_State_modSess | apply good_ite | ((first | apply good_bytes | apply good_mk); first | assumption | apply good_State_bump | apply good_State_modSess | apply good_ite) | intro _ | (extract_lets +onlyGivenNames x; first | (apply good_cut (s := x); rotate_left; clear_value x; rotate_left; subst x) | (have hf := is_fun x; clear hf; subst x) | clear_value x | subst x) | split)

theorem good_putPieces (f : ℕ) (slice : Bool) (l : List OutPiece) (s : State) (h_s : s.Good) :
    OkL (putPieces f slice l s) := by
  induction l generalizing f slice s h_s with
  | nil => rw [putPieces.eq_1]; repeat' (with_reducible first | assumption | apply good_State_countExc | apply good_State_locWrite | apply good_ite | apply okL_ite | refine okL_eq (by assumption) ?_ | exact okL_of (by assumption) | apply okL_fst | intro _ | split | apply okL_mk)
  | cons x t ih => rw [putPieces.eq_2]; repeat' (with_reducible first | assumption | apply good_State_countExc | apply good_State_locWrite | apply ih | apply good_ite | apply okL_ite | refine okL_eq (by assumption) ?_ | exact okL_of (by assumption) | apply okL_fst | intro _ | split | apply okL_mk)

theorem good_State_outPark (s : State) (f : ℕ) (op : ℕ) (slice : Bool) (l : List OutPiece) (h_s : s.Good) :
    (State.outPark s f op slice l).Good := by
  unfold State.outPark
  repeat' (with_reducible first | assumption | apply good_State_collPark | ((first | apply good_bytes | apply good_mk); first | assumption | apply good_State_collPark) | intro _ | split)

theorem good_State_sessDone (s : State) (f : ℕ) (i : ℕ) (h_s : s.Good) :
    (State.sessDone s f i).Good := by
  unfold State.sessDone
  repeat' (with_reducible first | assumption | apply good_State_sessFree | apply good_State_endOp | ((first | apply good_bytes | apply good_mk); first | assumption | apply good_State_sessFree | apply good_State_endOp) | intro _ | (extract_lets +onlyGivenNames x; first | (apply good_cut (s := x); rotate_left; clear_value x; rotate_left; subst x) | clear_value x | subst x) | split)

theorem good_State_attnWrite (s : State) (f : ℕ) (i : ℕ) (h_s : s.Good) :
    (State.attnWrite s f i).Good := by
  unfold State.attnWrite
  repeat' (with_reducible first | assumption | apply good_putPieces | apply good_State_modSess | apply good_State_sessFail | apply good_State_sessDone | apply good_State_outPark | apply good_ite | apply okL_ite | refine okL_eq (by assumption) ?_ | exact okL_of (by assumption) | apply okL_fst | ((first | apply good_bytes | apply good_mk); first | assumption | apply good_putPieces | apply good_State_modSess | apply good_State_sessFail | apply good_State_sessDone | apply good_State_outPark | apply good_ite | apply okL_ite | refine okL_eq (by assumption) ?_ | exact okL_of (by assumption) | apply okL_fst) | intro _ | (extract_lets +onlyGivenNames x; first | (apply good_cut (s := x); rotate_left; clear_value x; rotate_left; subst x) | (apply okL_cut (p := x); rotate_left; clear_value x; rotate_left; subst x) | (have hf := is_fun x; clear hf; subst x) | clear_value x | subst x) | split | apply okL_mk)

theorem good_execAttnOutputWrite (fn : Fn) (sess : ℕ) (s : State) (h_s : s.Good) :
    OkOut (execAttnOutputWrite fn sess s) := by
  unfold execAttnOutputWrite
  repeat' (with_reducible first | assumption | apply good_State_settle | apply good_State_attnWrite | apply okOut_next)

theorem good_State_sessBad (s : State) (f : ℕ) (i : ℕ) (addr : ℕ) (h_s : s.Good) :
    (State.sessBad s f i addr).Good := by
  unfold State.sessBad
  repeat' (with_reducible first | assumption | apply good_State_sessFail | apply good_ite | intro _ | split)

end Sys2Proof.Machine
end

