-- ==== Sys2Proof/Laws/GoodConn.lean ====
section
/-!
SUPPORT. GoodConn.lean: every operation and meaning of Conn.lean keeps the canonical form of memory.
-/

namespace Sys2Proof.Machine

set_option linter.all false

theorem good_State_feedsClean (s : State) (f : ℕ) (h_s : s.Good) :
    (State.feedsClean s f).Good := by
  unfold State.feedsClean
  repeat' (with_reducible first | assumption | apply good_State_modFn | ((first | apply good_bytes | apply good_mk); first | assumption | apply good_State_modFn) | intro _)

theorem good_State_connLost (s : State) (f : ℕ) (h : ℕ) (cause : ℕ) (h_s : s.Good) :
    (State.connLost s f h cause).Good := by
  unfold State.connLost
  repeat' (with_reducible first | assumption | apply good_State_feedsClean | apply good_State_kvAbandon | apply good_State_loseConn | apply good_State_herdDown | apply good_State_localFeeds | (extract_lets +onlyGivenNames x; first | (apply good_cut (s := x); rotate_left; clear_value x; rotate_left; subst x) | clear_value x | subst x))

theorem good_State_connFail (s : State) (f : ℕ) (h : ℕ) (st : Status) (hint : ℕ) (h_s : s.Good) :
    (State.connFail s f h st hint).Good := by
  unfold State.connFail
  repeat' (with_reducible first | assumption | apply good_State_herdFail | apply good_State_failConn | intro _ | split)

theorem good_State_connUp (s : State) (f : ℕ) (h : ℕ) (h_s : s.Good) :
    (State.connUp s f h).Good := by
  unfold State.connUp
  repeat' (with_reducible first | assumption | apply good_State_herdUp | apply good_ite | intro _ | split)

theorem good_State_replyCtl (s : State) (f : ℕ) (q : ℕ) (p : Pkt) (h_s : s.Good) :
    (State.replyCtl s f q p).Good := by
  unfold State.replyCtl
  repeat' (with_reducible first | assumption | apply good_State_queueCtl | intro _ | split)

theorem good_State_takeIn (s : State) (q : ℕ) (cls : ℕ) (bytes : ℕ) (k : State → State) (h_s : s.Good) (h_k : ∀ t : State, t.Good → (k t).Good) :
    (State.takeIn s q cls bytes k).Good := by
  unfold State.takeIn
  repeat' (with_reducible first | assumption | apply good_State_ingressTake | apply h_k | refine okR_eq (by assumption) ?_ | exact okR_of (by assumption) | apply okR_snd | intro _ | split | apply okR_mk)

theorem good_State_authFail (s : State) (h_s : s.Good) :
    (State.authFail s).Good := by
  unfold State.authFail
  repeat' (with_reducible first | assumption | ((first | apply good_bytes | apply good_mk); first | assumption))

theorem good_effConnConnect (b : ConnectBody) (f : ℕ) (id : ℕ) (s : State) (h_s : s.Good) :
    (effConnConnect b f id s).Good := by
  unfold effConnConnect
  repeat' (with_reducible first | assumption | apply good_State_checked | apply good_State_endOp | apply good_State_startHandshake | apply good_ite | intro _ | (extract_lets +onlyGivenNames x; first | (apply good_cut (s := x); rotate_left; clear_value x; rotate_left; subst x) | (have hf := is_fun x; clear hf; subst x) | clear_value x | subst x) | split)

theorem good_execConnConnect (e : Entry) (b : ConnectBody) (s : State) (h_s : s.Good) :
    OkOut (execConnConnect e b s) := by
  unfold execConnConnect
  repeat' (with_reducible first | assumption | apply good_State_startEntry | apply good_effConnConnect | apply okOut_next)

theorem good_effConnListen (service : ℕ) (laddr : ℕ) (nring : ℕ) (maxConn : ℕ) (f : ℕ) (id : ℕ) (s : State) (h_s : s.Good) :
    (effConnListen service laddr nring maxConn f id s).Good := by
  unfold effConnListen
  repeat' (with_reducible first | assumption | apply good_State_checked | apply good_State_endOp | apply good_State_modFn | ((first | apply good_bytes | apply good_mk); first | assumption | apply good_State_checked | apply good_State_endOp | apply good_State_modFn) | intro _ | (extract_lets +onlyGivenNames x; first | (apply good_cut (s := x); rotate_left; clear_value x; rotate_left; subst x) | (have hf := is_fun x; clear hf; subst x) | clear_value x | subst x))

theorem good_execConnListen (e : Entry) (service : ℕ) (laddrIdx : ℕ) (nring : ℕ) (maxConn : ℕ) (s : State) (h_s : s.Good) :
    OkOut (execConnListen e service laddrIdx nring maxConn s) := by
  unfold execConnListen
  repeat' (with_reducible first | assumption | apply good_State_startEntry | apply good_effConnListen | apply okOut_next)

theorem good_effConnUnlisten (service : ℕ) (laddr : ℕ) (f : ℕ) (id : ℕ) (s : State) (h_s : s.Good) :
    (effConnUnlisten service laddr f id s).Good := by
  unfold effConnUnlisten
  repeat' (with_reducible first | assumption | apply good_State_checked | apply good_State_endOp | apply good_State_modFn | ((first | apply good_bytes | apply good_mk); first | assumption | apply good_State_checked | apply good_State_endOp | apply good_State_modFn) | intro _)

theorem good_execConnUnlisten (e : Entry) (service : ℕ) (laddrIdx : ℕ) (s : State) (h_s : s.Good) :
    OkOut (execConnUnlisten e service laddrIdx s) := by
  unfold execConnUnlisten
  repeat' (with_reducible first | assumption | apply good_State_startEntry | apply good_effConnUnlisten | apply okOut_next)

theorem good_effConnClose (h : ℕ) (f : ℕ) (id : ℕ) (s : State) (h_s : s.Good) :
    (effConnClose h f id s).Good := by
  unfold effConnClose
  repeat' (with_reducible first | assumption | apply good_State_checked | apply good_State_endRdv | apply good_State_endConnOps | apply good_State_abandonAll | apply good_State_endOp | apply good_State_freeConn | apply good_State_modConn | apply good_State_closeStep | apply good_State_beginClose | apply good_ite | ((first | apply good_bytes | apply good_mk); first | assumption | apply good_State_checked | apply good_State_endRdv | apply good_State_endConnOps | apply good_State_abandonAll | apply good_State_endOp | apply good_State_freeConn | apply good_State_modConn | apply good_State_closeStep | apply good_State_beginClose | apply good_ite) | intro _ | (extract_lets +onlyGivenNames x; first | (apply good_cut (s := x); rotate_left; clear_value x; rotate_left; subst x) | (have hf := is_fun x; clear hf; subst x) | clear_value x | subst x) | split)

theorem good_execConnClose (e : Entry) (conn : ℕ) (s : State) (h_s : s.Good) :
    OkOut (execConnClose e conn s) := by
  unfold execConnClose
  repeat' (with_reducible first | assumption | apply good_State_settle | apply good_State_startEntry | apply good_effConnClose | apply okOut_next)

theorem good_State_connAbort (s : State) (f : ℕ) (h : ℕ) (h_s : s.Good) :
    (State.connAbort s f h).Good := by
  unfold State.connAbort
  repeat' (with_reducible first | assumption | apply good_State_sendAborts | apply good_State_kvAbandon | apply good_State_abandonAll | apply good_State_endCloses | apply good_State_endRdv | apply good_State_endConnOps | apply good_State_feedsClean | apply good_State_freeConn | apply good_State_localFeeds | apply good_State_endOp | ((first | apply good_bytes | apply good_mk); first | assumption | apply good_State_sendAborts | apply good_State_kvAbandon | apply good_State_abandonAll | apply good_State_endCloses | apply good_State_endRdv | apply good_State_endConnOps | apply good_State_feedsClean | apply good_State_freeConn | apply good_State_localFeeds | apply good_State_endOp) | intro _ | (extract_lets +onlyGivenNames x; first | (apply good_cut (s := x); rotate_left; clear_value x; rotate_left; subst x) | clear_value x | subst x) | split)

theorem good_effConnAbort (h : ℕ) (f : ℕ) (id : ℕ) (s : State) (h_s : s.Good) :
    (effConnAbort h f id s).Good := by
  unfold effConnAbort
  repeat' (with_reducible first | assumption | apply good_State_checked | apply good_State_endOp | apply good_State_connAbort | intro _)

theorem good_execConnAbort (e : Entry) (conn : ℕ) (s : State) (h_s : s.Good) :
    OkOut (execConnAbort e conn s) := by
  unfold execConnAbort
  repeat' (with_reducible first | assumption | apply good_State_settle | apply good_State_startEntry | apply good_effConnAbort | apply okOut_next)

theorem good_effConnQuery (h : ℕ) (addr : ℕ) (f : ℕ) (id : ℕ) (s : State) (h_s : s.Good) :
    (effConnQuery h addr f id s).Good := by
  unfold effConnQuery
  repeat' (with_reducible first | assumption | apply good_State_checked | apply good_State_writeRecord | apply good_write | apply good_touchWrite | intro _)

theorem good_execConnQuery (e : Entry) (conn : ℕ) (addr : ℕ) (s : State) (h_s : s.Good) :
    OkOut (execConnQuery e conn addr s) := by
  unfold execConnQuery
  repeat' (with_reducible first | assumption | apply good_State_startEntry | apply good_effConnQuery | apply okOut_next)

theorem good_effConnModify (h : ℕ) (ports : ℕ) (paths : ℕ) (f : ℕ) (id : ℕ) (s : State) (h_s : s.Good) :
    (effConnModify h ports paths f id s).Good := by
  unfold effConnModify
  repeat' (with_reducible first | assumption | apply good_State_checked | apply good_State_modConn | apply good_State_endOp | apply good_ite | ((first | apply good_bytes | apply good_mk); first | assumption | apply good_State_checked | apply good_State_modConn | apply good_State_endOp | apply good_ite) | intro _ | (extract_lets +onlyGivenNames x; first | (apply good_cut (s := x); rotate_left; clear_value x; rotate_left; subst x) | (have hf := is_fun x; clear hf; subst x) | clear_value x | subst x) | split)

theorem good_execConnModify (e : Entry) (conn : ℕ) (ports : ℕ) (paths : ℕ) (s : State) (h_s : s.Good) :
    OkOut (execConnModify e conn ports paths s) := by
  unfold execConnModify
  repeat' (with_reducible first | assumption | apply good_State_startEntry | apply good_effConnModify | apply okOut_next)

theorem good_State_sendSynAck (s : State) (f : ℕ) (h : ℕ) (h_s : s.Good) :
    (State.sendSynAck s f h).Good := by
  unfold State.sendSynAck
  repeat' (with_reducible first | assumption | apply good_State_sendCtl | (extract_lets +onlyGivenNames x; first | (apply good_cut (s := x); rotate_left; clear_value x; rotate_left; subst x) | clear_value x | subst x))

theorem good_State_accepted (s : State) (f : ℕ) (h : ℕ) (h_s : s.Good) :
    (State.accepted s f h).Good := by
  unfold State.accepted
  repeat' (with_reducible first | assumption | apply good_State_sendSynAck | apply good_State_deriveSetup | apply good_State_modConn | apply good_State_connUp | apply good_State_complete | apply good_ite | ((first | apply good_bytes | apply good_mk); first | assumption | apply good_State_sendSynAck | apply good_State_deriveSetup | apply good_State_modConn | apply good_State_connUp | apply good_State_complete | apply good_ite) | intro _ | (extract_lets +onlyGivenNames x; first | (apply good_cut (s := x); rotate_left; clear_value x; rotate_left; subst x) | (have hf := is_fun x; clear hf; subst x) | clear_value x | subst x) | split)

theorem good_State_accept (s : State) (f : ℕ) (h : ℕ) (x : Syn) (herd : Option (ℕ × ℕ)) (tsel : ℕ) (tc : Option ℕ) (h_s : s.Good) :
    (State.accept s f h x herd tsel tc).Good := by
  unfold State.accept
  repeat' (with_reducible first | assumption | apply good_State_bump | apply good_State_modConn | apply good_State_modHerd | apply good_State_accepted | apply good_State_usePeer | apply good_State_askSlow | apply good_ite | ((first | apply good_bytes | apply good_mk); first | assumption | apply good_State_bump | apply good_State_modConn | apply good_State_modHerd | apply good_State_accepted | apply good_State_usePeer | apply good_State_askSlow | apply good_ite) | intro _ | (extract_lets +onlyGivenNames x; first | (apply good_cut (s := x); rotate_left; clear_value x; rotate_left; subst x) | (have hf := is_fun x; clear hf; subst x) | clear_value x | subst x) | split)

theorem good_State_resumeSyn (s : State) (f : ℕ) (h : ℕ) (inc : ℕ) (gen : ℕ) (x : Syn) (h_s : s.Good) :
    (State.resumeSyn s f h inc gen x).Good := by
  unfold State.resumeSyn
  repeat' (with_reducible first | assumption | apply good_State_exhaust | apply good_State_modConn | apply good_State_jMust | apply good_State_epochCount | apply good_State_bump | apply good_State_sendSynAck | apply good_ite | ((first | apply good_bytes | apply good_mk); first | assumption | apply good_State_exhaust | apply good_State_modConn | apply good_State_jMust | apply good_State_epochCount | apply good_State_bump | apply good_State_sendSynAck | apply good_ite) | intro _ | (extract_lets +onlyGivenNames x; first | (apply good_cut (s := x); rotate_left; clear_value x; rotate_left; subst x) | (have hf := is_fun x; clear hf; subst x) | clear_value x | subst x) | split)

theorem good_State_synReceive (s : State) (x : Syn) (h_s : s.Good) :
    (State.synReceive s x).Good := by
  unfold State.synReceive
  repeat' (with_reducible first | assumption | apply good_State_authFail | apply good_State_learnMap | apply good_State_replyCtl | apply good_State_resumeSyn | apply good_State_sendSynAck | apply good_State_bump | apply good_State_accept | apply good_ite | ((first | apply good_bytes | apply good_mk); first | assumption | apply good_State_authFail | apply good_State_learnMap | apply good_State_replyCtl | apply good_State_resumeSyn | apply good_State_sendSynAck | apply good_State_bump | apply good_State_accept | apply good_ite) | intro _ | (extract_lets +onlyGivenNames x; first | (apply good_cut (s := x); rotate_left; clear_value x; rotate_left; subst x) | (have hf := is_fun x; clear hf; subst x) | clear_value x | subst x) | split)

theorem good_execSynReceive (x : Syn) (s : State) (h_s : s.Good) :
    OkOut (execSynReceive x s) := by
  unfold execSynReceive
  repeat' (with_reducible first | assumption | apply good_State_takeIn | apply good_State_settle | apply good_State_synReceive | apply okOut_next | intro _)

theorem good_State_applyGrant (s : State) (f : ℕ) (h : ℕ) (g : Grant) (first : optParam Bool false) (h_s : s.Good) :
    (State.applyGrant s f h g first).Good := by
  unfold State.applyGrant
  repeat' (with_reducible first | assumption | apply good_State_stopClock | apply good_State_modConn | apply good_ite | ((first | apply good_bytes | apply good_mk); first | assumption | apply good_State_stopClock | apply good_State_modConn | apply good_ite) | intro _ | (extract_lets +onlyGivenNames x; first | (apply good_cut (s := x); rotate_left; clear_value x; rotate_left; subst x) | (have hf := is_fun x; clear hf; subst x) | clear_value x | subst x) | split)

theorem good_State_sendConnAck (s : State) (f : ℕ) (h : ℕ) (h_s : s.Good) :
    (State.sendConnAck s f h).Good := by
  unfold State.sendConnAck
  repeat' (with_reducible first | assumption | apply good_State_sendCtl)

theorem good_State_synAckReceive (s : State) (x : SynAck) (h_s : s.Good) :
    (State.synAckReceive s x).Good := by
  unfold State.synAckReceive
  repeat' (with_reducible first | assumption | apply good_State_authFail | apply good_State_modConn | apply good_State_sendConnAck | apply good_State_deriveSetup | apply good_State_applyGrant | apply good_State_endOp | apply good_State_connUp | apply good_State_exhaust | apply good_State_jMust | apply good_ite | ((first | apply good_bytes | apply good_mk); first | assumption | apply good_State_authFail | apply good_State_modConn | apply good_State_sendConnAck | apply good_State_deriveSetup | apply good_State_applyGrant | apply good_State_endOp | apply good_State_connUp | apply good_State_exhaust | apply good_State_jMust | apply good_ite) | intro _ | (extract_lets +onlyGivenNames x; first | (apply good_cut (s := x); rotate_left; clear_value x; rotate_left; subst x) | (have hf := is_fun x; clear hf; subst x) | clear_value x | subst x) | split)

theorem good_execSynAckReceive (x : SynAck) (s : State) (h_s : s.Good) :
    OkOut (execSynAckReceive x s) := by
  unfold execSynAckReceive
  repeat' (with_reducible first | assumption | apply good_State_takeIn | apply good_State_settle | apply good_State_synAckReceive | apply okOut_next | intro _)

theorem good_State_connRefused (s : State) (f : ℕ) (h : ℕ) (inc : ℕ) (kind : ℕ) (hint : ℕ) (h_s : s.Good) :
    (State.connRefused s f h inc kind hint).Good := by
  unfold State.connRefused
  repeat' (with_reducible first | assumption | apply good_State_modConn | apply good_State_connFail | apply good_ite | ((first | apply good_bytes | apply good_mk); first | assumption | apply good_State_modConn | apply good_State_connFail | apply good_ite) | intro _ | (extract_lets +onlyGivenNames x; first | (apply good_cut (s := x); rotate_left; clear_value x; rotate_left; subst x) | (have hf := is_fun x; clear hf; subst x) | clear_value x | subst x) | split)

theorem good_State_setUpRx (s : State) (f : ℕ) (rx : Rx) (k : State → State) (h_s : s.Good) (h_k : ∀ t : State, t.Good → (k t).Good) :
    (State.setUpRx s f rx k).Good := by
  unfold State.setUpRx
  repeat' (with_reducible first | assumption | apply good_State_sized | apply good_State_takeIn | apply good_State_authFail | apply h_k | apply good_ite | intro _ | split)

theorem good_execConnRefusalReceive (rx : Rx) (fn : Fn) (kind : ℕ) (hint : ℕ) (now : ℕ) (s : State) (h_s : s.Good) :
    OkOut (execConnRefusalReceive rx fn kind hint now s) := by
  unfold execConnRefusalReceive
  repeat' (with_reducible first | assumption | apply good_State_setUpRx | apply good_State_tick | apply good_State_settle | apply good_State_connRefused | apply okOut_next | intro _)

theorem good_execConnAckReceive (rx : Rx) (fn : Fn) (grant : Grant) (s : State) (h_s : s.Good) :
    OkOut (execConnAckReceive rx fn grant s) := by
  unfold execConnAckReceive
  repeat' (with_reducible first | assumption | apply good_State_setUpRx | apply good_State_applyGrant | apply okOut_next | intro _ | (extract_lets +onlyGivenNames x; first | (apply good_cut (s := x); rotate_left; clear_value x; rotate_left; subst x) | (have hf := is_fun x; clear hf; subst x) | clear_value x | subst x))

theorem good_State_finReceive (s : State) (f : ℕ) (h : ℕ) (h_s : s.Good) :
    (State.finReceive s f h).Good := by
  unfold State.finReceive
  repeat' (with_reducible first | assumption | apply good_State_modConn | apply good_State_closeStep | apply good_State_connEvent | apply good_State_beginClose | apply good_State_sendCtl | apply good_ite | ((first | apply good_bytes | apply good_mk); first | assumption | apply good_State_modConn | apply good_State_closeStep | apply good_State_connEvent | apply good_State_beginClose | apply good_State_sendCtl | apply good_ite) | intro _ | (extract_lets +onlyGivenNames x; first | (apply good_cut (s := x); rotate_left; clear_value x; rotate_left; subst x) | (have hf := is_fun x; clear hf; subst x) | clear_value x | subst x) | split)

theorem good_execFinReceive (rx : Rx) (fn : Fn) (s : State) (h_s : s.Good) :
    OkOut (execFinReceive rx fn s) := by
  unfold execFinReceive
  repeat' (with_reducible first | assumption | apply good_State_setUpRx | apply good_State_settle | apply good_State_finReceive | apply okOut_next | intro _)

theorem good_State_finAckReceive (s : State) (f : ℕ) (h : ℕ) (h_s : s.Good) :
    (State.finAckReceive s f h).Good := by
  unfold State.finAckReceive
  repeat' (with_reducible first | assumption | apply good_State_closeStep | apply good_State_modConn | apply good_ite | ((first | apply good_bytes | apply good_mk); first | assumption | apply good_State_closeStep | apply good_State_modConn | apply good_ite) | intro _ | (extract_lets +onlyGivenNames x; first | (apply good_cut (s := x); rotate_left; clear_value x; rotate_left; subst x) | (have hf := is_fun x; clear hf; subst x) | clear_value x | subst x) | split)

theorem good_execFinAckReceive (rx : Rx) (fn : Fn) (s : State) (h_s : s.Good) :
    OkOut (execFinAckReceive rx fn s) := by
  unfold execFinAckReceive
  repeat' (with_reducible first | assumption | apply good_State_setUpRx | apply good_State_settle | apply good_State_finAckReceive | apply okOut_next | intro _)

theorem good_State_abortReceive (s : State) (f : ℕ) (h : ℕ) (cause : ℕ) (h_s : s.Good) :
    (State.abortReceive s f h cause).Good := by
  unfold State.abortReceive
  repeat' (with_reducible first | assumption | apply good_State_connFail | apply good_State_connLost | apply good_ite | intro _ | (extract_lets +onlyGivenNames x; first | (apply good_cut (s := x); rotate_left; clear_value x; rotate_left; subst x) | clear_value x | subst x) | split)

theorem good_execAbortReceive (rx : Rx) (fn : Fn) (ext : AbortExt) (s : State) (h_s : s.Good) :
    OkOut (execAbortReceive rx fn ext s) := by
  unfold execAbortReceive
  repeat' (with_reducible first | assumption | apply good_State_setUpRx | apply good_State_settle | apply good_State_abortReceive | apply good_ite | apply okOut_next | apply okOut_ite | intro _ | split)

theorem good_State_sendResume (s : State) (f : ℕ) (h : ℕ) (path : optParam ℕ 0) (h_s : s.Good) :
    (State.sendResume s f h path).Good := by
  unfold State.sendResume
  repeat' (with_reducible first | assumption | apply good_State_sendCtl | (extract_lets +onlyGivenNames x; first | (apply good_cut (s := x); rotate_left; clear_value x; rotate_left; subst x) | clear_value x | subst x))

theorem good_State_synRetry (s : State) (f : ℕ) (h : ℕ) (h_s : s.Good) :
    (State.synRetry s f h).Good := by
  unfold State.synRetry
  repeat' (with_reducible first | assumption | apply good_State_modConn | apply good_State_sendSyn | apply good_State_sendCtl | apply good_State_sendResume | apply good_ite | ((first | apply good_bytes | apply good_mk); first | assumption | apply good_State_modConn | apply good_State_sendSyn | apply good_State_sendCtl | apply good_State_sendResume | apply good_ite) | intro _ | (extract_lets +onlyGivenNames x; first | (apply good_cut (s := x); rotate_left; clear_value x; rotate_left; subst x) | (have hf := is_fun x; clear hf; subst x) | clear_value x | subst x) | split)

theorem good_execSynRetryTimer (fn : Fn) (conn : ℕ) (now : ℕ) (s : State) (h_s : s.Good) :
    OkOut (execSynRetryTimer fn conn now s) := by
  unfold execSynRetryTimer
  repeat' (with_reducible first | assumption | apply good_State_synRetry | apply good_State_tick | apply okOut_next)

theorem good_State_slowDone (s : State) (f : ℕ) (h : ℕ) (h_s : s.Good) :
    (State.slowDone s f h).Good := by
  unfold State.slowDone
  repeat' (with_reducible first | assumption | apply good_State_sendResume | apply good_State_modPart | apply good_State_modConn | apply good_State_usePeer | apply good_State_sendSyn | apply good_State_accepted | apply good_ite | ((first | apply good_bytes | apply good_mk); first | assumption | apply good_State_sendResume | apply good_State_modPart | apply good_State_modConn | apply good_State_usePeer | apply good_State_sendSyn | apply good_State_accepted | apply good_ite) | intro _ | (extract_lets +onlyGivenNames x; first | (apply good_cut (s := x); rotate_left; clear_value x; rotate_left; subst x) | (have hf := is_fun x; clear hf; subst x) | clear_value x | subst x) | split)

theorem good_execSlowpathDone (fn : Fn) (conn : ℕ) (s : State) (h_s : s.Good) :
    OkOut (execSlowpathDone fn conn s) := by
  unfold execSlowpathDone
  repeat' (with_reducible first | assumption | apply good_State_settle | apply good_State_slowDone | apply good_ite | apply okOut_next | apply okOut_ite | intro _ | split)

theorem good_execSlowpathFail (fn : Fn) (conn : ℕ) (s : State) (h_s : s.Good) :
    OkOut (execSlowpathFail fn conn s) := by
  unfold execSlowpathFail
  repeat' (with_reducible first | assumption | apply good_State_settle | apply good_State_connFail | apply good_ite | apply okOut_next | apply okOut_ite | intro _ | split)

theorem good_State_lostExpiry (s : State) (f : ℕ) (h : ℕ) (h_s : s.Good) :
    (State.lostExpiry s f h).Good := by
  unfold State.lostExpiry
  repeat' (with_reducible first | assumption | apply good_State_stopClock | apply good_State_connFail | apply good_State_connLost | apply good_ite | intro _ | (extract_lets +onlyGivenNames x; first | (apply good_cut (s := x); rotate_left; clear_value x; rotate_left; subst x) | (have hf := is_fun x; clear hf; subst x) | clear_value x | subst x) | split)

theorem good_execLostTimeExpiry (fn : Fn) (conn : ℕ) (now : ℕ) (s : State) (h_s : s.Good) :
    OkOut (execLostTimeExpiry fn conn now s) := by
  unfold execLostTimeExpiry
  repeat' (with_reducible first | assumption | apply good_State_settle | apply good_State_lostExpiry | apply good_State_tick | apply okOut_next)

theorem good_State_rekeyed (s : State) (f : ℕ) (h : ℕ) (h_s : s.Good) :
    (State.rekeyed s f h).Good := by
  unfold State.rekeyed
  repeat' (with_reducible first | assumption | apply good_State_modConn | apply good_State_jMust | apply good_State_epochCount | apply good_State_endOp | apply good_ite | apply good_foldl | ((first | apply good_bytes | apply good_mk); first | assumption | apply good_State_modConn | apply good_State_jMust | apply good_State_epochCount | apply good_State_endOp | apply good_ite | apply good_foldl) | intro _ | (extract_lets +onlyGivenNames x; first | (apply good_cut (s := x); rotate_left; clear_value x; rotate_left; subst x) | (have hf := is_fun x; clear hf; subst x) | clear_value x | subst x) | split)

theorem good_execRekeyKeyInstalled (fn : Fn) (conn : ℕ) (s : State) (h_s : s.Good) :
    OkOut (execRekeyKeyInstalled fn conn s) := by
  unfold execRekeyKeyInstalled
  repeat' (with_reducible first | assumption | apply good_State_settle | apply good_State_rekeyed | apply good_State_deriveDone | apply good_ite | apply okOut_next | apply okOut_ite | intro _ | (extract_lets +onlyGivenNames x; first | (apply good_cut (s := x); rotate_left; clear_value x; rotate_left; subst x) | clear_value x | subst x) | split)

theorem good_State_spentOut (s : State) (h_s : s.Good) :
    (State.spentOut s).Good := by
  unfold State.spentOut
  repeat' (with_reducible first | assumption | apply good_State_connLost | apply good_ite | apply good_foldl | intro _ | split)

theorem good_execPacketSelect (port : Fin 8) (now : ℕ) (s : State) (h_s : s.Good) :
    OkOut (execPacketSelect port now s) := by
  unfold execPacketSelect
  repeat' (with_reducible first | assumption | apply good_State_settle | apply good_State_spentOut | apply good_State_packetSelect | apply good_State_tick | apply good_State_refreshQueues | apply okOut_next)

theorem good_State_abortRepeat (s : State) (f : ℕ) (h : ℕ) (h_s : s.Good) :
    (State.abortRepeat s f h).Good := by
  unfold State.abortRepeat
  repeat' (with_reducible first | assumption | apply good_State_modFn | apply good_State_queueCtl | apply good_ite | ((first | apply good_bytes | apply good_mk); first | assumption | apply good_State_modFn | apply good_State_queueCtl | apply good_ite) | intro _ | (extract_lets +onlyGivenNames x; first | (apply good_cut (s := x); rotate_left; clear_value x; rotate_left; subst x) | (have hf := is_fun x; clear hf; subst x) | clear_value x | subst x) | split)

theorem good_execAbortRepeatTimer (fn : Fn) (conn : ℕ) (now : ℕ) (s : State) (h_s : s.Good) :
    OkOut (execAbortRepeatTimer fn conn now s) := by
  unfold execAbortRepeatTimer
  repeat' (with_reducible first | assumption | apply good_State_abortRepeat | apply good_State_tick | apply okOut_next)

end Sys2Proof.Machine
end

