-- ==== Sys2Proof/Laws/GoodReceive.lean ====
section
/-!
SUPPORT. GoodReceive.lean: every operation and meaning of Receive.lean keeps the canonical form of memory.
-/

namespace Sys2Proof.Machine

set_option linter.all false

theorem good_State_answerAbort (s : State) (f : ℕ) (rx : Rx) (h_s : s.Good) :
    (State.answerAbort s f rx).Good := by
  unfold State.answerAbort
  repeat' (with_reducible first | assumption | apply good_State_bump | apply good_State_replyCtl | apply good_State_modFn | apply good_ite | ((first | apply good_bytes | apply good_mk); first | assumption | apply good_State_bump | apply good_State_replyCtl | apply good_State_modFn | apply good_ite) | intro _ | (extract_lets +onlyGivenNames x; first | (apply good_cut (s := x); rotate_left; clear_value x; rotate_left; subst x) | (have hf := is_fun x; clear hf; subst x) | clear_value x | subst x) | split)

theorem good_State_wantNext (s : State) (f : ℕ) (h : ℕ) (h_s : s.Good) :
    (State.wantNext s f h).Good := by
  unfold State.wantNext
  repeat' (with_reducible first | assumption | apply good_State_modConn | apply good_State_deriveEpoch | ((first | apply good_bytes | apply good_mk); first | assumption | apply good_State_modConn | apply good_State_deriveEpoch) | intro _)

theorem good_State_epochIn (s : State) (f : ℕ) (h : ℕ) (kepoch : ℕ) (pctr : ℕ) (authOk : Bool) (h_s : s.Good) :
    OkR (State.epochIn s f h kepoch pctr authOk) := by
  unfold State.epochIn
  repeat' (with_reducible first | assumption | apply good_State_authFail | apply good_State_wantNext | apply good_State_modConn | apply good_ite | apply okR_ite | apply okR_snd | ((first | apply good_bytes | apply good_mk); first | assumption | apply good_State_authFail | apply good_State_wantNext | apply good_State_modConn | apply good_ite | apply okR_ite | apply okR_snd) | intro _ | (extract_lets +onlyGivenNames x; first | (apply good_cut (s := x); rotate_left; clear_value x; rotate_left; subst x) | (apply okR_cut (p := x); rotate_left; clear_value x; rotate_left; subst x) | (have hf := is_fun x; clear hf; subst x) | clear_value x | subst x) | split | apply okR_mk)

theorem good_State_heard (s : State) (f : ℕ) (rx : Rx) (h_s : s.Good) :
    (State.heard s f rx).Good := by
  unfold State.heard
  repeat' (with_reducible first | assumption | apply good_State_modConn | apply good_State_herdSeen | apply good_ite | ((first | apply good_bytes | apply good_mk); first | assumption | apply good_State_modConn | apply good_State_herdSeen | apply good_ite) | intro _ | (extract_lets +onlyGivenNames x; first | (apply good_cut (s := x); rotate_left; clear_value x; rotate_left; subst x) | (have hf := is_fun x; clear hf; subst x) | clear_value x | subst x) | split)

theorem good_State_hear (s : State) (rx : Rx) (seq : Bool) (answer : optParam Bool seq) (h_s : s.Good) :
    OkR (State.hear s rx seq answer) := by
  unfold State.hear
  repeat' (with_reducible first | assumption | apply good_State_ingressTake | apply good_State_modFn | apply good_State_answerAbort | apply good_State_epochIn | apply good_State_heard | apply good_ite | apply okR_ite | refine okR_eq (by assumption) ?_ | exact okR_of (by assumption) | apply okR_snd | ((first | apply good_bytes | apply good_mk); first | assumption | apply good_State_ingressTake | apply good_State_modFn | apply good_State_answerAbort | apply good_State_epochIn | apply good_State_heard | apply good_ite | apply okR_ite | refine okR_eq (by assumption) ?_ | exact okR_of (by assumption) | apply okR_snd) | intro _ | (extract_lets +onlyGivenNames x; first | (apply good_cut (s := x); rotate_left; clear_value x; rotate_left; subst x) | (apply okR_cut (p := x); rotate_left; clear_value x; rotate_left; subst x) | (have hf := is_fun x; clear hf; subst x) | clear_value x | subst x) | split | apply okR_mk)

theorem good_State_passHerd (s : State) (f : ℕ) (h : ℕ) (ext : Ext) (h_s : s.Good) :
    (State.passHerd s f h ext).Good := by
  unfold State.passHerd
  repeat' (with_reducible first | assumption | apply good_State_modHerd | apply good_State_collPassed | apply good_State_collHaltIn | apply good_State_collTokenIn | apply good_State_tokenPass | apply good_ite | apply okR_ite | refine okR_eq (by assumption) ?_ | exact okR_of (by assumption) | apply okR_snd | ((first | apply good_bytes | apply good_mk); first | assumption | apply good_State_modHerd | apply good_State_collPassed | apply good_State_collHaltIn | apply good_State_collTokenIn | apply good_State_tokenPass | apply good_ite | apply okR_ite | refine okR_eq (by assumption) ?_ | exact okR_of (by assumption) | apply okR_snd) | intro _ | (extract_lets +onlyGivenNames x; first | (apply good_cut (s := x); rotate_left; clear_value x; rotate_left; subst x) | (apply okR_cut (p := x); rotate_left; clear_value x; rotate_left; subst x) | (have hf := is_fun x; clear hf; subst x) | clear_value x | subst x) | split | apply okR_mk)

theorem good_State_passRdv (s : State) (f : ℕ) (h : ℕ) (req : ℕ) (h_s : s.Good) :
    (State.passRdv s f h req).Good := by
  unfold State.passRdv
  repeat' (with_reducible first | assumption | apply good_State_modConn | apply good_State_modFn | apply good_State_delivered | ((first | apply good_bytes | apply good_mk); first | assumption | apply good_State_modConn | apply good_State_modFn | apply good_State_delivered) | intro _ | (extract_lets +onlyGivenNames x; first | (apply good_cut (s := x); rotate_left; clear_value x; rotate_left; subst x) | (have hf := is_fun x; clear hf; subst x) | clear_value x | subst x) | split)

theorem good_State_passMsg (s : State) (f : ℕ) (h : ℕ) (m : InMsg) (h_s : s.Good) :
    (State.passMsg s f h m).Good := by
  unfold State.passMsg
  repeat' (with_reducible first | assumption | apply good_State_sendNak | apply good_State_passHerd | apply good_State_passRdv | apply good_State_passP2p | apply good_ite | intro _ | split)

theorem good_State_passOne (f : ℕ) (h : ℕ) (s : State) (x_u : Unit) (h_s : s.Good) :
    OkL (State.passOne f h s x_u) := by
  unfold State.passOne
  repeat' (with_reducible first | assumption | apply good_State_modConn | apply good_State_passMsg | apply good_ite | apply okL_ite | refine okL_eq (by assumption) ?_ | exact okL_of (by assumption) | apply okL_fst | ((first | apply good_bytes | apply good_mk); first | assumption | apply good_State_modConn | apply good_State_passMsg | apply good_ite | apply okL_ite | refine okL_eq (by assumption) ?_ | exact okL_of (by assumption) | apply okL_fst) | intro _ | (extract_lets +onlyGivenNames x; first | (apply good_cut (s := x); rotate_left; clear_value x; rotate_left; subst x) | (apply okL_cut (p := x); rotate_left; clear_value x; rotate_left; subst x) | (have hf := is_fun x; clear hf; subst x) | clear_value x | subst x) | split | apply okL_mk)

theorem good_passGo (fuel : ℕ) (s : State) (f : ℕ) (h : ℕ) (h_s : s.Good) :
    (passGo fuel s f h).Good := by
  unfold passGo
  repeat' (with_reducible first | assumption | apply good_loop | apply good_State_passOne | apply okL_fst | apply okL_mk)

theorem good_State_ackNote (s : State) (f : ℕ) (rx : Rx) (gap : Bool) (h_s : s.Good) :
    (State.ackNote s f rx gap).Good := by
  unfold State.ackNote
  repeat' (with_reducible first | assumption | apply good_State_modConn | apply good_State_sendAck | apply good_ite | ((first | apply good_bytes | apply good_mk); first | assumption | apply good_State_modConn | apply good_State_sendAck | apply good_ite) | intro _ | (extract_lets +onlyGivenNames x; first | (apply good_cut (s := x); rotate_left; clear_value x; rotate_left; subst x) | (have hf := is_fun x; clear hf; subst x) | clear_value x | subst x) | split)

theorem good_State_rxAccept (s : State) (f : ℕ) (rx : Rx) (x : ℕ) (gap : Bool) (h_s : s.Good) :
    (State.rxAccept s f rx x gap).Good := by
  unfold State.rxAccept
  repeat' (with_reducible first | assumption | apply good_State_modConn | apply good_passGo | apply good_State_settle | apply good_State_closeStep | apply good_State_ackNote | ((first | apply good_bytes | apply good_mk); first | assumption | apply good_State_modConn | apply good_passGo | apply good_State_settle | apply good_State_closeStep | apply good_State_ackNote) | intro _ | (extract_lets +onlyGivenNames x; first | (apply good_cut (s := x); rotate_left; clear_value x; rotate_left; subst x) | (have hf := is_fun x; clear hf; subst x) | clear_value x | subst x))

theorem good_State_rxSeq (s : State) (rx : Rx) (n : ℕ) (body : ℕ → ℕ → State → Bool × State) (h_s : s.Good) (h_body : ∀ x0 x1 (t : State), t.Good → OkR (body x0 x1 t)) :
    (State.rxSeq s rx n body).Good := by
  unfold State.rxSeq
  repeat' (with_reducible first | assumption | apply good_State_sized | apply good_State_hear | apply good_State_modConn | apply good_State_sendAck | apply good_State_rxAccept | apply h_body | apply good_ite | apply okR_ite | refine okR_eq (by assumption) ?_ | exact okR_of (by assumption) | apply okR_snd | ((first | apply good_bytes | apply good_mk); first | assumption | apply good_State_sized | apply good_State_hear | apply good_State_modConn | apply good_State_sendAck | apply good_State_rxAccept | apply h_body | apply good_ite | apply okR_ite | refine okR_eq (by assumption) ?_ | exact okR_of (by assumption) | apply okR_snd) | intro _ | (extract_lets +onlyGivenNames x; first | (apply good_cut (s := x); rotate_left; clear_value x; rotate_left; subst x) | (apply okR_cut (p := x); rotate_left; clear_value x; rotate_left; subst x) | (have hf := is_fun x; clear hf; subst x) | clear_value x | subst x) | split | apply okR_mk)

theorem good_State_modIn (s : State) (f : ℕ) (h : ℕ) (msn : ℕ) (g : InMsg → InMsg) (h_s : s.Good) :
    (State.modIn s f h msn g).Good := by
  unfold State.modIn
  repeat' (with_reducible first | assumption | apply good_State_modConn | apply good_ite | ((first | apply good_bytes | apply good_mk); first | assumption | apply good_State_modConn | apply good_ite) | intro _ | split)

theorem good_State_admitMsg (s : State) (f : ℕ) (h : ℕ) (x : ℕ) (idx : ℕ) (npk : ℕ) (msn : ℕ) (ext : Ext) (st : Status) (win : Option ℕ) (h_s : s.Good) :
    (State.admitMsg s f h x idx npk msn ext st win).Good := by
  unfold State.admitMsg
  repeat' (with_reducible first | assumption | apply good_State_modConn | apply good_State_modFn | apply good_State_modWin | apply good_ite | ((first | apply good_bytes | apply good_mk); first | assumption | apply good_State_modConn | apply good_State_modFn | apply good_State_modWin | apply good_ite) | intro _ | (extract_lets +onlyGivenNames x; first | (apply good_cut (s := x); rotate_left; clear_value x; rotate_left; subst x) | (have hf := is_fun x; clear hf; subst x) | clear_value x | subst x) | split)

theorem good_State_dropFor (s : State) (f : ℕ) (h : ℕ) (msn : ℕ) (page : ℕ) (wr : Bool) (h_s : s.Good) :
    OkR (State.dropFor s f h msn page wr) := by
  unfold State.dropFor
  repeat' (with_reducible first | assumption | apply good_State_askXlate | apply good_State_modIn | apply okR_snd | ((first | apply good_bytes | apply good_mk); first | assumption | apply good_State_askXlate | apply good_State_modIn | apply okR_snd) | intro _ | apply okR_mk)

theorem good_State_placeAt (s : State) (f : ℕ) (h : ℕ) (msn : ℕ) (slice : Bool) (addr : ℕ) (bs : List Byte) (k : State → State) (h_s : s.Good) (h_k : ∀ t : State, t.Good → (k t).Good) :
    OkR (State.placeAt s f h msn slice addr bs k) := by
  unfold State.placeAt
  repeat' (with_reducible first | assumption | apply good_State_dropFor | apply good_State_locWrite | apply good_State_modIn | apply h_k | apply good_ite | apply okR_ite | refine okR_eq (by assumption) ?_ | exact okR_of (by assumption) | apply okR_snd | ((first | apply good_bytes | apply good_mk); first | assumption | apply good_State_dropFor | apply good_State_locWrite | apply good_State_modIn | apply h_k | apply good_ite | apply okR_ite | refine okR_eq (by assumption) ?_ | exact okR_of (by assumption) | apply okR_snd) | intro _ | (extract_lets +onlyGivenNames x; first | (apply good_cut (s := x); rotate_left; clear_value x; rotate_left; subst x) | (apply okR_cut (p := x); rotate_left; clear_value x; rotate_left; subst x) | (have hf := is_fun x; clear hf; subst x) | clear_value x | subst x) | split | apply okR_mk)

theorem good_State_dataBody (s : State) (f : ℕ) (h : ℕ) (x : ℕ) (msn : ℕ) (wref : ℕ) (roff : ℕ) (moff : ℕ) (mlen : ℕ) (notify : Bool) (imm : BitVec 32) (payload : List Byte) (h_s : s.Good) :
    OkR (State.dataBody s f h x msn wref roff moff mlen notify imm payload) := by
  unfold State.dataBody
  repeat' (with_reducible first | assumption | apply good_State_admitMsg | apply good_State_placeAt | apply good_State_placeDone | apply good_State_modIn | apply good_ite | apply okR_ite | refine okR_eq (by assumption) ?_ | exact okR_of (by assumption) | apply okR_snd | ((first | apply good_bytes | apply good_mk); first | assumption | apply good_State_admitMsg | apply good_State_placeAt | apply good_State_placeDone | apply good_State_modIn | apply good_ite | apply okR_ite | refine okR_eq (by assumption) ?_ | exact okR_of (by assumption) | apply okR_snd) | intro _ | (extract_lets +onlyGivenNames x; first | (apply good_cut (s := x); rotate_left; clear_value x; rotate_left; subst x) | (apply okR_cut (p := x); rotate_left; clear_value x; rotate_left; subst x) | (have hf := is_fun x; clear hf; subst x) | clear_value x | subst x) | split | apply okR_mk)

theorem good_execDataReceive (rx : Rx) (fn : Fn) (wref : ℕ) (roff : ℕ) (moff : ℕ) (mlen : ℕ) (notify : Bool) (imm : BitVec 32) (payload : List Byte) (s : State) (h_s : s.Good) :
    OkOut (execDataReceive rx fn wref roff moff mlen notify imm payload s) := by
  unfold execDataReceive
  repeat' (with_reducible first | assumption | apply good_State_rxSeq | apply good_State_dataBody | apply okOut_next | apply okR_snd | intro _ | (extract_lets +onlyGivenNames x; first | (apply good_cut (s := x); rotate_left; clear_value x; rotate_left; subst x) | (apply okR_cut (p := x); rotate_left; clear_value x; rotate_left; subst x) | (have hf := is_fun x; clear hf; subst x) | clear_value x | subst x) | apply okR_mk)

theorem good_execReadReqReceive (rx : Rx) (fn : Fn) (wref : ℕ) (roff : ℕ) (len : ℕ) (req : ℕ) (s : State) (h_s : s.Good) :
    OkOut (execReadReqReceive rx fn wref roff len req s) := by
  unfold execReadReqReceive
  repeat' (with_reducible first | assumption | apply good_State_rxSeq | apply good_State_admitMsg | apply okOut_next | apply okR_snd | intro _ | (extract_lets +onlyGivenNames x; first | (apply good_cut (s := x); rotate_left; clear_value x; rotate_left; subst x) | (apply okR_cut (p := x); rotate_left; clear_value x; rotate_left; subst x) | (have hf := is_fun x; clear hf; subst x) | clear_value x | subst x) | apply okR_mk)

theorem good_State_atomicBody (s : State) (f : ℕ) (h : ℕ) (x : ℕ) (msn : ℕ) (op : ℕ) (wref : ℕ) (roff : ℕ) (o1 : Word) (o2 : Word) (h_s : s.Good) :
    OkR (State.atomicBody s f h x msn op wref roff o1 o2) := by
  unfold State.atomicBody
  repeat' (with_reducible first | assumption | apply good_State_admitMsg | apply good_State_dropFor | apply good_State_modIn | apply good_ite | apply okR_ite | refine okR_eq (by assumption) ?_ | exact okR_of (by assumption) | apply okR_snd | ((first | apply good_bytes | apply good_mk); first | assumption | apply good_State_admitMsg | apply good_State_dropFor | apply good_State_modIn | apply good_ite | apply okR_ite | refine okR_eq (by assumption) ?_ | exact okR_of (by assumption) | apply okR_snd) | intro _ | (extract_lets +onlyGivenNames x; first | (apply good_cut (s := x); rotate_left; clear_value x; rotate_left; subst x) | (apply okR_cut (p := x); rotate_left; clear_value x; rotate_left; subst x) | (have hf := is_fun x; clear hf; subst x) | clear_value x | subst x) | split | apply okR_mk)

theorem good_execAtomicReqReceive (rx : Rx) (fn : Fn) (op : ℕ) (wref : ℕ) (roff : ℕ) (opnd1 : Word) (opnd2 : Word) (s : State) (h_s : s.Good) :
    OkOut (execAtomicReqReceive rx fn op wref roff opnd1 opnd2 s) := by
  unfold execAtomicReqReceive
  repeat' (with_reducible first | assumption | apply good_State_rxSeq | apply good_State_atomicBody | apply okOut_next | apply okR_snd | intro _ | (extract_lets +onlyGivenNames x; first | (apply good_cut (s := x); rotate_left; clear_value x; rotate_left; subst x) | (apply okR_cut (p := x); rotate_left; clear_value x; rotate_left; subst x) | (have hf := is_fun x; clear hf; subst x) | clear_value x | subst x) | apply okR_mk)

theorem good_State_tsendBody (s : State) (f : ℕ) (h : ℕ) (x : ℕ) (msn : ℕ) (list : ℕ) (tag : Word) (mlen : ℕ) (moff : ℕ) (rdv : Bool) (payload : List Byte) (h_s : s.Good) :
    OkR (State.tsendBody s f h x msn list tag mlen moff rdv payload) := by
  unfold State.tsendBody
  repeat' (with_reducible first | assumption | apply good_State_admitMsg | apply good_State_modIn | apply good_ite | apply okR_ite | apply okR_snd | ((first | apply good_bytes | apply good_mk); first | assumption | apply good_State_admitMsg | apply good_State_modIn | apply good_ite | apply okR_ite | apply okR_snd) | intro _ | (extract_lets +onlyGivenNames x; first | (apply good_cut (s := x); rotate_left; clear_value x; rotate_left; subst x) | (apply okR_cut (p := x); rotate_left; clear_value x; rotate_left; subst x) | (have hf := is_fun x; clear hf; subst x) | clear_value x | subst x) | split | apply okR_mk)

theorem good_execTsendReceive (rx : Rx) (fn : Fn) (list : ℕ) (tag : Word) (mlen : ℕ) (moff : ℕ) (rdv : Bool) (payload : List Byte) (s : State) (h_s : s.Good) :
    OkOut (execTsendReceive rx fn list tag mlen moff rdv payload s) := by
  unfold execTsendReceive
  repeat' (with_reducible first | assumption | apply good_State_rxSeq | apply good_State_tsendBody | apply okOut_next | apply okR_snd | intro _ | (extract_lets +onlyGivenNames x; first | (apply good_cut (s := x); rotate_left; clear_value x; rotate_left; subst x) | (apply okR_cut (p := x); rotate_left; clear_value x; rotate_left; subst x) | (have hf := is_fun x; clear hf; subst x) | clear_value x | subst x) | apply okR_mk)

theorem good_execRdvReqReceive (rx : Rx) (fn : Fn) (req : ℕ) (moff : ℕ) (len : ℕ) (s : State) (h_s : s.Good) :
    OkOut (execRdvReqReceive rx fn req moff len s) := by
  unfold execRdvReqReceive
  repeat' (with_reducible first | assumption | apply good_State_rxSeq | apply good_State_admitMsg | apply okOut_next | apply okR_snd | intro _ | (extract_lets +onlyGivenNames x; first | (apply good_cut (s := x); rotate_left; clear_value x; rotate_left; subst x) | (apply okR_cut (p := x); rotate_left; clear_value x; rotate_left; subst x) | (have hf := is_fun x; clear hf; subst x) | clear_value x | subst x) | apply okR_mk)

theorem good_State_markIn (s : State) (rx : Rx) (f : ℕ) (id : ℕ) (h_s : s.Good) :
    (State.markIn s rx f id).Good := by
  unfold State.markIn
  repeat' (with_reducible first | assumption | apply good_State_modOp | apply good_ite | ((first | apply good_bytes | apply good_mk); first | assumption | apply good_State_modOp | apply good_ite) | intro _ | split)

theorem good_State_respBody (s : State) (rx : Rx) (f : ℕ) (h : ℕ) (x : ℕ) (msn : ℕ) (req : ℕ) (moff : ℕ) (payload : List Byte) (detail : ℕ) (h_s : s.Good) :
    OkR (State.respBody s rx f h x msn req moff payload detail) := by
  unfold State.respBody
  repeat' (with_reducible first | assumption | apply good_State_markIn | apply good_State_admitMsg | apply good_State_placeAt | apply good_State_modOp | apply good_State_endOp | apply good_ite | apply okR_ite | refine okR_eq (by assumption) ?_ | exact okR_of (by assumption) | apply okR_snd | ((first | apply good_bytes | apply good_mk); first | assumption | apply good_State_markIn | apply good_State_admitMsg | apply good_State_placeAt | apply good_State_modOp | apply good_State_endOp | apply good_ite | apply okR_ite | refine okR_eq (by assumption) ?_ | exact okR_of (by assumption) | apply okR_snd) | intro _ | (extract_lets +onlyGivenNames x; first | (apply good_cut (s := x); rotate_left; clear_value x; rotate_left; subst x) | (apply okR_cut (p := x); rotate_left; clear_value x; rotate_left; subst x) | (have hf := is_fun x; clear hf; subst x) | clear_value x | subst x) | split | apply okR_mk)

theorem good_execReadRespReceive (rx : Rx) (fn : Fn) (req : ℕ) (moff : ℕ) (payload : List Byte) (s : State) (h_s : s.Good) :
    OkOut (execReadRespReceive rx fn req moff payload s) := by
  unfold execReadRespReceive
  repeat' (with_reducible first | assumption | apply good_State_rxSeq | apply good_State_respBody | apply okOut_next | apply okR_snd | intro _ | (extract_lets +onlyGivenNames x; first | (apply good_cut (s := x); rotate_left; clear_value x; rotate_left; subst x) | (apply okR_cut (p := x); rotate_left; clear_value x; rotate_left; subst x) | (have hf := is_fun x; clear hf; subst x) | clear_value x | subst x) | apply okR_mk)

theorem good_execAtomicRespReceive (rx : Rx) (fn : Fn) (req : ℕ) (old : Word) (s : State) (h_s : s.Good) :
    OkOut (execAtomicRespReceive rx fn req old s) := by
  unfold execAtomicRespReceive
  repeat' (with_reducible first | assumption | apply good_State_rxSeq | apply good_State_respBody | apply okOut_next | apply okR_snd | intro _ | (extract_lets +onlyGivenNames x; first | (apply good_cut (s := x); rotate_left; clear_value x; rotate_left; subst x) | (apply okR_cut (p := x); rotate_left; clear_value x; rotate_left; subst x) | (have hf := is_fun x; clear hf; subst x) | clear_value x | subst x) | apply okR_mk)

theorem good_State_rdvBody (s : State) (rx : Rx) (f : ℕ) (h : ℕ) (x : ℕ) (msn : ℕ) (req : ℕ) (moff : ℕ) (payload : List Byte) (h_s : s.Good) :
    OkR (State.rdvBody s rx f h x msn req moff payload) := by
  unfold State.rdvBody
  repeat' (with_reducible first | assumption | apply good_State_admitMsg | apply good_State_modIn | apply good_State_markIn | apply good_State_dropFor | apply good_State_placeAt | apply good_ite | apply okR_ite | refine okR_eq (by assumption) ?_ | exact okR_of (by assumption) | apply okR_snd | ((first | apply good_bytes | apply good_mk); first | assumption | apply good_State_admitMsg | apply good_State_modIn | apply good_State_markIn | apply good_State_dropFor | apply good_State_placeAt | apply good_ite | apply okR_ite | refine okR_eq (by assumption) ?_ | exact okR_of (by assumption) | apply okR_snd) | intro _ | (extract_lets +onlyGivenNames x; first | (apply good_cut (s := x); rotate_left; clear_value x; rotate_left; subst x) | (apply okR_cut (p := x); rotate_left; clear_value x; rotate_left; subst x) | (have hf := is_fun x; clear hf; subst x) | clear_value x | subst x) | split | apply okR_mk)

theorem good_execRdvRespReceive (rx : Rx) (fn : Fn) (req : ℕ) (moff : ℕ) (payload : List Byte) (s : State) (h_s : s.Good) :
    OkOut (execRdvRespReceive rx fn req moff payload s) := by
  unfold execRdvRespReceive
  repeat' (with_reducible first | assumption | apply good_State_rxSeq | apply good_State_rdvBody | apply okOut_next | apply okR_snd | intro _ | (extract_lets +onlyGivenNames x; first | (apply good_cut (s := x); rotate_left; clear_value x; rotate_left; subst x) | (apply okR_cut (p := x); rotate_left; clear_value x; rotate_left; subst x) | (have hf := is_fun x; clear hf; subst x) | clear_value x | subst x) | apply okR_mk)

theorem good_State_rdvFail (s : State) (f : ℕ) (h : ℕ) (req : ℕ) (st : Status) (detail : optParam ℕ 0) (h_s : s.Good) :
    (State.rdvFail s f h req st detail).Good := by
  unfold State.rdvFail
  repeat' (with_reducible first | assumption | apply good_State_modConn | apply good_State_endOp | apply good_State_modFn | apply good_State_progStatus | ((first | apply good_bytes | apply good_mk); first | assumption | apply good_State_modConn | apply good_State_endOp | apply good_State_modFn | apply good_State_progStatus) | intro _ | (extract_lets +onlyGivenNames x; first | (apply good_cut (s := x); rotate_left; clear_value x; rotate_left; subst x) | (have hf := is_fun x; clear hf; subst x) | clear_value x | subst x) | split)

theorem good_State_msgFails (s : State) (f : ℕ) (h : ℕ) (msn : ℕ) (st : Status) (detail : ℕ) (h_s : s.Good) :
    (State.msgFails s f h msn st detail).Good := by
  unfold State.msgFails
  repeat' (with_reducible first | assumption | apply good_State_endOp | apply good_State_feedBlock | apply good_State_progStatus | apply good_State_rdvFail | intro _ | split)

theorem good_execNakReceive (rx : Rx) (fn : Fn) (msn : ℕ) (status : Status) (detail : ℕ) (s : State) (h_s : s.Good) :
    OkOut (execNakReceive rx fn msn status detail s) := by
  unfold execNakReceive
  repeat' (with_reducible first | assumption | apply good_State_rxSeq | apply good_State_msgFails | apply okOut_next | apply okR_snd | intro _ | (extract_lets +onlyGivenNames x; first | (apply good_cut (s := x); rotate_left; clear_value x; rotate_left; subst x) | (apply okR_cut (p := x); rotate_left; clear_value x; rotate_left; subst x) | (have hf := is_fun x; clear hf; subst x) | clear_value x | subst x) | apply okR_mk)

theorem good_State_noticeBody (s : State) (f : ℕ) (h : ℕ) (own : ℕ) (msn : ℕ) (st : Status) (h_s : s.Good) :
    (State.noticeBody s f h own msn st).Good := by
  unfold State.noticeBody
  repeat' (with_reducible first | assumption | apply good_State_localFeeds | apply good_State_kvAbandon | apply good_State_abandonIn | apply good_State_modConn | apply good_State_msgFails | apply good_ite | ((first | apply good_bytes | apply good_mk); first | assumption | apply good_State_localFeeds | apply good_State_kvAbandon | apply good_State_abandonIn | apply good_State_modConn | apply good_State_msgFails | apply good_ite) | intro _ | (extract_lets +onlyGivenNames x; first | (apply good_cut (s := x); rotate_left; clear_value x; rotate_left; subst x) | (have hf := is_fun x; clear hf; subst x) | clear_value x | subst x) | split)

theorem good_execAbandonNoticeReceive (rx : Rx) (fn : Fn) (msn : ℕ) (status : Status) (s : State) (h_s : s.Good) :
    OkOut (execAbandonNoticeReceive rx fn msn status s) := by
  unfold execAbandonNoticeReceive
  repeat' (with_reducible first | assumption | apply good_State_rxSeq | apply good_State_noticeBody | apply okOut_next | apply okR_snd | intro _ | (extract_lets +onlyGivenNames x; first | (apply good_cut (s := x); rotate_left; clear_value x; rotate_left; subst x) | (apply okR_cut (p := x); rotate_left; clear_value x; rotate_left; subst x) | (have hf := is_fun x; clear hf; subst x) | clear_value x | subst x) | apply okR_mk)

theorem good_State_herdBody (s : State) (f : ℕ) (h : ℕ) (x : ℕ) (msn : ℕ) (idx : ℕ) (npk : ℕ) (ext : Ext) (land : ℕ → State → Bool × State) (h_s : s.Good) (h_land : ∀ x0 (t : State), t.Good → OkR (land x0 t)) :
    OkR (State.herdBody s f h x msn idx npk ext land) := by
  unfold State.herdBody
  repeat' (with_reducible first | assumption | apply good_State_admitMsg | apply h_land | refine okR_eq (by assumption) ?_ | exact okR_of (by assumption) | apply okR_snd | intro _ | split | apply okR_mk)

theorem good_execBulkCollReceive (rx : Rx) (fn : Fn) (x : BulkExt) (npk : ℕ) (pidx : ℕ) (payload : List Byte) (s : State) (h_s : s.Good) :
    OkOut (execBulkCollReceive rx fn x npk pidx payload s) := by
  unfold execBulkCollReceive
  repeat' (with_reducible first | assumption | apply good_State_rxSeq | apply good_State_dropFrame | apply good_State_herdBody | apply good_State_collData | apply good_ite | apply okOut_next | apply okOut_ite | apply okR_ite | apply okR_snd | intro _ | (extract_lets +onlyGivenNames x; first | (apply good_cut (s := x); rotate_left; clear_value x; rotate_left; subst x) | (apply okR_cut (p := x); rotate_left; clear_value x; rotate_left; subst x) | (have hf := is_fun x; clear hf; subst x) | clear_value x | subst x) | split | apply okR_mk)

theorem good_execHaltReceive (rx : Rx) (fn : Fn) (mepoch : ℕ) (cseq : ℕ) (origin : ℕ) (cause : ℕ) (s : State) (h_s : s.Good) :
    OkOut (execHaltReceive rx fn mepoch cseq origin cause s) := by
  unfold execHaltReceive
  repeat' (with_reducible first | assumption | apply good_State_rxSeq | apply good_State_herdBody | apply okOut_next | apply okR_snd | intro _ | (extract_lets +onlyGivenNames x; first | (apply good_cut (s := x); rotate_left; clear_value x; rotate_left; subst x) | (apply okR_cut (p := x); rotate_left; clear_value x; rotate_left; subst x) | (have hf := is_fun x; clear hf; subst x) | clear_value x | subst x) | apply okR_mk)

theorem good_execBarrierTokenReceive (rx : Rx) (fn : Fn) (mepoch : ℕ) (cseq : ℕ) (sig : ℕ) (srank : ℕ) (step : ℕ) (s : State) (h_s : s.Good) :
    OkOut (execBarrierTokenReceive rx fn mepoch cseq sig srank step s) := by
  unfold execBarrierTokenReceive
  repeat' (with_reducible first | assumption | apply good_State_rxSeq | apply good_State_herdBody | apply okOut_next | apply okR_snd | intro _ | (extract_lets +onlyGivenNames x; first | (apply good_cut (s := x); rotate_left; clear_value x; rotate_left; subst x) | (apply okR_cut (p := x); rotate_left; clear_value x; rotate_left; subst x) | (have hf := is_fun x; clear hf; subst x) | clear_value x | subst x) | apply okR_mk)

theorem good_execTokenProposeReceive (rx : Rx) (fn : Fn) (t : Token) (s : State) (h_s : s.Good) :
    OkOut (execTokenProposeReceive rx fn t s) := by
  unfold execTokenProposeReceive
  repeat' (with_reducible first | assumption | apply good_State_rxSeq | apply good_State_herdBody | apply okOut_next | apply okR_snd | intro _ | (extract_lets +onlyGivenNames x; first | (apply good_cut (s := x); rotate_left; clear_value x; rotate_left; subst x) | (apply okR_cut (p := x); rotate_left; clear_value x; rotate_left; subst x) | (have hf := is_fun x; clear hf; subst x) | clear_value x | subst x) | apply okR_mk)

theorem good_execTokenCommitReceive (rx : Rx) (fn : Fn) (t : Token) (s : State) (h_s : s.Good) :
    OkOut (execTokenCommitReceive rx fn t s) := by
  unfold execTokenCommitReceive
  repeat' (with_reducible first | assumption | apply good_State_rxSeq | apply good_State_herdBody | apply okOut_next | apply okR_snd | intro _ | (extract_lets +onlyGivenNames x; first | (apply good_cut (s := x); rotate_left; clear_value x; rotate_left; subst x) | (apply okR_cut (p := x); rotate_left; clear_value x; rotate_left; subst x) | (have hf := is_fun x; clear hf; subst x) | clear_value x | subst x) | apply okR_mk)

theorem good_State_kvBody (s : State) (f : ℕ) (h : ℕ) (x : ℕ) (msn : ℕ) (k : KvExt) (npk : ℕ) (pidx : ℕ) (payload : List Byte) (h_s : s.Good) :
    OkR (State.kvBody s f h x msn k npk pidx payload) := by
  unfold State.kvBody
  repeat' (with_reducible first | assumption | apply good_State_kvPlace | apply good_State_kvAdmit | apply good_State_admitMsg | apply good_ite | apply okR_ite | refine okR_eq (by assumption) ?_ | exact okR_of (by assumption) | apply okR_snd | intro _ | split | apply okR_mk)

theorem good_execBulkKvReceive (rx : Rx) (fn : Fn) (x : KvExt) (npk : ℕ) (pidx : ℕ) (payload : List Byte) (s : State) (h_s : s.Good) :
    OkOut (execBulkKvReceive rx fn x npk pidx payload s) := by
  unfold execBulkKvReceive
  repeat' (with_reducible first | assumption | apply good_State_rxSeq | apply good_State_dropFrame | apply good_State_kvBody | apply good_ite | apply okOut_next | apply okOut_ite | apply okR_ite | apply okR_snd | intro _ | (extract_lets +onlyGivenNames x; first | (apply good_cut (s := x); rotate_left; clear_value x; rotate_left; subst x) | (apply okR_cut (p := x); rotate_left; clear_value x; rotate_left; subst x) | (have hf := is_fun x; clear hf; subst x) | clear_value x | subst x) | split | apply okR_mk)

theorem good_State_ackedMsg (s : State) (f : ℕ) (h : ℕ) (x : Sent) (whole : Bool) (h_s : s.Good) :
    (State.ackedMsg s f h x whole).Good := by
  unfold State.ackedMsg
  repeat' (with_reducible first | assumption | apply good_State_endOp | apply good_State_progStatus | apply good_State_feedBlock | apply good_State_serveDone | apply good_State_collAcked | apply good_ite | apply good_write | apply good_touchWrite | ((first | apply good_bytes | apply good_mk); first | assumption | apply good_State_endOp | apply good_State_progStatus | apply good_State_feedBlock | apply good_State_serveDone | apply good_State_collAcked | apply good_ite | apply good_write | apply good_touchWrite) | intro _ | split)

theorem good_State_ackIn (s : State) (f : ℕ) (h : ℕ) (x : AckExt) (refused : List ℕ) (h_s : s.Good) :
    (State.ackIn s f h x refused).Good := by
  unfold State.ackIn
  repeat' (with_reducible first | assumption | apply good_State_modConn | apply good_State_stopClock | apply good_State_applyGrant | apply good_State_ackedMsg | apply good_State_closeStep | apply good_ite | apply good_foldl | ((first | apply good_bytes | apply good_mk); first | assumption | apply good_State_modConn | apply good_State_stopClock | apply good_State_applyGrant | apply good_State_ackedMsg | apply good_State_closeStep | apply good_ite | apply good_foldl) | intro _ | (extract_lets +onlyGivenNames x; first | (apply good_cut (s := x); rotate_left; clear_value x; rotate_left; subst x) | (have hf := is_fun x; clear hf; subst x) | clear_value x | subst x) | split)

theorem good_execAckReceive (rx : Rx) (fn : Fn) (x : AckRx) (s : State) (h_s : s.Good) :
    OkOut (execAckReceive rx fn x s) := by
  unfold execAckReceive
  repeat' (with_reducible first | assumption | apply good_State_sized | apply good_State_hear | apply good_State_settle | apply good_State_ackIn | apply okOut_next | refine okR_eq (by assumption) ?_ | exact okR_of (by assumption) | apply okR_snd | intro _ | (extract_lets +onlyGivenNames x; first | (apply good_cut (s := x); rotate_left; clear_value x; rotate_left; subst x) | (apply okR_cut (p := x); rotate_left; clear_value x; rotate_left; subst x) | (have hf := is_fun x; clear hf; subst x) | clear_value x | subst x) | split | apply okR_mk)

theorem good_execAckDelayTimer (fn : Fn) (conn : ℕ) (now : ℕ) (s : State) (h_s : s.Good) :
    OkOut (execAckDelayTimer fn conn now s) := by
  unfold execAckDelayTimer
  repeat' (with_reducible first | assumption | apply good_State_tick | apply good_State_sendAck | apply good_ite | apply okOut_next | apply okOut_ite | intro _ | (extract_lets +onlyGivenNames x; first | (apply good_cut (s := x); rotate_left; clear_value x; rotate_left; subst x) | clear_value x | subst x) | split)

theorem good_State_retxExpiry (s : State) (f : ℕ) (h : ℕ) (psn : ℕ) (h_s : s.Good) :
    (State.retxExpiry s f h psn).Good := by
  unfold State.retxExpiry
  repeat' (with_reducible first | assumption | apply good_State_stopClock | apply good_State_modConn | apply good_ite | ((first | apply good_bytes | apply good_mk); first | assumption | apply good_State_stopClock | apply good_State_modConn | apply good_ite) | intro _ | split)

theorem good_execRetxTimerExpiry (fn : Fn) (conn : ℕ) (psn : ℕ) (now : ℕ) (s : State) (h_s : s.Good) :
    OkOut (execRetxTimerExpiry fn conn psn now s) := by
  unfold execRetxTimerExpiry
  repeat' (with_reducible first | assumption | apply good_State_retxExpiry | apply good_State_tick | apply okOut_next)

theorem good_State_strikeEval (s : State) (f : ℕ) (h : ℕ) (h_s : s.Good) :
    (State.strikeEval s f h).Good := by
  unfold State.strikeEval
  repeat' (with_reducible first | assumption | apply good_State_modConn | apply good_ite | ((first | apply good_bytes | apply good_mk); first | assumption | apply good_State_modConn | apply good_ite) | intro _ | (extract_lets +onlyGivenNames x; first | (apply good_cut (s := x); rotate_left; clear_value x; rotate_left; subst x) | (have hf := is_fun x; clear hf; subst x) | clear_value x | subst x) | split)

theorem good_execPathStrikeEval (fn : Fn) (conn : ℕ) (now : ℕ) (s : State) (h_s : s.Good) :
    OkOut (execPathStrikeEval fn conn now s) := by
  unfold execPathStrikeEval
  repeat' (with_reducible first | assumption | apply good_State_strikeEval | apply good_State_tick | apply okOut_next)

theorem good_State_pathProbe (s : State) (f : ℕ) (h : ℕ) (i : ℕ) (h_s : s.Good) :
    (State.pathProbe s f h i).Good := by
  unfold State.pathProbe
  repeat' (with_reducible first | assumption | apply good_State_modConn | apply good_State_sendCtl | apply good_ite | ((first | apply good_bytes | apply good_mk); first | assumption | apply good_State_modConn | apply good_State_sendCtl | apply good_ite) | intro _ | (extract_lets +onlyGivenNames x; first | (apply good_cut (s := x); rotate_left; clear_value x; rotate_left; subst x) | (have hf := is_fun x; clear hf; subst x) | clear_value x | subst x) | split)

theorem good_execPathProbeTimer (fn : Fn) (conn : ℕ) (path : ℕ) (now : ℕ) (s : State) (h_s : s.Good) :
    OkOut (execPathProbeTimer fn conn path now s) := by
  unfold execPathProbeTimer
  repeat' (with_reducible first | assumption | apply good_State_pathProbe | apply good_State_tick | apply okOut_next)

theorem good_execProbeReceive (rx : Rx) (fn : Fn) (s : State) (h_s : s.Good) :
    OkOut (execProbeReceive rx fn s) := by
  unfold execProbeReceive
  repeat' (with_reducible first | assumption | apply good_State_sized | apply good_State_hear | apply good_State_sendAck | apply good_ite | apply okOut_next | apply okOut_ite | apply okR_ite | refine okR_eq (by assumption) ?_ | exact okR_of (by assumption) | apply okR_snd | intro _ | (extract_lets +onlyGivenNames x; first | (apply good_cut (s := x); rotate_left; clear_value x; rotate_left; subst x) | (apply okR_cut (p := x); rotate_left; clear_value x; rotate_left; subst x) | (have hf := is_fun x; clear hf; subst x) | clear_value x | subst x) | split | apply okR_mk)

theorem good_execSilenceProbeTimer (fn : Fn) (conn : ℕ) (now : ℕ) (s : State) (h_s : s.Good) :
    OkOut (execSilenceProbeTimer fn conn now s) := by
  unfold execSilenceProbeTimer
  repeat' (with_reducible first | assumption | apply good_State_tick | apply good_State_sendCtl | apply good_State_modConn | apply good_ite | apply okOut_next | apply okOut_ite | ((first | apply good_bytes | apply good_mk); first | assumption | apply good_State_tick | apply good_State_sendCtl | apply good_State_modConn | apply good_ite | apply okOut_next | apply okOut_ite) | intro _ | (extract_lets +onlyGivenNames x; first | (apply good_cut (s := x); rotate_left; clear_value x; rotate_left; subst x) | (have hf := is_fun x; clear hf; subst x) | clear_value x | subst x) | split)

theorem good_execCreditGrantReceive (rx : Rx) (fn : Fn) (grant : Grant) (s : State) (h_s : s.Good) :
    OkOut (execCreditGrantReceive rx fn grant s) := by
  unfold execCreditGrantReceive
  repeat' (with_reducible first | assumption | apply good_State_sized | apply good_State_hear | apply good_State_stopClock | apply good_State_applyGrant | apply okOut_next | refine okR_eq (by assumption) ?_ | exact okR_of (by assumption) | apply okR_snd | intro _ | (extract_lets +onlyGivenNames x; first | (apply good_cut (s := x); rotate_left; clear_value x; rotate_left; subst x) | (apply okR_cut (p := x); rotate_left; clear_value x; rotate_left; subst x) | (have hf := is_fun x; clear hf; subst x) | clear_value x | subst x) | split | apply okR_mk)

theorem good_execCreditReqReceive (rx : Rx) (fn : Fn) (s : State) (h_s : s.Good) :
    OkOut (execCreditReqReceive rx fn s) := by
  unfold execCreditReqReceive
  repeat' (with_reducible first | assumption | apply good_State_sized | apply good_State_hear | apply good_State_sendCredit | apply good_State_modConn | apply okOut_next | refine okR_eq (by assumption) ?_ | exact okR_of (by assumption) | apply okR_snd | ((first | apply good_bytes | apply good_mk); first | assumption | apply good_State_sized | apply good_State_hear | apply good_State_sendCredit | apply good_State_modConn | apply okOut_next | refine okR_eq (by assumption) ?_ | exact okR_of (by assumption) | apply okR_snd) | intro _ | (extract_lets +onlyGivenNames x; first | (apply good_cut (s := x); rotate_left; clear_value x; rotate_left; subst x) | (apply okR_cut (p := x); rotate_left; clear_value x; rotate_left; subst x) | (have hf := is_fun x; clear hf; subst x) | clear_value x | subst x) | split | apply okR_mk)

end Sys2Proof.Machine
end

