-- ==== Sys2Proof/Laws/GoodMemory.lean ====
section
/-!
SUPPORT. GoodMemory.lean: every operation and meaning of Memory.lean keeps the canonical form of memory.
-/

namespace Sys2Proof.Machine

set_option linter.all false

theorem good_effAtcPrefetch (addr : ℕ) (len : ℕ) (wr : Bool) (f : ℕ) (id : ℕ) (s : State) (h_s : s.Good) :
    (effAtcPrefetch addr len wr f id s).Good := by
  unfold effAtcPrefetch
  repeat' (with_reducible first | assumption | apply good_State_checked | apply good_State_parkOp | apply good_State_endOp | ((first | apply good_bytes | apply good_mk); first | assumption | apply good_State_checked | apply good_State_parkOp | apply good_State_endOp) | intro _ | (extract_lets +onlyGivenNames x; first | (apply good_cut (s := x); rotate_left; clear_value x; rotate_left; subst x) | (have hf := is_fun x; clear hf; subst x) | (have hf := is_mem x; clear hf; subst x) | clear_value x | subst x) | split)

theorem good_execAtcPrefetch (e : Entry) (addr : ℕ) (len : ℕ) (wr : Bool) (faultOk : Bool) (s : State) (h_s : s.Good) :
    OkOut (execAtcPrefetch e addr len wr faultOk s) := by
  unfold execAtcPrefetch
  repeat' (with_reducible first | assumption | apply good_State_startEntry | apply good_effAtcPrefetch | apply okOut_next)

theorem good_State_rekeyNext (f : ℕ) (op : ℕ) (s : State) (x_u : Unit) (h_s : s.Good) :
    OkL (State.rekeyNext f op s x_u) := by
  unfold State.rekeyNext
  repeat' (with_reducible first | assumption | apply good_State_endOp | apply good_ite | apply okL_ite | refine okL_eq (by assumption) ?_ | exact okL_of (by assumption) | apply okL_fst | ((first | apply good_bytes | apply good_mk); first | assumption | apply good_State_endOp | apply good_ite | apply okL_ite | refine okL_eq (by assumption) ?_ | exact okL_of (by assumption) | apply okL_fst) | intro _ | split | apply okL_mk)

theorem good_State_rekeyStart (s : State) (f : ℕ) (op : ℕ) (h_s : s.Good) :
    (State.rekeyStart s f op).Good := by
  unfold State.rekeyStart
  repeat' (with_reducible first | assumption | apply good_loop | apply good_State_rekeyNext | apply okL_fst | apply okL_mk)

theorem good_effSliceRekey (first : ℕ) (count : ℕ) (ksel : ℕ) (f : ℕ) (id : ℕ) (s : State) (h_s : s.Good) :
    (effSliceRekey first count ksel f id s).Good := by
  unfold effSliceRekey
  repeat' (with_reducible first | assumption | apply good_State_checked | apply good_State_endOp | apply good_State_rekeyStart | apply good_ite | ((first | apply good_bytes | apply good_mk); first | assumption | apply good_State_checked | apply good_State_endOp | apply good_State_rekeyStart | apply good_ite) | intro _ | (extract_lets +onlyGivenNames x; first | (apply good_cut (s := x); rotate_left; clear_value x; rotate_left; subst x) | (have hf := is_fun x; clear hf; subst x) | (have hf := is_mem x; clear hf; subst x) | clear_value x | subst x) | split)

theorem good_execSliceRekey (e : Entry) (first : ℕ) (count : ℕ) (ksel : ℕ) (s : State) (h_s : s.Good) :
    OkOut (execSliceRekey e first count ksel s) := by
  unfold execSliceRekey
  repeat' (with_reducible first | assumption | apply good_State_startEntry | apply good_effSliceRekey | apply okOut_next)

theorem good_State_rekeyPage (s : State) (page : ℕ) (h_s : s.Good) :
    (State.rekeyPage s page).Good := by
  unfold State.rekeyPage
  repeat' (with_reducible first | assumption | apply good_State_modOp | apply good_State_jCommit | apply good_State_rekeyStart | apply good_ite | apply good_foldl | ((first | apply good_bytes | apply good_mk); first | assumption | apply good_State_modOp | apply good_State_jCommit | apply good_State_rekeyStart | apply good_ite | apply good_foldl) | intro _ | (extract_lets +onlyGivenNames x; first | (apply good_cut (s := x); rotate_left; clear_value x; rotate_left; subst x) | (have hf := is_fun x; clear hf; subst x) | (have hf := is_mem x; clear hf; subst x) | clear_value x | subst x) | split)

theorem good_execSliceRekeyPage (page : ℕ) (s : State) (h_s : s.Good) :
    OkOut (execSliceRekeyPage page s) := by
  unfold execSliceRekeyPage
  repeat' (with_reducible first | assumption | apply good_State_rekeyPage | apply okOut_next)

theorem good_effSliceInfo (addr : ℕ) (f : ℕ) (id : ℕ) (s : State) (h_s : s.Good) :
    (effSliceInfo addr f id s).Good := by
  unfold effSliceInfo
  repeat' (with_reducible first | assumption | apply good_State_writeRecord | apply good_ite | apply good_write | apply good_touchWrite | intro _ | split)

theorem good_execSliceInfo (e : Entry) (addr : ℕ) (s : State) (h_s : s.Good) :
    OkOut (execSliceInfo e addr s) := by
  unfold execSliceInfo
  repeat' (with_reducible first | assumption | apply good_State_startEntry | apply good_effSliceInfo | apply okOut_next)

theorem good_State_modAts (s : State) (f : ℕ) (g : Ats → Ats) (h_s : s.Good) :
    (State.modAts s f g).Good := by
  unfold State.modAts
  repeat' (with_reducible first | assumption | apply good_State_modFn | ((first | apply good_bytes | apply good_mk); first | assumption | apply good_State_modFn) | intro _)

theorem good_State_sendOne (f : ℕ) (s : State) (x_u : Unit) (h_s : s.Good) :
    OkL (State.sendOne f s x_u) := by
  unfold State.sendOne
  repeat' (with_reducible first | assumption | apply good_State_modAts | apply good_State_emit | apply good_ite | apply okL_ite | refine okL_eq (by assumption) ?_ | exact okL_of (by assumption) | apply okL_fst | ((first | apply good_bytes | apply good_mk); first | assumption | apply good_State_modAts | apply good_State_emit | apply good_ite | apply okL_ite | refine okL_eq (by assumption) ?_ | exact okL_of (by assumption) | apply okL_fst) | intro _ | (extract_lets +onlyGivenNames x; first | (apply good_cut (s := x); rotate_left; clear_value x; rotate_left; subst x) | (apply okL_cut (p := x); rotate_left; clear_value x; rotate_left; subst x) | (have hf := is_fun x; clear hf; subst x) | (have hf := is_mem x; clear hf; subst x) | clear_value x | subst x) | split | apply okL_mk)

theorem good_sendGo (fuel : ℕ) (s : State) (f : ℕ) (h_s : s.Good) :
    (sendGo fuel s f).Good := by
  unfold sendGo
  repeat' (with_reducible first | assumption | apply good_loop | apply good_State_sendOne | apply okL_fst | apply okL_mk)

theorem good_State_closeBatch (s : State) (f : ℕ) (h_s : s.Good) :
    (State.closeBatch s f).Good := by
  unfold State.closeBatch
  repeat' (with_reducible first | assumption | apply good_State_modAts | apply good_sendGo | apply good_ite | ((first | apply good_bytes | apply good_mk); first | assumption | apply good_State_modAts | apply good_sendGo | apply good_ite) | intro _ | (extract_lets +onlyGivenNames x; first | (apply good_cut (s := x); rotate_left; clear_value x; rotate_left; subst x) | (have hf := is_fun x; clear hf; subst x) | clear_value x | subst x) | split)

theorem good_State_askPage (s : State) (f : ℕ) (page : ℕ) (wr : Bool) (h_s : s.Good) :
    (State.askPage s f page wr).Good := by
  unfold State.askPage
  repeat' (with_reducible first | assumption | apply good_State_modAts | apply good_State_closeBatch | apply good_ite | ((first | apply good_bytes | apply good_mk); first | assumption | apply good_State_modAts | apply good_State_closeBatch | apply good_ite) | intro _ | (extract_lets +onlyGivenNames x; first | (apply good_cut (s := x); rotate_left; clear_value x; rotate_left; subst x) | (have hf := is_fun x; clear hf; subst x) | clear_value x | subst x) | split)

theorem good_State_batchSend (s : State) (f : ℕ) (h_s : s.Good) :
    (State.batchSend s f).Good := by
  unfold State.batchSend
  repeat' (with_reducible first | assumption | apply good_State_closeBatch | apply good_sendGo | apply good_ite | intro _ | (extract_lets +onlyGivenNames x; first | (apply good_cut (s := x); rotate_left; clear_value x; rotate_left; subst x) | clear_value x | subst x) | split)

theorem good_execPageRequestBatchSend (fn : Fn) (now : ℕ) (s : State) (h_s : s.Good) :
    OkOut (execPageRequestBatchSend fn now s) := by
  unfold execPageRequestBatchSend
  repeat' (with_reducible first | assumption | apply good_State_batchSend | apply good_State_tick | apply okOut_next)

theorem good_State_partEnd (s : State) (f : ℕ) (id : ℕ) (p : ℕ) (st : Status) (bytes : ℕ) (detail : ℕ) (h_s : s.Good) :
    (State.partEnd s f id p st bytes detail).Good := by
  unfold State.partEnd
  repeat' (with_reducible first | assumption | apply good_State_jMust | apply good_State_endOp | apply good_ite | intro _ | (extract_lets +onlyGivenNames x; first | (apply good_cut (s := x); rotate_left; clear_value x; rotate_left; subst x) | (have hf := is_cells x; clear hf; subst x) | clear_value x | subst x) | split)

theorem good_State_partRefuse (s : State) (f : ℕ) (o : Op) (st : Status) (h_s : s.Good) :
    (State.partRefuse s f o st).Good := by
  unfold State.partRefuse
  repeat' (with_reducible first | assumption | apply good_State_jMust | apply good_State_modPart | apply good_ite | ((first | apply good_bytes | apply good_mk); first | assumption | apply good_State_jMust | apply good_State_modPart | apply good_ite) | intro _ | split)

theorem good_State_refuseOp (s : State) (f : ℕ) (page : ℕ) (o : Op) (h_s : s.Good) :
    (State.refuseOp s f page o).Good := by
  unfold State.refuseOp
  repeat' (with_reducible first | assumption | apply good_State_modOp | apply good_State_collBad | apply good_State_sessBad | apply good_State_endOp | apply good_State_modFn | apply good_State_modConn | apply good_State_partRefuse | apply good_ite | ((first | apply good_bytes | apply good_mk); first | assumption | apply good_State_modOp | apply good_State_collBad | apply good_State_sessBad | apply good_State_endOp | apply good_State_modFn | apply good_State_modConn | apply good_State_partRefuse | apply good_ite) | intro _ | (extract_lets +onlyGivenNames x; first | (apply good_cut (s := x); rotate_left; clear_value x; rotate_left; subst x) | (have hf := is_fun x; clear hf; subst x) | (have hf := is_cells x; clear hf; subst x) | clear_value x | subst x) | split)

theorem good_State_refuseMsg (s : State) (f : ℕ) (h : ℕ) (page : ℕ) (m : MsgFor) (msn : ℕ) (begun : Bool) (numbered : optParam Bool false) (h_s : s.Good) :
    (State.refuseMsg s f h page m msn begun numbered).Good := by
  unfold State.refuseMsg
  repeat' (with_reducible first | assumption | apply good_State_collBad | apply good_State_failSrc | apply good_State_modConn | apply good_State_sendNak | apply good_State_serveDone | apply good_ite | ((first | apply good_bytes | apply good_mk); first | assumption | apply good_State_collBad | apply good_State_failSrc | apply good_State_modConn | apply good_State_sendNak | apply good_State_serveDone | apply good_ite) | intro _ | (extract_lets +onlyGivenNames x; first | (apply good_cut (s := x); rotate_left; clear_value x; rotate_left; subst x) | (have hf := is_fun x; clear hf; subst x) | clear_value x | subst x) | split)

theorem good_State_refuseIn (s : State) (f : ℕ) (h : ℕ) (page : ℕ) (m : InMsg) (h_s : s.Good) :
    (State.refuseIn s f h page m).Good := by
  unfold State.refuseIn
  repeat' (with_reducible first | assumption | apply good_State_placeDone | apply good_State_rdvFail | apply good_State_modIn | ((first | apply good_bytes | apply good_mk); first | assumption | apply good_State_placeDone | apply good_State_rdvFail | apply good_State_modIn) | intro _ | (extract_lets +onlyGivenNames x; first | (apply good_cut (s := x); rotate_left; clear_value x; rotate_left; subst x) | (have hf := is_fun x; clear hf; subst x) | clear_value x | subst x) | split)

theorem good_State_refuseStore (s : State) (f : ℕ) (l : ℕ) (c : ℕ) (page : ℕ) (a : Async) (d : TileDecl) (h_s : s.Good) :
    (State.refuseStore s f l c page a d).Good := by
  unfold State.refuseStore
  repeat' (with_reducible first | assumption | apply good_State_locWrite | apply good_State_modAsync | apply good_foldl | ((first | apply good_bytes | apply good_mk); first | assumption | apply good_State_locWrite | apply good_State_modAsync | apply good_foldl) | intro _ | (extract_lets +onlyGivenNames x; first | (apply good_cut (s := x); rotate_left; clear_value x; rotate_left; subst x) | (have hf := is_fun x; clear hf; subst x) | clear_value x | subst x))

theorem good_State_refuseAsync (s : State) (f : ℕ) (l : ℕ) (c : ℕ) (page : ℕ) (a : Async) (h_s : s.Good) :
    (State.refuseAsync s f l c page a).Good := by
  unfold State.refuseAsync
  repeat' (with_reducible first | assumption | apply good_State_refuseStore | apply good_State_modAsync | apply good_ite | ((first | apply good_bytes | apply good_mk); first | assumption | apply good_State_refuseStore | apply good_State_modAsync | apply good_ite) | intro _ | (extract_lets +onlyGivenNames x; first | (apply good_cut (s := x); rotate_left; clear_value x; rotate_left; subst x) | (have hf := is_fun x; clear hf; subst x) | clear_value x | subst x) | split)

theorem good_State_putFaulted (s : State) (f : ℕ) (page : ℕ) (o : Op) (bytes : ℕ) (h_s : s.Good) :
    (State.putFaulted s f page o bytes).Good := by
  unfold State.putFaulted
  repeat' (with_reducible first | assumption | apply good_State_putCompl | apply good_State_modFn | apply good_ite | ((first | apply good_bytes | apply good_mk); first | assumption | apply good_State_putCompl | apply good_State_modFn | apply good_ite) | intro _ | (extract_lets +onlyGivenNames x; first | (apply good_cut (s := x); rotate_left; clear_value x; rotate_left; subst x) | (have hf := is_fun x; clear hf; subst x) | (have hf := is_cells x; clear hf; subst x) | clear_value x | subst x) | split)

theorem good_State_interim (s : State) (f : ℕ) (page : ℕ) (o : Op) (bytes : ℕ) (h_s : s.Good) :
    (State.interim s f page o bytes).Good := by
  unfold State.interim
  repeat' (with_reducible first | assumption | apply good_State_putFaulted | apply good_State_modOp | apply good_ite | ((first | apply good_bytes | apply good_mk); first | assumption | apply good_State_putFaulted | apply good_State_modOp | apply good_ite) | intro _ | (extract_lets +onlyGivenNames x; first | (apply good_cut (s := x); rotate_left; clear_value x; rotate_left; subst x) | (have hf := is_fun x; clear hf; subst x) | (have hf := is_cells x; clear hf; subst x) | clear_value x | subst x) | split)

theorem good_State_chanAsks (s : State) (f : ℕ) (page : ℕ) (wr : Bool) (o : Op) (h_s : s.Good) :
    (State.chanAsks s f page wr o).Good := by
  unfold State.chanAsks
  repeat' (with_reducible first | assumption | apply good_State_modOp | apply good_State_askPage | apply good_State_putFaulted | apply good_ite | ((first | apply good_bytes | apply good_mk); first | assumption | apply good_State_modOp | apply good_State_askPage | apply good_State_putFaulted | apply good_ite) | intro _ | (extract_lets +onlyGivenNames x; first | (apply good_cut (s := x); rotate_left; clear_value x; rotate_left; subst x) | (have hf := is_fun x; clear hf; subst x) | clear_value x | subst x) | split)

theorem good_State_refusedCount (s : State) (h_s : s.Good) :
    (State.refusedCount s).Good := by
  unfold State.refusedCount
  repeat' (with_reducible first | assumption | ((first | apply good_bytes | apply good_mk); first | assumption))

theorem good_State_denyPage (s : State) (f : ℕ) (page : ℕ) (wr : Bool) (ask : Bool) (h_s : s.Good) :
    (State.denyPage s f page wr ask).Good := by
  unfold State.denyPage
  repeat' (with_reducible first | assumption | apply good_State_askPage | apply good_State_interim | apply good_State_modOp | apply good_effAtcPrefetch | apply good_State_refusedCount | apply good_State_refuseOp | apply good_State_chanAsks | apply good_State_modConn | apply good_State_refuseMsg | apply good_State_modIn | apply good_State_refuseIn | apply good_State_modRing | apply good_State_cqMemError | apply good_State_flushEnd | apply good_State_sqMemError | apply good_State_modFn | apply good_State_msix | apply good_State_modAsync | apply good_State_refuseAsync | apply good_ite | apply good_foldl | ((first | apply good_bytes | apply good_mk); first | assumption | apply good_State_askPage | apply good_State_interim | apply good_State_modOp | apply good_effAtcPrefetch | apply good_State_refusedCount | apply good_State_refuseOp | apply good_State_chanAsks | apply good_State_modConn | apply good_State_refuseMsg | apply good_State_modIn | apply good_State_refuseIn | apply good_State_modRing | apply good_State_cqMemError | apply good_State_flushEnd | apply good_State_sqMemError | apply good_State_modFn | apply good_State_msix | apply good_State_modAsync | apply good_State_refuseAsync | apply good_ite | apply good_foldl) | intro _ | (extract_lets +onlyGivenNames x; first | (apply good_cut (s := x); rotate_left; clear_value x; rotate_left; subst x) | (have hf := is_fun x; clear hf; subst x) | (have hf := is_mem x; clear hf; subst x) | clear_value x | subst x) | split)

theorem good_State_denyAll (s : State) (f : ℕ) (l : List (ℕ × Bool)) (h_s : s.Good) :
    (State.denyAll s f l).Good := by
  unfold State.denyAll
  repeat' (with_reducible first | assumption | apply good_State_denyPage | apply good_foldl | intro _)

theorem good_State_priResponse (s : State) (f : ℕ) (group : ℕ) (gen : ℕ) (reply : PriReply) (h_s : s.Good) :
    (State.priResponse s f group gen reply).Good := by
  unfold State.priResponse
  repeat' (with_reducible first | assumption | apply good_State_modAts | apply good_State_askXlate | apply good_State_denyAll | apply good_sendGo | apply good_foldl | ((first | apply good_bytes | apply good_mk); first | assumption | apply good_State_modAts | apply good_State_askXlate | apply good_State_denyAll | apply good_sendGo | apply good_foldl) | intro _ | (extract_lets +onlyGivenNames x; first | (apply good_cut (s := x); rotate_left; clear_value x; rotate_left; subst x) | (have hf := is_fun x; clear hf; subst x) | (have hf := is_mem x; clear hf; subst x) | clear_value x | subst x) | split)

theorem good_execPriResponseReceive (fn : Fn) (group : ℕ) (gen : ℕ) (reply : PriReply) (s : State) (h_s : s.Good) :
    OkOut (execPriResponseReceive fn group gen reply s) := by
  unfold execPriResponseReceive
  repeat' (with_reducible first | assumption | apply good_State_settle | apply good_State_priResponse | apply okOut_next)

theorem good_State_priTimeout (s : State) (f : ℕ) (group : ℕ) (h_s : s.Good) :
    (State.priTimeout s f group).Good := by
  unfold State.priTimeout
  repeat' (with_reducible first | assumption | apply good_State_modAts | apply good_State_denyAll | apply good_sendGo | apply good_ite | ((first | apply good_bytes | apply good_mk); first | assumption | apply good_State_modAts | apply good_State_denyAll | apply good_sendGo | apply good_ite) | intro _ | (extract_lets +onlyGivenNames x; first | (apply good_cut (s := x); rotate_left; clear_value x; rotate_left; subst x) | (have hf := is_fun x; clear hf; subst x) | (have hf := is_mem x; clear hf; subst x) | clear_value x | subst x) | split)

theorem good_execPriTimeout (fn : Fn) (group : ℕ) (now : ℕ) (s : State) (h_s : s.Good) :
    OkOut (execPriTimeout fn group now s) := by
  unfold execPriTimeout
  repeat' (with_reducible first | assumption | apply good_State_settle | apply good_State_priTimeout | apply good_State_tick | apply okOut_next)

theorem good_execPriReset (fn : Fn) (s : State) (h_s : s.Good) :
    OkOut (execPriReset fn s) := by
  unfold execPriReset
  repeat' (with_reducible first | assumption | apply good_State_modAts | apply okOut_next | ((first | apply good_bytes | apply good_mk); first | assumption | apply good_State_modAts | apply okOut_next) | intro _)

theorem good_execAtsInvalidateRequest (fn : Fn) (tag : ℕ) (addr : ℕ) (len : ℕ) (s : State) (h_s : s.Good) :
    OkOut (execAtsInvalidateRequest fn tag addr len s) := by
  unfold execAtsInvalidateRequest
  repeat' (with_reducible first | assumption | apply good_State_modAts | apply okOut_next | ((first | apply good_bytes | apply good_mk); first | assumption | apply good_State_modAts | apply okOut_next) | intro _ | (extract_lets +onlyGivenNames x; first | (apply good_cut (s := x); rotate_left; clear_value x; rotate_left; subst x) | (have hf := is_fun x; clear hf; subst x) | (have hf := is_mem x; clear hf; subst x) | clear_value x | subst x))

theorem good_State_invalDone (s : State) (f : ℕ) (tag : ℕ) (h_s : s.Good) :
    (State.invalDone s f tag).Good := by
  unfold State.invalDone
  repeat' (with_reducible first | assumption | apply good_State_emit | apply good_State_modAts | apply good_ite | ((first | apply good_bytes | apply good_mk); first | assumption | apply good_State_emit | apply good_State_modAts | apply good_ite) | intro _ | (extract_lets +onlyGivenNames x; first | (apply good_cut (s := x); rotate_left; clear_value x; rotate_left; subst x) | (have hf := is_fun x; clear hf; subst x) | (have hf := is_mem x; clear hf; subst x) | clear_value x | subst x) | split)

theorem good_execAtsInvalidateComplete (fn : Fn) (tag : ℕ) (s : State) (h_s : s.Good) :
    OkOut (execAtsInvalidateComplete fn tag s) := by
  unfold execAtsInvalidateComplete
  repeat' (with_reducible first | assumption | apply good_State_invalDone | apply okOut_next)

end Sys2Proof.Machine
end

