-- ==== Sys2Proof/Laws/GoodReset.lean ====
section
/-!
SUPPORT. GoodReset.lean: every operation and meaning of Reset.lean keeps the canonical form of memory.
-/

namespace Sys2Proof.Machine

set_option linter.all false

theorem good_State_pageClear (s : State) (ppn : ℕ) (h_s : s.Good) :
    (State.pageClear s ppn).Good := by
  unfold State.pageClear
  repeat' (with_reducible first | assumption | apply good_State_recall | apply good_filter | ((first | apply good_bytes | apply good_mk); first | assumption | apply good_State_recall | apply good_filter) | intro _ | (extract_lets +onlyGivenNames x; first | (apply good_cut (s := x); rotate_left; clear_value x; rotate_left; subst x) | (have hf := is_fun x; clear hf; subst x) | (have hf := is_mem x; clear hf; subst x) | (have hf := is_cells x; clear hf; subst x) | clear_value x | subst x))

theorem good_State_sliceClear (s : State) (p : ℕ) (h_s : s.Good) :
    (State.sliceClear s p).Good := by
  unfold State.sliceClear
  repeat' (with_reducible first | assumption | apply good_State_pageClear | apply good_foldl | intro _ | (extract_lets +onlyGivenNames x; first | (apply good_cut (s := x); rotate_left; clear_value x; rotate_left; subst x) | (have hf := is_fun x; clear hf; subst x) | clear_value x | subst x))

theorem good_State_aer (s : State) (f : ℕ) (code : ℕ) (h_s : s.Good) :
    (State.aer s f code).Good := by
  unfold State.aer
  repeat' (with_reducible first | assumption | apply good_State_emit | apply good_State_modFn | ((first | apply good_bytes | apply good_mk); first | assumption | apply good_State_emit | apply good_State_modFn) | intro _)

theorem good_State_tdiSet (s : State) (p : ℕ) (st : ℕ) (h_s : s.Good) :
    (State.tdiSet s p st).Good := by
  unfold State.tdiSet
  repeat' (with_reducible first | assumption | apply good_State_modPart | apply good_State_jMust | apply good_ite | ((first | apply good_bytes | apply good_mk); first | assumption | apply good_State_modPart | apply good_State_jMust | apply good_ite) | intro _ | (extract_lets +onlyGivenNames x; first | (apply good_cut (s := x); rotate_left; clear_value x; rotate_left; subst x) | (have hf := is_fun x; clear hf; subst x) | clear_value x | subst x) | split)

theorem good_State_tdiError (s : State) (p : ℕ) (h_s : s.Good) :
    (State.tdiError s p).Good := by
  unfold State.tdiError
  repeat' (with_reducible first | assumption | apply good_State_tdiSet | apply good_ite | intro _ | split)

theorem good_State_fnReset (s : State) (f : ℕ) (abort : Bool) (h_s : s.Good) :
    (State.fnReset s f abort).Good := by
  unfold State.fnReset
  repeat' (with_reducible first | assumption | apply good_State_sendAborts | apply good_State_modFn | apply good_ite | apply good_foldl | apply good_filter | ((first | apply good_bytes | apply good_mk); first | assumption | apply good_State_sendAborts | apply good_State_modFn | apply good_ite | apply good_foldl | apply good_filter) | intro _ | (extract_lets +onlyGivenNames x; first | (apply good_cut (s := x); rotate_left; clear_value x; rotate_left; subst x) | (have hf := is_fun x; clear hf; subst x) | (have hf := is_mem x; clear hf; subst x) | clear_value x | subst x) | split)

theorem good_State_endWaits (s : State) (p : ℕ) (h_s : s.Good) :
    (State.endWaits s p).Good := by
  unfold State.endWaits
  repeat' (with_reducible first | assumption | apply good_State_partEnd | apply good_State_modPart | apply good_State_sliceClear | ((first | apply good_bytes | apply good_mk); first | assumption | apply good_State_partEnd | apply good_State_modPart | apply good_State_sliceClear) | intro _ | (extract_lets +onlyGivenNames x; first | (apply good_cut (s := x); rotate_left; clear_value x; rotate_left; subst x) | (have hf := is_fun x; clear hf; subst x) | clear_value x | subst x) | split)

theorem good_State_instReset (s : State) (p : ℕ) (h_s : s.Good) :
    (State.instReset s p).Good := by
  unfold State.instReset
  repeat' (with_reducible first | assumption | apply good_State_endWaits | apply good_State_modPart | apply good_State_modFn | apply good_State_fnReset | apply good_ite | ((first | apply good_bytes | apply good_mk); first | assumption | apply good_State_endWaits | apply good_State_modPart | apply good_State_modFn | apply good_State_fnReset | apply good_ite) | intro _ | (extract_lets +onlyGivenNames x; first | (apply good_cut (s := x); rotate_left; clear_value x; rotate_left; subst x) | (have hf := is_fun x; clear hf; subst x) | clear_value x | subst x) | split)

theorem good_State_tdiReset (s : State) (p : ℕ) (h_s : s.Good) :
    (State.tdiReset s p).Good := by
  unfold State.tdiReset
  repeat' (with_reducible first | assumption | apply good_State_instReset | apply good_State_tdiError | apply good_ite | intro _ | split)

end Sys2Proof.Machine
end

