-- ==== Sys2Proof/Laws/GoodPartition.lean ====
section
/-!
SUPPORT. GoodPartition.lean: every operation and meaning of Partition.lean keeps the canonical form of memory.
-/

namespace Sys2Proof.Machine

set_option linter.all false

theorem good_State_partCmd (s : State) (f : ℕ) (id : ℕ) (opcode : ℕ) (p : ℕ) (more : List ℕ) (l : List Status) (k : State → State) (h_s : s.Good) (h_k : ∀ t : State, t.Good → (k t).Good) :
    (State.partCmd s f id opcode p more l k).Good := by
  unfold State.partCmd
  repeat' (with_reducible first | assumption | apply good_State_endBusy | apply good_State_jMust | apply good_State_jCommit | apply good_State_endOp | apply good_State_modOp | apply h_k | apply good_ite | ((first | apply good_bytes | apply good_mk); first | assumption | apply good_State_endBusy | apply good_State_jMust | apply good_State_jCommit | apply good_State_endOp | apply good_State_modOp | apply h_k | apply good_ite) | intro _ | (extract_lets +onlyGivenNames x; first | (apply good_cut (s := x); rotate_left; clear_value x; rotate_left; subst x) | (have hf := is_fun x; clear hf; subst x) | clear_value x | subst x) | split)

theorem good_effPartApply (p : ℕ) (limit : ℕ) (ptab : ℕ) (f : ℕ) (id : ℕ) (s : State) (h_s : s.Good) :
    (effPartApply p limit ptab f id s).Good := by
  unfold effPartApply
  repeat' (with_reducible first | assumption | apply good_State_partCmd | apply good_State_parkOp | apply good_State_modPart | apply good_State_tdiReset | apply good_State_preemptBlocks | apply good_ite | ((first | apply good_bytes | apply good_mk); first | assumption | apply good_State_partCmd | apply good_State_parkOp | apply good_State_modPart | apply good_State_tdiReset | apply good_State_preemptBlocks | apply good_ite) | intro _ | (extract_lets +onlyGivenNames x; first | (apply good_cut (s := x); rotate_left; clear_value x; rotate_left; subst x) | (have hf := is_fun x; clear hf; subst x) | clear_value x | subst x) | split)

theorem good_execPartApply (e : Entry) (part : ℕ) (limit : ℕ) (ptab : ℕ) (s : State) (h_s : s.Good) :
    OkOut (execPartApply e part limit ptab s) := by
  unfold execPartApply
  repeat' (with_reducible first | assumption | apply good_State_startEntry | apply good_effPartApply | apply okOut_next)

theorem good_State_atcTrim (s : State) (f : ℕ) (share : ℕ) (h_s : s.Good) :
    (State.atcTrim s f share).Good := by
  unfold State.atcTrim
  repeat' (with_reducible first | assumption | apply good_ite | apply good_filter | ((first | apply good_bytes | apply good_mk); first | assumption | apply good_ite | apply good_filter) | intro _ | (extract_lets +onlyGivenNames x; first | (apply good_cut (s := x); rotate_left; clear_value x; rotate_left; subst x) | (have hf := is_fun x; clear hf; subst x) | (have hf := is_mem x; clear hf; subst x) | clear_value x | subst x) | split)

theorem good_State_applyCommit (s : State) (p : ℕ) (h_s : s.Good) :
    (State.applyCommit s p).Good := by
  unfold State.applyCommit
  repeat' (with_reducible first | assumption | apply good_State_pageClear | apply good_State_rekeyStart | apply good_State_modFn | apply good_State_modPart | apply good_State_partEnd | apply good_State_atcTrim | apply good_ite | apply good_foldl | apply good_filter | ((first | apply good_bytes | apply good_mk); first | assumption | apply good_State_pageClear | apply good_State_rekeyStart | apply good_State_modFn | apply good_State_modPart | apply good_State_partEnd | apply good_State_atcTrim | apply good_ite | apply good_foldl | apply good_filter) | intro _ | (extract_lets +onlyGivenNames x; first | (apply good_cut (s := x); rotate_left; clear_value x; rotate_left; subst x) | (have hf := is_fun x; clear hf; subst x) | (have hf := is_mem x; clear hf; subst x) | clear_value x | subst x) | split)

theorem good_execPartApplyCommit (part : Fin 16) (s : State) (h_s : s.Good) :
    OkOut (execPartApplyCommit part s) := by
  unfold execPartApplyCommit
  repeat' (with_reducible first | assumption | apply good_State_applyCommit | apply okOut_next)

theorem good_State_unpreempt (s : State) (f : ℕ) (h_s : s.Good) :
    (State.unpreempt s f).Good := by
  unfold State.unpreempt
  repeat' (with_reducible first | assumption | apply good_State_modFn | apply good_ite | ((first | apply good_bytes | apply good_mk); first | assumption | apply good_State_modFn | apply good_ite) | intro _ | split)

theorem good_State_applyLimit (s : State) (p : ℕ) (h_s : s.Good) :
    (State.applyLimit s p).Good := by
  unfold State.applyLimit
  repeat' (with_reducible first | assumption | apply good_State_modPart | apply good_State_partEnd | apply good_State_unpreempt | apply good_ite | ((first | apply good_bytes | apply good_mk); first | assumption | apply good_State_modPart | apply good_State_partEnd | apply good_State_unpreempt | apply good_ite) | intro _ | (extract_lets +onlyGivenNames x; first | (apply good_cut (s := x); rotate_left; clear_value x; rotate_left; subst x) | (have hf := is_fun x; clear hf; subst x) | clear_value x | subst x) | split)

theorem good_execPartApplyLimit (part : Fin 16) (now : ℕ) (s : State) (h_s : s.Good) :
    OkOut (execPartApplyLimit part now s) := by
  unfold execPartApplyLimit
  repeat' (with_reducible first | assumption | apply good_State_applyLimit | apply good_State_tick | apply okOut_next)

theorem good_effPartReset (p : ℕ) (f : ℕ) (id : ℕ) (s : State) (h_s : s.Good) :
    (effPartReset p f id s).Good := by
  unfold effPartReset
  repeat' (with_reducible first | assumption | apply good_State_partCmd | apply good_State_tdiReset | apply good_ite | intro _ | (extract_lets +onlyGivenNames x; first | (apply good_cut (s := x); rotate_left; clear_value x; rotate_left; subst x) | (have hf := is_fun x; clear hf; subst x) | clear_value x | subst x) | split)

theorem good_execPartReset (e : Entry) (part : ℕ) (s : State) (h_s : s.Good) :
    OkOut (execPartReset e part s) := by
  unfold execPartReset
  repeat' (with_reducible first | assumption | apply good_State_startEntry | apply good_effPartReset | apply okOut_next)

theorem good_State_releaseEnd (s : State) (p : ℕ) (h_s : s.Good) :
    (State.releaseEnd s p).Good := by
  unfold State.releaseEnd
  repeat' (with_reducible first | assumption | apply good_State_sliceClear | apply good_State_modPart | apply good_State_partEnd | apply good_foldl | apply good_filter | ((first | apply good_bytes | apply good_mk); first | assumption | apply good_State_sliceClear | apply good_State_modPart | apply good_State_partEnd | apply good_foldl | apply good_filter) | intro _ | (extract_lets +onlyGivenNames x; first | (apply good_cut (s := x); rotate_left; clear_value x; rotate_left; subst x) | (have hf := is_fun x; clear hf; subst x) | (have hf := is_mem x; clear hf; subst x) | clear_value x | subst x) | split)

theorem good_State_resetDone (s : State) (p : ℕ) (h_s : s.Good) :
    (State.resetDone s p).Good := by
  unfold State.resetDone
  repeat' (with_reducible first | assumption | apply good_State_modFn | apply good_State_modPart | apply good_State_releaseEnd | apply good_State_partEnd | apply good_ite | apply good_foldl | ((first | apply good_bytes | apply good_mk); first | assumption | apply good_State_modFn | apply good_State_modPart | apply good_State_releaseEnd | apply good_State_partEnd | apply good_ite | apply good_foldl) | intro _ | (extract_lets +onlyGivenNames x; first | (apply good_cut (s := x); rotate_left; clear_value x; rotate_left; subst x) | (have hf := is_fun x; clear hf; subst x) | clear_value x | subst x) | split)

theorem good_execInstanceResetComplete (part : Fin 16) (s : State) (h_s : s.Good) :
    OkOut (execInstanceResetComplete part s) := by
  unfold execInstanceResetComplete
  repeat' (with_reducible first | assumption | apply good_State_resetDone | apply okOut_next)

theorem good_State_stopAll (s : State) (f : ℕ) (stop : Bool) (h_s : s.Good) :
    (State.stopAll s f stop).Good := by
  unfold State.stopAll
  repeat' (with_reducible first | assumption | apply good_State_setGrant | apply good_foldl | apply good_filter | intro _)

theorem good_State_freezeCancel (s : State) (p : ℕ) (h_s : s.Good) :
    (State.freezeCancel s p).Good := by
  unfold State.freezeCancel
  repeat' (with_reducible first | assumption | apply good_State_unpreempt | apply good_State_stopAll | apply good_State_modPart | apply good_State_doorbell | apply good_State_modRing | apply good_State_partEnd | apply good_foldl | ((first | apply good_bytes | apply good_mk); first | assumption | apply good_State_unpreempt | apply good_State_stopAll | apply good_State_modPart | apply good_State_doorbell | apply good_State_modRing | apply good_State_partEnd | apply good_foldl) | intro _ | (extract_lets +onlyGivenNames x; first | (apply good_cut (s := x); rotate_left; clear_value x; rotate_left; subst x) | (have hf := is_fun x; clear hf; subst x) | clear_value x | subst x) | split)

theorem good_effPartFreeze (p : ℕ) (limit : ℕ) (f : ℕ) (id : ℕ) (s : State) (h_s : s.Good) :
    (effPartFreeze p limit f id s).Good := by
  unfold effPartFreeze
  repeat' (with_reducible first | assumption | apply good_State_partCmd | apply good_State_stopAll | apply good_State_modPart | apply good_State_freezeCancel | apply good_State_preemptBlocks | apply good_ite | ((first | apply good_bytes | apply good_mk); first | assumption | apply good_State_partCmd | apply good_State_stopAll | apply good_State_modPart | apply good_State_freezeCancel | apply good_State_preemptBlocks | apply good_ite) | intro _ | (extract_lets +onlyGivenNames x; first | (apply good_cut (s := x); rotate_left; clear_value x; rotate_left; subst x) | (have hf := is_fun x; clear hf; subst x) | clear_value x | subst x) | split)

theorem good_execPartFreeze (e : Entry) (part : ℕ) (limit : ℕ) (s : State) (h_s : s.Good) :
    OkOut (execPartFreeze e part limit s) := by
  unfold execPartFreeze
  repeat' (with_reducible first | assumption | apply good_State_startEntry | apply good_effPartFreeze | apply okOut_next)

theorem good_State_freezePoint (s : State) (p : ℕ) (h_s : s.Good) :
    (State.freezePoint s p).Good := by
  unfold State.freezePoint
  repeat' (with_reducible first | assumption | apply good_State_modAts | apply good_State_bump | apply good_State_modPart | apply good_State_partEnd | apply good_ite | ((first | apply good_bytes | apply good_mk); first | assumption | apply good_State_modAts | apply good_State_bump | apply good_State_modPart | apply good_State_partEnd | apply good_ite) | intro _ | (extract_lets +onlyGivenNames x; first | (apply good_cut (s := x); rotate_left; clear_value x; rotate_left; subst x) | (have hf := is_fun x; clear hf; subst x) | clear_value x | subst x) | split)

theorem good_execFreezePoint (part : Fin 16) (now : ℕ) (s : State) (h_s : s.Good) :
    OkOut (execFreezePoint part now s) := by
  unfold execFreezePoint
  repeat' (with_reducible first | assumption | apply good_State_freezePoint | apply good_State_tick | apply okOut_next)

theorem good_execFreezeCancel (part : Fin 16) (now : ℕ) (s : State) (h_s : s.Good) :
    OkOut (execFreezeCancel part now s) := by
  unfold execFreezeCancel
  repeat' (with_reducible first | assumption | apply good_State_tick | apply good_State_freezeCancel | apply good_ite | apply okOut_next | apply okOut_ite | intro _ | (extract_lets +onlyGivenNames x; first | (apply good_cut (s := x); rotate_left; clear_value x; rotate_left; subst x) | clear_value x | subst x) | split)

theorem good_writeExtents (s : State) (f : ℕ) (l : List (ℕ × ℕ)) (bs : List Byte) (h_s : s.Good) :
    (writeExtents s f l bs).Good := by
  induction l generalizing s f bs h_s with
  | nil => rw [writeExtents.eq_1]; repeat' (with_reducible first | assumption | apply good_State_hostWrite | apply good_ite | intro _ | split)
  | cons x t ih => rw [writeExtents.eq_2]; repeat' (with_reducible first | assumption | apply good_State_hostWrite | apply ih | apply good_ite | intro _ | split)

theorem good_State_withTaken (s : State) (f : ℕ) (id : ℕ) (p : ℕ) (opcode : ℕ) (r : List (ℕ × ℕ × Bool)) (k : State → State) (h_s : s.Good) (h_k : ∀ t : State, t.Good → (k t).Good) :
    (State.withTaken s f id p opcode r k).Good := by
  unfold State.withTaken
  repeat' (with_reducible first | assumption | apply good_State_partCmd | apply good_State_withHost | apply h_k | apply good_ite | intro _ | split)

theorem good_State_withExtents (s : State) (f : ℕ) (id : ℕ) (p : ℕ) (opcode : ℕ) (addr : ℕ) (n : ℕ) (wr : Bool) (l : List Status) (k : List (ℕ × ℕ) → State → State) (h_s : s.Good) (h_k : ∀ x0 (t : State), t.Good → (k x0 t).Good) :
    (State.withExtents s f id p opcode addr n wr l k).Good := by
  unfold State.withExtents
  repeat' (with_reducible first | assumption | apply good_State_partCmd | apply good_State_withTaken | apply h_k | apply good_ite | intro _ | (extract_lets +onlyGivenNames x; first | (apply good_cut (s := x); rotate_left; clear_value x; rotate_left; subst x) | (have hf := is_fun x; clear hf; subst x) | clear_value x | subst x) | split)

theorem good_effPartSave (p : ℕ) (addr : ℕ) (n : ℕ) (m : ℕ) (f : ℕ) (id : ℕ) (s : State) (h_s : s.Good) :
    (effPartSave p addr n m f id s).Good := by
  unfold effPartSave
  repeat' (with_reducible first | assumption | apply good_State_withExtents | apply good_State_partCmd | apply good_writeExtents | apply good_State_bump | apply good_State_modPart | apply good_State_jCommit | apply good_State_partEnd | apply good_ite | ((first | apply good_bytes | apply good_mk); first | assumption | apply good_State_withExtents | apply good_State_partCmd | apply good_writeExtents | apply good_State_bump | apply good_State_modPart | apply good_State_jCommit | apply good_State_partEnd | apply good_ite) | intro _ | (extract_lets +onlyGivenNames x; first | (apply good_cut (s := x); rotate_left; clear_value x; rotate_left; subst x) | (have hf := is_fun x; clear hf; subst x) | (have hf := is_cells x; clear hf; subst x) | clear_value x | subst x) | split)

theorem good_execPartSave (e : Entry) (part : ℕ) (addr : ℕ) (len : ℕ) (slot : ℕ) (s : State) (h_s : s.Good) :
    OkOut (execPartSave e part addr len slot s) := by
  unfold execPartSave
  repeat' (with_reducible first | assumption | apply good_State_startEntry | apply good_effPartSave | apply okOut_next)

theorem good_State_imageLoad (s : State) (p : ℕ) (im : Image) (h_s : s.Good) :
    (State.imageLoad s p im).Good := by
  unfold State.imageLoad
  repeat' (with_reducible first | assumption | apply good_State_sliceClear | apply good_State_sliceWrite | apply good_State_setFn | apply good_State_modPart | apply good_foldl | ((first | apply good_bytes | apply good_mk); first | assumption | apply good_State_sliceClear | apply good_State_sliceWrite | apply good_State_setFn | apply good_State_modPart | apply good_foldl) | intro _ | (extract_lets +onlyGivenNames x; first | (apply good_cut (s := x); rotate_left; clear_value x; rotate_left; subst x) | (have hf := is_fun x; clear hf; subst x) | (have hf := is_mem x; clear hf; subst x) | clear_value x | subst x))

theorem good_State_restoreFrom (s : State) (f : ℕ) (id : ℕ) (p : ℕ) (m : ℕ) (ext : List (ℕ × ℕ)) (h_s : s.Good) :
    (State.restoreFrom s f id p m ext).Good := by
  unfold State.restoreFrom
  repeat' (with_reducible first | assumption | apply good_State_partCmd | apply good_State_partEnd | apply good_State_sliceClear | apply good_State_bump | apply good_State_modPart | apply good_State_imageLoad | apply good_State_jCommit | apply good_ite | ((first | apply good_bytes | apply good_mk); first | assumption | apply good_State_partCmd | apply good_State_partEnd | apply good_State_sliceClear | apply good_State_bump | apply good_State_modPart | apply good_State_imageLoad | apply good_State_jCommit | apply good_ite) | intro _ | (extract_lets +onlyGivenNames x; first | (apply good_cut (s := x); rotate_left; clear_value x; rotate_left; subst x) | (have hf := is_fun x; clear hf; subst x) | clear_value x | subst x) | split)

theorem good_State_restoreBack (s : State) (f : ℕ) (id : ℕ) (p : ℕ) (h_s : s.Good) :
    (State.restoreBack s f id p).Good := by
  unfold State.restoreBack
  repeat' (with_reducible first | assumption | apply good_State_modPart | apply good_ite | ((first | apply good_bytes | apply good_mk); first | assumption | apply good_State_modPart | apply good_ite) | intro _ | split)

theorem good_effPartRestore (p : ℕ) (addr : ℕ) (n : ℕ) (m : ℕ) (f : ℕ) (id : ℕ) (s : State) (h_s : s.Good) :
    (effPartRestore p addr n m f id s).Good := by
  unfold effPartRestore
  repeat' (with_reducible first | assumption | apply good_State_modPart | apply good_State_restoreBack | apply good_State_withExtents | apply good_State_restoreFrom | apply good_ite | ((first | apply good_bytes | apply good_mk); first | assumption | apply good_State_modPart | apply good_State_restoreBack | apply good_State_withExtents | apply good_State_restoreFrom | apply good_ite) | intro _ | (extract_lets +onlyGivenNames x; first | (apply good_cut (s := x); rotate_left; clear_value x; rotate_left; subst x) | (have hf := is_fun x; clear hf; subst x) | clear_value x | subst x) | split)

theorem good_execPartRestore (e : Entry) (part : ℕ) (addr : ℕ) (len : ℕ) (slot : ℕ) (s : State) (h_s : s.Good) :
    OkOut (execPartRestore e part addr len slot s) := by
  unfold execPartRestore
  repeat' (with_reducible first | assumption | apply good_State_startEntry | apply good_effPartRestore | apply okOut_next)

theorem good_State_thawConn (s : State) (f : ℕ) (h : ℕ) (restored : Bool) (h_s : s.Good) :
    (State.thawConn s f h restored).Good := by
  unfold State.thawConn
  repeat' (with_reducible first | assumption | apply good_State_modConn | apply good_State_setGrant | apply good_State_exhaust | apply good_State_bump | apply good_State_sendResume | apply good_State_usePeer | apply good_State_askSlow | apply good_State_failConn | apply good_State_sendSyn | apply good_ite | ((first | apply good_bytes | apply good_mk); first | assumption | apply good_State_modConn | apply good_State_setGrant | apply good_State_exhaust | apply good_State_bump | apply good_State_sendResume | apply good_State_usePeer | apply good_State_askSlow | apply good_State_failConn | apply good_State_sendSyn | apply good_ite) | intro _ | (extract_lets +onlyGivenNames x; first | (apply good_cut (s := x); rotate_left; clear_value x; rotate_left; subst x) | (have hf := is_fun x; clear hf; subst x) | clear_value x | subst x) | split)

theorem good_State_thaw (s : State) (p : ℕ) (h_s : s.Good) :
    (State.thaw s p).Good := by
  unfold State.thaw
  repeat' (with_reducible first | assumption | apply good_State_modPart | apply good_State_modFn | apply good_State_askXlate | apply good_State_thawConn | apply good_State_doorbell | apply good_State_modRing | apply good_foldl | apply good_filter | ((first | apply good_bytes | apply good_mk); first | assumption | apply good_State_modPart | apply good_State_modFn | apply good_State_askXlate | apply good_State_thawConn | apply good_State_doorbell | apply good_State_modRing | apply good_foldl | apply good_filter) | intro _ | (extract_lets +onlyGivenNames x; first | (apply good_cut (s := x); rotate_left; clear_value x; rotate_left; subst x) | (have hf := is_fun x; clear hf; subst x) | clear_value x | subst x) | split)

theorem good_effPartThaw (p : ℕ) (f : ℕ) (id : ℕ) (s : State) (h_s : s.Good) :
    (effPartThaw p f id s).Good := by
  unfold effPartThaw
  repeat' (with_reducible first | assumption | apply good_State_partCmd | apply good_State_partEnd | apply good_State_thaw | apply good_ite | apply good_filter | intro _ | (extract_lets +onlyGivenNames x; first | (apply good_cut (s := x); rotate_left; clear_value x; rotate_left; subst x) | (have hf := is_fun x; clear hf; subst x) | clear_value x | subst x) | split)

theorem good_execPartThaw (e : Entry) (part : ℕ) (s : State) (h_s : s.Good) :
    OkOut (execPartThaw e part s) := by
  unfold execPartThaw
  repeat' (with_reducible first | assumption | apply good_State_settle | apply good_State_startEntry | apply good_effPartThaw | apply okOut_next)

theorem good_effPartQuery (p : ℕ) (addr : ℕ) (f : ℕ) (id : ℕ) (s : State) (h_s : s.Good) :
    (effPartQuery p addr f id s).Good := by
  unfold effPartQuery
  repeat' (with_reducible first | assumption | apply good_State_partCmd | apply good_State_writeRecord | apply good_write | apply good_touchWrite | intro _)

theorem good_execPartQuery (e : Entry) (part : ℕ) (addr : ℕ) (s : State) (h_s : s.Good) :
    OkOut (execPartQuery e part addr s) := by
  unfold execPartQuery
  repeat' (with_reducible first | assumption | apply good_State_startEntry | apply good_effPartQuery | apply okOut_next)

theorem good_State_addrWrite (s : State) (p : ℕ) (o : Origin) (off : ℕ) (width : ℕ) (i : ℕ) (old : ℕ) (new : ℕ) (e : AddrEntry) (h_s : s.Good) :
    (State.addrWrite s p o off width i old new e).Good := by
  unfold State.addrWrite
  repeat' (with_reducible first | assumption | apply good_State_setupWrite | apply good_State_modPart | apply good_State_tdiError | ((first | apply good_bytes | apply good_mk); first | assumption | apply good_State_setupWrite | apply good_State_modPart | apply good_State_tdiError) | intro _ | (extract_lets +onlyGivenNames x; first | (apply good_cut (s := x); rotate_left; clear_value x; rotate_left; subst x) | (have hf := is_fun x; clear hf; subst x) | clear_value x | subst x))

theorem good_execPartAddrWrite (part : Fin 16) (o : Origin) (index : ℕ) (ip : ℕ) (vid : ℕ) (pcp : ℕ) (ven : Bool) (ports : ℕ) (valid : Bool) (s : State) (h_s : s.Good) :
    OkOut (execPartAddrWrite part o index ip vid pcp ven ports valid s) := by
  unfold execPartAddrWrite
  repeat' (with_reducible first | assumption | apply good_State_addrWrite | apply okOut_next | (extract_lets +onlyGivenNames x; first | (apply good_cut (s := x); rotate_left; clear_value x; rotate_left; subst x) | clear_value x | subst x))

theorem good_execQuietExpiry (part : Fin 16) (now : ℕ) (s : State) (h_s : s.Good) :
    OkOut (execQuietExpiry part now s) := by
  unfold execQuietExpiry
  repeat' (with_reducible first | assumption | apply good_State_tick | apply good_State_modPart | apply good_ite | apply okOut_next | apply okOut_ite | ((first | apply good_bytes | apply good_mk); first | assumption | apply good_State_tick | apply good_State_modPart | apply good_ite | apply okOut_next | apply okOut_ite) | intro _ | (extract_lets +onlyGivenNames x; first | (apply good_cut (s := x); rotate_left; clear_value x; rotate_left; subst x) | (have hf := is_fun x; clear hf; subst x) | clear_value x | subst x) | split)

end Sys2Proof.Machine
end

