-- ==== Sys2Proof/Laws/GoodLinks.lean ====
section
/-!
SUPPORT. GoodLinks.lean: every operation and meaning of Links.lean keeps the canonical form of memory.
-/

namespace Sys2Proof.Machine

set_option linter.all false

theorem good_State_freeRead (s : State) (l : ℕ) (r : HRead) (h_s : s.Good) :
    (State.freeRead s l r).Good := by
  unfold State.freeRead
  repeat' (with_reducible first | assumption | apply good_State_modLink | ((first | apply good_bytes | apply good_mk); first | assumption | apply good_State_modLink) | intro _)

theorem good_State_modFifo (s : State) (q : ℕ) (id : ℕ) (g : FifoPkt → FifoPkt) (h_s : s.Good) :
    (State.modFifo s q id g).Good := by
  unfold State.modFifo
  repeat' (with_reducible first | assumption | apply good_State_modPort | apply good_ite | ((first | apply good_bytes | apply good_mk); first | assumption | apply good_State_modPort | apply good_ite) | intro _ | split)

theorem good_State_readFails (s : State) (r : HRead) (poison : Bool) (h_s : s.Good) :
    (State.readFails s r poison).Good := by
  unfold State.readFails
  repeat' (with_reducible first | assumption | apply good_State_collBad | apply good_State_abandonMsg | apply good_State_failSrc | apply good_State_modFifo | apply good_ite | ((first | apply good_bytes | apply good_mk); first | assumption | apply good_State_collBad | apply good_State_abandonMsg | apply good_State_failSrc | apply good_State_modFifo | apply good_ite) | intro _ | (extract_lets +onlyGivenNames x; first | (apply good_cut (s := x); rotate_left; clear_value x; rotate_left; subst x) | (have hf := is_fun x; clear hf; subst x) | clear_value x | subst x) | split)

theorem good_State_hostReadCpl (s : State) (l : ℕ) (tag : ℕ) (data : List Byte) (reply : ReadReply) (h_s : s.Good) :
    (State.hostReadCpl s l tag data reply).Good := by
  unfold State.hostReadCpl
  repeat' (with_reducible first | assumption | apply good_State_freeRead | apply good_State_modLink | apply good_State_modFifo | apply good_State_readFails | apply good_State_refusedCount | apply good_ite | ((first | apply good_bytes | apply good_mk); first | assumption | apply good_State_freeRead | apply good_State_modLink | apply good_State_modFifo | apply good_State_readFails | apply good_State_refusedCount | apply good_ite) | intro _ | (extract_lets +onlyGivenNames x; first | (apply good_cut (s := x); rotate_left; clear_value x; rotate_left; subst x) | (have hf := is_fun x; clear hf; subst x) | clear_value x | subst x) | split)

theorem good_State_readTimeout (s : State) (l : ℕ) (tag : ℕ) (h_s : s.Good) :
    (State.readTimeout s l tag).Good := by
  unfold State.readTimeout
  repeat' (with_reducible first | assumption | apply good_State_freeRead | apply good_State_refusedCount | apply good_State_readFails | apply good_State_aer | apply good_State_modLink | apply good_ite | ((first | apply good_bytes | apply good_mk); first | assumption | apply good_State_freeRead | apply good_State_refusedCount | apply good_State_readFails | apply good_State_aer | apply good_State_modLink | apply good_ite) | intro _ | (extract_lets +onlyGivenNames x; first | (apply good_cut (s := x); rotate_left; clear_value x; rotate_left; subst x) | (have hf := is_fun x; clear hf; subst x) | clear_value x | subst x) | split)

theorem good_execCompletionTimeout (link : Fin 4) (tag : ℕ) (now : ℕ) (s : State) (h_s : s.Good) :
    OkOut (execCompletionTimeout link tag now s) := by
  unfold execCompletionTimeout
  repeat' (with_reducible first | assumption | apply good_State_settle | apply good_State_readTimeout | apply good_State_tick | apply okOut_next)

theorem good_State_journalLink (s : State) (event : ℕ) (l : ℕ) (fn : ℕ) (h_s : s.Good) :
    (State.journalLink s event l fn).Good := by
  unfold State.journalLink
  repeat' (with_reducible first | assumption | apply good_State_jMust)

theorem good_execVfFlr (link : Fin 4) (part : Fin 16) (s : State) (h_s : s.Good) :
    OkOut (execVfFlr link part s) := by
  unfold execVfFlr
  repeat' (with_reducible first | assumption | apply good_State_settle | apply good_State_tdiReset | apply good_State_journalLink | apply good_ite | apply okOut_next | apply okOut_ite | intro _ | (extract_lets +onlyGivenNames x; first | (apply good_cut (s := x); rotate_left; clear_value x; rotate_left; subst x) | clear_value x | subst x) | split)

theorem good_State_noCxl (s : State) (l : ℕ) (h_s : s.Good) :
    (State.noCxl s l).Good := by
  unfold State.noCxl
  repeat' (with_reducible first | assumption | apply good_State_dropLink | ((first | apply good_bytes | apply good_mk); first | assumption | apply good_State_dropLink) | intro _ | (extract_lets +onlyGivenNames x; first | (apply good_cut (s := x); rotate_left; clear_value x; rotate_left; subst x) | (have hf := is_fun x; clear hf; subst x) | (have hf := is_mem x; clear hf; subst x) | clear_value x | subst x))

theorem good_State_linkReset (s : State) (l : ℕ) (h_s : s.Good) :
    (State.linkReset s l).Good := by
  unfold State.linkReset
  repeat' (with_reducible first | assumption | apply good_State_instReset | apply good_State_modFn | apply good_State_fnReset | apply good_State_noCxl | apply good_State_modLink | apply good_foldl | ((first | apply good_bytes | apply good_mk); first | assumption | apply good_State_instReset | apply good_State_modFn | apply good_State_fnReset | apply good_State_noCxl | apply good_State_modLink | apply good_foldl) | intro _ | (extract_lets +onlyGivenNames x; first | (apply good_cut (s := x); rotate_left; clear_value x; rotate_left; subst x) | (have hf := is_fun x; clear hf; subst x) | clear_value x | subst x))

theorem good_execPfFlr (link : Fin 4) (s : State) (h_s : s.Good) :
    OkOut (execPfFlr link s) := by
  unfold execPfFlr
  repeat' (with_reducible first | assumption | apply good_State_settle | apply good_State_linkReset | apply good_State_journalLink | apply okOut_next)

theorem good_State_linkDown (s : State) (l : ℕ) (h_s : s.Good) :
    (State.linkDown s l).Good := by
  unfold State.linkDown
  repeat' (with_reducible first | assumption | apply good_State_modLink | apply good_State_linkReset | apply good_State_journalLink | ((first | apply good_bytes | apply good_mk); first | assumption | apply good_State_modLink | apply good_State_linkReset | apply good_State_journalLink) | intro _)

theorem good_execLinkDlDown (link : Fin 4) (s : State) (h_s : s.Good) :
    OkOut (execLinkDlDown link s) := by
  unfold execLinkDlDown
  repeat' (with_reducible first | assumption | apply good_State_settle | apply good_State_report | apply good_State_linkDown | apply okOut_next)

theorem good_execLinkUp (link : Fin 4) (speed : ℕ) (width : ℕ) (cxl : Bool) (s : State) (h_s : s.Good) :
    OkOut (execLinkUp link speed width cxl s) := by
  unfold execLinkUp
  repeat' (with_reducible first | assumption | apply good_State_modLink | apply good_State_journalLink | apply good_State_noCxl | apply good_ite | apply okOut_next | apply okOut_ite | ((first | apply good_bytes | apply good_mk); first | assumption | apply good_State_modLink | apply good_State_journalLink | apply good_State_noCxl | apply good_ite | apply okOut_next | apply okOut_ite) | intro _ | (extract_lets +onlyGivenNames x; first | (apply good_cut (s := x); rotate_left; clear_value x; rotate_left; subst x) | (have hf := is_fun x; clear hf; subst x) | clear_value x | subst x) | split)

theorem good_execVfEnableWrite (link : Fin 4) (on : Bool) (s : State) (h_s : s.Good) :
    OkOut (execVfEnableWrite link on s) := by
  unfold execVfEnableWrite
  repeat' (with_reducible first | assumption | apply good_State_modLink | apply good_ite | apply okOut_next | apply okOut_ite | ((first | apply good_bytes | apply good_mk); first | assumption | apply good_State_modLink | apply good_ite | apply okOut_next | apply okOut_ite) | intro _ | split)

theorem good_State_biSnp (s : State) (e : ℕ × ℕ) (h_s : s.Good) :
    (State.biSnp s e).Good := by
  unfold State.biSnp
  repeat' (with_reducible first | assumption | apply good_State_emit | ((first | apply good_bytes | apply good_mk); first | assumption | apply good_State_emit) | intro _)

theorem good_State_track (s : State) (l : ℕ) (line : ℕ) (h_s : s.Good) :
    (State.track s l line).Good := by
  unfold State.track
  repeat' (with_reducible first | assumption | apply good_State_biSnp | apply good_ite | ((first | apply good_bytes | apply good_mk); first | assumption | apply good_State_biSnp | apply good_ite) | intro _ | (extract_lets +onlyGivenNames x; first | (apply good_cut (s := x); rotate_left; clear_value x; rotate_left; subst x) | (have hf := is_mem x; clear hf; subst x) | clear_value x | subst x) | split)

theorem good_State_cxlRefuse (s : State) (l : ℕ) (h_s : s.Good) :
    (State.cxlRefuse s l).Good := by
  unfold State.cxlRefuse
  repeat' (with_reducible first | assumption | apply good_State_modLink | ((first | apply good_bytes | apply good_mk); first | assumption | apply good_State_modLink) | intro _)

theorem good_execCxlMemRead (link : Fin 4) (addr : ℕ) (s : State) (h_s : s.Good) :
    OkOut (execCxlMemRead link addr s) := by
  unfold execCxlMemRead
  repeat' (with_reducible first | assumption | apply good_State_track | apply good_State_emit | apply good_State_cxlRefuse | apply good_ite | apply okOut_next | apply okOut_ite | intro _ | (extract_lets +onlyGivenNames x; first | (apply good_cut (s := x); rotate_left; clear_value x; rotate_left; subst x) | (have hf := is_mem x; clear hf; subst x) | (have hf := is_cells x; clear hf; subst x) | clear_value x | subst x) | split)

theorem good_execCxlMemWrite (link : Fin 4) (addr : ℕ) (data : List Byte) (s : State) (h_s : s.Good) :
    OkOut (execCxlMemWrite link addr data s) := by
  unfold execCxlMemWrite
  repeat' (with_reducible first | assumption | apply good_State_emit | apply good_State_cxlRefuse | apply good_ite | apply okOut_next | apply okOut_ite | apply good_write | apply good_touchWrite | ((first | apply good_bytes | apply good_mk); first | assumption | apply good_State_emit | apply good_State_cxlRefuse | apply good_ite | apply okOut_next | apply okOut_ite | apply good_write | apply good_touchWrite) | intro _ | (extract_lets +onlyGivenNames x; first | (apply good_cut (s := x); rotate_left; clear_value x; rotate_left; subst x) | (have hf := is_mem x; clear hf; subst x) | clear_value x | subst x) | split)

theorem good_execHostSnoop (link : Fin 4) (addr : ℕ) (inval : Bool) (s : State) (h_s : s.Good) :
    OkOut (execHostSnoop link addr inval s) := by
  unfold execHostSnoop
  repeat' (with_reducible first | assumption | apply good_State_modLines | apply good_State_emit | apply good_ite | apply okOut_next | apply okOut_ite | ((first | apply good_bytes | apply good_mk); first | assumption | apply good_State_modLines | apply good_State_emit | apply good_ite | apply okOut_next | apply okOut_ite) | intro _ | (extract_lets +onlyGivenNames x; first | (apply good_cut (s := x); rotate_left; clear_value x; rotate_left; subst x) | (have hf := is_fun x; clear hf; subst x) | (have hf := is_mem x; clear hf; subst x) | clear_value x | subst x) | split)

theorem good_execDirectoryRecall (link : Fin 4) (addr : ℕ) (dirty : Option (List Byte)) (s : State) (h_s : s.Good) :
    OkOut (execDirectoryRecall link addr dirty s) := by
  unfold execDirectoryRecall
  repeat' (with_reducible first | assumption | apply good_State_biSnp | apply good_ite | apply okOut_next | apply okOut_ite | apply good_write | apply good_touchWrite | ((first | apply good_bytes | apply good_mk); first | assumption | apply good_State_biSnp | apply good_ite | apply okOut_next | apply okOut_ite | apply good_write | apply good_touchWrite) | intro _ | (extract_lets +onlyGivenNames x; first | (apply good_cut (s := x); rotate_left; clear_value x; rotate_left; subst x) | (have hf := is_mem x; clear hf; subst x) | clear_value x | subst x) | split)

theorem good_execLineCacheDisable (link : Fin 4) (o : Origin) (s : State) (h_s : s.Good) :
    OkOut (execLineCacheDisable link o s) := by
  unfold execLineCacheDisable
  repeat' (with_reducible first | assumption | apply good_State_setupWrite | apply good_State_setReg | apply good_State_dropLink | apply okOut_next | intro _ | (extract_lets +onlyGivenNames x; first | (apply good_cut (s := x); rotate_left; clear_value x; rotate_left; subst x) | (have hf := is_fun x; clear hf; subst x) | clear_value x | subst x))

end Sys2Proof.Machine
end

