-- ==== Sys2Proof/Laws/GoodKeys.lean ====
section
/-!
SUPPORT. GoodKeys.lean: every operation and meaning of Keys.lean keeps the canonical form of memory.
-/

namespace Sys2Proof.Machine

set_option linter.all false

theorem good_State_keyCmd (s : State) (f : ℕ) (id : ℕ) (slot : ℕ) (l : List Status) (k : State → State) (h_s : s.Good) (h_k : ∀ t : State, t.Good → (k t).Good) :
    (State.keyCmd s f id slot l k).Good := by
  unfold State.keyCmd
  repeat' (with_reducible first | assumption | apply good_State_endBusy | apply good_State_endOp | apply good_State_jCommit | apply h_k | apply good_ite | intro _ | split)

theorem good_effKeySelSet (e : Entry) (sel : ℕ) (tsel : ℕ) (f : ℕ) (id : ℕ) (s : State) (h_s : s.Good) :
    (effKeySelSet e sel tsel f id s).Good := by
  unfold effKeySelSet
  repeat' (with_reducible first | assumption | apply good_State_keyCmd | apply good_State_jCommit | apply good_State_bump | apply good_State_endOp | apply good_ite | ((first | apply good_bytes | apply good_mk); first | assumption | apply good_State_keyCmd | apply good_State_jCommit | apply good_State_bump | apply good_State_endOp | apply good_ite) | intro _ | (extract_lets +onlyGivenNames x; first | (apply good_cut (s := x); rotate_left; clear_value x; rotate_left; subst x) | (have hf := is_fun x; clear hf; subst x) | (have hf := is_mem x; clear hf; subst x) | clear_value x | subst x) | split)

theorem good_execKeySelSet (e : Entry) (sel : ℕ) (tsel : ℕ) (s : State) (h_s : s.Good) :
    OkOut (execKeySelSet e sel tsel s) := by
  unfold execKeySelSet
  repeat' (with_reducible first | assumption | apply good_State_startEntry | apply good_effKeySelSet | apply okOut_next)

theorem good_effKeySelClear (e : Entry) (sel : ℕ) (f : ℕ) (id : ℕ) (s : State) (h_s : s.Good) :
    (effKeySelClear e sel f id s).Good := by
  unfold effKeySelClear
  repeat' (with_reducible first | assumption | apply good_State_keyCmd | apply good_State_jCommit | apply good_State_endOp | ((first | apply good_bytes | apply good_mk); first | assumption | apply good_State_keyCmd | apply good_State_jCommit | apply good_State_endOp) | intro _ | (extract_lets +onlyGivenNames x; first | (apply good_cut (s := x); rotate_left; clear_value x; rotate_left; subst x) | (have hf := is_fun x; clear hf; subst x) | (have hf := is_mem x; clear hf; subst x) | clear_value x | subst x))

theorem good_execKeySelClear (e : Entry) (sel : ℕ) (s : State) (h_s : s.Good) :
    OkOut (execKeySelClear e sel s) := by
  unfold execKeySelClear
  repeat' (with_reducible first | assumption | apply good_State_startEntry | apply good_effKeySelClear | apply okOut_next)

theorem good_effKeyAdvance (e : Entry) (conn : ℕ) (f : ℕ) (id : ℕ) (s : State) (h_s : s.Good) :
    (effKeyAdvance e conn f id s).Good := by
  unfold effKeyAdvance
  repeat' (with_reducible first | assumption | apply good_State_keyCmd | apply good_State_rekeyEnter | intro _ | (extract_lets +onlyGivenNames x; first | (apply good_cut (s := x); rotate_left; clear_value x; rotate_left; subst x) | (have hf := is_fun x; clear hf; subst x) | clear_value x | subst x))

theorem good_execKeyAdvance (e : Entry) (conn : ℕ) (s : State) (h_s : s.Good) :
    OkOut (execKeyAdvance e conn s) := by
  unfold execKeyAdvance
  repeat' (with_reducible first | assumption | apply good_State_startEntry | apply good_effKeyAdvance | apply okOut_next)

theorem good_State_sealIo (s : State) (f : ℕ) (id : ℕ) (ispace : Bool) (ospace : Bool) (src : ℕ) (len : ℕ) (dst : ℕ) (olen : ℕ) (k : List Byte → State → State) (h_s : s.Good) (h_k : ∀ x0 (t : State), t.Good → (k x0 t).Good) :
    (State.sealIo s f id ispace ospace src len dst olen k).Good := by
  unfold State.sealIo
  repeat' (with_reducible first | assumption | apply good_State_parkOp | apply good_State_endOp | apply good_State_jCommit | apply good_State_locUse | apply h_k | intro _ | split)

theorem good_effKeySeal (e : Entry) (slot : ℕ) (ispace : Bool) (ospace : Bool) (src : ℕ) (dst : ℕ) (len : ℕ) (f : ℕ) (id : ℕ) (s : State) (h_s : s.Good) :
    (effKeySeal e slot ispace ospace src dst len f id s).Good := by
  unfold effKeySeal
  repeat' (with_reducible first | assumption | apply good_State_keyCmd | apply good_State_sealIo | apply good_State_jCommit | apply good_State_bump | apply good_State_modPart | apply good_State_endOp | apply good_State_locWrite | ((first | apply good_bytes | apply good_mk); first | assumption | apply good_State_keyCmd | apply good_State_sealIo | apply good_State_jCommit | apply good_State_bump | apply good_State_modPart | apply good_State_endOp | apply good_State_locWrite) | intro _ | (extract_lets +onlyGivenNames x; first | (apply good_cut (s := x); rotate_left; clear_value x; rotate_left; subst x) | (have hf := is_fun x; clear hf; subst x) | clear_value x | subst x))

theorem good_execKeySeal (e : Entry) (slot : ℕ) (ispace : Bool) (ospace : Bool) (src : ℕ) (dst : ℕ) (len : ℕ) (s : State) (h_s : s.Good) :
    OkOut (execKeySeal e slot ispace ospace src dst len s) := by
  unfold execKeySeal
  repeat' (with_reducible first | assumption | apply good_State_startEntry | apply good_effKeySeal | apply okOut_next)

theorem good_effKeyUnseal (e : Entry) (slot : ℕ) (ispace : Bool) (ospace : Bool) (src : ℕ) (dst : ℕ) (len : ℕ) (f : ℕ) (id : ℕ) (s : State) (h_s : s.Good) :
    (effKeyUnseal e slot ispace ospace src dst len f id s).Good := by
  unfold effKeyUnseal
  repeat' (with_reducible first | assumption | apply good_State_keyCmd | apply good_State_sealIo | apply good_State_endOp | apply good_State_jCommit | apply good_State_locWrite | apply good_ite | intro _ | (extract_lets +onlyGivenNames x; first | (apply good_cut (s := x); rotate_left; clear_value x; rotate_left; subst x) | (have hf := is_fun x; clear hf; subst x) | clear_value x | subst x) | split)

theorem good_execKeyUnseal (e : Entry) (slot : ℕ) (ispace : Bool) (ospace : Bool) (src : ℕ) (dst : ℕ) (len : ℕ) (s : State) (h_s : s.Good) :
    OkOut (execKeyUnseal e slot ispace ospace src dst len s) := by
  unfold execKeyUnseal
  repeat' (with_reducible first | assumption | apply good_State_startEntry | apply good_effKeyUnseal | apply okOut_next)

theorem good_effKeyStatus (e : Entry) (addr : ℕ) (f : ℕ) (id : ℕ) (s : State) (h_s : s.Good) :
    (effKeyStatus e addr f id s).Good := by
  unfold effKeyStatus
  repeat' (with_reducible first | assumption | apply good_State_keyCmd | apply good_State_withHost | apply good_State_writeRecord | apply good_State_jCommit | apply good_write | apply good_touchWrite | intro _)

theorem good_execKeyStatus (e : Entry) (addr : ℕ) (s : State) (h_s : s.Good) :
    OkOut (execKeyStatus e addr s) := by
  unfold execKeyStatus
  repeat' (with_reducible first | assumption | apply good_State_startEntry | apply good_effKeyStatus | apply okOut_next)

theorem good_State_asked (s : State) (ep : SpdmEnd) (k : State → State) (h_s : s.Good) (h_k : ∀ t : State, t.Good → (k t).Good) :
    (State.asked s ep k).Good := by
  unfold State.asked
  repeat' (with_reducible first | assumption | apply h_k | apply good_ite | intro _ | split)

theorem good_State_answer (s : State) (code : ℕ) (st : Status) (value : List ℕ) (h_s : s.Good) :
    (State.answer s code st value).Good := by
  unfold State.answer
  repeat' (with_reducible first | assumption | apply good_State_emit)

theorem good_State_answerBusy (s : State) (code : ℕ) (h_s : s.Good) :
    (State.answerBusy s code).Good := by
  unfold State.answerBusy
  repeat' (with_reducible first | assumption | apply good_State_bump | apply good_State_emit)

theorem good_State_contrib (s : State) (code : ℕ) (p : ℕ) (session : ℕ) (kind : ℕ) (slot : ℕ) (g : Slot) (h_s : s.Good) :
    (State.contrib s code p session kind slot g).Good := by
  unfold State.contrib
  repeat' (with_reducible first | assumption | apply good_State_answerBusy | apply good_State_answer | apply good_State_jCommit | apply good_State_modPart | apply good_ite | ((first | apply good_bytes | apply good_mk); first | assumption | apply good_State_answerBusy | apply good_State_answer | apply good_State_jCommit | apply good_State_modPart | apply good_ite) | intro _ | (extract_lets +onlyGivenNames x; first | (apply good_cut (s := x); rotate_left; clear_value x; rotate_left; subst x) | (have hf := is_fun x; clear hf; subst x) | clear_value x | subst x) | split)

theorem good_execContribSet (part : Fin 16) (session : ℕ) (kind : ℕ) (slot : ℕ) (value : ℕ) (s : State) (h_s : s.Good) :
    OkOut (execContribSet part session kind slot value s) := by
  unfold execContribSet
  repeat' (with_reducible first | assumption | apply good_State_asked | apply good_State_contrib | apply okOut_next | intro _)

theorem good_execContribClear (part : Fin 16) (session : ℕ) (kind : ℕ) (slot : ℕ) (s : State) (h_s : s.Good) :
    OkOut (execContribClear part session kind slot s) := by
  unfold execContribClear
  repeat' (with_reducible first | assumption | apply good_State_asked | apply good_State_contrib | apply okOut_next | intro _)

theorem good_State_spdm (s : State) (ep : SpdmEnd) (r : SpdmReq) (h_s : s.Good) :
    (State.spdm s ep r).Good := by
  unfold State.spdm
  repeat' (with_reducible first | assumption | apply good_State_answerBusy | apply good_State_answer | apply good_State_jCommit | apply good_State_modLink | apply good_ite | ((first | apply good_bytes | apply good_mk); first | assumption | apply good_State_answerBusy | apply good_State_answer | apply good_State_jCommit | apply good_State_modLink | apply good_ite) | intro _ | (extract_lets +onlyGivenNames x; first | (apply good_cut (s := x); rotate_left; clear_value x; rotate_left; subst x) | (have hf := is_fun x; clear hf; subst x) | clear_value x | subst x) | split)

theorem good_execSpdmRequest (ep : SpdmEnd) (r : SpdmReq) (s : State) (h_s : s.Good) :
    OkOut (execSpdmRequest ep r s) := by
  unfold execSpdmRequest
  repeat' (with_reducible first | assumption | apply good_State_asked | apply good_State_spdm | apply okOut_next | intro _)

theorem good_State_ideFail (s : State) (l : ℕ) (stream : ℕ) (h_s : s.Good) :
    (State.ideFail s l stream).Good := by
  unfold State.ideFail
  repeat' (with_reducible first | assumption | apply good_State_modLink | apply good_State_tdiError | apply good_ite | apply good_foldl | ((first | apply good_bytes | apply good_mk); first | assumption | apply good_State_modLink | apply good_State_tdiError | apply good_ite | apply good_foldl) | intro _ | (extract_lets +onlyGivenNames x; first | (apply good_cut (s := x); rotate_left; clear_value x; rotate_left; subst x) | (have hf := is_fun x; clear hf; subst x) | clear_value x | subst x) | split)

theorem good_execIdeIntegrityFail (link : Fin 4) (stream : ℕ) (s : State) (h_s : s.Good) :
    OkOut (execIdeIntegrityFail link stream s) := by
  unfold execIdeIntegrityFail
  repeat' (with_reducible first | assumption | apply good_State_ideFail | apply okOut_next)

theorem good_State_tdisp (s : State) (p : ℕ) (r : TdispReq) (h_s : s.Good) :
    (State.tdisp s p r).Good := by
  unfold State.tdisp
  repeat' (with_reducible first | assumption | apply good_State_answerBusy | apply good_State_answer | apply good_State_modPart | apply good_State_tdiSet | apply good_ite | ((first | apply good_bytes | apply good_mk); first | assumption | apply good_State_answerBusy | apply good_State_answer | apply good_State_modPart | apply good_State_tdiSet | apply good_ite) | intro _ | (extract_lets +onlyGivenNames x; first | (apply good_cut (s := x); rotate_left; clear_value x; rotate_left; subst x) | (have hf := is_fun x; clear hf; subst x) | clear_value x | subst x) | split)

theorem good_execTdispRequest (part : Fin 16) (r : TdispReq) (s : State) (h_s : s.Good) :
    OkOut (execTdispRequest part r s) := by
  unfold execTdispRequest
  repeat' (with_reducible first | assumption | apply good_State_asked | apply good_State_tdisp | apply okOut_next | intro _)

theorem good_State_contactFail (s : State) (ip : ℕ) (h_s : s.Good) :
    (State.contactFail s ip).Good := by
  unfold State.contactFail
  repeat' (with_reducible first | assumption | apply good_State_connFail | apply good_foldl | ((first | apply good_bytes | apply good_mk); first | assumption | apply good_State_connFail | apply good_foldl) | intro _ | (extract_lets +onlyGivenNames x; first | (apply good_cut (s := x); rotate_left; clear_value x; rotate_left; subst x) | (have hf := is_fun x; clear hf; subst x) | clear_value x | subst x))

theorem good_State_pairUp (s : State) (ip : ℕ) (dev : ℕ) (h_s : s.Good) :
    (State.pairUp s ip dev).Good := by
  unfold State.pairUp
  repeat' (with_reducible first | assumption | apply good_State_usePeer | apply good_State_learnMap | apply good_State_evictPeer | apply good_State_contactFail | apply good_State_jCommit | apply good_State_bump | apply good_ite | apply okOpt_getD | apply okOpt_some | apply okOpt_none | apply okOpt_ite | refine okOpt_eq (by assumption) ?_ | exact okOpt_of (by assumption) | ((first | apply good_bytes | apply good_mk); first | assumption | apply good_State_usePeer | apply good_State_learnMap | apply good_State_evictPeer | apply good_State_contactFail | apply good_State_jCommit | apply good_State_bump | apply good_ite | apply okOpt_getD | apply okOpt_some | apply okOpt_none | apply okOpt_ite | refine okOpt_eq (by assumption) ?_ | exact okOpt_of (by assumption)) | intro _ | (extract_lets +onlyGivenNames x; first | (apply good_cut (s := x); rotate_left; clear_value x; rotate_left; subst x) | (apply okOpt_cut (o := x); rotate_left; clear_value x; rotate_left; subst x) | (have hf := is_fun x; clear hf; subst x) | clear_value x | subst x) | split)

theorem good_State_contactIn (s : State) (ip : ℕ) (dev : ℕ) (x : ContactProof) (final : Bool) (h_s : s.Good) :
    (State.contactIn s ip dev x final).Good := by
  unfold State.contactIn
  repeat' (with_reducible first | assumption | apply good_State_contactFail | apply good_State_pairUp | apply good_State_sayTo | apply good_ite | ((first | apply good_bytes | apply good_mk); first | assumption | apply good_State_contactFail | apply good_State_pairUp | apply good_State_sayTo | apply good_ite) | intro _ | (extract_lets +onlyGivenNames x; first | (apply good_cut (s := x); rotate_left; clear_value x; rotate_left; subst x) | (have hf := is_fun x; clear hf; subst x) | clear_value x | subst x) | split)

theorem good_execFirstContactDatagram (peerIp : ℕ) (peerDev : ℕ) (ok : ContactProof) (final : Bool) (now : ℕ) (s : State) (h_s : s.Good) :
    OkOut (execFirstContactDatagram peerIp peerDev ok final now s) := by
  unfold execFirstContactDatagram
  repeat' (with_reducible first | assumption | apply good_State_settle | apply good_State_contactIn | apply good_State_tick | apply okOut_next)

theorem good_State_contactRetry (s : State) (ip : ℕ) (h_s : s.Good) :
    (State.contactRetry s ip).Good := by
  unfold State.contactRetry
  repeat' (with_reducible first | assumption | apply good_State_contactFail | apply good_State_sayTo | apply good_ite | ((first | apply good_bytes | apply good_mk); first | assumption | apply good_State_contactFail | apply good_State_sayTo | apply good_ite) | intro _ | (extract_lets +onlyGivenNames x; first | (apply good_cut (s := x); rotate_left; clear_value x; rotate_left; subst x) | (have hf := is_fun x; clear hf; subst x) | clear_value x | subst x) | split)

theorem good_execFirstContactRetry (peerIp : ℕ) (now : ℕ) (s : State) (h_s : s.Good) :
    OkOut (execFirstContactRetry peerIp now s) := by
  unfold execFirstContactRetry
  repeat' (with_reducible first | assumption | apply good_State_settle | apply good_State_contactRetry | apply good_State_tick | apply okOut_next)

theorem good_execRxNextKeyDerived (fn : Fn) (conn : ℕ) (s : State) (h_s : s.Good) :
    OkOut (execRxNextKeyDerived fn conn s) := by
  unfold execRxNextKeyDerived
  repeat' (with_reducible first | assumption | apply good_State_modConn | apply good_State_deriveDone | apply good_ite | apply okOut_next | apply okOut_ite | ((first | apply good_bytes | apply good_mk); first | assumption | apply good_State_modConn | apply good_State_deriveDone | apply good_ite | apply okOut_next | apply okOut_ite) | intro _ | split)

theorem good_State_entropy (s : State) (ok : Bool) (h_s : s.Good) :
    (State.entropy s ok).Good := by
  unfold State.entropy
  repeat' (with_reducible first | assumption | apply good_State_report | apply good_State_jMust | apply good_ite | ((first | apply good_bytes | apply good_mk); first | assumption | apply good_State_report | apply good_State_jMust | apply good_ite) | intro _ | (extract_lets +onlyGivenNames x; first | (apply good_cut (s := x); rotate_left; clear_value x; rotate_left; subst x) | clear_value x | subst x) | split)

theorem good_execEntropyWindowEnd (ok : Bool) (s : State) (h_s : s.Good) :
    OkOut (execEntropyWindowEnd ok s) := by
  unfold execEntropyWindowEnd
  repeat' (with_reducible first | assumption | apply good_State_entropy | apply okOut_next)

theorem good_execDrbgReseed (now : ℕ) (s : State) (h_s : s.Good) :
    OkOut (execDrbgReseed now s) := by
  unfold execDrbgReseed
  repeat' (with_reducible first | assumption | apply good_State_tick | apply good_ite | apply okOut_next | apply okOut_ite | ((first | apply good_bytes | apply good_mk); first | assumption | apply good_State_tick | apply good_ite | apply okOut_next | apply okOut_ite) | intro _ | (extract_lets +onlyGivenNames x; first | (apply good_cut (s := x); rotate_left; clear_value x; rotate_left; subst x) | clear_value x | subst x) | split)

end Sys2Proof.Machine
end

