-- ==== Sys2Proof/Laws/GoodFailures.lean ====
section
/-!
SUPPORT. GoodFailures.lean: every operation and meaning of Failures.lean keeps the canonical form of memory.
-/

namespace Sys2Proof.Machine

set_option linter.all false

theorem good_State_modCage (s : State) (q : ℕ) (g : Cage → Cage) (h_s : s.Good) :
    (State.modCage s q g).Good := by
  unfold State.modCage
  repeat' (with_reducible first | assumption | ((first | apply good_bytes | apply good_mk); first | assumption))

theorem good_State_noteHealth (s : State) (h_s : s.Good) :
    (State.noteHealth s).Good := by
  unfold State.noteHealth
  repeat' (with_reducible first | assumption | apply good_State_emit | apply good_ite | ((first | apply good_bytes | apply good_mk); first | assumption | apply good_State_emit | apply good_ite) | intro _ | (extract_lets +onlyGivenNames x; first | (apply good_cut (s := x); rotate_left; clear_value x; rotate_left; subst x) | clear_value x | subst x) | split)

theorem good_State_portLoses (s : State) (q : ℕ) (k : ℕ) (h_s : s.Good) :
    (State.portLoses s q k).Good := by
  unfold State.portLoses
  repeat' (with_reducible first | assumption | apply good_ite | ((first | apply good_bytes | apply good_mk); first | assumption | apply good_ite) | intro _ | (extract_lets +onlyGivenNames x; first | (apply good_cut (s := x); rotate_left; clear_value x; rotate_left; subst x) | (have hf := is_fun x; clear hf; subst x) | clear_value x | subst x) | split)

theorem good_State_bpLost (s : State) (q : ℕ) (k : ℕ) (code : ℕ) (info : ℕ) (h_s : s.Good) :
    (State.bpLost s q k code info).Good := by
  unfold State.bpLost
  repeat' (with_reducible first | assumption | apply good_State_noteHealth | apply good_State_report | apply good_State_modBp | apply good_State_portLoses | apply good_ite | intro _ | split)

theorem good_State_bpDown (s : State) (q : ℕ) (k : ℕ) (code : ℕ) (h_s : s.Good) :
    (State.bpDown s q k code).Good := by
  unfold State.bpDown
  repeat' (with_reducible first | assumption | apply good_State_bpLost)

theorem good_execPortDown (port : Fin 8) (loss : PortLoss) (now : ℕ) (s : State) (h_s : s.Good) :
    OkOut (execPortDown port loss now s) := by
  unfold execPortDown
  repeat' (with_reducible first | assumption | apply good_State_bpLost | apply good_State_tick | apply good_State_bpDown | apply okOut_next | intro _ | split)

theorem good_State_bpUp (s : State) (q : ℕ) (k : ℕ) (lanes : ℕ) (h_s : s.Good) :
    (State.bpUp s q k lanes).Good := by
  unfold State.bpUp
  repeat' (with_reducible first | assumption | apply good_State_modBp | apply good_State_sayShed | apply good_State_noteHealth | apply good_ite | ((first | apply good_bytes | apply good_mk); first | assumption | apply good_State_modBp | apply good_State_sayShed | apply good_State_noteHealth | apply good_ite) | intro _ | (extract_lets +onlyGivenNames x; first | (apply good_cut (s := x); rotate_left; clear_value x; rotate_left; subst x) | (have hf := is_fun x; clear hf; subst x) | clear_value x | subst x) | split)

theorem good_execPortUp (port : Fin 8) (bp : ℕ) (lanes : ℕ) (s : State) (h_s : s.Good) :
    OkOut (execPortUp port bp lanes s) := by
  unfold execPortUp
  repeat' (with_reducible first | assumption | apply good_State_bpUp | apply okOut_next)

theorem good_State_modRec (s : State) (k : ℕ) (g : ErrRec → ErrRec) (h_s : s.Good) :
    (State.modRec s k g).Good := by
  unfold State.modRec
  repeat' (with_reducible first | assumption | ((first | apply good_bytes | apply good_mk); first | assumption))

theorem good_State_chipRecord (s : State) (sev : ℕ) (unit : ℕ) (syn : ℕ) (h_s : s.Good) :
    (State.chipRecord s sev unit syn).Good := by
  unfold State.chipRecord
  repeat' (with_reducible first | assumption | apply good_State_jMust | apply good_State_msix | apply good_State_emit | apply good_State_aer | apply good_ite | apply good_foldl | intro _ | (extract_lets +onlyGivenNames x; first | (apply good_cut (s := x); rotate_left; clear_value x; rotate_left; subst x) | (have hf := is_fun x; clear hf; subst x) | clear_value x | subst x) | split)

theorem good_State_chipNote (s : State) (a : ErrAct) (h_s : s.Good) :
    (State.chipNote s a).Good := by
  unfold State.chipNote
  repeat' (with_reducible first | assumption | apply good_State_modRec | apply good_State_chipRecord | intro _)

theorem good_State_blocksLost (s : State) (on : ℕ → Bool) (h_s : s.Good) :
    (State.blocksLost s on).Good := by
  unfold State.blocksLost
  repeat' (with_reducible first | assumption | apply good_State_faultCopy | apply good_State_sessFail | apply good_State_herdEmpty | apply good_ite | apply good_foldl | intro _ | (extract_lets +onlyGivenNames x; first | (apply good_cut (s := x); rotate_left; clear_value x; rotate_left; subst x) | (have hf := is_fun x; clear hf; subst x) | clear_value x | subst x) | split)

theorem good_State_herdsMove (s : State) (n : ℕ) (h_s : s.Good) :
    (State.herdsMove s n).Good := by
  unfold State.herdsMove
  repeat' (with_reducible first | assumption | apply good_State_modHerd | apply good_ite | apply good_foldl | ((first | apply good_bytes | apply good_mk); first | assumption | apply good_State_modHerd | apply good_ite | apply good_foldl) | intro _ | (extract_lets +onlyGivenNames x; first | (apply good_cut (s := x); rotate_left; clear_value x; rotate_left; subst x) | (have hf := is_fun x; clear hf; subst x) | clear_value x | subst x) | split)

theorem good_State_dropAll (s : State) (covered : ℕ → Bool) (h_s : s.Good) :
    (State.dropAll s covered).Good := by
  unfold State.dropAll
  repeat' (with_reducible first | assumption | apply good_State_modRec | apply good_State_chipNote | apply good_foldl | ((first | apply good_bytes | apply good_mk); first | assumption | apply good_State_modRec | apply good_State_chipNote | apply good_foldl) | intro _ | (extract_lets +onlyGivenNames x; first | (apply good_cut (s := x); rotate_left; clear_value x; rotate_left; subst x) | (have hf := is_fun x; clear hf; subst x) | clear_value x | subst x) | split)

theorem good_State_dropActions (s : State) (n : ℕ) (full : Bool) (h_s : s.Good) :
    (State.dropActions s n full).Good := by
  unfold State.dropActions
  repeat' (with_reducible first | assumption | apply good_State_dropAll | intro _)

theorem good_State_limitFenced (s : State) (n : ℕ) (h_s : s.Good) :
    (State.limitFenced s n).Good := by
  unfold State.limitFenced
  repeat' (with_reducible first | assumption | apply good_ite | ((first | apply good_bytes | apply good_mk); first | assumption | apply good_ite) | intro _ | split)

theorem good_State_setLock (s : State) (n : ℕ) (on : Bool) (h_s : s.Good) :
    (State.setLock s n on).Good := by
  unfold State.setLock
  repeat' (with_reducible first | assumption | apply good_ite | ((first | apply good_bytes | apply good_mk); first | assumption | apply good_ite) | intro _ | (extract_lets +onlyGivenNames x; first | (apply good_cut (s := x); rotate_left; clear_value x; rotate_left; subst x) | clear_value x | subst x) | split)

theorem good_State_fenceClose (s : State) (n : ℕ) (h_s : s.Good) :
    (State.fenceClose s n).Good := by
  unfold State.fenceClose
  repeat' (with_reducible first | assumption | apply good_State_herdsMove | apply good_State_blocksLost | apply good_State_setLock | apply good_State_modDom | apply good_State_bpDown | apply good_State_modLink | apply good_State_linkDown | apply good_State_noteHealth | apply good_State_limitFenced | apply good_ite | apply good_foldl | ((first | apply good_bytes | apply good_mk); first | assumption | apply good_State_herdsMove | apply good_State_blocksLost | apply good_State_setLock | apply good_State_modDom | apply good_State_bpDown | apply good_State_modLink | apply good_State_linkDown | apply good_State_noteHealth | apply good_State_limitFenced | apply good_ite | apply good_foldl) | intro _ | (extract_lets +onlyGivenNames x; first | (apply good_cut (s := x); rotate_left; clear_value x; rotate_left; subst x) | (have hf := is_fun x; clear hf; subst x) | clear_value x | subst x) | split)

theorem good_State_bistPut (s : State) (i : ℕ) (r : BistRes) (h_s : s.Good) :
    (State.bistPut s i r).Good := by
  unfold State.bistPut
  repeat' (with_reducible first | assumption | apply good_State_jCommit | apply good_ite | ((first | apply good_bytes | apply good_mk); first | assumption | apply good_State_jCommit | apply good_ite) | intro _ | split)

theorem good_State_bistEnd (s : State) (result : ℕ) (fails : ℕ) (spares : ℕ) (funit : ℕ) (h_s : s.Good) :
    (State.bistEnd s result fails spares funit).Good := by
  unfold State.bistEnd
  repeat' (with_reducible first | assumption | apply good_State_bistPut | apply good_State_bump | apply good_State_setLock | apply good_State_modDom | apply good_ite | ((first | apply good_bytes | apply good_mk); first | assumption | apply good_State_bistPut | apply good_State_bump | apply good_State_setLock | apply good_State_modDom | apply good_ite) | intro _ | (extract_lets +onlyGivenNames x; first | (apply good_cut (s := x); rotate_left; clear_value x; rotate_left; subst x) | (have hf := is_fun x; clear hf; subst x) | clear_value x | subst x) | split)

theorem good_State_bistAbort (s : State) (n : ℕ) (h_s : s.Good) :
    (State.bistAbort s n).Good := by
  unfold State.bistAbort
  repeat' (with_reducible first | assumption | apply good_State_bistEnd | apply good_ite | intro _ | split)

theorem good_State_fenceStart (s : State) (n : ℕ) (code : ℕ) (h_s : s.Good) :
    (State.fenceStart s n code).Good := by
  unfold State.fenceStart
  repeat' (with_reducible first | assumption | apply good_State_bistAbort | apply good_State_dropActions | apply good_State_fenceClose | apply good_State_preemptBlocks | apply good_ite | apply good_foldl | ((first | apply good_bytes | apply good_mk); first | assumption | apply good_State_bistAbort | apply good_State_dropActions | apply good_State_fenceClose | apply good_State_preemptBlocks | apply good_ite | apply good_foldl) | intro _ | (extract_lets +onlyGivenNames x; first | (apply good_cut (s := x); rotate_left; clear_value x; rotate_left; subst x) | (have hf := is_fun x; clear hf; subst x) | clear_value x | subst x) | split)

theorem good_execOrderlyFenceProceed (region : Fin 4) (s : State) (h_s : s.Good) :
    OkOut (execOrderlyFenceProceed region s) := by
  unfold execOrderlyFenceProceed
  repeat' (with_reducible first | assumption | apply good_State_settle | apply good_State_fenceClose | apply good_ite | apply okOut_next | apply okOut_ite | intro _ | (extract_lets +onlyGivenNames x; first | (apply good_cut (s := x); rotate_left; clear_value x; rotate_left; subst x) | clear_value x | subst x) | split)

theorem good_execFenceWaitExpiry (region : Fin 4) (now : ℕ) (s : State) (h_s : s.Good) :
    OkOut (execFenceWaitExpiry region now s) := by
  unfold execFenceWaitExpiry
  repeat' (with_reducible first | assumption | apply good_State_tick | apply good_State_settle | apply good_State_fenceClose | apply good_ite | apply okOut_next | apply okOut_ite | ((first | apply good_bytes | apply good_mk); first | assumption | apply good_State_tick | apply good_State_settle | apply good_State_fenceClose | apply good_ite | apply okOut_next | apply okOut_ite) | intro _ | (extract_lets +onlyGivenNames x; first | (apply good_cut (s := x); rotate_left; clear_value x; rotate_left; subst x) | clear_value x | subst x) | split)

theorem good_State_fenceLift (s : State) (n : ℕ) (h_s : s.Good) :
    (State.fenceLift s n).Good := by
  unfold State.fenceLift
  repeat' (with_reducible first | assumption | apply good_State_modLink | apply good_State_noteHealth | apply good_State_modDom | apply good_ite | ((first | apply good_bytes | apply good_mk); first | assumption | apply good_State_modLink | apply good_State_noteHealth | apply good_State_modDom | apply good_ite) | intro _ | (extract_lets +onlyGivenNames x; first | (apply good_cut (s := x); rotate_left; clear_value x; rotate_left; subst x) | (have hf := is_fun x; clear hf; subst x) | clear_value x | subst x) | split)

theorem good_State_fenceWrite (s : State) (o : Origin) (width : ℕ) (v : ℕ) (h_s : s.Good) :
    (State.fenceWrite s o width v).Good := by
  unfold State.fenceWrite
  repeat' (with_reducible first | assumption | apply good_State_setupWrite | apply good_State_fenceLift | apply good_State_report | apply good_foldl | intro _ | (extract_lets +onlyGivenNames x; first | (apply good_cut (s := x); rotate_left; clear_value x; rotate_left; subst x) | (have hf := is_fun x; clear hf; subst x) | clear_value x | subst x))

theorem good_execErrFenceReq (o : Origin) (mask : ℕ) (s : State) (h_s : s.Good) :
    OkOut (execErrFenceReq o mask s) := by
  unfold execErrFenceReq
  repeat' (with_reducible first | assumption | apply good_State_fenceWrite | apply okOut_next)

theorem good_execErrFenceUnfence (o : Origin) (mask : ℕ) (s : State) (h_s : s.Good) :
    OkOut (execErrFenceUnfence o mask s) := by
  unfold execErrFenceUnfence
  repeat' (with_reducible first | assumption | apply good_State_fenceWrite | apply okOut_next)

theorem good_State_goFatal (s : State) (h_s : s.Good) :
    (State.goFatal s).Good := by
  unfold State.goFatal
  repeat' (with_reducible first | assumption | apply good_State_bistAbort | apply good_State_fenceClose | apply good_State_noteHealth | apply good_State_emit | apply good_State_dropAll | apply good_ite | apply good_foldl | ((first | apply good_bytes | apply good_mk); first | assumption | apply good_State_bistAbort | apply good_State_fenceClose | apply good_State_noteHealth | apply good_State_emit | apply good_State_dropAll | apply good_ite | apply good_foldl) | intro _ | (extract_lets +onlyGivenNames x; first | (apply good_cut (s := x); rotate_left; clear_value x; rotate_left; subst x) | (have hf := is_fun x; clear hf; subst x) | clear_value x | subst x) | split)

theorem good_State_runAction (s : State) (k : ℕ) (a : ErrAct) (h_s : s.Good) :
    (State.runAction s k a).Good := by
  unfold State.runAction
  repeat' (with_reducible first | assumption | apply good_State_goFatal | apply good_State_fenceStart | apply good_State_blocksLost | apply good_State_bpDown | apply good_ite | apply good_foldl | intro _ | (extract_lets +onlyGivenNames x; first | (apply good_cut (s := x); rotate_left; clear_value x; rotate_left; subst x) | (have hf := is_fun x; clear hf; subst x) | clear_value x | subst x) | split)

theorem good_State_atRecord (s : State) (k : ℕ) (sev : ℕ) (unit : ℕ) (syn : ℕ) (need : Bool) (h_s : s.Good) :
    OkL (State.atRecord s k sev unit syn need) := by
  unfold State.atRecord
  repeat' (with_reducible first | assumption | apply good_State_modRec | apply good_State_runAction | apply good_ite | apply okL_ite | refine okL_eq (by assumption) ?_ | exact okL_of (by assumption) | apply okL_fst | ((first | apply good_bytes | apply good_mk); first | assumption | apply good_State_modRec | apply good_State_runAction | apply good_ite | apply okL_ite | refine okL_eq (by assumption) ?_ | exact okL_of (by assumption) | apply okL_fst) | intro _ | (extract_lets +onlyGivenNames x; first | (apply good_cut (s := x); rotate_left; clear_value x; rotate_left; subst x) | (apply okL_cut (p := x); rotate_left; clear_value x; rotate_left; subst x) | (have hf := is_fun x; clear hf; subst x) | clear_value x | subst x) | split | apply okL_mk)

theorem good_State_atChip (s : State) (sev : ℕ) (unit : ℕ) (syn : ℕ) (h_s : s.Good) :
    (State.atChip s sev unit syn).Good := by
  unfold State.atChip
  repeat' (with_reducible first | assumption | apply good_State_chipRecord | apply good_State_atRecord | apply good_State_goFatal | refine okL_eq (by assumption) ?_ | exact okL_of (by assumption) | apply okL_fst | intro _ | (extract_lets +onlyGivenNames x; first | (apply good_cut (s := x); rotate_left; clear_value x; rotate_left; subst x) | (apply okL_cut (p := x); rotate_left; clear_value x; rotate_left; subst x) | clear_value x | subst x) | split | apply okL_mk)

theorem good_State_atRegion (s : State) (n : ℕ) (sev : ℕ) (unit : ℕ) (syn : ℕ) (h_s : s.Good) :
    (State.atRegion s n sev unit syn).Good := by
  unfold State.atRegion
  repeat' (with_reducible first | assumption | apply good_State_atRecord | apply good_State_atChip | apply good_ite | apply okL_ite | refine okL_eq (by assumption) ?_ | exact okL_of (by assumption) | apply okL_fst | intro _ | split | apply okL_mk)

theorem good_State_above (s : State) (block : ℕ) (sev : ℕ) (unit : ℕ) (syn : ℕ) (h_s : s.Good) :
    (State.above s block sev unit syn).Good := by
  unfold State.above
  repeat' (with_reducible first | assumption | apply good_State_atRegion | apply good_State_atChip | apply good_ite | intro _ | split)

theorem good_State_noteHang (s : State) (block : ℕ) (unit : ℕ) (syn : ℕ) (h_s : s.Good) :
    (State.noteHang s block unit syn).Good := by
  unfold State.noteHang
  repeat' (with_reducible first | assumption | apply good_State_atRegion | apply good_ite | ((first | apply good_bytes | apply good_mk); first | assumption | apply good_State_atRegion | apply good_ite) | intro _ | (extract_lets +onlyGivenNames x; first | (apply good_cut (s := x); rotate_left; clear_value x; rotate_left; subst x) | (have hf := is_fun x; clear hf; subst x) | clear_value x | subst x) | split)

theorem good_State_arrival (s : State) (r : ErrReport) (h_s : s.Good) :
    (State.arrival s r).Good := by
  unfold State.arrival
  repeat' (with_reducible first | assumption | apply good_State_atChip | apply good_State_above | apply good_State_atRecord | apply good_State_noteHang | apply good_ite | apply okL_ite | refine okL_eq (by assumption) ?_ | exact okL_of (by assumption) | apply okL_fst | ((first | apply good_bytes | apply good_mk); first | assumption | apply good_State_atChip | apply good_State_above | apply good_State_atRecord | apply good_State_noteHang | apply good_ite | apply okL_ite | refine okL_eq (by assumption) ?_ | exact okL_of (by assumption) | apply okL_fst) | intro _ | (extract_lets +onlyGivenNames x; first | (apply good_cut (s := x); rotate_left; clear_value x; rotate_left; subst x) | (apply okL_cut (p := x); rotate_left; clear_value x; rotate_left; subst x) | (have hf := is_fun x; clear hf; subst x) | clear_value x | subst x) | split | apply okL_mk)

theorem good_State_poisonNotice (s : State) (p : ℕ) (detail : ℕ) (h_s : s.Good) :
    (State.poisonNotice s p detail).Good := by
  unfold State.poisonNotice
  repeat' (with_reducible first | assumption | apply good_State_complete)

theorem good_State_poisonElse (s : State) (h_s : s.Good) :
    (State.poisonElse s).Good := by
  unfold State.poisonElse
  repeat' (with_reducible first | assumption | apply good_State_bump | apply good_State_poisonNotice | apply good_ite | intro _ | (extract_lets +onlyGivenNames x; first | (apply good_cut (s := x); rotate_left; clear_value x; rotate_left; subst x) | clear_value x | subst x) | split)

theorem good_State_poisonLocal (s : State) (f : ℕ) (b : ℕ) (h_s : s.Good) :
    (State.poisonLocal s f b).Good := by
  unfold State.poisonLocal
  repeat' (with_reducible first | assumption | apply good_State_poisonCopy | apply good_State_poisonSess | apply good_foldl | intro _ | (extract_lets +onlyGivenNames x; first | (apply good_cut (s := x); rotate_left; clear_value x; rotate_left; subst x) | (have hf := is_fun x; clear hf; subst x) | clear_value x | subst x) | split)

theorem good_State_poisonAt (s : State) (k : ℕ) (loc : ℕ) (h_s : s.Good) :
    (State.poisonAt s k loc).Good := by
  unfold State.poisonAt
  repeat' (with_reducible first | assumption | apply good_State_poisonNotice | apply good_State_poisonElse | apply good_State_poisonLocal | apply good_ite | ((first | apply good_bytes | apply good_mk); first | assumption | apply good_State_poisonNotice | apply good_State_poisonElse | apply good_State_poisonLocal | apply good_ite) | intro _ | (extract_lets +onlyGivenNames x; first | (apply good_cut (s := x); rotate_left; clear_value x; rotate_left; subst x) | (have hf := is_mem x; clear hf; subst x) | clear_value x | subst x) | split)

theorem good_State_demandUe (s : State) (r : ErrReport) (c : CtxRef) (h_s : s.Good) :
    (State.demandUe s r c).Good := by
  unfold State.demandUe
  repeat' (with_reducible first | assumption | apply good_State_poisonAt | apply good_ite | intro _ | split)

theorem good_State_strike (s : State) (c : CtxRef) (h_s : s.Good) :
    (State.strike s c).Good := by
  unfold State.strike
  repeat' (with_reducible first | assumption | apply good_State_sendAborts | apply good_State_endOp | apply good_State_connEvent | apply good_State_connLost | apply good_State_winClose | apply good_State_modWin | apply good_State_sqMemError | apply good_State_herdBreak | apply good_State_modFn | apply good_State_mlistEnd | apply good_ite | apply good_foldl | ((first | apply good_bytes | apply good_mk); first | assumption | apply good_State_sendAborts | apply good_State_endOp | apply good_State_connEvent | apply good_State_connLost | apply good_State_winClose | apply good_State_modWin | apply good_State_sqMemError | apply good_State_herdBreak | apply good_State_modFn | apply good_State_mlistEnd | apply good_ite | apply good_foldl) | intro _ | (extract_lets +onlyGivenNames x; first | (apply good_cut (s := x); rotate_left; clear_value x; rotate_left; subst x) | (have hf := is_fun x; clear hf; subst x) | clear_value x | subst x) | split)

theorem good_execErrorArrival (r : ErrReport) (strikes : CtxRef) (s : State) (h_s : s.Good) :
    OkOut (execErrorArrival r strikes s) := by
  unfold execErrorArrival
  repeat' (with_reducible first | assumption | apply good_State_settle | apply good_State_strike | apply good_State_demandUe | apply good_State_arrival | apply okOut_next)

theorem good_State_actionEnd (s : State) (k : ℕ) (h_s : s.Good) :
    (State.actionEnd s k).Good := by
  unfold State.actionEnd
  repeat' (with_reducible first | assumption | apply good_State_modRec | apply good_State_atChip | apply good_State_runAction | apply good_ite | ((first | apply good_bytes | apply good_mk); first | assumption | apply good_State_modRec | apply good_State_atChip | apply good_State_runAction | apply good_ite) | intro _ | (extract_lets +onlyGivenNames x; first | (apply good_cut (s := x); rotate_left; clear_value x; rotate_left; subst x) | (have hf := is_fun x; clear hf; subst x) | clear_value x | subst x) | split)

theorem good_execErrorActionEnd (rec_ : RecRef) (s : State) (h_s : s.Good) :
    OkOut (execErrorActionEnd rec_ s) := by
  unfold execErrorActionEnd
  repeat' (with_reducible first | assumption | apply good_State_settle | apply good_State_actionEnd | apply okOut_next)

theorem good_State_recClear (s : State) (o : Origin) (r : RecRef) (v : ℕ) (h_s : s.Good) :
    (State.recClear s o r v).Good := by
  unfold State.recClear
  repeat' (with_reducible first | assumption | apply good_State_setupWrite | ((first | apply good_bytes | apply good_mk); first | assumption | apply good_State_setupWrite) | intro _ | (extract_lets +onlyGivenNames x; first | (apply good_cut (s := x); rotate_left; clear_value x; rotate_left; subst x) | (have hf := is_fun x; clear hf; subst x) | clear_value x | subst x))

theorem good_execErrRecordClear (o : Origin) (rec_ : RecRef) (s : State) (h_s : s.Good) :
    OkOut (execErrRecordClear o rec_ s) := by
  unfold execErrRecordClear
  repeat' (with_reducible first | assumption | apply good_State_recClear | apply okOut_next)

end Sys2Proof.Machine
end

