-- ==== Sys2Proof/Laws/GoodMailbox.lean ====
section
/-!
SUPPORT. GoodMailbox.lean: every operation and meaning of Mailbox.lean keeps the canonical form of memory.
-/

namespace Sys2Proof.Machine

set_option linter.all false

theorem good_State_modMbx (s : State) (f : ℕ) (g : Mbx → Mbx) (h_s : s.Good) :
    (State.modMbx s f g).Good := by
  unfold State.modMbx
  repeat' (with_reducible first | assumption | apply good_State_modFn | ((first | apply good_bytes | apply good_mk); first | assumption | apply good_State_modFn) | intro _)

theorem good_State_mbxDrop (s : State) (f : ℕ) (l : ℕ) (h_s : s.Good) :
    (State.mbxDrop s f l).Good := by
  unfold State.mbxDrop
  repeat' (with_reducible first | assumption | apply good_State_modMbx | apply good_State_modLink | apply good_State_emit | apply good_State_aer | ((first | apply good_bytes | apply good_mk); first | assumption | apply good_State_modMbx | apply good_State_modLink | apply good_State_emit | apply good_State_aer) | intro _ | (extract_lets +onlyGivenNames x; first | (apply good_cut (s := x); rotate_left; clear_value x; rotate_left; subst x) | (have hf := is_fun x; clear hf; subst x) | clear_value x | subst x))

theorem good_State_instMbx (s : State) (p : ℕ) (l : ℕ) (msg : MbxMsg) (defer : Bool) (h_s : s.Good) :
    (State.instMbx s p l msg defer).Good := by
  unfold State.instMbx
  repeat' (with_reducible first | assumption | apply good_State_emit | apply good_State_modLink | apply good_State_mbxDrop | apply good_State_modMbx | apply good_ite | ((first | apply good_bytes | apply good_mk); first | assumption | apply good_State_emit | apply good_State_modLink | apply good_State_mbxDrop | apply good_State_modMbx | apply good_ite) | intro _ | (extract_lets +onlyGivenNames x; first | (apply good_cut (s := x); rotate_left; clear_value x; rotate_left; subst x) | (have hf := is_fun x; clear hf; subst x) | clear_value x | subst x) | split)

theorem good_execInstMbx (part : Fin 16) (link : Fin 4) (gen : ℕ) (opcode : ℕ) (tag : ℕ) (args : List Byte) (deferrable : Bool) (s : State) (h_s : s.Good) :
    OkOut (execInstMbx part link gen opcode tag args deferrable s) := by
  unfold execInstMbx
  repeat' (with_reducible first | assumption | apply good_State_instMbx | apply okOut_next)

theorem good_State_mbxAnswer (s : State) (f : ℕ) (st : Status) (detail : ℕ) (result : List ℕ) (h_s : s.Good) :
    (State.mbxAnswer s f st detail result).Good := by
  unfold State.mbxAnswer
  repeat' (with_reducible first | assumption | apply good_State_modMbx | ((first | apply good_bytes | apply good_mk); first | assumption | apply good_State_modMbx) | intro _ | (extract_lets +onlyGivenNames x; first | (apply good_cut (s := x); rotate_left; clear_value x; rotate_left; subst x) | (have hf := is_fun x; clear hf; subst x) | clear_value x | subst x) | split)

theorem good_State_mbxTake (s : State) (p : ℕ) (h_s : s.Good) :
    (State.mbxTake s p).Good := by
  unfold State.mbxTake
  repeat' (with_reducible first | assumption | apply good_State_modMbx | apply good_State_mbxAnswer | apply good_State_bump | apply good_ite | ((first | apply good_bytes | apply good_mk); first | assumption | apply good_State_modMbx | apply good_State_mbxAnswer | apply good_State_bump | apply good_ite) | intro _ | (extract_lets +onlyGivenNames x; first | (apply good_cut (s := x); rotate_left; clear_value x; rotate_left; subst x) | (have hf := is_fun x; clear hf; subst x) | clear_value x | subst x) | split)

theorem good_execMailboxTake (part : Fin 16) (s : State) (h_s : s.Good) :
    OkOut (execMailboxTake part s) := by
  unfold execMailboxTake
  repeat' (with_reducible first | assumption | apply good_State_mbxTake | apply okOut_next)

theorem good_State_mbxServe (s : State) (p : ℕ) (cmd : ℕ) (result : State → MbxMsg → List ℕ) (h_s : s.Good) :
    (State.mbxServe s p cmd result).Good := by
  unfold State.mbxServe
  repeat' (with_reducible first | assumption | apply good_State_mbxAnswer | apply good_ite | intro _ | (extract_lets +onlyGivenNames x; first | (apply good_cut (s := x); rotate_left; clear_value x; rotate_left; subst x) | clear_value x | subst x) | split)

theorem good_execMbxEcho (part : Fin 16) (s : State) (h_s : s.Good) :
    OkOut (execMbxEcho part s) := by
  unfold execMbxEcho
  repeat' (with_reducible first | assumption | apply good_State_mbxServe | apply okOut_next | intro _)

theorem good_execMbxInfo (part : Fin 16) (s : State) (h_s : s.Good) :
    OkOut (execMbxInfo part s) := by
  unfold execMbxInfo
  repeat' (with_reducible first | assumption | apply good_State_mbxServe | apply okOut_next | intro _)

theorem good_execMbxQuota (part : Fin 16) (s : State) (h_s : s.Good) :
    OkOut (execMbxQuota part s) := by
  unfold execMbxQuota
  repeat' (with_reducible first | assumption | apply good_State_mbxServe | apply okOut_next | intro _)

theorem good_execMbxKeystat (part : Fin 16) (s : State) (h_s : s.Good) :
    OkOut (execMbxKeystat part s) := by
  unfold execMbxKeystat
  repeat' (with_reducible first | assumption | apply good_State_mbxServe | apply okOut_next | intro _)

theorem good_execMbxHealth (part : Fin 16) (s : State) (h_s : s.Good) :
    OkOut (execMbxHealth part s) := by
  unfold execMbxHealth
  repeat' (with_reducible first | assumption | apply good_State_mbxServe | apply okOut_next | intro _)

theorem good_State_mbxWrite (s : State) (p : ℕ) (i : ℕ) (h_s : s.Good) :
    (State.mbxWrite s p i).Good := by
  unfold State.mbxWrite
  repeat' (with_reducible first | assumption | apply good_State_modMbx | apply good_State_askXlate | apply good_State_hostWrite | apply good_State_msix | apply good_ite | ((first | apply good_bytes | apply good_mk); first | assumption | apply good_State_modMbx | apply good_State_askXlate | apply good_State_hostWrite | apply good_State_msix | apply good_ite) | intro _ | (extract_lets +onlyGivenNames x; first | (apply good_cut (s := x); rotate_left; clear_value x; rotate_left; subst x) | (have hf := is_fun x; clear hf; subst x) | (have hf := is_cells x; clear hf; subst x) | clear_value x | subst x) | split)

theorem good_execMailboxReplyWrite (part : Fin 16) (index : ℕ) (s : State) (h_s : s.Good) :
    OkOut (execMailboxReplyWrite part index s) := by
  unfold execMailboxReplyWrite
  repeat' (with_reducible first | assumption | apply good_State_mbxWrite | apply okOut_next)

theorem good_execMbxReplyHead (fn : Fn) (head : ℕ) (s : State) (h_s : s.Good) :
    OkOut (execMbxReplyHead fn head s) := by
  unfold execMbxReplyHead
  repeat' (with_reducible first | assumption | apply good_State_onBar | apply good_State_setupWrite | apply good_State_modMbx | apply good_ite | apply okOut_next | apply okOut_ite | ((first | apply good_bytes | apply good_mk); first | assumption | apply good_State_onBar | apply good_State_setupWrite | apply good_State_modMbx | apply good_ite | apply okOut_next | apply okOut_ite) | intro _ | (extract_lets +onlyGivenNames x; first | (apply good_cut (s := x); rotate_left; clear_value x; rotate_left; subst x) | (have hf := is_fun x; clear hf; subst x) | clear_value x | subst x) | split)

end Sys2Proof.Machine
end

