-- ==== Sys2Proof/Laws/GoodScrub.lean ====
section
/-!
SUPPORT. GoodScrub.lean: every operation and meaning of Scrub.lean keeps the canonical form of memory.
-/

namespace Sys2Proof.Machine

set_option linter.all false

theorem good_State_modScrub (s : State) (k : ℕ) (g : Scrub → Scrub) (h_s : s.Good) :
    (State.modScrub s k g).Good := by
  unfold State.modScrub
  repeat' (with_reducible first | assumption | ((first | apply good_bytes | apply good_mk); first | assumption))

theorem good_State_lapEnd (s : State) (k : ℕ) (h_s : s.Good) :
    (State.lapEnd s k).Good := by
  unfold State.lapEnd
  repeat' (with_reducible first | assumption | apply good_State_modScrub | apply good_State_modDom | apply good_ite | ((first | apply good_bytes | apply good_mk); first | assumption | apply good_State_modScrub | apply good_State_modDom | apply good_ite) | intro _ | (extract_lets +onlyGivenNames x; first | (apply good_cut (s := x); rotate_left; clear_value x; rotate_left; subst x) | (have hf := is_fun x; clear hf; subst x) | clear_value x | subst x) | split)

theorem good_State_scrubFixed (s : State) (k : ℕ) (words : ℕ) (hard : Bool) (loc : ℕ) (h_s : s.Good) :
    (State.scrubFixed s k words hard loc).Good := by
  unfold State.scrubFixed
  repeat' (with_reducible first | assumption | apply good_State_modScrub | apply good_State_report | apply good_ite | ((first | apply good_bytes | apply good_mk); first | assumption | apply good_State_modScrub | apply good_State_report | apply good_ite) | intro _ | (extract_lets +onlyGivenNames x; first | (apply good_cut (s := x); rotate_left; clear_value x; rotate_left; subst x) | (have hf := is_fun x; clear hf; subst x) | (have hf := is_mem x; clear hf; subst x) | clear_value x | subst x) | split)

theorem good_State_scrubFound (s : State) (k : ℕ) (loc : ℕ) (f : ScrubFind) (h_s : s.Good) :
    (State.scrubFound s k loc f).Good := by
  unfold State.scrubFound
  repeat' (with_reducible first | assumption | apply good_State_scrubFixed | apply good_State_modScrub | apply good_State_poisonAt | apply good_State_report | apply good_ite | ((first | apply good_bytes | apply good_mk); first | assumption | apply good_State_scrubFixed | apply good_State_modScrub | apply good_State_poisonAt | apply good_State_report | apply good_ite) | intro _ | (extract_lets +onlyGivenNames x; first | (apply good_cut (s := x); rotate_left; clear_value x; rotate_left; subst x) | (have hf := is_fun x; clear hf; subst x) | clear_value x | subst x) | split)

theorem good_State_scrubVisit (s : State) (k : ℕ) (f : ScrubFind) (h_s : s.Good) :
    (State.scrubVisit s k f).Good := by
  unfold State.scrubVisit
  repeat' (with_reducible first | assumption | apply good_State_modScrub | apply good_State_scrubFound | apply good_State_lapEnd | apply good_ite | ((first | apply good_bytes | apply good_mk); first | assumption | apply good_State_modScrub | apply good_State_scrubFound | apply good_State_lapEnd | apply good_ite) | intro _ | (extract_lets +onlyGivenNames x; first | (apply good_cut (s := x); rotate_left; clear_value x; rotate_left; subst x) | (have hf := is_fun x; clear hf; subst x) | clear_value x | subst x) | split)

theorem good_execScrubVisit (scrubber : ℕ) (f : ScrubFind) (now : ℕ) (s : State) (h_s : s.Good) :
    OkOut (execScrubVisit scrubber f now s) := by
  unfold execScrubVisit
  repeat' (with_reducible first | assumption | apply good_State_settle | apply good_State_scrubVisit | apply good_State_tick | apply okOut_next)

theorem good_State_scrubWake (s : State) (k : ℕ) (h_s : s.Good) :
    (State.scrubWake s k).Good := by
  unfold State.scrubWake
  repeat' (with_reducible first | assumption | apply good_State_modScrub | apply good_State_regionWake | apply good_ite | ((first | apply good_bytes | apply good_mk); first | assumption | apply good_State_modScrub | apply good_State_regionWake | apply good_ite) | intro _ | split)

theorem good_State_scrubStarve (s : State) (k : ℕ) (h_s : s.Good) :
    (State.scrubStarve s k).Good := by
  unfold State.scrubStarve
  repeat' (with_reducible first | assumption | apply good_State_scrubWake | apply good_State_modScrub | apply good_ite | ((first | apply good_bytes | apply good_mk); first | assumption | apply good_State_scrubWake | apply good_State_modScrub | apply good_ite) | intro _ | (extract_lets +onlyGivenNames x; first | (apply good_cut (s := x); rotate_left; clear_value x; rotate_left; subst x) | (have hf := is_fun x; clear hf; subst x) | clear_value x | subst x) | split)

theorem good_execScrubStarve (scrubber : ℕ) (now : ℕ) (s : State) (h_s : s.Good) :
    OkOut (execScrubStarve scrubber now s) := by
  unfold execScrubStarve
  repeat' (with_reducible first | assumption | apply good_State_scrubStarve | apply good_State_tick | apply okOut_next)

end Sys2Proof.Machine
end

