-- ==== Sys2Proof/Laws/GoodPorts.lean ====
section
/-!
SUPPORT. GoodPorts.lean: every operation and meaning of Ports.lean keeps the canonical form of memory.
-/

namespace Sys2Proof.Machine

set_option linter.all false

theorem good_State_toSaiga (s : State) (q : ℕ) (k : ℕ) (h_s : s.Good) :
    (State.toSaiga s q k).Good := by
  unfold State.toSaiga
  repeat' (with_reducible first | assumption | apply good_State_modBp | apply good_State_modPort | apply good_ite | ((first | apply good_bytes | apply good_mk); first | assumption | apply good_State_modBp | apply good_State_modPort | apply good_ite) | intro _ | (extract_lets +onlyGivenNames x; first | (apply good_cut (s := x); rotate_left; clear_value x; rotate_left; subst x) | (have hf := is_fun x; clear hf; subst x) | clear_value x | subst x) | split)

theorem good_State_noMatch (s : State) (q : ℕ) (h_s : s.Good) :
    (State.noMatch s q).Good := by
  unfold State.noMatch
  repeat' (with_reducible first | assumption | apply good_State_modPort | ((first | apply good_bytes | apply good_mk); first | assumption | apply good_State_modPort) | intro _)

theorem good_State_steerTlt (s : State) (f : Frame) (h_s : s.Good) :
    (State.steerTlt s f).Good := by
  unfold State.steerTlt
  repeat' (with_reducible first | assumption | apply good_State_dropFrame | apply good_State_noMatch | apply good_State_modFn | apply good_ite | ((first | apply good_bytes | apply good_mk); first | assumption | apply good_State_dropFrame | apply good_State_noMatch | apply good_State_modFn | apply good_ite) | intro _ | (extract_lets +onlyGivenNames x; first | (apply good_cut (s := x); rotate_left; clear_value x; rotate_left; subst x) | (have hf := is_fun x; clear hf; subst x) | clear_value x | subst x) | split)

theorem good_State_deliverRaw (s : State) (fi : ℕ) (k : ℕ) (f : Frame) (h_s : s.Good) :
    (State.deliverRaw s fi k f).Good := by
  unfold State.deliverRaw
  repeat' (with_reducible first | assumption | apply good_State_dropFrame | apply good_State_parkOp | apply good_State_hostWrite | apply good_State_modRing | apply good_State_endOp | apply good_ite | ((first | apply good_bytes | apply good_mk); first | assumption | apply good_State_dropFrame | apply good_State_parkOp | apply good_State_hostWrite | apply good_State_modRing | apply good_State_endOp | apply good_ite) | intro _ | (extract_lets +onlyGivenNames x; first | (apply good_cut (s := x); rotate_left; clear_value x; rotate_left; subst x) | (have hf := is_fun x; clear hf; subst x) | (have hf := is_cells x; clear hf; subst x) | clear_value x | subst x) | split)

theorem good_State_fltAct (s : State) (w : ℕ × ℕ) (f : Frame) (h_s : s.Good) :
    (State.fltAct s w f).Good := by
  unfold State.fltAct
  repeat' (with_reducible first | assumption | apply good_State_steerTlt | apply good_State_deliverRaw | apply good_State_toSaiga | apply good_ite | intro _ | split)

theorem good_State_frameRoom (s : State) (f : Frame) (k : State → State) (h_s : s.Good) (h_k : ∀ t : State, t.Good → (k t).Good) :
    (State.frameRoom s f k).Good := by
  unfold State.frameRoom
  repeat' (with_reducible first | assumption | apply good_State_modPort | apply good_State_takeIn | apply h_k | apply good_ite | ((first | apply good_bytes | apply good_mk); first | assumption | apply good_State_modPort | apply good_State_takeIn | apply h_k | apply good_ite) | intro _ | (extract_lets +onlyGivenNames x; first | (apply good_cut (s := x); rotate_left; clear_value x; rotate_left; subst x) | (have hf := is_fun x; clear hf; subst x) | (have hf := is_cells x; clear hf; subst x) | clear_value x | subst x) | split)

theorem good_State_classify (s : State) (f : Frame) (h_s : s.Good) :
    (State.classify s f).Good := by
  unfold State.classify
  repeat' (with_reducible first | assumption | apply good_State_dropFrame | apply good_State_toSaiga | apply good_State_noMatch | apply good_State_fltAct | apply good_ite | ((first | apply good_bytes | apply good_mk); first | assumption | apply good_State_dropFrame | apply good_State_toSaiga | apply good_State_noMatch | apply good_State_fltAct | apply good_ite) | intro _ | (extract_lets +onlyGivenNames x; first | (apply good_cut (s := x); rotate_left; clear_value x; rotate_left; subst x) | (have hf := is_fun x; clear hf; subst x) | (have hf := is_cells x; clear hf; subst x) | clear_value x | subst x) | split)

theorem good_State_frameIn (s : State) (f : Frame) (h_s : s.Good) :
    (State.frameIn s f).Good := by
  unfold State.frameIn
  repeat' (with_reducible first | assumption | apply good_State_frameRoom | apply good_State_classify | apply good_ite | intro _ | split)

theorem good_execFrameReceive (f : Frame) (s : State) (h_s : s.Good) :
    OkOut (execFrameReceive f s) := by
  unfold execFrameReceive
  repeat' (with_reducible first | assumption | apply good_State_frameIn | apply okOut_next)

theorem good_State_fltCtl (s : State) (o : Origin) (width : ℕ) (v : ℕ) (h_s : s.Good) :
    (State.fltCtl s o width v).Good := by
  unfold State.fltCtl
  repeat' (with_reducible first | assumption | apply good_State_setupWrite | apply good_ite | ((first | apply good_bytes | apply good_mk); first | assumption | apply good_State_setupWrite | apply good_ite) | intro _ | (extract_lets +onlyGivenNames x; first | (apply good_cut (s := x); rotate_left; clear_value x; rotate_left; subst x) | (have hf := is_fun x; clear hf; subst x) | clear_value x | subst x) | split)

theorem good_execFltCommit (o : Origin) (index : ℕ) (s : State) (h_s : s.Good) :
    OkOut (execFltCommit o index s) := by
  unfold execFltCommit
  repeat' (with_reducible first | assumption | apply good_State_fltCtl | apply okOut_next)

theorem good_State_fltRetire (s : State) (i : ℕ) (h_s : s.Good) :
    (State.fltRetire s i).Good := by
  unfold State.fltRetire
  repeat' (with_reducible first | assumption | apply good_ite | ((first | apply good_bytes | apply good_mk); first | assumption | apply good_ite) | intro _ | (extract_lets +onlyGivenNames x; first | (apply good_cut (s := x); rotate_left; clear_value x; rotate_left; subst x) | clear_value x | subst x) | split)

theorem good_execFltRetire (index : ℕ) (s : State) (h_s : s.Good) :
    OkOut (execFltRetire index s) := by
  unfold execFltRetire
  repeat' (with_reducible first | assumption | apply good_State_fltRetire | apply okOut_next)

theorem good_State_pauseIn (s : State) (q : ℕ) (k : ℕ) (quanta : ℕ) (h_s : s.Good) :
    (State.pauseIn s q k quanta).Good := by
  unfold State.pauseIn
  repeat' (with_reducible first | assumption | apply good_State_modBp | apply good_ite | ((first | apply good_bytes | apply good_mk); first | assumption | apply good_State_modBp | apply good_ite) | intro _ | split)

theorem good_execPauseFrameReceive (port : Fin 8) (bp : ℕ) (quanta : ℕ) (now : ℕ) (s : State) (h_s : s.Good) :
    OkOut (execPauseFrameReceive port bp quanta now s) := by
  unfold execPauseFrameReceive
  repeat' (with_reducible first | assumption | apply good_State_pauseIn | apply good_State_tick | apply okOut_next)

theorem good_State_pfcIn (s : State) (q : ℕ) (k : ℕ) (enables : ℕ) (times : List ℕ) (h_s : s.Good) :
    (State.pfcIn s q k enables times).Good := by
  unfold State.pfcIn
  repeat' (with_reducible first | assumption | apply good_State_modBp | apply good_ite | apply good_foldl | ((first | apply good_bytes | apply good_mk); first | assumption | apply good_State_modBp | apply good_ite | apply good_foldl) | intro _ | split)

theorem good_execPfcFrameReceive (port : Fin 8) (bp : ℕ) (enables : ℕ) (times : List ℕ) (now : ℕ) (s : State) (h_s : s.Good) :
    OkOut (execPfcFrameReceive port bp enables times now s) := by
  unfold execPfcFrameReceive
  repeat' (with_reducible first | assumption | apply good_State_pfcIn | apply good_State_tick | apply okOut_next)

theorem good_State_pauseOver (s : State) (q : ℕ) (k : ℕ) (prio : ℕ) (h_s : s.Good) :
    (State.pauseOver s q k prio).Good := by
  unfold State.pauseOver
  repeat' (with_reducible first | assumption | apply good_State_modBp | apply good_ite | ((first | apply good_bytes | apply good_mk); first | assumption | apply good_State_modBp | apply good_ite) | intro _ | split)

theorem good_execPauseTimerExpiry (port : Fin 8) (bp : ℕ) (prio : ℕ) (now : ℕ) (s : State) (h_s : s.Good) :
    OkOut (execPauseTimerExpiry port bp prio now s) := by
  unfold execPauseTimerExpiry
  repeat' (with_reducible first | assumption | apply good_State_pauseOver | apply good_State_tick | apply okOut_next)

theorem good_State_pfcOut (s : State) (q : ℕ) (k : ℕ) (h_s : s.Good) :
    (State.pfcOut s q k).Good := by
  unfold State.pfcOut
  repeat' (with_reducible first | assumption | apply good_State_modBp | apply good_State_emit | apply good_ite | apply good_foldl | ((first | apply good_bytes | apply good_mk); first | assumption | apply good_State_modBp | apply good_State_emit | apply good_ite | apply good_foldl) | intro _ | (extract_lets +onlyGivenNames x; first | (apply good_cut (s := x); rotate_left; clear_value x; rotate_left; subst x) | (have hf := is_fun x; clear hf; subst x) | clear_value x | subst x) | split)

theorem good_execPfcRepeatTimer (port : Fin 8) (bp : ℕ) (now : ℕ) (s : State) (h_s : s.Good) :
    OkOut (execPfcRepeatTimer port bp now s) := by
  unfold execPfcRepeatTimer
  repeat' (with_reducible first | assumption | apply good_State_pfcOut | apply good_State_tick | apply okOut_next)

theorem good_State_bpDegrade (s : State) (q : ℕ) (k : ℕ) (h_s : s.Good) :
    (State.bpDegrade s q k).Good := by
  unfold State.bpDegrade
  repeat' (with_reducible first | assumption | apply good_State_noteHealth | apply good_State_report | apply good_State_modBp | apply good_State_portLoses | ((first | apply good_bytes | apply good_mk); first | assumption | apply good_State_noteHealth | apply good_State_report | apply good_State_modBp | apply good_State_portLoses) | intro _)

theorem good_State_overload (s : State) (q : ℕ) (k : ℕ) (total : ℕ) (corr : ℕ) (uncorr : ℕ) (h_s : s.Good) :
    (State.overload s q k total corr uncorr).Good := by
  unfold State.overload
  repeat' (with_reducible first | assumption | apply good_State_modBp | apply good_State_bpDegrade | apply good_State_noteHealth | apply good_ite | ((first | apply good_bytes | apply good_mk); first | assumption | apply good_State_modBp | apply good_State_bpDegrade | apply good_State_noteHealth | apply good_ite) | intro _ | (extract_lets +onlyGivenNames x; first | (apply good_cut (s := x); rotate_left; clear_value x; rotate_left; subst x) | (have hf := is_fun x; clear hf; subst x) | clear_value x | subst x) | split)

theorem good_execOverloadInterval (port : Fin 8) (bp : ℕ) (total : ℕ) (corr : ℕ) (uncorr : ℕ) (now : ℕ) (s : State) (h_s : s.Good) :
    OkOut (execOverloadInterval port bp total corr uncorr now s) := by
  unfold execOverloadInterval
  repeat' (with_reducible first | assumption | apply good_State_overload | apply good_State_tick | apply okOut_next)

theorem good_State_shedRequest (s : State) (q : ℕ) (k : ℕ) (lanes : ℕ) (h_s : s.Good) :
    (State.shedRequest s q k lanes).Good := by
  unfold State.shedRequest
  repeat' (with_reducible first | assumption | apply good_State_sayShed | apply good_State_modBp | ((first | apply good_bytes | apply good_mk); first | assumption | apply good_State_sayShed | apply good_State_modBp) | intro _ | (extract_lets +onlyGivenNames x; first | (apply good_cut (s := x); rotate_left; clear_value x; rotate_left; subst x) | (have hf := is_fun x; clear hf; subst x) | clear_value x | subst x))

theorem good_State_sendMark (s : State) (q : ℕ) (k : ℕ) (lanes : ℕ) (h_s : s.Good) :
    (State.sendMark s q k lanes).Good := by
  unfold State.sendMark
  repeat' (with_reducible first | assumption | apply good_State_sayShed | apply good_State_modBp | ((first | apply good_bytes | apply good_mk); first | assumption | apply good_State_sayShed | apply good_State_modBp) | intro _)

theorem good_State_restripe (s : State) (q : ℕ) (k : ℕ) (h_s : s.Good) :
    (State.restripe s q k).Good := by
  unfold State.restripe
  repeat' (with_reducible first | assumption | apply good_State_modBp | apply good_ite | ((first | apply good_bytes | apply good_mk); first | assumption | apply good_State_modBp | apply good_ite) | intro _ | (extract_lets +onlyGivenNames x; first | (apply good_cut (s := x); rotate_left; clear_value x; rotate_left; subst x) | (have hf := is_fun x; clear hf; subst x) | clear_value x | subst x) | split)

theorem good_State_shedStart (s : State) (q : ℕ) (k : ℕ) (seq : ℕ) (lanes : ℕ) (h_s : s.Good) :
    (State.shedStart s q k seq lanes).Good := by
  unfold State.shedStart
  repeat' (with_reducible first | assumption | apply good_State_modBp | apply good_State_sendMark | apply good_ite | ((first | apply good_bytes | apply good_mk); first | assumption | apply good_State_modBp | apply good_State_sendMark | apply good_ite) | intro _ | (extract_lets +onlyGivenNames x; first | (apply good_cut (s := x); rotate_left; clear_value x; rotate_left; subst x) | (have hf := is_fun x; clear hf; subst x) | clear_value x | subst x) | split)

theorem good_execShedCapReceive (port : Fin 8) (bp : ℕ) (lanes : ℕ) (s : State) (h_s : s.Good) :
    OkOut (execShedCapReceive port bp lanes s) := by
  unfold execShedCapReceive
  repeat' (with_reducible first | assumption | apply good_State_modBp | apply good_ite | apply okOut_next | apply okOut_ite | ((first | apply good_bytes | apply good_mk); first | assumption | apply good_State_modBp | apply good_ite | apply okOut_next | apply okOut_ite) | intro _ | (extract_lets +onlyGivenNames x; first | (apply good_cut (s := x); rotate_left; clear_value x; rotate_left; subst x) | (have hf := is_fun x; clear hf; subst x) | clear_value x | subst x) | split)

theorem good_State_shedSample (s : State) (q : ℕ) (k : ℕ) (rx : ℕ) (h_s : s.Good) :
    (State.shedSample s q k rx).Good := by
  unfold State.shedSample
  repeat' (with_reducible first | assumption | apply good_State_modBp | apply good_State_shedRequest | apply good_ite | ((first | apply good_bytes | apply good_mk); first | assumption | apply good_State_modBp | apply good_State_shedRequest | apply good_ite) | intro _ | (extract_lets +onlyGivenNames x; first | (apply good_cut (s := x); rotate_left; clear_value x; rotate_left; subst x) | (have hf := is_fun x; clear hf; subst x) | clear_value x | subst x) | split)

theorem good_execShedSample (port : Fin 8) (bp : ℕ) (rx : ℕ) (now : ℕ) (s : State) (h_s : s.Good) :
    OkOut (execShedSample port bp rx now s) := by
  unfold execShedSample
  repeat' (with_reducible first | assumption | apply good_State_shedSample | apply good_State_tick | apply okOut_next)

theorem good_State_shedAnswer (s : State) (q : ℕ) (k : ℕ) (seq : ℕ) (lanes : ℕ) (yes : Bool) (h_s : s.Good) :
    (State.shedAnswer s q k seq lanes yes).Good := by
  unfold State.shedAnswer
  repeat' (with_reducible first | assumption | apply good_State_shedStart | apply good_State_sayShed | apply good_ite | intro _ | split)

theorem good_State_shedReqIn (s : State) (q : ℕ) (k : ℕ) (seq : ℕ) (lanes : ℕ) (peerMac : ℕ) (h_s : s.Good) :
    (State.shedReqIn s q k seq lanes peerMac).Good := by
  unfold State.shedReqIn
  repeat' (with_reducible first | assumption | apply good_State_shedAnswer | apply good_ite | intro _ | (extract_lets +onlyGivenNames x; first | (apply good_cut (s := x); rotate_left; clear_value x; rotate_left; subst x) | clear_value x | subst x) | split)

theorem good_execShedReqReceive (port : Fin 8) (bp : ℕ) (seq : ℕ) (lanes : ℕ) (peerMac : ℕ) (s : State) (h_s : s.Good) :
    OkOut (execShedReqReceive port bp seq lanes peerMac s) := by
  unfold execShedReqReceive
  repeat' (with_reducible first | assumption | apply good_State_shedReqIn | apply okOut_next)

theorem good_execShedAckReceive (port : Fin 8) (bp : ℕ) (seq : ℕ) (s : State) (h_s : s.Good) :
    OkOut (execShedAckReceive port bp seq s) := by
  unfold execShedAckReceive
  repeat' (with_reducible first | assumption | apply good_State_shedStart | apply good_ite | apply okOut_next | apply okOut_ite | intro _ | split)

theorem good_execShedNakReceive (port : Fin 8) (bp : ℕ) (seq : ℕ) (s : State) (h_s : s.Good) :
    OkOut (execShedNakReceive port bp seq s) := by
  unfold execShedNakReceive
  repeat' (with_reducible first | assumption | apply good_State_modBp | apply good_ite | apply okOut_next | apply okOut_ite | ((first | apply good_bytes | apply good_mk); first | assumption | apply good_State_modBp | apply good_ite | apply okOut_next | apply okOut_ite) | intro _ | split)

theorem good_State_shedTimeout (s : State) (q : ℕ) (k : ℕ) (h_s : s.Good) :
    (State.shedTimeout s q k).Good := by
  unfold State.shedTimeout
  repeat' (with_reducible first | assumption | apply good_State_modBp | apply good_ite | ((first | apply good_bytes | apply good_mk); first | assumption | apply good_State_modBp | apply good_ite) | intro _ | split)

theorem good_execShedReqTimeout (port : Fin 8) (bp : ℕ) (now : ℕ) (s : State) (h_s : s.Good) :
    OkOut (execShedReqTimeout port bp now s) := by
  unfold execShedReqTimeout
  repeat' (with_reducible first | assumption | apply good_State_shedTimeout | apply good_State_tick | apply okOut_next)

theorem good_State_lanesTrained (s : State) (q : ℕ) (k : ℕ) (h_s : s.Good) :
    (State.lanesTrained s q k).Good := by
  unfold State.lanesTrained
  repeat' (with_reducible first | assumption | apply good_State_restripe | apply good_State_sendMark | apply good_State_modBp | apply good_ite | ((first | apply good_bytes | apply good_mk); first | assumption | apply good_State_restripe | apply good_State_sendMark | apply good_State_modBp | apply good_ite) | intro _ | (extract_lets +onlyGivenNames x; first | (apply good_cut (s := x); rotate_left; clear_value x; rotate_left; subst x) | (have hf := is_fun x; clear hf; subst x) | clear_value x | subst x) | split)

theorem good_execShedLanesTrained (port : Fin 8) (bp : ℕ) (s : State) (h_s : s.Good) :
    OkOut (execShedLanesTrained port bp s) := by
  unfold execShedLanesTrained
  repeat' (with_reducible first | assumption | apply good_State_lanesTrained | apply okOut_next)

theorem good_execShedMarkReceive (port : Fin 8) (bp : ℕ) (s : State) (h_s : s.Good) :
    OkOut (execShedMarkReceive port bp s) := by
  unfold execShedMarkReceive
  repeat' (with_reducible first | assumption | apply good_State_restripe | apply good_State_modBp | apply good_ite | apply okOut_next | apply okOut_ite | ((first | apply good_bytes | apply good_mk); first | assumption | apply good_State_restripe | apply good_State_modBp | apply good_ite | apply okOut_next | apply okOut_ite) | intro _ | split)

theorem good_execShedMarkTimeout (port : Fin 8) (bp : ℕ) (now : ℕ) (s : State) (h_s : s.Good) :
    OkOut (execShedMarkTimeout port bp now s) := by
  unfold execShedMarkTimeout
  repeat' (with_reducible first | assumption | apply good_State_tick | apply good_State_bpDown | apply good_ite | apply okOut_next | apply okOut_ite | intro _ | (extract_lets +onlyGivenNames x; first | (apply good_cut (s := x); rotate_left; clear_value x; rotate_left; subst x) | clear_value x | subst x) | split)

theorem good_State_portAllDown (s : State) (q : ℕ) (h_s : s.Good) :
    (State.portAllDown s q).Good := by
  unfold State.portAllDown
  repeat' (with_reducible first | assumption | apply good_State_bpDown | apply good_foldl | intro _)

theorem good_execModuleInsert (port : Fin 8) (power : ℕ) (now : ℕ) (s : State) (h_s : s.Good) :
    OkOut (execModuleInsert port power now s) := by
  unfold execModuleInsert
  repeat' (with_reducible first | assumption | apply good_State_tick | apply good_State_noteHealth | apply good_State_modCage | apply good_ite | apply okOut_next | apply okOut_ite | ((first | apply good_bytes | apply good_mk); first | assumption | apply good_State_tick | apply good_State_noteHealth | apply good_State_modCage | apply good_ite | apply okOut_next | apply okOut_ite) | intro _ | (extract_lets +onlyGivenNames x; first | (apply good_cut (s := x); rotate_left; clear_value x; rotate_left; subst x) | (have hf := is_fun x; clear hf; subst x) | clear_value x | subst x) | split)

theorem good_execModuleRemove (port : Fin 8) (s : State) (h_s : s.Good) :
    OkOut (execModuleRemove port s) := by
  unfold execModuleRemove
  repeat' (with_reducible first | assumption | apply good_State_noteHealth | apply good_State_modCage | apply good_State_portAllDown | apply good_ite | apply okOut_next | apply okOut_ite | ((first | apply good_bytes | apply good_mk); first | assumption | apply good_State_noteHealth | apply good_State_modCage | apply good_State_portAllDown | apply good_ite | apply okOut_next | apply okOut_ite) | intro _ | (extract_lets +onlyGivenNames x; first | (apply good_cut (s := x); rotate_left; clear_value x; rotate_left; subst x) | (have hf := is_fun x; clear hf; subst x) | clear_value x | subst x) | split)

theorem good_execModuleIntl (port : Fin 8) (flags : ℕ) (s : State) (h_s : s.Good) :
    OkOut (execModuleIntl port flags s) := by
  unfold execModuleIntl
  repeat' (with_reducible first | assumption | apply good_State_modBp | apply good_ite | apply good_foldl | apply okOut_next | apply okOut_ite | ((first | apply good_bytes | apply good_mk); first | assumption | apply good_State_modBp | apply good_ite | apply good_foldl | apply okOut_next | apply okOut_ite) | intro _ | (extract_lets +onlyGivenNames x; first | (apply good_cut (s := x); rotate_left; clear_value x; rotate_left; subst x) | (have hf := is_fun x; clear hf; subst x) | clear_value x | subst x) | split)

theorem good_State_stopWrite (s : State) (o : Origin) (off : ℕ) (width : ℕ) (v : ℕ) (h_s : s.Good) :
    (State.stopWrite s o off width v).Good := by
  unfold State.stopWrite
  repeat' (with_reducible first | assumption | apply good_State_setupWrite | apply good_ite | apply good_foldl | exact good_id (by assumption) | apply good_write | apply good_touchWrite | ((first | apply good_bytes | apply good_mk); first | assumption | apply good_State_setupWrite | apply good_ite | apply good_foldl | exact good_id (by assumption) | apply good_write | apply good_touchWrite) | intro _ | (extract_lets +onlyGivenNames x; first | (apply good_cut (s := x); rotate_left; clear_value x; rotate_left; subst x) | (have hf := is_fun x; clear hf; subst x) | (have hf := is_mem x; clear hf; subst x) | (have hf := is_cells x; clear hf; subst x) | clear_value x | subst x) | split)

theorem good_State_portCfgWrite (s : State) (o : Origin) (q : ℕ) (width : ℕ) (v : ℕ) (h_s : s.Good) :
    (State.portCfgWrite s o q width v).Good := by
  unfold State.portCfgWrite
  repeat' (with_reducible first | assumption | apply good_State_stopWrite | apply good_State_setupWrite | apply good_State_setReg | apply good_State_modPort | apply good_State_portAllDown | apply good_ite | ((first | apply good_bytes | apply good_mk); first | assumption | apply good_State_stopWrite | apply good_State_setupWrite | apply good_State_setReg | apply good_State_modPort | apply good_State_portAllDown | apply good_ite) | intro _ | (extract_lets +onlyGivenNames x; first | (apply good_cut (s := x); rotate_left; clear_value x; rotate_left; subst x) | (have hf := is_fun x; clear hf; subst x) | clear_value x | subst x) | split)

theorem good_execPortModeWrite (o : Origin) (port : Fin 8) (value : ℕ) (s : State) (h_s : s.Good) :
    OkOut (execPortModeWrite o port value s) := by
  unfold execPortModeWrite
  repeat' (with_reducible first | assumption | apply good_State_portCfgWrite | apply okOut_next)

theorem good_State_fireTimes (s : State) (h_s : s.Good) :
    (State.fireTimes s).Good := by
  unfold State.fireTimes
  repeat' (with_reducible first | assumption | apply good_State_fire | apply good_foldl | intro _)

theorem good_State_stepTime (s : State) (o : Origin) (d : ℤ) (h_s : s.Good) :
    (State.stepTime s o d).Good := by
  unfold State.stepTime
  repeat' (with_reducible first | assumption | apply good_State_jMust | apply good_State_fireTimes | apply good_ite | ((first | apply good_bytes | apply good_mk); first | assumption | apply good_State_jMust | apply good_State_fireTimes | apply good_ite) | intro _ | (extract_lets +onlyGivenNames x; first | (apply good_cut (s := x); rotate_left; clear_value x; rotate_left; subst x) | (have hf := is_fun x; clear hf; subst x) | clear_value x | subst x) | split)

theorem good_State_correct (s : State) (o : Origin) (d : ℤ) (h_s : s.Good) :
    (State.correct s o d).Good := by
  unfold State.correct
  repeat' (with_reducible first | assumption | apply good_State_stepTime | apply good_ite | ((first | apply good_bytes | apply good_mk); first | assumption | apply good_State_stepTime | apply good_ite) | intro _ | split)

theorem good_State_timeAdj (s : State) (o : Origin) (d : ℤ) (h_s : s.Good) :
    (State.timeAdj s o d).Good := by
  unfold State.timeAdj
  repeat' (with_reducible first | assumption | apply good_State_setupWrite | apply good_State_correct | intro _)

theorem good_execTimeAdj (o : Origin) (delta : ℤ) (s : State) (h_s : s.Good) :
    OkOut (execTimeAdj o delta s) := by
  unfold execTimeAdj
  repeat' (with_reducible first | assumption | apply good_State_settle | apply good_State_timeAdj | apply okOut_next)

theorem good_State_ptpSync (s : State) (q : ℕ) (k : ℕ) (domain : ℕ) (offset : ℤ) (h_s : s.Good) :
    (State.ptpSync s q k domain offset).Good := by
  unfold State.ptpSync
  repeat' (with_reducible first | assumption | apply good_State_correct | apply good_ite | ((first | apply good_bytes | apply good_mk); first | assumption | apply good_State_correct | apply good_ite) | intro _ | (extract_lets +onlyGivenNames x; first | (apply good_cut (s := x); rotate_left; clear_value x; rotate_left; subst x) | clear_value x | subst x) | split)

theorem good_execPtpSyncReceive (port : Fin 8) (bp : ℕ) (domain : ℕ) (offset : ℤ) (now : ℕ) (s : State) (h_s : s.Good) :
    OkOut (execPtpSyncReceive port bp domain offset now s) := by
  unfold execPtpSyncReceive
  repeat' (with_reducible first | assumption | apply good_State_settle | apply good_State_ptpSync | apply good_State_tick | apply okOut_next)

theorem good_State_readTime (s : State) (o : Origin) (h_s : s.Good) :
    (State.readTime s o).Good := by
  unfold State.readTime
  repeat' (with_reducible first | assumption | apply good_State_emit | ((first | apply good_bytes | apply good_mk); first | assumption | apply good_State_emit))

theorem good_execTimeNowRead (o : Origin) (s : State) (h_s : s.Good) :
    OkOut (execTimeNowRead o s) := by
  unfold execTimeNowRead
  repeat' (with_reducible first | assumption | apply good_State_readTime | apply okOut_next)

theorem good_execSlewAbsorbed (now : ℕ) (s : State) (h_s : s.Good) :
    OkOut (execSlewAbsorbed now s) := by
  unfold execSlewAbsorbed
  repeat' (with_reducible first | assumption | apply good_State_tick | apply okOut_next)

theorem good_effFrameTx (ring : ℕ) (port : ℕ) (bp : ℕ) (space : Bool) (addr : ℕ) (len : ℕ) (f : ℕ) (id : ℕ) (s : State) (h_s : s.Good) :
    (effFrameTx ring port bp space addr len f id s).Good := by
  unfold effFrameTx
  repeat' (with_reducible first | assumption | apply good_State_checked | apply good_State_endOp | apply good_State_parkOp | apply good_State_locUse | apply good_State_modPort | apply good_ite | exact good_id (by assumption) | ((first | apply good_bytes | apply good_mk); first | assumption | apply good_State_checked | apply good_State_endOp | apply good_State_parkOp | apply good_State_locUse | apply good_State_modPort | apply good_ite | exact good_id (by assumption)) | intro _ | (extract_lets +onlyGivenNames x; first | (apply good_cut (s := x); rotate_left; clear_value x; rotate_left; subst x) | (have hf := is_fun x; clear hf; subst x) | (have hf := is_cells x; clear hf; subst x) | clear_value x | subst x) | split)

theorem good_execFrameTx (e : Entry) (port : ℕ) (bp : ℕ) (space : Bool) (addr : ℕ) (len : ℕ) (s : State) (h_s : s.Good) :
    OkOut (execFrameTx e port bp space addr len s) := by
  unfold execFrameTx
  repeat' (with_reducible first | assumption | apply good_State_settle | apply good_State_startEntry | apply good_effFrameTx | apply okOut_next)

theorem good_effFrameRxbuf (ring : ℕ) (addr : ℕ) (len : ℕ) (f : ℕ) (id : ℕ) (s : State) (h_s : s.Good) :
    (effFrameRxbuf ring addr len f id s).Good := by
  unfold effFrameRxbuf
  repeat' (with_reducible first | assumption | apply good_State_checked | apply good_State_modRing | exact good_id (by assumption) | ((first | apply good_bytes | apply good_mk); first | assumption | apply good_State_checked | apply good_State_modRing | exact good_id (by assumption)) | intro _)

theorem good_execFrameRxbuf (e : Entry) (addr : ℕ) (len : ℕ) (s : State) (h_s : s.Good) :
    OkOut (execFrameRxbuf e addr len s) := by
  unfold execFrameRxbuf
  repeat' (with_reducible first | assumption | apply good_State_settle | apply good_State_startEntry | apply good_effFrameRxbuf | apply okOut_next)

end Sys2Proof.Machine
end

