-- ==== Sys2Proof/Laws/GoodPower.lean ====
section
/-!
SUPPORT. GoodPower.lean: every operation and meaning of Power.lean keeps the canonical form of memory.
-/

namespace Sys2Proof.Machine

set_option linter.all false

theorem good_State_restart (s : State) (sleep : Bool) (h_s : s.Good) :
    (State.restart s sleep).Good := by
  unfold State.restart
  repeat' (with_reducible first | assumption | apply good_ite | apply good_filter | ((first | apply good_bytes | apply good_mk); first | assumption | apply good_ite | apply good_filter) | intro _ | (extract_lets +onlyGivenNames x; first | (apply good_cut (s := x); rotate_left; clear_value x; rotate_left; subst x) | (have hf := is_fun x; clear hf; subst x) | (have hf := is_mem x; clear hf; subst x) | (have hf := is_cells x; clear hf; subst x) | clear_value x | subst x) | split)

theorem good_State_rampStep (s : State) (n : ℕ) (h_s : s.Good) :
    (State.rampStep s n).Good := by
  unfold State.rampStep
  repeat' (with_reducible first | assumption | apply good_State_modDom | apply good_ite | ((first | apply good_bytes | apply good_mk); first | assumption | apply good_State_modDom | apply good_ite) | intro _ | split)

theorem good_execClkRampStep (domain : ℕ) (s : State) (h_s : s.Good) :
    OkOut (execClkRampStep domain s) := by
  unfold execClkRampStep
  repeat' (with_reducible first | assumption | apply good_State_rampStep | apply okOut_next)

theorem good_State_railSettled (s : State) (n : ℕ) (mv : ℕ) (h_s : s.Good) :
    (State.railSettled s n mv).Good := by
  unfold State.railSettled
  repeat' (with_reducible first | assumption | apply good_State_modDom | apply good_ite | ((first | apply good_bytes | apply good_mk); first | assumption | apply good_State_modDom | apply good_ite) | intro _ | (extract_lets +onlyGivenNames x; first | (apply good_cut (s := x); rotate_left; clear_value x; rotate_left; subst x) | (have hf := is_fun x; clear hf; subst x) | clear_value x | subst x) | split)

theorem good_execRailSettled (region : Fin 4) (mv : ℕ) (s : State) (h_s : s.Good) :
    OkOut (execRailSettled region mv s) := by
  unfold execRailSettled
  repeat' (with_reducible first | assumption | apply good_State_railSettled | apply okOut_next)

theorem good_State_refStable (s : State) (restarts : ℕ) (h_s : s.Good) :
    (State.refStable s restarts).Good := by
  unfold State.refStable
  repeat' (with_reducible first | assumption | apply good_State_setLock | apply good_State_modDom | apply good_ite | apply good_foldl | ((first | apply good_bytes | apply good_mk); first | assumption | apply good_State_setLock | apply good_State_modDom | apply good_ite | apply good_foldl) | intro _ | (extract_lets +onlyGivenNames x; first | (apply good_cut (s := x); rotate_left; clear_value x; rotate_left; subst x) | (have hf := is_fun x; clear hf; subst x) | clear_value x | subst x) | split)

theorem good_execRefStable (restarts : ℕ) (s : State) (h_s : s.Good) :
    OkOut (execRefStable restarts s) := by
  unfold execRefStable
  repeat' (with_reducible first | assumption | apply good_State_refStable | apply okOut_next)

theorem good_State_refLoss (s : State) (h_s : s.Good) :
    (State.refLoss s).Good := by
  unfold State.refLoss
  repeat' (with_reducible first | assumption | apply good_State_atChip | apply good_ite | ((first | apply good_bytes | apply good_mk); first | assumption | apply good_State_atChip | apply good_ite) | intro _ | (extract_lets +onlyGivenNames x; first | (apply good_cut (s := x); rotate_left; clear_value x; rotate_left; subst x) | clear_value x | subst x) | split)

theorem good_execRefLoss (s : State) (h_s : s.Good) :
    OkOut (execRefLoss s) := by
  unfold execRefLoss
  repeat' (with_reducible first | assumption | apply good_State_settle | apply good_State_refLoss | apply okOut_next)

theorem good_State_sourceSwitch (s : State) (d : ℕ) (h_s : s.Good) :
    (State.sourceSwitch s d).Good := by
  unfold State.sourceSwitch
  repeat' (with_reducible first | assumption | apply good_ite | ((first | apply good_bytes | apply good_mk); first | assumption | apply good_ite) | intro _ | split)

theorem good_execClkSourceSwitch (domain : ℕ) (s : State) (h_s : s.Good) :
    OkOut (execClkSourceSwitch domain s) := by
  unfold execClkSourceSwitch
  repeat' (with_reducible first | assumption | apply good_State_sourceSwitch | apply okOut_next)

theorem good_State_pllLoss (s : State) (n : ℕ) (h_s : s.Good) :
    (State.pllLoss s n).Good := by
  unfold State.pllLoss
  repeat' (with_reducible first | assumption | apply good_State_report | apply good_State_setLock | apply good_ite | ((first | apply good_bytes | apply good_mk); first | assumption | apply good_State_report | apply good_State_setLock | apply good_ite) | intro _ | (extract_lets +onlyGivenNames x; first | (apply good_cut (s := x); rotate_left; clear_value x; rotate_left; subst x) | clear_value x | subst x) | split)

theorem good_execPllLockLoss (pll : ℕ) (s : State) (h_s : s.Good) :
    OkOut (execPllLockLoss pll s) := by
  unfold execPllLockLoss
  repeat' (with_reducible first | assumption | apply good_State_pllLoss | apply okOut_next)

theorem good_State_domSel (s : State) (o : Origin) (width : ℕ) (v : ℕ) (h_s : s.Good) :
    (State.domSel s o width v).Good := by
  unfold State.domSel
  repeat' (with_reducible first | assumption | apply good_State_setupWrite | apply good_foldl | apply good_filter | ((first | apply good_bytes | apply good_mk); first | assumption | apply good_State_setupWrite | apply good_foldl | apply good_filter) | intro _ | (extract_lets +onlyGivenNames x; first | (apply good_cut (s := x); rotate_left; clear_value x; rotate_left; subst x) | (have hf := is_fun x; clear hf; subst x) | clear_value x | subst x))

theorem good_execClkDomSel (o : Origin) (value : ℕ) (s : State) (h_s : s.Good) :
    OkOut (execClkDomSel o value s) := by
  unfold execClkDomSel
  repeat' (with_reducible first | assumption | apply good_State_domSel | apply okOut_next)

theorem good_State_regionIdle (s : State) (n : ℕ) (h_s : s.Good) :
    (State.regionIdle s n).Good := by
  unfold State.regionIdle
  repeat' (with_reducible first | assumption | apply good_State_modDom | apply good_ite | ((first | apply good_bytes | apply good_mk); first | assumption | apply good_State_modDom | apply good_ite) | intro _ | (extract_lets +onlyGivenNames x; first | (apply good_cut (s := x); rotate_left; clear_value x; rotate_left; subst x) | (have hf := is_fun x; clear hf; subst x) | clear_value x | subst x) | split)

theorem good_execRegionIdle (region : Fin 4) (now : ℕ) (s : State) (h_s : s.Good) :
    OkOut (execRegionIdle region now s) := by
  unfold execRegionIdle
  repeat' (with_reducible first | assumption | apply good_State_regionIdle | apply good_State_tick | apply okOut_next)

theorem good_State_regionIdleWake (s : State) (n : ℕ) (h_s : s.Good) :
    (State.regionIdleWake s n).Good := by
  unfold State.regionIdleWake
  repeat' (with_reducible first | assumption | apply good_State_modDom | apply good_ite | ((first | apply good_bytes | apply good_mk); first | assumption | apply good_State_modDom | apply good_ite) | intro _ | split)

theorem good_execRegionIdleWake (region : Fin 4) (s : State) (h_s : s.Good) :
    OkOut (execRegionIdleWake region s) := by
  unfold execRegionIdleWake
  repeat' (with_reducible first | assumption | apply good_State_regionIdleWake | apply okOut_next)

theorem good_State_regionDoze (s : State) (n : ℕ) (h_s : s.Good) :
    (State.regionDoze s n).Good := by
  unfold State.regionDoze
  repeat' (with_reducible first | assumption | apply good_State_setLock | apply good_State_modDom | apply good_ite | ((first | apply good_bytes | apply good_mk); first | assumption | apply good_State_setLock | apply good_State_modDom | apply good_ite) | intro _ | (extract_lets +onlyGivenNames x; first | (apply good_cut (s := x); rotate_left; clear_value x; rotate_left; subst x) | (have hf := is_fun x; clear hf; subst x) | clear_value x | subst x) | split)

theorem good_execRegionDoze (region : Fin 4) (now : ℕ) (s : State) (h_s : s.Good) :
    OkOut (execRegionDoze region now s) := by
  unfold execRegionDoze
  repeat' (with_reducible first | assumption | apply good_State_regionDoze | apply good_State_tick | apply okOut_next)

theorem good_execRegionWake (region : Fin 4) (s : State) (h_s : s.Good) :
    OkOut (execRegionWake region s) := by
  unfold execRegionWake
  repeat' (with_reducible first | assumption | apply good_State_regionWake | apply okOut_next)

theorem good_execPowerSwitchClosed (region : Fin 4) (s : State) (h_s : s.Good) :
    OkOut (execPowerSwitchClosed region s) := by
  unfold execPowerSwitchClosed
  repeat' (with_reducible first | assumption | apply good_State_modDom | apply good_ite | apply okOut_next | apply okOut_ite | ((first | apply good_bytes | apply good_mk); first | assumption | apply good_State_modDom | apply good_ite | apply okOut_next | apply okOut_ite) | intro _ | split)

theorem good_State_pllLocked (s : State) (n : ℕ) (h_s : s.Good) :
    (State.pllLocked s n).Good := by
  unfold State.pllLocked
  repeat' (with_reducible first | assumption | apply good_State_setLock | apply good_State_modDom | apply good_ite | ((first | apply good_bytes | apply good_mk); first | assumption | apply good_State_setLock | apply good_State_modDom | apply good_ite) | intro _ | (extract_lets +onlyGivenNames x; first | (apply good_cut (s := x); rotate_left; clear_value x; rotate_left; subst x) | (have hf := is_fun x; clear hf; subst x) | clear_value x | subst x) | split)

theorem good_execPllLocked (region : Fin 4) (s : State) (h_s : s.Good) :
    OkOut (execPllLocked region s) := by
  unfold execPllLocked
  repeat' (with_reducible first | assumption | apply good_State_pllLocked | apply okOut_next)

theorem good_State_sleepWrite (s : State) (o : Origin) (width : ℕ) (v : ℕ) (h_s : s.Good) :
    (State.sleepWrite s o width v).Good := by
  unfold State.sleepWrite
  repeat' (with_reducible first | assumption | apply good_State_setupWrite | ((first | apply good_bytes | apply good_mk); first | assumption | apply good_State_setupWrite) | intro _)

theorem good_execPwrSleep (o : Origin) (s : State) (h_s : s.Good) :
    OkOut (execPwrSleep o s) := by
  unfold execPwrSleep
  repeat' (with_reducible first | assumption | apply good_State_sleepWrite | apply okOut_next)

theorem good_State_enterSleep (s : State) (h_s : s.Good) :
    (State.enterSleep s).Good := by
  unfold State.enterSleep
  repeat' (with_reducible first | assumption | apply good_State_restart | ((first | apply good_bytes | apply good_mk); first | assumption | apply good_State_restart) | (extract_lets +onlyGivenNames x; first | (apply good_cut (s := x); rotate_left; clear_value x; rotate_left; subst x) | clear_value x | subst x))

theorem good_State_sleepGo (s : State) (h_s : s.Good) :
    (State.sleepGo s).Good := by
  unfold State.sleepGo
  repeat' (with_reducible first | assumption | apply good_State_enterSleep | apply good_ite | intro _ | split)

theorem good_State_sleepTimeout (s : State) (h_s : s.Good) :
    (State.sleepTimeout s).Good := by
  unfold State.sleepTimeout
  repeat' (with_reducible first | assumption | apply good_ite | ((first | apply good_bytes | apply good_mk); first | assumption | apply good_ite) | intro _ | split)

theorem good_execSleepExportTimeout (now : ℕ) (s : State) (h_s : s.Good) :
    OkOut (execSleepExportTimeout now s) := by
  unfold execSleepExportTimeout
  repeat' (with_reducible first | assumption | apply good_State_sleepTimeout | apply good_State_tick | apply okOut_next)

theorem good_State_sleepExit (s : State) (source : ℕ) (h_s : s.Good) :
    (State.sleepExit s source).Good := by
  unfold State.sleepExit
  repeat' (with_reducible first | assumption | apply good_State_modLink | apply good_State_refStable | apply good_ite | ((first | apply good_bytes | apply good_mk); first | assumption | apply good_State_modLink | apply good_State_refStable | apply good_ite) | intro _ | (extract_lets +onlyGivenNames x; first | (apply good_cut (s := x); rotate_left; clear_value x; rotate_left; subst x) | (have hf := is_fun x; clear hf; subst x) | clear_value x | subst x) | split)

theorem good_execSleepExit (source : ℕ) (s : State) (h_s : s.Good) :
    OkOut (execSleepExit source s) := by
  unfold execSleepExit
  repeat' (with_reducible first | assumption | apply good_State_sleepExit | apply okOut_next)

theorem good_State_powerEval (s : State) (watts : ℕ) (h_s : s.Good) :
    (State.powerEval s watts).Good := by
  unfold State.powerEval
  repeat' (with_reducible first | assumption | apply good_State_modDom | apply good_ite | ((first | apply good_bytes | apply good_mk); first | assumption | apply good_State_modDom | apply good_ite) | intro _ | (extract_lets +onlyGivenNames x; first | (apply good_cut (s := x); rotate_left; clear_value x; rotate_left; subst x) | (have hf := is_fun x; clear hf; subst x) | clear_value x | subst x) | split)

theorem good_execPowerLimitEval (power : ℕ) (now : ℕ) (s : State) (h_s : s.Good) :
    OkOut (execPowerLimitEval power now s) := by
  unfold execPowerLimitEval
  repeat' (with_reducible first | assumption | apply good_State_powerEval | apply good_State_tick | apply okOut_next)

theorem good_State_powerFence (s : State) (h_s : s.Good) :
    (State.powerFence s).Good := by
  unfold State.powerFence
  repeat' (with_reducible first | assumption | apply good_State_report | apply good_ite | apply good_filter | ((first | apply good_bytes | apply good_mk); first | assumption | apply good_State_report | apply good_ite | apply good_filter) | intro _ | split)

theorem good_execPowerLimitFence (now : ℕ) (s : State) (h_s : s.Good) :
    OkOut (execPowerLimitFence now s) := by
  unfold execPowerLimitFence
  repeat' (with_reducible first | assumption | apply good_State_powerFence | apply good_State_tick | apply okOut_next)

theorem good_State_thermalStep (s : State) (n : ℕ) (h_s : s.Good) :
    (State.thermalStep s n).Good := by
  unfold State.thermalStep
  repeat' (with_reducible first | assumption | apply good_State_modDom | apply good_State_report | apply good_ite | ((first | apply good_bytes | apply good_mk); first | assumption | apply good_State_modDom | apply good_State_report | apply good_ite) | intro _ | (extract_lets +onlyGivenNames x; first | (apply good_cut (s := x); rotate_left; clear_value x; rotate_left; subst x) | (have hf := is_fun x; clear hf; subst x) | clear_value x | subst x) | split)

theorem good_State_thermal (s : State) (temps : List ℤ) (h_s : s.Good) :
    (State.thermal s temps).Good := by
  unfold State.thermal
  repeat' (with_reducible first | assumption | apply good_State_modDom | apply good_State_thermalStep | apply good_foldl | ((first | apply good_bytes | apply good_mk); first | assumption | apply good_State_modDom | apply good_State_thermalStep | apply good_foldl) | intro _ | (extract_lets +onlyGivenNames x; first | (apply good_cut (s := x); rotate_left; clear_value x; rotate_left; subst x) | (have hf := is_fun x; clear hf; subst x) | clear_value x | subst x))

theorem good_execThermalSample (temps : List ℤ) (now : ℕ) (s : State) (h_s : s.Good) :
    OkOut (execThermalSample temps now s) := by
  unfold execThermalSample
  repeat' (with_reducible first | assumption | apply good_State_thermal | apply good_State_tick | apply okOut_next)

theorem good_State_railFault (s : State) (n : ℕ) (mv : ℕ) (h_s : s.Good) :
    (State.railFault s n mv).Good := by
  unfold State.railFault
  repeat' (with_reducible first | assumption | apply good_State_modDom | apply good_State_report | apply good_ite | ((first | apply good_bytes | apply good_mk); first | assumption | apply good_State_modDom | apply good_State_report | apply good_ite) | intro _ | (extract_lets +onlyGivenNames x; first | (apply good_cut (s := x); rotate_left; clear_value x; rotate_left; subst x) | (have hf := is_fun x; clear hf; subst x) | clear_value x | subst x) | split)

theorem good_execRailFault (region : RailRef) (mv : ℕ) (s : State) (h_s : s.Good) :
    OkOut (execRailFault region mv s) := by
  unfold execRailFault
  repeat' (with_reducible first | assumption | apply good_State_railFault | apply good_State_report | apply okOut_next | intro _ | split)

end Sys2Proof.Machine
end

