-- ==== Sys2Proof/Laws/GoodExport.lean ====
section
/-!
SUPPORT. GoodExport.lean: every operation and meaning of Export.lean keeps the canonical form of memory.
-/

namespace Sys2Proof.Machine

set_option linter.all false

theorem good_State_exportWrite (s : State) (h_s : s.Good) :
    (State.exportWrite s).Good := by
  unfold State.exportWrite
  repeat' (with_reducible first | assumption | apply good_State_askXlate | apply good_State_hostWrite | apply good_State_bump | apply good_ite | ((first | apply good_bytes | apply good_mk); first | assumption | apply good_State_askXlate | apply good_State_hostWrite | apply good_State_bump | apply good_ite) | intro _ | (extract_lets +onlyGivenNames x; first | (apply good_cut (s := x); rotate_left; clear_value x; rotate_left; subst x) | (have hf := is_fun x; clear hf; subst x) | (have hf := is_cells x; clear hf; subst x) | clear_value x | subst x) | split)

theorem good_execJrnlExportWrite (s : State) (h_s : s.Good) :
    OkOut (execJrnlExportWrite s) := by
  unfold execJrnlExportWrite
  repeat' (with_reducible first | assumption | apply good_State_exportWrite | apply okOut_next)

theorem good_State_exportVisible (s : State) (h_s : s.Good) :
    (State.exportVisible s).Good := by
  unfold State.exportVisible
  repeat' (with_reducible first | assumption | apply good_State_sleepGo | apply good_State_jDrain | apply good_ite | ((first | apply good_bytes | apply good_mk); first | assumption | apply good_State_sleepGo | apply good_State_jDrain | apply good_ite) | intro _ | (extract_lets +onlyGivenNames x; first | (apply good_cut (s := x); rotate_left; clear_value x; rotate_left; subst x) | (have hf := is_fun x; clear hf; subst x) | clear_value x | subst x) | split)

theorem good_execJrnlExportVisible (s : State) (h_s : s.Good) :
    OkOut (execJrnlExportVisible s) := by
  unfold execJrnlExportVisible
  repeat' (with_reducible first | assumption | apply good_State_exportVisible | apply okOut_next)

theorem good_State_exportRetry (s : State) (h_s : s.Good) :
    (State.exportRetry s).Good := by
  unfold State.exportRetry
  repeat' (with_reducible first | assumption | ((first | apply good_bytes | apply good_mk); first | assumption))

theorem good_State_jrnlHeadWrite (s : State) (head : ℕ) (h_s : s.Good) :
    (State.jrnlHeadWrite s head).Good := by
  unfold State.jrnlHeadWrite
  repeat' (with_reducible first | assumption | apply good_State_exportRetry | apply good_State_setReg)

theorem good_execJrnlExpHead (o : Origin) (head : ℕ) (s : State) (h_s : s.Good) :
    OkOut (execJrnlExpHead o head s) := by
  unfold execJrnlExpHead
  repeat' (with_reducible first | assumption | apply good_State_jrnlHeadWrite | apply okOut_next | (extract_lets +onlyGivenNames x; first | (apply good_cut (s := x); rotate_left; clear_value x; rotate_left; subst x) | clear_value x | subst x))

theorem good_State_jrnlRegWrite (s : State) (o : Origin) (off : ℕ) (width : ℕ) (ignored : Bool) (old : ℕ) (new : ℕ) (act : State → State) (h_s : s.Good) (h_act : ∀ t : State, t.Good → (act t).Good) :
    (State.jrnlRegWrite s o off width ignored old new act).Good := by
  unfold State.jrnlRegWrite
  repeat' (with_reducible first | assumption | apply good_State_jMust | apply h_act | apply good_ite | intro _ | (extract_lets +onlyGivenNames x; first | (apply good_cut (s := x); rotate_left; clear_value x; rotate_left; subst x) | clear_value x | subst x) | split)

theorem good_State_jrnlCfgWrite (s : State) (o : Origin) (width : ℕ) (v : ℕ) (h_s : s.Good) :
    (State.jrnlCfgWrite s o width v).Good := by
  unfold State.jrnlCfgWrite
  repeat' (with_reducible first | assumption | apply good_State_jrnlRegWrite | apply good_State_setReg | apply good_State_exportRetry | apply good_ite | intro _ | (extract_lets +onlyGivenNames x; first | (apply good_cut (s := x); rotate_left; clear_value x; rotate_left; subst x) | (have hf := is_fun x; clear hf; subst x) | clear_value x | subst x) | split)

theorem good_execJrnlExpEnable (o : Origin) (value : ℕ) (s : State) (h_s : s.Good) :
    OkOut (execJrnlExpEnable o value s) := by
  unfold execJrnlExpEnable
  repeat' (with_reducible first | assumption | apply good_State_jrnlCfgWrite | apply okOut_next)

theorem good_State_tailRead (s : State) (o : Origin) (h_s : s.Good) :
    (State.tailRead s o).Good := by
  unfold State.tailRead
  repeat' (with_reducible first | assumption | apply good_State_emit | ((first | apply good_bytes | apply good_mk); first | assumption | apply good_State_emit))

theorem good_execJrnlTailRead (o : Origin) (s : State) (h_s : s.Good) :
    OkOut (execJrnlTailRead o s) := by
  unfold execJrnlTailRead
  repeat' (with_reducible first | assumption | apply good_State_tailRead | apply okOut_next)

end Sys2Proof.Machine
end

