-- ==== Sys2Proof/Laws/GoodCard.lean ====
section
/-!
SUPPORT. GoodCard.lean: every operation and meaning of Card.lean keeps the canonical form of memory.
-/

namespace Sys2Proof.Machine

set_option linter.all false

theorem good_State_perst (s : State) (l : ℕ) (h_s : s.Good) :
    (State.perst s l).Good := by
  unfold State.perst
  repeat' (with_reducible first | assumption | apply good_State_modLink | apply good_State_report | apply good_State_linkDown | apply good_State_linkReset | apply good_ite | ((first | apply good_bytes | apply good_mk); first | assumption | apply good_State_modLink | apply good_State_report | apply good_State_linkDown | apply good_State_linkReset | apply good_ite) | intro _ | split)

theorem good_execPerstAssert (link : Fin 4) (s : State) (h_s : s.Good) :
    OkOut (execPerstAssert link s) := by
  unfold execPerstAssert
  repeat' (with_reducible first | assumption | apply good_State_settle | apply good_State_perst | apply okOut_next)

theorem good_State_powerOff (s : State) (h_s : s.Good) :
    (State.powerOff s).Good := by
  unfold State.powerOff
  repeat' (with_reducible first | assumption | apply good_State_restart | ((first | apply good_bytes | apply good_mk); first | assumption | apply good_State_restart) | (extract_lets +onlyGivenNames x; first | (apply good_cut (s := x); rotate_left; clear_value x; rotate_left; subst x) | clear_value x | subst x))

theorem good_State_powerOn (s : State) (h_s : s.Good) :
    (State.powerOn s).Good := by
  unfold State.powerOn
  repeat' (with_reducible first | assumption | apply good_State_restart | ((first | apply good_bytes | apply good_mk); first | assumption | apply good_State_restart) | (extract_lets +onlyGivenNames x; first | (apply good_cut (s := x); rotate_left; clear_value x; rotate_left; subst x) | clear_value x | subst x))

theorem good_State_auxVolts (s : State) (mv : ℤ) (h_s : s.Good) :
    (State.auxVolts s mv).Good := by
  unfold State.auxVolts
  repeat' (with_reducible first | assumption | apply good_State_powerOn | apply good_State_powerOff | apply good_ite | ((first | apply good_bytes | apply good_mk); first | assumption | apply good_State_powerOn | apply good_State_powerOff | apply good_ite) | intro _ | (extract_lets +onlyGivenNames x; first | (apply good_cut (s := x); rotate_left; clear_value x; rotate_left; subst x) | clear_value x | subst x) | split)

theorem good_execAuxVoltageChange (mv : ℤ) (now : ℕ) (s : State) (h_s : s.Good) :
    OkOut (execAuxVoltageChange mv now s) := by
  unfold execAuxVoltageChange
  repeat' (with_reducible first | assumption | apply good_State_auxVolts | apply good_State_tick | apply okOut_next)

theorem good_State_auxRecover (s : State) (h_s : s.Good) :
    (State.auxRecover s).Good := by
  unfold State.auxRecover
  repeat' (with_reducible first | assumption | apply good_ite | ((first | apply good_bytes | apply good_mk); first | assumption | apply good_ite) | intro _ | split)

theorem good_execAuxUvRecover (now : ℕ) (s : State) (h_s : s.Good) :
    OkOut (execAuxUvRecover now s) := by
  unfold execAuxUvRecover
  repeat' (with_reducible first | assumption | apply good_State_auxRecover | apply good_State_tick | apply okOut_next)

theorem good_State_auxLoss (s : State) (h_s : s.Good) :
    (State.auxLoss s).Good := by
  unfold State.auxLoss
  repeat' (with_reducible first | assumption | apply good_State_powerOff | apply good_ite | intro _ | split)

theorem good_execAuxPowerLoss (now : ℕ) (s : State) (h_s : s.Good) :
    OkOut (execAuxPowerLoss now s) := by
  unfold execAuxPowerLoss
  repeat' (with_reducible first | assumption | apply good_State_auxLoss | apply good_State_tick | apply okOut_next)

theorem good_State_cagePower (s : State) (q : ℕ) (h_s : s.Good) :
    (State.cagePower s q).Good := by
  unfold State.cagePower
  repeat' (with_reducible first | assumption | apply good_State_modCage | apply good_ite | ((first | apply good_bytes | apply good_mk); first | assumption | apply good_State_modCage | apply good_ite) | intro _ | (extract_lets +onlyGivenNames x; first | (apply good_cut (s := x); rotate_left; clear_value x; rotate_left; subst x) | (have hf := is_fun x; clear hf; subst x) | clear_value x | subst x) | split)

theorem good_execCageInsertPower (port : Fin 8) (now : ℕ) (s : State) (h_s : s.Good) :
    OkOut (execCageInsertPower port now s) := by
  unfold execCageInsertPower
  repeat' (with_reducible first | assumption | apply good_State_cagePower | apply good_State_tick | apply okOut_next)

theorem good_State_cageTrip (s : State) (q : ℕ) (h_s : s.Good) :
    (State.cageTrip s q).Good := by
  unfold State.cageTrip
  repeat' (with_reducible first | assumption | apply good_State_modCage | apply good_State_portAllDown | apply good_ite | ((first | apply good_bytes | apply good_mk); first | assumption | apply good_State_modCage | apply good_State_portAllDown | apply good_ite) | intro _ | (extract_lets +onlyGivenNames x; first | (apply good_cut (s := x); rotate_left; clear_value x; rotate_left; subst x) | (have hf := is_fun x; clear hf; subst x) | clear_value x | subst x) | split)

theorem good_execCageOvercurrent (port : Fin 8) (now : ℕ) (s : State) (h_s : s.Good) :
    OkOut (execCageOvercurrent port now s) := by
  unfold execCageOvercurrent
  repeat' (with_reducible first | assumption | apply good_State_cageTrip | apply good_State_tick | apply okOut_next)

theorem good_State_cageRetry (s : State) (q : ℕ) (h_s : s.Good) :
    (State.cageRetry s q).Good := by
  unfold State.cageRetry
  repeat' (with_reducible first | assumption | apply good_State_modCage | apply good_ite | ((first | apply good_bytes | apply good_mk); first | assumption | apply good_State_modCage | apply good_ite) | intro _ | (extract_lets +onlyGivenNames x; first | (apply good_cut (s := x); rotate_left; clear_value x; rotate_left; subst x) | (have hf := is_fun x; clear hf; subst x) | clear_value x | subst x) | split)

theorem good_execCageRetry (port : Fin 8) (now : ℕ) (s : State) (h_s : s.Good) :
    OkOut (execCageRetry port now s) := by
  unfold execCageRetry
  repeat' (with_reducible first | assumption | apply good_State_cageRetry | apply good_State_tick | apply okOut_next)

theorem good_State_coolant (s : State) (x : Sensors) (h_s : s.Good) :
    (State.coolant s x).Good := by
  unfold State.coolant
  repeat' (with_reducible first | assumption | apply good_ite | ((first | apply good_bytes | apply good_mk); first | assumption | apply good_ite) | intro _ | (extract_lets +onlyGivenNames x; first | (apply good_cut (s := x); rotate_left; clear_value x; rotate_left; subst x) | clear_value x | subst x) | split)

theorem good_execCoolantSensorRead (x : Sensors) (now : ℕ) (s : State) (h_s : s.Good) :
    OkOut (execCoolantSensorRead x now s) := by
  unfold execCoolantSensorRead
  repeat' (with_reducible first | assumption | apply good_State_coolant | apply good_State_tick | apply okOut_next)

theorem good_State_coolLift (s : State) (h_s : s.Good) :
    (State.coolLift s).Good := by
  unfold State.coolLift
  repeat' (with_reducible first | assumption | apply good_ite | ((first | apply good_bytes | apply good_mk); first | assumption | apply good_ite) | intro _ | split)

theorem good_execCoolingCapLift (now : ℕ) (s : State) (h_s : s.Good) :
    OkOut (execCoolingCapLift now s) := by
  unfold execCoolingCapLift
  repeat' (with_reducible first | assumption | apply good_State_coolLift | apply good_State_tick | apply okOut_next)

end Sys2Proof.Machine
end

