-- ==== Sys2Proof/Laws/GoodBist.lean ====
section
/-!
SUPPORT. GoodBist.lean: every operation and meaning of Bist.lean keeps the canonical form of memory.
-/

namespace Sys2Proof.Machine

set_option linter.all false

theorem good_State_testStart (s : State) (n : ℕ) (h_s : s.Good) :
    (State.testStart s n).Good := by
  unfold State.testStart
  repeat' (with_reducible first | assumption | apply good_State_wakeStart | apply good_State_modDom | apply good_filter | ((first | apply good_bytes | apply good_mk); first | assumption | apply good_State_wakeStart | apply good_State_modDom | apply good_filter) | intro _ | (extract_lets +onlyGivenNames x; first | (apply good_cut (s := x); rotate_left; clear_value x; rotate_left; subst x) | (have hf := is_fun x; clear hf; subst x) | clear_value x | subst x))

theorem good_State_clearSecrets (s : State) (h_s : s.Good) :
    (State.clearSecrets s).Good := by
  unfold State.clearSecrets
  repeat' (with_reducible first | assumption | apply good_filter | ((first | apply good_bytes | apply good_mk); first | assumption | apply good_filter) | intro _ | (extract_lets +onlyGivenNames x; first | (apply good_cut (s := x); rotate_left; clear_value x; rotate_left; subst x) | (have hf := is_fun x; clear hf; subst x) | (have hf := is_mem x; clear hf; subst x) | (have hf := is_cells x; clear hf; subst x) | clear_value x | subst x))

theorem good_State_testChip (s : State) (bad : List ℕ) (h_s : s.Good) :
    (State.testChip s bad).Good := by
  unfold State.testChip
  repeat' (with_reducible first | assumption | apply good_State_clearSecrets | apply good_State_restart | apply good_State_bump | apply good_State_refStable | ((first | apply good_bytes | apply good_mk); first | assumption | apply good_State_clearSecrets | apply good_State_restart | apply good_State_bump | apply good_State_refStable) | intro _ | (extract_lets +onlyGivenNames x; first | (apply good_cut (s := x); rotate_left; clear_value x; rotate_left; subst x) | (have hf := is_fun x; clear hf; subst x) | clear_value x | subst x))

theorem good_State_bistCtl (s : State) (o : Origin) (width : ℕ) (v : ℕ) (bad : List ℕ) (h_s : s.Good) :
    (State.bistCtl s o width v bad).Good := by
  unfold State.bistCtl
  repeat' (with_reducible first | assumption | apply good_State_setupWrite | apply good_State_testStart | apply good_State_testChip | intro _ | (extract_lets +onlyGivenNames x; first | (apply good_cut (s := x); rotate_left; clear_value x; rotate_left; subst x) | (have hf := is_fun x; clear hf; subst x) | clear_value x | subst x) | split)

theorem good_execBistRegionStart (o : Origin) (mask : ℕ) (s : State) (h_s : s.Good) :
    OkOut (execBistRegionStart o mask s) := by
  unfold execBistRegionStart
  repeat' (with_reducible first | assumption | apply good_State_bistCtl | apply okOut_next)

theorem good_execBistChipStart (o : Origin) (bad : List ℕ) (s : State) (h_s : s.Good) :
    OkOut (execBistChipStart o bad s) := by
  unfold execBistChipStart
  repeat' (with_reducible first | assumption | apply good_State_bistCtl | apply okOut_next)

theorem good_State_testEnd (s : State) (n : ℕ) (fails : ℕ) (spares : ℕ) (funit : ℕ) (h_s : s.Good) :
    (State.testEnd s n fails spares funit).Good := by
  unfold State.testEnd
  repeat' (with_reducible first | assumption | apply good_State_bistEnd | apply good_ite | ((first | apply good_bytes | apply good_mk); first | assumption | apply good_State_bistEnd | apply good_ite) | intro _ | (extract_lets +onlyGivenNames x; first | (apply good_cut (s := x); rotate_left; clear_value x; rotate_left; subst x) | clear_value x | subst x) | split)

theorem good_execBistRegionEnd (region : Fin 4) (fails : ℕ) (spares : ℕ) (funit : ℕ) (now : ℕ) (s : State) (h_s : s.Good) :
    OkOut (execBistRegionEnd region fails spares funit now s) := by
  unfold execBistRegionEnd
  repeat' (with_reducible first | assumption | apply good_State_testEnd | apply good_State_tick | apply okOut_next)

theorem good_State_tapSelect (s : State) (h_s : s.Good) :
    (State.tapSelect s).Good := by
  unfold State.tapSelect
  repeat' (with_reducible first | assumption | apply good_State_clearSecrets | apply good_State_bump | apply good_State_jCommit | apply good_ite | intro _ | split)

theorem good_execTapScanSelect (s : State) (h_s : s.Good) :
    OkOut (execTapScanSelect s) := by
  unfold execTapScanSelect
  repeat' (with_reducible first | assumption | apply good_State_tapSelect | apply okOut_next)

end Sys2Proof.Machine
end

