-- ==== Sys2Proof/Laws/GoodRegs.lean ====
section
/-!
SUPPORT. GoodRegs.lean: every operation and meaning of Regs.lean keeps the canonical form of memory.
-/

namespace Sys2Proof.Machine

set_option linter.all false

theorem good_State_saCfgWrite (s : State) (o : Origin) (width : ℕ) (v : ℕ) (h_s : s.Good) :
    (State.saCfgWrite s o width v).Good := by
  unfold State.saCfgWrite
  repeat' (with_reducible first | assumption | apply good_State_setupWrite | apply good_State_setReg | apply good_State_modFn | apply good_ite | ((first | apply good_bytes | apply good_mk); first | assumption | apply good_State_setupWrite | apply good_State_setReg | apply good_State_modFn | apply good_ite) | intro _ | (extract_lets +onlyGivenNames x; first | (apply good_cut (s := x); rotate_left; clear_value x; rotate_left; subst x) | (have hf := is_fun x; clear hf; subst x) | clear_value x | subst x) | split)

theorem good_execMgmtSaEnable (o : Origin) (value : ℕ) (s : State) (h_s : s.Good) :
    OkOut (execMgmtSaEnable o value s) := by
  unfold execMgmtSaEnable
  repeat' (with_reducible first | assumption | apply good_State_saCfgWrite | apply okOut_next)

theorem good_State_modeWrite (s : State) (o : Origin) (width : ℕ) (v : ℕ) (h_s : s.Good) :
    (State.modeWrite s o width v).Good := by
  unfold State.modeWrite
  repeat' (with_reducible first | assumption | apply good_State_setupWrite | apply good_foldl | ((first | apply good_bytes | apply good_mk); first | assumption | apply good_State_setupWrite | apply good_foldl) | intro _ | (extract_lets +onlyGivenNames x; first | (apply good_cut (s := x); rotate_left; clear_value x; rotate_left; subst x) | (have hf := is_fun x; clear hf; subst x) | clear_value x | subst x))

theorem good_execMgmtModeExit (o : Origin) (s : State) (h_s : s.Good) :
    OkOut (execMgmtModeExit o s) := by
  unfold execMgmtModeExit
  repeat' (with_reducible first | assumption | apply good_State_modeWrite | apply okOut_next)

theorem good_State_eachBp (s : State) (q : ℕ) (g : Bp → Bp) (h_s : s.Good) :
    (State.eachBp s q g).Good := by
  unfold State.eachBp
  repeat' (with_reducible first | assumption | apply good_State_modPort | ((first | apply good_bytes | apply good_mk); first | assumption | apply good_State_modPort) | intro _)

theorem good_State_regClear (s : State) (r : Reg) (lo : Bool) (hi : Bool) (h_s : s.Good) :
    (State.regClear s r lo hi).Good := by
  unfold State.regClear
  repeat' (with_reducible first | assumption | apply good_State_modMbx | apply good_State_modDom | apply good_State_modCage | apply good_State_eachBp | apply good_State_modPort | apply good_State_modLink | apply good_State_modScrub | apply good_ite | ((first | apply good_bytes | apply good_mk); first | assumption | apply good_State_modMbx | apply good_State_modDom | apply good_State_modCage | apply good_State_eachBp | apply good_State_modPort | apply good_State_modLink | apply good_State_modScrub | apply good_ite) | intro _ | (extract_lets +onlyGivenNames x; first | (apply good_cut (s := x); rotate_left; clear_value x; rotate_left; subst x) | (have hf := is_fun x; clear hf; subst x) | (have hf := is_mem x; clear hf; subst x) | clear_value x | subst x) | split)

theorem good_State_saigaTouch (s : State) (off : ℕ) (h_s : s.Good) :
    (State.saigaTouch s off).Good := by
  unfold State.saigaTouch
  repeat' (with_reducible first | assumption | apply good_ite | ((first | apply good_bytes | apply good_mk); first | assumption | apply good_ite) | intro _ | split)

theorem good_State_mapRead (s : State) (m : ℕ → Option Reg) (off : ℕ) (width : ℕ) (h_s : s.Good) :
    OkL (State.mapRead s m off width) := by
  unfold State.mapRead
  repeat' (with_reducible first | assumption | apply good_State_regClear | apply good_ite | apply okL_ite | refine okL_eq (by assumption) ?_ | exact okL_of (by assumption) | apply okL_fst | intro _ | (extract_lets +onlyGivenNames x; first | (apply good_cut (s := x); rotate_left; clear_value x; rotate_left; subst x) | (apply okL_cut (p := x); rotate_left; clear_value x; rotate_left; subst x) | clear_value x | subst x) | split | apply okL_mk)

theorem good_State_pfRead (s : State) (off : ℕ) (width : ℕ) (h_s : s.Good) :
    OkL (State.pfRead s off width) := by
  unfold State.pfRead
  repeat' (with_reducible first | assumption | apply good_State_mapRead | apply good_State_saigaTouch | apply good_ite | apply okL_ite | apply okL_fst | intro _ | split | apply okL_mk)

theorem good_State_tcmFull (s : State) (off : ℕ) (h_s : s.Good) :
    (State.tcmFull s off).Good := by
  unfold State.tcmFull
  repeat' (with_reducible first | assumption | apply good_State_modClsq | apply good_ite | ((first | apply good_bytes | apply good_mk); first | assumption | apply good_State_modClsq | apply good_ite) | intro _ | (extract_lets +onlyGivenNames x; first | (apply good_cut (s := x); rotate_left; clear_value x; rotate_left; subst x) | (have hf := is_fun x; clear hf; subst x) | clear_value x | subst x) | split)

theorem good_State_heldWrite (s : State) (o : Origin) (off : ℕ) (width : ℕ) (v : ℕ) (mask : ℕ) (h_s : s.Good) :
    (State.heldWrite s o off width v mask).Good := by
  unfold State.heldWrite
  repeat' (with_reducible first | assumption | apply good_State_setupWrite | apply good_State_tcmFull | apply good_State_setReg | intro _)

theorem good_State_admWrite (s : State) (o : Origin) (off : ℕ) (width : ℕ) (v : ℕ) (f : ℕ) (i : ℕ) (h_s : s.Good) :
    (State.admWrite s o off width v f i).Good := by
  unfold State.admWrite
  repeat' (with_reducible first | assumption | apply good_State_setupWrite | apply good_State_modFn | apply good_State_admCfgWrite | apply good_State_regFence | apply good_ite | exact good_id (by assumption) | ((first | apply good_bytes | apply good_mk); first | assumption | apply good_State_setupWrite | apply good_State_modFn | apply good_State_admCfgWrite | apply good_State_regFence | apply good_ite | exact good_id (by assumption)) | intro _ | (extract_lets +onlyGivenNames x; first | (apply good_cut (s := x); rotate_left; clear_value x; rotate_left; subst x) | (have hf := is_fun x; clear hf; subst x) | clear_value x | subst x) | split)

theorem good_State_mbxRegWrite (s : State) (o : Origin) (off : ℕ) (width : ℕ) (v : ℕ) (f : ℕ) (base : Bool) (h_s : s.Good) :
    (State.mbxRegWrite s o off width v f base).Good := by
  unfold State.mbxRegWrite
  repeat' (with_reducible first | assumption | apply good_State_setupWrite | apply good_State_modMbx | apply good_ite | ((first | apply good_bytes | apply good_mk); first | assumption | apply good_State_setupWrite | apply good_State_modMbx | apply good_ite) | intro _ | (extract_lets +onlyGivenNames x; first | (apply good_cut (s := x); rotate_left; clear_value x; rotate_left; subst x) | (have hf := is_fun x; clear hf; subst x) | clear_value x | subst x) | split)

theorem good_State_timeCfgWrite (s : State) (o : Origin) (width : ℕ) (v : ℕ) (h_s : s.Good) :
    (State.timeCfgWrite s o width v).Good := by
  unfold State.timeCfgWrite
  repeat' (with_reducible first | assumption | apply good_State_setupWrite | apply good_State_setReg | apply good_ite | ((first | apply good_bytes | apply good_mk); first | assumption | apply good_State_setupWrite | apply good_State_setReg | apply good_ite) | intro _ | (extract_lets +onlyGivenNames x; first | (apply good_cut (s := x); rotate_left; clear_value x; rotate_left; subst x) | (have hf := is_fun x; clear hf; subst x) | clear_value x | subst x) | split)

theorem good_State_timeFreqWrite (s : State) (o : Origin) (width : ℕ) (v : ℕ) (h_s : s.Good) :
    (State.timeFreqWrite s o width v).Good := by
  unfold State.timeFreqWrite
  repeat' (with_reducible first | assumption | apply good_State_setupWrite | apply good_State_setReg | ((first | apply good_bytes | apply good_mk); first | assumption | apply good_State_setupWrite | apply good_State_setReg) | intro _ | (extract_lets +onlyGivenNames x; first | (apply good_cut (s := x); rotate_left; clear_value x; rotate_left; subst x) | (have hf := is_fun x; clear hf; subst x) | clear_value x | subst x))

theorem good_State_hlnkWrite (s : State) (o : Origin) (off : ℕ) (width : ℕ) (v : ℕ) (n : ℕ) (h_s : s.Good) :
    (State.hlnkWrite s o off width v n).Good := by
  unfold State.hlnkWrite
  repeat' (with_reducible first | assumption | apply good_State_setupWrite | apply good_State_dropLink | apply good_State_setReg | apply good_ite | intro _ | (extract_lets +onlyGivenNames x; first | (apply good_cut (s := x); rotate_left; clear_value x; rotate_left; subst x) | (have hf := is_fun x; clear hf; subst x) | clear_value x | subst x) | split)

theorem good_State_telCfgWrite (s : State) (o : Origin) (width : ℕ) (v : ℕ) (h_s : s.Good) :
    (State.telCfgWrite s o width v).Good := by
  unfold State.telCfgWrite
  repeat' (with_reducible first | assumption | apply good_State_setupWrite | apply good_State_setReg | apply good_ite | intro _ | (extract_lets +onlyGivenNames x; first | (apply good_cut (s := x); rotate_left; clear_value x; rotate_left; subst x) | (have hf := is_fun x; clear hf; subst x) | clear_value x | subst x) | split)

theorem good_State_cardWrite (s : State) (o : Origin) (off : ℕ) (width : ℕ) (v : ℕ) (h_s : s.Good) :
    (State.cardWrite s o off width v).Good := by
  unfold State.cardWrite
  repeat' (with_reducible first | assumption | apply good_State_setupWrite | ((first | apply good_bytes | apply good_mk); first | assumption | apply good_State_setupWrite) | intro _)

theorem good_State_fltNextWrite (s : State) (o : Origin) (off : ℕ) (width : ℕ) (v : ℕ) (w : ℕ) (h_s : s.Good) :
    (State.fltNextWrite s o off width v w).Good := by
  unfold State.fltNextWrite
  repeat' (with_reducible first | assumption | apply good_State_setupWrite | apply good_ite | ((first | apply good_bytes | apply good_mk); first | assumption | apply good_State_setupWrite | apply good_ite) | intro _ | split)

theorem good_State_tltCfgWrite (s : State) (o : Origin) (width : ℕ) (v : ℕ) (h_s : s.Good) :
    (State.tltCfgWrite s o width v).Good := by
  unfold State.tltCfgWrite
  repeat' (with_reducible first | assumption | apply good_State_setupWrite | apply good_State_setReg | apply good_ite | intro _ | (extract_lets +onlyGivenNames x; first | (apply good_cut (s := x); rotate_left; clear_value x; rotate_left; subst x) | (have hf := is_fun x; clear hf; subst x) | clear_value x | subst x) | split)

theorem good_State_regPut (s : State) (o : Origin) (off : ℕ) (width : ℕ) (v : ℕ) (r : Reg) (h_s : s.Good) :
    (State.regPut s o off width v r).Good := by
  unfold State.regPut
  repeat' (with_reducible first | assumption | apply good_State_heldWrite | apply good_State_tltCfgWrite | apply good_State_admWrite | apply good_State_setupWrite | apply good_State_modFn | apply good_State_mbxRegWrite | apply good_State_domSel | apply good_State_sleepWrite | apply good_State_cardWrite | apply good_State_addrWrite | apply good_State_portCfgWrite | apply good_State_fltNextWrite | apply good_State_fltCtl | apply good_State_hlnkWrite | apply good_State_fenceWrite | apply good_State_recClear | apply good_State_bistCtl | apply good_State_jrnlRegWrite | apply good_State_setReg | apply good_State_jrnlCfgWrite | apply good_State_jrnlHeadWrite | apply good_State_timeCfgWrite | apply good_State_timeAdj | apply good_State_timeFreqWrite | apply good_State_modeWrite | apply good_State_saCfgWrite | apply good_State_telCfgWrite | apply good_ite | exact good_id (by assumption) | ((first | apply good_bytes | apply good_mk); first | assumption | apply good_State_heldWrite | apply good_State_tltCfgWrite | apply good_State_admWrite | apply good_State_setupWrite | apply good_State_modFn | apply good_State_mbxRegWrite | apply good_State_domSel | apply good_State_sleepWrite | apply good_State_cardWrite | apply good_State_addrWrite | apply good_State_portCfgWrite | apply good_State_fltNextWrite | apply good_State_fltCtl | apply good_State_hlnkWrite | apply good_State_fenceWrite | apply good_State_recClear | apply good_State_bistCtl | apply good_State_jrnlRegWrite | apply good_State_setReg | apply good_State_jrnlCfgWrite | apply good_State_jrnlHeadWrite | apply good_State_timeCfgWrite | apply good_State_timeAdj | apply good_State_timeFreqWrite | apply good_State_modeWrite | apply good_State_saCfgWrite | apply good_State_telCfgWrite | apply good_ite | exact good_id (by assumption)) | intro _ | (extract_lets +onlyGivenNames x; first | (apply good_cut (s := x); rotate_left; clear_value x; rotate_left; subst x) | (have hf := is_fun x; clear hf; subst x) | clear_value x | subst x) | split)

theorem good_State_mapDrop (s : State) (o : Origin) (off : ℕ) (width : ℕ) (old : ℕ) (v : ℕ) (h_s : s.Good) :
    (State.mapDrop s o off width old v).Good := by
  unfold State.mapDrop
  repeat' (with_reducible first | assumption | apply good_State_jrnlRegWrite | apply good_State_setupWrite | apply good_ite | exact good_id (by assumption) | intro _ | split)

theorem good_State_pfWrite (s : State) (o : Origin) (off : ℕ) (width : ℕ) (v : ℕ) (h_s : s.Good) :
    (State.pfWrite s o off width v).Good := by
  unfold State.pfWrite
  repeat' (with_reducible first | assumption | apply good_State_stopWrite | apply good_State_mapDrop | apply good_State_saigaTouch | apply good_State_regPut | apply good_ite | intro _ | (extract_lets +onlyGivenNames x; first | (apply good_cut (s := x); rotate_left; clear_value x; rotate_left; subst x) | clear_value x | subst x) | split)

theorem good_State_msixPut (s : State) (f : ℕ) (v : ℕ) (w : ℕ) (word : ℕ) (h_s : s.Good) :
    (State.msixPut s f v w word).Good := by
  unfold State.msixPut
  repeat' (with_reducible first | assumption | apply good_State_modFn | apply good_State_msix | apply good_ite | ((first | apply good_bytes | apply good_mk); first | assumption | apply good_State_modFn | apply good_State_msix | apply good_ite) | intro _ | (extract_lets +onlyGivenNames x; first | (apply good_cut (s := x); rotate_left; clear_value x; rotate_left; subst x) | (have hf := is_fun x; clear hf; subst x) | clear_value x | subst x) | split)

theorem good_State_instRead (s : State) (f : ℕ) (off : ℕ) (width : ℕ) (h_s : s.Good) :
    OkL (State.instRead s f off width) := by
  unfold State.instRead
  repeat' (with_reducible first | assumption | apply good_State_mapRead | apply good_ite | apply okL_ite | apply okL_fst | intro _ | split | apply okL_mk)

theorem good_State_instWrite (s : State) (f : ℕ) (off : ℕ) (width : ℕ) (v : ℕ) (h_s : s.Good) :
    (State.instWrite s f off width v).Good := by
  unfold State.instWrite
  repeat' (with_reducible first | assumption | apply good_State_emit | apply good_State_modLink | apply good_State_mbxDrop | apply good_State_setupWrite | apply good_State_msixPut | apply good_State_regPut | apply good_ite | exact good_id (by assumption) | ((first | apply good_bytes | apply good_mk); first | assumption | apply good_State_emit | apply good_State_modLink | apply good_State_mbxDrop | apply good_State_setupWrite | apply good_State_msixPut | apply good_State_regPut | apply good_ite | exact good_id (by assumption)) | intro _ | (extract_lets +onlyGivenNames x; first | (apply good_cut (s := x); rotate_left; clear_value x; rotate_left; subst x) | (have hf := is_fun x; clear hf; subst x) | clear_value x | subst x) | split)

theorem good_State_bar2Read (s : State) (f : ℕ) (off : ℕ) (width : ℕ) (h_s : s.Good) :
    OkL (State.bar2Read s f off width) := by
  unfold State.bar2Read
  repeat' (with_reducible first | assumption | apply good_ite | apply okL_ite | apply okL_fst | intro _ | (extract_lets +onlyGivenNames x; first | (apply good_cut (s := x); rotate_left; clear_value x; rotate_left; subst x) | (apply okL_cut (p := x); rotate_left; clear_value x; rotate_left; subst x) | (have hf := is_fun x; clear hf; subst x) | clear_value x | subst x) | split | apply okL_mk)

theorem good_State_barDrop (s : State) (f : ℕ) (h_s : s.Good) :
    (State.barDrop s f).Good := by
  unfold State.barDrop
  repeat' (with_reducible first | assumption | apply good_State_modFn | ((first | apply good_bytes | apply good_mk); first | assumption | apply good_State_modFn) | intro _)

theorem good_State_dbgPut (s : State) (f : ℕ) (g : ℕ) (i : ℕ) (v : ℕ) (h_s : s.Good) :
    (State.dbgPut s f g i v).Good := by
  unfold State.dbgPut
  repeat' (with_reducible first | assumption | apply good_State_doorbell | apply good_State_dbgMask | apply good_State_dbgEvt | apply good_State_dbgEmask | apply good_ite | apply good_foldl | intro _ | split)

theorem good_State_bar2Write (s : State) (f : ℕ) (off : ℕ) (width : ℕ) (v : ℕ) (h_s : s.Good) :
    (State.bar2Write s f off width v).Good := by
  unfold State.bar2Write
  repeat' (with_reducible first | assumption | apply good_State_barDrop | apply good_State_doorbell | apply good_State_onCq | apply good_State_cqArm | apply good_State_cqRelease | apply good_State_dbgPut | apply good_State_msixPut | apply good_State_modFn | apply good_ite | ((first | apply good_bytes | apply good_mk); first | assumption | apply good_State_barDrop | apply good_State_doorbell | apply good_State_onCq | apply good_State_cqArm | apply good_State_cqRelease | apply good_State_dbgPut | apply good_State_msixPut | apply good_State_modFn | apply good_ite) | intro _ | (extract_lets +onlyGivenNames x; first | (apply good_cut (s := x); rotate_left; clear_value x; rotate_left; subst x) | (have hf := is_fun x; clear hf; subst x) | clear_value x | subst x) | split)

theorem good_State_anyRead (s : State) (o : Origin) (off : ℕ) (width : ℕ) (h_s : s.Good) :
    OkL (State.anyRead s o off width) := by
  unfold State.anyRead
  repeat' (with_reducible first | assumption | apply good_State_pfRead | apply good_State_bar2Read | apply good_State_instRead | apply good_ite | apply okL_ite | refine okL_eq (by assumption) ?_ | exact okL_of (by assumption) | apply okL_fst | intro _ | split | apply okL_mk)

theorem good_State_readDone (s : State) (o : Origin) (off : ℕ) (r : ReadOut) (h_s : s.Good) :
    (State.readDone s o off r).Good := by
  unfold State.readDone
  repeat' (with_reducible first | assumption | apply good_State_emit | intro _ | (extract_lets +onlyGivenNames x; first | (apply good_cut (s := x); rotate_left; clear_value x; rotate_left; subst x) | clear_value x | subst x) | split)

theorem good_execRcRegisterRead (o : Origin) (off : ℕ) (width : ℕ) (s : State) (h_s : s.Good) :
    OkOut (execRcRegisterRead o off width s) := by
  unfold execRcRegisterRead
  repeat' (with_reducible first | assumption | apply good_State_anyRead | apply good_State_readDone | apply okOut_next | refine okL_eq (by assumption) ?_ | exact okL_of (by assumption) | apply okL_fst | (extract_lets +onlyGivenNames x; first | (apply good_cut (s := x); rotate_left; clear_value x; rotate_left; subst x) | (apply okL_cut (p := x); rotate_left; clear_value x; rotate_left; subst x) | clear_value x | subst x) | split | apply okL_mk)

theorem good_State_anyWrite (s : State) (o : Origin) (off : ℕ) (width : ℕ) (v : ℕ) (h_s : s.Good) :
    (State.anyWrite s o off width v).Good := by
  unfold State.anyWrite
  repeat' (with_reducible first | assumption | apply good_State_pfWrite | apply good_State_emit | apply good_State_bar2Write | apply good_State_instWrite | apply good_ite | intro _ | split)

theorem good_execSetupRegWrite (o : Origin) (off : ℕ) (width : ℕ) (value : ℕ) (s : State) (h_s : s.Good) :
    OkOut (execSetupRegWrite o off width value s) := by
  unfold execSetupRegWrite
  repeat' (with_reducible first | assumption | apply good_State_settle | apply good_State_anyWrite | apply okOut_next)

end Sys2Proof.Machine
end

