-- ==== Sys2Proof/Laws/GoodSaiga.lean ====
section
/-!
SUPPORT. GoodSaiga.lean: every operation and meaning of Saiga.lean keeps the canonical form of memory.
-/

namespace Sys2Proof.Machine

set_option linter.all false

theorem good_State_saigaOn (s : State) (h_s : s.Good) :
    (State.saigaOn s).Good := by
  unfold State.saigaOn
  repeat' (with_reducible first | assumption | apply good_ite | ((first | apply good_bytes | apply good_mk); first | assumption | apply good_ite) | intro _ | split)

theorem good_State_saigaDoze (s : State) (h_s : s.Good) :
    (State.saigaDoze s).Good := by
  unfold State.saigaDoze
  repeat' (with_reducible first | assumption | apply good_ite | ((first | apply good_bytes | apply good_mk); first | assumption | apply good_ite) | intro _ | (extract_lets +onlyGivenNames x; first | (apply good_cut (s := x); rotate_left; clear_value x; rotate_left; subst x) | clear_value x | subst x) | split)

theorem good_execSaigaDoze (now : ℕ) (s : State) (h_s : s.Good) :
    OkOut (execSaigaDoze now s) := by
  unfold execSaigaDoze
  repeat' (with_reducible first | assumption | apply good_State_saigaDoze | apply good_State_tick | apply okOut_next)

theorem good_execSaigaWake (source : ℕ) (s : State) (h_s : s.Good) :
    OkOut (execSaigaWake source s) := by
  unfold execSaigaWake
  repeat' (with_reducible first | assumption | apply good_State_saigaOn | apply good_ite | apply okOut_next | apply okOut_ite | intro _ | split)

theorem good_State_runSlot (s : State) (i : ℕ) (h_s : s.Good) :
    (State.runSlot s i).Good := by
  unfold State.runSlot
  repeat' (with_reducible first | assumption | ((first | apply good_bytes | apply good_mk); first | assumption) | (extract_lets +onlyGivenNames x; first | (apply good_cut (s := x); rotate_left; clear_value x; rotate_left; subst x) | clear_value x | subst x))

theorem good_State_toRecovery (s : State) (h_s : s.Good) :
    (State.toRecovery s).Good := by
  unfold State.toRecovery
  repeat' (with_reducible first | assumption | apply good_State_noteHealth | ((first | apply good_bytes | apply good_mk); first | assumption | apply good_State_noteHealth))

theorem good_State_fwRecord (s : State) (action : ℕ) (h_s : s.Good) :
    (State.fwRecord s action).Good := by
  unfold State.fwRecord
  repeat' (with_reducible first | assumption | apply good_State_bump | apply good_State_jCommit)

theorem good_State_fwRestart (s : State) (h_s : s.Good) :
    (State.fwRestart s).Good := by
  unfold State.fwRestart
  repeat' (with_reducible first | assumption | apply good_State_toRecovery | apply good_State_runSlot | apply good_State_noteHealth | apply good_State_fwRecord | apply good_ite | ((first | apply good_bytes | apply good_mk); first | assumption | apply good_State_toRecovery | apply good_State_runSlot | apply good_State_noteHealth | apply good_State_fwRecord | apply good_ite) | intro _ | (extract_lets +onlyGivenNames x; first | (apply good_cut (s := x); rotate_left; clear_value x; rotate_left; subst x) | clear_value x | subst x) | split)

theorem good_State_mbxInternal (s : State) (h_s : s.Good) :
    (State.mbxInternal s).Good := by
  unfold State.mbxInternal
  repeat' (with_reducible first | assumption | apply good_State_mbxAnswer | apply good_ite | apply good_foldl | intro _ | split)

theorem good_State_watchdog (s : State) (h_s : s.Good) :
    (State.watchdog s).Good := by
  unfold State.watchdog
  repeat' (with_reducible first | assumption | apply good_State_mbxInternal | apply good_State_bump | apply good_State_report | apply good_State_fwRestart | apply good_State_fwRecord | apply good_ite | ((first | apply good_bytes | apply good_mk); first | assumption | apply good_State_mbxInternal | apply good_State_bump | apply good_State_report | apply good_State_fwRestart | apply good_State_fwRecord | apply good_ite) | intro _ | (extract_lets +onlyGivenNames x; first | (apply good_cut (s := x); rotate_left; clear_value x; rotate_left; subst x) | (have hf := is_fun x; clear hf; subst x) | clear_value x | subst x) | split)

theorem good_execSaigaWatchdogExpiry (s : State) (h_s : s.Good) :
    OkOut (execSaigaWatchdogExpiry s) := by
  unfold execSaigaWatchdogExpiry
  repeat' (with_reducible first | assumption | apply good_State_watchdog | apply okOut_next)

theorem good_State_trialOk (s : State) (h_s : s.Good) :
    (State.trialOk s).Good := by
  unfold State.trialOk
  repeat' (with_reducible first | assumption | apply good_ite | ((first | apply good_bytes | apply good_mk); first | assumption | apply good_ite) | intro _ | split)

theorem good_execTrialConfirm (now : ℕ) (s : State) (h_s : s.Good) :
    OkOut (execTrialConfirm now s) := by
  unfold execTrialConfirm
  repeat' (with_reducible first | assumption | apply good_State_trialOk | apply good_State_tick | apply okOut_next)

theorem good_State_bootRecord (s : State) (h_s : s.Good) :
    (State.bootRecord s).Good := by
  unfold State.bootRecord
  repeat' (with_reducible first | assumption | apply good_State_jCommit | apply good_ite | ((first | apply good_bytes | apply good_mk); first | assumption | apply good_State_jCommit | apply good_ite) | intro _ | (extract_lets +onlyGivenNames x; first | (apply good_cut (s := x); rotate_left; clear_value x; rotate_left; subst x) | (have hf := is_fun x; clear hf; subst x) | clear_value x | subst x) | split)

theorem good_State_bootFence (s : State) (n : ℕ) (bad : List ℕ) (h_s : s.Good) :
    (State.bootFence s n bad).Good := by
  unfold State.bootFence
  repeat' (with_reducible first | assumption | apply good_State_fenceClose | apply good_ite | ((first | apply good_bytes | apply good_mk); first | assumption | apply good_State_fenceClose | apply good_ite) | intro _ | (extract_lets +onlyGivenNames x; first | (apply good_cut (s := x); rotate_left; clear_value x; rotate_left; subst x) | (have hf := is_fun x; clear hf; subst x) | clear_value x | subst x) | split)

theorem good_State_quickTest (s : State) (bad : List ℕ) (h_s : s.Good) :
    (State.quickTest s bad).Good := by
  unfold State.quickTest
  repeat' (with_reducible first | assumption | apply good_State_bistPut | apply good_State_bump | apply good_State_bootFence | apply good_State_goFatal | apply good_ite | apply good_foldl | intro _ | (extract_lets +onlyGivenNames x; first | (apply good_cut (s := x); rotate_left; clear_value x; rotate_left; subst x) | (have hf := is_fun x; clear hf; subst x) | clear_value x | subst x) | split)

theorem good_State_bootMacs (s : State) (h_s : s.Good) :
    (State.bootMacs s).Good := by
  unfold State.bootMacs
  repeat' (with_reducible first | assumption | apply good_State_setReg | apply good_foldl | intro _)

theorem good_State_standAlone (s : State) (h_s : s.Good) :
    (State.standAlone s).Good := by
  unfold State.standAlone
  repeat' (with_reducible first | assumption | apply good_State_modFn | apply good_foldl | ((first | apply good_bytes | apply good_mk); first | assumption | apply good_State_modFn | apply good_foldl) | intro _ | (extract_lets +onlyGivenNames x; first | (apply good_cut (s := x); rotate_left; clear_value x; rotate_left; subst x) | (have hf := is_fun x; clear hf; subst x) | clear_value x | subst x))

theorem good_State_bootUp (s : State) (bad : List ℕ) (h_s : s.Good) :
    (State.bootUp s bad).Good := by
  unfold State.bootUp
  repeat' (with_reducible first | assumption | apply good_State_toRecovery | apply good_State_runSlot | apply good_State_bootRecord | apply good_State_fwRecord | apply good_State_quickTest | apply good_State_bootMacs | apply good_State_standAlone | apply good_State_noteHealth | apply good_ite | ((first | apply good_bytes | apply good_mk); first | assumption | apply good_State_toRecovery | apply good_State_runSlot | apply good_State_bootRecord | apply good_State_fwRecord | apply good_State_quickTest | apply good_State_bootMacs | apply good_State_standAlone | apply good_State_noteHealth | apply good_ite) | intro _ | (extract_lets +onlyGivenNames x; first | (apply good_cut (s := x); rotate_left; clear_value x; rotate_left; subst x) | (have hf := is_mem x; clear hf; subst x) | clear_value x | subst x) | split)

theorem good_execBoot (bad : List ℕ) (s : State) (h_s : s.Good) :
    OkOut (execBoot bad s) := by
  unfold execBoot
  repeat' (with_reducible first | assumption | apply good_State_settle | apply good_State_bootUp | apply okOut_next)

theorem good_State_busReply (s : State) (node : ℕ) (seq : ℕ) (status : ℕ) (data : List ℕ) (h_s : s.Good) :
    (State.busReply s node seq status data).Good := by
  unfold State.busReply
  repeat' (with_reducible first | assumption | apply good_State_emit | apply good_ite | ((first | apply good_bytes | apply good_mk); first | assumption | apply good_State_emit | apply good_ite) | intro _ | (extract_lets +onlyGivenNames x; first | (apply good_cut (s := x); rotate_left; clear_value x; rotate_left; subst x) | clear_value x | subst x) | split)

theorem good_State_busCmd (s : State) (node : ℕ) (seq : ℕ) (boot : Bool) (session : Option ℕ) (k : State → State) (h_s : s.Good) (h_k : ∀ t : State, t.Good → (k t).Good) :
    (State.busCmd s node seq boot session k).Good := by
  unfold State.busCmd
  repeat' (with_reducible first | assumption | apply good_State_saigaOn | apply good_State_emit | apply good_State_busReply | apply h_k | apply good_ite | intro _ | (extract_lets +onlyGivenNames x; first | (apply good_cut (s := x); rotate_left; clear_value x; rotate_left; subst x) | (have hf := is_fun x; clear hf; subst x) | clear_value x | subst x) | split)

theorem good_State_busShed (s : State) (node : ℕ) (seq : ℕ) (h_s : s.Good) :
    (State.busShed s node seq).Good := by
  unfold State.busShed
  repeat' (with_reducible first | assumption | apply good_State_bump | apply good_State_busReply)

theorem good_execId (node : ℕ) (seq : ℕ) (s : State) (h_s : s.Good) :
    OkOut (execId node seq s) := by
  unfold execId
  repeat' (with_reducible first | assumption | apply good_State_busCmd | apply good_State_busReply | apply okOut_next | intro _)

theorem good_State_busRead (s : State) (node : ℕ) (seq : ℕ) (addr : ℕ) (width : ℕ) (h_s : s.Good) :
    (State.busRead s node seq addr width).Good := by
  unfold State.busRead
  repeat' (with_reducible first | assumption | apply good_State_busShed | apply good_State_busReply | apply good_State_pfRead | apply good_ite | apply okL_ite | refine okL_eq (by assumption) ?_ | exact okL_of (by assumption) | apply okL_fst | intro _ | split | apply okL_mk)

theorem good_execRegRead (node : ℕ) (seq : ℕ) (addr : ℕ) (width : ℕ) (session : ℕ) (s : State) (h_s : s.Good) :
    OkOut (execRegRead node seq addr width session s) := by
  unfold execRegRead
  repeat' (with_reducible first | assumption | apply good_State_busCmd | apply good_State_busRead | apply okOut_next | intro _)

theorem good_State_busWrite (s : State) (node : ℕ) (seq : ℕ) (addr : ℕ) (width : ℕ) (v : ℕ) (h_s : s.Good) :
    (State.busWrite s node seq addr width v).Good := by
  unfold State.busWrite
  repeat' (with_reducible first | assumption | apply good_State_busReply | apply good_State_pfWrite | apply good_ite | intro _ | (extract_lets +onlyGivenNames x; first | (apply good_cut (s := x); rotate_left; clear_value x; rotate_left; subst x) | clear_value x | subst x) | split)

theorem good_execRegWrite (node : ℕ) (seq : ℕ) (addr : ℕ) (width : ℕ) (value : ℕ) (session : ℕ) (s : State) (h_s : s.Good) :
    OkOut (execRegWrite node seq addr width value session s) := by
  unfold execRegWrite
  repeat' (with_reducible first | assumption | apply good_State_settle | apply good_State_busCmd | apply good_State_busWrite | apply okOut_next | intro _)

theorem good_State_busFlash (s : State) (node : ℕ) (seq : ℕ) (addr : ℕ) (data : List Byte) (h_s : s.Good) :
    (State.busFlash s node seq addr data).Good := by
  unfold State.busFlash
  repeat' (with_reducible first | assumption | apply good_State_busReply | apply good_State_fwRecord | apply good_ite | apply good_foldl | ((first | apply good_bytes | apply good_mk); first | assumption | apply good_State_busReply | apply good_State_fwRecord | apply good_ite | apply good_foldl) | intro _ | (extract_lets +onlyGivenNames x; first | (apply good_cut (s := x); rotate_left; clear_value x; rotate_left; subst x) | (have hf := is_fun x; clear hf; subst x) | (have hf := is_cells x; clear hf; subst x) | clear_value x | subst x) | split)

theorem good_execFlashWrite (node : ℕ) (seq : ℕ) (addr : ℕ) (data : List Byte) (session : ℕ) (s : State) (h_s : s.Good) :
    OkOut (execFlashWrite node seq addr data session s) := by
  unfold execFlashWrite
  repeat' (with_reducible first | assumption | apply good_State_busCmd | apply good_State_busFlash | apply okOut_next | intro _)

theorem good_State_busSwitch (s : State) (node : ℕ) (seq : ℕ) (restart : Bool) (h_s : s.Good) :
    (State.busSwitch s node seq restart).Good := by
  unfold State.busSwitch
  repeat' (with_reducible first | assumption | apply good_State_busReply | apply good_State_fwRecord | apply good_State_fwRestart | apply good_State_mbxInternal | apply good_ite | ((first | apply good_bytes | apply good_mk); first | assumption | apply good_State_busReply | apply good_State_fwRecord | apply good_State_fwRestart | apply good_State_mbxInternal | apply good_ite) | intro _ | (extract_lets +onlyGivenNames x; first | (apply good_cut (s := x); rotate_left; clear_value x; rotate_left; subst x) | (have hf := is_fun x; clear hf; subst x) | clear_value x | subst x) | split)

theorem good_execImageSwitch (node : ℕ) (seq : ℕ) (restart : Bool) (session : ℕ) (s : State) (h_s : s.Good) :
    OkOut (execImageSwitch node seq restart session s) := by
  unfold execImageSwitch
  repeat' (with_reducible first | assumption | apply good_State_busCmd | apply good_State_busSwitch | apply okOut_next | intro _)

theorem good_State_busJrnl (s : State) (node : ℕ) (seq : ℕ) (n : ℕ) (h_s : s.Good) :
    (State.busJrnl s node seq n).Good := by
  unfold State.busJrnl
  repeat' (with_reducible first | assumption | apply good_State_busShed | apply good_State_busReply | apply good_State_bump | apply good_ite | intro _ | (extract_lets +onlyGivenNames x; first | (apply good_cut (s := x); rotate_left; clear_value x; rotate_left; subst x) | (have hf := is_fun x; clear hf; subst x) | (have hf := is_cells x; clear hf; subst x) | clear_value x | subst x) | split)

theorem good_execJrnlRead (node : ℕ) (seq : ℕ) (rec_ : ℕ) (session : ℕ) (s : State) (h_s : s.Good) :
    OkOut (execJrnlRead node seq rec_ session s) := by
  unfold execJrnlRead
  repeat' (with_reducible first | assumption | apply good_State_busCmd | apply good_State_busJrnl | apply okOut_next | intro _)

theorem good_State_healthCast (s : State) (h_s : s.Good) :
    (State.healthCast s).Good := by
  unfold State.healthCast
  repeat' (with_reducible first | assumption | apply good_State_saigaOn | apply good_State_emit | apply good_ite | ((first | apply good_bytes | apply good_mk); first | assumption | apply good_State_saigaOn | apply good_State_emit | apply good_ite) | intro _ | (extract_lets +onlyGivenNames x; first | (apply good_cut (s := x); rotate_left; clear_value x; rotate_left; subst x) | clear_value x | subst x) | split)

theorem good_execHealthMulticast (now : ℕ) (s : State) (h_s : s.Good) :
    OkOut (execHealthMulticast now s) := by
  unfold execHealthMulticast
  repeat' (with_reducible first | assumption | apply good_State_healthCast | apply good_State_tick | apply okOut_next)

theorem good_State_mbusColl (s : State) (n : ℕ) (h_s : s.Good) :
    (State.mbusColl s n).Good := by
  unfold State.mbusColl
  repeat' (with_reducible first | assumption | apply good_ite | ((first | apply good_bytes | apply good_mk); first | assumption | apply good_ite) | intro _ | (extract_lets +onlyGivenNames x; first | (apply good_cut (s := x); rotate_left; clear_value x; rotate_left; subst x) | clear_value x | subst x) | split)

theorem good_State_shortRetry (s : State) (x : MbusTry) (h_s : s.Good) :
    (State.shortRetry s x).Good := by
  unfold State.shortRetry
  repeat' (with_reducible first | assumption | apply good_State_mbusColl | apply good_ite | ((first | apply good_bytes | apply good_mk); first | assumption | apply good_State_mbusColl | apply good_ite) | intro _ | (extract_lets +onlyGivenNames x; first | (apply good_cut (s := x); rotate_left; clear_value x; rotate_left; subst x) | clear_value x | subst x) | split)

theorem good_execMbusShortRetry (ok : MbusTry) (now : ℕ) (s : State) (h_s : s.Good) :
    OkOut (execMbusShortRetry ok now s) := by
  unfold execMbusShortRetry
  repeat' (with_reducible first | assumption | apply good_State_shortRetry | apply good_State_tick | apply okOut_next)

theorem good_State_meshSample (s : State) (h_s : s.Good) :
    (State.meshSample s).Good := by
  unfold State.meshSample
  repeat' (with_reducible first | assumption | apply good_State_bump | ((first | apply good_bytes | apply good_mk); first | assumption | apply good_State_bump) | intro _)

theorem good_State_meshRead (s : State) (h_s : s.Good) :
    (State.meshRead s).Good := by
  unfold State.meshRead
  repeat' (with_reducible first | assumption | ((first | apply good_bytes | apply good_mk); first | assumption) | intro _)

theorem good_State_telView (s : State) (h_s : s.Good) :
    (State.telView s).Good := by
  unfold State.telView
  repeat' (with_reducible first | assumption | ((first | apply good_bytes | apply good_mk); first | assumption))

theorem good_State_telOne (f : ℕ) (base : ℕ) (n : ℕ) (s : State) (l : List TelRec) (h_s : s.Good) :
    OkL (State.telOne f base n s l) := by
  unfold State.telOne
  repeat' (with_reducible first | assumption | apply good_State_askXlate | apply good_State_hostWrite | apply good_ite | apply okL_ite | refine okL_eq (by assumption) ?_ | exact okL_of (by assumption) | apply okL_fst | ((first | apply good_bytes | apply good_mk); first | assumption | apply good_State_askXlate | apply good_State_hostWrite | apply good_ite | apply okL_ite | refine okL_eq (by assumption) ?_ | exact okL_of (by assumption) | apply okL_fst) | intro _ | (extract_lets +onlyGivenNames x; first | (apply good_cut (s := x); rotate_left; clear_value x; rotate_left; subst x) | (apply okL_cut (p := x); rotate_left; clear_value x; rotate_left; subst x) | (have hf := is_cells x; clear hf; subst x) | clear_value x | subst x) | split | apply okL_mk)

theorem good_telWrite (s : State) (f : ℕ) (base : ℕ) (n : ℕ) (l : List TelRec) (h_s : s.Good) :
    (telWrite s f base n l).Good := by
  unfold telWrite
  repeat' (with_reducible first | assumption | apply good_loop | apply good_State_telOne | apply okL_fst | apply okL_mk)

theorem good_State_telemetry (s : State) (h_s : s.Good) :
    (State.telemetry s).Good := by
  unfold State.telemetry
  repeat' (with_reducible first | assumption | apply good_State_saigaOn | apply good_State_meshSample | apply good_telWrite | apply good_State_meshRead | apply good_State_telView | apply good_ite | ((first | apply good_bytes | apply good_mk); first | assumption | apply good_State_saigaOn | apply good_State_meshSample | apply good_telWrite | apply good_State_meshRead | apply good_State_telView | apply good_ite) | intro _ | (extract_lets +onlyGivenNames x; first | (apply good_cut (s := x); rotate_left; clear_value x; rotate_left; subst x) | clear_value x | subst x) | split)

theorem good_execTelemetrySnapshot (now : ℕ) (s : State) (h_s : s.Good) :
    OkOut (execTelemetrySnapshot now s) := by
  unfold execTelemetrySnapshot
  repeat' (with_reducible first | assumption | apply good_State_telemetry | apply good_State_tick | apply okOut_next)

theorem good_State_shedWindow (s : State) (busy : ℕ) (h_s : s.Good) :
    (State.shedWindow s busy).Good := by
  unfold State.shedWindow
  repeat' (with_reducible first | assumption | apply good_State_noteHealth | apply good_State_fwRecord | apply good_ite | ((first | apply good_bytes | apply good_mk); first | assumption | apply good_State_noteHealth | apply good_State_fwRecord | apply good_ite) | intro _ | (extract_lets +onlyGivenNames x; first | (apply good_cut (s := x); rotate_left; clear_value x; rotate_left; subst x) | clear_value x | subst x) | split)

theorem good_execLoadShedWindow (busy : ℕ) (now : ℕ) (s : State) (h_s : s.Good) :
    OkOut (execLoadShedWindow busy now s) := by
  unfold execLoadShedWindow
  repeat' (with_reducible first | assumption | apply good_State_shedWindow | apply good_State_tick | apply okOut_next)

end Sys2Proof.Machine
end

