-- ==== Sys2Proof/Laws/GoodTranslate.lean ====
section
/-!
SUPPORT. GoodTranslate.lean: every operation and meaning of Translate.lean keeps the canonical form of memory.
-/

namespace Sys2Proof.Machine

set_option linter.all false

theorem good_rerun (i : Instr) (f : ℕ) (id : ℕ) (s : State) (h_s : s.Good) :
    (rerun i f id s).Good := by
  unfold rerun
  repeat' (with_reducible first | assumption | apply good_runEmb | apply good_effArm | apply good_effTrecv | apply good_effTallyRead | apply good_effConnQuery | apply good_effGateLoad | apply good_effQSample | apply good_effHerdCreate | apply good_effHerdQuery | apply good_effColl | apply good_effAttnOpen | apply good_State_attnWrite | apply good_effAttnFeed | apply good_effAttnQuery | apply good_effProgLoad | apply good_effProgLaunch | apply good_effProgQuery | apply good_effAtcPrefetch | apply good_effSliceInfo | apply good_effPartApply | apply good_effPartSave | apply good_effPartRestore | apply good_effPartQuery | apply good_effKeySeal | apply good_effKeyUnseal | apply good_effKeyStatus | apply good_effFrameTx | apply good_write | apply good_touchWrite | intro _ | (extract_lets +onlyGivenNames x; first | (apply good_cut (s := x); rotate_left; clear_value x; rotate_left; subst x) | clear_value x | subst x) | split)

theorem good_State_resumeOp (s : State) (f : ℕ) (id : ℕ) (sel : ℕ → Bool → Bool) (h_s : s.Good) :
    (State.resumeOp s f id sel).Good := by
  unfold State.resumeOp
  repeat' (with_reducible first | assumption | apply good_State_modOp | apply good_State_postRecv | apply good_rerun | apply good_ite | ((first | apply good_bytes | apply good_mk); first | assumption | apply good_State_modOp | apply good_State_postRecv | apply good_rerun | apply good_ite) | intro _ | (extract_lets +onlyGivenNames x; first | (apply good_cut (s := x); rotate_left; clear_value x; rotate_left; subst x) | (have hf := is_fun x; clear hf; subst x) | clear_value x | subst x) | split)

theorem good_State_resumeAt (s : State) (f : ℕ) (sel : ℕ → Bool → Bool) (h_s : s.Good) :
    (State.resumeAt s f sel).Good := by
  unfold State.resumeAt
  repeat' (with_reducible first | assumption | apply good_State_modOp | apply good_State_modFn | apply good_State_flushMore | apply good_State_modRing | apply good_writeWaiting | apply good_State_resumeOp | apply good_ite | apply good_foldl | ((first | apply good_bytes | apply good_mk); first | assumption | apply good_State_modOp | apply good_State_modFn | apply good_State_flushMore | apply good_State_modRing | apply good_writeWaiting | apply good_State_resumeOp | apply good_ite | apply good_foldl) | intro _ | (extract_lets +onlyGivenNames x; first | (apply good_cut (s := x); rotate_left; clear_value x; rotate_left; subst x) | (have hf := is_fun x; clear hf; subst x) | (have hf := is_mem x; clear hf; subst x) | clear_value x | subst x) | split)

theorem good_State_cacheXlate (s : State) (f : ℕ) (page : ℕ) (size : ℕ) (r : Bool) (w : Bool) (h_s : s.Good) :
    (State.cacheXlate s f page size r w).Good := by
  unfold State.cacheXlate
  repeat' (with_reducible first | assumption | apply good_ite | ((first | apply good_bytes | apply good_mk); first | assumption | apply good_ite) | intro _ | (extract_lets +onlyGivenNames x; first | (apply good_cut (s := x); rotate_left; clear_value x; rotate_left; subst x) | (have hf := is_fun x; clear hf; subst x) | (have hf := is_mem x; clear hf; subst x) | clear_value x | subst x) | split)

theorem good_State_atcSettle (s : State) (f : ℕ) (h_s : s.Good) :
    (State.atcSettle s f).Good := by
  unfold State.atcSettle
  repeat' (with_reducible first | assumption | apply good_State_atcTrim | apply good_ite | intro _ | split)

theorem good_State_xlateDone (s : State) (f : ℕ) (addr : ℕ) (reply : XlateReply) (h_s : s.Good) :
    (State.xlateDone s f addr reply).Good := by
  unfold State.xlateDone
  repeat' (with_reducible first | assumption | apply good_State_modFn | apply good_State_cacheXlate | apply good_State_atcSettle | apply good_State_resumeAt | apply good_State_denyPage | apply good_ite | ((first | apply good_bytes | apply good_mk); first | assumption | apply good_State_modFn | apply good_State_cacheXlate | apply good_State_atcSettle | apply good_State_resumeAt | apply good_State_denyPage | apply good_ite) | intro _ | (extract_lets +onlyGivenNames x; first | (apply good_cut (s := x); rotate_left; clear_value x; rotate_left; subst x) | (have hf := is_fun x; clear hf; subst x) | clear_value x | subst x) | split)

theorem good_execAtsTranslationCompletion (fn : Fn) (addr : ℕ) (reply : XlateReply) (s : State) (h_s : s.Good) :
    OkOut (execAtsTranslationCompletion fn addr reply s) := by
  unfold execAtsTranslationCompletion
  repeat' (with_reducible first | assumption | apply good_State_settle | apply good_State_xlateDone | apply okOut_next)

theorem good_State_atsEnable (s : State) (f : ℕ) (on : Bool) (stu : ℕ) (h_s : s.Good) :
    (State.atsEnable s f on stu).Good := by
  unfold State.atsEnable
  repeat' (with_reducible first | assumption | apply good_State_modAts | apply good_State_resumeAt | apply good_ite | ((first | apply good_bytes | apply good_mk); first | assumption | apply good_State_modAts | apply good_State_resumeAt | apply good_ite) | intro _ | (extract_lets +onlyGivenNames x; first | (apply good_cut (s := x); rotate_left; clear_value x; rotate_left; subst x) | (have hf := is_fun x; clear hf; subst x) | (have hf := is_mem x; clear hf; subst x) | clear_value x | subst x) | split)

theorem good_execAtsEnableWrite (fn : Fn) (ctl : AtsCtl) (s : State) (h_s : s.Good) :
    OkOut (execAtsEnableWrite fn ctl s) := by
  unfold execAtsEnableWrite
  repeat' (with_reducible first | assumption | apply good_State_settle | apply good_State_atsEnable | apply okOut_next)

theorem good_State_untranslated (s : State) (f : ℕ) (page : ℕ) (reply : ReadReply) (h_s : s.Good) :
    (State.untranslated s f page reply).Good := by
  unfold State.untranslated
  repeat' (with_reducible first | assumption | apply good_State_modAts | apply good_State_denyPage | apply good_State_resumeAt | apply good_ite | ((first | apply good_bytes | apply good_mk); first | assumption | apply good_State_modAts | apply good_State_denyPage | apply good_State_resumeAt | apply good_ite) | intro _ | (extract_lets +onlyGivenNames x; first | (apply good_cut (s := x); rotate_left; clear_value x; rotate_left; subst x) | (have hf := is_fun x; clear hf; subst x) | clear_value x | subst x) | split)

theorem good_execHostReadCompletion (link : Fin 4) (tag : ℕ) (gen : ℕ) (data : List Byte) (ans : ReadAns) (s : State) (h_s : s.Good) :
    OkOut (execHostReadCompletion link tag gen data ans s) := by
  unfold execHostReadCompletion
  repeat' (with_reducible first | assumption | apply good_State_settle | apply good_State_untranslated | apply good_State_hostReadCpl | apply good_ite | apply okOut_next | apply okOut_ite | intro _ | (extract_lets +onlyGivenNames x; first | (apply good_cut (s := x); rotate_left; clear_value x; rotate_left; subst x) | (have hf := is_fun x; clear hf; subst x) | clear_value x | subst x) | split)

end Sys2Proof.Machine
end

