-- ==== Sys2Proof/Laws/GoodEntryStart.lean ====
section
/-!
SUPPORT. GoodEntryStart.lean: every operation and meaning of EntryStart.lean keeps the canonical form of memory.
-/

namespace Sys2Proof.Machine

set_option linter.all false

theorem good_runEntry (i : Instr) (s : State) (h_s : s.Good) :
    OkOut (runEntry i s) := by
  unfold runEntry
  repeat' (with_reducible first | assumption | apply good_execNop | apply good_execFence | apply good_execRingInval | apply good_execRingCreate | apply good_execRingDestroy | apply good_execRingPause | apply good_execRingResume | apply good_execRingFlush | apply good_execDbgCfg | apply good_execCqModerate | apply good_execFrameTx | apply good_execFrameRxbuf | apply good_execWrite | apply good_execRead | apply good_execWriteNotify | apply good_execAtFadd | apply good_execAtFand | apply good_execAtFor | apply good_execAtFxor | apply good_execAtSwap | apply good_execAtCas | apply good_execTsend | apply good_execTrecv | apply good_execTrecvCancel | apply good_execMlistCreate | apply good_execMlistDestroy | apply good_execWinOpen | apply good_execWinRevoke | apply good_execTallyAlloc | apply good_execTallyFree | apply good_execTallyAdd | apply good_execTallySet | apply good_execTallyRead | apply good_execArm | apply good_execArmCancel | apply good_execConnConnect | apply good_execConnListen | apply good_execConnUnlisten | apply good_execConnClose | apply good_execConnAbort | apply good_execConnQuery | apply good_execConnModify | apply good_execGateLoad | apply good_execQStop | apply good_execQStart | apply good_execQSample | apply good_execHerdCreate | apply good_execHerdDestroy | apply good_execHerdQuery | apply good_execCollAllreduce | apply good_execCollReduceScatter | apply good_execCollAllgather | apply good_execCollBcast | apply good_execCollReduce | apply good_execCollAlltoall | apply good_execCollDispatch | apply good_execCollCombine | apply good_execCollBarrier | apply good_execAttnOpen | apply good_execAttnFeed | apply good_execAttnFinish | apply good_execAttnAbort | apply good_execAttnQuery | apply good_execProgLoad | apply good_execProgUnload | apply good_execProgLaunch | apply good_execProgStop | apply good_execProgQuery | apply good_execAtcPrefetch | apply good_execSliceRekey | apply good_execSliceInfo | apply good_execPartApply | apply good_execPartReset | apply good_execPartFreeze | apply good_execPartSave | apply good_execPartRestore | apply good_execPartThaw | apply good_execPartQuery | apply good_execKeySelSet | apply good_execKeySelClear | apply good_execKeyAdvance | apply good_execKeySeal | apply good_execKeyUnseal | apply good_execKeyStatus | apply okOut_next | apply good_write | apply good_touchWrite | intro _ | split)

theorem good_State_fetchPark (s : State) (f : ℕ) (k : ℕ) (page : ℕ) (h_s : s.Good) :
    (State.fetchPark s f k page).Good := by
  unfold State.fetchPark
  repeat' (with_reducible first | assumption | apply good_State_askXlate | apply good_State_modRing | ((first | apply good_bytes | apply good_mk); first | assumption | apply good_State_askXlate | apply good_State_modRing) | intro _)

theorem good_State_scanEnd (s : State) (f : ℕ) (k : ℕ) (h_s : s.Good) :
    (State.scanEnd s f k).Good := by
  unfold State.scanEnd
  repeat' (with_reducible first | assumption | apply good_State_modRing | ((first | apply good_bytes | apply good_mk); first | assumption | apply good_State_modRing) | intro _)

theorem good_State_startBytes (s : State) (fn : Fn) (k : ℕ) (n : ℕ) (h_s : s.Good) :
    OkOut (State.startBytes s fn k n) := by
  unfold State.startBytes
  repeat' (with_reducible first | assumption | apply good_runEntry | apply good_State_startEntry | apply okOut_next | intro _ | (extract_lets +onlyGivenNames x; first | (apply good_cut (s := x); rotate_left; clear_value x; rotate_left; subst x) | (have hf := is_fun x; clear hf; subst x) | clear_value x | subst x) | split)

theorem good_State_fetchEntry (s : State) (fn : Fn) (k : ℕ) (h_s : s.Good) :
    OkOut (State.fetchEntry s fn k) := by
  unfold State.fetchEntry
  repeat' (with_reducible first | assumption | apply good_State_scanEnd | apply good_State_fetchPark | apply good_State_sqMemError | apply good_State_startBytes | apply good_ite | apply okOut_next | apply okOut_ite | intro _ | (extract_lets +onlyGivenNames x; first | (apply good_cut (s := x); rotate_left; clear_value x; rotate_left; subst x) | clear_value x | subst x) | split)

theorem good_State_ringTook (s : State) (f : ℕ) (k : ℕ) (c : ℕ) (d : AMap ℕ) (h_s : s.Good) :
    (State.ringTook s f k c d).Good := by
  unfold State.ringTook
  repeat' (with_reducible first | assumption | apply good_State_modFn | ((first | apply good_bytes | apply good_mk); first | assumption | apply good_State_modFn) | intro _)

theorem good_State_entryStart (s : State) (fn : Fn) (k : ℕ) (h_s : s.Good) :
    OkOut (State.entryStart s fn k) := by
  unfold State.entryStart
  repeat' (with_reducible first | assumption | apply good_State_fetchEntry | apply good_State_ringTook | apply good_ite | apply okOut_next | apply okOut_ite | intro _ | (extract_lets +onlyGivenNames x; first | (apply good_cut (s := x); rotate_left; clear_value x; rotate_left; subst x) | clear_value x | subst x) | split)

theorem good_execEntryStart (fn : Fn) (ring : ℕ) (s : State) (h_s : s.Good) :
    OkOut (execEntryStart fn ring s) := by
  unfold execEntryStart
  repeat' (with_reducible first | assumption | apply good_State_entryStart | apply okOut_next)

end Sys2Proof.Machine
end

