-- ==== Sys2Proof/WellFormed.lean ====
section
/-!
DEFINITION. WellFormed.lean: what the operands of a command can hold at all, by the widths of the manual's fields. A command that
breaks one of these is not a value that the field could carry; values that a field carries and the manual refuses (RANGE, PROT)
are well formed, and their refusal is the command's meaning.
-/

namespace Sys2Proof

/-- A ring entry: ring number of 10 bits, GEN of 16 bits, 1 to 16 slots (R50). -/
def Entry.wf (e : Entry) : Bool :=
  decide (e.ring < 1024) && decide (e.gen < 2 ^ 16) && decide (1 ≤ e.slots) && decide (e.slots ≤ 16)

/-- A received packet's base header: the widths of R129. -/
def Rx.wf (r : Rx) : Bool :=
  decide (r.dconn < 2 ^ 20) && decide (r.dinc < 2 ^ 12) && decide (r.dgen < 2 ^ 16) && decide (r.kepoch < 2 ^ 16) &&
  decide (r.pctr < 2 ^ 32) && decide (r.psn < 2 ^ 32) && decide (r.msn < 2 ^ 32) && decide (r.cls < 8) && decide (r.path < 64) &&
  decide (r.plen < 2 ^ 16) && decide (r.tstamp < 2 ^ 32)

/-- A one-sided body: the widths of R80. -/
def OneSided.wf (b : OneSided) : Bool :=
  decide (b.conn < 2 ^ 20) && decide (b.laddr < 2 ^ 64) && decide (b.len < 2 ^ 32) && decide (b.wref < 2 ^ 32) &&
  decide (b.roff < 2 ^ 64) && decide (b.ltally < 2 ^ 16)

/-- A grant field: GSEQ of 16 bits, GWIN of 24 (R174). -/
def Grant.wf (g : Grant) : Bool := decide (g.gseq < 2 ^ 16) && decide (g.gwin < 2 ^ 24)

end Sys2Proof
end

