-- ==== Sys2Proof/Tests/Slice0.lean ====
section
/-!
SUPPORT. Slice0.lean: tests on small states (expected values from the manual's tables and worked examples), terms that WellFormed refuses, and for every
statement with hypotheses a state and operands that meet them.
-/

open Sys2Proof Sys2Proof.Machine

set_option exponentiation.threshold 512

/-! ### States -/

/-- Partition 0 ACTIVE with a little of everything. -/
def tRec : PartRec :=
  { blks := 1, rings := 16, herds := 2, tallies := 8, conns := 8, windows := 8, precv := 64, inflight := 64, sbase := 0, spages := 2, replay := 64,
    atc := 64, link := 0, ports := 1, share := 64 }

/-- Connection 3: ESTABLISHED with incarnation 2, its peer's handle 6; it may send. -/
def tConn : Conn :=
  { state := .established, cid := { inc := 2, peerIp := 0x0A000002, peerConn := 6, peerInc := 1, peerGen := 1, pmtu := 3, ports := 1, port0 := 0 },
    tx := { gwin := 1000, srtt := 10000, paths := [(0, {})] }, rx := { base := 100, top := 100 } }

/-- Its function: an admin ring, an ACTIVE ring pair 1, a PAUSED one 2 and a frame-form one 3. -/
def tFn : FnState :=
  { rings := [(0, newRing 6 6 0 0x10000 0x20000 false), (1, newRing 6 6 0 0x30000 0x40000 false),
              (2, { newRing 6 6 0 0x50000 0x60000 false with state := .paused }), (3, newRing 6 6 0 0x70000 0x80000 true)],
    admEn := true, sqLog := 6, cqLog := 6, admSq := 0x10000, admCq := 0x20000,
    tallies := [(0, { count := 5 }), (1, { count := 2 ^ 64 - 2 })], conns := [(3, tConn)],
    wins := [(2, { state := .open_, incarn := 9, base := 0x100000, length := 4096, rd := true, wr := true, atom := true, notify := true, nring := 1 })],
    mlists := [(5, { uq := 4 })] }

/-- The same for a physical function: an admin ring and a frame-form ring pair 1. -/
def tPf : FnState := { rings := [(0, newRing 6 6 0 0x10000 0x20000 false), (1, newRing 6 6 0 0x30000 0x40000 true)], admEn := true, sqLog := 6, cqLog := 6 }

/-- A running device. -/
def tS : State :=
  { State.reset with
    fns := [(0, tPf), (4, tFn)], parts := [(0, { state := .active, clean := true, cur := tRec })],
    links := [(0, { up := true, vfEnable := true })], mgmt := { running := true, bootOk := true } }

/-- tS with its instance changed. -/
def tF (g : FnState → FnState) : State := tS.modFn 4 g

/-- An entry of one slot on ring k of the instance, and of the physical function. -/
def tE (k : Nat) : Entry := ⟨.vf 0, k, 7, 1, 1, false⟩
def tP (k : Nat) : Entry := ⟨.pf 0, k, 7, 1, 1, false⟩

/-- Ready, as a computation. -/
def readyB (s : State) (e : Entry) (lens : Nat → Bool) (raw : Bool) : Bool :=
  s.canStart e.fn.idx e.ring && lens e.slots && decide (e.slots ≤ (s.ring e.fn.idx e.ring).sqSize - (s.ring e.fn.idx e.ring).head) && ! e.rsv &&
  decide (e.gen = (s.fn e.fn.idx).gen) && decide ((s.ring e.fn.idx e.ring).raw = raw)

theorem ready_of {s : State} {e : Entry} {lens : Nat → Bool} {raw : Bool} (h : readyB s e lens raw = true) : Ready s e lens raw := by
  simp only [readyB, Bool.and_eq_true, decide_eq_true_eq, Bool.not_eq_true'] at h
  obtain ⟨⟨⟨⟨⟨h1, h2⟩, h3⟩, h4⟩, h5⟩, h6⟩ := h
  exact ⟨h1, h2, h3, h4, h5, h6⟩

/-! ### Witnesses: rings (statements 1 to 5) -/

/-- RingStateCommands: on the admin ring, the last ring number of the quota is FREE, ring pair 1 ACTIVE, 2 PAUSED. -/
theorem wit_RingStateCommands :
    Ready tS { tE 0 with slots := 2 } len2 false ∧ Ready tS (tE 0) len1 false ∧ (tE 0).ring = 0 ∧ 15 < tS.qRings 4 ∧ (tS.ring 4 15).state = .free ∧
    (tS.ring 4 1).state = .active ∧ (tS.ring 4 2).state = .paused ∧ (tS.ring 4 1).flushOp = none :=
  ⟨ready_of (by decide), ready_of (by decide), by decide, by decide, by decide, by decide, by decide, by decide⟩

/-- RingQueueCommands: the whole ring of a PAUSED ring pair, without a flush and with one in progress, the last group and vector, and an event
that the new count meets. -/
theorem wit_RingQueueCommands :
    Ready tS { tE 1 with slots := 16 } (fun n => 1 ≤ n ∧ n ≤ 16) false ∧ Ready tS (tE 3) len1 true ∧ Ready tS (tE 0) len1 false ∧
    (2 ≠ (tE 0).ring ∧ (tS.ring 4 2).state = .paused ∧ 63 < (tS.ring 4 2).sqSize ∧ 64 ≤ (tS.ring 4 2).sqSize) ∧
    (31 < (if isPf 4 then 2 else 32) ∧ 63 < (if isPf 4 then 256 else 64)) ∧ ((tS.ring 4 1).state = .active ∧ (tS.ring 4 2).flushOp = none) ∧
    (let s := tS.modRing 4 2 fun r => { r with flushOp := some 3, armed := true, armedN := 1 }
     (s.ring 4 2).state = .paused ∧ (s.ring 4 2).flushOp.isSome = true ∧ (s.ring 4 2).armed = true ∧ atLeast1 (256 % 256) ≤ (s.ring 4 2).armedN) :=
  ⟨ready_of (by decide), ready_of (by decide), ready_of (by decide), by decide, by decide, by decide, by decide⟩

/-- RingEvents: a fence that covers nothing, a DRAINING ring pair without entries, one completion that waits, an armed event 3 µs old, a STATE
record 1 ms old, and a register fence that covers nothing. -/
def tOp (cmd : Instr) : Op := { (newOp tS (tE 1) 1 cmd) with id := 9 }
def tC : Compl := tS.compl 4 .ok 7 0 0 0
def tG : StateRec := ⟨4, 1, 0x71, 7, 0, 0, 1, 0⟩
theorem wit_RingEvents :
    (let s := (tF fun x => { x with ops := [tOp (.fence (tE 1) true false false)] }).modRing 4 1 fun r => { r with fence := some 9 }
     (s.ring 4 1).fence = some 9 ∧ s.op? 4 9 = some (tOp (.fence (tE 1) true false false)) ∧ s.fenceMet 4 [] false (some 1) 9 = true) ∧
    (let s := tS.modRing 4 1 fun r => { r with state := .draining, destroy := some 9 }
     (s.ring 4 1).state = .draining ∧ (∀ o ∈ (s.fn 4).ops, o.ring ≠ 1) ∧ (s.ring 4 1).destroy = some 9) ∧
    (let s := tS.modRing 4 1 fun r => { r with waiting := [tC] }
     (s.ring 4 1).waiting = [tC] ∧ s.cqReady 4 1 tC = true ∧ (s.ring 4 1).flushOp = none) ∧
    (let s := tS.modRing 4 1 fun r => { r with armed := true, armedAt := some 0, time := 3 }
     (s.ring 4 1).armed = true ∧ (s.ring 4 1).armedAt = some 0 ∧ (s.ring 4 1).time ≠ 0 ∧ 0 + 1000 * (s.ring 4 1).time ≤ (s.tick 3000).now) ∧
    (let s := { tS with jrnl := { tS.jrnl with gather := [tG] } }
     s.jrnl.gather = [tG] ∧ tG.at_ + 1000000 ≤ (s.tick 1000000).now) ∧
    (tS.answers 4 = true ∧ tS.jrnl.full = false) ∧
    (let x : RegFence := ⟨5, false, 0, true, []⟩
     let s := tF fun y => { y with fences := [x] }
     (s.fn 4).fences = x :: [] ∧ s.fenceMet 4 x.covered x.remoteVis none (s.fn 4).nextOp = true) := by
  decide

/-- Doorbells: an ACTIVE ring pair with nothing masked, an event to arm on a fresh completion, a group without pending or masked bits, an admin
ring not yet enabled and one in ERROR. -/
theorem wit_Doorbells :
    (tS.answers 4 = true ∧ tS.jrnl.full = false ∧ (tS.ring 4 1).state = .active ∧ (tS.part (partOf 4)).state = .active ∧
     (agetD (tS.fn 4).dbgs (1 / 32) {}).mask.testBit (1 % 32) = false ∧ (tS.ring 4 1).cqTail ≠ 1 % 65536 % (tS.ring 4 1).cqSize) ∧
    ((agetD (tS.fn 4).dbgs 0 {}).pend = 0 ∧ (agetD (tS.fn 4).dbgs 0 {}).signals = 0 ∧
     (let d := agetD (tS.fn 4).dbgs 0 {}
      { d with evt := d.evt &&& ((2 &&& groupBits tS 4 0) ^^^ 0xFFFFFFFF) }.signals = 0)) ∧
    (let s := tF fun x => { x with dbgs := [(0, { evt := 2 })] }
     let d := agetD (s.fn 4).dbgs 0 {}
     { d with emask := groupPut s 4 0 d.emask 0 }.signals ≠ 0 ∧ s.answers 4 = true) ∧
    (let s := tF fun x => { x with admEn := false }
     s.answers 4 = true ∧ (s.fn 4).admEn = false) ∧
    (let s := tS.modRing 4 0 fun r => { r with state := .error }
     s.answers 4 = true ∧ (s.fn 4).admEn = true ∧ (s.ring 4 0).state = .error ∧ (s.fn 4).sqLog < 32 ∧ (s.fn 4).cqLog < 32) := by
  decide

/-- EntryStarts: a NOP of one slot, written at the head of ring pair 1 with PHASE 1, the same slot with PHASE 0, the end of a lap, and no ring
pair that competes. The header is that of R50. -/
def tHdr (phase : Nat) : List Byte := leBytes 8 (7 + 2 ^ 32 * 1 + 2 ^ 63 * phase)
def tScan (phase : Nat) : State := (tS.hostWrite 4 0x30000 (tHdr phase)).modRing 4 1 fun r => { r with scan := true, tail := 1 }
def tTook (s : State) : State := s.ringTook 4 1 0 [(0, 8306)]
theorem wit_EntryStarts :
    (tScan 1).ringTurn 4 = some (1, 0, [(0, 8306)]) ∧
    (let u := tTook (tScan 1)
     let r := u.ring 4 1
     r.lap ≠ some 0 ∧ u.slotMiss 4 1 (r.uncached 1) = none ∧ u.slotPoison 4 1 (r.uncached 1) = false ∧
     hdrPhase (leNat (u.slotBytes 4 1 r.head 8)) = r.phase) ∧
    decodeEntry (.vf 0) 1 (leNat ((tTook (tScan 1)).entryBytes 4 1 1)) = some (.nop (tE 1)) ∧
    Ready (tTook (tScan 1)) (tE 1) (fun n => 1 ≤ n ∧ n ≤ 16) false ∧
    ((tScan 0).ringTurn 4 = some (1, 0, [(0, 8306)]) ∧
     (let u := tTook (tScan 0)
      (u.ring 4 1).lap ≠ some 0 ∧ hdrPhase (leNat (u.slotBytes 4 1 0 8)) ≠ (u.ring 4 1).phase)) ∧
    (let s := (tScan 1).modRing 4 1 fun r => { r with lap := some 0 }
     s.ringTurn 4 = some (1, 0, [(0, 8306)]) ∧ ((tTook s).ring 4 1).lap = some 0) ∧
    tS.ringTurn 4 = none :=
  ⟨by decide, by decide, by rfl, ready_of (by decide), by decide, by decide, by decide⟩

/-! ### Witnesses: remote operations (statements 6 to 13) -/

/-- A body that names connection 3 and window 2. -/
def tB (len : Nat) : OneSided := ⟨3, false, false, 0x200000, len, 2 + 9 * 2 ^ 18, 0, 1, 2, 0⟩

/-- OneSidedCommands: a WRITE of 1 GiB and of nothing, an atomic of 8 bytes, a TSEND of 8,192 bytes and one of one byte more; translation
off, and on with a page that is missing. -/
theorem wit_OneSidedCommands :
    Ready tS (tE 1) len1 false ∧
    (let t := tS.begun (tE 1) 0x040 (.nop (tE 1))
     t.opChecks 4 (tB (2 ^ 30)) false (Ext.data (2 + 9 * 2 ^ 18) 0 (2 ^ 30) 0 false) (t.firstPlen 4 3 (2 ^ 30)) = [] ∧
     t.opChecks 4 (tB 0) false (Ext.data (2 + 9 * 2 ^ 18) 0 0 0 true) (t.firstPlen 4 3 0) = [] ∧
     t.opChecks 4 (tB 64) false (Ext.readReq (2 + 9 * 2 ^ 18) 0 64) 0 = [] ∧
     t.opChecks 4 (tB 8) true (Ext.atomicReq (2 + 9 * 2 ^ 18) 0 0x48 1 2) 0 = [] ∧
     t.opChecks 4 { tB 8192 with wref := 4095 } false (Ext.tsend 4095 false 0 8192 0) (t.firstPlen 4 3 8192) = [] ∧
     t.opChecks 4 { tB 8193 with wref := 4095 } false (Ext.tsend 4095 true 0 8193 0) 0 = [] ∧
     t.gateChecks 4 3 (.rdvResp 0 0) (t.firstPlen 4 3 8193) = [] ∧ t.missing 4 0x200000 8 true = none) ∧
    (let s := tF fun x => { x with ats := { x.ats with enable := true } }
     let t := s.begun (tE 1) 0x48 (.nop (tE 1))
     readyB s (tE 1) len1 false = true ∧ t.opChecks 4 (tB 8) true (Ext.atomicReq (2 + 9 * 2 ^ 18) 0 0x48 1 2) 0 = [] ∧
     (locGranules (tB 8) true).findSome? (fun g => (t.missing 4 g.1 g.2.1 g.2.2).map fun p => (p, g.2.2)) = some (0x200, true)) :=
  ⟨ready_of (by decide), by decide, by decide⟩

/-- WindowAndListCommands: a body that WIN_OPEN takes, a reference to the OPEN window, list numbers 0 and 4,095, and a receive. -/
def tW : WinOpenBody := ⟨0x300000, 4096, true, true, true, true, false, 1, false, 0, 0, false⟩
def tR : TrecvBody := ⟨5, true, 0, 0x400000, 4096, false, 0, 0, 0⟩
theorem wit_WindowAndListCommands :
    Ready tS (tE 1) len1 false ∧
    (let t := tS.begun (tE 1) 0x060 (.winOpen (tE 1) tW)
     t.winChecks 4 tW = [] ∧ t.pickWindow 4 = some 0) ∧
    ((tS.win 4 2).state = .open_ ∧ (tS.win 4 2).incarn = (2 + 9 * 2 ^ 18) / 2 ^ 18 ∧ (2 + 9 * 2 ^ 18) % 2 ^ 18 = 2 ∧ (tS.win 4 2).places = 0) ∧
    (0 < 60 ∧ tS.precvUsed 4 + 60 ≤ tS.qPrecv 4 ∧ tS.sliceTaken 4 + 8192 * 60 ≤ tS.sliceLen 4 ∧ tS.mlist? 4 0 = none ∧ tS.mlist? 4 4095 = none) ∧
    (tS.mlist? 4 5).isSome ∧
    (let t := tS.begun (tE 1) 0x051 (.trecv (tE 1) tR)
     t.recvChecks 4 tR = [] ∧ t.mlist? 4 5 = some { uq := 4 } ∧ (∀ u ∈ ({ uq := 4 } : MList).unexp, False) ∧ t.boundAt 4 5 (tS.opId (tE 1)) = none ∧ tS.precvUsed 4 < tS.qPrecv 4) :=
  ⟨ready_of (by decide), by decide, by decide, by decide, by decide, by decide⟩

/-- TallyCommands: the lowest free index, a count just below saturation, and a tally that a window binds. -/
theorem wit_TallyCommands :
    Ready tS (tE 1) len1 false ∧ firstGap ((tS.fn 4).tallies.map (·.1)) 0 < tS.qTallies 4 ∧
    (aget (tS.fn 4).tallies 1 = some { count := 2 ^ 64 - 2 } ∧ tS.tallyBusy 4 1 = false ∧ Usable tS 4 [(0, 8, true)]) ∧
    (let s := tF fun x => { x with wins := [(2, { state := .open_, btally := some 1 })] }
     aget (s.fn 4).tallies 1 = some { count := 2 ^ 64 - 2 } ∧ ∃ w ∈ (s.fn 4).wins, w.2.state ≠ .closed ∧ w.2.btally = some 1) ∧
    (let s := tF fun x => { x with armed := [⟨3, .tally 1 7, .nop (tE 1), 0x40, 0⟩] }
     aget (s.fn 4).tallies 1 = some { count := 2 ^ 64 - 2 } ∧ ∃ a ∈ (s.fn 4).armed, ∃ n : Nat, a.trig = .tally 1 n) :=
  ⟨ready_of (by decide), by decide, by decide, ⟨by decide, (2, { state := .open_, btally := some 1 }), by decide, by decide, by decide⟩,
   ⟨by decide, ⟨3, .tally 1 7, .nop (tE 1), 0x40, 0⟩, List.mem_cons_self, 7, rfl⟩⟩

/-- ArmedRequests: an embedded TALLY_ADD with each trigger, at a threshold just met and just missed, and a time just reached; and an
embedded WRITE whose page is missing. -/
def tM : Embed := ⟨0x072, 1, 1, false, false, tB 0, 0, 0, 1⟩
def tMw : Embed := ⟨0x040, 1, 1, false, false, tB 64, 0, 0, 0⟩
def tE2 : Entry := { tE 1 with slots := 2 }
theorem wit_ArmedRequests :
    Ready tS tE2 (fun n => 2 ≤ n ∧ n ≤ 16) false ∧ Ready tS (tE 1) len1 false ∧ embInstr tM tE2 = some (.tallyAdd (tE 1) 0 1) ∧
    (let t := tS.begun tE2 0x080 (.nop tE2)
     embHeader tE2 tM ++ t.embChecks 4 (.tallyAdd (tE 1) 0 1) ++ t.trigChecks 4 (.tally 0 6) = [] ∧ t.tallyCount 4 0 < 6 ∧ 5 ≤ t.tallyCount 4 0 ∧
     t.trigChecks 4 (.msg tR) = [] ∧ t.trigChecks 4 (.time 1) = [] ∧ tS.clk.time < 1 ∧ 0 ≤ tS.clk.time) ∧
    (let o := tOp (.nop (tE 1))
     let s := tF fun x => { x with armed := [⟨9, .time 1000, .nop (tE 1), 0x40, 0⟩], ops := [o] }
     1000 ≤ (s.tick 1000).clk.time ∧ s.op? 4 9 = some o ∧ o.ring = 1 ∧ o.tag = 7) :=
  ⟨ready_of (by decide), ready_of (by decide), by rfl, by decide, by decide⟩
theorem wit_ArmedRequests_page :
    let s := tF fun x => { x with ats := { x.ats with enable := true } }
    let i := Instr.write (tE 1) (tB 64)
    Ready s tE2 (fun n => 2 ≤ n ∧ n ≤ 16) false ∧ embInstr tMw tE2 = some i ∧
    (let t := s.begun tE2 0x080 (.nop tE2)
     embHeader tE2 tMw ++ t.embChecks 4 i ++ t.trigChecks 4 (.time 1) = [] ∧
     (embGranules i).findSome? (fun g => (t.missing 4 g.1 g.2.1 g.2.2).map fun p => (p, g.2.2)) = some (0x200, false)) :=
  ⟨ready_of (by decide), by rfl, by decide⟩

theorem pair_of {α : Type} {p : Bool × α} (h : p.1 = true) : p = (true, p.2) := by
  obtain ⟨a, b⟩ := p
  cases h
  rfl

/-- A packet for connection 3 with PSN p and n payload bytes. -/
def tRx (p : Nat) (n : Nat := 0) : Rx :=
  { port := 0, bp := 0, part := 0, dconn := 3, dinc := 2, dgen := 1, kepoch := 0, pctr := 0, psn := p, msn := 0, first := true, last := true, ackreq := false,
    cls := 0, path := 0, plen := n, tstamp := 0, ce := false, authOk := true }
/-- tS with a full ingress buffer at port 0. -/
def tFull : State := tS.modPort 0 fun x => { x with ingress := 1048576, ingAt := 0 }

/-- A sequenced packet at the edges of the window: RCV_BASE is 100; 99 is a duplicate, 100 + 2^20 is outside, 101 was
received before; one of another length, and one that finds the ingress buffer full. -/
def tGot : State := tF fun x => { x with conns := [(3, { tConn with rx := { tConn.rx with base := 100, top := 102, got := [101] } })] }
theorem wit_ReceiveWindow :
    sequenced (.nakReceive (tRx 99) (.vf 0) 0 .range 0) = some (tRx 99, 0) ∧ (tRx 99 1).plen ≠ 0 ∧ tFull.ingressRoom 0 0 = false ∧
    tGot.hear (tRx 99) true = (true, (tGot.hear (tRx 99) true).2) ∧ tGot.hear (tRx 101) true = (true, (tGot.hear (tRx 101) true).2) ∧
    tGot.hear (tRx (100 + 2 ^ 20)) true = (true, (tGot.hear (tRx (100 + 2 ^ 20)) true).2) ∧
    (2 ^ 20 ≤ modSub (2 ^ 32) 99 100 ∧ 1 ≤ modSub (2 ^ 32) 100 99 ∧ modSub (2 ^ 32) 100 99 ≤ 2 ^ 20) ∧
    (modSub (2 ^ 32) 101 100 < 2 ^ 20 ∧ 100 + modSub (2 ^ 32) 101 100 ∈ (((tGot.hear (tRx 101) true).2).conn 4 3).rx.got) ∧
    (2 ^ 20 ≤ modSub (2 ^ 32) (100 + 2 ^ 20) 100 ∧ 2 ^ 20 < modSub (2 ^ 32) 100 (100 + 2 ^ 20)) :=
  ⟨rfl, by decide, by decide, pair_of (by decide), pair_of (by decide), pair_of (by decide), by decide, by decide, by decide⟩

/-- PacketForFreeContext: handle 4 is FREE; never answered, answered 100 µs before, and answered at this moment. -/
theorem wit_PacketForFreeContext :
    sequenced (.nakReceive { tRx 99 with dconn := 4 } (.vf 0) 0 .range 0) = some ({ tRx 99 with dconn := 4 }, 0) ∧
    tS.ingressTake 0 0 (0 + 118) = (true, (tS.ingressTake 0 0 (0 + 118)).2) ∧
    (tS.err.fatal = false ∧ tS.powered = true ∧ (tS.part 0).state ≠ .frozen ∧ (tS.part 0).state ≠ .restoring ∧
     (tS.conn 4 4).state = .free ∧ aget (tS.fn 4).abortAt 4 = none ∧ (! isPf 4 && decide (tS.now < (tS.part (partOf 4)).quietTil)) = false) ∧
    (let s := { tF (fun x => { x with abortAt := [(4, 0)] }) with clk := { elapsed := 100000 } }
     aget (s.fn 4).abortAt 4 = some 0 ∧ 0 + 100000 ≤ s.now) ∧
    (let s := tF fun x => { x with abortAt := [(4, 0)] }
     aget (s.fn 4).abortAt 4 = some 0 ∧ s.now < 0 + 100000) :=
  ⟨rfl, pair_of (by decide), by decide, by decide, by decide⟩

/-! ### Witnesses: received packets and connections -/

/-- The state the header checks leave, with the connection seen active. -/
def tHear (s : State) (rx : Rx) : State :=
  (s.hear rx true).2.modConn (4 + rx.part.val) rx.dconn fun c => { c with rx := { c.rx with activeAt := some (s.hear rx true).2.now } }

/-- Window 2 open to messages, and a message of two 16-byte packets of which one has been placed. -/
def tIn : InMsg := { msn := 0, ext := .data (2 + 9 * 2 ^ 18) 0 32 0 false, first := 100, npk := 2, got := 1, held := true }
def tGot2 : State := tF fun x => { x with conns := [(3, { tConn with rx := { tConn.rx with msgs := [tIn] } })] }

theorem pair_no {α : Type} {p : Bool × α} (h : p.1 = false) : p = (false, p.2) := by
  obtain ⟨a, b⟩ := p
  cases h
  rfl

/-- SequencedPackets: PSN 100 is the window's lowest and 100 + 2^20 − 1 its highest; a whole DATA message, and the first of two packets; and one
whose page is missing. -/
theorem wit_SequencedPackets :
    (tS.hear (tRx 100) true = (true, (tS.hear (tRx 100) true).2) ∧ modSub (2 ^ 32) 100 100 < 2 ^ 20 ∧
     100 ∉ ((tHear tS (tRx 100)).conn 4 3).rx.got) ∧
    (tS.hear (tRx (100 + 2 ^ 20 - 1)) true = (true, (tS.hear (tRx (100 + 2 ^ 20 - 1)) true).2) ∧
     modSub (2 ^ 32) (100 + 2 ^ 20 - 1) 100 < 2 ^ 20 ∧ 100 + 2 ^ 20 - 1 ∉ ((tHear tS (tRx (100 + 2 ^ 20 - 1))).conn 4 3).rx.got) ∧
    (let t := tHear tS (tRx 100)
     let a := t.admitMsg 4 3 100 0 1 0 (.atomicReq (2 + 9 * 2 ^ 18) 8 0x48 1 2) (t.winStatus 4 3 (2 + 9 * 2 ^ 18) 8 8 false false true false) (some 2)
     a.locMiss 4 (a.win 4 2).slice ((a.win 4 2).base + 8) 8 true = none ∧ (a.inMsg 4 3 0).isSome) ∧
    tS.hear (tRx 100 1) true = (true, (tS.hear (tRx 100 1) true).2) ∧
    (∀ len ∈ [1, 2], ∃ y z,
      let t := tHear tS (tRx 100 1)
      let a := t.admitMsg 4 3 100 (t.pktIdx 4 3 0) len 0 (.data (2 + 9 * 2 ^ 18) 0 len 0 false)
        (t.winStatus 4 3 (2 + 9 * 2 ^ 18) 0 len false true false false) (some 2)
      let w := a.win 4 2
      let b := (a.locWrite 4 w.slice (w.base + 0) [7]).modIn 4 3 0 fun y => { y with park := none, placed := y.placed + 1, got := y.got + 1 }
      a.inMsg 4 3 0 = some y ∧ y.dead = false ∧ a.locMiss 4 w.slice (w.base + 0) 1 true = none ∧ b.inMsg 4 3 0 = some z ∧
      ((z.held = true ∧ z.npk ≤ z.got) ↔ len = 1)) ∧
    (let s := tF fun x => { x with ats := { x.ats with enable := true } }
     let t := tHear s (tRx 100 1)
     s.hear (tRx 100 1) true = (true, (s.hear (tRx 100 1) true).2) ∧ modSub (2 ^ 32) 100 100 < 2 ^ 20 ∧ 100 ∉ (t.conn 4 3).rx.got ∧
     t.dataBody 4 3 100 0 (2 + 9 * 2 ^ 18) 0 0 1 false 0 [7] = (false, (t.dataBody 4 3 100 0 (2 + 9 * 2 ^ 18) 0 0 1 false 0 [7]).2)) ∧
    tS.hear (tRx 100 8) true = (true, (tS.hear (tRx 100 8) true).2) := by
  refine ⟨⟨pair_of (by decide), by decide, by decide⟩, ⟨pair_of (by decide), by decide, by decide⟩, by decide, pair_of (by decide), ?_,
    ⟨pair_of (by decide), by decide, by decide, pair_no (by decide)⟩, pair_of (by decide)⟩
  intro len h
  simp only [List.mem_cons, List.not_mem_nil, or_false] at h
  rcases h with rfl | rfl
  · exact ⟨_, _, rfl, by decide, by decide, rfl, by decide⟩
  · exact ⟨_, _, rfl, by decide, by decide, rfl, by decide⟩

/-- A herd of two members, this one of rank 0 and its peer's connection 3; and a session 0 that accepts blocks of one token. -/
def tHb : HerdBody := ⟨2, 0, 1, 0, 0, 1, 1, 3, 0, false, 0, 0xFF, 7, 0x500000, 0, 64, 10⟩
def tHerd (st : HerdSt) : Herd :=
  { state := st, body := some tHb, membs := [⟨0x0A000001, 4791, 0⟩, ⟨0x0A000002, 4791, 0⟩], conns := [(1, 3)] }
def tAb : AttnBody :=
  ⟨0, 5, 0, 1, 1, 1, 1, 1, false, false, false, false, false, 4, 1, 0x3F800000, 0, 1, false, false, false, false, false, 1, 0x600000, 0x610000, 0x620000,
   128, 128, 0, 0, 0, 0⟩
def tSess (st : SessSt) : Sess := { state := st, body := some tAb, key := 5, loaded := true }
def tH (st : HerdSt) : State :=
  tF fun x => { x with conns := [(3, { tConn with cid := { tConn.cid with herd := some (0, 1) } })], herds := [(0, tHerd st)], sess := [(0, tSess .accepting)] }

/-- HerdAndKvPackets: a collective's packet past its herd's number, a barrier token of the number to come, and the one block a session takes;
a KIND just above the reserved ones' start, and a block with a reserved field set. -/
def tBx : BulkExt := ⟨0, 0, 2 ^ 32 - 1, 0, 1, 0, 0, 1, 0, 0, 0, 0, false⟩
def tKx : KvExt := ⟨false, 0 + 5 * 2 ^ 6, 0, 1, 0, 1, 0, 0, 64, 0, false⟩
theorem wit_HerdAndKvPackets :
    let s := tH .running
    let t := tHear s (tRx 100)
    s.hear (tRx 100) true = (true, (s.hear (tRx 100) true).2) ∧ modSub (2 ^ 32) 100 100 < 2 ^ 20 ∧ 100 ∉ (t.conn 4 3).rx.got ∧
    t.herdOf 4 3 = some (0, 1) ∧ t.collData 4 0 3 tBx [] = (true, (t.collData 4 0 3 tBx []).2) ∧ t.holdRoom 4 0 0 0 = true ∧
    tBx.kind < 4 ∧ t.tokenRoom 4 0 ⟨0, 0, 0, 0, 0, none, 0, 0, []⟩ = true ∧ 6 ≤ { tBx with kind := 6 }.kind ∧ { tKx with rsv := true }.rsv = true ∧
    tKx.rsv = false ∧ t.inMsg 4 3 0 = none ∧ t.kvAdmit 4 (some 3) 0 tKx = (.admitted, (t.kvAdmit 4 (some 3) 0 tKx).2) :=
  ⟨pair_of (by decide), by decide, by decide, by decide, pair_of (by decide), by decide, by decide, by decide, by decide, by decide, by decide, by decide, by rfl⟩

/-- AcknowledgementAndTimers: a packet outside the sequence, and every timer of connection 3 at the first moment it acts. -/
def tSent : Sent :=
  { xpsn := 7, msn := 0, ext := .readReq 0 0 8, src := .none, plen := 0, first := true, last := true, cost := 128, path := 0, port := 0, idx := 0, at_ := 0,
    rto := 50000, for_ := .op 0 }
def tTm : Conn :=
  { tConn with rx := { tConn.rx with firstAt := some 0 }, tx := { tConn.tx with sent := [tSent] }, cid := { tConn.cid with paths := 2 } }
def tTmS : State := tF fun x => { x with conns := [(3, tTm)] }
theorem wit_AcknowledgementAndTimers :
    tS.hear { tRx 0 with ackreq := true } false = (true, (tS.hear { tRx 0 with ackreq := true } false).2) ∧
    tS.hear (tRx 0) false true = (true, (tS.hear (tRx 0) false true).2) ∧
    (tTm.rx.firstAt = some 0 ∧ 0 + (tTmS.tick tTmS.ackDelay).ackDelay ≤ (tTmS.tick tTmS.ackDelay).now ∧ tTm.state.live = true) ∧
    (tTm.tx.sent = [tSent] ∧ 7 % 2 ^ 32 = tSent.xpsn % 2 ^ 32 ∧ tSent.out = true ∧ tSent.acked = false ∧ tSent.lost = false ∧ tSent.at_ + tSent.rto ≤ (tTmS.tick 50000).now) ∧
    (tTm.tx.paths = [(0, {})] ∧ ({} : Path).incl = true ∧ tTm.tx.intervalAt + tTm.tx.srtt ≤ (tTmS.tick 10000).now) ∧
    (let c := { tTm with tx := { tTm.tx with paths := [(0, {}), (1, { incl := false })] } }
     (c.path 1).incl = false ∧ 1 < c.cid.paths ∧ (c.path 1).probeAt + min 100000 (16 * c.tx.srtt) ≤ (tTmS.tick 100000).now) ∧
    (let c := { tTm with tm := { tTm.tm with receipt := 0, probeAt := 0 }, rx := { tTm.rx with msgs := [tIn] } }
     let s := (tF fun x => { x with conns := [(3, c)] }).tick 1000000
     c.state.live = true ∧ c.inboundOpen = true ∧ c.tm.receipt + 1000000 ≤ s.now ∧ c.tm.probeAt + 1000000 ≤ s.now) :=
  ⟨pair_of (by decide), pair_of (by decide), by decide, by decide, by decide, by decide, by decide⟩

/-- ConnectionCommands: a CONN_CONNECT body that passes its checks, ring pair 1 for a listener, and the states each of the others asks for. -/
def tCb : ConnectBody := ⟨0x0A000002, 9, 0, 1, 1, 3, 0, 0, 0, false, 0, 0xFF⟩
def tSa : State := tS.modPart 0 fun p => { p with addrs := [(0, { ip := 0x0A000001, ports := 1, valid := true })] }
theorem wit_ConnectionCommands :
    (let s := tSa
     let e := { tE 1 with slots := 2 }
     Ready s e len2 false ∧ (s.begun e 0x100 (.connConnect e tCb)).connectChecks 4 tCb = [] ∧
     (s.begun e 0x100 (.connConnect e tCb)).pickHandle 4 = some 0) ∧
    (Ready tSa (tE 1) len1 false ∧ 1 < tSa.qRings 4 ∧ (tSa.ring 4 1).state ≠ .free ∧ (tSa.ring 4 1).state ≠ .draining ∧ isPf 4 = false ∧
     (tSa.addrEnt (partOf 4) 0).valid = true ∧ tSa.listener? 4 9 0 = none) ∧
    (let s := tF fun x => { x with listeners := [⟨9, 0, 1, 0⟩] }
     Ready s (tE 1) len1 false ∧ s.listener? 4 9 0 = some ⟨9, 0, 1, 0⟩) ∧
    (tSa.known 4 3 = true ∧ (tSa.conn 4 3).state = .established ∧ Usable tSa 4 [(0, 64, true)] ∧ 64 ≤ 64 ∧ (tSa.addrEnt (partOf 4) (tSa.conn 4 3).cid.laddrIdx).valid = true ∧
     1 &&& (255 ^^^ (tSa.addrEnt (partOf 4) (tSa.conn 4 3).cid.laddrIdx).ports) = 0 ∧
     (let u := (tSa.begun (tE 1) 0x106 (.connModify (tE 1) 3 1 64)).modConn 4 3 fun c =>
        { c with cid := { c.cid with ports := 1, paths := 64 },
                 tx := { c.tx with paths := (List.range 64).map fun i => (i, agetD c.tx.paths i {}), rr := 0 } }
      (u.conn 4 3).included ≠ [])) ∧
    (let s := tF fun x => { x with conns := [(3, { tConn with state := .lost })] }
     Ready s (tE 1) len1 false ∧ s.known 4 3 = true ∧ (s.conn 4 3).state = .lost) :=
  ⟨⟨ready_of (by decide), by decide, by decide⟩, ⟨ready_of (by decide), by decide⟩, ⟨ready_of (by decide), by decide⟩, by decide,
   ⟨ready_of (by decide), by decide, by decide⟩⟩
/-- HandshakePackets: a SYN no listener knows and one that a listener takes, on a partition with no connection yet; a SYN_ACK for the
CONNECTING context; the packets of connection 3, a busy refusal among them; its rekey, its key first in turn; and the ABORT that a reset repeats. -/
def tHs (l : List Listener) : State := tSa.modFn 4 fun x => { x with conns := [], listeners := l }
def tSyn (s : State) : Syn := ⟨0, 0, 0, 0x0A000002, 1, 6, 1, 1, 12, 9, 3, 0, 1, 77, s.cchk 12 0, none, 0, none, true, 7⟩
def tSynAck : SynAck := ⟨.vf 0, 3, 2, 1, 6, 1, 1, 88, ⟨1, 1000, false⟩, true, 0, 7⟩
def tConnecting : Conn := { tConn with state := .connecting, cid := { tConn.cid with op := some 4, init := true, peerIp := 0x0A000002 } }
def tCs (c : Conn) : State := tF fun x => { x with conns := [(3, c)] }
/-- A class-7 packet of connection 3: a PROBE on path 0. -/
def tPk : Pkt :=
  { peerIp := 0x0A000002, srcIp := 0x0A000001, dstPort := 0xB7FC, vid := none, pcp := 6, dscp := 46, ect := false, part := 0, dconn := 6, dinc := 1, dgen := 1,
    kepoch := 0, pctr := 0, psn := 0, wep := false, msn := 0, first := true, last := false, ackreq := true, retx := false, cls := 7, path := 0,
    srcPort := 0xC000, tstamp := 0, ext := .probe, payload := [] }
def tCt : CtlPkt := { fn := 4, part := 0, conn := some (3, 2), path := 0, at_ := 0, dev := 12, pkt := tPk }
theorem contrib_none {s : State} {p d : Nat} (h : (s.part p).slots = []) (n : s.notc = true) : s.matchContrib p d (s.cchk d 0) = some (0xFF, none) := by
  have e : ∀ i, agetD (s.part p).slots i {} = {} := fun i => by rw [h]; rfl
  unfold State.matchContrib
  simp only [e]
  exact if_pos ⟨n, trivial⟩
theorem learnMap_unknown {s : State} {ip d : Nat} (h : s.sec.peers = []) : s.learnMap ip d = s := by
  unfold State.learnMap
  rw [if_pos (by simp [h])]
theorem wit_HandshakePackets_syn (l : List Listener) (hl : l = [] ∨ l = [⟨9, 0, 1, 0⟩]) :
    let s := tHs l
    let u := (s.ingressTake 0 7 182).2
    let v := u.learnMap 0x0A000002 12
    let x := tSyn v
    s.ingressTake x.port.val x.wcls 182 = (true, u) ∧ x.authOk = true ∧ u.family x.peerIp = true ∧ (u.part x.part.val).state = .active ∧
    u.err.fatal = false ∧ u.noKeys = false ∧ x.resume = none ∧ v.synTwin 4 x = none ∧ x.herdLabel = none ∧
    (l = [] → v.listener? 4 x.service x.laddrIdx = none) ∧
    (l = [⟨9, 0, 1, 0⟩] → v.listener? 4 x.service x.laddrIdx = some ⟨9, 0, 1, 0⟩ ∧ v.matchContrib x.part.val x.peerDev x.cchk = some (0xFF, none) ∧
      v.pickHandle 4 = some 0 ∧ (v.fn 4).conns = [] ∧ 0 < v.qConns 4) := by
  dsimp only
  rcases hl with rfl | rfl
  · rw [learnMap_unknown (by rfl)]
    exact ⟨pair_of (by decide), rfl, by decide, by decide, by decide, by decide, rfl, by rfl, rfl, fun _ => by decide, by decide⟩
  · rw [learnMap_unknown (by rfl)]
    exact ⟨pair_of (by decide), rfl, by decide, by decide, by decide, by decide, rfl, by rfl, rfl, by decide,
      fun _ => ⟨by rfl, contrib_none (by rfl) (by decide), by decide, by decide, by decide⟩⟩
theorem wit_HandshakePackets :
    (let s := tCs tConnecting
     let u := (s.ingressTake 0 7 182).2
     s.ingressTake tSynAck.port.val tSynAck.wcls 182 = (true, u) ∧ tSynAck.authOk = true ∧ u.names 4 3 2 = true ∧ (u.conn 4 3).state = .connecting ∧
     (u.conn 4 3).cid.op = some 4 ∧ (u.conn 4 3).cid.herd = none ∧ u.namesRx 4 (tRx 0) = true) ∧
    (let u := (tS.ingressTake 0 0 182).2
     tS.ingressTake 0 0 182 = (true, u) ∧ (tRx 0).plen = 0 ∧ u.namesRx 4 (tRx 0) = true ∧ (u.conn 4 3).state = .established ∧
     (u.conn 4 3).state.live = true ∧ (u.conn 4 3).cid.peerConn = 6 ∧ (u.conn 4 3).cid.peerInc = 1) ∧
    (let s := tCs { tConn with state := .closing }
     s.namesRx 4 (tRx 0) = true ∧ (s.conn 4 3).state = .closing) ∧ { tRx 0 with authOk := false }.authOk = false ∧
    (let s := { tCs { tConn with state := .rekey } with sec := { derive := [(0, [⟨false, 4, 7, false⟩, ⟨true, 4, 3, false⟩])] } }
     ((s.deriveDone 4 3 false).conn 4 3).state = .rekey ∧ s.noKeys = false ∧ s.sec.failed = false ∧ s.deriveTurn 4 3 false = true) ∧
    (let a : AbortRpt := ⟨3, 0, [(0, tCt), (1, tCt)]⟩
     let s := tF fun x => { x with aborts := [a] }
     (s.fn 4).aborts = [a] ∧ a.handle = 3 ∧ a.at_ + 100000 ≤ (s.tick 100000).now ∧ a.left = (0, tCt) :: [(1, tCt)]) :=
  ⟨⟨pair_of (by decide), by decide, by decide, by decide, by decide, by decide, by decide⟩,
   ⟨pair_of (by decide), by decide, by decide, by decide, by decide, by decide, by decide⟩, by decide, rfl, by decide, ⟨rfl, rfl, by decide, rfl⟩⟩

/-- ConnectionTimers: each at the first moment it acts. -/
theorem wit_ConnectionTimers :
    (let c := { tConnecting with tm := { tConnecting.tm with synWait := 100000 } }
     c.state = .connecting ∧ c.tm.synAt + c.tm.synWait ≤ ((tCs c).tick 100000).now) ∧
    (let c := { tConnecting with state := .slowpath }
     let s := { tCs c with sec := { maps := [(0x0A000002, 12)], peers := [{ dev := 12 }] } }
     let u := s.modPart (partOf 4) fun p => { p with neigh := if p.neigh.contains c.cid.peerIp then p.neigh else p.neigh ++ [c.cid.peerIp] }
     s.firmwareUp = true ∧ s.fwTurn 3 = true ∧ (s.conn 4 3).state = .slowpath ∧ c.cid.resume = false ∧ c.cid.init = true ∧
     u.devOf c.cid.peerIp = some 12) ∧
    ((tS.part (partOf 4)).state ≠ .frozen ∧ tConnecting.tm.synFirst + tS.lostTime ≤ (tS.tick tS.lostTime).now) ∧
    (let c := { tConn with tx := { tConn.tx with sent := [tSent] } }
     let u := ((tCs c).tick tS.lostTime).stopClock 4 3
     c.state.live = true ∧ (u.conn 4 3).state.live = true ∧ u.waitsProgress 4 3 = true ∧ (u.conn 4 3).tm.progress + u.lostTime ≤ u.now) :=
  ⟨by decide, by decide, by decide, by decide⟩

/-! ### Witnesses: scheduling, host links, memory -/

/-- Scheduling: a port that has stopped, a class-7 packet, an idle port, and a data packet of the queue whose turn it is, also by its
escalation; a head that leaves, a raw one, a queue that has waited STARVE, and grants that change. -/
def tCtl : State := tS.modPort 0 fun x => { x with ctl := [tCt] }
def tFe : FifoPkt := { fn := 4, conn := none, part := 0, cls := 1, bytes := 64, seq := 0, id := 0, ready := true, pkt := some tPk, bp := 0 }
def tFr : FifoPkt := { tFe with pkt := none, raw := some (9, [1, 2]), seq := 1, id := 1 }
def tHead (l : List FifoPkt) : State := tS.modPort 0 fun x => { x with fifo := l, bps := [(0, { up := true, lanes := 8 })] }
def tWait : State :=
  (tCs { tConn with tx := { tConn.tx with sendq := [{ msn := 0, ext := .data 0 0 8 0 false, len := 8, src := .bytes (List.replicate 8 0), for_ := .op 0 }] } }).modPort 0
    fun x => { x with bps := [(0, { up := true, lanes := 8 })] }
def tEsc : State := tWait.modClsq (qKey 0 0 0) fun x => { x with since := some 0, escal := some 1 }
def tStv : State := tWait.modClsq (qKey 0 0 0) fun x => { x with since := some 0 }
/-- The port's state at a selection, before and after it is seen whether it has stopped. -/
def tSe0 (s : State) : State := ((s.refreshQueues 0).tick 5).refreshQueues 0
def tSel (s : State) : State := (tSe0 s).modPort 0 fun x => { x with stopped := (tSe0 s).injStopped 0 }
def tTurn (d : Option (AMap Nat × AMap Nat)) : Turn :=
  { part := 0, cls := 0, pick := .conn { conn := 3, retx := none, path := 0, plen := 8, cost := 1, bytes := 146 }, defs := d }
set_option maxRecDepth 20000 in
theorem wit_Scheduling_turn :
    ((tSe0 tWait).injStopped 0 = false ∧ (tSe0 tWait).err.fatal = false ∧ (tSel tWait).ctlNext 0 = none ∧
     (tSel tWait).turn 0 [] = some (tTurn (some ([(0, 535514)], [(0, 8204)])))) ∧
    ((tSel tEsc).ctlNext 0 = none ∧ (tSel tEsc).turn 0 [] = some (tTurn none)) ∧
    ∀ s ∈ [tSel tWait, tSel tEsc], (s.selectPick 0 0 0 (tTurn none).pick).2 = true := by
  refine ⟨by decide, by decide, ?_⟩
  intro s hs
  simp only [List.mem_cons, List.not_mem_nil, or_false] at hs
  rcases hs with rfl | rfl
  · decide
  · decide
set_option maxRecDepth 20000 in
theorem wit_Scheduling :
    ((tSe0 (tS.modPort 0 fun x => { x with stopped := true, fifo := [{ tFe with bytes := 67108864 }] })).injStopped 0 = true ∧ (tSe0 tS).injStopped 0 = false ∧
     (tSe0 tS).err.fatal = false ∧ (tSel tS).ctlNext 0 = none ∧ (tSel tS).turn 0 [] = none) ∧
    ((tSe0 tCtl).injStopped 0 = false ∧ (tSe0 tCtl).err.fatal = false ∧ (tSel tCtl).ctlNext 0 = some tCt ∧
     ∃ r, ((tSel tCtl).modPort 0 fun x => { x with ctl := dropFirst x.ctl (fun y => y = tCt), rr7 := (tCt.part + 1) % 16 }).ctlSeal tCt = some r) ∧
    (∀ l : List FifoPkt, l = [tFe, tFr] ∨ l = [tFr] →
     let t := (tHead l).tick 5
     (t.bp 0 0).up = true ∧ (t.bp 0 0).markSent = false ∧ (tHead l).err.fatal = false ∧ (t.port 0).holdTil ≤ t.now ∧
     ((t.port 0).heads 0).filter (fun e => e.ready ∧ (¬ (t.bp 0 0).degraded ∨ e.cls = 7) ∧ ¬ t.pausedCls 0 0 e.cls ∧
       (e.cls ≠ 7 ∨ (t.port 0).cls7At ≤ t.now) ∧ t.gateSays 0 0 e.cls e.bytes ≠ .later) = l.take 1) ∧
    (tFe.pkt = some tPk ∧ tFr.pkt = none ∧ tFr.raw = some (9, [1, 2])) ∧
    (tS.now < tS.sched.sampleAt + tS.sampleNs ∧ tS.sched.sampleAt + tS.sampleNs ≤ (tS.tick tS.sampleNs).now ∧ tS.now < tS.sched.grantAt + tS.gint ∧
     tS.sched.grantAt + tS.gint ≤ (tS.tick tS.gint).now) ∧
    (let c := { tConn with rx := { tConn.rx with changeAt := some 0 } }
     c.rx.changeAt = some 0 ∧ c.state.live = true ∧ 0 + 8000 ≤ ((tCs c).tick 8000).now) ∧
    (let t := (tStv.tick tStv.starveNs).refreshQueues 0
     (t.clsq (qKey 0 0 0)).since = some 0 ∧ (0 : Nat) < 6 ∧ 0 + t.starveNs ≤ t.now ∧ (t.clsq (qKey 0 0 0)).escal = none) ∧
    (∃ k, let c := { (tWait.conn 4 3) with tx := { (tWait.conn 4 3).tx with gwin := 0 } }
     c.nextCand 3 = some k ∧ c.state.live = true ∧ c.tx.gwin < k.cost ∧ c.tx.grantAt + 8000 ≤ ((tCs c).tick 8000).now ∧
     c.tx.reqAt + 8000 ≤ ((tCs c).tick 8000).now) := by
  refine ⟨by decide, ⟨by decide, by decide, by decide, Option.isSome_iff_exists.mp (by decide)⟩, ?_, by decide, by decide, by decide, by decide, ⟨_, rfl, by decide⟩⟩
  rintro l (rfl | rfl)
  · decide
  · decide

/-- GatesAndStops: a list of two entries of 500 ns whose cycle is just long enough, at the latest START that is taken; an empty one; a list whose
time has come, and no list; every scope's stop; a sample; and pages that are missing. -/
def tGl : State := { tS with mem := { tS.mem with bytes :=
  [(0x700000, 0xF4), (0x700001, 0x01), (0x700004, 0xFF), (0x700008, 0xF4), (0x700009, 0x01)].map fun x => (cellKey 0 x.1, x.2) } }
def tAtsOn (f : Nat) (s : State) : State := s.modFn f fun x => { x with ats := { x.ats with enable := true } }
theorem wit_GatesAndStops :
    (let e := tP 0
     let t := tGl.begun e 0x180 (.gateLoad e 7 2 0x700000 (10 ^ 10))
     let l := gatesOf 2 (t.hostBytes 0 0x700000 16)
     Ready tGl e len1 false ∧ isPf e.fn.idx = true ∧ e.ring = 0 ∧ (7 : Nat) < 8 ∧ 10 ^ 10 ≤ tGl.clk.time + 10 ^ 10 ∧
     t.missing 0 0x700000 16 false = none ∧ t.locPoison 0 false 0x700000 16 = none ∧ gatesRsv 2 (t.hostBytes 0 0x700000 16) = false ∧
     (∀ g ∈ l, 10 ≤ g.dur) ∧ l = [⟨500, 255⟩, ⟨500, 0⟩] ∧ cycleNs l = 1000 ∧ ((t.hostReadFill 0 0x700000 16).port 7).pend = none) ∧
    (gatesOf 0 [] = [] ∧ gatesRsv 0 [] = false ∧ tGl.missing 0 0x700000 0 false = none ∧ tGl.locPoison 0 false 0x700000 0 = none) ∧
    (readyB (tAtsOn 0 tS) (tP 0) len1 false = true ∧ (tAtsOn 0 tS).missing 0 0x700000 16 false = some 0x700 ∧
     (tAtsOn 0 tS).missing 0 0x700000 1024 true = some 0x700) ∧
    (let p : GatePend := ⟨[⟨500, 255⟩, ⟨500, 0⟩], 1000, 0, 0, 1, true⟩
     let s := tS.modPort 7 fun x => { x with pend := some p, running := true, gates := p.list }
     (s.port 7).pend = some p ∧ p.at_ ≤ (s.tick 1000).clk.time ∧ (s.port 7).running = true ∧ (s.tick 999).clk.time < p.at_) ∧
    (Ready tS (tE 1) len1 false ∧ (6 : Nat) ≤ 6 ∧ tS.known 4 3 = true) ∧
    (Ready tS (tP 0) len1 false ∧ tS.missing 0 0x700000 1024 true = none) :=
  ⟨⟨ready_of (by decide), by decide⟩, by decide, by decide, by decide, ⟨ready_of (by decide), by decide⟩, ⟨ready_of (by decide), by decide⟩⟩
/-- HostLinks: a read that is current and one of an earlier generation, the first moment of its time-out, the VF of partition 0, an idle link,
and CXL offsets: the first and last served, the first past the slice, a poisoned line, and a tracked one. -/
def tRd (g : Nat) : HRead := ⟨5, 4, g, 0x10000, 64, 0, 0, 0, false⟩
def tRdS (g : Nat) : State := tS.modLink 0 fun x => { x with reads := [tRd g] }
def tPage : PageEnt := { valid := true, host := true, ksel := 1 }
def tCx : State :=
  { tS.modLink 0 (fun x => { x with cxl := true }) with
    regs := [(0x1000008, 2)],
    mem := { pages := [(0, tPage), (1, { tPage with ppn := 1 })], keys := [(1, none, 5)], dir := [(0, 3)], poison := [cellKey dramSpace 64 / 64] } }
theorem wit_HostLinks :
    (((tRdS 1).link 0).reads = [tRd 1] ∧ ((tRdS 1).modLink 0 fun x => { x with reads := [] }).staleRead (tRd 1) = false) ∧
    (((tRdS 2).link 0).reads = [tRd 2] ∧ ((tRdS 2).modLink 0 fun x => { x with reads := [] }).staleRead (tRd 2) = true) ∧
    (let s := tRdS 1
     let n := s.ctoNs 0
     (tRd 1).at_ + (s.tick n).ctoNs 0 ≤ (s.tick n).now ∧ (s.tick n).staleRead (tRd 1) = false) ∧
    ((tS.part 0).state ≠ .empty ∧ (tS.part 0).cur.link = 0) ∧
    (0 < 6 ∧ 6 ≤ 6 ∧ 0 < 16 ∧ 16 ≤ 16 ∧ (tS.link 0).perst = false ∧ (tS.link 0).disabled = false ∧ (tS.link 0).detect = true ∧ tS.powered = true ∧
     tS.mgmt.recovery = false ∧ tS.mgmt.sa = false) ∧
    (tCx.cxlServes 0 0 = true ∧ tCx.cxlServes 0 64 = true ∧ tCx.cxlServes 0 (2 ^ 22 - 64) = true ∧ tCx.cxlServes 0 (2 ^ 22) = false) ∧
    (tCx.cxlPhys 64 = 64 ∧ (tCx.track 0 1).mem.firstPoison (cellKey dramSpace 64) 64 = some (cellKey dramSpace 64) ∧
     tCx.cxlPhys 0 = 0 ∧ (tCx.track 0 0).mem.firstPoison (cellKey dramSpace 0) 64 = none) ∧
    ((0, 192 / 64) ∈ tCx.mem.dir) ∧ tCx.jrnl.full = false :=
  ⟨by decide, by decide, by decide, by decide, by decide, by decide, by decide, by decide, by decide⟩

/-- MemoryCommands: a prefetch of one page and of 1 GiB, a re-encryption of the whole slice and of a page already under its selector, and its
last page. -/
def tRk : Rekey := ⟨0, 2, 4, 9⟩
def tMm : State := { tCx with mem := { tCx.mem with keys := [(1, none, 5), (2, none, 6)] } }
theorem wit_MemoryCommands :
    Ready tMm (tE 1) len1 false ∧ (AtsOff tMm 4 ∧ Usable tMm 4 [(0, 64 + (tMm.part (partOf 4)).cur.spages, true)]) ∧ 4096 % 4096 = 0 ∧ 2 ^ 30 % 4096 = 0 ∧ 2 ^ 30 ≤ 2 ^ 30 ∧
    (0 + 2 ^ 21 * 2 ≤ tMm.sliceLen 4 ∧ isPf 4 = false ∧ 2 / 4 = partOf 4 ∧ tMm.keyLive 2 = true ∧ tMm.rekeyPages 4 0 2 2 = [0, 1] ∧
     tMm.mem.rekeys.find? (fun r => r.fn = 4 ∧ r.op = tMm.opId (tE 1)) = none ∧
     (∀ j ∈ tMm.rekeyPages 4 0 2 2, (tMm.pageEnt j).rk = false) ∧ tMm.keyLive 1 = true ∧ tMm.rekeyPages 4 0 2 1 = []) ∧
    (let s := { tMm with mem := { tMm.mem with rekeys := [tRk], pages := amod tMm.mem.pages 0 {} fun p => { p with rk := true } } }
     let t := (({ s with mem := { s.mem with rekeys := [], pages := amod s.mem.pages 0 {} fun p => { p with ksel := 2, rk := false } } } : State).jCommit
       (ownerOf 4) (jKey 9 (partOf 4) 2 .ok)).modOp 4 9 fun o => { o with need := o.need + 2 ^ 21 }
     s.mem.rekeys = [tRk] ∧ tRk.page = 0 ∧ (s.pageEnt 0).rk = true ∧ s.jrnl.full = false ∧ t.mem.rekeys = []) ∧
    (let o := { tOp (.nop (tE 1)) with need := 2 ^ 21 }
     let s := { tF (fun x => { x with ops := [o] }) with mem := { tMm.mem with rekeys := [tRk], pages := amod tMm.mem.pages 0 {} fun p => { p with rk := true } } }
     let t := (({ s with mem := { s.mem with rekeys := [], pages := amod s.mem.pages 0 {} fun p => { p with ksel := 2, rk := false } } } : State).jCommit
       (ownerOf 4) (jKey 9 (partOf 4) 2 .ok)).modOp 4 9 fun o => { o with need := o.need + 2 ^ 21 }
     s.mem.rekeys = [tRk] ∧ tRk.page = 0 ∧ (s.pageEnt 0).rk = true ∧ s.jrnl.full = false ∧ t.mem.rekeys = [] ∧ t.op? 4 9 = some { o with need := 2 ^ 22 }) :=
  ⟨ready_of (by decide), by decide, by decide, by decide, by decide, by decide, ⟨by decide, rfl, by decide, by decide, rfl⟩,
   ⟨by decide, rfl, by decide, by decide, rfl, by rfl⟩⟩

/-- PageRequests: an open batch, a group of this instance, one request outstanding, an invalidation with nothing in its range;
translation on and off. -/
def tGrp : PriGroup := ⟨0, 1, [(0x100, true)], 0, 1000⟩
def tAts : Ats := { enable := true, pri := true, reqs := [(0x100, true)], batch := [(0x101, false)], invals := [(3, 0x200000, 4096)] }
def tAt (a : Ats) : State := tF fun x => { x with ats := a }
theorem wit_PageRequests :
    (tAts.batch ≠ [] ∧ tAts.batchAt + priWait tAts.batchCfg ≤ ((tAt tAts).tick (priWait tAts.batchCfg)).now) ∧
    (((tAt { tAts with groups := [tGrp] }).fn 4).ats.groups = [tGrp] ∧ tGrp.gen = ((tAt { tAts with groups := [tGrp] }).fn 4).gen ∧
     tGrp.sentAt + tGrp.tmo ≤ ((tAt tAts).tick tGrp.tmo).now) ∧
    tAts.groups = [] ∧
    (tAts.invals = [(3, 0x200000, 4096)] ∧
     ((tAt tAts).mem.atc.any fun e => e.fn = 4 && decide (e.addr < 0x200000 + 4096 ∧ 0x200000 < e.addr + e.size)) = false ∧
     (((tAt tAts).link ((tAt tAts).linkOf 4)).reads.any fun r => r.fn = 4 && decide (r.addr < 0x200000 + 4096 ∧ 0x200000 < r.addr + r.len)) = false ∧
     (tAt tAts).rangeHeld 4 0x200000 4096 = false) ∧
    (tAts.reqs.find? (fun r => r.1 / 2 ^ tAts.stu = 0x100000 / 4096 / 2 ^ tAts.stu) = some (0x100, true) ∧ (tAt tAts).frozenFn 4 = false ∧ (if true then true else false) = true) ∧
    ((tAt tAts).fn 4).ats.enable = true ∧ ((tS.fn 4).ats.enable = false ∧ tS.frozenFn 4 = false ∧ tS.linkOf 4 = 0) :=
  ⟨by decide, by decide, by decide, by decide, by decide, by decide, by decide⟩
/-! ### Witnesses: herds, collectives, attention, programs -/

/-- A herd of two whose work area is exactly eight chunks, with one reduction block and all-to-all. -/
def tHc : HerdBody := ⟨2, 0, 1, 0, 14, 1, 1, 0, 1, true, 0, 0xFF, 7, 0x500000, 0, 128, 10⟩
def tHe (h : Herd) : State :=
  (tF fun x => { x with conns := [(3, { tConn with cid := { tConn.cid with herd := some (0, 1) } })], herds := [(0, h)] }).modPart 0 fun p =>
    { p with addrs := [(0, { ip := 0x0A000001, ports := 1, valid := true })] }
def tHx (st : HerdSt) : Herd :=
  { state := st, body := some tHc, membs := [⟨0x0A000001, 4791, 0⟩, ⟨0x0A000002, 4791, 0⟩], conns := [(1, 3)], op := 9 }
def tTok : Token := ⟨0, 0, 1, 1, 0, none, 0, 3, []⟩

def tCo (count src : Nat) : CollBody :=
  ⟨0, 0, 0, 0, 0, 0, false, false, false, false, false, false, false, 0, src, 0x900000, count, 0, 0, 0, ⟨0, false, false, 0⟩, 0, 0, 0, 0, 0, 0, 0, 0, 0, 0, 0⟩
def tPau : Coll := { op := 9, opcode := 0x213, body := tCo 1024 0x800000 }
/-- The herd once its new epoch stands. -/
def tUp (s : State) (run : Option Coll) : State :=
  (s.modHerd 4 0 fun h =>
    { h with state := if h.destroy.isSome then .draining else if run.isSome ∨ (s.herd 4 0).queue ≠ [] then .running else .ready,
             commit := none, forward := h.forward.filter (·.1), proposal := none,
             declared := [], proposer := false, origin := none, clean := none, hbAt := s.now,
             seen := (List.range h.membs.length).map fun r => (r, s.now) }).heldTokens 4 0

/-- Herds: a table of two members at address 0x500000, each state, and each timer at the first moment it acts. -/
theorem wit_Herds :
    (let e := tE2
     let s := tHe (tHx .ready)
     let t := s.begun e 0x200 (.herdCreate e tHc)
     Ready s e len2 false ∧ Usable s 4 [(0x500000, 64, false)] ∧ t.herdChecks 4 tHc = [] ∧ t.locPoison 4 false 0x500000 64 = none ∧
     membsRsv 2 (t.hostBytes 4 0x500000 64) = false) ∧
    (Ready (tHe (tHx .ready)) (tE 1) len1 false ∧ ((tHe (tHx .ready)).herd 4 0).state = .ready ∧
     Usable (tHe (tHx .ready)) 4 [(0, ((tHe (tHx .ready)).herd 4 0).record.length, true)]) ∧
    (Ready (tHe (tHx .running)) (tE 1) len1 false ∧ ((tHe (tHx .running)).herd 4 0).state = .running) ∧
    (let s := tHe (tHx .forming)
     (s.herd 4 0).state = .forming ∧ (s.herd 4 0).since + s.lostTime ≤ (s.tick s.lostTime).now) ∧
    (let s := tHe (tHx .ready)
     let n := (s.herd 4 0).hbNs
     (s.tick n).herdBeats 4 0 = true ∧ (s.herd 4 0).hbAt + n ≤ (s.tick n).now) ∧
    (let s := tHe { tHx .reforming with proposer := true, origin := some 0, clean := some tTok }
     let h := s.herd 4 0
     h.state = .reforming ∧ h.commit = none ∧ h.proposer = true ∧ h.origin = some h.me ∧ h.lapBack = true ∧
     h.lapAt + 100000000 ≤ (s.tick 100000000).now ∧ h.clean = some tTok ∧ h.since + s.settleNs ≤ (s.tick s.settleNs).now ∧
     h.size < 2 * (h.members.filter fun r => ¬ tTok.bits.contains r).length ∧
     h.since + s.settleNs + s.agreeNs ≤ (s.tick (s.settleNs + s.agreeNs)).now) ∧
    (∀ d ∈ [none, some 8], let s := tHe { tHx .reforming with commit := some tTok, destroy := d }
     let h := s.herd 4 0
     h.state = .reforming ∧ h.commit = some tTok ∧ s.herdJoined 4 0 = true ∧ h.destroy = d ∧ ((tUp s none).herd 4 0).run = none) :=
  ⟨⟨ready_of (by decide), by decide, by decide, by decide, by decide⟩, ⟨ready_of (by decide), by decide, by decide⟩,
   ⟨ready_of (by decide), by decide⟩, by decide, by decide, by decide, by decide⟩
/-- A paused broadcast that goes on in the new epoch. -/
theorem wit_Herds_resumes :
    let s := tHe { tHx .reforming with commit := some tTok, run := some tPau }
    let u := tUp s (some tPau)
    let v := u.dropColl 4 0
    let g := v.herd 4 0
    let x := planOf g tPau
    let c' : Coll := { tPau with pieces := tPau.replan x tTok [], reforms := tPau.reforms + 1, alg := tPau.body.runAlg tPau.opcode g.size (evenGroups g.groups),
                                 bytes := tPau.bytesLeft (tPau.replan x tTok []), epochs := tPau.epochs ++ [(g.mepoch, g.rank, tTok.cbase.getD (2 ^ 64 - 1))],
                                 tokens := if isRows tPau.opcode then tPau.tokens else [], upSent := false, downSent := false,
                                 rowsOut := if isRows tPau.opcode then g.members else [] }
    (s.herd 4 0).state = .reforming ∧ (s.herd 4 0).commit = some tTok ∧ s.herdJoined 4 0 = true ∧ (u.herd 4 0).run = some tPau ∧
    (v.modRun 4 0 fun _ => c').herdOpenAll 4 0 ((c'.peers g).map g.orig) = (((v.modRun 4 0 fun _ => c').herdOpenAll 4 0 ((c'.peers g).map g.orig)).1, true) :=
  ⟨by decide, by decide, by decide, by rfl, Prod.ext rfl (by decide)⟩

/-- Collectives: bodies that each collective takes, of no element and of the largest count, one that starts, and one whose root is
no longer a member at its start. -/
def tRow : CollBody := { tCo 0 0x800000 with ntok := 1, rowb := 64, k := 1, rtab := 0xA00000, emap := 0xA10000, nexp := 1, cap := 1 }
def tCoS : State := tHe (tHx .ready)
theorem wit_Collectives :
    Ready tCoS tE2 len2 false ∧ (tCoS.herd 4 0).holds (tCoS.opId tE2) = false ∧ (tCoS.herd 4 0).state ≠ .broken ∧
    (tCoS.herd 4 0).state ≠ .draining ∧
    (let t := tCoS.begun tE2 0x210 (.collAllreduce tE2 (tCo 0 0))
     t.collChecks 4 1 0x210 (tCo 0 0) = [] ∧ t.collChecks 4 1 0x210 (tCo (2 ^ 40) 0x800000) = [] ∧ t.collChecks 4 1 0x211 (tCo 1024 0x800000) = [] ∧
     t.collChecks 4 1 0x212 (tCo 1024 0x800000) = [] ∧ t.collChecks 4 1 0x213 (tCo 1024 0x800000) = [] ∧
     t.collChecks 4 1 0x214 { tCo 1024 0x800000 with root := 1 } = [] ∧ t.collChecks 4 1 0x215 (tCo 1024 0x800000) = [] ∧
     t.collChecks 4 1 0x217 tRow = [] ∧ t.collChecks 4 1 0x218 (tCo 0 0) = []) ∧
    (let t := tCoS.begun tE2 0x216 (.collDispatch tE2 tRow)
     let u := t.hostReadFill 4 tRow.rtab 4
     let v := u.hostReadFill 4 tRow.emap 2
     t.collChecks 4 1 0x216 tRow = [] ∧ Usable tCoS 4 [(tRow.rtab, 4, false)] ∧ t.locPoison 4 false tRow.rtab 4 = none ∧ Usable u 4 [(tRow.emap, 2, false)] ∧
     u.locPoison 4 false tRow.emap 2 = none ∧ tablesBad tRow (v.herd 4 0).size (t.hostBytes 4 tRow.rtab 4) (u.hostBytes 4 tRow.emap 2) = false ∧
     (v.herd 4 0).state ≠ .broken ∧ (v.herd 4 0).state ≠ .draining) ∧
    (∀ root ∈ [0, 2], let c : Coll := { op := 9, opcode := 0x213, body := { tCo 1024 0x800000 with root := root } }
     let s := tHe { tHx .ready with queue := [c] }
     let h := s.herd 4 0
     h.run = none ∧ h.queue = [c] ∧ h.state = .ready ∧
     pick (s.collChecks 4 h.bd.hring 0x213 c.body) = if root = 2 then some .range else none) :=
  ⟨ready_of (by decide), by decide, by decide, by decide, by decide, by decide, by decide⟩
/-- Collectives: the circuits of the broadcast that starts open. -/
theorem wit_Collectives_starts :
    let s := tHe { tHx .ready with queue := [tPau] }
    let h := s.herd 4 0
    let c := tPau
    let b := c.body
    let c1 := { c with cseq := h.cseq, sig := b.sig c.opcode (b.clog h), clog := b.clog h, alg := b.runAlg c.opcode h.size (evenGroups h.groups),
                       owners := h.members, epochs := [(h.mepoch, h.rank, 0)], rowsOut := if isRows c.opcode then h.members else [],
                       cur := if b.qen ∧ b.qblk.ef ∧ ¬ b.qblk.reset then leNat (s.sliceRead 4 b.qblk.resOff 1) % 2 else 0 }
    let c2 := { c1 with pieces := (planOf h c1).pieces, chunks := (planOf h c1).chunkCount }
    let t := s.modHerd 4 0 fun h => { h with state := .running, run := some c2, queue := [], cseq := (h.cseq + 1) % 2 ^ 32 }
    ((((t.resetResidual 4 c2 h.size).collCircuits 4 0).wakeBlocks h.blockMask).herdOpenAll 4 0 ((c2.peers h).map h.orig)).2 = true := by decide
theorem snd_of {α : Type} {p : α × Bool} (h : p.2 = true) : p = (p.1, true) := by
  obtain ⟨a, b⟩ := p
  cases h
  rfl

theorem wit_Collectives_start :
    let c : Coll := { op := 9, opcode := 0x213, body := tCo 1024 0x800000 }
    let s := tHe { tHx .ready with queue := [c] }
    let h := s.herd 4 0
    let b := c.body
    let c1 := { c with cseq := h.cseq, sig := b.sig c.opcode (b.clog h), clog := b.clog h, alg := b.runAlg c.opcode h.size (evenGroups h.groups),
                       owners := h.members, epochs := [(h.mepoch, h.rank, 0)], rowsOut := if isRows c.opcode then h.members else [],
                       cur := if b.qen ∧ b.qblk.ef ∧ ¬ b.qblk.reset then leNat (s.sliceRead 4 b.qblk.resOff 1) % 2 else 0 }
    let c2 := { c1 with pieces := (planOf h c1).pieces, chunks := (planOf h c1).chunkCount }
    let t := s.modHerd 4 0 fun h => { h with state := .running, run := some c2, queue := [], cseq := (h.cseq + 1) % 2 ^ 32 }
    ∃ u, ((t.resetResidual 4 c2 h.size).collCircuits 4 0).herdOpenAll 4 0 ((c2.peers h).map h.orig) = (u, true) :=
  ⟨_, snd_of (by decide)⟩
/-- AttentionSessions: a body of one local token; a feed of one block on the connection and of one locally; references to a session in each
state; a complete block; and rows to write. -/
def tAt2 (x : Sess) : State :=
  (tF fun y => { y with sess := [(0, x)] }).modPart 0 fun p => { p with addrs := [(0, { ip := 0x0A000001, ports := 1, valid := true })] }
def tFd (loc : Bool) (n : Nat) : FeedBody := ⟨if loc then 0 else 3, loc, 0 + 5 * 2 ^ 6, 0, 1, false, false, 0, n, 0, 0xB00000, 0xC00000, 128, 128, 0⟩
def tKb : KvBlk := { id := 1, conn := none, msn := 0, kvh := 0, ntok := 1, bpos := 0, ready := some 0 }
theorem wit_AttentionSessions :
    (let s := tAt2 {}
     let t := s.begun tE2 0x280 (.attnOpen tE2 tAb)
     Ready s tE2 len2 false ∧ t.sessOfOp 4 (s.opId tE2) = none ∧ t.attnChecks 4 tAb = []) ∧
    (let s := tAt2 (tSess .accepting)
     let t := s.begun (tE 1) 0x281 (.attnFeed (tE 1) (tFd false 129))
     Ready s (tE 1) len1 false ∧ aget (s.fn 4).feeds (s.opId (tE 1)) = none ∧ t.feedChecks 4 (tFd false 129) = [] ∧ t.feedChecks 4 (tFd true 128) = [] ∧
     s.sessMatch 4 (0 + 5 * 2 ^ 6) = true ∧ (s.sess 4 (srefIndex (0 + 5 * 2 ^ 6))).state ≠ .finishing ∧
     (s.sess 4 (srefIndex (0 + 5 * 2 ^ 6))).state ≠ .writing) ∧
    (let x := { tSess .loading with loaded := false }
     let s := tAt2 x
     let l := (queryRanges tAb).map (fun r => (false, r.1, r.2, false)) ++ [(false, tAb.qpos, 4 * tAb.nq, false)]
     x.state = .loading ∧ x.loaded = false ∧ x.bd.qspace = false ∧ l.findSome? (fun y => s.locMiss 4 y.1 y.2.1 y.2.2.1 false) = none ∧
     l.findSome? (fun y => s.locPoison 4 y.1 y.2.1 y.2.2.1) = none ∧
     (let s := { s with mem := { s.mem with poison := [cellKey 4 tAb.qaddr / 64] } }
      (l.findSome? (fun y => s.locMiss 4 y.1 y.2.1 y.2.2.1 false) = none ∧ l.findSome? (fun y => s.locPoison 4 y.1 y.2.1 y.2.2.1) = some tAb.qaddr))) ∧
    (let x := { tSess .accepting with blks := [tKb] }
     let s := tAt2 x
     x.firstReady 0 = some tKb ∧ tKb.id = 1 ∧ x.loaded = true ∧ x.state = .accepting ∧ tAb.blks.testBit 0 = true ∧ s.regionLive (regionOf 0) = true) ∧
    (let s := tAt2 (tSess .accepting)
     s.sessMatch 4 (0 + 5 * 2 ^ 6) = true ∧ Usable s 4 [(0, (s.sess 4 0).record.length, true)]) :=
  ⟨⟨ready_of (by decide), by decide, by decide⟩, ⟨ready_of (by decide), by decide⟩, by decide, by decide, by decide⟩

/-- AttentionSessions: nothing left to write, a row whose page is missing, and a poisoned row. -/
def tRw : SRow := freshRow 1
def tWr (ats bad : Bool) : State :=
  (tAt2 { tSess .writing with finish := some 8, rows := [(0, [{ tRw with bad := bad }])], pos := [0] }).modFn 4 fun y => { y with ats := { y.ats with enable := ats } }
def tPut (s : State) : List OutPiece := (putPieces 4 (s.sess 4 0).bd.ospace ((s.sess 4 0).outPieces.drop (s.sess 4 0).written) s).2
set_option maxRecDepth 40000 in
theorem wit_AttentionSessions_writes :
    (tPut (tWr false false) = [] ∧ tPut (tWr true false) ≠ [] ∧ ((tPut (tWr true false)).take 1).find? (·.bad) = none ∧
     (((tPut (tWr false true)).take 1).find? (·.bad)).isSome) ∧
    ((tWr false false).sess 4 0).state = .writing ∧ ((tWr false false).sess 4 0).statPieces = [] := by decide

/-- A launch of two copies whose copy 0 stands at an instruction. -/
def tLn (kind : Nat) (c : Copy) : Launch :=
  { state := .running, handle := 2, op := 9, copies := [(0, c), (1, { st := .done })], args := [11, 12], ports := [{ conn := 3 }], slots := [0, 1],
    loaded := kind }
def tPg (kind : Nat) (x : Insn) : Prog := ⟨[x], [⟨0, 2, 16, none⟩, ⟨0, 2, 16, none⟩, ⟨0, 2, 16, none⟩], 1, 2, 1, 2, [kind], 0, 131072, 64⟩
def tCp : Copy := { block := some 0, regs := [(1, 0), (2, 64), (3, 1)] }
def tPr (kind : Nat) (x : Insn) (c : Copy) : State := tF fun y => { y with launches := [(0, tLn kind c)], progs := [(2, tPg kind x)] }
def tK (kind : Nat) (x : Insn) (c : Copy) : Ctx := ⟨4, 0, 0, tLn kind c, tPg kind x, c, x⟩
def tRef : CopyRef := ⟨.vf 0, 0, 0⟩

theorem issues_of (kind : Nat) (x : Insn) (c : Copy) (h : c.block = some 0 ∧ c.pc = 0 ∧ c.st = .running) :
    Issues (tPr kind x c) tRef x.op (tK kind x c) where
  fn := rfl
  li := rfl
  ci := rfl
  launch := rfl
  copy := rfl
  prog := rfl
  running := rfl
  issues := by
    have h1 : (tPr kind x c).regionLive (regionOf 0) = true := by rfl
    show ((c.st = .running || c.st = .waiting) && match c.block with | some b => (tPr kind x c).regionLive (regionOf b) | none => false) = true
    simp only [h.1, h.2.2, h1, decide_true, Bool.true_or, Bool.and_self]
  live := rfl
  insn := by show [x][c.pc]? = _; rw [h.2.1]; rfl
  opcode := rfl
  code := by
    have h : (tPr kind x c).mem.poison = [] := rfl
    simp [State.codeBad, State.locPoison, Mem.firstPoison, h]

/-- ProgramScalars: a copy that issues any instruction, a loop that goes on and one that ends, a request to give up the block, and a slot
just short of its threshold. -/
theorem wit_ProgramScalars :
    (∀ op : Nat, Issues (tPr 4 ⟨op, 0, 1, 2, 3, 0, 0, 0⟩ tCp) tRef op (tK 4 ⟨op, 0, 1, 2, 3, 0, 0, 0⟩ tCp)) ∧
    tCp.busy = false ∧
    (let c := { tCp with ops := [{ id := 0, insn := 0, op := 0x20, tile := 0, slot := none, snap := ⟨[], []⟩ }] }
     Issues (tPr 4 ⟨1, 0, 0, 0, 0, 0, 0, 0⟩ c) tRef 1 (tK 4 ⟨1, 0, 0, 0, 0, 0, 0, 0⟩ c) ∧ c.busy = true) ∧ (brCond 0 5 5 = true ∧ brCond 0 5 6 = false) ∧
    (((tK 4 ⟨4, 0, 1, 0, 0, 0, 0, 0⟩ tCp).reg 1 + (2 ^ 64 - 1)) % 2 ^ 64 ≠ 0 ∧ ((tK 4 ⟨4, 0, 3, 0, 0, 0, 0, 0⟩ tCp).reg 3 + (2 ^ 64 - 1)) % 2 ^ 64 = 0) ∧
    (let c := { tCp with preempt := some 1 }
     Issues (tPr 4 ⟨5, 0, 1, 2, 3, 0, 0, 0⟩ c) tRef 5 (tK 4 ⟨5, 0, 1, 2, 3, 0, 0, 0⟩ c) ∧
     Issues (tPr 4 ⟨5, 1, 1, 2, 3, 0, 0, 0⟩ c) tRef 5 (tK 4 ⟨5, 1, 1, 2, 3, 0, 0, 0⟩ c) ∧ c.preempt.isSome) ∧ tCp.preempt = none ∧
    (let x : Insn := ⟨5, 1, 0, 2, 0, 0, 0, 2 ^ 64 - 58⟩
     let k := tK 4 x tCp
     Issues (tPr 4 x tCp) tRef 5 k ∧ x.fl.testBit 0 = true ∧ (tPr 4 x tCp).tallyCount 4 (k.slot x.a) < (k.reg x.b + x.imm) % 2 ^ 64) :=
  ⟨fun op => issues_of 4 ⟨op, 0, 1, 2, 3, 0, 0, 0⟩ tCp (by decide), by decide, ⟨issues_of 4 _ _ (by decide), by decide⟩, by decide, by decide, ⟨issues_of 4 _ _ (by decide), issues_of 4 _ _ (by decide), by decide⟩, by decide,
   ⟨issues_of 4 _ _ (by decide), by decide, by decide⟩⟩

def tRv (k : Ctx) : Async :=
  { id := k.c.nextOp, insn := k.c.pc, op := 0x31, tile := k.x.b, slot := k.ten, port := k.x.a, bytes := (k.decl k.x.b).bytes,
    tag := (k.bind.base + k.reg k.x.c + k.x.imm) % 2 ^ 64, snap := ⟨[], []⟩ }

/-- ProgramTiles: an aligned address and pitch, a misaligned one, a PEER target that is a copy, another kind of port, and a slot just at its
threshold; all 32 operations outstanding, a tile of constants, and a receive by a port with a match list and without. -/
theorem wit_ProgramTiles :
    (∀ op : Nat, Issues (tPr 4 ⟨op, 0, 0, 2, 1, 0, 0, 0⟩ tCp) tRef op (tK 4 ⟨op, 0, 0, 2, 1, 0, 0, 0⟩ tCp)) ∧
    (let k := tK 4 ⟨0x20, 0, 0, 2, 1, 0, 0, 0⟩ tCp
     let d := k.decl k.x.a
     let addr := (k.reg k.x.b + k.x.imm) % 2 ^ 64
     k.c.outstanding < 32 ∧ k.x.fl.testBit 1 = false ∧ addr % 64 = 0 ∧ d.rowBytes % 64 = 0 ∧ k.reg k.x.c = 0) ∧
    ((tK 4 ⟨0x21, 0, 0, 3, 1, 0, 0, 0⟩ tCp).reg 3 % 64 ≠ 0) ∧
    ((tK 4 ⟨0x30, 0, 0, 2, 3, 0, 0, 0⟩ tCp).kind = 4 ∧ (tK 4 ⟨0x30, 0, 0, 2, 3, 0, 0, 0⟩ tCp).reg 3 < (tLn 4 tCp).copies.length) ∧
    (Issues (tPr 0 ⟨0x30, 0, 0, 2, 1, 0, 0, 0⟩ tCp) tRef 0x30 (tK 0 ⟨0x30, 0, 0, 2, 1, 0, 0, 0⟩ tCp) ∧
     (tK 0 ⟨0x30, 0, 0, 2, 1, 0, 0, 0⟩ tCp).kind ≠ 4) ∧ tCp.receives < 64 ∧
    (let x : Insn := ⟨0x41, 0, 0, 1, 0, 0, 0, 5⟩
     let k := tK 4 x tCp
     Issues (tPr 4 x tCp) tRef 0x41 k ∧ (k.reg x.b + x.imm) % 2 ^ 64 ≤ (tPr 4 x tCp).tallyCount 4 (k.slot x.a)) ∧
    (let c := { tCp with ops := List.replicate 32 { id := 0, insn := 0, op := 0x20, tile := 0, slot := none, snap := ⟨[], []⟩ } }
     Issues (tPr 4 ⟨0x20, 0, 0, 2, 1, 0, 0, 0⟩ c) tRef 0x20 (tK 4 ⟨0x20, 0, 0, 2, 1, 0, 0, 0⟩ c) ∧ 32 ≤ c.outstanding) ∧
    (let k := tK 4 ⟨0x20, 2, 0, 2, 1, 0, 0, 64⟩ tCp
     Issues (tPr 4 k.x tCp) tRef 0x20 k ∧ k.x.fl.testBit 1 = true ∧ k.x.imm % 64 = 0 ∧ (k.decl k.x.a).rowPitch % 64 = 0 ∧
     (k.decl k.x.a).rowBytes ≤ (k.decl k.x.a).rowPitch) ∧
    (let s := tPr 0 ⟨0x31, 0, 0, 2, 1, 0, 0, 0⟩ tCp
     let k := tK 0 ⟨0x31, 0, 0, 2, 1, 0, 0, 0⟩ tCp
     Issues s tRef 0x31 k ∧ k.kind ≠ 4 ∧ s.precvUsed k.f < s.qPrecv k.f ∧ (s.issueAsync k (tRv k)).mlist? 4 k.bind.list = none ∧
     ((s.modFn 4 fun y => { y with mlists := [(0, { uq := 4 })] }).issueAsync k (tRv k)).mlist? 4 k.bind.list = some { uq := 4 }) ∧
    (let x : Insn := ⟨0x41, 0, 0, 1, 0, 0, 0, 6⟩
     let k := tK 4 x tCp
     Issues (tPr 4 x tCp) tRef 0x41 k ∧ (tPr 4 x tCp).tallyCount 4 (k.slot x.a) < (k.reg x.b + x.imm) % 2 ^ 64) :=
  ⟨fun op => issues_of 4 ⟨op, 0, 0, 2, 1, 0, 0, 0⟩ tCp (by decide), by decide, by decide, by decide, ⟨issues_of 0 _ _ (by decide), by decide⟩, by decide,
   ⟨issues_of 4 _ _ (by decide), by decide⟩, ⟨issues_of 4 _ _ (by decide), by decide⟩, ⟨issues_of 4 _ _ (by decide), by decide⟩,
   ⟨issues_of 0 _ _ (by decide), by decide⟩, ⟨issues_of 4 _ _ (by decide), by decide⟩⟩

/-- ProgramScalarFrame. -/
theorem wit_ProgramScalarFrame :
    let k := tK 4 ⟨0x10, 0, 1, 0, 0, 0, 0, 7⟩ tCp
    aget ((tPr 4 k.x tCp).fn k.f).launches k.li = some k.l ∧ aget k.l.copies k.ci = some k.c :=
  ⟨rfl, rfl⟩
/-- A program image of one tile and END (R288-R291); its CRC-32 at byte 12 was computed outside the model. -/
def tImg : List Byte :=
  [84, 80, 70, 48, 1, 0, 0, 0, 96, 0, 0, 0, 70, 235, 218, 30, 1, 0, 0, 0, 1, 0, 0, 0, 0, 0, 0, 0, 0, 0, 0, 0] ++
  [64, 0, 0, 0, 80, 0, 0, 0, 1, 2, 0, 0, 0, 0, 0, 0, 0, 0, 0, 0, 0, 0, 0, 0, 0, 0, 0, 0, 0, 0, 0, 0] ++
  [0, 0, 2, 0, 16, 0, 0, 0, 255, 255, 255, 255, 255, 255, 255, 255, 1, 0, 0, 0, 0, 0, 0, 0, 0, 0, 0, 0, 0, 0, 0, 0]

/-- Launches: that image at the start of the slice with the smallest code area, bytes that are no image and a poisoned line in host memory, an
unused program, a launch body, and launches in each state, the last one's completion withheld too. -/
def tLd : State := { tCx with mem := { tCx.mem with poison := [] }.write (cellKey dramSpace 0) tImg }
def tLb : LaunchBody := ⟨2, 0 + 7 * 2 ^ 6, 1, 4096, 8192, 0xD00000, 0, 0xE00000, 10, 0, false⟩
def tLa (l : Launch) : State := tF fun y => { y with launches := [(0, l)], progs := [(2, tPg 4 ⟨1, 0, 0, 0, 0, 0, 0, 0⟩)], ops := [{ tOp (.nop (tE 1)) with id := 9 }] }
def tLs (st : LaunchSt) : Launch := { tLn 4 tCp with state := st, key := 7 }
set_option maxRecDepth 20000 in
theorem wit_Launches_load :
    let t := tLd.begun (tE 1) 0x300 (.progLoad (tE 1) true 0 96 4096 8192)
    Ready tLd (tE 1) len1 false ∧ tLd.sliceCheck 4 0 96 = [] ∧ tLd.sliceCheck 4 4096 8192 = [] ∧ t.locPoison 4 true 0 96 = none ∧
    loadFail (t.sliceRead 4 0 96) 96 8192 (tLd.fn 4).progs.length = none ∧ 4096 % 4096 = 0 ∧ 64 ≤ 96 ∧ 96 ≤ 2 ^ 26 ∧
    Usable tLd 4 [(0x900000, 96, false)] ∧ loadFail (t.locRead 4 false 0x900000 96) 96 8192 (tLd.fn 4).progs.length = some (1, 0) ∧
    ({ t with mem := { t.mem with poison := [cellKey 4 0x900000 / 64] } }.locPoison 4 false 0x900000 96).isSome = true :=
  ⟨ready_of (by decide), by decide⟩
theorem wit_Launches :
    (let s := tLa {}
     Ready s (tE 1) len1 false ∧ aget (s.fn 4).progs 2 = some (tPg 4 ⟨1, 0, 0, 0, 0, 0, 0, 0⟩) ∧
     ((s.fn 4).launches.any fun l => l.2.state ≠ .free && l.2.handle = 2) = false) ∧
    (let s := tLa {}
     let p := tPg 4 ⟨1, 0, 0, 0, 0, 0, 0, 0⟩
     let t := s.begun tE2 0x302 (.progLaunch tE2 tLb)
     let rs := launchRanges tLb p
     let u := rs.foldl (fun s r => s.hostReadFill 4 r.1 r.2.1) t
     let rd := fun (r : Nat × Nat × Bool) => u.hostBytes 4 r.1 r.2.1
     let entry := fun (i : Nat) => ((rd (rs.getD 1 (0, 0, false))).drop (32 * i)).take 32
     let slots := (List.range (popCount 64 tLb.blks * p.nslot)).map fun i => numAt (rd (rs.getD 2 (0, 0, false))) (2 * i) 2
     Ready s tE2 len2 false ∧ aget (s.fn 4).progs tLb.handle = some p ∧ Usable s 4 rs ∧ t.initBad 4 p = none ∧ t.launchChecks 4 tLb = [] ∧
     rs.findSome? (fun r => t.locPoison 4 false r.1 r.2.1) = none ∧
     ((List.range p.nport).any fun i => u.portBad 4 (p.pkind.getD i 0) (entry i)) = false ∧ (slots.any fun t => ¬ u.tallyOk 4 t) = false) ∧
    (let s := tLa (tLs .running)
     Ready s (tE 1) len1 false ∧ (s.launch 4 (lrefIndex (0 + 7 * 2 ^ 6))).key = lrefKey (0 + 7 * 2 ^ 6) ∧ (s.launch 4 0).state = .running ∧
     Usable s 4 [(0xF00000, (s.launch 4 0).record.length, true)]) ∧
    (let s := tLa (tLs .starting)
     (s.launch 4 0).state = .starting ∧
     ((s.launch 4 0).copies.all fun c => match c.2.block with | some b => s.regionLive (regionOf b) | none => true) = true) ∧
    (let s := tLa { tLs .stopping with stop := some 3 }
     (s.launch 4 0).state = .stopping ∧ (s.launch 4 0).copies.all (fun c => ¬ c.2.busy ∧ ¬ c.2.ops.any (s.matchedRecv 4 0 c.1)) = true ∧ (s.launch 4 0).stop = some 3 ∧
     (s.launch 4 0).fault = none) ∧
    (let l := { tLs .stopping with stop := some 3, fault := some (.range, 5) }
     let s := tLa l
     (s.launch 4 0).state = .stopping ∧ (s.launch 4 0).copies.all (fun c => ¬ c.2.busy ∧ ¬ c.2.ops.any (s.matchedRecv 4 0 c.1)) = true ∧ (s.launch 4 0).stop = some 3 ∧
     (s.launch 4 0).fault = some (.range, 5)) ∧
    (let s := tLa (tLs .ending)
     let l := s.launch 4 0
     l.state = .ending ∧ l.copies.all (fun c => ¬ c.2.ops.any (s.matchedRecv 4 0 c.1)) = true ∧ (s.op? 4 l.op).isSome ∧
     (((s.endOp 4 l.op .ok l.written l.endDetail).fn 4).rings.any fun r => r.2.waiting.any fun c => c.op = some l.op) = false) ∧
    (let s := (tLa (tLs .ending)).modRing 4 1 fun r => { r with cqBad := true }
     let l := s.launch 4 0
     l.state = .ending ∧ l.copies.all (fun c => ¬ c.2.ops.any (s.matchedRecv 4 0 c.1)) = true ∧ (s.op? 4 l.op).isSome ∧
     (((s.endOp 4 l.op .ok l.written l.endDetail).fn 4).rings.any fun r => r.2.waiting.any fun c => c.op = some l.op) = true) :=
  ⟨⟨ready_of (by decide), by decide, by decide⟩, ⟨ready_of (by decide), by decide, by decide, by decide, by decide, by decide, by decide⟩,
   ⟨ready_of (by decide), by decide⟩, by decide, by decide, by decide, by decide, by decide⟩

/-- CopyEvents: operations of each kind that can end, a retry whose moment has come, a PEER message that a receive takes, a copy that parks,
one that resumes, and SPWAIT's last moment; operations whose status is known, a message that has come, a poisoned PEER message, a save slot whose page has no key, and a
save slot that is poisoned, was changed, or holds what was saved. -/
def tAs (op : Nat) : Async := { id := 0, insn := 0, op := op, tile := 0, slot := none, bytes := 128, snap := ⟨List.replicate 32 (some 0), []⟩ }
def tCe (a : Async) : State := tLa { tLs .running with copies := [(0, { tCp with ops := [a] }), (1, { tCp with block := none, ops := [{ tAs 0x31 with peer := some 0 }], peerQ := [(0, 0, 0, 0)] })] }
set_option maxRecDepth 20000 in
theorem wit_CopyEvents :
    (∀ op ∈ [0x20, 0x21, 0x30, 0x31], ∃ p, (tCe (tAs op)).async? 4 0 0 0 = some (p, tAs op)) ∧ (tAs 0x20).status = none ∧
    (∀ op ∈ [0x20, 0x21], ∃ p, (tCe { tAs op with status := some .poison }).async? 4 0 0 0 = some (p, { tAs op with status := some .poison })) ∧
    (let a := { tAs 0x30 with status := some .ok, retry := none }
     ∃ p, (tCe a).async? 4 0 0 0 = some (p, a) ∧ a.op = 0x30 ∧ a.status = some .ok ∧ a.retry = none) ∧
    (let a := { tAs 0x31 with got := some [1] }
     (∃ p, (tCe a).async? 4 0 0 0 = some (p, a) ∧ (((tCe a).fn 4).progRx.find? fun z => z.1 = 0 ∧ z.2.1 = 0 ∧ z.2.2.1 = 0) = none ∧ a.got = some [1]) ∧
     ∃ p, ((tCe a).modFn 4 fun y => { y with progRx := [(0, 0, 0, 5, [1])] }).async? 4 0 0 0 = some (p, a) ∧
      (((tCe a).modFn 4 fun y => { y with progRx := [(0, 0, 0, 5, [1])] }).fn 4).progRx.find? (fun z => z.1 = 0 ∧ z.2.1 = 0 ∧ z.2.2.1 = 0) =
       some (0, 0, 0, 5, [1])) ∧
    (let a := { tAs 0x31 with status := some .range }
     ∃ p, (tCe a).async? 4 0 0 0 = some (p, a) ∧ a.got = none ∧ a.status = some .range) ∧
    (let a := { tAs 0x30 with retry := some 1000 }
     ∃ p, ((tCe a).tick 1000).async? 4 0 0 0 = some (p, a) ∧ a.retry = some 1000 ∧ 1000 ≤ ((tCe a).tick 1000).now) ∧
    (let a := { tAs 0x30 with peer := some 1 }
     let s := tCe a
     ∃ p, s.async? 4 0 0 0 = some (p, a) ∧ a.peer = some 1 ∧ a.op = 0x30 ∧ a.status = none ∧
     ((s.copy 4 0 1).peerQ.find? fun m => m.1 = a.port ∧ m.2.2.2 = a.tag) = some (0, 0, 0, 0) ∧
     ((s.copy 4 0 1).ops.find? fun x => x.op = 0x31 ∧ x.peer.isSome ∧ x.port = a.port ∧ x.tag = a.tag ∧ x.got.isNone ∧ x.status.isNone) =
       some { tAs 0x31 with peer := some 0 } ∧
     a.bytes ≤ ((p.tiles.getD a.tile ⟨0, 1, 1, none⟩).sendable a.snap).length ∧
     ((p.tiles.getD a.tile ⟨0, 1, 1, none⟩).sendable ⟨none :: List.replicate 31 (some 0), []⟩).length < a.bytes) ∧
    (let s := tLa { tLs .running with copies := [(0, { tCp with st := .parking })] }
     (s.launch 4 0).state = .running ∧ (s.copy 4 0 0).st = .parking ∧ (s.copy 4 0 0).busy = false ∧
     (match (s.copy 4 0 0).block with | some b => s.regionLive (regionOf b) | none => false) = true ∧
     (let p := tPg 4 ⟨1, 0, 0, 0, 0, 0, 0, 0⟩
      aget (s.fn 4).progs (s.launch 4 0).handle = some p ∧
      pick (s.sliceCheck 4 ((s.launch 4 0).slotOff p 0) p.saveSize ++ ck ((s.copy 4 0 0).poisoned p = true) .poison) = some .prot ∧
      (s.copy 4 0 0).poisoned p = false ∧
      (let s := { tLd with fns := s.fns }
       s.sliceCheck 4 ((s.launch 4 0).slotOff p 0) p.saveSize = []))) ∧
    (let s := tLa { tLs .running with copies := [(0, { tCp with st := .parked, block := none })] }
     (s.copy 4 0 0).st = .parked ∧ ((s.launch 4 0).copies.find? fun z => z.2.st = .parked).map (·.1) = some 0 ∧
     ((List.range 64).find? fun b => s.blockFree 4 b) = some 0 ∧ s.starts 4 = true ∧
     (let p := tPg 4 ⟨1, 0, 0, 0, 0, 0, 0, 0⟩
      aget (s.fn 4).progs (s.launch 4 0).handle = some p ∧
      s.locPoison 4 true ((s.launch 4 0).slotOff p 0) p.saveSize = none ∧
      (let t := { s with mem := { s.mem with poison := [cellKey dramSpace 0 / 64] } }
       (t.locPoison 4 true ((t.launch 4 0).slotOff p 0) p.saveSize).isSome = true))) ∧
    (let s := tLa { tLs .running with spwait := 10, copies := [(0, { tCp with preempt := some 0 })] }
     (s.copy 4 0 0).preempt = some 0 ∧ (s.launch 4 0).state = .running ∧ (s.copy 4 0 0).st = .running ∧ 0 + 1000 * 10 ≤ (s.tick 10000).now) := by
  refine ⟨?_, by decide, ?_, ⟨_, rfl, by decide, by decide, by decide⟩, ⟨⟨_, rfl, by decide, by decide⟩, ⟨_, rfl, by decide⟩⟩,
    ⟨_, rfl, by decide, by decide⟩, ⟨_, rfl, by decide, by decide⟩, ?_, by decide, by decide, by decide⟩
  · intro op h
    simp only [List.mem_cons, List.not_mem_nil, or_false] at h
    rcases h with rfl | rfl | rfl | rfl <;> exact ⟨_, rfl⟩
  · intro op h
    simp only [List.mem_cons, List.not_mem_nil, or_false] at h
    rcases h with rfl | rfl <;> exact ⟨_, rfl⟩
  · exact ⟨_, rfl, by decide⟩

/-- CopyEvents: a PARKED copy whose slot was changed, and one whose slot holds what was saved. -/
def tSv (bs : List Byte) : State := tLa { tLs .running with copies := [(0, { tCp with st := .parked, block := none, saved := bs })] }
theorem tSv_read (l : List Byte) (n : Nat) : (tSv l).sliceRead 4 0 n = (tSv []).sliceRead 4 0 n := rfl
theorem tSv_kept (l : List Byte) (p : Prog) (h : p.saveSize = 8192) :
    (tSv l).slotKept 4 0 0 p = decide ((tSv []).sliceRead 4 0 8192 = l) := by
  have h1 : ((tSv l).launch 4 0).slotOff p 0 = 0 + 0 * p.saveSize := rfl
  have h2 : ((tSv l).copy 4 0 0).saved = l := rfl
  simp only [State.slotKept, h1, h2, h, Nat.zero_mul, Nat.add_zero, tSv_read]
theorem wit_CopyEvents_slot :
    let p := tPg 4 ⟨1, 0, 0, 0, 0, 0, 0, 0⟩
    (tSv [0]).slotKept 4 0 0 p = false ∧ (tSv ((tSv []).sliceRead 4 0 8192)).slotKept 4 0 0 p = true ∧
    ∀ l, ((tSv l).copy 4 0 0).st = .parked ∧ aget ((tSv l).fn 4).progs ((tSv l).launch 4 0).handle = some p ∧
      (tSv l).locPoison 4 true (((tSv l).launch 4 0).slotOff p 0) p.saveSize = none := by
  refine ⟨?_, ?_, fun l => ⟨rfl, rfl, ?_⟩⟩
  · rw [tSv_kept _ _ (by decide)]
    refine decide_eq_false fun h => ?_
    have h1 : slicePieces 0 8192 = [(0, 8192)] := by decide
    have h2 := congrArg List.length h
    simp [State.sliceRead, h1, cellsGet] at h2
  · rw [tSv_kept _ _ (by decide)]
    exact decide_eq_true rfl
  · have h : (tSv l).mem.poison = [] := rfl
    simp [State.locPoison, Mem.firstPoison, h]
/-! ### Witnesses: partitions, keys -/

/-- PartitionCommands, on the physical function's admin ring: the same record again and the empty one, each state a command asks for, and one
extent of zeros for an image of no byte. -/
def tPt (g : Part → Part) : State :=
  { (tS.modPart 0 g) with regs := (List.range 8).map fun i => (partOff 0 + 0x100 + 8 * i, tRec.word i) }
theorem part_ready (s : State) (p : Nat) (h : readyB s (tP 0) len1 false = true ∧ p < 16 ∧ s.jrnl.full = false ∧
    s.op? 0 (s.opId (tP 0)) = none) : PartReady s (tP 0) p :=
  ⟨ready_of h.1, rfl, rfl, h.2.1, h.2.2.1, h.2.2.2⟩
theorem wit_PartitionCommands :
    (let s := tPt id
     let t := s.begun (tP 0) 0x400 (.partApply (tP 0) 0 0 0)
     PartReady s (tP 0) 0 ∧ PartReady s (tP 0) 15 ∧ Usable t 0 [(4096, 16, false)] ∧ s.partNext 0 = tRec ∧ t.applyRange 0 tRec 0 [] = false ∧
     t.locPoison 0 false 0 0 = none ∧ t.applyState 0 tRec = false ∧ tRec.holds = true ∧ (s.part 0).tdi ≠ 1 ∧ (s.part 0).tdi ≠ 2) ∧
    (let t := tS.begun (tP 0) 0x400 (.partApply (tP 0) 0 0 4096)
     PartReady tS (tP 0) 0 ∧ tS.partNext 0 = {} ∧ t.applyRange 0 {} 4096 [] = false ∧ t.locPoison 0 false 4096 0 = none ∧
     t.applyState 0 {} = false ∧ PartRec.holds {} = false) ∧
    ((tS.part 0).state ≠ .empty ∧ (tS.part 0).state = .active ∧ (tS.part 0).apply = none ∧ (tS.part 0).tdi ≠ 1 ∧ (tS.part 0).tdi ≠ 2) ∧
    (let u := (tS.begun (tP 0) 0x406 (.partQuery (tP 0) 0 0x800000)).partTaken 0 (tS.opId (tP 0)) 0x406 0 []
     Usable u 0 [(0x800000, (u.partRecord 0).length, true)]) ∧
    (let s := tPt fun x => { x with state := .frozen, mslots := [(3, { value := some 5 })] }
     let t := s.begun (tP 0) 0x403 (.partSave (tP 0) 0 0x800000 1 3)
     let ext := extentsOf 1 (t.hostBytes 0 0x800000 16)
     PartReady s (tP 0) 0 ∧ Usable t 0 [(0x800000, 16, false)] ∧ Usable t 0 (ext.map fun y => (y.1, y.2, true)) ∧ (s.part 0).state = .frozen ∧ (s.part 0).saved = false ∧ (s.part 0).apply = none ∧ (s.part 0).restored = false ∧
     t.locPoison 0 false 0x800000 16 = none ∧ extentsBad ext = false ∧ (s.part 0).imgLen ≤ extentsLen ext ∧ (s.mslot 0 3).isSome = true) :=
  ⟨⟨part_ready _ _ (by decide), part_ready _ _ (by decide), by decide⟩, ⟨part_ready _ _ (by decide), by decide⟩, by decide, by decide,
   ⟨part_ready _ _ (by decide), by decide⟩⟩

/-- PartitionRestore: images of a PARTITION record of one byte and END, sealed under contribution 5 and a salt of zeros, at address 0x810000;
`ty` is the first record's TYPE and `n` the header's NREC. -/
def tKy : BitVec 256 := imageKey 5 1 (List.replicate 16 0)
def tIh (n : Nat) : List Byte :=
  leBytes 4 0x4D495454 ++ leBytes 2 1 ++ List.replicate 30 0 ++ leBytes 4 n ++ leBytes 8 133
def tMig (ty n : Nat) : List Byte := imageOf tKy (tIh n) [(ty, [0]), (0xFFFF, leBytes 4 2)]
def tMigAll (ty n : Nat) : List Byte := tMig ty n ++ List.replicate 3963 0
def tIm (bs : List Byte) : Image := ⟨bs, 5, {}, 2, [], [], [1, 1]⟩
def tRs0 : State := tPt fun x => { x with clean := true, mslots := [(3, { value := some 5 })] }
def tMe : Mem := { tRs0.mem with keys := [(1, none, 5)] }
def tRs (ty n : Nat) : State :=
  { tRs0 with mem := (tMe.write (cellKey 0 0x800000) (leBytes 8 0x810000 ++ leBytes 8 4096)).write (cellKey 0 0x810000) (tMigAll ty n),
              images := [tIm (tMig ty n)] }
def tRt (ty n : Nat) : State :=
  ((tRs ty n).begun (tP 0) 0x404 (.partRestore (tP 0) 0 0x800000 1 3)).modPart 0 fun y =>
    { y with state := .restoring, restoreOp := some (0, (tRs ty n).opId (tP 0)) }
theorem gcmTag_length (k : BitVec 256) (iv : Nat) (a c : List Byte) : (gcmTag k iv a c).length = 16 := beBytes_length _ _
theorem gcmXor_length (k : BitVec 256) (iv : Nat) (l : List Byte) : (gcmXor k iv l).length = l.length := by simp [gcmXor]
theorem gcmXor_twice (k : BitVec 256) (iv : Nat) (l : List Byte) : gcmXor k iv (gcmXor k iv l) = l := by
  apply List.ext_getElem (by simp [gcmXor])
  intro i h1 h2
  simp [gcmXor]
theorem imageParse_cons (fuel : Nat) (h ct tag rest : List Byte) (hh : h.length = 16) (hc : leNat ((h.drop 8).take 4) = ct.length)
    (ht : tag.length = 16) : imageParse (fuel + 1) (h ++ (ct ++ tag) ++ rest) = (h, ct, tag) :: imageParse fuel rest := by
  have e1 : ((h ++ (ct ++ tag) ++ rest).drop 8).take 4 = (h.drop 8).take 4 := by
    simp [List.drop_append, List.take_append, hh]
  have e2 : h ++ (ct ++ tag) ++ rest ≠ [] := fun e => by have := congrArg List.length e; simp [hh] at this
  have e3 : (h ++ (ct ++ tag) ++ rest).take 16 = h := by rw [List.append_assoc]; exact List.take_left' hh
  have e4 : (h ++ (ct ++ tag) ++ rest).drop 16 = ct ++ (tag ++ rest) := by
    rw [List.append_assoc, List.append_assoc]; exact List.drop_left' hh
  have e5 : (h ++ (ct ++ tag) ++ rest).drop (16 + ct.length) = tag ++ rest := by
    rw [← List.drop_drop, e4]; exact List.drop_left' rfl
  have e6 : (h ++ (ct ++ tag) ++ rest).drop (32 + ct.length) = rest := by
    rw [show 32 + ct.length = (16 + ct.length) + 16 by omega, ← List.drop_drop, e5]; exact List.drop_left' ht
  simp only [imageParse, e1, hc, e2, if_false, e3, e4, e5, e6, List.take_left' ht, List.take_left' (rfl : ct.length = ct.length)]
theorem tMig_eq (ty n : Nat) : tMig ty n = (tIh n ++ gcmTag tKy (recIv 0xFFFFFFFF) (tIh n) []) ++
    (recHdr 0 ty 1 ++ (gcmXor tKy (recIv 0) [0] ++ gcmTag tKy (recIv 0) (tIh n ++ recHdr 0 ty 1) (gcmXor tKy (recIv 0) [0])) ++
    (recHdr 1 0xFFFF 4 ++ (gcmXor tKy (recIv 1) (leBytes 4 2) ++
      gcmTag tKy (recIv 1) (tIh n ++ recHdr 1 0xFFFF 4) (gcmXor tKy (recIv 1) (leBytes 4 2))) ++ [])) := rfl
theorem tIh_length (n : Nat) : (tIh n).length = 48 := rfl
theorem tMig_length (ty n : Nat) : (tMig ty n).length = 133 := by
  rw [tMig_eq]
  simp only [List.length_append, gcmTag_length, gcmXor_length, tIh_length]
  rfl
theorem tMig_wf : (tMe.write (cellKey 0 0x800000) (leBytes 8 0x810000 ++ leBytes 8 4096)).wf = true := Mem.wf_write (by decide)
theorem tRt_list (ty n : Nat) : (tRt ty n).hostBytes 0 0x800000 16 = leBytes 8 0x810000 ++ leBytes 8 4096 := by
  have h := Mem.write_same (m := tMe) (k := cellKey 0 0x800000) (bs := leBytes 8 0x810000 ++ leBytes 8 4096) (by decide)
  refine Eq.trans (List.ext_getElem (by simp [State.hostBytes, cellsGet]) fun i h1 h2 => ?_) h
  simp only [State.hostBytes, cellsGet, List.getElem_map, List.getElem_range, List.length_map, List.length_range] at h1 ⊢
  exact Mem.write_other tMig_wf (Or.inl (by simp only [cellKey]; omega))
theorem tRt_image (ty n : Nat) : (tRt ty n).readExtents 0 [(0x810000, 4096)] = tMigAll ty n := by
  have h := Mem.write_same (k := cellKey 0 0x810000) (bs := tMigAll ty n) tMig_wf
  have hl : (tMigAll ty n).length = 4096 := by simp only [tMigAll, List.length_append, List.length_replicate, tMig_length]
  rw [hl] at h
  exact (List.append_nil _).trans h
theorem tMig_take (ty n : Nat) : (tMigAll ty n).take 133 = tMig ty n := List.take_left' (tMig_length ty n)
theorem tMig_parse (ty n : Nat) : imageParse ((tMig ty n).length / 32 + 1) ((tMig ty n).drop 64) =
    [(recHdr 0 ty 1, gcmXor tKy (recIv 0) [0], gcmTag tKy (recIv 0) (tIh n ++ recHdr 0 ty 1) (gcmXor tKy (recIv 0) [0])),
     (recHdr 1 0xFFFF 4, gcmXor tKy (recIv 1) (leBytes 4 2),
      gcmTag tKy (recIv 1) (tIh n ++ recHdr 1 0xFFFF 4) (gcmXor tKy (recIv 1) (leBytes 4 2)))] := by
  rw [tMig_length, tMig_eq, List.drop_left' (by simp only [List.length_append, gcmTag_length, tIh_length])]
  show imageParse (4 + 1) _ = _
  rw [imageParse_cons _ _ _ _ _ rfl (by rw [gcmXor_length]; rfl) (gcmTag_length _ _ _ _),
    imageParse_cons 3 _ _ _ _ rfl (by rw [gcmXor_length]; rfl) (gcmTag_length _ _ _ _)]
  rfl
theorem tMig_head (ty n : Nat) : (tMig ty n).take 48 = tIh n := by rw [tMig_eq, List.append_assoc]; exact List.take_left' (tIh_length n)
theorem tMig_tag (ty n : Nat) : ((tMig ty n).drop 48).take 16 = gcmTag tKy (recIv 0xFFFFFFFF) (tIh n) [] := by
  rw [tMig_eq, List.append_assoc, List.drop_left' (tIh_length n)]; exact List.take_left' (gcmTag_length _ _ _ _)
theorem tMig_key (ty n : Nat) : imgKey (tMig ty n) 5 = tKy := rfl
theorem tMig_nrec (ty n : Nat) : leNat (((tMig ty n).drop 36).take 4) = leNat (((tIh n).drop 36).take 4) := by
  rw [tMig_eq, List.append_assoc, List.drop_append_of_le_length (by rw [tIh_length]; omega),
    List.take_append_of_le_length (by rw [List.length_drop, tIh_length]; omega)]
theorem recGood_of (key : BitVec 256) (hdr ct : List Byte) (i ty : Nat) (h : recType (recHdr i ty ct.length) = ty)
    (hn : 1 ≤ ct.length ∧ ct.length ≤ 1048576) :
    recGood key hdr i (recHdr i ty ct.length, ct, gcmTag key (recIv i) (hdr ++ recHdr i ty ct.length) ct) = true := by
  simp [recGood, h, hn]
theorem tRs_head (ty n : Nat) (s : State) (hs : s.images = [tIm (tMig ty n)]) (ht : recType (recHdr 0 ty 1) = ty) :
    s.imageFor (tMig ty n) 5 = if ty = 1 then some (tIm (tMig ty n), false,
      decide (2 = leNat (((tIh n).drop 36).take 4))) else none := by
  have g0 : recGood tKy (tIh n) 0 (recHdr 0 ty 1, gcmXor tKy (recIv 0) [0], gcmTag tKy (recIv 0) (tIh n ++ recHdr 0 ty 1)
      (gcmXor tKy (recIv 0) [0])) = true :=
    recGood_of tKy (tIh n) (gcmXor tKy (recIv 0) [0]) 0 ty ht (by rw [gcmXor_length]; decide)
  have g1 : recGood tKy (tIh n) 1 (recHdr 1 0xFFFF 4, gcmXor tKy (recIv 1) (leBytes 4 2), gcmTag tKy (recIv 1) (tIh n ++ recHdr 1 0xFFFF 4)
      (gcmXor tKy (recIv 1) (leBytes 4 2))) = true :=
    recGood_of tKy (tIh n) (gcmXor tKy (recIv 1) (leBytes 4 2)) 1 0xFFFF (by rw [gcmXor_length]; rfl) (by rw [gcmXor_length]; decide)
  have e : recType (recHdr 1 0xFFFF 4) = 0xFFFF := by decide
  have f : (tIm (tMig ty n)).contrib = 5 ∧ (tIm (tMig ty n)).bytes = tMig ty n := ⟨rfl, rfl⟩
  by_cases h : ty = 1
  · subst h
    simp [State.imageFor, tMig_parse, imageHead, imageTail, imageReserved, tMig_key, tMig_tag, tMig_head, tMig_nrec, hs, g1, ht, e, f, gcmXor_twice,
      List.range_succ]
    exact ⟨g0, fun _ => g0⟩
  · simp [State.imageFor, tMig_parse, imageHead, tMig_key, tMig_tag, tMig_head, ht, h]
theorem tMig_pre (ty n k m : Nat) (h : k + m ≤ 48) : ((tMigAll ty n).drop k).take m = ((tIh n).drop k).take m := by
  rw [tMigAll, tMig_eq, List.append_assoc, List.append_assoc, List.drop_append_of_le_length (by rw [tIh_length]; omega),
    List.take_append_of_le_length (by rw [List.length_drop, tIh_length]; omega)]
theorem tRt_ext (ty n : Nat) : extentsOf 1 ((tRt ty n).hostBytes 0 0x800000 16) = [(0x810000, 4096)] := by rw [tRt_list]; decide
theorem tMig_len8 (ty n : Nat) : leNat (((tMigAll ty n).drop 40).take 8) = 133 := by rw [tMig_pre ty n 40 8 (by decide)]; rfl
theorem leBytes_len (n v : Nat) : (leBytes n v).length = n := by simp [leBytes]
theorem tMig_magic (ty n : Nat) : leNat ((tMigAll ty n).take 4) = 0x4D495454 := by
  have h := tMig_pre ty n 0 4 (by decide)
  rw [List.drop_zero] at h
  rw [h, List.drop_zero, tIh, List.append_assoc, List.append_assoc, List.append_assoc, List.take_left' (leBytes_len 4 _)]
  decide
theorem tMig_version (ty n : Nat) : leNat (((tMigAll ty n).drop 4).take 2) = 1 := by rw [tMig_pre ty n 4 2 (by decide)]; rfl
theorem wit_PartitionRestore_image (ty n : Nat) :
    (tRt ty n).readExtents 0 (extentsOf 1 ((tRt ty n).hostBytes 0 0x800000 16)) = tMigAll ty n ∧
    extentsOf 1 ((tRt ty n).hostBytes 0 0x800000 16) = [(0x810000, 4096)] ∧ (tMigAll ty n).take 133 = tMig ty n ∧
    leNat (((tMigAll ty n).drop 40).take 8) = 133 ∧ leNat ((tMigAll ty n).take 4) = 0x4D495454 ∧ leNat (((tMigAll ty n).drop 4).take 2) = 1 :=
  ⟨by rw [tRt_ext, tRt_image], tRt_ext ty n, tMig_take ty n, tMig_len8 ty n, tMig_magic ty n, tMig_version ty n⟩
theorem wit_PartitionRestore :
    let s := tRs 1 2
    let e := tP 0
    let t := tRt 1 2
    let ext := [(0x810000, 4096)]
    PartReady s e 0 ∧ (tRt 1 3).imageFor (tMig 1 3) 5 = some (tIm (tMig 1 3), false, false) ∧
    (tRt 2 2).imageFor (tMig 2 2) 5 = none ∧ t.imageFor (tMig 1 2) 5 = some (tIm (tMig 1 2), false, true) ∧
    Usable t 0 [(0x800000, 16, false)] ∧ Usable t 0 (ext.map fun y => (y.1, y.2, false)) ∧ (s.part 0).state = .active ∧
    (s.part 0).clean = true ∧ (s.part 0).apply = none ∧ t.locPoison 0 false 0x800000 16 = none ∧ extentsBad ext = false ∧ 133 ≤ extentsLen ext ∧
    ext.any (fun e => (t.locPoison 0 false e.1 e.2).isSome) = false ∧ t.mslot 0 3 = some 5 ∧ t.covers 0 (tIm (tMig 1 2)) = true ∧
    ((tIm (tMig 1 2)).ksels.all fun k => t.keyLive (4 * 0 + k)) = true :=
  ⟨part_ready _ _ (by decide), tRs_head 1 3 _ rfl (by decide), tRs_head 2 2 _ rfl (by decide), tRs_head 1 2 _ rfl (by decide), by decide⟩

/-- PartitionEvents: each at the first moment it acts. -/
def tPe (g : Part → Part) : State := (tF fun x => { x with conns := [], ops := [] }).modPart 0 g
theorem wit_PartitionEvents :
    (let a : Applying := ⟨tRec, [], 0, 1, 5000, false, false, false⟩
     let s := tPe fun x => { x with state := .resizing, apply := some a }
     (s.part 0).apply = some a ∧ a.release = false ∧ (s.part 0).state = .resizing ∧ s.blocksClear 0 a.rec_ = true ∧ a.limitAt ≤ (s.tick 5000).now) ∧
    (let s := tPe fun x => { x with state := .resetting, newGen := some 2 }
     (s.part 0).newGen = some 2 ∧ (s.part 0).state = .resetting ∧ (s.fn 4).ops.any (fun o => o.gen = 2) = false ∧ (s.part 0).release = false) ∧
    (let z : Freezing := ⟨0, 1, 5000, 0⟩
     let s := tPe fun x => { x with state := .freezing, freeze := some z, quietTil := 5000 }
     (s.part 0).freeze = some z ∧ (s.part 0).state = .freezing ∧ (s.tick 5000).freezeStill 4 = true ∧ (s.tick 5000).drained 4 = true ∧
     z.limitAt ≤ (s.tick 5000).now ∧ (s.part 0).quietTil ≤ (s.tick 5000).now) ∧
    (let s := (tPe fun x => { x with state := .freezing, freeze := some ⟨0, 1, 5000, 0⟩ }).modConn 4 3 fun _ => { tConn with rx := { tConn.rx with got := [101] } }
     (s.part 0).freeze = some ⟨0, 1, 5000, 0⟩ ∧ (s.tick 0).freezeStill 4 = true ∧ (s.tick 0).drained 4 = false) ∧
    (let en : AddrEntry := { ip := 0x0A000003, ports := 1, valid := true }
     tS.jrnl.full = false ∧ tS.addrUsed 0 15 = false ∧ tS.addrClash 0 15 en = false) :=
  ⟨by decide, by decide, by decide, by decide, by decide⟩
/-- KeyCommands, on the instance's admin ring: the lowest and highest contribution slot, an unnamed selector, connection 3, an empty plaintext. -/
def tKs : State := tPe fun x => { x with slots := [(0, { value := some 5 }), (7, { value := some 6 })] }
theorem wit_KeyCommands :
    (isPf (tE 0).fn.idx = false ∧ (tE 0).ring = 0 ∧ Ready tKs (tE 0) len1 false ∧ tKs.jrnl.full = false ∧ Usable tKs 4 [(0x3000, 64, true)]) ∧
    (tKs.keyLive 3 = false ∧ tKs.noKeys = false ∧ (agetD (tKs.part 0).slots 7 {}).value.isSome = true ∧ (agetD (tKs.part 0).slots 0xFF {}).value = none) ∧
    (let s := { tKs with mem := { tKs.mem with keys := [(3, none, 1)] } }
     Ready s (tE 0) len1 false ∧ s.keyLive 3 = true ∧ s.selNamed 3 = false) ∧
    (Ready tS (tE 0) len1 false ∧ (tS.conn 4 3).state = .established ∧ (tS.conn 4 3).cid.herd = none ∧ (tS.conn 4 3).tx.kepoch ≠ 0xFFFF) ∧
    (tKs.locMiss 4 false 0x1000 0 false = none ∧ tKs.locMiss 4 false 0x2000 48 true = none ∧ tKs.locMiss 4 false 0x1000 48 false = none ∧
     tKs.locPoison 4 false 0x1000 48 = none ∧ tKs.locCheck 4 false 0x1000 48 = [] ∧ tKs.locPoison 4 false 0x1000 0 = none ∧ tKs.locCheck 4 false 0x1000 0 = [] ∧ tKs.locCheck 4 false 0x2000 48 = [] ∧
     (agetD (tKs.part 0).slots 7 {}).value = some 6 ∧ (agetD (tKs.part 0).slots 7 {}).seals < 2 ^ 32) :=
  ⟨⟨rfl, rfl, ready_of (by decide), by decide⟩, by decide, ⟨ready_of (by decide), by decide⟩, ⟨ready_of (by decide), by decide⟩, by decide⟩

/-- A blob of no plaintext whose tag fits, and one whose tag does not. -/
def tBlobHead : List Byte := blobHead 0 7 0 (List.replicate 12 0)
def tTag : List Byte := gcmTag (sealKey 0 7 6) (beNat ((tBlobHead.drop 8).take 12)) tBlobHead []
def tUn (tag : List Byte) : State := { tKs with mem := tKs.mem.write (cellKey 4 0x1000) (tBlobHead ++ tag) }
theorem blob_read (tag : List Byte) (h : tag.length = 16) :
    ((tUn tag).begun (tE 0) 0x484 (.keyUnseal (tE 0) 7 false false 0x1000 0x2000 48)).locRead 4 false 0x1000 48 = tBlobHead ++ tag := by
  have l : (tBlobHead ++ tag).length = 48 := by rw [List.length_append, h]; rfl
  have k := Mem.write_same (m := tKs.mem) (k := cellKey 4 0x1000) (bs := tBlobHead ++ tag) (by rfl)
  rw [l] at k
  exact k
theorem blob_tag (tag : List Byte) :
    gcmTag (sealKey 0 7 6) (beNat (((tBlobHead ++ tag).drop 8).take 12)) ((tBlobHead ++ tag).take 32)
      (((tBlobHead ++ tag).take (48 - 16)).drop 32) = tTag ∧ (tBlobHead ++ tag).drop (48 - 16) = tag := by
  have e : (tBlobHead ++ tag).take 32 = tBlobHead := List.take_left' rfl
  refine ⟨?_, List.drop_left' rfl⟩
  rw [List.drop_append_of_le_length (by decide), List.take_append_of_le_length (by decide), e]
  rfl
theorem wit_KeyCommands_unseal :
    (∀ tag : List Byte, tag.length = 16 → blobFits 0 48 (tBlobHead ++ tag) = true) ∧ blobFits 0 48 (List.replicate 48 0) = false ∧
    (tTag.length = 16 ∧ gcmTag (sealKey 0 7 6) (beNat (((tBlobHead ++ tTag).drop 8).take 12)) ((tBlobHead ++ tTag).take 32)
      (((tBlobHead ++ tTag).take (48 - 16)).drop 32) = (tBlobHead ++ tTag).drop (48 - 16)) ∧
    (let bad := tTag.map fun b => ~~~ b
     bad.length = 16 ∧ gcmTag (sealKey 0 7 6) (beNat (((tBlobHead ++ bad).drop 8).take 12)) ((tBlobHead ++ bad).take 32)
      (((tBlobHead ++ bad).take (48 - 16)).drop 32) ≠ (tBlobHead ++ bad).drop (48 - 16)) := by
  have l : tTag.length = 16 := gcmTag_length _ _ _ _
  have lb : (tTag.map fun b => ~~~ b).length = 16 := by rw [List.length_map, l]
  refine ⟨fun tag _ => by rfl, by decide, ⟨l, ?_⟩, lb, ?_⟩
  · rw [(blob_tag _).1, (blob_tag _).2]
  · rw [(blob_tag _).1, (blob_tag _).2]
    intro h
    have h0 : tTag.headD 0 = ~~~ tTag.headD 0 := congrArg (fun l => l.headD 0) h
    exact (show ∀ b : Byte, b ≠ ~~~ b by decide) _ h0
/-- SecurityRequests: a session of the VF that has locked its interface, four sessions less one, every measurement, and streams 0 and 17. -/
def tSe (g : Part → Part) : State := { tPe g with sec := { sessions := [(.vf 0, 1), (.vf 0, 2), (.vf 0, 3), (.pf 0, 4)], nextSess := 5 } }
theorem wit_SecurityRequests :
    (let s := tSe fun x => { x with tdi := 1, lockedBy := some 1 }
     s.responds (.vf 0) = true ∧ s.fwTurn 4 = true ∧ s.jrnl.full = false ∧ s.contribOpen 0 1 = true ∧ (7 < (if 0 = 0 then 8 else 4)) ∧ (3 < (if 1 = 0 then 8 else 4))) ∧
    (let s := tSe id
     s.responds (.vf 0) = true ∧ s.responds (.pf 0) = true ∧ s.fwTurn 4 = true ∧ s.jrnl.full = false ∧
     (s.sec.sessions.filter fun x => x.1 = .vf 0).length < 4 ∧ s.noKeys = false ∧ s.session (.vf 0) 3 = true ∧ s.session (.pf 0) 4 = true ∧
     (s.part 0).tdi = 0) ∧
    (((tSe id).measurement (.vf 0) 1).isSome = true ∧ ((tSe id).measurement (.vf 0) 6).isSome = true) ∧
    ((tSe id).sec.sessions.any (fun x => x.1 = .pf 0) = true ∧ 18 ≤ 18) ∧ ((tSe fun x => { x with tdi := 1 }).part 0).tdi = 1 :=
  ⟨by decide, by decide, ⟨rfl, rfl⟩, by decide, by decide⟩

/-- KeyEvents: a contact after its eighth silence and one before it, at the first moment of a retry; and three bad windows. -/
def tCon (n : Nat) : Contact := ⟨0x0A000002, n, 0, 3, true⟩
def tKe (n : Nat) : State := { tS with sec := { contacts := [tCon n], badRun := 2 } }
theorem wit_KeyEvents :
    ((tKe 8).firmwareUp = true ∧ (tKe 7).firmwareUp = true ∧ (tKe 8).noKeys = false ∧ (tKe 8).jrnl.full = false ∧ ((tKe 8).tick 0).fwTurn 3 = true ∧ ((tKe 8).tick 1000000).fwTurn 3 = true ∧
     ((tKe 7).tick 1000000).fwTurn 3 = true ∧ ((tKe 8).sec.contacts.find? fun x => x.ip = 0x0A000002) = some (tCon 8) ∧
     (((tKe 8).tick 0).sec.contacts.any fun c => c.ip = 0x0A000002 && c.mine) = true ∧ ((tKe 8).tick 0).rival 0x0A000002 5 ⟨false, true, 0⟩ = false ∧
     (tKe 8).minSvn ≤ 0) ∧
    ((((tKe 8).tick 1000000).sec.contacts.find? fun c => c.ip = 0x0A000002 ∧ c.at_ + 1000000 ≤ ((tKe 8).tick 1000000).now) = some (tCon 8) ∧
     8 ≤ (tCon 8).tries) ∧
    ((((tKe 7).tick 1000000).sec.contacts.find? fun c => c.ip = 0x0A000002 ∧ c.at_ + 1000000 ≤ ((tKe 7).tick 1000000).now) = some (tCon 7) ∧
     (tCon 7).tries < 8) ∧
    (let s := (tCs { tConn with rx := { tConn.rx with nextKey := 1 } }).setDeriving (tS.oryxOf 4 3) [⟨true, 4, 3, true⟩]
     (s.conn 4 3).rx.nextKey = 1 ∧ s.noKeys = false ∧ s.deriveTurn 4 3 true = true) ∧
    2 ≤ (tKe 8).sec.badRun ∧ (tKe 8).sec.failed = false ∧
    tS.sec.badRun < 2 :=
  ⟨by decide, by decide, by decide, by decide, by decide, by decide, by decide⟩

/-! ### Witnesses: the journal, failures, the mailbox -/

/-- JournalExport: the first record, with a ring of the smallest size, its page there or missing, and with a word lost on die; and one written and not yet visible. -/
def tJr : JRec := { seq := 0, time := 5, tepoch := 0, origin := .firmware, body := .boot 0 0 0 }
def tEx : State := { tS with regs := [(0x2400000, 0x900000), (0x2400008, 16 + 2 ^ 31)], jrnl := { recs := [tJr], next := 1 } }
theorem wit_JournalExport :
    (tEx.mayExport = true ∧ tEx.jrnl.written < tEx.jrnlHead + 2 ^ tEx.jrnlLog / 128 ∧ (tEx.jrnl.recs.find? fun r => r.seq = 0) = some tJr ∧
     tJr.bad = false ∧ tEx.missing tEx.jrnlLink (tEx.jrnlBase + 0) 128 true = none ∧
     ((tAtsOn tEx.jrnlLink tEx).missing tEx.jrnlLink tEx.jrnlBase 128 true).isSome = true ∧
     (({ tEx with jrnl := { recs := [{ tJr with bad := true }], next := 1 } } : State).jrnl.recs.find? fun r => r.seq = 0) = some { tJr with bad := true }) ∧
    (let s := { tEx with jrnl := { tEx.jrnl with written := 1 } }
     s.jrnl.exported < s.jrnl.written) :=
  ⟨by decide, by decide⟩

/-- PortsAndFences: a port that is up and one that comes up, an orderly fence with no work left and one whose wait is over, and one that may
be lifted. -/
def tFc (x : Fence) : State := { tS with err := { fences := [(1, x)], tested := [1] }, card := { cages := [(0, { present := true, on := true })] } }
theorem wit_PortsAndFences :
    (((tHead []).tick 5).bp 0 0).up = true ∧
    (let s := tFc { done := true }
     0 < (s.port 0).bpCount ∧ aget s.err.fences (0 / 2) = none ∧ s.powered = true ∧ s.err.fatal = false ∧ s.mgmt.recovery = false ∧
     s.mgmt.running = true ∧ (s.bp 0 0).up = false ∧ (s.cage 0).present = true ∧ (s.cage 0).on = true ∧ (s.cage 0).lowpwr = false) ∧
    (let s := tFc { since := 7 }
     aget s.err.fences 1 = some { since := 7 } ∧ s.movedOff 1 = true ∧ 7 + (s.tick (7 + s.fenceWait)).fenceWait ≤ (s.tick (7 + s.fenceWait)).now ∧
     ({ since := 7 } : Fence).done = false) ∧
    (let s := tFc { done := true }
     s.jrnl.full = false ∧ ((bitList 4 (bitsOf (15 * 2 ^ 8) 8 4)).filter fun n => (aget s.err.fences n).isNone) = [0, 2, 3] ∧
     ((bitList 4 (bitsOf (15 * 2 ^ 12) 12 4)).filter fun n => s.mayLift n) = [1]) :=
  ⟨by decide, by decide, by decide, by decide⟩

/-- ErrorRecords: the first report of a block, an action that is over with none and with one waiting, a record without an action; a corrected error of a cell of the last block. -/
def tEr (r : ErrRec) : State := { tS with err := { recs := [(63, r)] } }
theorem wit_ErrorRecords :
    (let r : ErrReport := ⟨92, 0, 1, 9, 0⟩
     r.block < 93 ∧ r.cell ≠ 0xFF ∧ severity r.code r.block = 0 ∧ r.code ≠ 8) ∧
    (let r : ErrReport := ⟨63, 0xFF, 2, 9, 0⟩
     r.block < 64 ∧ r.cell = 0xFF ∧ severity r.code r.block < 2 ∧ r.code ≠ 8 ∧ (tS.rec_ r.block).valid = false) ∧
    (let a : ErrAct := ⟨2, 63, 7⟩
     ((tEr { run := some a }).rec_ (RecRef.block 63).key).run = some a ∧ (tEr { run := some a }).actionOver (RecRef.block 63).key = true ∧
     ((tEr { run := some a }).rec_ (RecRef.block 63).key).waits = [] ∧
     ((tEr { run := some a, waits := [a] }).rec_ (RecRef.block 63).key).waits = [a]) ∧
    (tS.jrnl.full = false ∧ (tS.rec_ RecRef.chip.key).run = none) :=
  ⟨by decide, by decide, by decide⟩

/-- Scrubbing: the last line of a region's macros and the one before it, a DRAM scrubber with and without a line, and a lap just too long. -/
theorem wit_Scrubbing :
    (let s := tS.modScrub 3 fun x => { x with next := sramLines - 1 }
     (s.tick 5).scrubRuns 3 = true ∧ sramLines ≤ ((s.tick 5).scrub 3).next + 1) ∧
    ((tS.tick 5).scrubRuns 3 = true ∧ ((tS.tick 5).scrub 3).next + 1 < sramLines) ∧
    ((tS.tick 5).scrubRuns 4 = true ∧ (tS.tick 5).dramLine 4 = none) ∧
    ((tS.tick (tS.scrubLimit + 1)).scrub 5).urgent = false ∧
    ((tS.tick (tS.scrubLimit + 1)).scrub 5).lapAt + (tS.tick (tS.scrubLimit + 1)).scrubLimit < (tS.tick (tS.scrubLimit + 1)).now :=
  ⟨by decide, by decide, by decide, by decide, by decide⟩
theorem wit_Scrubbing_line :
    ∃ k : Nat, 4 ≤ k ∧ k < 6 ∧ (({ tS with mem := { touched := [0] } } : State).tick 5).dramLine k = some 0 := by
  have h : Config.stackOf 0 % 2 < 2 := Nat.mod_lt _ (by decide)
  refine ⟨4 + Config.stackOf 0 % 2, Nat.le_add_right _ _, by omega, ?_⟩
  have n : ((({ tS with mem := { touched := [0] } } : State).tick 5).scrub (4 + Config.stackOf 0 % 2)).next = 0 := rfl
  simp [State.dramLine, n]

/-- Mailbox: an instance whose mailbox has the smallest ring: one entry free for a message, one taken, one reply to write into the last
place. -/
def tMsg (c : Nat) : MbxMsg := ⟨c, 1, 9, List.replicate 56 0⟩
def tRp : MbxReply := ⟨.ok, 0, 1, 9, 0, []⟩
def tMb (g : Mbx → Mbx) : State := tF fun x => { x with mbx := g { rbase := 0x10, rlog := 4, vector := 1 } }
theorem wit_Mailbox :
    (let s := tMb fun m => { m with queue := List.replicate 15 (tMsg 0) }
     s.power.saiga ≠ 2 ∧ s.answers 4 = true ∧ (s.part 0).cur.link = 0 ∧ (List.replicate 56 (0 : Byte)).length = 56 ∧ (s.fn 4).mbx.enabled = true ∧
     (s.fn 4).mbx.used < 16 ∧ (s.part 0).state ≠ .frozen) ∧
    (let s := tMb fun m => { m with queue := [tMsg 0x300] }
     (s.fn 4).mbx.taken = none ∧ (s.fn 4).mbx.queue = [tMsg 0x300] ∧ s.serves = true ∧ (tMsg 0x300).gen = (s.fn 4).gen ∧ mbxKnown 0x300 = true ∧
     (tMsg 0x300).rsv = false ∧ s.mgmt.shed = false ∧ s.jrnl.full = false) ∧
    (∀ c ∈ [0x000, 0x001, 0x100, 0x200, 0x300], ((tMb fun m => { m with taken := some (tMsg c) }).fn 4).mbx.taken = some (tMsg c)) ∧
    (let s := tMb fun m => { m with replies := [tRp], tail := 14, head := 0 }
     let m := (s.fn 4).mbx
     m.replies[0]? = some tRp ∧ m.enabled = true ∧ s.serves = true ∧ tRp.gen = (s.fn 4).gen ∧ (m.tail + 1) % 2 ^ m.rlog ≠ m.head % 2 ^ m.rlog ∧
     s.missing 4 (2 ^ 12 * m.rbase + 64 * m.tail) 64 true = none ∧ (s.part 0).state ≠ .frozen ∧ s.answers 4 = true ∧ s.jrnl.full = false) :=
  ⟨by decide, by decide, by decide, by decide⟩
/-! ### Witnesses: frames, ports, clocks, the card -/

/-- FramesAndFilters: a frame of an EtherType that one entry matches and one that none does, to this port and to a group; one to another
address; MAC control; slow protocols; a TLT datagram; a full ingress buffer; a free and a retiring index; and frames of the smallest and
largest length on a raw ring of the physical function. -/
def tFm (mac et : Nat) (rest : List Byte) : Frame := ⟨0, 0, beBytes 6 mac ++ List.replicate 6 0 ++ beBytes 2 et ++ rest ++ List.replicate 46 0, 0⟩
def tDg : Frame :=
  tFm 0 0x0800 ([0x45, 0, 0, 28, 0, 0, 0, 0, 64, 17, 0, 0, 10, 0, 0, 1, 10, 0, 0, 2] ++ beBytes 2 1 ++ beBytes 2 tS.udpPort ++ beBytes 2 8 ++ [0, 0])
def tW0 : Nat × Nat := (1 + 2 ^ 8 + 0x88B5 * 2 ^ 32 + 0xFFFF * 2 ^ 48, 0)
def tFl : State :=
  { tS.modPort 0 (fun x => { x with bps := [(0, { up := true, lanes := 8 })] }) with flts := { cur := [(7, tW0)], index := 255, retiring := [(255, tW0)] } }
def tPlain (s : State) (f : Frame) : Prop :=
  f.etype ≠ 0x8808 ∧ f.etype ≠ 0x8809 ∧ ¬ (f.etype = 0x88F7 ∨ f.udpPort = some 319 ∨ f.udpPort = some 320 ∨ f.etype = 0x0806 ∨ f.nd = true ∨
    f.udpPort = some (s.fld 0x1400000 0 16))
theorem wit_FramesAndFilters_in :
    (tFl.bp 0 0).up = true ∧
    (let s := tFl.modPort 0 fun x => { x with ingress := 1048576 }
     (s.bp 0 0).up = true ∧ s.isTlt tDg = true ∧ s.ingressRoom 0 tDg.base.cls = false ∧ s.isTlt (tFm 0 0x88B5 []) = false ∧
     ∃ t, s.ingressTake 0 0 ((tFm 0 0x88B5 []).bytes.length + 4) = (false, t)) ∧
    (tFl.isTlt tDg = true ∧ tFl.ingressRoom 0 tDg.base.cls = true ∧ tDg.toMac = tFl.mac 0 0 ∧ tPlain tFl tDg) ∧
    ∀ m ∈ [0, 1, 2 ^ 40], ∀ x ∈ [(0x88B5, []), (0x88B6, []), (0x8808, []), (0x8809, [0x0A, 0x7A, 0x51, 0xC4]), (0x88F7, [])],
      let f := tFm m x.1 x.2
      ∃ t, tFl.isTlt f = false ∧ tFl.ingressTake 0 0 (f.bytes.length + 4) = (true, t) ∧
       (m = 1 → f.group = false ∧ f.toMac ≠ t.mac 0 0) ∧ (m ≠ 1 → f.group = true ∨ f.toMac = t.mac 0 0) ∧ f.etype = x.1 ∧
       (x.1 = 0x8809 → f.subtype = 0x0A ∧ f.oui ≠ 0x7A51C3) ∧ (x.1 = 0x88B5 ∨ x.1 = 0x88B6 → tPlain t f) ∧
       (x.1 = 0x88B5 → (t.flts.cur.find? fun (e : Nat × (Nat × Nat)) => t.fltMatch e.2 f) = some (7, tW0)) ∧
       (x.1 = 0x88B6 → (t.flts.cur.find? fun (e : Nat × (Nat × Nat)) => t.fltMatch e.2 f) = none) := by
  refine ⟨by decide, ⟨by decide, by decide, by decide, by decide, ⟨_, pair_no (by decide)⟩⟩, by unfold tPlain; decide, ?_⟩
  intro m hm x hx
  refine ⟨(tFl.ingressTake 0 0 ((tFm m x.1 x.2).bytes.length + 4)).2, ?_⟩
  unfold tPlain
  simp only [List.mem_cons, List.not_mem_nil, or_false] at hm hx
  rcases hm with rfl | rfl | rfl <;> rcases hx with rfl | rfl | rfl | rfl | rfl <;>
    exact ⟨by decide, pair_of (by decide), by decide, by decide, by decide, by decide, by decide, by decide, by decide⟩
theorem wit_FramesAndFilters :
    (tFl.jrnl.full = false ∧ tFl.flts.held = false ∧ (aget tFl.flts.retiring 254).isNone = true ∧ (aget tFl.flts.retiring 255).isSome = true) ∧
    (Ready tFl (tP 1) len1 true ∧ isPf 0 = true ∧ 60 ≤ tFl.maxFrame 0 - 4 ∧ tFl.locCheck 0 false 0x90000 (tFl.maxFrame 0 - 4) = [] ∧ (tFl.bp 0 0).degraded = false ∧
     tFl.locMiss 0 false 0x90000 (tFl.maxFrame 0 - 4) false = none ∧ (tFl.bp 0 0).up = true ∧ (tFl.bp 0 1).up = false ∧
     (isPf 0 || (tFl.part (partOf 0)).cur.ports.testBit 0) = true ∧ tFl.locPoison 0 false 0x90000 (tFl.maxFrame 0 - 4) = none ∧ tFl.locPoison 0 false 0x90000 60 = none) :=
  ⟨by decide, ⟨ready_of (by decide), by decide⟩⟩

/-- FlowControl: a port that takes PAUSE, one that takes PFC above XOFF, above XON and below it, the 100th bad interval and the 1,000th clear one. -/
def tPo (v cfg : Nat) (n : Nat) (b : Bp) : State :=
  { tS.modPort 0 (fun x => { x with ingress := n, ingAt := 10 ^ 9, bps := [(0, b)] }) with regs := [(portOff 0, v), (portOff 0 + 0x20, cfg)] }
def tBp : Bp := { up := true, lanes := 8 }
def tPfc : Nat := 1 + 2 ^ 8 * 4 + 2 ^ 18 * 2
theorem wit_FlowControl :
    (let t := (tPo 4 0 0 tBp).tick 5
     (t.bp 0 0).up = true ∧ t.fc 0 = 1 ∧ (t.bp 0 0).pauseAll ≤ t.now ∧ agetD (t.bp 0 0).pauseEnd 7 0 ≤ t.now) ∧
    (let t := (tPo 8 tPfc 4097 tBp).tick 5
     t.fc 0 = 2 ∧ bitList 8 (t.fld (portOff 0 + 0x20) 0 8) ≠ [] ∧ (t.bp 0 0).pfcOn = false ∧ t.xoff 0 < t.ingressHeld 0) ∧
    (let t := (tPo 8 tPfc 2047 { tBp with pfcOn := true }).tick 5
     (t.bp 0 0).pfcOn = true ∧ t.ingressHeld 0 < t.xon 0) ∧
    (let t := (tPo 8 tPfc 2049 { tBp with pfcOn := true }).tick 20000
     (t.bp 0 0).pfcOn = true ∧ t.xon 0 < t.ingressHeld 0 ∧ (t.bp 0 0).pfcAt + 20000 ≤ t.now) ∧
    (let b : Bp := { tBp with overs := 99 }
     (b.alarm || decide (0 < 1 ∧ 1000 ≤ 1000 * 1)) = true ∧ b.degraded = false ∧ 100 ≤ b.overs + 1) ∧
    (let b : Bp := { tBp with degraded := true, clear := 999 }
     (b.alarm || decide (0 < 1 ∧ 1001 ≤ 1000 * 1)) = false ∧ b.degraded = true ∧ 1000 ≤ b.clear + 1) ∧
    (tBp.degraded = false ∧ tBp.overs + 1 < 100) :=
  ⟨by decide, by decide, by decide, by decide, by decide, by decide, by decide⟩

/-- LaneShedding: the latest CAP; a sample with a request under way, one of a busy port on half its lanes and one of an idle port on all of
them; a request and its answers; a target and its MARKs. -/
def tSh (b : Bp) : State := tPo (2 ^ 4) 0 0 { b with up := true, shedPeer := true }
theorem wit_LaneShedding :
    ((tSh tBp).now ≤ tBp.upAt + 10000000 ∧ ((tSh tBp).bp 0 0).up = true) ∧
    (((tSh { tBp with shedReq := some (1, 4, 0) }).bp 0 0).shedReq.isSome = true ∧ 0 + 100000 ≤ ((tSh tBp).tick 100000).now) ∧
    (let s := (tSh { tBp with lanes := 2, sentBytes := 10 ^ 9 }).tick 100000
     let b := s.bp 0 0
     b.up = true ∧ 100000 ≤ s.now - b.sampAt ∧ b.shedReq = none ∧ b.target = none ∧ b.holdTil ≤ s.now ∧ b.lanes < modeLanes (s.port 0).mode ∧
     s.overPct 0 0 (b.sentBytes - b.sampTx) (s.now - b.sampAt) (s.shedUp 0) = true) ∧
    (let s := (tSh { tBp with lanes := 4, belowAt := some 0 }).tick 2000000000
     let u := s.modBp 0 0 fun x => { x with sampAt := s.now, belowAt := some 0, msAt := s.now }
     modeLanes (s.port 0).mode ≤ (s.bp 0 0).lanes ∧ 2 ≤ (s.bp 0 0).lanes ∧ u.canShed 0 0 = true ∧ u.belowLong 0 0 = true) ∧
    (let s := tSh { tBp with lanes := 4 }
     (s.bp 0 0).up = true ∧ (s.bp 0 0).target = none ∧ 2 ≤ modeLanes (s.port 0).mode ∧ 2 ≠ (s.bp 0 0).lanes ∧ 2 < (s.bp 0 0).lanes ∧
     s.belowLong 0 0 = false ∧ (s.bp 0 0).shedReq = none ∧ ((tSh { tBp with lanes := 2 }).bp 0 0).lanes < 4 ∧
     ((tSh { tBp with lanes := 2 }).bp 0 0).shedReq = none ∧ ((tSh { tBp with lanes := 2 }).bp 0 0).target = none) ∧
    (let s := fun (n : Nat) (b : Nat) => tSh { tBp with lanes := b, shedReq := some (1, n, 0) }
     ((s 1 4).bp 0 0).up = true ∧ ((s 1 4).bp 0 0).target = none ∧ 2 ≤ modeLanes ((s 1 4).port 0).mode ∧ ((s 1 4).bp 0 0).shedReq = some (1, 1, 0) ∧
     ((s 2 4).bp 0 0).shedReq = some (1, 2, 0) ∧ (s 2 4).mac 0 0 ≤ 2 ^ 47 ∧
     ((s 4 1).bp 0 0).shedReq = some (1, 4, 0) ∧ 2 ≠ ((s 4 1).bp 0 0).lanes) ∧
    (let s : State := { tSh { tBp with lanes := 4, shedReq := some (1, 2, 0) } with regs := [(portOff 0, 2 ^ 4), (portOff 0 + 0x40, 5)] }
     (s.bp 0 0).shedReq = some (1, 2, 0) ∧ (s.bp 0 0).lanes ≠ 2 ∧ 4 < s.mac 0 0) ∧
    (let s := (tSh { tBp with shedReq := some (1, 2, 0) }).tick 1000000
     (s.bp 0 0).shedReq = some (1, 2, 0) ∧ 0 + 1000000 ≤ s.now) ∧
    (let s := (tSh { tBp with lanes := 2, target := some 4 }).tick 1000000
     (s.bp 0 0).target = some 4 ∧ (s.bp 0 0).lanes < 4 ∧ (s.bp 0 0).markSent = false) ∧
    (let s := (tSh { tBp with markSent := true }).tick 1000000
     (s.bp 0 0).markSent = true ∧ (s.bp 0 0).markRcvd = false ∧ (s.bp 0 0).markAt + 1000000 ≤ s.now) :=
  ⟨by decide, by decide, by decide, by decide, by decide, by decide, by decide, by decide⟩

/-- ModulesAndTime: an empty and a filled cage, a mode that changes and one that stays, adjustments of 1 ms and of 1 ns more, and a Sync of the
configured port. -/
def tTi (v : Nat) : State := { tHead [] with regs := [(0x2800008, v)] }
theorem wit_ModulesAndTime :
    ((tS.cage 0).present = false ∧ ((tFc {}).cage 0).present = true ∧ tS.jrnl.full = false ∧ tS.edgeDown (0 / 2) = false) ∧
    (2 % 4 ≠ 3 ∧ 2 % 4 ≠ (tS.port 0).mode ∧ 0 % 4 = (tS.port 0).mode) ∧
    ((tTi 2).timeSrc = 2 ∧ signedOf 64 (unsignedOf 64 1000000) = 1000000 ∧ 1000000 < signedOf 64 (unsignedOf 64 1000001) ∧
     signedOf 64 (unsignedOf 64 (-1000001)) < -1000000) ∧
    (let t := (tTi (1 + 2 ^ 8 * 24)).tick 5
     t.fwTurn 2 = true ∧ t.timeSrc = 1 ∧ bitsOf (t.reg 0x2800008) 2 3 = 0 ∧ bitsOf (t.reg 0x2800008) 5 2 = 0 ∧ bitsOf (t.reg 0x2800008) 8 8 = 24 ∧ (t.bp 0 0).up = true) ∧
    tS.now ≤ 5 :=
  ⟨by decide, by decide, by decide, by decide, by decide⟩
/-- ClocksAndRegions: a domain below its effective k with its rail up, each state of a waking domain, and idle times at their end. -/
def tPw (g : RegPow → RegPow) : State := ({ tS with regs := (List.range 4).map fun n => (0x200100 + 8 * n, 10 + 2 ^ 16 * 20) } : State).modDom 0 g
def tSt (p : Power) : State := { tS with power := p }
theorem wit_ClocksAndRegions :
    (let s := (tS.refStable 0).modDom 0 fun d => { d with rail := railV 5 }
     s.mayStep 0 = true) ∧
    (((tPw fun d => { d with hold := true }).dom 0).hold = true ∧ (tPw fun d => { d with hold := true }).mayStep 0 = false ∧
     ((tSt { refPend := 1 }).dom 0).hold = false) ∧
    ((tS.dom 0).powered = true ∧ railNear (tS.setpoint 0) (tS.setpoint 0) = true) ∧
    ((tSt { stable := false }).power.stable = false ∧ (tSt { stable := false }).powered = true ∧ (tSt { stable := true }).power.stable = true) ∧
    ((tSt { refPend := 2 ^ 5 }).power.refPend.testBit 5 = true ∧ (tSt { lock := 0x3F }).power.lock.testBit 5 = true ∧ (tSt { lock := 0x3F }).onRef 5 = false) ∧
    (tS.jrnl.full = false ∧ ((bitList 6 tS.power.ref).filter fun d => ! (1 : Nat).testBit d && ! tS.mayReturn d) = []) ∧
    (let s := tPw fun d => { d with st := 0, wake := 0 }
     let t := s.tick 10000
     (s.dom 0).st = 0 ∧ (s.dom 0).wake = 0 ∧ t.idleNs 0 = 10000 ∧ (s.dom 0).since + t.idleNs 0 ≤ t.now ∧ t.regionBusy 0 = false ∧ t.powered = true) ∧
    (let s := tPw fun d => { d with st := 1 }
     let t := s.tick 20000
     (s.dom 0).st = 1 ∧ t.idleNs 0 ≠ 0 ∧ t.dozeNs 0 = 20000 ∧ (s.dom 0).since + t.dozeNs 0 ≤ t.now ∧ t.regionBusy 0 = false) ∧
    (((tPw fun d => { d with st := 2, wake := 0 }).dom 0).st = 2 ∧ ((tPw fun d => { d with st := 2, wake := 0 }).dom 0).wake = 0 ∧
     ((tPw fun d => { d with wake := 2 }).dom 0).wake = 2 ∧ ((tPw fun d => { d with wake := 3 }).dom 0).wake = 3) :=
  ⟨by decide, by decide, by decide, by decide, by decide, by decide, by decide, by decide, by decide⟩

/-- SleepAndLimits: a device that may sleep, each wake source, powers just past and at the limit, and rails just too far. -/
def tEmp : State := { tS with parts := [], fns := [] }
theorem wit_SleepAndLimits :
    (tEmp.jrnl.full = false ∧ tEmp.maySleep = true) ∧
    ((tSt { sleepAsk := some (3, 0) }).power.sleepAsk = some (3, 0) ∧ 0 + 10000000 ≤ ((tSt { sleepAsk := some (3, 0) }).tick 10000000).now) ∧
    ((tSt { sleeping := true }).power.sleeping = true ∧ (((tSt { sleeping := true }).modLink 0 fun l => { l with perst := true }).link 0).perst = true) ∧
    (let t := tS.tick 100000
     t.power.evalAt + 100000 ≤ t.now ∧ t.limitW < t.limitW + 1 ∧
     (let u := { t with power := { t.power with watts := t.limitW + 1, evalAt := t.now } }
      u.hottest.isSome = true) ∧ t.limitW - t.hystW - 1 + t.hystW < t.limitW ∧ t.limitW ≤ t.limitW + t.hystW) ∧
    (let s := ((((tS.modDom 0 fun d => { d with pcap := 4 }).modDom 1 fun d => { d with pcap := 4 }).modDom 2 fun d => { d with pcap := 4 }).modDom 3
       fun d => { d with pcap := 4 })
     s.hottest = none) ∧
    ((tSt { lowered := [2] }).power.lowered = [2]) ∧
    (let s := tSt { overAt := some 0 }
     let t := s.tick 10000000
     s.power.overAt = some 0 ∧ ((List.range 4).filter fun n => (t.dom n).powered && (aget t.err.fences n).isNone).getLast? = some 3 ∧
     0 + 10000000 ≤ t.now ∧ t.power.fencing = none) ∧
    ((tS.dom 0).powered = true ∧ tS.setpoint 0 + 30 < tS.setpoint 0 + 31) ∧
    (let s := tS.modDom 1 fun d => { d with rail := 600 }
     ((s.near 0).find? fun m => decide (539 + 60 < (s.dom m).rail ∨ (s.dom m).rail + 60 < 539)) = some 1 ∧
     (let s := [1, 2, 3].foldl (fun (s : State) n => s.modDom n fun d => { d with rail := tS.setpoint 0 }) tS
      let mv := s.setpoint 0 + 31
      ((s.near 0).find? fun m => decide (mv + 60 < (s.dom m).rail ∨ (s.dom m).rail + 60 < mv)) = none)) :=
  ⟨by decide, by decide, by decide, by decide, by decide, by decide, by decide, by decide, by decide⟩

/-- Card: links up and down, powered and not; each band of J8 at its edge; cages at each moment; a cap that lifts. -/
def tCa (c : Card) (off : Bool) : State := { tS with card := c, power := { tS.power with off := off } }
theorem wit_Card :
    ((tCa {} true).powered = false ∧ (tCa {} false).powered = true ∧ ((tCa {} false).link 0).up = true ∧
     (((tCa {} false).modLink 0 fun l => { l with up := false }).link 0).up = false) ∧
    (((tCa {} true).tick 5).power.off = true ∧ ((tCa {} false).tick 5).power.off = false ∧ (42000 : Int) < 42001 ∧ (42001 : Int) < 59000 ∧
     (60000 : Int) < 60001 ∧ (35999 : Int) < 36000 ∧ (36000 : Int) ≤ 36000 ∧ (39999 : Int) < 40000 ∧ (58999 : Int) < 59000) ∧
    (let c := (((tCa { auxLow := true, mv := 41001 } false).tick 1000000000)).card
     c.auxLow = true ∧ 41000 < c.mv ∧ c.uvAt + 1000000000 ≤ ((tCa {} false).tick 1000000000).now) ∧
    (((tCa { lowAt := some 0 } false).tick 100000).card.lowAt = some 0 ∧ 0 + 100000 ≤ ((tCa { lowAt := some 0 } false).tick 100000).now) ∧
    (let t := (tCa { cages := [(0, { present := true, power := 21 })] } false).tick 50000000
     let c := t.cage 0
     c.present = true ∧ c.on = false ∧ c.fault = false ∧ c.tripped = false ∧ c.insAt + 50000000 ≤ t.now) ∧
    ((((tCa { cages := [(0, { present := true, on := true })] } false).tick 5).cage 0).on = true) ∧
    (let t := (tCa { cages := [(0, { present := true, trips := [7] })] } false).tick 1000000007
     let c := t.cage 0
     c.trips.getLast? = some 7 ∧ c.present = true ∧ c.tripped = true ∧ c.fault = false ∧ 7 + 1000000000 ≤ t.now) ∧
    (let t := (tCa { coolCap := true, flow := 120, tin := 752 } false).tick 10000000000
     t.card.coolCap = true ∧ t.card.coolCause = false ∧ t.card.coolAt + 10000000000 ≤ t.now) :=
  ⟨by decide, by decide, by decide, by decide, by decide, by decide, by decide, by decide⟩

/-- SelfTest: a fenced region, a test in progress, and a device whose chip test may start. Whether the card is a CE card is a Config value. -/
theorem wit_SelfTest :
    (let s := tFc { done := true }
     s.jrnl.full = false ∧ s.mayTest (2 % 16) = some 1) ∧
    ({ tS with bist := { run := some (1, 0) } }.bist.run = some (1, 0) ∧ tS.jrnl.full = false) ∧
    tEmp.mayTestChip = true ∧ (Config.cardIsCE = true ∨ Config.cardIsCE = false) :=
  ⟨by decide, by decide, by decide, by cases Config.cardIsCE <;> simp⟩
/-! ### Witnesses: registers, management, whole-machine statements -/

/-- A full journal, and a stopped edge. -/
def tJf : State := { tS with jrnl := { next := 16384 } }
def tEdge : State := tFc { done := true, full := true }
theorem wit_RegisterReads :
    tS.powered = true ∧ alignedAccess 4 8 = false ∧ alignedAccess 0x2400028 4 = true ∧ tS.regDown 0x2400028 = false ∧
    (alignedAccess (portOff 2) 8 = true ∧ portOff 2 < 0x3000000 ∧ tEdge.regDown (portOff 2) = true) ∧
    (alignedAccess 0x2FFFFF8 8 = true ∧ tS.regDown 0x2FFFFF8 = false ∧ regOf 0x2FFFFF8 = none) :=
  ⟨by decide, by decide, by decide, by decide, by decide, by decide⟩

/-- RegisterWrites: a register of RW fields with room and with none in the journal, an offset of no register, stand-alone operation, and ring
sizes at and past their bounds. -/
theorem wit_RegisterWrites :
    (0x2C00000 < 0x3000000 ∧ 0x2C00000 % 8 = 0 ∧ tS.regDown 0x2C00000 = false ∧ heldReg 0x2C00000 = some (.held (2 ^ 56 - 1) true) ∧
     tS.jrnl.full = false ∧ tJf.jrnl.full = true ∧ tJf.regDown 0x2C00000 = false) ∧
    (0x2FFFFF8 % 8 = 0 ∧ regOf 0x2FFFFF8 = none ∧ tS.mgmt.sa = false) ∧
    ((({ tS with mgmt := { tS.mgmt with sa := true } } : State)).mgmt.sa = true) ∧
    (let s := tS.modFn 0 fun x => { x with rings := [(0, newRing 6 6 0 0x10000 0x20000 false)] }
     6 ≤ 16 ∧ 16 < 32 ∧ (s.ring 0 1).state = .free ∧ ¬ (6 ≤ 5 ∧ 5 ≤ 16 ∧ 6 ≤ 6 ∧ 6 ≤ 16 ∧ (s.ring 0 1).state = .free)) :=
  ⟨by decide, by decide, by decide, by decide⟩

/-- BusCommands: a fresh request with and without a session, a repeated one, load shedding, and flash blocks at the edges. -/
def tBu : State := { tS with sec := { sessions := [(.bus, 1)] }, mgmt := { tS.mgmt with answers := [⟨9, 4, 0, [1]⟩] },
                             jrnl := { recs := [tJr], next := 1 } }
theorem wit_BusCommands :
    (tBu.powered = true ∧ tBu.mgmt.running = true ∧ tBu.fwTurn 6 = true ∧ (tBu.mgmt.answers.find? fun a => a.node = 9 ∧ a.seq = 5) = none ∧
     (tBu.mgmt.answers.find? fun a => a.node = 9 ∧ a.seq = 4) = some ⟨9, 4, 0, [1]⟩ ∧ tBu.mgmt.short = false ∧ tBu.session .bus 2 = false ∧
     tBu.session .bus 1 = true) ∧
    ({ tBu with mgmt := { tBu.mgmt with running := false, recovery := true } } : State).mgmt.recovery = true ∧
    BusReady tBu 9 5 1 ∧
    (let s := { tBu with mgmt := { tBu.mgmt with shed := true } }
     BusReady s 9 5 1 ∧ s.mgmt.shed = true) ∧
    (tBu.mgmt.shed = false ∧ tBu.jrnl.full = false ∧ tBu.saigaOn.regDown 0x2400028 = false ∧
     (tBu.jrnl.recs.find? fun x => x.seq = tJr.seq) = some tJr ∧ tJr.bad = false) ∧
    (0x1810000 ≤ 0x2000000 - 1024 ∧ 0x2000000 - 1024 + 1024 ≤ 0x2000000 ∧ tBu.mgmt.slot < 2 ∧ 0xFFFF < 0x10000 ∧
     touchesSlot 0x10000 1024 tBu.mgmt.slot = true) :=
  ⟨by decide, by decide, ⟨by decide, by decide, by decide, by decide, by decide⟩, ⟨⟨by decide, by decide, by decide, by decide, by decide⟩, by decide⟩, by decide, by decide⟩
theorem wit_BusCommands_read : ∃ (t : State) (v : Nat), tBu.saigaOn.pfRead 0x400400 8 = (t, .val v) ∧ (8 = 4 ∨ 8 = 8) := ⟨_, _, rfl, .inr rfl⟩

/-- SaigaDomain: an idle domain at the end of its time, a control block under trial at each count, and a boot whose floor no image meets.
Whether an image verifies is a Config value (log 11). -/
def tSg (b : Bcb) : State := { tS with mgmt := { tS.mgmt with bcb0 := some b, bcb1 := none } }
theorem wit_SaigaDomain :
    (let t := ({ tS with regs := [(0x3000070, 500)] } : State).tick 500000
     t.mgmt.running = true ∧ t.powered = true ∧ t.power.saiga = 0 ∧ t.fld 0x3000070 0 16 = 500 ∧ t.mgmt.idleAt + 1000 * 500 ≤ t.now ∧
     t.saigaWork = false ∧ t.taskSoon = false) ∧
    ((tSt { saiga := 1 }).power.saiga = 1 ∧ 4 < 5) ∧
    ((tSg {}).mgmt.running = true ∧ (tSg {}).powered = true ∧ (tSg {}).jrnl.full = false ∧ ((tSg {}).mgmt.bcbCurrent.getD {}).trial = false ∧
     ((tSg { trial := true, tries := 1 }).mgmt.bcbCurrent.getD {}).tries < 2 ∧ 2 ≤ ((tSg { trial := true, tries := 2 }).mgmt.bcbCurrent.getD {}).tries) :=
  ⟨by decide, by decide, by decide⟩
theorem wit_SaigaDomain_confirm :
    let t := { tSg { trial := true } with parts := [], card := {}, ports := [] }.tick 60000000000
    t.mgmt.bcbCurrent = some { trial := true } ∧ t.mgmt.running = true ∧ t.health = 1 ∧ t.mgmt.okAt + 60000000000 ≤ t.now := by decide
theorem wit_SaigaDomain_boot :
    let s := { tSg { svnFloor := 2 ^ 16 } with mgmt := { (tSg { svnFloor := 2 ^ 16 }).mgmt with running := false }, power := { tS.power with stable := true } }
    s.mgmt.running = false ∧ s.mgmt.recovery = false ∧ s.powered = true ∧ s.power.stable = true ∧ s.mgmt.bcbCurrent = some { svnFloor := 2 ^ 16 } ∧ s.pickSlot = none := by
  refine ⟨rfl, rfl, by decide, rfl, rfl, ?_⟩
  have h : ∀ n : Nat, ¬ 65536 ≤ n % 65536 := fun n => by omega
  simp [State.pickSlot, State.imageOk, tSg, Mgmt.bcbCurrent, h]

/-- An image that verifies: whether one does is the Config value. -/
theorem wit_SaigaDomain_boot_good (h : Config.imageSigned (tS.slotMark 0) = true) :
    let s := { tSg {} with mgmt := { (tSg {}).mgmt with running := false }, power := { tS.power with stable := true }, jrnl := { next := 1 } }
    s.mgmt.running = false ∧ s.mgmt.recovery = false ∧ s.powered = true ∧ s.power.stable = true ∧ s.pickSlot = some (0, false) ∧ s.jrnl.next ≠ 0 ∧
    s.mgmt.bcbCurrent = some {} ∧ ({} : Bcb).sa = false := by
  refine ⟨rfl, rfl, by decide, rfl, ?_, by decide, rfl, rfl⟩
  have e : ({ tSg {} with mgmt := { (tSg {}).mgmt with running := false }, power := { tS.power with stable := true }, jrnl := { next := 1 } } : State).imageOk 0 0 = true := by
    show (Config.imageSigned (tS.slotMark 0) && decide (0 ≤ Config.imageSvn (tS.slotMark 0) % 2 ^ 16)) = true
    rw [h]; simp
  exact if_pos e

/-- TimedWork: each period at its end, three busy windows and ten idle ones, and a shorted pair. -/
theorem wit_TimedWork :
    (let t := tS.tick (1000000000 * atLeast1 (tS.fld 0x3000040 24 8))
     t.mgmt.running = true ∧ t.powered = true ∧ t.mgmt.healthAt + 1000000000 * atLeast1 (t.fld 0x3000040 24 8) ≤ t.now ∧ t.mgmt.short = false ∧
     (tS.tick 5).now < (tS.tick 5).mgmt.healthAt + 1000000000 * atLeast1 ((tS.tick 5).fld 0x3000040 24 8)) ∧
    (let t := ({ tS with regs := [(0x3000058, 16 + 2 ^ 7 + 2 ^ 8)] } : State).tick 1000000
     t.telEn = true ∧ t.fwTurn 7 = true ∧ t.now < (t.tick 0).mgmt.telAt + 1000000 * 2 ∧ bitsOf (t.reg 0x3000058) 0 5 = 16 ∧ t.mgmt.telAt + 1000000 * (atLeast1 (bitsOf (t.reg 0x3000058) 8 16) * 1) ≤ t.now) ∧
    (let t := ({ tS with mgmt := { tS.mgmt with hiRuns := 2 } } : State).tick 5
     t.mgmt.shed = false ∧ (tS.tick 5).mgmt.hiRuns < 2 ∧ t.shedHi < min 100 91 ∧ t.shedLo ≤ min 100 91 ∧ 2 ≤ t.mgmt.hiRuns ∧ t.jrnl.full = false) ∧
    (let t := ({ tS with mgmt := { tS.mgmt with shed := true, loRuns := 9 } } : State).tick 5
     t.mgmt.shed = true ∧ min 100 59 ≤ t.shedHi ∧ min 100 59 < t.shedLo ∧ 9 ≤ t.mgmt.loRuns) ∧
    (let t := ({ tS with mgmt := { tS.mgmt with short := true } } : State).tick 1000000000
     t.mgmt.short = true ∧ t.mgmt.shortAt + 1000000000 ≤ t.now ∧
     (({ tS with mgmt := { tS.mgmt with short := true } } : State).tick 5).now < t.mgmt.shortAt + 1000000000) :=
  ⟨by decide, by decide, by decide, by decide, by decide⟩

/-- StepRunsFront, StepKeepsMemory: a queue of one command. -/
theorem wit_StepRunsFront : ({ tS with pending := [.nop (tE 1)] } : State).pending = .nop (tE 1) :: [] ∧ tS.pending = [] := ⟨rfl, rfl⟩
theorem wit_StepKeepsMemory : tLd.mem.wf = true ∧ ∃ t, step { tLd with pending := [.nop (tE 1)] } = .next t := ⟨by decide, _, rfl⟩

/-- CompletionEntry: a completion at the last place of ring 1, and operations with and without a tally. -/
def tCl : Compl := ⟨.ok, 1, 7, none, 4, 0x010, 0, false, 9, 1, none⟩
theorem wit_CompletionEntry :
    (let s := tF fun x => { x with rings := [(1, { newRing 6 6 0 0x30000 0x40000 false with cqTail := 63, cqHead := 1 })] }
     let r := s.ring 4 1
     s.mem.wf = true ∧ r.state = .active ∧ r.waiting = [] ∧ r.cqBad = false ∧ 0 < r.cqFree ∧ s.missing 4 (r.cqBase + 32 * r.cqTail) 32 true = none ∧ r.head < 2 ^ 16 ∧ r.cqBase % 4096 = 0) ∧
    (tCl.gen < 2 ^ 16 ∧ tCl.bytes < 2 ^ 48 ∧ tCl.sqhead = none ∧ tCl.time < 2 ^ 64 ∧ tCl.tepoch < 2 ^ 8 ∧ tCl.opcode < 2 ^ 11 ∧ tCl.detail < 2 ^ 32) ∧
    (let o := tOp (.nop (tE 1))
     let s := tF fun x => { x with ops := [o] }
     s.op? 4 o.id = some o ∧ o.gen = (s.fn 4).gen ∧ o.ltally = none ∧ Status.range ≠ .state) ∧
    (let o := { tOp (.nop (tE 1)) with ltally := some 1 }
     let s := tF fun x => { x with ops := [o] }
     s.op? 4 o.id = some o ∧ o.gen = (s.fn 4).gen ∧ o.ltally = some 1 ∧ aget (s.fn 4).tallies 1 = some { count := 2 ^ 64 - 2 } ∧
     ({ count := 2 ^ 64 - 2 } : Tally).bad = false) :=
  ⟨by decide, by decide, ⟨rfl, by decide, rfl, by decide⟩, ⟨rfl, by decide, rfl, by decide⟩⟩

/-- JournalRecords: an empty journal. RingCommandFrame: a command of the nine. -/
theorem wit_JournalRecords : tS.jrnl.next = 0 := rfl
theorem wit_RingCommandFrame :
    plainCommand (.tallyAlloc (tE 1) 3) = some (tE 1) ∧ tS.mem.wf = true ∧ tS.op? 4 (tS.opId (tE 1)) = none ∧
    ∃ t, exec (.tallyAlloc (tE 1) 3) tS = .next t :=
  ⟨rfl, by decide, by decide, _, rfl⟩
/-! ### Terms that WellFormed refuses, one for each check -/

theorem smoke_entry : (tE 1).wf = true ∧ { tE 1 with ring := 1024 }.wf = false ∧ { tE 1 with gen := 2 ^ 16 }.wf = false ∧
    { tE 1 with slots := 0 }.wf = false ∧ { tE 1 with slots := 17 }.wf = false := by decide
theorem smoke_rx : (tRx 0).wf = true ∧ { tRx 0 with dconn := 2 ^ 20 }.wf = false ∧ { tRx 0 with dinc := 2 ^ 12 }.wf = false ∧
    { tRx 0 with dgen := 2 ^ 16 }.wf = false ∧ { tRx 0 with kepoch := 2 ^ 16 }.wf = false ∧ { tRx 0 with pctr := 2 ^ 32 }.wf = false ∧
    (tRx (2 ^ 32)).wf = false ∧ { tRx 0 with msn := 2 ^ 32 }.wf = false ∧ { tRx 0 with cls := 8 }.wf = false ∧ { tRx 0 with path := 64 }.wf = false ∧
    { tRx 0 with plen := 2 ^ 16 }.wf = false ∧ { tRx 0 with tstamp := 2 ^ 32 }.wf = false := by decide
theorem smoke_oneSided : (tB 8).wf = true ∧ { tB 8 with conn := 2 ^ 20 }.wf = false ∧ { tB 8 with laddr := 2 ^ 64 }.wf = false ∧
    { tB 8 with len := 2 ^ 32 }.wf = false ∧ { tB 8 with wref := 2 ^ 32 }.wf = false ∧ { tB 8 with roff := 2 ^ 64 }.wf = false ∧
    { tB 8 with ltally := 2 ^ 16 }.wf = false := by decide
theorem smoke_grant : Grant.wf ⟨2 ^ 16 - 1, 2 ^ 24 - 1, false⟩ = true ∧ Grant.wf ⟨2 ^ 16, 0, false⟩ = false ∧ Grant.wf ⟨0, 2 ^ 24, false⟩ = false := by decide

/-! ### Entries written from R50 and the body layouts -/

/-- Header: PHASE 1, LEN + 1 slots, opcode, GEN 0x0007, TAG 0xDEADBEEF. -/
def tHd (op slots : Nat) : Nat := 2 ^ 63 + (slots - 1) * 2 ^ 59 + op * 2 ^ 48 + 0x0007 * 2 ^ 32 + 0xDEADBEEF
def tEn (slots : Nat) (rsv : Bool) : Entry := ⟨.vf 2, 5, 0xDEADBEEF, 7, slots, rsv⟩

theorem test_decode_write :
    decodeEntry (.vf 2) 5 (tHd 0x040 1 + 0xABCDE * 2 ^ 64 + 3 * 2 ^ 96 + 0x1122334455667788 * 2 ^ 128 + 0x1000 * 2 ^ 192 + 0x000C4A21 * 2 ^ 224 +
      0x99 * 2 ^ 256 + 0xBEEF * 2 ^ 448) =
    some (.write (tEn 1 false) ⟨0xABCDE, true, true, 0x1122334455667788, 0x1000, 0x000C4A21, 0x99, 0, 0, 0xBEEF⟩) := by decide
theorem test_decode_reserved_bit :
    decodeEntry (.vf 2) 5 (tHd 0x053 1 + 0xFFF * 2 ^ 64 + 60 * 2 ^ 96 + 2 ^ 76) = some (.mlistCreate (tEn 1 true) 0xFFF 60) := by decide
theorem test_decode_conn : decodeEntry (.vf 2) 5 (tHd 0x105 1 + 0xFFFFF * 2 ^ 64 + 0x2000 * 2 ^ 128) = some (.connQuery (tEn 1 false) 0xFFFFF 0x2000) := by decide
theorem test_decode_herd : decodeEntry (.vf 2) 5 (tHd 0x202 1 + 0xFFF * 2 ^ 64 + 0x2000 * 2 ^ 128) = some (.herdQuery (tEn 1 false) 0xFFF 0x2000) := by decide
theorem test_decode_prog : decodeEntry (.vf 2) 5 (tHd 0x303 1 + 0x12345678 * 2 ^ 64) = some (.progStop (tEn 1 false) 0x12345678) := by decide
theorem test_decode_part : decodeEntry (.vf 2) 5 (tHd 0x402 1 + 9 * 2 ^ 64 + 250 * 2 ^ 96) = some (.partFreeze (tEn 1 false) 9 250) := by decide
theorem test_decode_key : decodeEntry (.vf 2) 5 (tHd 0x480 1 + 3 * 2 ^ 64 + 0xFF * 2 ^ 72) = some (.keySelSet (tEn 1 false) 3 0xFF) := by decide
theorem test_decode_frame :
    decodeEntry (.vf 2) 5 (tHd 0x7F0 1 + (6 + 2 * 8 + 32) * 2 ^ 64 + 1514 * 2 ^ 80 + 0x3000 * 2 ^ 128) = some (.frameTx (tEn 1 false) 6 2 true 0x3000 1514) := by decide
theorem test_decode_unknown : decodeEntry (.vf 2) 5 (tHd 0x03F 1) = none ∧ decodeEntry (.vf 2) 5 (tHd 0x4FF 1) = none := by decide
theorem test_slots : hdrSlots (tHd 0x200 16) = 16 ∧ hdrOpcode (tHd 0x7F1 2) = 0x7F1 ∧ hdrPhase (tHd 0 1) = true := by decide

/-! ### The manual's worked examples -/

/-- R224, R225 example: four FP32 inputs in rank order give +0 in reproducible mode, and 2.0 with an exact record of VAL 1 and SHIFT 150. -/
def tXs : List Machine.Num := [Machine.Num.ofInt 16777216, Machine.Num.ofInt 1, Machine.Num.ofInt 1, Machine.Num.ofInt (-16777216)]
theorem test_reproducible : (encNum 0 true (foldRepro 0 0 tXs).1).1 = 0 := by decide
set_option maxRecDepth 20000 in
theorem test_exact_record : (tXs.foldl Exact.addNum {}).record 0 = 0x04B0000000000000 * 2 ^ 64 + 1 := by decide
theorem test_exact : (encNum 0 true ((tXs.foldl Exact.addNum {}).toNum)).1 = 0x40000000 := by decide

/-- R229 example, step 2's first value and step 1's integers: 6.0 gives code 7, and 5.0, −2.0 and 1.0 give 6, 0xC and 2 under scale 0x7F. -/
theorem test_quant : (quantBlock 9 [Machine.Num.ofInt 5, Machine.Num.ofInt (-2), Machine.Num.ofInt 1]).scale = 0x7F ∧
    (quantBlock 9 [Machine.Num.ofInt 5, Machine.Num.ofInt (-2), Machine.Num.ofInt 1]).codes = [6, 0xC, 2] ∧
    (quantBlock 9 [Machine.Num.ofInt 5, Machine.Num.ofInt (-2), Machine.Num.ofInt 1]).res.headD 0 = 0x3F800000 := by decide
theorem test_quant_full : (quantBlock 9 [Machine.Num.ofInt 6]).codes = [7] ∧ packNibbles [6, 1, 0xC, 2] = [0x16, 0x2C] := by decide

/-- R210: the largest finite values of the narrow formats. -/
theorem test_narrow : (encNum 3 true (Machine.Num.ofInt 448)).1 = 0x7E ∧ (encNum 4 true (Machine.Num.ofInt 57344)).1 = 0x7B := by decide

/-- R612's example addresses: SCHED_TCM, PART_ADDR, PORT_MAC and a port's registers, and an error record. -/
theorem test_offsets : tcmOff 5 3 2 + 8 = 0x2C039A8 ∧ partOff 9 + 0x400 + 0x20 * 5 + 0x10 = 0x4094B0 ∧ portOff 6 + 0x40 + 8 * 2 = 0xCC0050 ∧ (RecRef.block 78).off = 0x1C02380 := by decide

/-- The window reference of index 0x4A21 at incarnation 3 (example of R101). -/
theorem test_wref : winRef 0x4A21 3 = 0x000C4A21 := by decide

/-- CRC-32 and CRC-16/CCITT-FALSE of the digits 1 to 9 (the algorithms' published check values). -/
def tDigits : List Byte := [0x31, 0x32, 0x33, 0x34, 0x35, 0x36, 0x37, 0x38, 0x39]
set_option maxRecDepth 20000 in
theorem test_crc32 : crc32 tDigits = 0xCBF43926 := by decide
set_option maxRecDepth 20000 in
theorem test_crc16 : crc16 tDigits = 0x29B1 := by decide
end

section
/-!
Reset (R34, R167, R168, R328, R354, R383, R390, R441, R473, R544, R581, R582): what State.reset holds, one lemma a kind of object and one a
group of registers.
-/

namespace Sys2Proof.Machine

/-! ### What reset leaves empty -/

@[simp] theorem reset_fn (f : Nat) : State.reset.fn f = {} := rfl
@[simp] theorem reset_part (p : Nat) : State.reset.part p = {} := rfl
@[simp] theorem reset_ring (f k : Nat) : State.reset.ring f k = {} := rfl
@[simp] theorem reset_conn (f h : Nat) : State.reset.conn f h = {} := rfl

/-- No function holds an operation, so no operation number is out of order. -/
theorem reset_opNumbers : State.reset.OpNumbers := by
  intro f o ho
  rw [reset_fn] at ho
  exact absurd ho List.not_mem_nil

theorem cellGet_nil (k : Nat) : cellGet [] k = 0 := rfl

/-- With no cell listed, every run of cells reads zeros. -/
theorem cellsGet_nil (k n : Nat) : cellsGet [] k n = List.replicate n 0 := by
  simp [cellsGet, cellGet_nil, List.map_const']

theorem reset_hostBytes (f a n : Nat) : State.reset.hostBytes f a n = List.replicate n 0 := cellsGet_nil _ n

/-! ### The registers, by the rules that list them -/

/-- R167, R168: GLB_TLT_CFG and GLB_TLT_TMR. -/
theorem reset_transport : State.reset.udpPort = 0xB7FC ∧ State.reset.enV4 = true ∧ State.reset.enV6 = true ∧ State.reset.rtoMin = 20000 ∧
    State.reset.ackPkts = 8 ∧ State.reset.ackDelay = 2000 ∧ State.reset.lostTime = 250000000 := by
  decide

/-- R390, R441: PART_FZ_CFG and SEC_CFG. -/
theorem reset_freeze_security : State.reset.drainNs = 1000000 ∧ State.reset.quietNs = 30000000000 ∧ State.reset.minSvn = 0 ∧
    State.reset.fld 0x1400000 0 16 = 0xB7FD ∧ State.reset.notc = true ∧ State.reset.openContrib = false := by
  decide

/-- R34, R354, R473: MESH_ARB_CFG, MEM_PRI_CFG, ERR_CFG and ERR_HERD_CFG. -/
theorem reset_mesh_memory_errors : State.reset.fld 0x800100 0 10 = 0x100 ∧ State.reset.fld 0x800100 16 10 = 0x40 ∧
    State.reset.fld 0x1800000 0 6 = 32 ∧ State.reset.fld 0x1800000 16 8 = 100 ∧ State.reset.fld 0x1C00000 16 16 = 20 ∧
    State.reset.fld 0x1C00008 0 16 = 2200 ∧ State.reset.fld 0x1C00008 16 16 = 1000 := by
  decide

/-- R383, R581, R582: what each of the four regions, and each of the four links, has of its own. -/
theorem reset_regions_links : ∀ n : Fin 4, State.reset.fld (0x100100 + 8 * n.val) 0 5 = 16 ∧
    State.reset.fld (0x200100 + 8 * n.val) 16 16 = 1000 ∧ State.reset.fld (0x1000008 + 0x10000 * n.val) 8 8 = 64 := by
  decide

/-- R544, R582: PWR_LIMIT, PWR_THERM, MGMT_BUS_CFG, MGMT_TEL_CFG, MGMT_SHED_CFG and MGMT_PWR_CFG. -/
theorem reset_power_management : State.reset.fld 0x200010 0 11 = 1400 ∧ State.reset.fld 0x200018 0 8 = 100 ∧
    State.reset.fld 0x3000040 24 8 = 5 ∧ State.reset.fld 0x3000040 32 16 = 0xB7FE ∧ State.reset.telEn = false ∧
    State.reset.shedHi = 90 ∧ State.reset.shedLo = 60 ∧ State.reset.fld 0x3000070 0 16 = 500 := by
  decide

/-- Settles O56: the registers by the groups above, everything else from the empty maps of State.reset. -/
theorem resetState : Obligations.ResetState := by
  obtain ⟨udp, v4, v6, rto, ackPkts, ackDelay, lost⟩ := reset_transport
  obtain ⟨drain, quiet, svn, pair, notc, openC⟩ := reset_freeze_security
  obtain ⟨arb0, arb1, pri0, pri1, fence, herd0, herd1⟩ := reset_mesh_memory_errors
  obtain ⟨limit, therm, bus0, bus1, tel, hi, lo, mgmt⟩ := reset_power_management
  have empty : ∀ p : Nat, (State.reset.part p).state = .empty ∧ (State.reset.part p).tdi = 0 := by simp
  have rings : ∀ f k : Nat, (State.reset.ring f k).state = .free := by simp
  have conns : ∀ f h : Nat, (State.reset.conn f h).state = .free := by simp
  exact ⟨rfl, State.reset_wf, reset_opNumbers, reset_hostBytes, udp, v4, v6, rto, ackPkts, ackDelay, lost, drain, quiet, svn, pair, notc, openC,
    arb0, arb1, pri0, pri1, fence, herd0, herd1, reset_regions_links, limit, therm, bus0, bus1, tel, hi, lo, mgmt, empty, rings, conns, rfl, rfl⟩

end Sys2Proof.Machine
end

section
/-!
First contact and random numbers (R423, R430, R431): what a datagram from a peer does, by who it comes from and what it shows, what a silent
peer's contact does, and what an entropy window does.
-/

namespace Sys2Proof.Machine

/-! ### What the passing of time leaves alone -/

@[simp] theorem tick_firmwareUp (s : State) (n : Nat) : (s.tick n).firmwareUp = s.firmwareUp := rfl
@[simp] theorem tick_noKeys (s : State) (n : Nat) : (s.tick n).noKeys = s.noKeys := rfl

/-! ### What a datagram shows -/

theorem contactOk_iff {s : State} {x : ContactProof} : s.contactOk x = true ↔ x.chain = true ∧ s.minSvn ≤ x.svn := by
  simp [State.contactOk]

theorem contactOk_eq_false_iff {s : State} {x : ContactProof} : s.contactOk x = false ↔ x.chain = false ∨ x.svn < s.minSvn := by
  rw [State.contactOk, Bool.and_eq_false_iff, decide_eq_false_iff_not, Nat.not_le]

/-- Where this device has started too, the DEVIDs alone decide whether the peer's session is abandoned. -/
theorem rival_of_crossing {s : State} {ip dev : Nat} {x : ContactProof} (opens : x.opens = true)
    (mine : (s.sec.contacts.any fun c => c.ip = ip && c.mine) = true) : s.rival ip dev x = decide (devNum ownDev < devNum dev) := by
  simp [State.rival, opens, mine]

/-- A datagram that starts a session makes it the peer's. -/
theorem contactMine_of_opens {s : State} {ip : Nat} {x : ContactProof} (opens : x.opens = true) : s.contactMine ip x = false := by
  simp [State.contactMine, opens]

theorem contactMine_eq (s : State) (ip : Nat) (x : ContactProof) :
    s.contactMine ip x = (! x.opens && ((s.sec.contacts.find? fun c => c.ip = ip).map fun c => c.mine).getD false) := by
  unfold State.contactMine
  cases s.sec.contacts.find? fun c => c.ip = ip <;> rfl

theorem contactSeq_eq (s : State) (ip : Nat) :
    s.contactSeq ip = ((s.sec.contacts.find? fun c => c.ip = ip).map fun c => c.seq + 1).getD 0 := by
  unfold State.contactSeq
  cases s.sec.contacts.find? fun c => c.ip = ip <;> rfl

/-! ### A datagram that the firmware takes (R423) -/

/-- The answer to a datagram: the contact starts its wait anew under the next sequence number, and `mine` says whose session goes on. -/
def State.contactAnswer (s : State) (ip : Nat) (mine : Bool) : State :=
  let seq := s.contactSeq ip
  let others := s.sec.contacts.filter fun (y : Contact) => y.ip ≠ ip
  { s with sec := { s.sec with contacts := others ++ [(⟨ip, 0, s.now, seq, mine⟩ : Contact)] } }.sayTo ip seq

/-- The answer with its sequence number and its datagram written out. -/
theorem contactAnswer_eq (s : State) (ip : Nat) (mine : Bool) : s.contactAnswer ip mine =
    let seq := ((s.sec.contacts.find? fun x => x.ip = ip).map fun c => c.seq + 1).getD 0
    { s with sec := { s.sec with contacts := (s.sec.contacts.filter fun (x : Contact) => x.ip ≠ ip) ++ [(⟨ip, 0, s.now, seq, mine⟩ : Contact)] } }.emit
      (.datagram ip (s.fld 0x1400000 0 16) (spdmBytes ip seq)) := by
  simp only [State.contactAnswer, contactSeq_eq]
  rfl

section
variable {s : State} {ip dev : Nat} {x : ContactProof} {final : Bool}

/-- The session of the lower DEVID goes on: the peer's datagram is ignored. -/
theorem contactIn_rival (rival : s.rival ip dev x = true) : s.contactIn ip dev x final = s := by
  simp [State.contactIn, rival]

variable (up : s.firmwareUp = true) (turn : s.fwTurn 3 = true) (keys : s.noKeys = false) (rival : s.rival ip dev x = false)
include up turn keys rival

/-- With the firmware's turn, keys and no rival, the sender's proof decides. -/
theorem contactIn_taken : s.contactIn ip dev x final =
    if s.contactOk x = false then s.contactFail ip
    else if final then (if s.jrnl.full then s else s.pairUp ip dev)
    else s.contactAnswer ip (s.contactMine ip x) := by
  simp [State.contactIn, State.contactAnswer, up, turn, keys, rival]

theorem contactIn_refused (refused : s.contactOk x = false) : s.contactIn ip dev x final = s.contactFail ip := by
  rw [contactIn_taken up turn keys rival, if_pos refused]

theorem contactIn_last (ok : s.contactOk x = true) (room : s.jrnl.full = false) : s.contactIn ip dev x true = s.pairUp ip dev := by
  simp [contactIn_taken up turn keys rival, ok, room]

theorem contactIn_answered (ok : s.contactOk x = true) : s.contactIn ip dev x false =
    s.contactAnswer ip (s.contactMine ip x) := by
  simp [contactIn_taken up turn keys rival, ok]

end

/-- Both devices have started: the peer's session is ignored where this device's DEVID is lower, else it is answered and is the peer's. -/
theorem contactIn_crossing {s : State} {ip dev : Nat} {x : ContactProof} (up : s.firmwareUp = true) (turn : s.fwTurn 3 = true)
    (keys : s.noKeys = false) (opens : x.opens = true) (mine : (s.sec.contacts.any fun c => c.ip = ip && c.mine) = true)
    (ok : s.contactOk x = true) : s.contactIn ip dev x false =
    if devNum ownDev < devNum dev then s else s.contactAnswer ip false := by
  have rival := rival_of_crossing (dev := dev) opens mine
  split
  case isTrue lower => exact contactIn_rival (by simpa [lower] using rival)
  case isFalse higher =>
    rw [contactIn_answered up turn keys (by simpa [higher] using rival) ok, contactMine_of_opens opens]

/-! ### A silent peer (R423) -/

/-- With the firmware's turn, a contact that is due has failed after eight retries and is asked again before. -/
theorem contactRetry_due {s : State} {ip : Nat} {c : Contact} (up : s.firmwareUp = true) (turn : s.fwTurn 3 = true)
    (due : (s.sec.contacts.find? fun c => c.ip = ip ∧ c.at_ + 1000000 ≤ s.now) = some c) : s.contactRetry ip =
    if 8 ≤ c.tries then s.contactFail ip
    else State.sayTo { s with sec := { s.sec with
      contacts := s.sec.contacts.map fun (x : Contact) => if x.ip = ip then { x with tries := x.tries + 1, at_ := s.now } else x } } ip c.seq := by
  have served : ¬ ((! s.firmwareUp) = true ∨ (! s.fwTurn 3) = true) := by simp [up, turn]
  rw [State.contactRetry, if_neg served, due]

/-! ### Entropy windows (R431) -/

theorem entropy_good (s : State) : s.entropy true =
    { s with sec := { s.sec with badRun := 0, drbg := if s.sec.drbg = 0 ∧ ! s.sec.failed then 1 else s.sec.drbg } } := rfl

/-- A failed window counts; the source does not fail before the third in a row, nor a second time. -/
theorem entropy_bad_counted {s : State} (h : s.sec.badRun < 2 ∨ s.sec.failed = true) : s.entropy false =
    { s with sec := { s.sec with badRun := s.sec.badRun + 1, badWins := s.sec.badWins + 1 } } := by
  have hold : ¬ (3 ≤ s.sec.badRun + 1 ∧ (! s.sec.failed) = true) := by grind
  exact if_neg hold

theorem entropy_bad_fails {s : State} (run : 2 ≤ s.sec.badRun) (works : s.sec.failed = false) : s.entropy false =
    ({ s with sec := { s.sec with badRun := s.sec.badRun + 1, badWins := s.sec.badWins + 1, failed := true } }.jMust .firmware
      (jKey 16 0 0 .internal)).report 0xFF 0xFF 0x31 (s.sec.badRun + 1) := by
  have third : 3 ≤ s.sec.badRun + 1 ∧ (! s.sec.failed) = true := ⟨by omega, by simp [works]⟩
  exact if_pos third

/-! ### The commands, by what their operation gives -/

section
variable {s u : State} {ip dev now : Nat} {x : ContactProof} {final ok : Bool}

theorem firstContactDatagram_next (h : (s.tick now).contactIn ip dev x final = u) :
    exec (.firstContactDatagram ip dev x final now) s = .next u.settle := by
  rw [exec_firstContactDatagram, execFirstContactDatagram, h]

theorem firstContactRetry_next (h : (s.tick now).contactRetry ip = u) : exec (.firstContactRetry ip now) s = .next u.settle := by
  rw [exec_firstContactRetry, execFirstContactRetry, h]

theorem entropyWindowEnd_next (h : s.entropy ok = u) : exec (.entropyWindowEnd ok) s = .next u := by
  rw [exec_entropyWindowEnd, execEntropyWindowEnd, h]

end

/-- R43, R420: in its turn, the derivation unit makes the receiver's next key. -/
theorem rxNextKeyDerived_inTurn {fn : Fn} {h : Nat} {s : State} (wanted : (s.conn fn.idx h).rx.nextKey = 1) (keys : s.noKeys = false)
    (turn : s.deriveTurn fn.idx h true = true) : exec (.rxNextKeyDerived fn h) s =
    .next ((s.deriveDone fn.idx h true).modConn fn.idx h fun c => { c with rx := { c.rx with nextKey := 2 } }) := by
  rw [exec_rxNextKeyDerived, execRxNextKeyDerived, if_pos ⟨wanted, by simp [keys], turn⟩]

/-- Settles O36: each clause is the case of contactIn, contactRetry or entropy that its hypotheses select. -/
theorem keyEvents : Obligations.KeyEvents := by
  refine ⟨fun ip dev now s up keys => ?_, fun _ _ _ => rxNextKeyDerived_inTurn, fun s => ?_, fun _ _ => rfl⟩
  · intro t turn
    have up : t.firmwareUp = true := (tick_firmwareUp s now).trans up
    have keys : t.noKeys = false := (tick_noKeys s now).trans keys
    refine ⟨fun x opens mine chain svn => ?_, fun x final rival bad => ?_, fun x rival chain svn => ?_, fun c due => ?_⟩
    · have ok : t.contactOk x = true := contactOk_iff.mpr ⟨chain, svn⟩
      refine firstContactDatagram_next ?_
      rw [contactIn_crossing up turn keys opens mine ok, contactAnswer_eq]
      rfl
    · exact firstContactDatagram_next (contactIn_refused up turn keys rival (contactOk_eq_false_iff.mpr bad))
    · have ok : t.contactOk x = true := contactOk_iff.mpr ⟨chain, svn⟩
      refine ⟨fun room => firstContactDatagram_next (contactIn_last up turn keys rival ok room), firstContactDatagram_next ?_⟩
      rw [contactIn_answered up turn keys rival ok, contactMine_eq, contactAnswer_eq]
      rfl
    · have asked := contactRetry_due up turn due
      exact ⟨fun tries => firstContactRetry_next (asked.trans (if_pos tries)),
        fun tries => firstContactRetry_next (asked.trans (if_neg (Nat.not_le.mpr tries)))⟩
  · exact ⟨entropyWindowEnd_next (entropy_good s), fun h => entropyWindowEnd_next (entropy_bad_counted h),
      fun run works => entropyWindowEnd_next (entropy_bad_fails run works)⟩

end Sys2Proof.Machine
end

section
/-!
Ring commands (R59, R62, R65, R66, R72, R76): one lemma a command of an entry that is ready and whose operands pass its checks.
-/

namespace Sys2Proof.Machine

/-! ### Conditions of ring commands on a started entry (R9, R65) -/

/-- A command of the admin ring that names another ring pair of the ring space, in a state that R62's table permits, passes. -/
theorem ringChecks_begun {s : State} {e : Entry} {ring op : Nat} {c : Instr} {bad : RingSt → Bool} (admin : e.ring = 0) (pos : 0 < ring)
    (lt : ring < 1024) (ok : bad (s.ring e.fn.idx ring).state = false) : ringChecks (s.begun e op c) e ring bad = [] := by
  have named : ¬ (e.ring ≠ 0 ∨ ring = 0 ∨ 1024 ≤ ring) := by omega
  rw [ringChecks, if_neg named, begun_ring_other (by omega), ok]
  rfl

@[simp] theorem begun_qRings (s : State) (e : Entry) (op : Nat) (c : Instr) (f : Nat) : (s.begun e op c).qRings f = s.qRings f := rfl

/-! ### The state of a ring pair (R62) -/

section
variable {s : State} {e : Entry} {ring : Nat} (admin : e.ring = 0) (pos : 0 < ring) (lt : ring < 1024)
include admin pos lt

theorem ringCreate_ready {sqLog cqLog cls sqBase cqBase : Nat} (ready : Ready s e len2 false) (quota : ring < s.qRings e.fn.idx)
    (free : (s.ring e.fn.idx ring).state = .free)
    (valid : ¬ (sqLog < 6 ∨ 16 < sqLog ∨ cqLog < 6 ∨ 16 < cqLog ∨ 5 < cls ∨ sqBase % 4096 ≠ 0 ∨ cqBase % 4096 ≠ 0)) :
    exec (.ringCreate e ring sqLog cqLog cls sqBase cqBase) s = .next
      (((s.begun e 0x003 (.ringCreate e ring sqLog cqLog cls sqBase cqBase)).modFn e.fn.idx fun x =>
        { x with rings := aset x.rings ring (newRing sqLog cqLog cls sqBase cqBase
          ((agetD (s.fn e.fn.idx).rawmap (ring / 64) 0).testBit (ring % 64))) }).endOp e.fn.idx (s.opId e) .ok 0 0) := by
  rw [exec_ringCreate, execRingCreate, startEntry_ready ready rfl, effRingCreate, checked_ok]
  · simp only [begun_rawmap]
  · rw [ringChecks_begun admin pos lt (by simp [free]), ck_false _ _ (by simpa using quota), ck_false _ _ valid]
    rfl

theorem ringPause_ready (ready : Ready s e len1 false) (st : (s.ring e.fn.idx ring).state = .active ∨ (s.ring e.fn.idx ring).state = .paused) :
    exec (.ringPause e ring) s = .next
      (((s.begun e 0x005 (.ringPause e ring)).modRing e.fn.idx ring fun r => { r with state := .paused, scan := false }).endOp e.fn.idx
        (s.opId e) .ok 0 (s.ring e.fn.idx ring).head) := by
  rw [exec_ringPause, execRingPause, startEntry_ready ready rfl, effRingPause,
    checked_ok (ringChecks_begun admin pos lt (by rcases st with h | h <;> simp [h]))]
  dsimp only
  rw [ring_modRing, begun_ring_other (by omega)]

theorem ringResume_ready (ready : Ready s e len1 false)
    (st : (s.ring e.fn.idx ring).state = .active ∨ (s.ring e.fn.idx ring).state = .paused ∨ (s.ring e.fn.idx ring).state = .error) :
    exec (.ringResume e ring) s = .next
      (((s.begun e 0x006 (.ringResume e ring)).modRing e.fn.idx ring fun r =>
        { r with state := .active, scan := r.scan || decide (r.state ≠ .active), cache := if r.state = .error then [] else r.cache,
                 sqPark := if r.state = .error then none else r.sqPark, cqBad := false }).endOp e.fn.idx (s.opId e) .ok 0 0) := by
  rw [exec_ringResume, execRingResume, startEntry_ready ready rfl, effRingResume,
    checked_ok (ringChecks_begun admin pos lt (by rcases st with h | h | h <;> simp [h]))]

theorem ringDestroy_ready (ready : Ready s e len1 false)
    (st : (s.ring e.fn.idx ring).state = .active ∨ (s.ring e.fn.idx ring).state = .paused ∨ (s.ring e.fn.idx ring).state = .error) :
    exec (.ringDestroy e ring) s = .next
      (((s.begun e 0x004 (.ringDestroy e ring)).flushEnd e.fn.idx ring).modRing e.fn.idx ring fun r =>
        { r with state := .draining, cache := [], scan := false, sqPark := none, destroy := some (s.opId e) }) := by
  rw [exec_ringDestroy, execRingDestroy, startEntry_ready ready rfl, effRingDestroy,
    checked_ok (ringChecks_begun admin pos lt (by rcases st with h | h | h <;> simp [h]))]

end

/-- Settles O1: one lemma a command, each from the checks that its hypotheses let pass. -/
theorem ringStateCommands : Obligations.RingStateCommands := by
  intro e ring s admin pos lt
  refine ⟨fun sqLog cqLog cls sqBase cqBase ready quota sqMin sqMax cqMin cqMax hcls hsq hcq free => ?_,
    ringPause_ready admin pos lt, ringResume_ready admin pos lt, ringDestroy_ready admin pos lt⟩
  exact ringCreate_ready admin pos lt ready quota free (by omega)

/-! ### What a ring command does to a queue (R59, R62, R65, R66, R72, R76) -/

section
variable {s : State} {e : Entry} {ring : Nat} {raw : Bool}

/-- R65: a NOP of any length ends OK. -/
theorem nop_ready (ready : Ready s e (fun n => 1 ≤ n ∧ n ≤ 16) raw) :
    exec (.nop e) s = .next ((s.begun e 0x000 (.nop e)).endOp e.fn.idx (s.opId e) .ok 0 0) := by
  have body : { e with rsv := false } = e := by rw [← ready.rsv]
  rw [exec_nop, execNop, body]
  dsimp only
  rw [startEntry_ready ready (by cases raw <;> rfl), effNop]

/-- R72: a FENCE holds its ring, with the operations it covers and the failures that ended before it. -/
theorem fence_ready {hv rv inst : Bool} (ready : Ready s e len1 raw) :
    let t := s.begun e 0x001 (.fence e hv rv inst)
    exec (.fence e hv rv inst) s = .next
      ((t.modOp e.fn.idx (s.opId e) fun o =>
        { o with covered := covers (t.fn e.fn.idx) e.ring inst (s.opId e),
                 bad := if inst then (t.fn e.fn.idx).rings.foldl (fun n r => n + r.2.badEnds) 0 else (t.ring e.fn.idx e.ring).badEnds }).modRing
        e.fn.idx e.ring fun r => { r with fence := some (s.opId e) }) := by
  intro t
  rw [exec_fence, execFence, startEntry_ready ready (by cases raw <;> rfl), effFence]

/-- R66: the run named lies in the ring, and the ring pair is the entry's own or a PAUSED one. -/
theorem ringInval_ready {first count : Nat} (ready : Ready s e len1 raw) (own : ring = e.ring ∨ (s.ring e.fn.idx ring).state = .paused)
    (hfirst : first < (s.ring e.fn.idx ring).sqSize) (pos : 0 < count) (fits : count ≤ (s.ring e.fn.idx ring).sqSize) :
    exec (.ringInval e ring first count) s = .next
      (((s.begun e 0x002 (.ringInval e ring first count)).modRing e.fn.idx ring fun r =>
        { r with cache := r.cache.filter fun c => ¬ (inRun r.sqSize first count c.1 ∧ (ring ≠ e.ring ∨ ahead r c.1)) }).endOp e.fn.idx (s.opId e) .ok 0 0) := by
  rw [exec_ringInval, execRingInval, startEntry_ready ready (by cases raw <;> rfl), effRingInval, checked_ok]
  have named : ¬ (ring ≠ e.ring ∧ ((s.begun e 0x002 (.ringInval e ring first count)).ring e.fn.idx ring).state ≠ .paused) := by
    rintro ⟨other, notPaused⟩
    rw [begun_ring_other other] at notPaused
    exact own.elim other notPaused
  rw [ck_false _ _ (by rw [begun_sqSize]; omega), ck_false _ _ named]
  rfl

/-- R66, R71: DBG_CFG sets the vector of a group that the function has. -/
theorem dbgCfg_ready {group vector : Nat} (ready : Ready s e len1 false) (admin : e.ring = 0) (hgroup : group < (if isPf e.fn.idx then 2 else 32))
    (hvector : vector < (if isPf e.fn.idx then 256 else 64)) :
    exec (.dbgCfg e group vector) s = .next
      (((s.begun e 0x008 (.dbgCfg e group vector)).modFn e.fn.idx fun x =>
        { x with dbgs := amod x.dbgs group {} fun d => { d with vector := vector } }).endOp e.fn.idx (s.opId e) .ok 0 0) := by
  rw [exec_dbgCfg, execDbgCfg, startEntry_ready ready rfl, effDbgCfg, checked_ok]
  rw [adminOnly, ck_false _ _ (not_not.mpr admin), ck_false _ _ (by omega)]
  rfl

section
variable (admin : e.ring = 0) (pos : 0 < ring) (lt : ring < 1024)
include admin pos lt

theorem ringFlush_ready (ready : Ready s e len1 false) (paused : (s.ring e.fn.idx ring).state = .paused) :
    exec (.ringFlush e ring) s = .next
      (let t := s.begun e 0x007 (.ringFlush e ring)
       if (s.ring e.fn.idx ring).flushOp.isSome then t.modRing e.fn.idx ring fun r => { r with flushNext := r.flushNext ++ [s.opId e] }
       else flushGo ((s.ring e.fn.idx ring).sqSize + 1) (t.modRing e.fn.idx ring fun r => { r with flushOp := some (s.opId e), flushed := 0 })
         e.fn.idx ring) := by
  rw [exec_ringFlush, execRingFlush, startEntry_ready ready rfl, effRingFlush, checked_ok (ringChecks_begun admin pos lt (by simp [paused])),
    begun_ring_other (by omega)]

/-- R66, R76: the thresholds are set, and the event fires where the new count is met already. -/
theorem cqModerate_ready {count time : Nat} (ready : Ready s e len1 false) (used : (s.ring e.fn.idx ring).state ≠ .free)
    (stays : (s.ring e.fn.idx ring).state ≠ .draining) :
    let r := s.ring e.fn.idx ring
    let t := (s.begun e 0x009 (.cqModerate e ring count time)).modRing e.fn.idx ring fun r => { r with count := atLeast1 (count % 256), time := time % 1024 }
    exec (.cqModerate e ring count time) s = .next
      ((if r.armed = true ∧ atLeast1 (count % 256) ≤ r.armedN then t.fireEvent e.fn.idx ring else t).endOp e.fn.idx (s.opId e) .ok 0 0) := by
  intro r t
  have same := begun_ring_other (s := s) (op := 0x009) (c := .cqModerate e ring count time) (show ring ≠ e.ring by omega)
  rw [exec_cqModerate, execCqModerate, startEntry_ready ready rfl, effCqModerate, checked_ok]
  · simp only [ring_modRing, same]
    rfl
  · rw [if_neg (by omega), same, ck_false _ _ (by simp [used, stays])]

end
end

/-- Settles O2: one lemma a command. -/
theorem ringQueueCommands : Obligations.RingQueueCommands := by
  intro e ring raw s
  refine ⟨nop_ready, fun _ _ _ => fence_ready, fun _ _ => ringInval_ready, fun ready admin pos lt paused => ?_, fun _ _ => dbgCfg_ready,
    fun _ _ ready admin pos lt => cqModerate_ready admin pos lt ready⟩
  have flush := ringFlush_ready admin pos lt ready paused
  exact ⟨fun idle => flush.trans (congrArg _ (if_neg (by simp [idle]))), fun busy => flush.trans (congrArg _ (if_pos busy))⟩

end Sys2Proof.Machine
end

section
/-!
Ring events and doorbells (R47, R48, R62-R72, R75, R76, R364): what each event's or access's operation does in the case that its statement
names, and that the function answers the access.
-/

namespace Sys2Proof.Machine

/-- What a ring pair becomes depends on what it is alone. -/
theorem modRing_congr {s : State} {f k : Nat} {g g' : Ring → Ring} (h : g (s.ring f k) = g' (s.ring f k)) : s.modRing f k g = s.modRing f k g' :=
  congrArg (fun r => s.setFn f { s.fn f with rings := aset (s.fn f).rings k r }) h

/-! ### Fences and drained rings (R62, R72) -/

section
variable {s : State} {f k id : Nat}

/-- R72: the waiting FENCE ends with the failures it counted, once its conditions hold. -/
theorem fenceRelease_met {o : Op} {e : Entry} {hv rv inst : Bool} (waits : (s.ring f k).fence = some id) (found : s.op? f id = some o)
    (cmd : o.cmd = .fence e hv rv inst) (met : s.fenceMet f o.covered rv (if inst then none else some k) id = true) :
    s.fenceRelease f k = (s.modRing f k fun r => { r with fence := none }).endOp f id .ok 0 o.bad := by
  simp only [State.fenceRelease, waits, found, cmd, met, if_true]

/-- R62, R75: a DRAINING ring pair without operations goes with the completions that wait, and its RING_DESTROY ends. -/
theorem ringDrained_last (draining : (s.ring f k).state = .draining) (idle : ∀ o ∈ (s.fn f).ops, o.ring ≠ k)
    (destroy : (s.ring f k).destroy = some id) :
    s.ringDrained f k = (s.modFn f fun x => { x with rings := adel x.rings k, cnt := { x.cnt with complDropped := x.cnt.complDropped + (s.ring f k).waiting.length } }).endOp
      f id .ok 0 0 := by
  have none : ¬ (s.fn f).ops.any (fun o => o.ring = k) = true := by simpa using idle
  rw [State.ringDrained, if_pos ⟨draining, none⟩, destroy]

/-- R75: the one completion that waits is written where the completion ring can take it. -/
theorem writeWaiting_single {c : Compl} (waits : (s.ring f k).waiting = [c]) (room : s.cqReady f k c = true) :
    writeWaiting 1 s f k = (s.modRing f k fun r => { r with waiting := [], cqPark := none }).putCompl f k c := by
  have step : State.writeOne f k s () = ((s.modRing f k fun r => { r with waiting := r.waiting.erase c, cqPark := none }).putCompl f k c, some ()) := by
    simp [State.writeOne, waits, room]
  have rest : (s.modRing f k fun r => { r with waiting := r.waiting.erase c, cqPark := none }) =
      s.modRing f k fun r => { r with waiting := [], cqPark := none } := modRing_congr (by simp [waits])
  rw [writeWaiting, loop, step, rest]
  rfl

/-- R76: the event fires once its TIME has run since the first completion written under it. -/
theorem cqTimer_due {t : Nat} (armed : (s.ring f k).armed = true) (since : (s.ring f k).armedAt = some t) (timed : (s.ring f k).time ≠ 0)
    (due : t + 1000 * (s.ring f k).time ≤ s.now) : s.cqTimer f k = s.fireEvent f k := by
  simp only [State.cqTimer, since, if_pos (⟨armed, timed, due⟩ : _ ∧ _ ∧ _)]

end

/-! ### Accesses to a function's BARs (R357, R435, R440) -/

/-- An access that the function answers acts. -/
theorem onBar_answers {s : State} {f : Nat} {k : State → State} (answers : s.answers f = true) : s.onBar f k = k s := if_pos answers

/-- A setup write that changes something is journalled and acts while the journal has room. -/
theorem setupWrite_acts {s : State} {o : Origin} {off width old new : Nat} {act : State → State} (room : s.jrnl.full = false) :
    s.setupWrite o off width false old new act = act (s.jCommit o (.setup off width false old new)) := by
  simp [State.setupWrite, room]

/-! ### Register fences (R364) -/

/-- The oldest register fence shows its token, and signals where it asks for that. -/
theorem regFenceDone_met {s : State} {f : Nat} {x : RegFence} {l : List RegFence} (oldest : (s.fn f).fences = x :: l)
    (met : s.fenceMet f x.covered x.remoteVis none (s.fn f).nextOp = true) :
    s.regFenceDone f =
      (let t := s.modFn f fun y => { y with fences := l, fenceDone := x.token }
       if x.irq then t.msix f x.vector else t) := by
  simp only [State.regFenceDone, oldest, met, if_true]

/-- R364, R435: a write of a fence register is journalled and adds a fence over everything that has started. -/
theorem regFence_written {s : State} {f token vector : Nat} {o : Origin} {hv rv irq : Bool} (room : s.jrnl.full = false) :
    s.regFence f o token hv rv vector irq =
      (s.jCommit o (.setup (admOff f + 0x10) 8 false 0 (token % 2 ^ 32 + 2 ^ 32 * bit hv + 2 ^ 33 * bit rv + vector % 64 * 2 ^ 40 + 2 ^ 47 * bit irq))).modFn
        f fun x => { x with fences := x.fences ++ [⟨token % 2 ^ 32, rv, vector % 64, irq, covers x 0 true x.nextOp⟩] } := by
  rw [State.regFence]
  exact setupWrite_acts room

/-- Settles O3: each event does what the lemma on its operation says. -/
theorem ringEvents : Obligations.RingEvents := by
  intro fn ring s
  refine ⟨fun id o e hv rv inst waits found cmd met => ?_, fun id draining idle destroy => ?_, fun c waits room _ => ?_,
    fun now t armed since timed due => ?_, fun now g only due => ?_, fun o token hv rv vector irq answers room => ?_,
    fun x l oldest met => ?_⟩
  · rw [exec_fenceRelease, execFenceRelease, fenceRelease_met waits found cmd met]
  · rw [exec_ringDrained, execRingDrained, ringDrained_last draining idle destroy]
  · rw [exec_pendingCompletionWrite, execPendingCompletionWrite, waits, List.length_singleton, writeWaiting_single waits room]
  · rw [exec_cqEventTimer, execCqEventTimer, cqTimer_due (s := s.tick now) armed since timed due]
  · have gathered : (s.jrnl.gather.filter fun g => g.at_ + 1000000 ≤ (s.tick now).now) = [g] := by simp [only, due]
    rw [exec_stateRecordCommit]
    exact congrArg (fun l => Host.Outcome.next (l.foldl (fun s g => s.gatherCommit g) (s.tick now))) gathered
  · rw [exec_registerFence, execRegisterFence, onBar_answers answers, regFence_written room]
  · rw [exec_registerFenceDone, execRegisterFenceDone, regFenceDone_met oldest met]

/-! ### Doorbells (R67-R69) -/

section
variable {s : State} {f k : Nat}

theorem doorbell_dropped {tail : Option Nat} (gone : (s.ring f k).state = .free ∨ (s.ring f k).state = .draining) :
    s.doorbell f k tail = s.modFn f fun x => { x with cnt := { x.cnt with bellsDropped := x.cnt.bellsDropped + 1 } } := if_pos gone

/-- R68: an unmasked doorbell that no freeze holds back starts a scan. -/
theorem bellTaken_scans {t : Nat} (live : isPf f = true ∨ (s.part (partOf f)).state = .active)
    (unmasked : (agetD (s.fn f).dbgs (k / 32) {}).mask.testBit (k % 32) = false) : s.bellTaken f k t = s.scanRing f k t := by
  have goes : ¬ (¬ isPf f = true ∧ ((s.part (partOf f)).state = .frozen ∨ (s.part (partOf f)).state = .freezing)) := by
    rcases live with pf | active
    · simp [pf]
    · simp [active]
  rw [State.bellTaken, if_neg goes, if_neg (by simp [unmasked])]

/-- R69, R568: a doorbell that is not dropped wakes the ring pair's domains and is taken. -/
theorem doorbell_scans {tail : Nat} (used : (s.ring f k).state ≠ .free) (stays : (s.ring f k).state ≠ .draining)
    (live : isPf f = true ∨ (s.part (partOf f)).state = .active)
    (unmasked : (agetD (s.fn f).dbgs (k / 32) {}).mask.testBit (k % 32) = false) :
    s.doorbell f k (some tail) = (s.bellWake f).scanRing f k tail := by
  rw [State.doorbell, if_neg (not_or.mpr ⟨used, stays⟩), bellTaken_scans (by rwa [bellWake_part]) (by rwa [bellWake_fn])]
  rfl

/-- A completion doorbell of an ACTIVE ring pair acts. -/
theorem onCq_active {g : State → State} (active : (s.ring f k).state = .active) : s.onCq f k g = g s := if_neg (by simp [active])

/-- R76: an event armed below the completion tail fires at once. -/
theorem cqArm_fires {head : Nat} (behind : (s.ring f k).cqTail ≠ head % 65536 % (s.ring f k).cqSize) :
    s.cqArm f k head = ((s.cqRelease f k head).modRing f k fun r => { r with armed := true, armedN := 0, armedAt := none }).fireEvent f k := by
  exact if_pos (by simpa [State.cqRelease] using behind)

/-! ### Group registers (R70, R71) -/

/-- Without a pending doorbell, a write of DBG_MASK starts no scan. -/
theorem dbgMask_idle {group bits : Nat} (idle : (agetD (s.fn f).dbgs group {}).pend = 0) :
    let d := agetD (s.fn f).dbgs group {}
    s.dbgMask f group bits = s.modFn f fun x => { x with dbgs := aset x.dbgs group { d with mask := groupPut s f group d.mask bits } } := by
  have none : bitList 32 (agetD (s.fn f).dbgs group {}).pend = [] := by rw [idle]; decide
  rw [State.dbgMask, none]
  rfl

/-- R71: a write that leaves no signalling bit raises no vector; one that leaves one raises the group's. -/
theorem dbgWrite_eq (s : State) (f group : Nat) (g : Dbg → Dbg) :
    let d := g (agetD (s.fn f).dbgs group {})
    let t := s.modFn f fun x => { x with dbgs := aset x.dbgs group d }
    s.dbgWrite f group g = if d.signals ≠ 0 then t.msix f d.vector else t := rfl

end

/-! ### The admin ring registers (R47, R48, R63) -/

/-- Bit 30 of a value of ADMCFG with both sizes below it and RESUME alone set. -/
theorem testBit_resume {a b : Nat} (ha : a < 32) (hb : b < 32) : (a + b * 2 ^ 8 + 2 ^ 30).testBit 30 = true := by
  rw [Nat.testBit_eq_decide_div_mod_eq, decide_eq_true_eq]
  omega

section
variable {s : State} {f : Nat} {o : Origin} {width v : Nat} (room : s.jrnl.full = false)
include room

/-- R48: EN while it was 0: the sizes of the write are taken, and the admin ring is made. -/
theorem admCfgWrite_enables (off : (s.fn f).admEn = false) (en : v.testBit 31 = true) :
    s.admCfgWrite f o width v = ((s.jCommit o (.setup (admOff f) width false (s.fn f).admCfg v)).modFn f fun x =>
      { x with sqLog := bitsOf v 0 5, cqLog := bitsOf v 8 5 }).admEnable f := by
  simp [State.admCfgWrite, off, en, setupWrite_acts room]

/-- R63: RESUME of an admin ring in ERROR. -/
theorem admCfgWrite_resumes (on : (s.fn f).admEn = true) (error : (s.ring f 0).state = .error) (resume : v.testBit 30 = true) :
    s.admCfgWrite f o width v = (s.jCommit o (.setup (admOff f) width false (s.fn f).admCfg v)).modRing f 0 fun r =>
      { r with state := .active, cache := [], scan := true, sqPark := none, cqBad := false } := by
  simp [State.admCfgWrite, on, error, resume, setupWrite_acts room]

end

/-- Settles O4: each access is answered, and does what the lemma on its operation says. -/
theorem doorbells : Obligations.Doorbells := by
  intro fn o ring group s answers room f r d
  refine ⟨fun tail => ⟨fun gone => ?_, fun used stays live unmasked => ?_⟩, fun head active => ?_, fun head active behind => ?_,
    fun bits => ?_, fun bits idle => ?_, fun bits quiet => ?_, fun bits signals => ?_, fun value off => ?_,
    fun on error sq cq => ?_⟩
  · rw [exec_ringSqdb, execRingSqdb, onBar_answers answers, doorbell_dropped gone]
  · rw [exec_ringSqdb, execRingSqdb, onBar_answers answers, doorbell_scans used stays live unmasked]
  · rw [exec_cqHeadRelease, execCqHeadRelease, onBar_answers answers, onCq_active active, State.cqRelease]
  · rw [exec_cqEventArm, execCqEventArm, onBar_answers answers, onCq_active active, cqArm_fires behind, State.cqRelease]
  · rw [exec_dbgRingSet, execDbgRingSet, onBar_answers answers]
  · rw [exec_dbgMaskWrite, execDbgMaskWrite, onBar_answers answers, dbgMask_idle idle]
  · rw [exec_dbgEvtClear, execDbgEvtClear, onBar_answers answers, State.dbgEvt, dbgWrite_eq, if_neg (not_not.mpr quiet)]
  · rw [exec_dbgEmaskWrite, execDbgEmaskWrite, onBar_answers answers, State.dbgEmask, dbgWrite_eq, if_pos signals]
  · have en : (value ||| 2 ^ 31).testBit 31 = true := by rw [Nat.testBit_or, Nat.testBit_two_pow_self, Bool.or_true]
    rw [exec_adminRingEnable, execAdminRingEnable, onBar_answers answers, admCfgWrite_enables room off en]
  · rw [exec_adminRingResume, execAdminRingResume, onBar_answers answers, admCfgWrite_resumes room on error (testBit_resume sq cq)]

end Sys2Proof.Machine
end

section
/-!
The fetch path of ENTRY_START (R54, R58, R68, R75, R170): whose turn it is, what the header and the slots at the head say, and that the command
which an entry's bytes spell runs as it runs by itself.
-/

namespace Sys2Proof.Machine

/-! ### The command that an entry's bytes spell (R51) -/

/-- The function whose ring pair a NOP names; fn for every other command. -/
def nopFn (fn : Fn) (i : Instr) : Fn :=
  match i with
  | .nop e => e.fn
  | _ => fn

/-- A command of the function fn that ENTRY_START runs as exec does, and that answers a next state. -/
structure Runs (fn : Fn) (i : Instr) : Prop where
  same  : ∀ s : State, runEntry i s = exec i s
  next  : ∀ s : State, ∃ t, exec i s = .next t
  owner : nopFn fn i = fn

/-- Whatever command o spells runs so. -/
def SpellsRuns (fn : Fn) (o : Option Instr) : Prop := ∀ i, o = some i → Runs fn i

theorem spellsRuns_none (fn : Fn) : SpellsRuns fn none := fun _ h => nomatch h

theorem spellsRuns_some {fn : Fn} {i : Instr} (h : Runs fn i) : SpellsRuns fn (some i) := fun _ hi => Option.some.inj hi ▸ h

theorem spellsRuns_ite {fn : Fn} {c : Prop} [Decidable c] {a b : Option Instr} (ha : SpellsRuns fn a) (hb : SpellsRuns fn b) :
    SpellsRuns fn (if c then a else b) := by
  split
  · exact ha
  · exact hb

theorem ringEntry_runs (fn : Fn) (ring op v : Nat) : SpellsRuns fn (ringEntry fn ring op v) := by
  unfold ringEntry
  repeat' refine spellsRuns_ite (spellsRuns_some ⟨fun _ => rfl, fun _ => ⟨_, rfl⟩, rfl⟩) ?_
  exact spellsRuns_none fn

theorem remoteEntry_runs (fn : Fn) (ring op v : Nat) : SpellsRuns fn (remoteEntry fn ring op v) := by
  unfold remoteEntry
  repeat' refine spellsRuns_ite (spellsRuns_some ⟨fun _ => rfl, fun _ => ⟨_, rfl⟩, rfl⟩) ?_
  exact spellsRuns_none fn

theorem connEntry_runs (fn : Fn) (ring op v : Nat) : SpellsRuns fn (connEntry fn ring op v) := by
  unfold connEntry
  repeat' refine spellsRuns_ite (spellsRuns_some ⟨fun _ => rfl, fun _ => ⟨_, rfl⟩, rfl⟩) ?_
  exact spellsRuns_none fn

theorem herdEntry_runs (fn : Fn) (ring op v : Nat) : SpellsRuns fn (herdEntry fn ring op v) := by
  unfold herdEntry
  repeat' refine spellsRuns_ite (spellsRuns_some ⟨fun _ => rfl, fun _ => ⟨_, rfl⟩, rfl⟩) ?_
  exact spellsRuns_none fn

theorem progEntry_runs (fn : Fn) (ring op v : Nat) : SpellsRuns fn (progEntry fn ring op v) := by
  unfold progEntry
  repeat' refine spellsRuns_ite (spellsRuns_some ⟨fun _ => rfl, fun _ => ⟨_, rfl⟩, rfl⟩) ?_
  exact spellsRuns_none fn

/-- R51: every command that an entry's bytes spell is one that ENTRY_START runs. -/
theorem decodeEntry_runs (fn : Fn) (ring v : Nat) : SpellsRuns fn (decodeEntry fn ring v) :=
  spellsRuns_ite (ringEntry_runs fn ring _ v) (spellsRuns_ite (remoteEntry_runs fn ring _ v)
    (spellsRuns_ite (connEntry_runs fn ring _ v) (spellsRuns_ite (herdEntry_runs fn ring _ v) (progEntry_runs fn ring _ v))))

/-! ### The fetch path (R54, R58, R68, R170) -/

/-- The header at a ring pair's head (R50). -/
def State.headHeader (s : State) (f k : Nat) : Nat := leNat (s.slotBytes f k (s.ring f k).head 8)

/-- The slots that the entry at the head is fetched from: of a NOP its header's alone (R65). -/
def State.headSlots (s : State) (f k : Nat) : Nat :=
  if hdrOpcode (s.headHeader f k) = 0 then 1 else (s.ring f k).taken (hdrSlots (s.headHeader f k))

section
variable {s : State} {fn : Fn} {k : Nat}

/-- R68: a scan ends after its lap. -/
theorem fetchEntry_lapEnd (lap : (s.ring fn.idx k).lap = some 0) : s.fetchEntry fn k = .next (s.scanEnd fn.idx k) := if_pos lap

section
variable (lap : (s.ring fn.idx k).lap ≠ some 0) (there : s.slotMiss fn.idx k ((s.ring fn.idx k).uncached 1) = none)
  (sound : s.slotPoison fn.idx k ((s.ring fn.idx k).uncached 1) = false)
include lap there sound

/-- R68: a header without the expected phase ends the scan. -/
theorem fetchEntry_unposted (phase : hdrPhase (s.headHeader fn.idx k) ≠ (s.ring fn.idx k).phase) : s.fetchEntry fn k = .next (s.scanEnd fn.idx k) := by
  unfold State.headHeader at phase
  simp only [State.fetchEntry, if_neg lap, there, sound, Bool.false_eq_true, if_false, if_pos phase]

/-- R54: with its header posted and all its slots at hand, an entry starts from its bytes. -/
theorem fetchEntry_posted (phase : hdrPhase (s.headHeader fn.idx k) = (s.ring fn.idx k).phase)
    (allThere : s.slotMiss fn.idx k ((s.ring fn.idx k).uncached (s.headSlots fn.idx k)) = none)
    (allSound : s.slotPoison fn.idx k ((s.ring fn.idx k).uncached (s.headSlots fn.idx k)) = false) :
    s.fetchEntry fn k = s.startBytes fn k (s.headSlots fn.idx k) := by
  unfold State.headSlots State.headHeader at *
  simp only [State.fetchEntry, if_neg lap, there, sound, Bool.false_eq_true, if_false, if_neg (not_not.mpr phase), allThere, allSound]

end

/-- R51: the bytes of a command run it. -/
theorem startBytes_decoded {n : Nat} {i : Instr} (spelt : decodeEntry fn k (leNat (s.entryBytes fn.idx k n)) = some i) :
    s.startBytes fn k n = exec i s := by
  rw [State.startBytes]
  simp only [spelt]
  exact (decodeEntry_runs fn k _ i spelt).same s

/-- R170: in its turn, a ring pair's entry is fetched. -/
theorem entryStart_turn {c : Nat} {d : AMap Nat} (turn : s.ringTurn fn.idx = some (k, c, d)) :
    exec (.entryStart fn k) s = (s.ringTook fn.idx k c d).fetchEntry fn k := by
  rw [exec_entryStart, execEntryStart, State.entryStart, turn]
  exact if_neg (not_not.mpr rfl)

/-- R170: out of its turn, nothing changes. -/
theorem entryStart_notTurn (other : ∀ (c : Nat) (d : AMap Nat), s.ringTurn fn.idx ≠ some (k, c, d)) : exec (.entryStart fn k) s = .next s := by
  rw [exec_entryStart, execEntryStart, State.entryStart]
  rcases turn : s.ringTurn fn.idx with _ | ⟨j, c, d⟩
  · rfl
  · have ne : j ≠ k := fun same => other c d (same ▸ turn)
    exact if_pos ne

end

/-- Settles O5: in its turn, a ring pair's entry goes through the fetch path, by the case its header and slots select. -/
theorem entryStarts : Obligations.EntryStarts := by
  intro fn ring s
  refine ⟨fun c d turn => ?_, entryStart_notTurn⟩
  rw [entryStart_turn turn]
  intro u r h n
  refine ⟨fun lap there sound => ⟨fun i phase allThere allSound spelt => ?_, fetchEntry_unposted lap there sound⟩, fetchEntry_lapEnd⟩
  have runs : u.fetchEntry fn ring = exec i u :=
    (fetchEntry_posted lap there sound phase allThere allSound).trans (startBytes_decoded spelt)
  have command := decodeEntry_runs fn ring _ i spelt
  rw [runs]
  refine ⟨rfl, command.next u, fun e raw nop ready => ?_⟩
  subst nop
  have own : e.fn = fn := command.owner
  rw [nop_ready ready, own]

end Sys2Proof.Machine
end

section
/-!
Completion entries (R73, R118): the four words that the 32 bytes of an entry spell, what ending an operation hands over, and what it does to
LTALLY.
-/

namespace Sys2Proof.Machine

/-! ### The words of a completion entry (R73) -/

/-- Runs of bytes in a row are the run of the number that both spell. -/
theorem leBytes_append {m n a b : Nat} (h : a < 256 ^ m) : leBytes m a ++ leBytes n b = leBytes (m + n) (a + 256 ^ m * b) := by
  induction m generalizing a with
  | zero =>
    have zero : a = 0 := by simpa using h
    simp [zero, leBytes]
  | succ m ih =>
    have rest : a / 256 < 256 ^ m := Nat.div_lt_of_lt_mul (by rwa [← Nat.pow_succ'])
    have split : a + 256 ^ (m + 1) * b = a + 256 * (256 ^ m * b) := by rw [Nat.pow_succ', Nat.mul_assoc]
    have first : BitVec.ofNat 8 (a + 256 * (256 ^ m * b)) = BitVec.ofNat 8 a := by
      apply BitVec.eq_of_toNat_eq
      simp only [BitVec.toNat_ofNat]
      omega
    rw [show m + 1 + n = m + n + 1 by omega, leBytes_succ, leBytes_succ, List.cons_append, ih rest, split, first,
      Nat.add_mul_div_left _ _ (by decide)]

/-- The four words of a completion entry with the ring pair's own phase and head. -/
def Compl.words (c : Compl) (phase : Bool) (sqhead : Nat) : List Nat :=
  [c.tag.toNat + c.gen * 2 ^ 32 + c.status.code * 2 ^ 48 + bit phase * 2 ^ 63, c.bytes + sqhead * 2 ^ 48, c.time,
   c.detail + c.opcode * 2 ^ 32 + c.tepoch * 2 ^ 56]

/-- The widths of a completion's fields (R73). -/
structure Compl.Fits (c : Compl) : Prop where
  gen    : c.gen < 2 ^ 16
  bytes  : c.bytes < 2 ^ 48
  time   : c.time < 2 ^ 64
  tepoch : c.tepoch < 2 ^ 8
  opcode : c.opcode < 2 ^ 11
  detail : c.detail < 2 ^ 32

theorem Status.code_lt (st : Status) : st.code < 16 := by cases st <;> decide

theorem bit_le_one (b : Bool) : bit b ≤ 1 := by cases b <;> decide

/-- A completion that carries no head of its own is its four words in a row. -/
theorem Compl.bytes32_words {c : Compl} {phase : Bool} {head : Nat} (fits : c.Fits) (own : c.sqhead = none) :
    c.bytes32 phase head = (c.words phase head).flatMap (leBytes 8) := by
  obtain ⟨gen, bytes, time, tepoch, opcode, detail⟩ := fits
  have tag := c.tag.isLt
  have status := Status.code_lt c.status
  have word0 : leBytes 4 c.tag.toNat ++ (leBytes 2 c.gen ++ (leBytes 1 c.status.code ++ leBytes 1 (128 * bit phase))) =
      leBytes 8 (c.tag.toNat + c.gen * 2 ^ 32 + c.status.code * 2 ^ 48 + bit phase * 2 ^ 63) := by
    rw [leBytes_append (by omega), leBytes_append (by omega), leBytes_append (by omega)]
    congr 1
    ring
  have word1 : leBytes 6 c.bytes ++ leBytes 2 head = leBytes 8 (c.bytes + head * 2 ^ 48) := by
    rw [leBytes_append (by omega)]
    congr 1
    ring
  have word3 : leBytes 4 c.detail ++ (leBytes 2 c.opcode ++ (leBytes 1 0 ++ leBytes 1 c.tepoch)) =
      leBytes 8 (c.detail + c.opcode * 2 ^ 32 + c.tepoch * 2 ^ 56) := by
    rw [leBytes_append (by omega), leBytes_append (by omega), leBytes_append (by omega)]
    congr 1
    ring
  simp only [Compl.bytes32, own, Option.getD_none, Compl.words, List.flatMap_cons, List.flatMap_nil, List.append_nil, ← word0, ← word1, ← word3,
    List.append_assoc]

/-- Every word fits its 8 bytes. -/
theorem Compl.words_lt {c : Compl} {phase : Bool} {head : Nat} (fits : c.Fits) (hhead : head < 2 ^ 16) : ∀ w ∈ c.words phase head, w < 2 ^ 64 := by
  obtain ⟨gen, bytes, time, tepoch, opcode, detail⟩ := fits
  have tag := c.tag.isLt
  have status := Status.code_lt c.status
  have ph := bit_le_one phase
  simp only [Compl.words, List.forall_mem_cons, List.not_mem_nil, false_implies, implies_true, and_true]
  omega

@[simp] theorem Compl.bytes32_length (c : Compl) (phase : Bool) (head : Nat) : (c.bytes32 phase head).length = 32 := by
  simp [Compl.bytes32]

/-- Eight bytes of a run of words are one word. -/
theorem leNat_word {l : List Nat} (fits : ∀ w ∈ l, w < 2 ^ 64) {i : Nat} (hi : i < l.length) :
    leNat (((l.flatMap (leBytes 8)).drop (8 * i)).take 8) = l[i] := by
  induction l generalizing i with
  | nil => simp at hi
  | cons w t ih =>
    obtain ⟨first, rest⟩ := List.forall_mem_cons.mp fits
    cases i with
    | zero =>
      rw [Nat.mul_zero, List.drop_zero, List.flatMap_cons, List.take_left' (leBytes_length 8 w), leNat_leBytes]
      exact Nat.mod_eq_of_lt first
    | succ i =>
      have next : 8 * (i + 1) = (leBytes 8 w).length + 8 * i := by rw [leBytes_length]; omega
      rw [next, List.flatMap_cons, List.drop_length_add_append]
      exact ih rest (by simpa using hi)

/-! ### Writing a completion entry (R73, R74) -/

section
variable {s : State} {f k : Nat} {c : Compl}

theorem cqReady_iff : s.cqReady f k c = true ↔ (s.ring f k).state ≠ .free ∧ (s.ring f k).cqBad = false ∧ (c.slot = true ∨ 0 < (s.ring f k).cqFree) ∧
    s.missing f ((s.ring f k).cqBase + 32 * (s.ring f k).cqTail) 32 true = none := by
  simp [State.cqReady, and_assoc]

/-- A completion that its ring can take, with none waiting before it, is written. -/
theorem complete_written (idle : (s.ring f k).waiting = []) (ready : s.cqReady f k c = true) : s.complete f k c = s.putCompl f k c := by
  have used := (cqReady_iff.mp ready).1
  rw [State.complete]
  dsimp only
  rw [if_neg used, if_pos ⟨Or.inl idle, ready⟩]

/-- Writing an entry changes memory at the completion tail alone. -/
theorem putCompl_bytes (s : State) (f k : Nat) (c : Compl) : (s.putCompl f k c).mem.bytes =
    cellsSet s.mem.bytes (cellKey f ((s.ring f k).cqBase + 32 * (s.ring f k).cqTail)) (c.bytes32 (s.ring f k).cqPhase (s.ring f k).head) := by
  rw [State.putCompl]
  rw [countEvent_mem, modRing_mem, hostWrite_bytes]

theorem hostWrite_ring (s : State) (f a : Nat) (bs : List Byte) (g k : Nat) : (s.hostWrite f a bs).ring g k = s.ring g k := by
  rw [State.ring, hostWrite_fn, State.ring]

/-- The tail moves on by one entry, and PHASE inverts where it wraps (R74). -/
theorem putCompl_tail (s : State) (f k : Nat) (c : Compl) :
    ((s.putCompl f k c).ring f k).cqTail = ((s.ring f k).cqTail + 1) % (s.ring f k).cqSize ∧
    ((s.putCompl f k c).ring f k).cqPhase = (if (s.ring f k).cqTail + 1 = (s.ring f k).cqSize then ! (s.ring f k).cqPhase else (s.ring f k).cqPhase) := by
  rw [State.putCompl]
  rw [(countEvent_cq _ f k).1, (countEvent_cq _ f k).2, ring_modRing, hostWrite_ring]
  exact ⟨rfl, rfl⟩

/-- The words of a written entry read back. -/
theorem putCompl_word (good : s.mem.wf = true) (fits : c.Fits) (own : c.sqhead = none) (head : (s.ring f k).head < 2 ^ 16) {i : Nat} (hi : i < 4) :
    leNat ((s.putCompl f k c).hostBytes f ((s.ring f k).cqBase + 32 * (s.ring f k).cqTail + 8 * i) 8) =
      (c.words (s.ring f k).cqPhase (s.ring f k).head)[i] := by
  have whole := cellsGet_cellsSet (k := cellKey f ((s.ring f k).cqBase + 32 * (s.ring f k).cqTail))
    (bs := c.bytes32 (s.ring f k).cqPhase (s.ring f k).head) good
  rw [Compl.bytes32_length, ← putCompl_bytes] at whole
  have key : cellKey f ((s.ring f k).cqBase + 32 * (s.ring f k).cqTail + 8 * i) =
      cellKey f ((s.ring f k).cqBase + 32 * (s.ring f k).cqTail) + 8 * i := by simp only [cellKey, Nat.add_assoc]
  have part : 8 * i + 8 + (24 - 8 * i) = 32 := by omega
  rw [State.hostBytes, key, cellsGet_split _ _ _ _ (24 - 8 * i), part, whole, Compl.bytes32_words fits own]
  exact leNat_word (Compl.words_lt fits head) hi

end

/-! ### Ending an operation (R8, R118) -/

/-- LATE and DEGRADED are good statuses, so what the operation met does not change whether it ended well. -/
@[simp] theorem Op.final_good (o : Op) (st : Status) : (o.final st).good = st.good := by
  unfold Op.final
  split
  · split_ifs <;> simp_all [Status.good]
  · rfl

@[simp] theorem Op.final_eq_state {o : Op} {st : Status} : o.final st = .state ↔ st = .state := by
  unfold Op.final
  split_ifs <;> simp_all

theorem Status.good_iff {st : Status} : st.good = true ↔ st = .ok ∨ st = .late ∨ st = .degraded := by
  cases st <;> simp [Status.good]

/-- LTALLY counts an operation that ends with the good status st. -/
def State.ltCount (s : State) (f : Nat) (o : Op) (st : Status) : State :=
  match o.ltally with
  | some t => if st.good then s.tallyAdd f t 1 else s
  | none => s

/-- The operation goes, and its ring counts a started one that failed. -/
def State.opGone (s : State) (f id : Nat) (o : Op) (st : Status) : State :=
  let u := s.dropOp f id st.good
  if st.good ∨ o.waiting then u else u.modRing f o.ring fun r => { r with badEnds := r.badEnds + 1 }

/-- The end of an operation once its status is settled: LTALLY counts, the operation goes, and its completion is handed over. -/
def State.ended (s : State) (f id : Nat) (o : Op) (st : Status) (n d : Nat) : State :=
  let v := (s.ltCount f o st).opGone f id o st
  v.complete f o.ring { v.compl f st o.tag o.opcode n d with gen := o.gen, slot := o.slot, op := some id }

/-- Ending an operation of the present generation: a STATE that the journal has no room for turns BUSY, any other is gathered for the journal
first (R64, R440). -/
theorem endOp_eq {s : State} {f id : Nat} {o : Op} (st : Status) (n d : Nat) (found : s.op? f id = some o) (gen : o.gen = (s.fn f).gen) :
    s.endOp f id st n d =
      if o.final st = .state then
        if s.jrnl.full then s.bump.ended f id o .busy n s.hint
        else (s.gatherState f o.ring o.opcode o.tag).ended f id o .state n d
      else s.ended f id o (o.final st) n d := by
  rw [State.endOp, found]
  dsimp only
  rw [if_neg (not_not.mpr gen)]
  by_cases state : o.final st = .state
  · by_cases full : s.jrnl.full = true
    · simp only [state, full, and_self, if_true, reduceCtorEq, if_false]
      rfl
    · simp only [state, full, if_true]
      rfl
  · simp only [state, false_and, if_false]
    rfl

theorem kept_ltCount (s : State) (f : Nat) (o : Op) (st : Status) : Kept s (s.ltCount f o st) := by
  unfold State.ltCount
  split
  · split
    · exact kept_tallyAdd s f _ 1
    · exact Kept.refl s
  · exact Kept.refl s

theorem kept_opGone (s : State) (f id : Nat) (o : Op) (st : Status) : Kept s (s.opGone f id o st) := by
  unfold State.opGone State.dropOp
  dsimp only
  split
  · exact kept_modFn s f _
  · exact (kept_modFn s f _).trans (kept_modRing _ f _ _)

/-- The completion carries the operation's own GEN, TAG and OPCODE, and the device time and epoch of now. -/
theorem ended_eq (s : State) (f id : Nat) (o : Op) (st : Status) (n d : Nat) :
    s.ended f id o st n d = ((s.ltCount f o st).opGone f id o st).complete f o.ring
      { status := st, gen := o.gen, tag := o.tag, sqhead := none, bytes := n, opcode := o.opcode, detail := d, slot := o.slot,
        time := s.clk.time, tepoch := s.clk.tepoch, op := some id } := by
  have clk : ((s.ltCount f o st).opGone f id o st).clk = s.clk := ((kept_ltCount s f o st).trans (kept_opGone _ f id o st)).clk
  rw [State.ended, State.compl, clk]

/-! ### LTALLY (R115, R118) -/

section
variable {s : State} {f i : Nat} {x : Tally}

/-- Adding to a sound tally raises its count, up to 2^64 − 1. -/
theorem tallyAdd_count {v : Nat} (allocated : aget (s.fn f).tallies i = some x) (sound : x.bad = false) :
    (s.tallyAdd f i v).tallyCount f i = min (2 ^ 64 - 1) (x.count + v) := by
  simp [State.tallyAdd, State.tallyPut, State.fire, State.tallyCount, allocated, sound, satAdd]

end

@[simp] theorem modRing_tallies (s : State) (f k : Nat) (g : Ring → Ring) : ((s.modRing f k g).fn f).tallies = (s.fn f).tallies := by
  simp [State.modRing]

theorem opGone_tallies (s : State) (f id : Nat) (o : Op) (st : Status) : ((s.opGone f id o st).fn f).tallies = (s.fn f).tallies := by
  unfold State.opGone State.dropOp
  dsimp only
  split <;> simp

/-! ### What leaves a tally alone -/

@[simp] theorem emit_fn (s : State) (o : Output) (f : Nat) : (s.emit o).fn f = s.fn f := rfl

@[simp] theorem msix_tallies (s : State) (f v g : Nat) : ((s.msix f v).fn g).tallies = (s.fn g).tallies := by rw [msix_fn]

theorem ringEvent_tallies (s : State) (f k : Nat) : ((s.ringEvent f k).fn f).tallies = (s.fn f).tallies := by
  unfold State.ringEvent
  dsimp only
  split <;> simp

theorem countEvent_tallies (s : State) (f k : Nat) : ((s.countEvent f k).fn f).tallies = (s.fn f).tallies := by
  unfold State.countEvent State.fireEvent
  dsimp only
  split
  · split <;> simp [ringEvent_tallies]
  · rfl

theorem askXlate_tallies (s : State) (f p : Nat) (w : Bool) : ((s.askXlate f p w).fn f).tallies = (s.fn f).tallies := by
  unfold State.askXlate
  dsimp only
  split
  · rfl
  · rw [emit_fn, fn_modFn]

theorem complete_tallies (s : State) (f k : Nat) (c : Compl) : ((s.complete f k c).fn f).tallies = (s.fn f).tallies := by
  unfold State.complete State.putCompl
  dsimp only
  split
  · simp
  · split
    · simp [countEvent_tallies, hostWrite_fn]
    · split <;> simp [askXlate_tallies]

/-- Gathering a STATE completion commits at most the record that has been open too long, and rewrites the journal's open records (R64). -/
theorem gatherState_eq (s : State) (f r o : Nat) (t : BitVec 32) :
    ∃ (u : State) (j : Jrnl), (u = s ∨ ∃ g, u = s.gatherCommit g) ∧ s.gatherState f r o t = { u with jrnl := j } := by
  unfold State.gatherState
  dsimp only
  split <;> split
  · exact ⟨_, _, .inr ⟨_, rfl⟩, rfl⟩
  · exact ⟨s, _, .inl rfl, rfl⟩
  · exact ⟨_, _, .inr ⟨_, rfl⟩, rfl⟩
  · exact ⟨s, _, .inl rfl, rfl⟩

/-- It leaves everything of a function but its pending vectors. -/
theorem gatherState_fn (s : State) (f r o : Nat) (t : BitVec 32) (g : Nat) :
    (s.gatherState f r o t).fn g = { s.fn g with msixPba := ((s.gatherState f r o t).fn g).msixPba } := by
  obtain ⟨u, j, rfl | ⟨x, rfl⟩, eq⟩ := gatherState_eq s f r o t
  · rw [eq]
    rfl
  · rw [eq]
    exact jrnlSignal_fn _ g

/-- An operation that ends otherwise than OK, LATE or DEGRADED leaves every tally. -/
theorem ended_tallies {s : State} {f id n d : Nat} {o : Op} {st : Status} (bad : st.good = false) :
    ((s.ended f id o st n d).fn f).tallies = (s.fn f).tallies := by
  have uncounted : s.ltCount f o st = s := by
    unfold State.ltCount
    simp only [bad, Bool.false_eq_true, if_false]
    split <;> rfl
  rw [ended_eq, complete_tallies, opGone_tallies, uncounted]

theorem endOp_tallies {s : State} {f id n d : Nat} {o : Op} {st : Status} (found : s.op? f id = some o) (gen : o.gen = (s.fn f).gen)
    (bad : st.good = false) : ((s.endOp f id st n d).fn f).tallies = (s.fn f).tallies := by
  rw [endOp_eq st n d found gen]
  split
  · split
    · exact ended_tallies rfl
    · rw [ended_tallies rfl, gatherState_fn]
  · exact ended_tallies ((Op.final_good o st).trans bad)

/-! ### The statement -/

/-- The completion entry spells the words of the table, at the tail, which moves on. -/
theorem complete_words {s : State} {f k : Nat} {c : Compl} (good : s.mem.wf = true) (idle : (s.ring f k).waiting = []) (ready : s.cqReady f k c = true)
    (fits : c.Fits) (own : c.sqhead = none) (head : (s.ring f k).head < 2 ^ 16) {i : Nat} (hi : i < 4) :
    leNat ((s.complete f k c).hostBytes f ((s.ring f k).cqBase + 32 * (s.ring f k).cqTail + 8 * i) 8) =
      (c.words (s.ring f k).cqPhase (s.ring f k).head)[i] := by
  rw [complete_written idle ready]
  exact putCompl_word good fits own head hi

/-- Settles O58: the entry by its words, an ending operation by what it hands over, and LTALLY by whether the status is good. -/
theorem completionEntry : Obligations.CompletionEntry := by
  refine ⟨?_, fun _ _ _ _ _ _ => rfl, ?_, ?_⟩
  · intro f k c s r good used sound idle room there gen bytes own head time tepoch opcode detail t a word
    have ready : s.cqReady f k c = true := cqReady_iff.mpr ⟨used, sound, room, there⟩
    have words := @complete_words s f k c good idle ready ⟨gen, bytes, time, tepoch, opcode, detail⟩ own head
    have tail := putCompl_tail s f k c
    rw [← complete_written idle ready] at tail
    exact ⟨words (i := 0) (by decide), words (i := 1) (by decide), words (i := 2) (by decide), words (i := 3) (by decide),
      fun aligned => by omega, tail⟩
  · intro f id n d st o s found gen none plain
    have notState : ¬ o.final st = .state := by simpa using plain
    rw [endOp_eq st n d found gen, if_neg notState, ended_eq]
    simp only [State.ltCount, none, State.opGone]
  · intro f id n d i st o x s found gen lt allocated sound
    refine ⟨fun good => ⟨tallyAdd_count allocated sound, ?_⟩, fun ok late degraded => ?_⟩
    · have good : st.good = true := Status.good_iff.mpr good
      have notState : ¬ o.final st = .state := by
        rintro h
        simp [Op.final_eq_state.mp h, Status.good] at good
      rw [endOp_eq st n d found gen, if_neg notState, ended_eq]
      simp [State.ltCount, State.opGone, lt, good]
    · have bad : st.good = false := by
        rw [← Bool.not_eq_true, Status.good_iff]
        simp [ok, late, degraded]
      simp [State.tallyCount, endOp_tallies found gen bad, allocated]

end Sys2Proof.Machine
end

section
/-!
The frame of ring commands (R65, R66, R73): what ending an operation leaves of other functions and of memory, and that nine commands do
nothing else outside their own function.
-/

namespace Sys2Proof.Machine

/-! ### Other functions -/

theorem OthersKept.refl (f : Nat) (s : State) : OthersKept f s s := fun _ _ => rfl

theorem OthersKept.trans {f : Nat} {s t u : State} (h1 : OthersKept f s t) (h2 : OthersKept f t u) : OthersKept f s u := by
  intro g hg
  rw [h2 g hg, h1 g hg]

theorem others_modFn (s : State) (f : Nat) (g : FnState → FnState) : OthersKept f s (s.modFn f g) := by
  intro j hj
  rw [fn_modFn_other hj]

theorem others_emit (f : Nat) (s : State) (o : Output) : OthersKept f s (s.emit o) := fun _ _ => rfl

theorem others_msix (s : State) (f v g : Nat) : OthersKept f s (s.msix g v) := fun j _ => msix_fn s g v j

theorem others_askXlate (s : State) (f p : Nat) (w : Bool) : OthersKept f s (s.askXlate f p w) := by
  unfold State.askXlate
  dsimp only
  split
  · exact OthersKept.refl f s
  · exact (others_modFn s f _).trans (others_emit f _ _)

theorem others_ringEvent (s : State) (f k : Nat) : OthersKept f s (s.ringEvent f k) := by
  unfold State.ringEvent
  dsimp only
  split
  · exact (others_modFn s f _).trans (others_msix _ f _ f)
  · exact others_modFn s f _

theorem others_countEvent (s : State) (f k : Nat) : OthersKept f s (s.countEvent f k) := by
  unfold State.countEvent State.fireEvent
  dsimp only
  split
  · split
    · exact ((others_modFn s f _).trans (others_modFn _ f _)).trans (others_ringEvent _ f k)
    · exact others_modFn s f _
  · exact OthersKept.refl f s

theorem others_hostWrite (s : State) (f a : Nat) (bs : List Byte) : OthersKept f s (s.hostWrite f a bs) := by
  intro j _
  rw [hostWrite_fn]

theorem others_putCompl (s : State) (f k : Nat) (c : Compl) : OthersKept f s (s.putCompl f k c) :=
  ((others_hostWrite s f _ _).trans (others_modFn _ f _)).trans (others_countEvent _ f k)

theorem others_complete (s : State) (f k : Nat) (c : Compl) : OthersKept f s (s.complete f k c) := by
  unfold State.complete
  dsimp only
  split
  · exact others_modFn s f _
  · split
    · exact others_putCompl s f k c
    · split
      · exact ((others_modFn s f _).trans (others_modFn _ f _)).trans (others_askXlate _ f _ _)
      · exact others_modFn s f _

/-! ### Memory -/

theorem askXlate_mem (s : State) (f p : Nat) (w : Bool) : (s.askXlate f p w).mem = s.mem := by
  unfold State.askXlate
  dsimp only
  split <;> rfl

/-- Handing over a completion leaves every byte outside the entry at the tail of its completion ring. -/
theorem complete_bytes_other {s : State} {f k a : Nat} (c : Compl) (good : s.mem.wf = true)
    (outside : let slot := cellKey f ((s.ring f k).cqBase + 32 * (s.ring f k).cqTail)
      a < slot ∨ slot + 32 ≤ a) : cellGet (s.complete f k c).mem.bytes a = cellGet s.mem.bytes a := by
  unfold State.complete
  dsimp only
  split
  · rfl
  · split
    · rw [putCompl_bytes]
      exact cellGet_cellsSet_other good (by rwa [Compl.bytes32_length])
    · split
      · rw [askXlate_mem]
        rfl
      · rfl

/-! ### The frame of a command on ring pair k of function f -/

/-- From s to t only function f changes, up to pending vectors, with the journal and what a completion may touch besides memory; the completion
tail of ring pair k stands where it stood. -/
structure Quiet (f k : Nat) (s t : State) : Prop where
  kept   : Kept s t
  others : OthersKept f s t
  bytes  : t.mem.bytes = s.mem.bytes
  base   : (t.ring f k).cqBase = (s.ring f k).cqBase
  tail   : (t.ring f k).cqTail = (s.ring f k).cqTail

/-- The same with the 32 bytes written at that tail. -/
structure Framed (f k : Nat) (s t : State) : Prop where
  kept   : Kept s t
  others : OthersKept f s t
  bytes  : let slot := cellKey f ((s.ring f k).cqBase + 32 * (s.ring f k).cqTail)
    ∀ a, a < slot ∨ slot + 32 ≤ a → cellGet t.mem.bytes a = cellGet s.mem.bytes a

section
variable {f k : Nat} {s t u : State}

theorem Quiet.refl (f k : Nat) (s : State) : Quiet f k s s := ⟨Kept.refl s, OthersKept.refl f s, rfl, rfl, rfl⟩

theorem Quiet.trans (h1 : Quiet f k s t) (h2 : Quiet f k t u) : Quiet f k s u :=
  ⟨h1.kept.trans h2.kept, h1.others.trans h2.others, h2.bytes.trans h1.bytes, h2.base.trans h1.base, h2.tail.trans h1.tail⟩

theorem Quiet.good (h : Quiet f k s t) (good : s.mem.wf = true) : t.mem.wf = true := by
  rw [Mem.wf, h.bytes]
  exact good

theorem Quiet.framed (h : Quiet f k s t) : Framed f k s t := ⟨h.kept, h.others, fun a _ => by rw [h.bytes]⟩

/-- What comes before the completion may be quiet. -/
theorem Framed.after (h1 : Quiet f k s t) (h2 : Framed f k t u) : Framed f k s u := by
  refine ⟨h1.kept.trans h2.kept, h1.others.trans h2.others, ?_⟩
  intro slot a outside
  have bytes := h2.bytes a
  rw [h1.base, h1.tail, h1.bytes] at bytes
  exact bytes outside

theorem framed_complete (c : Compl) (good : s.mem.wf = true) : Framed f k s (s.complete f k c) :=
  ⟨kept_complete s f k c, others_complete s f k c, fun _ => complete_bytes_other c good⟩

theorem quiet_modFn {g : FnState → FnState} (rings : (g (s.fn f)).rings = (s.fn f).rings) : Quiet f k s (s.modFn f g) := by
  have ring : (s.modFn f g).ring f k = s.ring f k := by rw [State.ring, fn_modFn, rings, State.ring]
  exact ⟨kept_modFn s f g, others_modFn s f g, rfl, by rw [ring], by rw [ring]⟩

theorem quiet_modRing (j : Nat) {g : Ring → Ring} (base : ∀ r, (g r).cqBase = r.cqBase) (tail : ∀ r, (g r).cqTail = r.cqTail) :
    Quiet f k s (s.modRing f j g) := by
  refine ⟨kept_modRing s f j g, others_modFn s f _, rfl, ?_, ?_⟩ <;> by_cases same : k = j
  · rw [same, ring_modRing, base]
  · rw [ring_modRing_other same]
  · rw [same, ring_modRing, tail]
  · rw [ring_modRing_other same]

theorem quiet_bump (s : State) : Quiet f k s s.bump := ⟨kept_bump s, OthersKept.refl f s, rfl, rfl, rfl⟩

theorem quiet_gatherState (s : State) (g r o : Nat) (tag : BitVec 32) : Quiet f k s (s.gatherState g r o tag) := by
  have fns := gatherState_fn s g r o tag
  have mem : (s.gatherState g r o tag).mem = s.mem := by
    obtain ⟨u, j, rfl | ⟨x, rfl⟩, eq⟩ := gatherState_eq s g r o tag
    · rw [eq]
    · rw [eq]
      exact jrnlSignal_mem _
  have ring : (s.gatherState g r o tag).ring f k = s.ring f k := by rw [State.ring, fns, State.ring]
  exact ⟨kept_gatherState s g r o tag, fun j _ => fns j, by rw [mem], by rw [ring], by rw [ring]⟩

theorem quiet_dropOp (s : State) (id : Nat) (good : Bool) : Quiet f k s (s.dropOp f id good) := quiet_modFn rfl

theorem quiet_tallyAdd (s : State) (i v : Nat) : Quiet f k s (s.tallyAdd f i v) := by
  unfold State.tallyAdd State.tallyPut State.fire
  split
  · exact Quiet.refl f k s
  · split
    · exact Quiet.refl f k s
    · split
      · exact Quiet.refl f k s
      · exact (quiet_modFn rfl).trans (quiet_modFn rfl)

theorem quiet_ltCount (s : State) (o : Op) (st : Status) : Quiet f k s (s.ltCount f o st) := by
  unfold State.ltCount
  split
  · split
    · exact quiet_tallyAdd s _ 1
    · exact Quiet.refl f k s
  · exact Quiet.refl f k s

theorem quiet_opGone (s : State) (id : Nat) (o : Op) (st : Status) : Quiet f k s (s.opGone f id o st) := by
  unfold State.opGone
  dsimp only
  split
  · exact quiet_dropOp s id _
  · exact (quiet_dropOp s id _).trans (quiet_modRing _ (fun _ => rfl) fun _ => rfl)

theorem framed_ended {id n d : Nat} {o : Op} {st : Status} (good : s.mem.wf = true) (ring : o.ring = k) : Framed f k s (s.ended f id o st n d) := by
  have before : Quiet f k s ((s.ltCount f o st).opGone f id o st) := (quiet_ltCount s o st).trans (quiet_opGone _ id o st)
  rw [ended_eq, ring]
  exact Framed.after before (framed_complete _ (before.good good))

/-- An operation of number id, if there is one, is of ring pair k. -/
def OpOn (f id k : Nat) (s : State) : Prop := ∀ o, s.op? f id = some o → o.ring = k

theorem opOn_of_ops {id : Nat} (h : OpOn f id k s) (ops : (t.fn f).ops = (s.fn f).ops) : OpOn f id k t := by
  intro o found
  rw [State.op?, ops] at found
  exact h o found

/-- Ending an operation of ring pair k keeps the frame. -/
theorem framed_endOp {id : Nat} (st : Status) (n d : Nat) (good : s.mem.wf = true) (on : OpOn f id k s) : Framed f k s (s.endOp f id st n d) := by
  rcases found : s.op? f id with _ | o
  · rw [State.endOp, found]
    exact (Quiet.refl f k s).framed
  · by_cases gen : o.gen = (s.fn f).gen
    · have ring := on o found
      rw [endOp_eq st n d found gen]
      split
      · split
        · exact Framed.after (quiet_bump s) (framed_ended good ring)
        · have gathered := quiet_gatherState (f := f) (k := k) s f o.ring o.opcode o.tag
          exact Framed.after gathered (framed_ended (gathered.good good) ring)
      · exact framed_ended good ring
    · rw [State.endOp, found]
      dsimp only
      rw [if_pos gen]
      exact (quiet_dropOp s id true).framed

theorem framed_endBusy {id : Nat} (good : s.mem.wf = true) (on : OpOn f id k s) : Framed f k s (s.endBusy f id) := by
  obtain ⟨kept, others, bytes⟩ := framed_endOp .busy 0 s.hint good on
  exact ⟨kept.trans (kept_bump _), others, bytes⟩

theorem framed_checked {id : Nat} {l : List Status} {go : State → State} (good : s.mem.wf = true) (on : OpOn f id k s)
    (goes : Framed f k s (go s)) : Framed f k s (s.checked f id l go) := by
  unfold State.checked
  split
  · exact framed_endBusy good on
  · exact framed_endOp _ 0 0 good on
  · exact goes

/-- An update of the function that leaves its ring pairs and operations, and then the operation's end. -/
theorem framed_modFn_endOp {id : Nat} {g : FnState → FnState} (st : Status) (n d : Nat) (good : s.mem.wf = true) (on : OpOn f id k s)
    (rings : (g (s.fn f)).rings = (s.fn f).rings) (ops : (g (s.fn f)).ops = (s.fn f).ops) :
    Framed f k s ((s.modFn f g).endOp f id st n d) := by
  have quiet : Quiet f k s (s.modFn f g) := quiet_modFn rings
  have same : ((s.modFn f g).fn f).ops = (s.fn f).ops := by rw [fn_modFn, ops]
  exact Framed.after quiet (framed_endOp st n d (quiet.good good) (opOn_of_ops on same))

/-- An update of a ring pair that leaves its completion ring, and then the operation's end. -/
theorem framed_modRing_endOp {id : Nat} {g : Ring → Ring} (st : Status) (n d : Nat) (good : s.mem.wf = true) (on : OpOn f id k s) (j : Nat)
    (base : ∀ r, (g r).cqBase = r.cqBase) (tail : ∀ r, (g r).cqTail = r.cqTail) :
    Framed f k s ((s.modRing f j g).endOp f id st n d) := by
  have quiet : Quiet f k s (s.modRing f j g) := quiet_modRing j base tail
  have same : ((s.modRing f j g).fn f).ops = (s.fn f).ops := by rw [State.modRing, fn_modFn]
  exact Framed.after quiet (framed_endOp st n d (quiet.good good) (opOn_of_ops on same))

end

/-! ### Starting an entry -/

theorem quiet_taken (s : State) (e : Entry) : Quiet e.fn.idx e.ring s (s.taken e) := quiet_modRing _ (fun _ => rfl) fun _ => rfl

theorem quiet_begun (s : State) (e : Entry) (op : Nat) (c : Instr) : Quiet e.fn.idx e.ring s (s.begun e op c) :=
  (quiet_taken s e).trans (quiet_modFn rfl)

/-- An entry starts in the frame of its ring pair where its effect, from any started state, stays in it. -/
theorem framed_startEntry {s : State} {e : Entry} {op : Nat} {lens : Nat → Bool} {c : Instr} {eff : Nat → State → State} {raw norm : Bool}
    (good : s.mem.wf = true) (fresh : s.op? e.fn.idx (s.opId e) = none)
    (effect : ∀ u : State, u.mem.wf = true → OpOn e.fn.idx (s.opId e) e.ring u → Framed e.fn.idx e.ring u (eff (s.opId e) u)) :
    Framed e.fn.idx e.ring s (s.startEntry e op lens c eff raw norm) := by
  unfold State.startEntry
  dsimp only
  split
  · split
    · exact Framed.after (quiet_taken s e) (framed_complete _ good)
    · have on : OpOn e.fn.idx (s.opId e) e.ring (s.begun e op c) := by
        intro o found
        rw [begun_op fresh] at found
        exact Option.some.inj found ▸ rfl
      exact Framed.after (quiet_begun s e op c) (effect _ good on)
  · exact (Quiet.refl _ _ s).framed

/-- Every next state of an outcome is in the frame. -/
def FramedOut (f k : Nat) (s : State) (o : Host.Outcome State Fault Refusal) : Prop := ∀ t, o = .next t → Framed f k s t

theorem framedOut_next {f k : Nat} {s t : State} (h : Framed f k s t) : FramedOut f k s (.next t) := fun _ eq => Host.Outcome.next.inj eq ▸ h

/-! ### The nine commands -/

section
variable {s : State} {e : Entry} (good : s.mem.wf = true) (fresh : s.op? e.fn.idx (s.opId e) = none)
include good fresh

theorem nop_framed : FramedOut e.fn.idx e.ring s (exec (.nop e) s) := by
  rw [exec_nop, execNop]
  exact framedOut_next (framed_startEntry (e := { e with rsv := false }) good fresh fun _ good on => framed_endOp .ok 0 0 good on)

theorem ringInval_framed (ring first count : Nat) : FramedOut e.fn.idx e.ring s (exec (.ringInval e ring first count) s) := by
  rw [exec_ringInval, execRingInval]
  refine framedOut_next (framed_startEntry good fresh fun _ good on => ?_)
  rw [effRingInval]
  exact framed_checked good on (framed_modRing_endOp .ok 0 _ good on ring (fun _ => rfl) fun _ => rfl)

theorem ringPause_framed (ring : Nat) : FramedOut e.fn.idx e.ring s (exec (.ringPause e ring) s) := by
  rw [exec_ringPause, execRingPause]
  refine framedOut_next (framed_startEntry good fresh fun _ good on => ?_)
  rw [effRingPause]
  exact framed_checked good on (framed_modRing_endOp .ok 0 _ good on ring (fun _ => rfl) fun _ => rfl)

theorem ringResume_framed (ring : Nat) : FramedOut e.fn.idx e.ring s (exec (.ringResume e ring) s) := by
  rw [exec_ringResume, execRingResume]
  refine framedOut_next (framed_startEntry good fresh fun _ good on => ?_)
  rw [effRingResume]
  exact framed_checked good on (framed_modRing_endOp .ok 0 _ good on ring (fun _ => rfl) fun _ => rfl)

theorem dbgCfg_framed (group vector : Nat) : FramedOut e.fn.idx e.ring s (exec (.dbgCfg e group vector) s) := by
  rw [exec_dbgCfg, execDbgCfg]
  refine framedOut_next (framed_startEntry good fresh fun _ good on => ?_)
  rw [effDbgCfg]
  exact framed_checked good on (framed_modFn_endOp .ok 0 _ good on rfl rfl)

theorem tallyAlloc_framed (value : Word) : FramedOut e.fn.idx e.ring s (exec (.tallyAlloc e value) s) := by
  rw [exec_tallyAlloc, execTallyAlloc]
  refine framedOut_next (framed_startEntry good fresh fun _ good on => ?_)
  rw [effTallyAlloc]
  exact framed_checked good on (framed_modFn_endOp .ok 0 _ good on rfl rfl)

theorem tallyFree_framed (tally : Nat) : FramedOut e.fn.idx e.ring s (exec (.tallyFree e tally) s) := by
  rw [exec_tallyFree, execTallyFree]
  refine framedOut_next (framed_startEntry good fresh fun _ good on => ?_)
  rw [effTallyFree]
  exact framed_checked good on (framed_modFn_endOp .ok 0 _ good on rfl rfl)

theorem mlistCreate_framed (list uq : Nat) : FramedOut e.fn.idx e.ring s (exec (.mlistCreate e list uq) s) := by
  rw [exec_mlistCreate, execMlistCreate]
  refine framedOut_next (framed_startEntry good fresh fun _ good on => ?_)
  rw [effMlistCreate]
  exact framed_checked good on (framed_modFn_endOp .ok 0 _ good on rfl rfl)

theorem winOpen_framed (b : WinOpenBody) : FramedOut e.fn.idx e.ring s (exec (.winOpen e b) s) := by
  rw [exec_winOpen, execWinOpen]
  refine framedOut_next (framed_startEntry good fresh fun u good on => ?_)
  rw [effWinOpen]
  refine framed_checked good on ?_
  split
  · exact framed_endOp .range 0 0 good on
  · exact framed_modFn_endOp .ok 0 _ good on rfl rfl

end

/-- Settles O60: each of the nine commands keeps the frame of its entry's ring pair. -/
theorem ringCommandFrame : Obligations.RingCommandFrame := by
  intro c e s t plain good fresh run
  have framed : FramedOut e.fn.idx e.ring s (exec c s) := by
    unfold plainCommand at plain
    split at plain
    all_goals cases plain
    · exact nop_framed good fresh
    · exact ringInval_framed good fresh _ _ _
    · exact ringPause_framed good fresh _
    · exact ringResume_framed good fresh _
    · exact dbgCfg_framed good fresh _ _
    · exact tallyAlloc_framed good fresh _
    · exact tallyFree_framed good fresh _
    · exact winOpen_framed good fresh _
    · exact mlistCreate_framed good fresh _ _
  obtain ⟨kept, others, bytes⟩ := framed t run
  exact ⟨kept, others, bytes⟩

end Sys2Proof.Machine
end

section
/-!
One-sided operations (R80, R84, R90, R92, R111): each command of an entry that is ready and whose checks pass either parks at the page of its LADDR
that is missing, or queues its message.
-/

namespace Sys2Proof.Machine

/-! ### Host ranges of a command (R343) -/

/-- The first page that a command's host ranges miss, and whether it is to be written. -/
def State.firstMiss (s : State) (f : Nat) (l : List (Nat × Nat × Bool)) : Option (Nat × Bool) :=
  l.findSome? fun g => (s.missing f g.1 g.2.1 g.2.2).map fun p => (p, g.2.2)

section
variable {s : State} {f id : Nat} {l : List (Nat × Nat × Bool)} {k : State → State}

theorem withHost_parks {p : Nat × Bool} (miss : s.firstMiss f l = some p) : s.withHost f id l k = s.parkOp f id p.1 p.2 := by
  have first : l.findSome? (fun (a, n, w) => (s.missing f a n w).map fun p => (p, w)) = some p := miss
  rw [State.withHost, first]

theorem withHost_goes (there : s.firstMiss f l = none) : s.withHost f id l k = k s := by
  have nothing : l.findSome? (fun (a, n, w) => (s.missing f a n w).map fun p => (p, w)) = none := there
  rw [State.withHost, nothing]

end

/-! ### Initiating operations (R81, R84) -/

/-- An initiating operation whose checks have passed: it parks at its LADDR's missing page, or sends its message. -/
def State.initiated (s : State) (f id : Nat) (b : OneSided) (wr : Bool) (ext : Ext) (len : Nat) (src : Src) : State :=
  match s.firstMiss f (locGranules b wr) with
  | some p => s.parkOp f id p.1 p.2
  | none => s.initiate f id b ext len src

theorem checked_initiated {s : State} {f id len : Nat} {b : OneSided} {wr : Bool} {ext : Ext} {src : Src} {l : List Status} (checks : l = []) :
    (s.checked f id l fun s => s.locReady f id b wr fun s => s.initiate f id b ext len src) = s.initiated f id b wr ext len src := by
  rw [checked_ok checks, State.locReady, State.initiated]
  cases miss : s.firstMiss f (locGranules b wr) with
  | some p => exact withHost_parks miss
  | none => exact withHost_goes miss

section
variable {s : State} {e : Entry} {b : OneSided} (ready : Ready s e len1 false)
include ready

/-- R84: a WRITE carries its bytes. -/
theorem write_ready (checks : (s.begun e 0x040 (.write e b)).opChecks e.fn.idx b false (.data b.wref b.roff b.len 0 false)
      ((s.begun e 0x040 (.write e b)).firstPlen e.fn.idx b.conn b.len) = []) :
    exec (.write e b) s = .next ((s.begun e 0x040 (.write e b)).initiated e.fn.idx (s.opId e) b false (.data b.wref b.roff b.len 0 false) b.len
      (.mem b.lspace b.laddr)) := by
  rw [exec_write, execWrite, startEntry_ready ready rfl, effWrite, checked_initiated checks]

/-- R90: so does a WRITE_NOTIFY. -/
theorem writeNotify_ready {imm : BitVec 32} (checks : (s.begun e 0x042 (.writeNotify e b imm)).opChecks e.fn.idx b false
      (.data b.wref b.roff b.len imm true) ((s.begun e 0x042 (.writeNotify e b imm)).firstPlen e.fn.idx b.conn b.len) = []) :
    exec (.writeNotify e b imm) s = .next ((s.begun e 0x042 (.writeNotify e b imm)).initiated e.fn.idx (s.opId e) b false
      (.data b.wref b.roff b.len imm true) b.len (.mem b.lspace b.laddr)) := by
  rw [exec_writeNotify, execWriteNotify, startEntry_ready ready rfl, effWrite, checked_initiated checks]

/-- R84: a READ carries no bytes. -/
theorem read_ready (checks : (s.begun e 0x041 (.read e b)).opChecks e.fn.idx b false (.readReq b.wref b.roff b.len) 0 = []) :
    exec (.read e b) s = .next ((s.begun e 0x041 (.read e b)).initiated e.fn.idx (s.opId e) b true (.readReq b.wref b.roff b.len) 0 .none) := by
  rw [exec_read, execRead, startEntry_ready ready rfl, effRead, checked_initiated checks]

/-- R92: nor does an atomic, whichever of the six it is. -/
theorem atomic_ready {op : Nat} {c : Instr} (arm : exec c s = .next (s.startEntry e op len1 c (effAtomic op b e.fn.idx)))
    (checks : (s.begun e op c).opChecks e.fn.idx b true (.atomicReq b.wref b.roff op b.opnd1 b.opnd2) 0 = []) :
    exec c s = .next ((s.begun e op c).initiated e.fn.idx (s.opId e) b true (.atomicReq b.wref b.roff op b.opnd1 b.opnd2) 0 .none) := by
  rw [arm, startEntry_ready ready rfl, effAtomic, checked_initiated checks]

/-- R103, R111: a TSEND above 8,192 bytes sends its request alone, any other its bytes. -/
theorem tsend_ready (list : b.wref < 4096) :
    let t := s.begun e 0x050 (.tsend e b)
    let rdv := decide (8192 < b.len)
    let ext := Ext.tsend (b.wref % 4096) rdv (BitVec.ofNat 64 b.roff) b.len 0
    t.opChecks e.fn.idx b false ext (if rdv then 0 else t.firstPlen e.fn.idx b.conn b.len) = [] →
    (rdv = true → t.gateChecks e.fn.idx b.conn (.rdvResp 0 0) (t.firstPlen e.fn.idx b.conn b.len) = []) →
    exec (.tsend e b) s = .next (t.initiated e.fn.idx (s.opId e) b false ext (if rdv then 0 else b.len)
      (if rdv then .none else .mem b.lspace b.laddr)) := by
  intro t rdv ext checks gates
  have data : (if rdv then t.gateChecks e.fn.idx b.conn (.rdvResp 0 0) (t.firstPlen e.fn.idx b.conn b.len) else []) = [] := by
    split
    case isTrue long => exact gates long
    case isFalse => rfl
  rw [exec_tsend, execTsend, startEntry_ready ready rfl, effTsend, checked_initiated]
  rw [checks, ck_false _ _ (by omega), data]
  rfl

end

/-- Settles O6: each command initiates its operation, which parks or sends. -/
theorem oneSidedCommands : Obligations.OneSidedCommands := by
  intro e b s ready
  exact ⟨write_ready ready, fun _ => writeNotify_ready ready, read_ready ready,
    atomic_ready ready (exec_atFadd e b s), atomic_ready ready (exec_atFand e b s), atomic_ready ready (exec_atFor e b s),
    atomic_ready ready (exec_atFxor e b s), atomic_ready ready (exec_atSwap e b s), atomic_ready ready (exec_atCas e b s), tsend_ready ready⟩

end Sys2Proof.Machine
end

section
/-!
Tallies, windows and matching lists (R95-R98, R102-R117): one lemma a command of an entry that is ready and whose operands pass its checks.
-/

namespace Sys2Proof.Machine

/-! ### What a started entry leaves of windows, lists and quotas -/

@[simp] theorem begun_win (s : State) (e : Entry) (op : Nat) (c : Instr) (f i : Nat) : (s.begun e op c).win f i = s.win f i := by simp [State.win]

@[simp] theorem begun_mlist? (s : State) (e : Entry) (op : Nat) (c : Instr) (f l : Nat) : (s.begun e op c).mlist? f l = s.mlist? f l := by
  simp [State.mlist?]

@[simp] theorem begun_precvUsed (s : State) (e : Entry) (op : Nat) (c : Instr) (f : Nat) : (s.begun e op c).precvUsed f = s.precvUsed f := by
  simp [State.precvUsed]

@[simp] theorem begun_sliceTaken (s : State) (e : Entry) (op : Nat) (c : Instr) (f : Nat) : (s.begun e op c).sliceTaken f = s.sliceTaken f := by
  simp [State.sliceTaken, State.eagerUsed]

@[simp] theorem begun_sliceLen (s : State) (e : Entry) (op : Nat) (c : Instr) (f : Nat) : (s.begun e op c).sliceLen f = s.sliceLen f := rfl
@[simp] theorem begun_qPrecv (s : State) (e : Entry) (op : Nat) (c : Instr) (f : Nat) : (s.begun e op c).qPrecv f = s.qPrecv f := rfl
@[simp] theorem begun_qTallies (s : State) (e : Entry) (op : Nat) (c : Instr) (f : Nat) : (s.begun e op c).qTallies f = s.qTallies f := rfl

@[simp] theorem begun_tallyOk (s : State) (e : Entry) (op : Nat) (c : Instr) (f i : Nat) : (s.begun e op c).tallyOk f i = s.tallyOk f i := by
  simp [State.tallyOk]

@[simp] theorem begun_tallyBusy (s : State) (e : Entry) (op : Nat) (c : Instr) (f i : Nat) : (s.begun e op c).tallyBusy f i = s.tallyBusy f i := by
  simp [State.tallyBusy]

/-! ### Windows (R95-R98) -/

section
variable {s : State} {e : Entry} (ready : Ready s e len1 false)
include ready

/-- R95, R96: WIN_OPEN opens the picked index under the next INCARN. -/
theorem winOpen_ready {b : WinOpenBody} {i : Nat} :
    let t := s.begun e 0x060 (.winOpen e b)
    t.winChecks e.fn.idx b = [] → t.pickWindow e.fn.idx = some i →
    let inc := ((t.win e.fn.idx i).incarn + 1) % 2 ^ 14
    exec (.winOpen e b) s = .next ((t.modWin e.fn.idx i fun _ =>
      { state := .open_, incarn := inc, base := b.base, length := b.length, rd := b.rd, wr := b.wr, atom := b.atom, notify := b.notify,
        slice := b.space, nring := b.nring, scope := if b.oneConn then some b.scope else none, btally := if b.btEn then some b.btally else none }).endOp
      e.fn.idx (s.opId e) .ok 0 (winRef i inc)) := by
  intro t checks picked
  rw [exec_winOpen, execWinOpen, startEntry_ready ready rfl, effWinOpen, checked_ok checks, picked]

/-- R98: WIN_REVOKE of an OPEN window that its WREF names. -/
theorem winRevoke_ready {wref : Nat} (opened : (s.win e.fn.idx (wref % 2 ^ 18)).state = .open_)
    (incarn : (s.win e.fn.idx (wref % 2 ^ 18)).incarn = wref / 2 ^ 18) :
    let t := s.begun e 0x061 (.winRevoke e wref)
    exec (.winRevoke e wref) s = .next (if (s.win e.fn.idx (wref % 2 ^ 18)).places = 0
      then (t.winClose e.fn.idx (wref % 2 ^ 18)).endOp e.fn.idx (s.opId e) .ok 0 0
      else t.modWin e.fn.idx (wref % 2 ^ 18) fun w => { w with state := .closing, refused := 0, revoke := some (s.opId e) }) := by
  intro t
  rw [exec_winRevoke, execWinRevoke, startEntry_ready ready rfl, effWinRevoke, begun_win, checked_ok]
  exact ck_false _ _ (not_or.mpr ⟨not_not.mpr opened, not_not.mpr incarn⟩)

/-! ### Matching lists (R102, R106, R112, R113) -/

theorem mlistCreate_ready {list uq : Nat} (named : list < 4096) (pos : 0 < uq) (max : uq ≤ 16384)
    (share : s.precvUsed e.fn.idx + uq ≤ s.qPrecv e.fn.idx) (eager : s.sliceTaken e.fn.idx + 8192 * uq ≤ s.sliceLen e.fn.idx)
    (new : s.mlist? e.fn.idx list = none) :
    exec (.mlistCreate e list uq) s = .next
      (((s.begun e 0x053 (.mlistCreate e list uq)).modFn e.fn.idx fun x => { x with mlists := aset x.mlists list { uq := uq } }).endOp
        e.fn.idx (s.opId e) .ok 0 0) := by
  rw [exec_mlistCreate, execMlistCreate, startEntry_ready ready rfl, effMlistCreate, checked_ok]
  rw [begun_precvUsed, begun_qPrecv, begun_sliceTaken, begun_sliceLen, begun_mlist?, new, ck_false _ _ (by omega), ck_false _ _ (by simp)]
  rfl

theorem mlistDestroy_ready {list : Nat} (named : list < 4096) (there : (s.mlist? e.fn.idx list).isSome) :
    exec (.mlistDestroy e list) s = .next
      (((s.begun e 0x054 (.mlistDestroy e list)).mlistEnd e.fn.idx list .flushed).endOp e.fn.idx (s.opId e) .ok 0 0) := by
  rw [exec_mlistDestroy, execMlistDestroy, startEntry_ready ready rfl, effMlistDestroy, checked_ok]
  rw [begun_mlist?, ck_false _ _ (by omega), ck_false _ _ (by rwa [Option.isNone_iff_eq_none, ← Option.not_isSome_iff_eq_none, not_not])]
  rfl

end

/-- The operations of a list's posted TRECVs with a caller tag. -/
def MList.tagged (m : MList) (tag : BitVec 32) : List Nat := m.posted.filterMap fun p => match p.to_ with
  | .op i _ false => if p.ctag = tag then some i else none
  | _ => none

/-- A list without the TRECVs of some operations. -/
def MList.without (m : MList) (ops : List Nat) : MList := { m with posted := m.posted.filter fun p => match p.to_ with
  | .op i _ false => ¬ ops.contains i
  | _ => true }

/-- R112: TRECV_CANCEL takes the list's TRECVs with the tag off the list and ends them; DETAIL is their number. -/
theorem effTrecvCancel_listed {s : State} {f id list : Nat} {tag : BitVec 32} {m : MList} (there : s.mlist? f list = some m) :
    effTrecvCancel list tag f id s =
      ((m.tagged tag).foldl (fun s i => s.endOp f i .flushed 0 0) (s.modMlist f list fun y => y.without (m.tagged tag))).endOp
        f id .ok 0 (m.tagged tag).length := by
  have named : ck ((s.mlist? f list).isNone) .range = [] := ck_false _ _ (by simp [there])
  rw [effTrecvCancel, checked_ok named]
  simp only [there, Option.getD_some]
  rfl

/-- R106: a new receive that no unexpected message of its list matches is appended. -/
theorem postRecv_appends {s : State} {f l id : Nat} {p : Posted} {m : MList} (there : s.mlist? f l = some m) (new : s.boundAt f l id = none)
    (unmatched : ∀ u ∈ m.unexp, p.matches u.conn u.tag = false) :
    s.postRecv f l id p = s.modMlist f l fun m => { m with posted := m.posted ++ [p] } := by
  have nothing : m.unexp.find? (fun u => p.matches u.conn u.tag) = none := List.find?_eq_none.mpr fun u hu => by simp [unmatched u hu]
  rw [State.postRecv, new, there]
  dsimp only
  rw [nothing]

section
variable {s : State} {e : Entry} (ready : Ready s e len1 false)
include ready

/-- R104, R114: TRECV posts its receive where its checks pass and the share has room. -/
theorem trecv_ready {b : TrecvBody} {m : MList} :
    let t := s.begun e 0x051 (.trecv e b)
    let p := recvPosted b (.op (s.opId e) b.info false) e.tag
    t.recvChecks e.fn.idx b = [] → t.mlist? e.fn.idx b.list = some m → t.boundAt e.fn.idx b.list (s.opId e) = none →
    s.precvUsed e.fn.idx < s.qPrecv e.fn.idx → (∀ u ∈ m.unexp, p.matches u.conn u.tag = false) →
    exec (.trecv e b) s = .next (t.modMlist e.fn.idx b.list fun m => { m with posted := m.posted ++ [p] }) := by
  intro t p checks there new room unmatched
  have full : ¬ t.qPrecv e.fn.idx ≤ t.precvUsed e.fn.idx := by
    rw [begun_qPrecv, begun_precvUsed]
    omega
  rw [exec_trecv, execTrecv, startEntry_ready ready rfl, effTrecv, checked_ok]
  · rw [postRecv_appends there new unmatched]
  · rw [new, checks, ck_false _ _ full]
    rfl

end

/-! ### Tallies (R115-R117) -/

section
variable {s : State} {e : Entry} {i : Nat} {x : Tally} {v : Word}

/-- A sound tally that is allocated takes a new count. -/
theorem tallyPut_count {f c : Nat} (allocated : aget (s.fn f).tallies i = some x) (sound : x.bad = false) :
    (s.tallyPut f i c).tallyCount f i = c := by
  simp [State.tallyPut, State.fire, State.tallyCount, allocated, sound]

theorem tallyAdd_eq {f n : Nat} (allocated : aget (s.fn f).tallies i = some x) :
    s.tallyAdd f i n = s.tallyPut f i (min (2 ^ 64 - 1) (x.count + n)) := by
  simp [State.tallyAdd, allocated, satAdd]

/-- An allocated, sound tally passes the checks of every tally command but TALLY_FREE. -/
theorem tallyChecks_begun {op : Nat} {c : Instr} (allocated : aget (s.fn e.fn.idx).tallies i = some x) (sound : x.bad = false) :
    ck (¬ (s.begun e op c).tallyOk e.fn.idx i) .range ++ (s.begun e op c).tallyStruck e.fn.idx i = [] := by
  simp [State.tallyStruck, State.tallyOk, allocated, sound, ck]

/-- R117: what a tally is busy with. -/
theorem tallyBusy_iff {f : Nat} : s.tallyBusy f i = true ↔
    (∃ a ∈ (s.fn f).armed, ∃ n : Nat, a.trig = .tally i n) ∨ ∃ w ∈ (s.fn f).wins, w.2.state ≠ .closed ∧ w.2.btally = some i := by
  rw [State.tallyBusy, Bool.or_eq_true, List.any_eq_true, List.any_eq_true]
  refine or_congr (exists_congr fun a => and_congr_right fun _ => ?_) (exists_congr fun w => and_congr_right fun _ => ?_)
  · cases a.trig <;> simp
  · simp

/-- R116: TALLY_ALLOC gives the lowest free index below the quota its value. -/
theorem tallyAlloc_ready (ready : Ready s e len1 false) :
    let j := firstGap ((s.fn e.fn.idx).tallies.map (·.1)) 0
    j < s.qTallies e.fn.idx → exec (.tallyAlloc e v) s = .next
      (((s.begun e 0x070 (.tallyAlloc e v)).modFn e.fn.idx fun y => { y with tallies := aset y.tallies j { count := v.toNat } }).endOp
        e.fn.idx (s.opId e) .ok 0 j) := by
  intro j quota
  rw [exec_tallyAlloc, execTallyAlloc, startEntry_ready ready rfl, effTallyAlloc, begun_tallies, checked_ok]
  exact ck_false _ _ (Nat.not_le.mpr quota)

/-- R117: an allocated tally goes unless it is busy; one that is busy stays, and the command ends STATE. -/
theorem tallyFree_ready (ready : Ready s e len1 false) (allocated : aget (s.fn e.fn.idx).tallies i = some x) :
    let t := s.begun e 0x071 (.tallyFree e i)
    exec (.tallyFree e i) s = .next (if s.tallyBusy e.fn.idx i then t.endOp e.fn.idx (s.opId e) .state 0 0
      else (t.modFn e.fn.idx fun y => { y with tallies := adel y.tallies i }).endOp e.fn.idx (s.opId e) .ok 0 0) := by
  intro t
  have ok : s.tallyOk e.fn.idx i = true := by rw [State.tallyOk, allocated]; rfl
  rw [exec_tallyFree, execTallyFree, startEntry_ready ready rfl, effTallyFree, begun_tallyOk, begun_tallyBusy, ok]
  cases s.tallyBusy e.fn.idx i <;> rfl

/-- R115, R124: TALLY_SET puts the new count, ends OK with its low half, and what fires follows. -/
theorem tallySet_ready (ready : Ready s e len1 false) (allocated : aget (s.fn e.fn.idx).tallies i = some x) (sound : x.bad = false) :
    let t := (s.begun e 0x073 (.tallySet e i v)).tallyPut e.fn.idx i v.toNat
    t.tallyCount e.fn.idx i = v.toNat ∧
    exec (.tallySet e i v) s = .next (t.endOp e.fn.idx (s.opId e) .ok 0 (v.toNat % 2 ^ 32)).settle := by
  intro t
  have count : t.tallyCount e.fn.idx i = v.toNat := tallyPut_count ((begun_tallies s e _ _ _).symm ▸ allocated) sound
  refine ⟨count, ?_⟩
  rw [exec_tallySet, execTallySet, startEntry_ready ready rfl, effTallySet, checked_ok (tallyChecks_begun allocated sound)]
  dsimp only
  rw [count]

/-- R115: TALLY_ADD puts the sum, saturated at 2^64 − 1. -/
theorem tallyAdd_ready (ready : Ready s e len1 false) (allocated : aget (s.fn e.fn.idx).tallies i = some x) (sound : x.bad = false) :
    let c := min (2 ^ 64 - 1) (x.count + v.toNat)
    let t := (s.begun e 0x072 (.tallyAdd e i v)).tallyPut e.fn.idx i c
    t.tallyCount e.fn.idx i = c ∧ exec (.tallyAdd e i v) s = .next (t.endOp e.fn.idx (s.opId e) .ok 0 (c % 2 ^ 32)).settle := by
  intro c t
  have kept : aget ((s.begun e 0x072 (.tallyAdd e i v)).fn e.fn.idx).tallies i = some x := (begun_tallies s e _ _ _).symm ▸ allocated
  have count : t.tallyCount e.fn.idx i = c := tallyPut_count kept sound
  refine ⟨count, ?_⟩
  rw [exec_tallyAdd, execTallyAdd, startEntry_ready ready rfl, effTallyAdd, checked_ok (tallyChecks_begun allocated sound), tallyAdd_eq kept]
  dsimp only
  rw [count]

/-- R117: TALLY_READ writes the count to host memory. -/
theorem tallyRead_ready {addr : Nat} (ready : Ready s e len1 false) (allocated : aget (s.fn e.fn.idx).tallies i = some x) (sound : x.bad = false)
    (usable : Usable s e.fn.idx [(addr, 8, true)]) :
    exec (.tallyRead e i addr) s = .next
      (((s.begun e 0x074 (.tallyRead e i addr)).hostWrite e.fn.idx addr (leBytes 8 x.count)).endOp e.fn.idx (s.opId e) .ok 8 (x.count % 2 ^ 32)) := by
  have count : (s.begun e 0x074 (.tallyRead e i addr)).tallyCount e.fn.idx i = x.count := by simp [State.tallyCount, allocated]
  have there : Usable (s.begun e 0x074 (.tallyRead e i addr)) e.fn.idx [(addr, (leBytes 8 x.count).length, true)] := by
    rw [leBytes_length]
    exact usable_begun usable
  rw [exec_tallyRead, execTallyRead, startEntry_ready ready rfl, effTallyRead, checked_ok (tallyChecks_begun allocated sound), count,
    writeRecord_ok there, leBytes_length]

end

/-- An operation that ends otherwise than OK, LATE or DEGRADED leaves every tally, whatever its generation (R77, R118). -/
theorem endOp_bad_tallies {s : State} {f id n d : Nat} {st : Status} (bad : st.good = false) :
    ((s.endOp f id st n d).fn f).tallies = (s.fn f).tallies := by
  cases found : s.op? f id with
  | none => rw [State.endOp, found]
  | some o =>
    by_cases gen : o.gen = (s.fn f).gen
    · exact endOp_tallies found gen bad
    · rw [State.endOp, found]
      dsimp only
      rw [if_pos gen, State.dropOp, fn_modFn]

/-- Settles O8: one lemma a command; TALLY_FREE by whether the tally is busy. -/
theorem tallyCommands : Obligations.TallyCommands := by
  intro e i x v s ready
  refine ⟨tallyAlloc_ready ready, fun allocated idle => ?_, fun allocated busy => ⟨?_, ?_⟩, fun allocated sound =>
    ⟨⟨_, rfl, tallySet_ready ready allocated sound⟩, ⟨_, rfl, tallyAdd_ready ready allocated sound⟩,
      fun _ => tallyRead_ready ready allocated sound⟩⟩
  · exact (tallyFree_ready ready allocated).trans (congrArg _ (if_neg (by simp [idle])))
  · exact (tallyFree_ready ready allocated).trans (congrArg _ (if_pos (tallyBusy_iff.mpr busy)))
  · rw [endOp_bad_tallies rfl, begun_tallies]

/-- Settles O7: one lemma a command. -/
theorem windowAndListCommands : Obligations.WindowAndListCommands := by
  intro e s ready
  refine ⟨fun _ _ => winOpen_ready ready, fun _ => winRevoke_ready ready, fun _ _ => mlistCreate_ready ready, fun _ => mlistDestroy_ready ready,
    fun _ _ => trecv_ready ready, fun list tag m there => ?_⟩
  rw [exec_trecvCancel, execTrecvCancel, startEntry_ready ready rfl, effTrecvCancel_listed ((begun_mlist? s e _ _ _ _).trans there)]
  rfl

end Sys2Proof.Machine
end

section
/-!
Armed requests (R119-R126): what registering a request does by its trigger, what ARM_CANCEL ends, and what device time fires.
-/

namespace Sys2Proof.Machine

/-! ### ARM (R119-R122) -/

/-- A request joins the armed list of its function, and its operation carries the embedded command and waits. -/
def State.armedWith (s : State) (f id : Nat) (a : Armed) : State :=
  (s.modFn f fun x => { x with armed := x.armed ++ [a], armSeq := x.armSeq + 1 }).modOp f id fun o => { o with cmd := a.emb, waiting := true }

/-- What meets a request's trigger as it is armed: a count or a time that is reached fires it, a message trigger posts its receive. -/
def State.trigMet (s : State) (e : Entry) (id : Nat) (a : Armed) : State :=
  match a.trig with
  | .tally j th => if th ≤ s.tallyCount e.fn.idx j then s.fire e.fn.idx [a] else s
  | .msg r => s.postRecv e.fn.idx r.list id (recvPosted r (.op id 0 true) e.tag)
  | .time t => if t ≤ s.clk.time then (s.modOp e.fn.idx id fun o => { o with late := true }).fire e.fn.idx [a] else s
  | .reserved _ => s

/-- An ARM whose page is there arms its request under the next arming number and meets the trigger. -/
def State.armNow (s : State) (e : Entry) (id : Nat) (trig : Trigger) (i : Instr) (opcode : Nat) : State :=
  let a : Armed := { op := id, trig := trig, emb := i, opcode := opcode, seq := (s.fn e.fn.idx).armSeq }
  (s.armedWith e.fn.idx id a).trigMet e id a

/-- What ARM does once it has started: its checks, the page of the embedded LADDR, then its request. -/
theorem effArm_checked {s : State} {e : Entry} {trig : Trigger} {emb : Embed} {i : Instr} {id : Nat} (spells : embInstr emb e = some i)
    (checks : embHeader e emb ++ s.embChecks e.fn.idx i ++ s.trigChecks e.fn.idx trig = []) :
    effArm e trig emb e.fn.idx id s = s.withHost e.fn.idx id (embGranules i) fun s => s.armNow e id trig i emb.opcode := by
  rw [effArm, spells]
  exact (checked_ok checks).trans (congrArg (s.withHost e.fn.idx id (embGranules i)) (funext fun t => by cases trig <;> rfl))

section
variable {s : State} {e : Entry} {trig : Trigger} {emb : Embed} {i : Instr} (ready : Ready s e (fun n => 2 ≤ n ∧ n ≤ 16) false)
  (spells : embInstr emb e = some i)
  (checks : embHeader e emb ++ (s.begun e 0x080 (.arm e trig emb)).embChecks e.fn.idx i ++
    (s.begun e 0x080 (.arm e trig emb)).trigChecks e.fn.idx trig = [])
include ready spells checks

/-- R81, R121: an embedded LADDR whose page is missing parks the ARM. -/
theorem arm_parks {p : Nat × Bool} (miss : (s.begun e 0x080 (.arm e trig emb)).firstMiss e.fn.idx (embGranules i) = some p) :
    exec (.arm e trig emb) s = .next ((s.begun e 0x080 (.arm e trig emb)).parkOp e.fn.idx (s.opId e) p.1 p.2).settle := by
  rw [exec_arm, execArm, startEntry_ready ready rfl, effArm_checked spells checks, withHost_parks miss]

/-- R121, R122: otherwise the request is armed, and meets its trigger. -/
theorem arm_next {v : State} (there : (s.begun e 0x080 (.arm e trig emb)).firstMiss e.fn.idx (embGranules i) = none) :
    let a : Armed := { op := s.opId e, trig := trig, emb := i, opcode := emb.opcode, seq := (s.fn e.fn.idx).armSeq }
    ((s.begun e 0x080 (.arm e trig emb)).armedWith e.fn.idx (s.opId e) a).trigMet e (s.opId e) a = v →
    exec (.arm e trig emb) s = .next v.settle := by
  intro a met
  rw [exec_arm, execArm, startEntry_ready ready rfl, effArm_checked spells checks, withHost_goes there, State.armNow, begun_armSeq, met]

end

/-! ### ARM_CANCEL (R126) -/

theorem armCancel_ready {s : State} {e : Entry} {tag : BitVec 32} (ready : Ready s e len1 false) :
    exec (.armCancel e tag) s = .next (effArmCancel tag e.fn.idx (s.opId e) (s.begun e 0x081 (.armCancel e tag))).settle := by
  rw [exec_armCancel, execArmCancel, startEntry_ready ready rfl]

/-! ### Device time (R122) -/

/-- The one armed request of a function, once its TIME has come, is due. -/
theorem dueArmed_single {x : FnState} {a : Armed} {w time : Nat} (only : x.armed = [a]) (trig : a.trig = .time w) (due : w ≤ time) :
    dueArmed x time = [a] := by
  simp [dueArmed, only, trig, due]

theorem armedTimeFire_single {fn : Fn} {ring now : Nat} {tag : BitVec 32} {s : State} {a : Armed} {o : Op} {w : Nat}
    (only : (s.fn fn.idx).armed = [a]) (trig : a.trig = .time w) (due : w ≤ (s.tick now).clk.time) (found : s.op? fn.idx a.op = some o)
    (onRing : o.ring = ring) (tagged : o.tag = tag) :
    exec (.armedTimeFire fn ring tag now) s = .next ((s.tick now).fire fn.idx [a]).settle := by
  have op : (s.tick now).op? fn.idx a.op = some o := found
  rw [exec_armedTimeFire, execArmedTimeFire, dueArmed_single (tick_fn s now fn.idx ▸ only) trig due, List.filter_singleton, op]
  simp [onRing, tagged]

/-- Settles O9: ARM by its trigger, ARM_CANCEL by what it does once it has started, and the one request whose TIME has come. -/
theorem armedRequests : Obligations.ArmedRequests := by
  refine ⟨fun e trig emb i s ready spells => ?_, fun e tag s ready => armCancel_ready ready, fun fn ring now tag s a o w => armedTimeFire_single⟩
  intro f id t a u miss checks
  refine ⟨fun p => arm_parks ready spells checks, fun there => ?_⟩
  refine ⟨fun j th on below => ?_, fun j th on met => ?_, fun r on => ?_, fun w on later => ?_, fun w on come => ?_⟩
  all_goals
    subst on
    refine arm_next ready spells checks there ?_
  · exact if_neg (Nat.not_le.mpr below)
  · exact if_pos met
  · rfl
  · exact if_neg (Nat.not_le.mpr later)
  · exact if_pos come

end Sys2Proof.Machine
end

section
/-!
Sequenced packets (R86-R94, R145-R155, R345): a new packet inside the receive window is processed by its kind and, unless its page is missing,
marked received.
-/

namespace Sys2Proof.Machine

/-! ### The receive window (R128, R145, R146) -/

/-- A packet that is heard, of its PLEN's length, inside the window and new, is processed at its extended PSN; it is marked received where its
processing says so. -/
theorem rxSeq_new {s v : State} {rx : Rx} {n : Nat} {body : Nat → Nat → State → Bool × State} (size : rx.plen = n)
    (heard : s.hear rx true = (true, v)) :
    let f := 4 + rx.part.val
    let t := v.modConn f rx.dconn fun c => { c with rx := { c.rx with activeAt := some v.now } }
    let r := (t.conn f rx.dconn).rx
    let x := r.base + modSub (2 ^ 32) rx.psn r.base
    modSub (2 ^ 32) rx.psn r.base < 2 ^ 20 → x ∉ r.got →
    s.rxSeq rx n body = if (body f x t).1 then (body f x t).2.rxAccept f rx x (decide (max r.top r.base < x)) else (body f x t).2 := by
  intro f t r x inside new
  rw [State.rxSeq, State.sized, if_pos size, heard]
  dsimp only
  rw [if_pos inside, if_neg fun hit => new (List.contains_iff_mem.mp hit)]
  rcases body f x t with ⟨_ | _, u⟩ <;> rfl

/-! ### Requests and data (R87, R88) -/

section
variable {s : State} {f h x msn wref roff : Nat}

/-- R88: an admitted atomic request whose page is there is received. -/
theorem atomicBody_there {op : Nat} {o1 o2 : Word} :
    let a := s.admitMsg f h x 0 1 msn (.atomicReq wref roff op o1 o2) (s.winStatus f h wref roff 8 false false true false) (some (wref % 2 ^ 18))
    let w := a.win f (wref % 2 ^ 18)
    a.locMiss f w.slice (w.base + roff) 8 true = none → (a.inMsg f h msn).isSome →
    s.atomicBody f h x msn op wref roff o1 o2 = (true, a.modIn f h msn fun y => { y with park := none }) := by
  intro a w there admitted
  obtain ⟨y, found⟩ := Option.isSome_iff_exists.mp admitted
  have nothing : (if y.dead = true then none else a.locMiss f w.slice (w.base + roff) 8 true) = none := by rw [there, ite_self]
  unfold State.atomicBody
  dsimp only
  rw [found]
  dsimp only
  rw [nothing]

/-- Bytes that arrive for a range whose page is there are placed, and counted in their message. -/
theorem placeAt_there {slice : Bool} {addr : Nat} {bs : List Byte} {k : State → State} (carries : bs ≠ [])
    (there : s.locMiss f slice addr bs.length true = none) :
    s.placeAt f h msn slice addr bs k =
      (true, k ((s.locWrite f slice addr bs).modIn f h msn fun y => { y with park := none, placed := y.placed + bs.length, got := y.got + 1 })) := by
  simp only [State.placeAt, if_neg carries, there]

/-- R87: DATA of a live message is placed at its window's base and offset, and the placement ends with the message's last packet. -/
theorem dataBody_placed {moff mlen : Nat} {notify : Bool} {imm : BitVec 32} {bs : List Byte} {y z : InMsg} :
    let i := wref % 2 ^ 18
    let a := s.admitMsg f h x (s.pktIdx f h moff) (s.npk f h mlen) msn (.data wref (roff - moff) mlen imm notify)
      (s.winStatus f h wref (roff - moff) mlen false true false notify) (some i)
    let w := a.win f i
    let b := (a.locWrite f w.slice (w.base + roff) bs).modIn f h msn fun y => { y with park := none, placed := y.placed + bs.length, got := y.got + 1 }
    bs ≠ [] → a.inMsg f h msn = some y → y.dead = false → a.locMiss f w.slice (w.base + roff) bs.length true = none →
    b.inMsg f h msn = some z →
    s.dataBody f h x msn wref roff moff mlen notify imm bs =
      (true, if z.held = true ∧ z.npk ≤ z.got then (b.modIn f h msn fun y => { y with held := false }).placeDone f i else b) := by
  intro i a w b carries found live there counted
  unfold State.dataBody
  dsimp only
  rw [found]
  dsimp only
  rw [if_neg (by simp [live]), placeAt_there carries there, counted]

end

/-- Settles O12: the packet is new, so each kind's body decides. -/
theorem sequencedPackets : Obligations.SequencedPackets := by
  intro rx fn s v heard f h m t r x gap inside new
  have run : ∀ n body, rx.plen = n →
      s.rxSeq rx n body = if (body f x t).1 then (body f x t).2.rxAccept f rx x gap else (body f x t).2 :=
    fun n body size => rxSeq_new size heard inside new
  have taken : ∀ n body u, rx.plen = n → body f x t = (true, u) → s.rxSeq rx n body = u.rxAccept f rx x gap := by
    intro n body u size eq
    rw [run n body size, eq]
    rfl
  refine ⟨fun _ _ _ _ size => ?_, fun _ _ _ _ _ size there admitted => ?_, fun _ _ _ size => ?_,
    fun _ _ _ _ _ _ _ _ _ size carries found live there counted => ?_, fun _ _ _ _ _ _ _ _ size missing => ?_, fun _ _ _ _ _ _ size => ?_,
    fun _ _ _ size => ?_, fun _ _ size => ?_, fun _ _ _ size => ?_, fun _ _ _ size => ?_, fun _ _ size => ?_⟩
  · rw [exec_readReqReceive, execReadReqReceive, taken _ _ _ size rfl]
  · rw [exec_atomicReqReceive, execAtomicReqReceive, taken _ _ _ size (atomicBody_there there admitted)]
  · rw [exec_rdvReqReceive, execRdvReqReceive, taken _ _ _ size rfl]
  · rw [exec_dataReceive, execDataReceive, taken _ _ _ size (dataBody_placed carries found live there counted)]
    exact ⟨fun last => by rw [if_pos last], fun more => by rw [if_neg more]⟩
  · rw [exec_dataReceive, execDataReceive, run _ _ size, missing]
    rfl
  · rw [exec_tsendReceive, execTsendReceive, taken _ _ _ size rfl]
    rfl
  · rw [exec_readRespReceive, execReadRespReceive, run _ _ size]
  · rw [exec_atomicRespReceive, execAtomicRespReceive, run _ _ size]
  · rw [exec_rdvRespReceive, execRdvRespReceive, run _ _ size]
  · rw [exec_nakReceive, execNakReceive, taken _ _ _ size rfl]
  · rw [exec_abandonNoticeReceive, execAbandonNoticeReceive, taken _ _ _ size rfl]

end Sys2Proof.Machine
end

section
/-!
The receive window (R128, R145, R146, R163, R179): what becomes of a sequenced packet by its length, its port's buffer, its context and its PSN.
-/

namespace Sys2Proof.Machine

/-- A packet with a PSN of its own goes through the receive window, whatever its kind does with it there. -/
theorem exec_sequenced {c : Instr} {rx : Rx} {n : Nat} (seq : sequenced c = some (rx, n)) (s : State) :
    ∃ body, exec c s = .next (s.rxSeq rx n body) := by
  unfold sequenced at seq
  split at seq
  all_goals cases seq
  all_goals exact ⟨_, rfl⟩

/-! ### The ingress buffer (R178, R179) -/

section
variable {s t : State} {q cls n : Nat}

theorem ingressTake_full (full : s.ingressRoom q cls = false) :
    s.ingressTake q cls n = (false, s.modPort q fun x => { x with ingDrop := x.ingDrop + 1 }) := by
  rw [State.ingressTake, full]
  rfl

/-- A frame that enters the buffer changes its port and what the schedulers see of it, and nothing else. -/
theorem ingressTake_eq (taken : s.ingressTake q cls n = (true, t)) : ∃ ports sched, t = { s with ports := ports, sched := sched } := by
  unfold State.ingressTake at taken
  dsimp only at taken
  split at taken
  case isFalse => simp at taken
  case isTrue =>
    obtain ⟨-, rfl⟩ := Prod.mk.inj taken
    split
    · exact ⟨_, _, rfl⟩
    · exact ⟨_, _, rfl⟩

end

/-! ### The header (R163) -/

section
variable {s t : State} {rx : Rx} {seq answer : Bool}

theorem hear_full (full : s.ingressRoom rx.port.val rx.cls = false) :
    s.hear rx seq answer = (false, s.modPort rx.port.val fun x => { x with ingDrop := x.ingDrop + 1 }) := by
  rw [State.hear, ingressTake_full full]

/-- A sequenced packet for a FREE context is not processed, but may be answered. -/
theorem hear_free (taken : s.ingressTake rx.port.val rx.cls (rx.plen + 118) = (true, t)) (cls : rx.cls < 7) (sound : t.err.fatal = false)
    (powered : t.powered = true) (thawed : (s.part rx.part.val).state ≠ .frozen) (whole : (s.part rx.part.val).state ≠ .restoring)
    (free : (s.conn (4 + rx.part.val) rx.dconn).state = .free) :
    s.hear rx true = (false, t.answerAbort (4 + rx.part.val) rx) := by
  have works : ¬ (t.err.fatal = true ∨ t.powered = false ∨ (s.part rx.part.val).state = .frozen ∨ (s.part rx.part.val).state = .restoring) := by
    simp [sound, powered, thawed, whole]
  rw [State.hear, taken]
  dsimp only
  rw [if_neg works, if_neg (fun control => by omega), if_pos (.inl free), if_pos rfl, if_neg fun used => used.1 free]

end

/-- R163: the answer to a packet for no live context. -/
def State.abortReply (s : State) (f : Nat) (rx : Rx) (cause : Nat) : Pkt :=
  s.nameless (s.replyPkt f (s.entryAt rx.part.val rx.port.val) rx.path rx.src 0 0 0 0 (.abort cause rx.dconn rx.dinc))

section
variable {s : State} {f : Nat} {rx : Rx}

/-- An answer of the last 100 µs to this DCONN holds the next one back. -/
theorem answerAbort_early {w : Nat} (last : aget (s.fn f).abortAt rx.dconn = some w) (early : s.now < w + 100000) : s.answerAbort f rx = s := by
  have waits : decide (w + 100000 ≤ s.now) = false := decide_eq_false (Nat.not_le.mpr early)
  simp [State.answerAbort, last, waits]

/-- With no such answer, and no quiet time, the ABORT goes out. -/
theorem answerAbort_due (loud : (! isPf f && decide (s.now < (s.part (partOf f)).quietTil)) = false)
    (due : aget (s.fn f).abortAt rx.dconn = none ∨ ∃ w, aget (s.fn f).abortAt rx.dconn = some w ∧ w + 100000 ≤ s.now) :
    s.answerAbort f rx = ((s.modFn f fun x => { x with abortAt := aset x.abortAt rx.dconn s.now }).replyCtl f rx.port.val
      (s.abortReply f rx (if (s.fn f).gen = rx.dgen then 2 else 4))).bump := by
  have cause : (if (s.fn f).gen ≠ rx.dgen then 4 else 2) = if (s.fn f).gen = rx.dgen then 2 else 4 := ite_not ..
  unfold State.answerAbort State.abortReply
  rcases due with never | ⟨w, last, due⟩
  · simp only [never, loud, cause]
    rfl
  · simp only [last, decide_eq_true due, loud, cause]
    rfl

end

/-! ### Length and PSN (R128, R145, R146) -/

section
variable {s v : State} {rx : Rx} {n : Nat} {body : Nat → Nat → State → Bool × State}

/-- R128: a payload of another length than PLEN tells. -/
theorem rxSeq_missized (size : rx.plen ≠ n) : s.rxSeq rx n body = s.dropFrame rx.port.val rx.bp := if_neg size

/-- What the header checks do not let through goes no further. -/
theorem rxSeq_unheard (size : rx.plen = n) (unheard : s.hear rx true = (false, v)) : s.rxSeq rx n body = v := by
  rw [State.rxSeq, State.sized, if_pos size, unheard]

/-- The state in which a packet that is heard meets the receive window: its connection has been active. -/
abbrev State.activeNow (s : State) (rx : Rx) : State :=
  s.modConn (4 + rx.part.val) rx.dconn fun c => { c with rx := { c.rx with activeAt := some s.now } }

section
variable (size : rx.plen = n) (heard : s.hear rx true = (true, v))
include size heard

theorem rxSeq_duplicate :
    let r := ((v.activeNow rx).conn (4 + rx.part.val) rx.dconn).rx
    modSub (2 ^ 32) rx.psn r.base < 2 ^ 20 → r.base + modSub (2 ^ 32) rx.psn r.base ∈ r.got →
    s.rxSeq rx n body = (v.activeNow rx).sendAck (4 + rx.part.val) rx.dconn rx.path rx.tstamp := by
  intro r inside got
  rw [State.rxSeq, State.sized, if_pos size, heard]
  dsimp only
  rw [if_pos inside, if_pos (List.contains_iff_mem.mpr got)]

theorem rxSeq_outside :
    let r := ((v.activeNow rx).conn (4 + rx.part.val) rx.dconn).rx
    let u := modSub (2 ^ 32) r.base rx.psn
    2 ^ 20 ≤ modSub (2 ^ 32) rx.psn r.base →
    s.rxSeq rx n body =
      if 1 ≤ u ∧ u ≤ 2 ^ 20 then (v.activeNow rx).sendAck (4 + rx.part.val) rx.dconn rx.path rx.tstamp
      else (v.activeNow rx).modConn (4 + rx.part.val) rx.dconn fun c =>
        { c with rx := { c.rx with outside := satAdd 0xFFFFFFFF c.rx.outside 1 } } := by
  intro r u outside
  rw [State.rxSeq, State.sized, if_pos size, heard]
  dsimp only
  rw [if_neg (Nat.not_lt.mpr outside)]

/-- A new packet inside the window that its kind takes is marked received. -/
theorem rxSeq_taken {u : State} :
    let r := ((v.activeNow rx).conn (4 + rx.part.val) rx.dconn).rx
    let x := r.base + modSub (2 ^ 32) rx.psn r.base
    modSub (2 ^ 32) rx.psn r.base < 2 ^ 20 → x ∉ r.got → body (4 + rx.part.val) x (v.activeNow rx) = (true, u) →
    s.rxSeq rx n body = u.rxAccept (4 + rx.part.val) rx x (decide (max r.top r.base < x)) := by
  intro r x inside new taken
  rw [rxSeq_new size heard inside new, taken]
  rfl

/-- One that its kind does not take is not. -/
theorem rxSeq_dropped {u : State} :
    let r := ((v.activeNow rx).conn (4 + rx.part.val) rx.dconn).rx
    let x := r.base + modSub (2 ^ 32) rx.psn r.base
    modSub (2 ^ 32) rx.psn r.base < 2 ^ 20 → x ∉ r.got → body (4 + rx.part.val) x (v.activeNow rx) = (false, u) →
    s.rxSeq rx n body = u := by
  intro r x inside new dropped
  rw [rxSeq_new size heard inside new, dropped]
  rfl

end
end

/-- Settles O10: by the length, the port's buffer, and where the PSN lies. -/
theorem receiveWindow : Obligations.ReceiveWindow := by
  intro c rx n s seq
  obtain ⟨body, run⟩ := exec_sequenced seq s
  rw [run]
  refine ⟨fun size => ?_, fun size full => ?_, fun v size heard => ?_⟩
  · rw [rxSeq_missized size, State.dropFrame]
  · rw [rxSeq_unheard size (hear_full full)]
  · intro f h t r d u
    refine ⟨fun inside got => ?_, fun outside min max => ?_, fun outside far => ?_⟩
    · exact congrArg Host.Outcome.next (rxSeq_duplicate size heard inside got)
    · exact congrArg Host.Outcome.next ((rxSeq_outside size heard outside).trans (if_pos ⟨min, max⟩))
    · have near : ¬ (1 ≤ u ∧ u ≤ 2 ^ 20) := by omega
      exact congrArg Host.Outcome.next ((rxSeq_outside size heard outside).trans (if_neg near))

/-- Settles O11: the header checks stop the packet, and the answer goes out unless one went out just now. -/
theorem packetForFreeContext : Obligations.PacketForFreeContext := by
  intro c rx n s t seq size cls taken sound powered thawed whole free
  obtain ⟨body, run⟩ := exec_sequenced seq s
  obtain ⟨ports, sched, rfl⟩ := ingressTake_eq taken
  have unheard := hear_free taken cls sound powered thawed whole free
  rw [run, rxSeq_unheard size unheard]
  refine ⟨fun loud due => ?_, fun w last early => ?_⟩
  · exact congrArg Host.Outcome.next (answerAbort_due loud due)
  · exact congrArg Host.Outcome.next (answerAbort_early last early)

end Sys2Proof.Machine
end

section
/-!
Packets of a herd and of key-value blocks (R145, R146, R243, R250, R269, R271): who admits them inside the receive window.
-/

namespace Sys2Proof.Machine

/-- A packet of a herd's connection is admitted where the herd has a place for it. -/
theorem herdBody_placed {s t : State} {f h x msn idx npk i o : Nat} {ext : Ext} {land : Nat → State → Bool × State}
    (member : s.herdOf f h = some (i, o)) (placed : land i s = (true, t)) :
    s.herdBody f h x msn idx npk ext land = (true, t.admitMsg f h x idx npk msn ext .ok none) := by
  simp only [State.herdBody, member, placed]

/-- The first packet of a block that is admitted brings its message, and is placed. -/
theorem kvBody_admitted {s t : State} {f h x msn npk pidx : Nat} {k : KvExt} {bs : List Byte} (first : s.inMsg f h msn = none)
    (admitted : s.kvAdmit f (some h) msn k = (.admitted, t)) :
    s.kvBody f h x msn k npk pidx bs = (true, (t.admitMsg f h x pidx npk msn (.kv k) .ok none).kvPlace f (some h) msn k bs) := by
  simp only [State.kvBody, first, admitted]

/-- Settles O13: the packet is new, so its herd's place, its block's admission or its reserved fields decide. -/
theorem herdAndKvPackets : Obligations.HerdAndKvPackets := by
  intro rx fn s v heard f h m t r x gap inside new
  have taken : ∀ {n body u}, rx.plen = n → body f x t = (true, u) →
      Host.Outcome.next (s.rxSeq rx n body) = (.next (u.rxAccept f rx x gap) : Host.Outcome State Fault Refusal) :=
    fun size eq => congrArg Host.Outcome.next (rxSeq_taken size heard inside new eq)
  have dropped : ∀ {n body u}, rx.plen = n → body f x t = (false, u) →
      Host.Outcome.next (s.rxSeq rx n body) = (.next u : Host.Outcome State Fault Refusal) :=
    fun size eq => congrArg Host.Outcome.next (rxSeq_dropped size heard inside new eq)
  refine ⟨fun i o member => ⟨fun b npk pidx bs w size kind landed => ?_, fun e q o c size room => ?_, fun e q g o k size room => ?_,
      fun k room => ?_, fun k room => ?_⟩,
    fun k npk pidx bs w size plain first admitted => ?_, fun b npk pidx bs size reserved => ?_, fun k npk pidx bs size reserved => ?_⟩
  · rw [exec_bulkCollReceive, execBulkCollReceive]
    refine taken size ?_
    rw [if_neg (by omega), if_neg (by omega), if_neg (by omega)]
    exact herdBody_placed member landed
  · rw [exec_haltReceive, execHaltReceive]
    exact taken size (herdBody_placed member (congrArg (·, t) room))
  · rw [exec_barrierTokenReceive, execBarrierTokenReceive]
    exact taken size (herdBody_placed member (congrArg (·, t) room))
  · rw [exec_tokenProposeReceive, execTokenProposeReceive]
    exact taken rfl (herdBody_placed member (congrArg (·, t) room))
  · rw [exec_tokenCommitReceive, execTokenCommitReceive]
    exact taken rfl (herdBody_placed member (congrArg (·, t) room))
  · rw [exec_bulkKvReceive, execBulkKvReceive]
    refine taken size ?_
    rw [plain]
    exact kvBody_admitted first admitted
  · rw [exec_bulkCollReceive, execBulkCollReceive]
    exact dropped size (if_pos reserved)
  · rw [exec_bulkKvReceive, execBulkKvReceive]
    exact dropped size (if_pos reserved)

end Sys2Proof.Machine
end

section
/-!
Packets outside the sequence and the timers of a connection (R152-R154, R160, R161, R166, R174-R176).
-/

namespace Sys2Proof.Machine

/-! ### Packets outside the sequence -/

section
variable {s t : State} {rx : Rx} {fn : Fn} (size : rx.plen = 0)
include size

theorem ackReceive_heard {x : AckRx} (heard : s.hear rx false = (true, t)) :
    exec (.ackReceive rx fn x) s = .next (t.ackIn (4 + rx.part.val) rx.dconn x.ack x.refused).settle := by
  rw [exec_ackReceive, execAckReceive, State.sized, if_pos size, heard]

theorem creditGrantReceive_heard {g : Grant} (heard : s.hear rx false = (true, t)) :
    exec (.creditGrantReceive rx fn g) s = .next ((t.applyGrant (4 + rx.part.val) rx.dconn g).stopClock (4 + rx.part.val) rx.dconn) := by
  rw [exec_creditGrantReceive, execCreditGrantReceive, State.sized, if_pos size, heard]

theorem creditReqReceive_heard (heard : s.hear rx false = (true, t)) :
    exec (.creditReqReceive rx fn) s = .next ((t.activeNow rx).sendCredit (4 + rx.part.val) rx.dconn) := by
  rw [exec_creditReqReceive, execCreditReqReceive, State.sized, if_pos size, heard]

theorem probeReceive_heard (heard : s.hear rx false true = (true, t)) :
    exec (.probeReceive rx fn) s = .next (if rx.ackreq then t.sendAck (4 + rx.part.val) rx.dconn rx.path rx.tstamp else t) := by
  rw [exec_probeReceive, execProbeReceive, State.sized, if_pos size, heard]

end

/-! ### Retransmission (R153) -/

/-- The one packet under way, once its timer has expired, is deemed lost. -/
theorem retxExpiry_single {s : State} {f h psn : Nat} {x : Sent} (only : (s.conn f h).tx.sent = [x]) (named : x.xpsn % 2 ^ 32 = psn % 2 ^ 32)
    (out : x.out = true) (waits : x.acked = false) (kept : x.lost = false) (due : x.at_ + x.rto ≤ s.now) :
    s.retxExpiry f h psn = (s.modConn f h fun c =>
      { c with tx := { c.tx with sent := c.tx.sent.map fun y =>
                                   if y.xpsn = x.xpsn then { y with lost := true, out := false, rto := min 10000000 (2 * y.rto) } else y,
                                 paths := amod c.tx.paths x.path {} fun p => { p with lost := p.lost + 1 } } }).stopClock f h := by
  have found : (s.conn f h).tx.sent.find? (fun y => y.xpsn % 2 ^ 32 = psn % 2 ^ 32) = some x := by
    rw [only]
    exact List.find?_cons_of_pos (decide_eq_true named)
  have expired : ¬ (¬ x.out = true ∨ x.acked = true ∨ x.lost = true ∨ s.now < x.at_ + x.rto) := by
    simp [out, waits, kept, due]
  rw [State.retxExpiry, found]
  exact if_neg expired

/-! ### Paths (R160, R161) -/

/-- A path after an interval: its strikes, and its counts begun anew. -/
def Path.evaluated (p : Path) : Path :=
  { p with strikes := if p.incl then (if p.struck then p.strikes + 1 else 0) else p.strikes, carried := 0, lost := 0, acked := 0, acks := 0, ces := 0 }

/-- R160: the included paths with three strikes are excluded, but for one where all would go. -/
def strikeOut (now : Nat) (ps : List (Nat × Path)) : List (Nat × Path) :=
  let inc := ps.filter fun p => p.2.incl
  let out := inc.filter fun p => decide (3 ≤ p.2.strikes)
  let spare := if out.length = inc.length then fewest inc else none
  ps.map fun p => if out.any (fun y => y.1 = p.1) ∧ spare ≠ some p.1 then
    (p.1, { p.2 with incl := false, probeAt := now, good := 0, probeTs := none }) else p

/-- The only path of a connection stays, however many strikes it has. -/
theorem strikeOut_single (now : Nat) {i : Nat} {p : Path} (incl : p.incl = true) : strikeOut now [(i, p)] = [(i, p)] := by
  by_cases strikes : 3 ≤ p.strikes
  · simp [strikeOut, incl, strikes, fewest]
  · simp [strikeOut, incl, strikes]

/-- An interval that has ended evaluates every path, and excludes those that have three strikes. -/
theorem strikeEval_due {s : State} {f h : Nat} (due : (s.conn f h).tx.intervalAt + (s.conn f h).tx.srtt ≤ s.now)
    (live : (s.conn f h).state.live = true) :
    s.strikeEval f h = s.modConn f h fun c =>
      { c with tx := { c.tx with paths := strikeOut s.now ((s.conn f h).tx.paths.map fun p => (p.1, p.2.evaluated)), intervalAt := s.now } } := by
  have ended : ¬ (s.now < (s.conn f h).tx.intervalAt + (s.conn f h).tx.srtt ∨ (s.conn f h).state.live = false) := by simp [due, live]
  exact if_neg ended

theorem pathProbe_due {s : State} {f h i : Nat} (out : ((s.conn f h).path i).incl = false) (own : i < (s.conn f h).cid.paths)
    (live : (s.conn f h).state.live = true) (due : ((s.conn f h).path i).probeAt + min 100000 (16 * (s.conn f h).tx.srtt) ≤ s.now) :
    s.pathProbe f h i = (s.modConn f h fun c => { c with tx := { c.tx with paths := amod c.tx.paths i {} fun p =>
      { p with probeAt := s.now, probeTs := none, good := if p.probeTs.isSome then 0 else p.good } } }).sendCtl f h i .probe true := by
  refine if_neg ?_
  simp [out, own, live, due]

/-! ### ACK_DELAY and silence (R152, R166) -/

theorem ackDelayTimer_due {fn : Fn} {h now a : Nat} {s : State} (first : (s.conn fn.idx h).rx.firstAt = some a)
    (due : a + (s.tick now).ackDelay ≤ (s.tick now).now) (up : (s.conn fn.idx h).state.live = true ∨ (s.conn fn.idx h).state = .exhausted) :
    exec (.ackDelayTimer fn h now) s =
      .next ((s.tick now).sendAck fn.idx h (s.conn fn.idx h).rx.lastPath (s.conn fn.idx h).rx.lastTs) := by
  rw [exec_ackDelayTimer, execAckDelayTimer]
  rw [tick_conn, first]
  exact congrArg Host.Outcome.next (if_pos ⟨due, up⟩)

theorem silenceProbeTimer_due {fn : Fn} {h now : Nat} {s : State} (live : (s.conn fn.idx h).state.live = true)
    (waits : (s.conn fn.idx h).inboundOpen = true) (silent : (s.conn fn.idx h).tm.receipt + 1000000 ≤ (s.tick now).now)
    (due : (s.conn fn.idx h).tm.probeAt + 1000000 ≤ (s.tick now).now) :
    exec (.silenceProbeTimer fn h now) s =
      .next (((s.tick now).modConn fn.idx h fun c => { c with tm := { c.tm with probeAt := (s.tick now).now } }).sendCtl fn.idx h
        (s.conn fn.idx h).turnPath .probe true) := by
  rw [exec_silenceProbeTimer]
  exact congrArg Host.Outcome.next (if_pos ⟨live, waits, silent, due⟩)

/-- Settles O14: a packet that is heard acts as the lemma on its kind says, and a timer that is due as the lemma on its operation. -/
theorem acknowledgementAndTimers : Obligations.AcknowledgementAndTimers := by
  refine ⟨fun rx fn s t size heard => ⟨fun x refused => ackReceive_heard size heard, fun g => creditGrantReceive_heard size heard,
      creditReqReceive_heard size heard⟩,
    fun rx fn s t => probeReceive_heard, fun fn h now s => ?_⟩
  intro f t c
  refine ⟨fun a => ackDelayTimer_due, fun psn x only named out waits kept due => ?_, fun p only incl due live => ?_,
    fun i out own live due => ?_, silenceProbeTimer_due⟩
  · exact congrArg Host.Outcome.next (retxExpiry_single (s := t) only named out waits kept due)
  · refine ⟨_, congrArg Host.Outcome.next (strikeEval_due (s := t) due live), ?_, ?_⟩
    · rw [conn_modConn]
    · have stays : p.evaluated.incl = true := incl
      rw [conn_modConn, tick_conn, only, List.map_singleton, strikeOut_single _ stays, Path.evaluated, if_pos incl]
  · exact congrArg Host.Outcome.next (pathProbe_due (s := t) out own live due)

end Sys2Proof.Machine
end

section
/-!
Connection commands (R136, R137, R140, R142, R162): one lemma a command of an entry that is ready and whose operands pass its checks.
-/

namespace Sys2Proof.Machine

/-! ### What a started entry leaves of handles, listeners and rings -/

@[simp] theorem begun_known (s : State) (e : Entry) (op : Nat) (c : Instr) (f h : Nat) : (s.begun e op c).known f h = s.known f h := by
  simp [State.known]

@[simp] theorem begun_listener? (s : State) (e : Entry) (op : Nat) (c : Instr) (f service la : Nat) :
    (s.begun e op c).listener? f service la = s.listener? f service la := by
  simp [State.listener?]

@[simp] theorem begun_addrEnt (s : State) (e : Entry) (op : Nat) (c : Instr) (p i : Nat) : (s.begun e op c).addrEnt p i = s.addrEnt p i := rfl

@[simp] theorem begun_ringState (s : State) (e : Entry) (op : Nat) (c : Instr) (k : Nat) :
    ((s.begun e op c).ring e.fn.idx k).state = (s.ring e.fn.idx k).state := by
  by_cases own : k = e.ring
  · rw [own, begun_ring]
    rfl
  · rw [begun_ring_other own]

/-- The record of R142 has its 64 bytes. -/
@[simp] theorem Conn.record_length (c : Conn) : c.record.length = 64 := by
  simp only [Conn.record, List.length_append, leBytes_length, beBytes_length]

/-- A handle that is known passes the checks of the commands that name one. -/
theorem unknownChecks_begun {s : State} {e : Entry} {op h : Nat} {c : Instr} (known : s.known e.fn.idx h = true) :
    ck ((s.begun e op c).unknown e.fn.idx h = true) .range = [] :=
  ck_false _ _ (by simp [State.unknown, known])

/-- CONN_CLOSE takes a known connection that is not being set up. -/
theorem closeChecks_begun {s : State} {e : Entry} {op h : Nat} {c : Instr} (known : s.known e.fn.idx h = true)
    (up : ¬ ((s.conn e.fn.idx h).state = .connecting ∨ (s.conn e.fn.idx h).state = .slowpath)) :
    let t := s.begun e op c
    ck (t.unknown e.fn.idx h = true) .range ++
      ck (t.known e.fn.idx h = true ∧ ((t.conn e.fn.idx h).state = .connecting ∨ (t.conn e.fn.idx h).state = .slowpath)) .state = [] := by
  intro t
  rw [unknownChecks_begun known, begun_conn, ck_false _ _ fun early => up early.2]
  rfl

/-! ### Handshakes and listeners (R136, R137) -/

section
variable {s : State} {e : Entry}

theorem connConnect_ready {b : ConnectBody} {h : Nat} (ready : Ready s e len2 false) :
    let f := e.fn.idx
    let t := s.begun e 0x100 (.connConnect e b)
    t.connectChecks f b = [] → t.pickHandle f = some h →
    let a := t.addrEnt (partOf f) b.laddrIdx
    exec (.connConnect e b) s = .next (t.startHandshake f h
      { op := some (s.opId e), peerIp := b.peerIp, peerPort := if b.peerPort = 0 then s.udpPort else b.peerPort, service := b.service,
        pmtu := b.pmtu, cls := b.cls, ports := if b.ports = 0 then a.ports else b.ports, paths := b.paths, vid := b.vid, pcp := b.pcp,
        ven := b.ven, laddrIdx := b.laddrIdx, tsel := b.tsel, tc := (t.contribution (partOf f) b.tsel).getD none }) := by
  intro f t checks picked a
  rw [exec_connConnect, execConnConnect, startEntry_ready ready rfl, effConnConnect, checked_ok checks, picked]
  rfl

section
variable (ready : Ready s e len1 false)
include ready

theorem connListen_ready {service la k mc : Nat} (quota : k < s.qRings e.fn.idx) (used : (s.ring e.fn.idx k).state ≠ .free)
    (stays : (s.ring e.fn.idx k).state ≠ .draining) (vf : isPf e.fn.idx = false) (entry : la < 16)
    (valid : (s.addrEnt (partOf e.fn.idx) la).valid = true) (new : s.listener? e.fn.idx service la = none) :
    exec (.connListen e service la k mc) s = .next
      (((s.begun e 0x101 (.connListen e service la k mc)).modFn e.fn.idx fun x =>
        { x with listeners := x.listeners ++ [⟨service, la, k, mc⟩] }).endOp e.fn.idx (s.opId e) .ok 0 0) := by
  rw [exec_connListen, execConnListen, startEntry_ready ready rfl, effConnListen, checked_ok]
  rw [begun_ringState, begun_qRings, begun_addrEnt, begun_listener?, new, ck_false _ _ (by simp [used, stays, quota]),
    ck_false _ _ (by simp [vf, entry, valid])]
  rfl

theorem connUnlisten_ready {service la : Nat} {l : Listener} (there : s.listener? e.fn.idx service la = some l) :
    exec (.connUnlisten e service la) s = .next
      (((s.begun e 0x102 (.connUnlisten e service la)).modFn e.fn.idx fun x =>
        { x with listeners := x.listeners.filter fun l => ¬ (l.service = service ∧ l.laddrIdx = la) }).endOp e.fn.idx (s.opId e) .ok 0 0) := by
  rw [exec_connUnlisten, execConnUnlisten, startEntry_ready ready rfl, effConnUnlisten, begun_listener?, there, checked_ok]
  rfl

/-! ### Commands on a handle (R140, R142, R162) -/

variable {h : Nat} (known : s.known e.fn.idx h = true)
include known

/-- A LOST connection goes. -/
theorem connClose_lost (lost : (s.conn e.fn.idx h).state = .lost) : exec (.connClose e h) s = .next
    (((s.begun e 0x103 (.connClose e h)).freeConn e.fn.idx h).endOp e.fn.idx (s.opId e) .ok 0 0).settle := by
  rw [exec_connClose, execConnClose, startEntry_ready ready rfl, effConnClose]
  dsimp only
  rw [checked_ok (closeChecks_begun known (by simp [lost])), begun_conn, lost]
  rfl

/-- An ESTABLISHED connection begins to close. -/
theorem connClose_established (established : (s.conn e.fn.idx h).state = .established) : exec (.connClose e h) s = .next
    (((((s.begun e 0x103 (.connClose e h)).modConn e.fn.idx h fun c => { c with closes := c.closes ++ [s.opId e] })).beginClose e.fn.idx h).closeStep
      e.fn.idx h).settle := by
  rw [exec_connClose, execConnClose, startEntry_ready ready rfl, effConnClose]
  dsimp only
  rw [checked_ok (closeChecks_begun known (by simp [established])), begun_conn, established]
  rfl

theorem connAbort_ready : exec (.connAbort e h) s = .next
    (((s.begun e 0x104 (.connAbort e h)).connAbort e.fn.idx h).endOp e.fn.idx (s.opId e) .ok 0 0).settle := by
  rw [exec_connAbort, execConnAbort, startEntry_ready ready rfl, effConnAbort, checked_ok (unknownChecks_begun known)]

theorem connQuery_ready {addr : Nat} (usable : Usable s e.fn.idx [(addr, 64, true)]) : exec (.connQuery e h addr) s = .next
    (((s.begun e 0x105 (.connQuery e h addr)).hostWrite e.fn.idx addr (s.conn e.fn.idx h).record).endOp e.fn.idx (s.opId e) .ok 64 0) := by
  have there : Usable (s.begun e 0x105 (.connQuery e h addr)) e.fn.idx [(addr, (s.conn e.fn.idx h).record.length, true)] := by
    rw [Conn.record_length]
    exact usable_begun usable
  rw [exec_connQuery, execConnQuery, startEntry_ready ready rfl, effConnQuery, checked_ok (unknownChecks_begun known), begun_conn,
    writeRecord_ok there, Conn.record_length]

/-- R162: CONN_MODIFY with both operands given, where a path of the new set is included. -/
theorem connModify_ready {ports paths : Nat} (nonempty : 0 < paths) (max : paths ≤ 64) (notConnecting : (s.conn e.fn.idx h).state ≠ .connecting)
    (notSlow : (s.conn e.fn.idx h).state ≠ .slowpath) (valid : (s.addrEnt (partOf e.fn.idx) (s.conn e.fn.idx h).cid.laddrIdx).valid = true)
    (given : ports ≠ 0) (granted : ports &&& (255 ^^^ (s.addrEnt (partOf e.fn.idx) (s.conn e.fn.idx h).cid.laddrIdx).ports) = 0) :
    let u := (s.begun e 0x106 (.connModify e h ports paths)).modConn e.fn.idx h fun c =>
      { c with cid := { c.cid with ports := ports, paths := paths },
               tx := { c.tx with paths := (List.range paths).map fun i => (i, agetD c.tx.paths i {}), rr := 0 } }
    (u.conn e.fn.idx h).included ≠ [] → exec (.connModify e h ports paths) s = .next (u.endOp e.fn.idx (s.opId e) .ok 0 0) := by
  intro u included
  rw [exec_connModify, execConnModify, startEntry_ready ready rfl, effConnModify]
  dsimp only
  rw [checked_ok]
  · simp only [given, nonempty.ne', if_false]
    exact congrArg (fun (v : State) => Host.Outcome.next (v.endOp e.fn.idx (s.opId e) .ok 0 0)) (if_neg included)
  · rw [begun_known, begun_conn, begun_addrEnt, ck_false _ _ (by simp [State.unknown, known, max]), ck_false _ _ (by simp [notConnecting, notSlow]),
      ck_false _ _ (by simp [valid, granted])]
    rfl

end
end

/-- Settles O15: one lemma a command. -/
theorem connectionCommands : Obligations.ConnectionCommands := by
  refine ⟨fun e b h s => connConnect_ready, fun e service la k mc s ready => connListen_ready ready,
    fun e service la l s ready => connUnlisten_ready ready, fun e h s ready => ?_⟩
  intro f id known
  exact ⟨connClose_lost ready known, connClose_established ready known, connAbort_ready ready known, fun addr => connQuery_ready ready known,
    fun ports paths => connModify_ready ready known⟩

end Sys2Proof.Machine
end

section
/-!
Handshakes, closing and tear-down (R137, R138, R140, R163-R165, R174, R179, R419): what a set-up packet does that finds room in its port's buffer, and
what a new sending key and a repeated ABORT do.
-/

namespace Sys2Proof.Machine

/-- What a function becomes depends on what it is alone. -/
theorem modFn_congr {s : State} {f : Nat} {g g' : FnState → FnState} (eq : g (s.fn f) = g' (s.fn f)) : s.modFn f g = s.modFn f g' :=
  congrArg (s.setFn f) eq

/-- What a connection becomes depends on what it is alone. -/
theorem modConn_congr {s : State} {f h : Nat} {g g' : Conn → Conn} (eq : g (s.conn f h) = g' (s.conn f h)) : s.modConn f h g = s.modConn f h g' :=
  congrArg (fun c => s.setFn f { s.fn f with conns := aset (s.fn f).conns h c }) eq

/-- A frame that finds room in its port's buffer goes on. -/
theorem takeIn_room {s u : State} {q cls n : Nat} {k : State → State} (taken : s.ingressTake q cls n = (true, u)) : s.takeIn q cls n k = k u := by
  rw [State.takeIn, taken]

/-! ### SYN (R137, R138) -/

section
variable {s : State} {x : Syn} (auth : x.authOk = true) (family : s.family x.peerIp = true) (active : (s.part x.part.val).state = .active)
  (sound : s.err.fatal = false) (keys : s.noKeys = false) (fresh : x.resume = none)
  (first : (s.learnMap x.peerIp x.peerDev).synTwin (4 + x.part.val) x = none) (plain : x.herdLabel = none)
include auth family active sound keys fresh first plain

/-- A SYN that no listener knows is refused. -/
theorem synReceive_refused (unknown : (s.learnMap x.peerIp x.peerDev).listener? (4 + x.part.val) x.service x.laddrIdx = none) :
    let v := s.learnMap x.peerIp x.peerDev
    s.synReceive x = v.replyCtl (4 + x.part.val) x.port.val
      (v.replyPkt (4 + x.part.val) x.laddrIdx 0 x.peerIp x.peerPart x.peerConn x.peerInc x.peerGen (.connRefuse Status.range.code 0)) := by
  intro v
  unfold State.synReceive
  dsimp only
  rw [if_neg (not_not.mpr auth), if_neg (by simp [family, active, sound, keys]), fresh]
  dsimp only
  rw [first, plain, unknown]
  rfl

/-- One that a listener without a limit of its own takes is accepted, as the function's first connection. -/
theorem synReceive_accepted {l : Listener} {sel h : Nat} {tc : Option Nat} :
    let v := s.learnMap x.peerIp x.peerDev
    v.listener? (4 + x.part.val) x.service x.laddrIdx = some l → l.maxConn = 0 → v.matchContrib x.part.val x.peerDev x.cchk = some (sel, tc) →
    v.pickHandle (4 + x.part.val) = some h → (v.fn (4 + x.part.val)).conns = [] → 0 < v.qConns (4 + x.part.val) →
    s.synReceive x = v.accept (4 + x.part.val) h x none sel tc := by
  intro v listens uncapped contributes picked empty quota
  unfold State.synReceive
  dsimp only
  rw [if_neg (not_not.mpr auth), if_neg (by simp [family, active, sound, keys]), fresh]
  dsimp only
  rw [first, plain, listens]
  dsimp only [Option.map_none]
  rw [contributes, picked]
  dsimp only
  refine if_neg ?_
  rw [if_pos uncapped, empty]
  exact fun full => Nat.not_le.mpr quota full.2

end

/-! ### SYN_ACK (R140) -/

theorem synAckReceive_connecting {s : State} {x : SynAck} {id : Nat} (auth : x.authOk = true) (names : s.names x.fn.idx x.handle x.inc = true)
    (waits : (s.conn x.fn.idx x.handle).state = .connecting) (op : (s.conn x.fn.idx x.handle).cid.op = some id) :
    let f := x.fn.idx
    let h := x.handle
    let t := s.modConn f h fun c =>
      { c with state := .established,
               cid := { c.cid with peerPart := x.peerPart, peerConn := x.peerConn, peerInc := x.peerInc, peerGen := x.peerGen, peerNonce := x.nonce,
                                   op := none },
               tm := { c.tm with progress := s.now, receipt := s.now } }
    s.synAckReceive x =
      ((((t.applyGrant f h x.grant true).deriveSetup f h).sendConnAck f h).endOp f id .ok 0 (h % 2 ^ 20 + 2 ^ 20 * (s.conn f h).cid.inc)).connUp f h := by
  intro f h t
  rw [State.synAckReceive]
  dsimp only
  rw [if_neg (not_not.mpr auth), if_neg (not_not.mpr names), if_pos waits, op]

/-! ### The packets of a context that stands (R163, R164) -/

section
variable {s u : State} {f : Nat} {rx : Rx} {k : State → State}

/-- A packet that names a live context has authenticated, and carries the context's handle and incarnation. -/
theorem authOk_names_of_namesRx (named : s.namesRx f rx = true) : rx.authOk = true ∧ s.names f rx.dconn rx.dinc = true := by
  simp only [State.namesRx, Bool.and_eq_true] at named
  obtain ⟨⟨⟨auth, names⟩, -⟩, -⟩ := named
  exact ⟨auth, names⟩

section
variable (size : rx.plen = 0) (taken : s.ingressTake rx.port.val rx.cls 182 = (true, u))
include size taken

theorem setUpRx_named (named : u.namesRx f rx = true) : s.setUpRx f rx k = k u := by
  obtain ⟨auth, -⟩ := authOk_names_of_namesRx named
  rw [State.setUpRx, State.sized, if_pos size, takeIn_room taken, if_neg (not_not.mpr auth), if_pos named]

theorem setUpRx_unauthenticated (auth : rx.authOk = false) : s.setUpRx f rx k = u.authFail := by
  rw [State.setUpRx, State.sized, if_pos size, takeIn_room taken, if_pos (by simp [auth])]

end

/-- A refusal ends the handshake of a connection that serves no herd: BUSY with its hint, any other as RANGE. -/
theorem connRefused_connecting {h inc kind hint : Nat} (names : s.names f h inc = true) (waits : (s.conn f h).state = .connecting)
    (alone : (s.conn f h).cid.herd = none) :
    s.connRefused f h inc kind hint = if kind = Status.busy.code then s.connFail f h .busy hint else s.connFail f h .range 0 := by
  have goes : ¬ (¬ s.names f h inc = true ∨ (s.conn f h).state ≠ .connecting) := by simp [names, waits]
  rw [State.connRefused, if_neg goes, if_neg (by simp [alone])]

theorem finReceive_up {h : Nat} (up : (s.conn f h).state = .established ∨ (s.conn f h).state = .rekey) :
    s.finReceive f h = (((s.modConn f h fun c => { c with rx := { c.rx with finRcvd := true } }).beginClose f h).connEvent f h).closeStep f h :=
  if_pos up

theorem finAckReceive_closing {h : Nat} (closing : (s.conn f h).state = .closing) :
    s.finAckReceive f h = (s.modConn f h fun c => { c with rx := { c.rx with finRcvd := true, finAckRcvd := true } }).closeStep f h :=
  if_pos closing

/-- A live connection is not one that is being set up. -/
theorem ConnSt.not_settingUp_of_live {st : ConnSt} (live : st.live = true) : ¬ (st = .connecting ∨ st = .slowpath) := by
  rintro (rfl | rfl)
  · exact absurd live (by decide)
  · exact absurd live (by decide)

theorem abortReceive_live {h cause : Nat} (live : (s.conn f h).state.live = true) :
    s.abortReceive f h cause = s.connLost f h (if cause ≤ 5 then cause else 2) := by
  rw [State.abortReceive, if_neg (ConnSt.not_settingUp_of_live live), if_pos live]

end

/-! ### A new sending key (R419) -/

/-- The KEY_ADVANCEs that wait for a connection's new key. -/
def State.keyAdvances (s : State) (f h : Nat) : List Op :=
  (s.fn f).ops.filter fun o => match o.cmd with
    | .keyAdvance _ n => n % 2 ^ 20 = h && o.gen = (s.fn f).gen
    | _ => false

theorem rekeyed_rekey {s : State} {f h : Nat} (stalled : (s.conn f h).state = .rekey) :
    let c := s.conn f h
    let t := s.modConn f h fun c => { c with state := .established, tx := { c.tx with kepoch := c.tx.kepoch + 1, pctr := 0 } }
    let u := t.epochCount.jMust (ownerOf f) (jKey 5 (partOf f) 0 .ok (2 ^ 12 * h + c.cid.inc) (c.tx.kepoch + 1) (t.dirOf f h))
    s.rekeyed f h = (u.keyAdvances f h).foldl (fun (s : State) o => s.endOp f o.id .ok 0 (c.tx.kepoch + 1)) u := by
  intro c t u
  have installed : (s.modConn f h fun c =>
      { c with state := if c.state = .rekey then .established else c.state, tx := { c.tx with kepoch := c.tx.kepoch + 1, pctr := 0 } }) = t :=
    modConn_congr (by simp only [stalled, if_true])
  have goes : ¬ ((s.conn f h).state ≠ .rekey ∧ ¬ ((s.conn f h).state = .closing ∧ (s.conn f h).noCtr = true ∧ (s.conn f h).tx.kepoch < 0xFFFF)) :=
    fun other => other.1 stalled
  rw [State.rekeyed]
  dsimp only
  rw [if_neg goes, installed]
  rfl

/-- R43: in its turn, the derivation unit makes the key. -/
theorem rekeyKeyInstalled_inTurn {fn : Fn} {h : Nat} {s : State} (keys : s.noKeys = false) (works : s.sec.failed = false)
    (turn : s.deriveTurn fn.idx h false = true) :
    exec (.rekeyKeyInstalled fn h) s = .next ((s.deriveDone fn.idx h false).rekeyed fn.idx h).settle := by
  rw [exec_rekeyKeyInstalled, execRekeyKeyInstalled, if_neg (by simp [keys, works, turn])]

/-! ### An ABORT that is repeated (R165) -/

theorem abortRepeat_more {s : State} {f h q : Nat} {a : AbortRpt} {p : CtlPkt} {l : List (Nat × CtlPkt)} (only : (s.fn f).aborts = [a])
    (handle : a.handle = h) (due : a.at_ + 100000 ≤ s.now) (left : a.left = (q, p) :: l) (more : l ≠ []) :
    s.abortRepeat f h = (s.modFn f fun x => { x with aborts := [{ a with left := l, at_ := s.now }] }).queueCtl q p := by
  have found : (s.fn f).aborts.find? (fun a => a.handle = h ∧ a.at_ + 100000 ≤ s.now) = some a := by
    rw [only]
    exact List.find?_cons_of_pos (decide_eq_true ⟨handle, due⟩)
  rw [State.abortRepeat, found]
  dsimp only
  rw [left]
  refine congrArg (fun (t : State) => t.queueCtl q p) (modFn_congr ?_)
  simp [only, more]

/-! ### The statement -/

/-- Settles O16: each packet by the lemma on its operation, and the two rows of the chip's own. -/
theorem handshakePackets : Obligations.HandshakePackets := by
  refine ⟨?_, ?_, ?_, ?_, ?_⟩
  · intro x s u taken auth family active sound keys fresh f v first plain
    rw [exec_synReceive, execSynReceive, takeIn_room taken]
    exact ⟨fun unknown => by rw [synReceive_refused auth family active sound keys fresh first plain unknown],
      fun l sel tc h listens uncapped contributes picked empty quota => by
        rw [synReceive_accepted auth family active sound keys fresh first plain listens uncapped contributes picked empty quota]⟩
  · intro x s u id taken f h auth names waits op t
    rw [exec_synAckReceive, execSynAckReceive, takeIn_room taken, synAckReceive_connecting auth names waits op]
  · intro rx fn s u size taken f h c
    refine ⟨fun named => ⟨?_, fun g => ?_, fun up => ?_, fun closing => ?_, fun cause handle inc live ours incarn => ?_⟩, fun auth => ?_⟩
    · rintro hint now s0 rfl waits alone
      obtain ⟨-, names⟩ := authOk_names_of_namesRx named
      have refused := fun kind => connRefused_connecting (kind := kind) (hint := hint) names waits alone
      refine ⟨?_, ?_⟩
      · rw [exec_connRefusalReceive, execConnRefusalReceive, setUpRx_named size taken named, refused, if_pos rfl]
      · rw [exec_connRefusalReceive, execConnRefusalReceive, setUpRx_named size taken named, refused, if_neg (by decide)]
    · rw [exec_connAckReceive, execConnAckReceive, setUpRx_named size taken named]
    · rw [exec_finReceive, execFinReceive, setUpRx_named size taken named, finReceive_up up]
    · rw [exec_finAckReceive, execFinAckReceive, setUpRx_named size taken named, finAckReceive_closing closing]
    · have peer : (u.conn f h).fromPeer handle inc = true := by simp [Conn.fromPeer, c, ours, incarn]
      rw [exec_abortReceive, execAbortReceive, setUpRx_named size taken named, if_pos peer, abortReceive_live live]
    · have unauthenticated : ∀ k, s.setUpRx f rx k = u.authFail := fun k => setUpRx_unauthenticated size taken auth
      refine ⟨?_, fun g => congrArg Host.Outcome.next (unauthenticated _), congrArg Host.Outcome.next (unauthenticated _),
        congrArg Host.Outcome.next (unauthenticated _), fun cause handle inc => congrArg Host.Outcome.next (unauthenticated _)⟩
      rintro kind hint now s0 rfl
      exact congrArg Host.Outcome.next (unauthenticated _)
  · intro fn h s f d c stalled keys works turn t u
    rw [rekeyKeyInstalled_inTurn keys works turn, rekeyed_rekey stalled]
    rfl
  · intro fn h now a q p l s f t only handle due left more
    rw [exec_abortRepeatTimer, execAbortRepeatTimer, abortRepeat_more (s := t) only handle due left more]

end Sys2Proof.Machine
end

section
/-!
The slow path and the timers of a handshake (R135, R137, R140, R180): what the firmware's answer does, what an unanswered SYN does, and what
LOST_TIME ends.
-/

namespace Sys2Proof.Machine

/-- R140: an unanswered SYN goes again on the next path, its wait doubled up to 10 ms. -/
theorem synRetry_connecting {s : State} {f h : Nat} (waits : (s.conn f h).state = .connecting)
    (due : (s.conn f h).tm.synAt + (s.conn f h).tm.synWait ≤ s.now) :
    let path := ((s.conn f h).tm.synPath + 1) % max 1 (s.conn f h).cid.paths
    s.synRetry f h = (s.modConn f h fun c =>
      { c with tm := { c.tm with synAt := s.now, synWait := min 10000000 (2 * c.tm.synWait), synPath := path } }).sendSyn f h path := by
  intro path
  rw [State.synRetry]
  dsimp only
  rw [if_neg (Nat.not_lt.mpr due), if_pos waits]

/-- R135, R140: with neighbour and device known, the initiator leaves the slow path and sends its SYN. -/
theorem slowDone_initiator {s : State} {f h d : Nat} (slow : (s.conn f h).state = .slowpath) (new : (s.conn f h).cid.resume = false)
    (init : (s.conn f h).cid.init = true) :
    let ip := (s.conn f h).cid.peerIp
    let u := s.modPart (partOf f) fun p => { p with neigh := if p.neigh.contains ip then p.neigh else p.neigh ++ [ip] }
    u.devOf ip = some d →
    s.slowDone f h = (((u.usePeer d).modConn f h fun c =>
      { c with state := .connecting, cid := { c.cid with peerDev := d },
               tm := { c.tm with synAt := s.now, synWait := s.rtoMin, synFirst := s.now, synPath := 0 } }).sendSyn f h 0) := by
  intro ip u known
  rw [State.slowDone]
  dsimp only
  rw [if_neg (by simp [new]), if_neg (not_not.mpr slow), if_pos init, known]
  rfl

/-! ### LOST_TIME (R140, R180) -/

/-- Stopping a connection's clock leaves the partitions. -/
@[simp] theorem stopClock_part (s : State) (f h p : Nat) : (s.stopClock f h).part p = s.part p := by
  unfold State.stopClock
  split <;> rfl

/-- A frozen partition's connections are not lost; of a physical function or another partition they may be. -/
theorem notHeld_of_thawed {f : Nat} {st : PartSt} (thawed : isPf f = true ∨ st ≠ .frozen) : ¬ (! isPf f && decide (st = .frozen)) = true := by
  rcases thawed with pf | thawed
  · simp [pf]
  · simp [thawed]

section
variable {s : State} {f h : Nat} (thawed : isPf f = true ∨ (s.part (partOf f)).state ≠ .frozen)
include thawed

/-- A connection that is not yet up fails once LOST_TIME has passed since its first SYN. -/
theorem lostExpiry_settingUp (early : (s.conn f h).state = .connecting ∨ (s.conn f h).state = .slowpath)
    (past : (s.conn f h).tm.synFirst + s.lostTime ≤ s.now) : s.lostExpiry f h = s.connFail f h .peerLost 0 := by
  have notLive : ¬ (s.conn f h).state.live = true := fun live => ConnSt.not_settingUp_of_live live early
  rw [State.lostExpiry, if_neg notLive]
  dsimp only
  rw [if_neg (notHeld_of_thawed thawed), if_pos early, if_pos (decide_eq_true past)]

/-- A live connection that waits for progress, and has made none for LOST_TIME, is LOST with cause 1. -/
theorem lostExpiry_live (live : (s.conn f h).state.live = true) :
    let u := s.stopClock f h
    (u.conn f h).state.live = true → u.waitsProgress f h = true → (u.conn f h).tm.progress + u.lostTime ≤ u.now →
    s.lostExpiry f h = u.connLost f h 1 := by
  intro u still waits past
  rw [State.lostExpiry, if_pos live]
  dsimp only
  rw [stopClock_part, if_neg (notHeld_of_thawed thawed), if_neg (ConnSt.not_settingUp_of_live still), if_pos ⟨still, .inl ⟨waits, decide_eq_true past⟩⟩]

end

/-- Settles O17: each row by the lemma on its operation. -/
theorem connectionTimers : Obligations.ConnectionTimers := by
  intro fn h now s f t c
  refine ⟨fun waits due => ?_, fun up turn slow new init d => ?_, fun turn slow => ?_, fun thawed => ⟨fun early past => ?_, fun live => ?_⟩⟩
  · rw [exec_synRetryTimer, execSynRetryTimer]
    exact congrArg Host.Outcome.next (synRetry_connecting (s := t) waits due)
  · intro u known
    rw [exec_slowpathDone, execSlowpathDone, if_pos ⟨up, turn⟩, slowDone_initiator slow new init known]
  · rw [exec_slowpathFail, execSlowpathFail, if_pos ⟨slow, turn⟩]
  · rw [exec_lostTimeExpiry, execLostTimeExpiry, lostExpiry_settingUp (s := t) thawed early past]
  · intro u still waits past
    rw [exec_lostTimeExpiry, execLostTimeExpiry, lostExpiry_live (s := t) thawed live still waits past]

end Sys2Proof.Machine
end

section
/-!
Frames and filters (R179, R500-R504, R531, R532): the room a frame finds, where it goes, the versions of a filter entry, and raw frames.
-/

namespace Sys2Proof.Machine

/-! ### The room a frame finds (R179) -/

section
variable {s t : State} {f : Frame}

theorem frameIn_up (up : (s.bp f.port.val f.bp).up = true) : s.frameIn f = s.frameRoom f fun u => u.classify f := by
  simp [State.frameIn, up]

/-- A TLT datagram needs room, which its packet takes later. -/
theorem frameRoom_tlt {k : State → State} (tlt : s.isTlt f = true) : s.frameRoom f k =
    if s.ingressRoom f.port.val f.base.cls then k s else s.modPort f.port.val fun x => { x with ingDrop := x.ingDrop + 1 } := by
  simp [State.frameRoom, tlt]

/-- Any other frame takes its room at once. -/
theorem frameRoom_other {k : State → State} {room : Bool} (other : s.isTlt f = false)
    (take : s.ingressTake f.port.val 0 (f.bytes.length + 4) = (room, t)) : s.frameRoom f k = if room then k t else t := by
  simp only [State.frameRoom, other, State.takeIn, take]
  cases room <;> rfl

/-- A frame for which there is room is classified in the state that its room leaves. -/
theorem frameIn_classified (up : (s.bp f.port.val f.bp).up = true)
    (room : (s.isTlt f = true ∧ s.ingressRoom f.port.val f.base.cls = true ∧ t = s) ∨
      (s.isTlt f = false ∧ s.ingressTake f.port.val 0 (f.bytes.length + 4) = (true, t))) : s.frameIn f = t.classify f := by
  rw [frameIn_up up]
  rcases room with ⟨tlt, room, rfl⟩ | ⟨other, take⟩
  · rw [frameRoom_tlt tlt, if_pos room]
  · rw [frameRoom_other other take, if_pos rfl]

end

/-! ### Where a frame goes (R500) -/

section
variable {s : State} {f : Frame}

theorem classify_stranger (single : f.group = false) (other : f.toMac ≠ s.mac f.port.val f.bp) :
    s.classify f = s.dropFrame f.port.val f.bp := by
  simp [State.classify, single, other]

/-- What the saiga processor takes before any filter: PTP, ARP, neighbour discovery and the pairing port. -/
def State.saigaOwn (s : State) (f : Frame) : Prop :=
  f.etype = 0x88F7 ∨ f.udpPort = some 319 ∨ f.udpPort = some 320 ∨ f.etype = 0x0806 ∨ f.nd = true ∨ f.udpPort = some (s.fld 0x1400000 0 16)

/-- What the first matching entry makes of a frame: it is counted there and takes the entry's action, or is counted as unmatched. -/
def State.filtered (s : State) (f : Frame) (hit : Option (Nat × (Nat × Nat))) : State :=
  match hit with
  | none => s.noMatch f.port.val
  | some (i, w) => { s with flts := { s.flts with hits := aset s.flts.hits i (satAdd (2 ^ 48 - 1) (agetD s.flts.hits i 0) 1) } }.fltAct w f

section
variable (here : f.group = true ∨ f.toMac = s.mac f.port.val f.bp)
include here

/-- A frame for this port or for a group is not discarded for its address. -/
theorem not_stranger : ¬ ((! f.group) = true ∧ f.toMac ≠ s.mac f.port.val f.bp) := by
  rcases here with h | h <;> simp [h]

theorem classify_macControl (mac : f.etype = 0x8808) : s.classify f = s := by
  unfold State.classify
  rw [if_neg (not_stranger here), if_pos mac]

/-- Slow protocols other than lane shedding. -/
theorem classify_slow (slow : f.etype = 0x8809) (other : ¬ (f.subtype = 0x0A ∧ f.oui = 0x7A51C3)) :
    s.classify f = s.toSaiga f.port.val f.bp := by
  unfold State.classify
  rw [if_neg (not_stranger here), if_neg (by simp [slow]), if_pos slow, if_neg other]

section
variable (notMac : f.etype ≠ 0x8808) (notSlow : f.etype ≠ 0x8809)
include notMac notSlow

theorem classify_saigaOwn (own : s.saigaOwn f) : s.classify f = s.toSaiga f.port.val f.bp := by
  unfold State.classify
  rw [if_neg (not_stranger here), if_neg notMac, if_neg notSlow, if_pos]
  simp only [decide_eq_true_eq, or_assoc]
  exact own

/-- Any other frame goes to the filters. -/
theorem classify_filtered (other : ¬ s.saigaOwn f) :
    s.classify f = s.filtered f (s.flts.cur.find? fun (e : Nat × (Nat × Nat)) => s.fltMatch e.2 f) := by
  unfold State.classify
  rw [if_neg (not_stranger here), if_neg notMac, if_neg notSlow, if_neg]
  · rfl
  · simp only [decide_eq_true_eq, or_assoc]
    exact other

end
end
end

/-! ### Versions of a filter entry (R504) -/

/-- R504: a commit is journalled, and takes the staged entry unless an older version of its index retires. -/
theorem fltCtl_commit {s : State} {o : Origin} {n : Nat} (room : s.jrnl.full = false) (idle : s.flts.held = false) :
    let i := n % 256
    let t := s.jCommit o (.setup 0xD00040 8 false s.flts.index (i + 256))
    let x := { t.flts with index := i }
    s.fltCtl o 8 (i + 256) = { t with flts := if (aget x.retiring i).isSome then { x with held := true } else x.commit } := by
  intro i t x
  have below : i < 256 := Nat.mod_lt _ (by decide)
  have index : (i + 256) % 256 = i := by omega
  have go : (i + 256).testBit 8 = true := by
    rw [Nat.testBit_eq_decide_div_mod_eq, decide_eq_true_eq]
    omega
  unfold State.fltCtl
  rw [idle, setupWrite_acts room, index, go]
  rfl

/-- R504: a version that has retired makes way for the commit that waits for it. -/
theorem fltRetire_known {s : State} {i : Nat} (known : (aget s.flts.retiring i).isSome = true) :
    let x := { s.flts with retiring := adel s.flts.retiring i }
    s.fltRetire i = { s with flts := if x.held ∧ x.index = i then x.commit else x } := by
  unfold State.fltRetire
  rw [if_neg (by simp [Option.isSome_iff_ne_none.mp known])]

/-! ### Raw frames (R531, R532) -/

@[simp] theorem begun_bp (s : State) (e : Entry) (op : Nat) (c : Instr) (q k : Nat) : (s.begun e op c).bp q k = s.bp q k := rfl
@[simp] theorem begun_maxFrame (s : State) (e : Entry) (op : Nat) (c : Instr) (q : Nat) : (s.begun e op c).maxFrame q = s.maxFrame q := rfl

@[simp] theorem begun_locPoison (s : State) (e : Entry) (op : Nat) (c : Instr) (f : Nat) (sl : Bool) (a n : Nat) :
    (s.begun e op c).locPoison f sl a n = s.locPoison f sl a n := rfl

section
variable {s : State} {e : Entry}

theorem frameRxbuf_ready {addr len : Nat} (ready : Ready s e len1 true) (min : 64 ≤ len) (max : len ≤ 65535) :
    exec (.frameRxbuf e addr len) s = .next
      ((s.begun e 0x7F1 (.frameRxbuf e addr len)).modRing e.fn.idx e.ring fun r => { r with rxbufs := r.rxbufs ++ [⟨s.opId e, addr, len⟩] }).settle := by
  rw [exec_frameRxbuf, execFrameRxbuf, startEntry_ready ready rfl, effFrameRxbuf, checked_ok (ck_false _ _ (by omega))]

section
variable {q bp addr len : Nat} {sp : Bool} (min : 60 ≤ len) (max : len ≤ s.maxFrame q - 4) (port : q < 8)
  (breakout : bp < 4) (granted : (isPf e.fn.idx || (s.part (partOf e.fn.idx)).cur.ports.testBit q) = true)
  (place : s.locCheck e.fn.idx sp addr len = [])
include min max port breakout granted place

/-- The operands pass every check of a started FRAME_TX. -/
theorem frameTx_checks (op : Nat) (c : Instr) : let t := s.begun e op c
    ck (len < 60 ∨ t.maxFrame q - 4 < len ∨ 8 ≤ q ∨ 4 ≤ bp) .range ++
      ck ((isPf e.fn.idx || (t.part (partOf e.fn.idx)).cur.ports.testBit q) = false) .prot ++ t.locCheck e.fn.idx sp addr len = [] := by
  intro t
  rw [begun_maxFrame, begun_part, begun_locCheck, granted, place, ck_false _ _ (by omega), ck_false _ _ (by decide)]
  rfl

variable (ready : Ready s e len1 true)
include ready

theorem frameTx_busy (stopped : (s.bp q bp).up = false ∨ (s.bp q bp).degraded = true) :
    exec (.frameTx e q bp sp addr len) s = .next
      ((s.begun e 0x7F0 (.frameTx e q bp sp addr len)).endOp e.fn.idx (s.opId e) .busy 0 1000).settle := by
  rw [exec_frameTx, execFrameTx, startEntry_ready ready rfl, effFrameTx, checked_ok (frameTx_checks min max port breakout granted place _ _),
    if_pos (by simpa using stopped)]

/-- With the port up and the bytes there and sound, the frame joins the raw frames of the port. -/
theorem frameTx_queued (up : (s.bp q bp).up = true) (fine : (s.bp q bp).degraded = false)
    (there : s.locMiss e.fn.idx sp addr len false = none) (sound : s.locPoison e.fn.idx sp addr len = none) :
    let t := s.begun e 0x7F0 (.frameTx e q bp sp addr len)
    let r : RawPkt := { fn := e.fn.idx, op := s.opId e, cls := (t.ring e.fn.idx e.ring).cls, part := partOf e.fn.idx, bp := bp,
                        bytes := t.locRead e.fn.idx sp addr len }
    exec (.frameTx e q bp sp addr len) s = .next ((t.locUse e.fn.idx sp addr len).modPort q fun x => { x with raws := x.raws ++ [r] }).settle := by
  intro t r
  rw [exec_frameTx, execFrameTx, startEntry_ready ready rfl, effFrameTx, checked_ok (frameTx_checks min max port breakout granted place _ _),
    if_neg (by simp [up, fine]), begun_locMiss, there]
  dsimp only
  rw [begun_locPoison, sound]

end
end

/-- Settles O42: a frame by its room, its address and what it is; a commit by whether a version retires; FRAME_TX by the state of its port. -/
theorem framesAndFilters : Obligations.FramesAndFilters := by
  refine ⟨fun f s t => ?_, fun o n s room idle => ?_, fun i s known => ?_, fun e s ready => ?_⟩
  · intro q own up
    refine ⟨fun tlt full => ?_, fun other refused => ?_, fun room => ?_⟩
    · rw [exec_frameReceive, execFrameReceive, frameIn_up up, frameRoom_tlt tlt, full]
      rfl
    · rw [exec_frameReceive, execFrameReceive, frameIn_up up, frameRoom_other other refused]
      rfl
    · have run : exec (.frameReceive f) s = .next (t.classify f) := by
        rw [exec_frameReceive, execFrameReceive, frameIn_classified up room]
      rw [run]
      refine ⟨fun single other => by rw [classify_stranger single other], fun here => ⟨fun mac => by rw [classify_macControl here mac],
        fun slow other => by rw [classify_slow here slow other], fun notMac notSlow own => by rw [classify_saigaOwn here notMac notSlow own],
        fun notMac notSlow other => ?_⟩⟩
      rw [classify_filtered here notMac notSlow other]
      exact ⟨fun unmatched => by rw [unmatched]; rfl, fun i w first => by rw [first]; rfl⟩
  · have commit := fltCtl_commit (o := o) (n := n) room idle
    rw [exec_fltCommit, execFltCommit]
    refine ⟨fun free => ?_, fun retires => ?_⟩
    · rw [commit, if_neg (by simpa using free)]
    · rw [commit, if_pos retires]
  · rw [exec_fltRetire, execFltRetire, fltRetire_known known]
  · exact ⟨fun q bp addr len sp min max port breakout granted place =>
      ⟨frameTx_busy min max port breakout granted place ready, frameTx_queued min max port breakout granted place ready⟩,
      fun addr len => frameRxbuf_ready ready⟩

end Sys2Proof.Machine
end

section
/-!
Selection and transmission (R173, R181-R189, R202): what a selection takes, the head that leaves a port, and what the timers of the queues do.
-/

namespace Sys2Proof.Machine

/-! ### The packet that a selection takes (R181, R182, R185) -/

/-- How many ports the connection of an unsequenced packet sprays over; one where it has none (R497). -/
def State.ctlSpread (s : State) (c : CtlPkt) : Nat :=
  match c.conn with
  | some x => (s.conn c.fn x.1).cid.portList.length
  | none => 1

section
variable {s w : State} {q fuel : Nat}

theorem ctlGo_idle (idle : s.ctlNext q = none) : ctlGo (fuel + 1) s q = (s, false) := by
  rw [ctlGo, idle]

/-- The class-7 packet whose turn it is leaves its list and enters the FIFO sealed. -/
theorem ctlGo_sealed {c : CtlPkt} {p : Pkt} {key : BitVec 256} {n : Nat} (next : s.ctlNext q = some c) :
    let v := s.modPort q fun x => { x with ctl := dropFirst x.ctl (fun y => y = c), rr7 := (c.part + 1) % 16 }
    v.ctlSeal c = some (p, key, n) →
    ctlGo (fuel + 1) s q = ((v.ctlTaken c).enqueue q
      { fn := c.fn, conn := c.conn.map (·.1), part := c.part, cls := 7, bytes := p.frameLen, seq := 0, id := 0, ready := true, pkt := some p,
        bp := v.bpOf q (v.ctlSpread c) c.path, dev := c.dev, key := key, ntype := n }, true) := by
  intro v sealed
  rw [ctlGo, next]
  dsimp only
  rw [sealed]
  rfl

theorem selectGo_idle {skip : List (Nat × Nat)} (idle : s.turn q skip = none) : selectGo fuel s q skip = s := by
  cases fuel with
  | zero => rfl
  | succ n => rw [selectGo, idle]

theorem selectGo_taken {skip : List (Nat × Nat)} {k : Turn} (pos : 0 < fuel) (turn : s.turn q skip = some k)
    (picked : s.selectPick q k.part k.cls k.pick = (w, true)) : selectGo fuel s q skip = w.turnTaken q k := by
  obtain ⟨n, rfl⟩ := Nat.exists_eq_succ_of_ne_zero (Nat.ne_of_gt pos)
  rw [selectGo, turn]
  dsimp only
  rw [picked]

end

/-- A sum that starts above zero stays there. -/
theorem foldl_add_pos {α : Type} (g : α → Nat) (l : List α) {n : Nat} (pos : 0 < n) : 0 < l.foldl (fun m x => m + g x) n := by
  induction l generalizing n with
  | nil => exact pos
  | cons x t ih => exact ih (Nat.add_pos_left pos _)

/-- The port notes whether it has stopped (R182). -/
def State.stopNoted (s : State) (q : Nat) : State := s.modPort q fun x => { x with stopped := s.injStopped q }

theorem stopNoted_stopped (s : State) (q : Nat) : ((s.stopNoted q).port q).stopped = s.injStopped q := by rw [State.stopNoted, port_modPort]

/-- What a port that has not stopped selects: a class-7 packet, or else a data packet (R185). -/
def State.selected (s : State) (q : Nat) : State :=
  match ctlGo ((s.port q).ctl.length + 1) s q with
  | (t, true) => t
  | (t, false) => selectGo (t.fns.foldl (fun n x => n + x.2.conns.length) 1) t q []

section
variable {s w : State} {q : Nat}

theorem packetSelect_eq (s : State) (q : Nat) : s.packetSelect q =
    if (s.refreshQueues q).injStopped q = true ∨ (s.refreshQueues q).err.fatal = true then (s.refreshQueues q).stopNoted q
    else ((s.refreshQueues q).stopNoted q).selected q := by
  unfold State.packetSelect
  generalize s.refreshQueues q = r
  show (if ((r.stopNoted q).port q).stopped = true ∨ (r.stopNoted q).err.fatal = true then r.stopNoted q else (r.stopNoted q).selected q) = _
  rw [stopNoted_stopped]
  rfl

section
variable {t : State} {p : Fin 8} {now : Nat} (seen : ((s.refreshQueues p.val).tick now).refreshQueues p.val = t)
include seen

theorem packetSelect_stopped (stops : t.injStopped p.val = true ∨ t.err.fatal = true) :
    exec (.packetSelect p now) s = .next (t.stopNoted p.val).spentOut.settle := by
  rw [exec_packetSelect, execPacketSelect, packetSelect_eq, seen, if_pos stops]

theorem packetSelect_goes (goes : t.injStopped p.val = false) (sound : t.err.fatal = false) (selects : (t.stopNoted p.val).selected p.val = w) :
    exec (.packetSelect p now) s = .next w.spentOut.settle := by
  rw [exec_packetSelect, execPacketSelect, packetSelect_eq, seen, if_neg (by simp [goes, sound]), selects]

end

theorem selected_ctl (sealed : ctlGo ((s.port q).ctl.length + 1) s q = (w, true)) : s.selected q = w := by rw [State.selected, sealed]

section
variable (noCtl : s.ctlNext q = none)
include noCtl

theorem selected_idle (idle : s.turn q [] = none) : s.selected q = s := by
  rw [State.selected, ctlGo_idle noCtl]
  exact selectGo_idle idle

theorem selected_data {k : Turn} (turn : s.turn q [] = some k) (picked : s.selectPick q k.part k.cls k.pick = (w, true)) :
    s.selected q = w.turnTaken q k := by
  rw [State.selected, ctlGo_idle noCtl]
  exact selectGo_taken (foldl_add_pos _ _ Nat.one_pos) turn picked

end
end

/-! ### The head that leaves (R181, R190, R202) -/

/-- Of two heads the one selected earlier; the one seen first where neither is. -/
def earlier (best : Option FifoPkt) (e : FifoPkt) : Option FifoPkt :=
  match best with
  | none => some e
  | some y => if e.seq < y.seq then some e else some y

/-- A head selected before all others of a list is the earliest of it. -/
theorem foldl_earlier {l : List FifoPkt} {e : FifoPkt} {best : Option FifoPkt} (mem : e ∈ l ∨ best = some e)
    (least : ∀ y ∈ l, y ≠ e → e.seq < y.seq) (before : ∀ y, best = some y → y ≠ e → e.seq < y.seq) : l.foldl earlier best = some e := by
  induction l generalizing best with
  | nil => simpa using mem
  | cons x t ih =>
    have leastTail : ∀ y ∈ t, y ≠ e → e.seq < y.seq := fun y hy => least y (List.mem_cons_of_mem _ hy)
    rw [List.foldl_cons]
    by_cases own : x = e
    · subst own
      have first : earlier best x = some x := by
        cases best with
        | none => rfl
        | some y =>
          rw [earlier, ite_eq_left_iff]
          intro late
          by_contra other
          exact late (before y rfl fun same => other (same ▸ rfl))
      exact ih (.inr first) leastTail fun y hy other => absurd (Option.some.inj (first.symm.trans hy)).symm other
    · refine ih (mem.imp (fun h => (List.mem_cons.mp h).resolve_left (Ne.symm own)) fun h => ?_) leastTail fun y hy other => ?_
      · have later := least x List.mem_cons_self own
        rw [h, earlier, if_neg (by omega)]
      · cases best with
        | none => cases hy; exact least x List.mem_cons_self own
        | some z =>
          rw [earlier] at hy
          split at hy
          · cases hy; exact least x List.mem_cons_self own
          · cases hy; exact before _ rfl other

/-- The heads of a breakout port that only a gate can still hold back. -/
def State.waitingHeads (s : State) (q k : Nat) : List FifoPkt :=
  ((s.port q).heads k).filter fun e => e.ready ∧ (¬ (s.bp q k).degraded ∨ e.cls = 7) ∧ ¬ s.pausedCls q k e.cls ∧ (e.cls ≠ 7 ∨ (s.port q).cls7At ≤ s.now)

/-- R202: the heads that a gate holds back are marked and counted, each once. -/
def State.waitsNoted (s : State) (q k : Nat) : State :=
  let late := (s.waitingHeads q k).filter fun e => s.gateSays q k e.cls e.bytes = .later ∧ ¬ e.waited
  s.modPort q fun x =>
    { x with fifo := x.fifo.map (fun e => if late.any (fun y => y.id = e.id) then { e with waited := true } else e),
             waits := satAdd 0xFFFFFFFF x.waits late.length }

/-- A head leaves its FIFO: what the port counts of it. -/
def State.departed (s : State) (q k : Nat) (e : FifoPkt) : State :=
  let ns := wireNs e.bytes (s.portRate q k)
  let overs := s.gateSays q k e.cls e.bytes = .overrun
  (s.modPort q fun x =>
    { x with fifo := x.fifo.filter (fun y => y.id ≠ e.id), overrun := if overs then satAdd 0xFFFFFFFF x.overrun 1 else x.overrun,
             holdTil := if overs then s.now + ns else x.holdTil,
             cls7At := if e.cls = 7 then s.now + 64 * ns else x.cls7At, txFrames := satAdd 0xFFFFFFFF x.txFrames 1 }).modBp q k fun b =>
    { b with sentBytes := b.sentBytes + e.bytes + 20 }

/-- A head that has left its FIFO goes out as its packet or its raw bytes. -/
def State.onWire (s : State) (q k : Nat) (e : FifoPkt) : State :=
  match e.pkt, e.raw with
  | some p, _ =>
    let p := { p with tstamp := s.clk.time % 2 ^ 32 }
    (s.noteSent e p).emit (.packet q k p (p.frame (s.mac q k) e.key e.ntype))
  | none, some (_, bytes) => s.emit (.raw q k bytes)
  | none, none => s

/-- A head that has left its FIFO goes out, and the operation of a raw frame ends OK (R531). -/
def State.sentOut (s : State) (q k : Nat) (e : FifoPkt) : State :=
  match e.pkt, e.raw with
  | some p, _ =>
    let p := { p with tstamp := s.clk.time % 2 ^ 32 }
    (s.noteSent e p).emit (.packet q k p (p.frame (s.mac q k) e.key e.ntype))
  | none, some (op, bytes) => (s.emit (.raw q k bytes)).endOp e.fn op .ok bytes.length 0
  | none, none => s

/-- The head that may start first, if there is one, leaves the port. -/
def State.startFirst (s : State) (q k : Nat) (first : Option FifoPkt) : State :=
  match first with
  | none => s
  | some e => (s.departed q k e).sentOut q k e

section
variable {s : State} {q k : Nat} {e : FifoPkt}

/-- What a gate says depends on the port's lists, its lanes and the time, not on its FIFOs. -/
theorem gateSays_waitsNoted (c b : Nat) : (s.waitsNoted q k).gateSays q k c b = s.gateSays q k c b := by
  simp only [State.gateSays, State.portRate, State.bp, State.waitsNoted, port_modPort, modPort_clk]
  rfl

/-- A port that may send sends the head selected first of those that no gate holds back. -/
theorem transmit_goes (up : (s.bp q k).up = true) (unmarked : (s.bp q k).markSent = false) (sound : s.err.fatal = false)
    (unheld : (s.port q).holdTil ≤ s.now) : s.transmit q k = (s.waitsNoted q k).startFirst q k
      (((s.waitingHeads q k).filter fun e => s.gateSays q k e.cls e.bytes ≠ .later).foldl earlier none) := by
  have goes : ¬ (¬ (s.bp q k).up = true ∨ (s.bp q k).markSent = true ∨ s.err.fatal = true ∨ s.now < (s.port q).holdTil) := by
    simp [up, unmarked, sound, unheld]
  have same : ((s.waitingHeads q k).filter fun e => s.gateSays q k e.cls e.bytes ≠ .later) =
      (s.waitingHeads q k).filter fun e => (s.waitsNoted q k).gateSays q k e.cls e.bytes ≠ .later := by
    simp only [gateSays_waitsNoted]
  rw [State.transmit, same]
  refine (if_neg goes).trans ?_
  rfl

theorem transmit_first (up : (s.bp q k).up = true) (unmarked : (s.bp q k).markSent = false) (sound : s.err.fatal = false)
    (unheld : (s.port q).holdTil ≤ s.now) (mem : e ∈ (s.waitingHeads q k).filter fun e => s.gateSays q k e.cls e.bytes ≠ .later)
    (least : ∀ y ∈ (s.waitingHeads q k).filter fun e => s.gateSays q k e.cls e.bytes ≠ .later, y ≠ e → e.seq < y.seq) :
    s.transmit q k = ((s.waitsNoted q k).departed q k e).sentOut q k e := by
  rw [transmit_goes up unmarked sound unheld, foldl_earlier (.inl mem) least (by simp)]
  rfl

/-! ### What leaves, and what the port keeps -/

theorem noteSent_out (s : State) (e : FifoPkt) (p : Pkt) : (s.noteSent e p).out = s.out := by
  unfold State.noteSent
  split
  · rfl
  · split
    · rfl
    · split <;> rfl

theorem noteSent_ports (s : State) (e : FifoPkt) (p : Pkt) : (s.noteSent e p).ports = s.ports := by
  unfold State.noteSent
  split
  · rfl
  · split
    · rfl
    · split <;> rfl

theorem onWire_port (s : State) (q k : Nat) (e : FifoPkt) (j : Nat) : (s.onWire q k e).port j = s.port j := by
  have same : (s.onWire q k e).ports = s.ports := by
    unfold State.onWire
    split
    · exact noteSent_ports s e _
    · rfl
    · rfl
  rw [State.port, State.port, same]

theorem onWire_pkt {p : Pkt} (pkt : e.pkt = some p) :
    let p := { p with tstamp := s.clk.time % 2 ^ 32 }
    s.sentOut q k e = s.onWire q k e ∧ (s.onWire q k e).out = s.out ++ [.packet q k p (p.frame (s.mac q k) e.key e.ntype)] := by
  intro p
  rw [State.sentOut, State.onWire, pkt]
  exact ⟨rfl, by rw [emit_out, noteSent_out]⟩

theorem onWire_raw {op : Nat} {bs : List Byte} (noPkt : e.pkt = none) (raw : e.raw = some (op, bs)) :
    s.sentOut q k e = (s.onWire q k e).endOp e.fn op .ok bs.length 0 ∧ (s.onWire q k e).out = s.out ++ [.raw q k bs] := by
  rw [State.sentOut, State.onWire, noPkt, raw]
  exact ⟨rfl, rfl⟩

/-- A change of packets that leaves their identities does not change what stays when one of them goes. -/
theorem map_filter_ids {g : FifoPkt → FifoPkt} (keeps : ∀ y, (g y).id = y.id) (l : List FifoPkt) (i : Nat) :
    ((l.map g).filter fun y => y.id ≠ i).map (·.id) = (l.filter fun y => y.id ≠ i).map (·.id) := by
  rw [List.filter_map, List.map_map]
  simp only [Function.comp_def, keeps]

theorem departed_ids : ((((s.waitsNoted q k).departed q k e).port q).fifo.map (·.id)) =
    ((s.port q).fifo.filter fun y => y.id ≠ e.id).map (·.id) := by
  simp only [State.departed, State.modBp, State.waitsNoted, port_modPort]
  exact map_filter_ids (fun y => by split <;> rfl) _ _

theorem departed_overrun : (((s.waitsNoted q k).departed q k e).port q).overrun =
    if s.gateSays q k e.cls e.bytes = .overrun then satAdd 0xFFFFFFFF (s.port q).overrun 1 else (s.port q).overrun := by
  simp only [State.departed, State.modBp, port_modPort, gateSays_waitsNoted]
  rw [State.waitsNoted, port_modPort]

/-- R181: the head selected earliest of those that may start leaves the port: `u` is the port once its frame is on the wire, and the
operation of a raw frame then ends OK. -/
theorem transmit_leaves (up : (s.bp q k).up = true) (unmarked : (s.bp q k).markSent = false) (sound : s.err.fatal = false)
    (unheld : (s.port q).holdTil ≤ s.now) (mem : e ∈ (s.waitingHeads q k).filter fun e => s.gateSays q k e.cls e.bytes ≠ .later)
    (least : ∀ y ∈ (s.waitingHeads q k).filter fun e => s.gateSays q k e.cls e.bytes ≠ .later, y ≠ e → e.seq < y.seq) :
    ∃ u : State,
      (∀ p : Pkt, e.pkt = some p → s.transmit q k = u ∧
        (let p := { p with tstamp := s.clk.time % 2 ^ 32 }
         u.out = s.out ++ [.packet q k p (p.frame (s.mac q k) e.key e.ntype)])) ∧
      (∀ (op : Nat) (bs : List Byte), e.pkt = none → e.raw = some (op, bs) →
        s.transmit q k = u.endOp e.fn op .ok bs.length 0 ∧ u.out = s.out ++ [.raw q k bs]) ∧
      ((u.port q).fifo.map (·.id) = ((s.port q).fifo.filter fun y => y.id ≠ e.id).map (·.id)) ∧
      (u.port q).overrun = (if s.gateSays q k e.cls e.bytes = .overrun then satAdd 0xFFFFFFFF (s.port q).overrun 1 else (s.port q).overrun) := by
  have gone := transmit_first up unmarked sound unheld mem least
  refine ⟨((s.waitsNoted q k).departed q k e).onWire q k e, fun p pkt => ?_, fun op bs noPkt raw => ?_, ?_, ?_⟩
  · obtain ⟨sent, out⟩ := onWire_pkt (s := (s.waitsNoted q k).departed q k e) (q := q) (k := k) pkt
    exact ⟨gone.trans sent, out⟩
  · obtain ⟨sent, out⟩ := onWire_raw (s := (s.waitsNoted q k).departed q k e) (q := q) (k := k) noPkt raw
    exact ⟨gone.trans sent, out⟩
  · rw [onWire_port, departed_ids]
  · rw [onWire_port, departed_overrun]

end

/-! ### Timers (R176, R177, R186, R189) -/

section
variable {s : State}

theorem sampleAll_early (early : s.now < s.sched.sampleAt + s.sampleNs) : s.sampleAll = s := if_pos early
theorem grantInterval_early (early : s.now < s.sched.grantAt + s.gint) : s.grantInterval = s := if_pos early

/-- R186: a data-class queue that has waited STARVE is escalated. -/
theorem queueEscalation_due {q : Fin 8} {p : Fin 16} {c now since : Nat} :
    let t := (s.tick now).refreshQueues q.val
    let k := qKey q.val p.val c
    (t.clsq k).since = some since → c < 6 → since + t.starveNs ≤ t.now → (t.clsq k).escal = none →
    exec (.queueEscalationTimer q p c now) s = .next (t.modClsq k fun x => { x with escal := some t.now }) := by
  intro t k waits data due fresh
  rw [exec_queueEscalationTimer, execQueueEscalationTimer, waits]
  exact congrArg Host.Outcome.next (if_pos ⟨data, due, by rw [fresh]; rfl⟩)

variable {f h w : Nat} {k : Cand}

/-- R176: a change that has waited 8 µs is told. -/
theorem creditChange_due {fn : Fn} {now : Nat} (change : (s.conn fn.idx h).rx.changeAt = some w) (live : (s.conn fn.idx h).state.live = true)
    (due : w + 8000 ≤ (s.tick now).now) : exec (.creditChangeTimer fn h now) s = .next ((s.tick now).sendCredit fn.idx h) := by
  rw [exec_creditChangeTimer, execCreditChangeTimer, tick_conn, change]
  exact congrArg Host.Outcome.next (if_pos ⟨live, due⟩)

/-- R176: a sender short of credit that has waited 8 µs for a grant, and since its last REQ, sends one. -/
theorem creditReq_due (next : (s.conn f h).nextCand h = some k) (live : (s.conn f h).state.live = true) (short : (s.conn f h).tx.gwin < k.cost)
    (silent : (s.conn f h).tx.grantAt + 8000 ≤ s.now) (due : (s.conn f h).tx.reqAt + 8000 ≤ s.now) :
    let c := s.conn f h
    let u := s.sendCtl f h c.turnPath (.credit ⟨0, 0, false⟩ (min 0xFFFFFFFF (c.tx.backlog (pmtuBytes c.cid.pmtu))) true)
    s.creditReq f h = u.modConn f h fun y => { y with tx := { y.tx with reqAt := u.now } } := by
  intro c u
  rw [State.creditReq]
  dsimp only
  rw [next]
  exact if_pos ⟨live, short, silent, due⟩

end

/-- Settles O18: a selection by whether the port goes on and what it finds, a transmission by the head selected first, and each timer by whether
it is due. -/
theorem scheduling : Obligations.Scheduling := by
  refine ⟨fun q now s => ?_, fun q k now s e => ?_, fun q p c now since s => queueEscalation_due, fun now s => ?_, fun fn h now s => ?_⟩
  · intro t u
    have seen : ((s.refreshQueues q.val).tick now).refreshQueues q.val = t := rfl
    refine ⟨packetSelect_stopped seen, fun goes sound => ⟨fun c p key n next sealed => ?_, fun noCtl => ⟨fun idle => ?_, fun w k turn picked => ?_⟩⟩⟩
    · exact packetSelect_goes seen goes sound (selected_ctl (ctlGo_sealed next sealed))
    · exact packetSelect_goes seen goes sound (selected_idle noCtl idle)
    · exact packetSelect_goes seen goes sound (selected_data noCtl turn picked)
  · intro t ok up unmarked sound unheld mem least
    have same : ∀ y, y ∈ ((t.waitingHeads q k).filter fun e => t.gateSays q k e.cls e.bytes ≠ .later) ↔ y ∈ ok := by
      intro y
      simp only [ok, State.waitingHeads, List.mem_filter, decide_eq_true_eq, and_assoc]
    obtain ⟨u, pkt, raw, ids, overrun⟩ :=
      transmit_leaves (s := t) up unmarked sound unheld ((same e).mpr mem) fun y hy => least y ((same y).mp hy)
    refine ⟨u, fun p has => ?_, fun op bs noPkt has => ?_, ids, overrun⟩
    · obtain ⟨sent, out⟩ := pkt p has
      exact ⟨congrArg Host.Outcome.next sent, out⟩
    · obtain ⟨sent, out⟩ := raw op bs noPkt has
      exact ⟨congrArg Host.Outcome.next sent, out⟩
  · intro t
    refine ⟨fun early => ?_, fun due => ?_, fun early => ?_, fun due => ?_⟩
    · rw [exec_queueSampleTimer, execQueueSampleTimer, sampleAll_early early]
    · rw [exec_queueSampleTimer, execQueueSampleTimer]
      exact congrArg Host.Outcome.next (if_neg (Nat.not_lt.mpr due))
    · rw [exec_grantInterval, execGrantInterval, grantInterval_early early]
    · rw [exec_grantInterval, execGrantInterval]
      exact congrArg Host.Outcome.next (if_neg (Nat.not_lt.mpr due))
  · intro f t c
    refine ⟨fun w => creditChange_due, fun k next live short silent due => ?_⟩
    rw [exec_creditReqTimer, execCreditReqTimer]
    exact congrArg Host.Outcome.next (creditReq_due (s := t) next live short silent due)

end Sys2Proof.Machine
end

section
/-!
Gate lists, stops and samples (R190-R199): GATE_LOAD, the takeover of a list, and the commands that stop and sample queues.
-/

namespace Sys2Proof.Machine

/-! ### Host ranges that are there, or are missing (R343) -/

section
variable {s : State} {f id addr len : Nat}

theorem readHostFor_parks {k : List Byte → State → State} {p : Nat} (miss : s.missing f addr len false = some p) :
    s.readHostFor f id addr len k = s.parkOp f id p false :=
  withHost_parks (p := (p, false)) (by simp [State.firstMiss, miss])

theorem readHostFor_goes {k : List Byte → State → State} (there : s.missing f addr len false = none) (sound : s.locPoison f false addr len = none) :
    s.readHostFor f id addr len k = k (s.hostBytes f addr len) (s.hostReadFill f addr len) :=
  readHostFor_ok (by simp [Usable, there]) sound

end

/-! ### Gate lists (R193-R197) -/

/-- A list takes the place of the one that waits on a port, which ends FLUSHED (R194). -/
def State.putPend (s : State) (q : Nat) (p : GatePend) : State :=
  (match (s.port q).pend with
    | some old => s.endOp old.fn old.op .flushed 0 0
    | none => s).modPort q fun x => { x with pend := some p }

/-- What GATE_LOAD makes of the bytes of its list: a legal list waits for its takeover (R193, R197). -/
def loadGates (q count start f id : Nat) (bs : List Byte) (s : State) : State :=
  let l := gatesOf count bs
  s.checked f id (ck (gatesRsv count bs ∨ l.any (fun g => g.dur < 10) ∨ (l ≠ [] ∧ (cycleNs l < 1000 ∨ 10 ^ 9 < cycleNs l))) .range) fun s =>
    s.putPend q ⟨l, (s.takeover q start l).1, start, f, id, (s.takeover q start l).2⟩

section
variable {s : State} {q count start f id : Nat} {bs : List Byte}

theorem loadGates_legal (plain : gatesRsv count bs = false) (long : ∀ g ∈ gatesOf count bs, 10 ≤ g.dur)
    (cycle : gatesOf count bs = [] ∨ (1000 ≤ cycleNs (gatesOf count bs) ∧ cycleNs (gatesOf count bs) ≤ 10 ^ 9)) :
    loadGates q count start f id bs s =
      s.putPend q ⟨gatesOf count bs, (s.takeover q start (gatesOf count bs)).1, start, f, id, (s.takeover q start (gatesOf count bs)).2⟩ := by
  have noShort : ¬ (gatesOf count bs).any (fun g => g.dur < 10) = true := by simpa using long
  have legal : ¬ (gatesRsv count bs = true ∨ (gatesOf count bs).any (fun g => g.dur < 10) = true ∨
      (gatesOf count bs ≠ [] ∧ (cycleNs (gatesOf count bs) < 1000 ∨ 10 ^ 9 < cycleNs (gatesOf count bs)))) := by
    rw [plain]
    rcases cycle with empty | ⟨min, max⟩
    · simp [empty]
    · simp only [Bool.false_eq_true, noShort, false_or]
      omega
  rw [loadGates, checked_ok (ck_false _ _ legal)]

/-- On a physical function's admin ring, with a port, a count and a START that are legal, GATE_LOAD reads its list. -/
theorem gateLoad_ready {e : Entry} {addr : Nat} (ready : Ready s e len1 false) (pf : isPf e.fn.idx = true) (admin : e.ring = 0) (port : q < 8)
    (entries : count ≤ 1024) (near : start ≤ s.clk.time + 10 ^ 10) : exec (.gateLoad e q count addr start) s = .next
      ((s.begun e 0x180 (.gateLoad e q count addr start)).readHostFor e.fn.idx (s.opId e) addr (8 * count)
        (loadGates q count start e.fn.idx (s.opId e))) := by
  rw [exec_gateLoad, execGateLoad, startEntry_ready ready rfl, effGateLoad, checked_ok]
  · rfl
  · rw [pfAdminOnly, begun_clk, ck_false _ _ (by simp [pf, admin]), ck_false _ _ (by omega)]
    rfl

/-! ### Takeover (R190, R193) -/

theorem gateTakeover_due {p : GatePend} (waits : (s.port q).pend = some p) (due : p.at_ ≤ s.clk.time) : s.gateTakeover q =
    (s.modPort q fun x => { x with pend := none, gates := p.list, running := p.list ≠ [], anchor := p.at_, cursor := 0 }).endOp p.fn p.op
      (if p.late then .late else .ok) 0 (p.at_ % 2 ^ 32) := by
  rw [State.gateTakeover, waits]
  exact if_pos due

theorem gateTakeover_early (early : ∀ p : GatePend, (s.port q).pend = some p → s.clk.time < p.at_) : s.gateTakeover q = s := by
  unfold State.gateTakeover
  split
  case h_1 => rfl
  case h_2 p waits => exact if_neg (Nat.not_le.mpr (early p waits))

end

/-! ### Stops (R198) -/

section
variable {s : State} {e : Entry} {scope arg : Nat}

/-- A scope that exists passes the checks of Q_STOP and Q_START. -/
theorem stopChecks_begun (op : Nat) (c : Instr)
    (named : scope = 0 ∧ s.known e.fn.idx arg = true ∨ scope = 1 ∧ arg ≤ 6 ∨ scope = 2 ∧ arg = 0) :
    stopChecks (s.begun e op c) e.fn.idx scope arg = [] := by
  rw [stopChecks, begun_known]
  rcases named with ⟨rfl, known⟩ | ⟨rfl, cls⟩ | ⟨rfl, rfl⟩
  · simp [ck, known]
  · simp [ck, cls]
  · simp [ck]

end

/-! ### Samples (R199) -/

@[simp] theorem sampleRec_length (s : State) (q p c : Nat) : (s.sampleRec q p c).length = 16 := by simp [State.sampleRec]

/-- The 64 records of a partition, those of ports not granted zero. -/
def State.sampleRecs (s : State) (p granted : Nat) : List Byte :=
  (List.range 8).flatMap fun q => (List.range 8).flatMap fun c => if granted.testBit q then s.sampleRec q p c else List.replicate 16 0

theorem sampleRecs_length (s : State) (p granted : Nat) : (s.sampleRecs p granted).length = 1024 := by
  have one : ∀ q c : Nat, (if granted.testBit q then s.sampleRec q p c else List.replicate 16 0).length = 16 := fun q c => by split <;> simp
  simp only [State.sampleRecs, List.length_flatMap, one]
  rfl

/-- The largest delays of a partition on the ports granted start again. -/
def State.sampleReset (s : State) (p granted : Nat) : State :=
  (bitList 8 granted).foldl (fun s q => (List.range 8).foldl (fun s c => s.modClsq (qKey q p c) fun x => { x with largest := 0 }) s) s

/-- What a host range waits for has nothing to do with the queues. -/
theorem sampleReset_missing (s : State) (p granted f a n : Nat) (w : Bool) :
    (s.sampleReset p granted).missing f a n w = s.missing f a n w := by
  have same (v : State) (k : Nat) : (v.modClsq k fun x => { x with largest := 0 }).missing f a n w = v.missing f a n w := rfl
  exact List.foldlRecOn (motive := fun u : State => u.missing f a n w = s.missing f a n w) _ _ rfl fun u kept q _ =>
    List.foldlRecOn (motive := fun u : State => u.missing f a n w = s.missing f a n w) _ _ kept fun v kept c _ => (same v _).trans kept

/-- The ports that a function samples: those granted to its partition. -/
def State.sampledPorts (s : State) (f : Nat) : Nat := if isPf f then 0 else (s.part (partOf f)).cur.ports

section
variable {s : State} {f id addr : Nat}

/-- The records are those of the delays before they start again. -/
theorem effQSample_eq : effQSample addr f id s = s.withHost f id [(addr, 1024, true)] fun t =>
    (t.sampleReset (partOf f) (s.sampledPorts f)).writeRecord f id addr (s.sampleRecs (partOf f) (s.sampledPorts f)) 0 := rfl

theorem effQSample_parks {p : Nat} (miss : s.missing f addr 1024 true = some p) : effQSample addr f id s = s.parkOp f id p true := by
  rw [effQSample_eq, withHost_parks (p := (p, true)) (by simp [State.firstMiss, miss])]

theorem effQSample_there (there : s.missing f addr 1024 true = none) : effQSample addr f id s =
    ((s.sampleReset (partOf f) (s.sampledPorts f)).hostWrite f addr (s.sampleRecs (partOf f) (s.sampledPorts f))).endOp f id .ok 1024 0 := by
  have usable : Usable (s.sampleReset (partOf f) (s.sampledPorts f)) f [(addr, (s.sampleRecs (partOf f) (s.sampledPorts f)).length, true)] := by
    simp [Usable, sampleRecs_length, sampleReset_missing, there]
  rw [effQSample_eq, withHost_goes (by simp [State.firstMiss, there]), writeRecord_ok usable, sampleRecs_length]

end

/-- Settles O19: GATE_LOAD by whether its page is there, a takeover by whether it is due, stops by their scope, and Q_SAMPLE by its page. -/
theorem gatesAndStops : Obligations.GatesAndStops := by
  refine ⟨fun e q count addr start s ready pf admin port entries near => ?_, fun q now s => ?_, fun e scope arg s ready named => ?_,
    fun e addr s ready => ?_⟩
  · intro f id t bs l u
    rw [gateLoad_ready ready pf admin port entries near]
    refine ⟨fun p miss => congrArg Host.Outcome.next (readHostFor_parks miss), fun there sound plain long cycle => congrArg Host.Outcome.next ?_⟩
    exact (readHostFor_goes there sound).trans (loadGates_legal plain long cycle)
  · intro t
    rw [exec_gateTakeover, execGateTakeover, exec_gateEntryAdvance]
    exact ⟨fun p waits due => congrArg Host.Outcome.next (gateTakeover_due (s := t) waits due),
      fun early => congrArg Host.Outcome.next (gateTakeover_early (s := t) early), rfl⟩
  · intro f id stop go
    refine ⟨?_, ?_⟩
    · rw [exec_qStop, execQStop, startEntry_ready ready rfl, effQStop, checked_ok (stopChecks_begun _ _ named)]
    · rw [exec_qStart, execQStart, startEntry_ready ready rfl, effQStart, checked_ok (stopChecks_begun _ _ named)]
  · intro f id t granted bs u
    rw [exec_qSample, execQSample, startEntry_ready ready rfl]
    exact ⟨fun p miss => congrArg Host.Outcome.next (effQSample_parks miss), fun there => congrArg Host.Outcome.next (effQSample_there there)⟩

end Sys2Proof.Machine
end

section
/-!
Register writes (R184, R529, R533, R599-R601): what a write of the firmware does by the register it names and by the journal's room, and the two
registers of stand-alone operation.
-/

namespace Sys2Proof.Machine

/-! ### Writes and the journal (R440) -/

section
variable {s : State} {o : Origin} {off width old new : Nat} {act : State → State}

/-- A write that is ignored is journalled, and nothing else. -/
theorem setupWrite_ignored (room : s.jrnl.full = false) :
    s.setupWrite o off width true old new act = s.jCommit o (.setup off width true old new) := by
  simp [State.setupWrite, room]

/-- With a full journal every write is discarded and counted. -/
theorem setupWrite_refused {ignored : Bool} (full : s.jrnl.full = true) : s.setupWrite o off width ignored old new act =
    { s with jrnl := { s.jrnl with refused := satAdd 0xFFFF s.jrnl.refused 1 } } := by
  simp [State.setupWrite, full]

end

/-! ### The firmware's writes (R599-R601) -/

section
variable {s : State} {off v : Nat}

/-- A write of the firmware below the MGMT registers wakes nothing. -/
theorem saigaTouch_below (below : off < 0x3000000) : s.saigaTouch off = s := by
  rw [State.saigaTouch, if_neg (by omega)]

theorem regOf_held {r : Reg} (aligned : off % 8 = 0) (held : heldReg off = some r) : regOf off = some r := by
  rw [regOf, if_neg (not_not.mpr aligned), held]

/-- The firmware reaches the map of a physical function. -/
theorem setupRegWrite_firmware : exec (.setupRegWrite .firmware off 8 v) s = .next (s.pfWrite .firmware off 8 v).settle := by
  rw [exec_setupRegWrite, execSetupRegWrite]
  rfl

section
variable (aligned : off % 8 = 0) (works : s.regDown off = false)
include aligned works

/-- A register held whole takes a write of eight bytes. -/
theorem pfWrite_held {mask : Nat} {wide : Bool} (below : off < 0x3000000) (held : heldReg off = some (.held mask wide)) :
    s.pfWrite .firmware off 8 v = s.heldWrite .firmware off 8 (v % 2 ^ 64) mask := by
  have base : off / 8 * 8 = off := by omega
  have takes : (Reg.held mask wide).takes off 8 = true := by simp [Reg.takes, aligned]
  rw [State.pfWrite]
  dsimp only
  rw [works, base, regOf_held aligned held]
  dsimp only
  rw [saigaTouch_below below, takes]
  rfl

/-- A write of no register, outside the journal's, is journalled as ignored. -/
theorem pfWrite_unmapped (room : s.jrnl.full = false) (outside : off < 0x2400000 ∨ 0x2800000 ≤ off) (unmapped : regOf off = none) :
    s.pfWrite .firmware off 8 v = s.jCommit .firmware (.setup off 8 true 0 (v % 2 ^ 64)) := by
  have base : off / 8 * 8 = off := by omega
  rw [State.pfWrite]
  dsimp only
  rw [works, base, unmapped]
  dsimp only
  rw [if_neg Bool.false_ne_true, State.mapDrop, if_neg (by omega), setupWrite_ignored room]
  rfl

end
end

/-! ### Stand-alone operation (R529, R533) -/

section
variable {s : State} {o : Origin}

theorem modeExit_standAlone (room : s.jrnl.full = false) (sa : s.mgmt.sa = true) :
    let t := s.jCommit o (.setup 0x3000008 8 false 0 1)
    s.modeWrite o 8 1 =
      { t with flts := t.flts.drop 255, links := (List.range 3).foldl (fun (l : AMap Link) i => amod l (i + 1) {} fun x => { x with detect := true }) t.links,
               mgmt := { t.mgmt.bcbWrite (fun b => { b with sa := false }) with sa := false } } := by
  have meant : decide (1 % 2 = 0 ∨ (! s.mgmt.sa) = true) = false := by simp [sa]
  intro t
  rw [State.modeWrite, meant, setupWrite_acts room]

theorem modeExit_attached (room : s.jrnl.full = false) (sa : s.mgmt.sa = false) :
    s.modeWrite o 8 1 = s.jCommit o (.setup 0x3000008 8 true 0 1) := by
  have ignored : decide (1 % 2 = 0 ∨ (! s.mgmt.sa) = true) = true := by simp [sa]
  rw [State.modeWrite, ignored, setupWrite_ignored room]

/-- The fields of a value that MGMT_SA_CFG takes with EN: its sizes as they were, and EN. -/
theorem saCfg_fields {sq cq : Nat} (hsq : sq < 32) (hcq : cq < 32) :
    let v := sq + 2 ^ 8 * cq
    let w := v % 2 ^ 32 ||| 2 ^ 31
    w = v + 2 ^ 31 ∧ bitsOf w 0 5 = sq ∧ bitsOf w 8 5 = cq ∧ w.testBit 31 = true := by
  intro v w
  have sum : w = v + 2 ^ 31 := by
    have small : v % 2 ^ 32 = v := by omega
    have disjoint : 2 ^ 31 * 1 + v = 2 ^ 31 * 1 ||| v := Nat.two_pow_add_eq_or_of_lt (by omega) 1
    calc v % 2 ^ 32 ||| 2 ^ 31
      _ = 2 ^ 31 * 1 ||| v := by rw [small, Nat.or_comm, Nat.mul_one]
      _ = v + 2 ^ 31 := by rw [← disjoint, Nat.mul_one, Nat.add_comm]
  refine ⟨sum, ?_, ?_, ?_⟩
  · rw [bitsOf, Nat.shiftRight_eq_div_pow, sum]
    omega
  · rw [bitsOf, Nat.shiftRight_eq_div_pow, sum]
    omega
  · rw [Nat.testBit_eq_decide_div_mod_eq, sum, decide_eq_true_eq]
    omega

/-- R529: EN creates ring pair 1 of link 0 where the sizes are legal and the ring pair is FREE, and sets ERR elsewhere. -/
theorem saCfgWrite_enable {sq cq : Nat} (room : s.jrnl.full = false) (hsq : sq < 32) (hcq : cq < 32) :
    let v := sq + 2 ^ 8 * cq
    let old := s.reg 0x3000020 + 2 ^ 30 * bit s.mgmt.saErr + 2 ^ 31 * bit s.mgmt.saEn
    let t := (s.jCommit o (.setup 0x3000020 8 false old (v + 2 ^ 31))).setReg 0x3000020 v
    s.saCfgWrite o 8 (v % 2 ^ 32 ||| 2 ^ 31) =
      if 6 ≤ sq ∧ sq ≤ 16 ∧ 6 ≤ cq ∧ cq ≤ 16 ∧ (s.ring 0 1).state = .free then
        { t with mgmt := { t.mgmt with saEn := true, saErr := false } }.modFn 0 fun x =>
          { x with rings := aset x.rings 1 (newRing sq cq 0 (t.reg 0x3000010) (t.reg 0x3000018) true) }
      else { t with mgmt := { t.mgmt with saErr := true } } := by
  intro v old t
  obtain ⟨sum, fsq, fcq, en⟩ := saCfg_fields hsq hcq
  have ring : t.ring 0 1 = s.ring 0 1 := by
    rw [State.ring, State.fn, setReg_fns, ← State.fn, jCommit_rings, State.ring]
  rw [State.saCfgWrite, fsq, fcq, setupWrite_acts room, en, sum, ← ring]
  rfl

end

/-- Settles O51: a register by what it is and by the journal's room, MGMT_MODE.EXIT by SA, and MGMT_SA_CFG.EN by its sizes and ring pair 1. -/
theorem registerWrites : Obligations.RegisterWrites := by
  refine ⟨fun off mask v wide s below aligned works => ?_, fun o s room sa => ?_, fun o s room sa => ?_, fun o sq cq s room hsq hcq => ?_⟩
  · intro w
    rw [setupRegWrite_firmware]
    refine ⟨fun room held => ?_, fun full held => ?_, fun room outside unmapped => ?_⟩
    · rw [pfWrite_held aligned works below held, State.heldWrite, setupWrite_acts room]
    · rw [pfWrite_held aligned works below held, State.heldWrite, setupWrite_refused full]
    · rw [pfWrite_unmapped aligned works room outside unmapped]
  · rw [exec_mgmtModeExit, execMgmtModeExit, modeExit_standAlone room sa]
  · rw [exec_mgmtModeExit, execMgmtModeExit, modeExit_attached room sa]
  · intro v old t r
    have written := saCfgWrite_enable (o := o) room hsq hcq
    rw [exec_mgmtSaEnable, execMgmtSaEnable]
    exact ⟨fun sqMin sqMax cqMin cqMax free => congrArg Host.Outcome.next (written.trans (if_pos ⟨sqMin, sqMax, cqMin, cqMax, free⟩)),
      fun illegal => congrArg Host.Outcome.next (written.trans (if_neg illegal))⟩

end Sys2Proof.Machine
end

section
/-!
Herds (R235-R239, R447-R455): the commands of an entry that is ready, the timers at the first moment they act, and how a herd goes on once the
connections of its new epoch stand.
-/

namespace Sys2Proof.Machine

@[simp] theorem tick_herd (s : State) (n f i : Nat) : (s.tick n).herd f i = s.herd f i := rfl

/-- Starting an entry leaves every herd. -/
@[simp] theorem begun_herd (s : State) (e : Entry) (op : Nat) (c : Instr) (f i : Nat) : (s.begun e op c).herd f i = s.herd f i := by simp [State.herd]

/-! ### Commands (R236, R238, R239) -/

section
variable {s : State} {e : Entry} {i f id : Nat}

/-- R236: the herd is formed of the members that its table lists. -/
theorem herdCreate_ready {b : HerdBody} (ready : Ready s e len2 false) (there : Usable s e.fn.idx [(b.mtab, 32 * b.nmemb, false)]) :
    let t := s.begun e 0x200 (.herdCreate e b)
    let bs := t.hostBytes e.fn.idx b.mtab (32 * b.nmemb)
    t.herdChecks e.fn.idx b = [] → t.locPoison e.fn.idx false b.mtab (32 * b.nmemb) = none → membsRsv b.nmemb bs = false →
    exec (.herdCreate e b) s = .next ((t.hostReadFill e.fn.idx b.mtab (32 * b.nmemb)).herdForm e.fn.idx (s.opId e) b (membsOf b.nmemb bs)) := by
  intro t bs checks sound plain
  rw [exec_herdCreate, execHerdCreate, startEntry_ready ready rfl, effHerdCreate, checked_ok checks, readHostFor_ok (usable_begun there) sound,
    checked_ok (ck_false _ _ (by rw [plain]; exact Bool.false_ne_true))]

/-- R238: HERD_DESTROY of a READY herd frees it. -/
theorem effHerdDestroy_ready (st : (s.herd f i).state = .ready) : effHerdDestroy i f id s = (s.herdFree f i).endOp f id .ok 0 0 := by
  rw [effHerdDestroy]
  dsimp only
  rw [st]
  rfl

/-- R238: HERD_DESTROY of a RUNNING herd drains it and flushes its queue. -/
theorem effHerdDestroy_running (st : (s.herd f i).state = .running) : effHerdDestroy i f id s =
    (s.herd f i).queue.foldl (fun s c => s.endOp f c.op .flushed 0 0)
      (s.modHerd f i fun h => { h with state := .draining, destroy := some id, queue := [] }) := by
  rw [effHerdDestroy]
  dsimp only
  rw [st]
  rfl

/-- R239: HERD_QUERY of a herd that exists writes its record. -/
theorem herdQuery_ready {addr : Nat} (ready : Ready s e len1 false) (present : (s.herd e.fn.idx i).state ≠ .free)
    (there : Usable s e.fn.idx [(addr, (s.herd e.fn.idx i).record.length, true)]) :
    exec (.herdQuery e i addr) s = .next
      (((s.begun e 0x202 (.herdQuery e i addr)).hostWrite e.fn.idx addr (s.herd e.fn.idx i).record).endOp e.fn.idx (s.opId e) .ok
        (s.herd e.fn.idx i).record.length 0) := by
  rw [exec_herdQuery, execHerdQuery, startEntry_ready ready rfl, effHerdQuery, begun_herd, checked_ok (ck_false _ _ present),
    writeRecord_ok (usable_begun there)]

end

/-! ### Timers (R238, R447, R448, R453, R454) -/

section
variable {s : State} {f i : Nat}

theorem herdFormTimeout_due (st : (s.herd f i).state = .forming) (due : (s.herd f i).since + s.lostTime ≤ s.now) :
    s.herdFormTimeout f i = (s.herdFree f i).endOp f (s.herd f i).op .peerLost 0 0 := if_pos ⟨st, due⟩

/-- R447: a heartbeat goes to each neighbour whose connection carries traffic. -/
theorem heartbeat_due (beats : s.herdBeats f i = true) (due : (s.herd f i).hbAt + (s.herd f i).hbNs ≤ s.now) :
    s.heartbeat f i = (s.herd f i).neighbours.foldl (fun s r => match s.herdConn f i r with
      | some hd => s.sendCtl f hd (s.conn f hd).turnPath .probe true
      | none => s) (s.modHerd f i fun h => { h with hbAt := s.now }) := if_pos ⟨beats, due⟩

/-- R448: every neighbour not heard of for three intervals is declared. -/
theorem heartbeatMiss_beats (beats : s.herdBeats f i = true) : s.heartbeatMiss f i =
    ((s.herd f i).neighbours.filter fun r => agetD (s.herd f i).seen r (s.herd f i).since + 3 * (s.herd f i).hbNs ≤ s.now).foldl
      (fun s r => s.herdDeclare f i r) s := if_pos beats

section
variable (st : (s.herd f i).state = .reforming) (agreeing : (s.herd f i).commit = none)
include st agreeing

theorem proposeLap_due (proposer : (s.herd f i).proposer = true) (own : (s.herd f i).origin = some (s.herd f i).me)
    (back : (s.herd f i).lapBack = true) (due : (s.herd f i).lapAt + 100000000 ≤ s.now) : s.proposeLap f i = s.startLap f i :=
  if_pos ⟨st, by rw [agreeing]; rfl, proposer, own, back, due⟩

/-- R453: a proposer whose last lap was clean commits with a majority. -/
theorem settleHerd_due {k : Token} (proposer : (s.herd f i).proposer = true) (own : (s.herd f i).origin = some (s.herd f i).me)
    (back : (s.herd f i).lapBack = true) (clean : (s.herd f i).clean = some k) (due : (s.herd f i).since + s.settleNs ≤ s.now)
    (majority : (s.herd f i).size < 2 * ((s.herd f i).members.filter fun r => ¬ k.bits.contains r).length) :
    s.settleHerd f i = (s.takeCommit f i k).heldTokens f i := by
  rw [State.settleHerd]
  dsimp only
  rw [clean]
  exact if_pos ⟨st, by rw [agreeing]; rfl, proposer, own, back, due, majority⟩

theorem agreeHerd_due (due : (s.herd f i).since + s.settleNs + s.agreeNs ≤ s.now) : s.agreeHerd f i = s.herdBreak f i :=
  if_pos ⟨st, by rw [agreeing]; rfl, due⟩

end
end

/-! ### Going on in the new epoch (R455) -/

/-- A herd whose new epoch stands leaves REFORMING, and takes the tokens held for it. -/
def State.herdGoOn (s : State) (f i : Nat) : State :=
  (s.modHerd f i fun h =>
    { h with state := if h.destroy.isSome then .draining else if (s.herd f i).run.isSome ∨ (s.herd f i).queue ≠ [] then .running else .ready,
             commit := none, forward := h.forward.filter (·.1), proposal := none,
             declared := [], proposer := false, origin := none, clean := none, hbAt := s.now,
             seen := (List.range h.membs.length).map fun r => (r, s.now) }).heldTokens f i

/-- A paused collective under the plan of the herd's new epoch. -/
def Coll.resumed (c : Coll) (g : Herd) (k : Token) (src : List (Nat × Nat)) : Coll :=
  let x := planOf g c
  { c with pieces := c.replan x k src, reforms := c.reforms + 1, alg := c.body.runAlg c.opcode g.size (evenGroups g.groups),
           bytes := c.bytesLeft (c.replan x k src),
           epochs := c.epochs ++ [(g.mepoch, g.rank, k.cbase.getD (2 ^ 64 - 1))], tokens := if isRows c.opcode then c.tokens else [],
           upSent := false, downSent := false, rowsOut := if isRows c.opcode then g.members else [] }

/-- The paused collective c goes on under its new plan; it halts where the quota leaves no connection. -/
def State.collResume (s : State) (f i : Nat) (c : Coll) (k : Token) (src : List (Nat × Nat)) : State :=
  let v := s.dropColl f i
  let g := v.herd f i
  let c' := c.resumed g k src
  let opened := (v.modRun f i fun _ => c').herdOpenAll f i ((c'.peers g).map g.orig)
  if opened.2 then (opened.1.collHeld f i).collAdvance f i else opened.1.collHalt f i .peerLost 0

/-- Where every connection of its new plan is open or being opened, it takes what was held for it and goes on. -/
theorem collResume_opened {s w : State} {f i : Nat} {c : Coll} {k : Token} {src : List (Nat × Nat)} :
    let v := s.dropColl f i
    let c' := c.resumed (v.herd f i) k src
    (v.modRun f i fun _ => c').herdOpenAll f i ((c'.peers (v.herd f i)).map (v.herd f i).orig) = (w, true) →
    s.collResume f i c k src = (w.collHeld f i).collAdvance f i := by
  intro v c' opened
  rw [State.collResume, opened]
  rfl

/-- With a collective paused it goes on; with none, a herd that drains ends, and any other is the herd of the new epoch. -/
theorem herdResume_joined {s : State} {f i : Nat} {k : Token} {src : List (Nat × Nat)} (st : (s.herd f i).state = .reforming)
    (agreed : (s.herd f i).commit = some k) (joined : s.herdJoined f i = true) :
    let u := s.herdGoOn f i
    s.herdResume f i src = (u.herd f i).run.elim ((s.herd f i).destroy.elim u fun id => (u.herdFree f i).endOp f id .ok 0 0)
      fun c => u.collResume f i c k src := by
  intro u
  unfold State.herdResume
  extract_lets h busy _ goneOn dropped g
  have goesOn : goneOn = u := rfl
  clear_value goneOn
  subst goesOn
  split
  case h_1 t _ commit =>
    obtain rfl : k = t := Option.some.inj (agreed.symm.trans commit)
    rw [if_neg (not_not.mpr joined)]
    split
    case h_1 id idle draining => rw [idle, Option.elim_none, draining, Option.elim_some]
    case h_2 idle live => rw [idle, Option.elim_none, live, Option.elim_none]
    case h_3 c paused => rw [paused, Option.elim_some, State.collResume, Coll.resumed]
  case h_2 other => exact absurd agreed (other k st)

/-- Settles O23: one lemma a command, a timer, and a way in which a herd goes on. -/
theorem herds : Obligations.Herds := by
  refine ⟨fun e s => ⟨fun b ready there => herdCreate_ready ready there,
      fun i ready => ⟨fun st => ?_, fun st => ?_, fun addr => herdQuery_ready ready⟩⟩,
    fun fn i now s => ⟨fun st due => ?_, fun beats => ⟨fun due => ?_, ?_⟩,
      fun st agreeing => ⟨fun proposer own back => ⟨fun due => ?_, fun k clean due majority => ?_⟩, fun due => ?_⟩,
      fun k src st agreed joined => ⟨fun idle => ⟨fun live => ?_, fun id draining => ?_⟩, fun c w paused opened => ?_⟩⟩⟩
  · rw [exec_herdDestroy, execHerdDestroy, startEntry_ready ready rfl, effHerdDestroy_ready ((congrArg _ (begun_herd ..)).trans st)]
  · rw [exec_herdDestroy, execHerdDestroy, startEntry_ready ready rfl, effHerdDestroy_running ((congrArg _ (begun_herd ..)).trans st), begun_herd]
  · rw [exec_herdFormTimeout, execHerdFormTimeout, herdFormTimeout_due (s := s.tick now) st due, tick_herd]
  · rw [exec_heartbeatTimer, execHeartbeatTimer, heartbeat_due (s := s.tick now) beats due]
    rfl
  · rw [exec_heartbeatMiss, execHeartbeatMiss, heartbeatMiss_beats (s := s.tick now) beats]
    rfl
  · rw [exec_proposeLapTimer, execProposeLapTimer, proposeLap_due (s := s.tick now) st agreeing proposer own back due]
  · rw [exec_settleTimer, execSettleTimer, settleHerd_due (s := s.tick now) st agreeing proposer own back clean due majority]
  · rw [exec_agreeTimer, execAgreeTimer, agreeHerd_due (s := s.tick now) st agreeing due]
  · have idle : ((s.herdGoOn fn.idx i).herd fn.idx i).run = none := idle
    rw [exec_collectiveResume, execCollectiveResume, herdResume_joined st agreed joined, idle, Option.elim_none, live]
    rfl
  · have idle : ((s.herdGoOn fn.idx i).herd fn.idx i).run = none := idle
    rw [exec_collectiveResume, execCollectiveResume, herdResume_joined st agreed joined, idle, Option.elim_none, draining,
      Option.elim_some]
    rfl
  · have paused : ((s.herdGoOn fn.idx i).herd fn.idx i).run = some c := paused
    rw [exec_collectiveResume, execCollectiveResume, herdResume_joined st agreed joined, paused, Option.elim_some,
      collResume_opened (s := s.herdGoOn fn.idx i) opened]

end Sys2Proof.Machine
end

section
/-!
Collectives (R242, R243, R257): what a COLL command that is ready and whose checks pass queues, and how the oldest queued collective starts.
-/

namespace Sys2Proof.Machine

/-! ### Posting (R242, R243, R257) -/

/-- A collective joins the end of its herd's queue. -/
def State.collQueued (s : State) (f id op : Nat) (b : CollBody) : State :=
  (s.modOp f id fun o => { o with ltally := ltOf b.ltEn b.ltally }).modHerd f b.herd fun h =>
    { h with queue := h.queue ++ [{ op := id, opcode := op, body := b }] }

section
variable {s t : State} {e : Entry} {b : CollBody} {f id op : Nat} {c : Instr}

/-- A collective that its herd does not hold yet joins the queue of a living herd after its checks and those of its tables. -/
theorem effColl_queued (new : (s.herd f b.herd).holds id = false) (checks : s.collChecks f e.ring op b = [])
    (tables : ∀ k : State → State, s.collTables f id op b k = k t) (whole : (t.herd f b.herd).state ≠ .broken)
    (stays : (t.herd f b.herd).state ≠ .draining) : effColl op e b f id s = t.collQueued f id op b := by
  rw [effColl, new, if_neg Bool.false_ne_true, checked_ok checks, tables]
  dsimp only
  rw [checked_ok (by rw [ck_false _ _ whole, ck_false _ _ stays]; rfl)]
  rfl

/-- A collective of no rows reads no table. -/
theorem collTables_dense (dense : isRows op = false) (k : State → State) : s.collTables f id op b k = k s := by
  rw [State.collTables, dense]
  exact if_pos Bool.false_ne_true

/-- R257: DISPATCH and COMBINE read their route table, then their expert map. -/
theorem collTables_rows (rows : isRows op = true) (there : Usable s f [(b.rtab, 4 * b.ntok * b.k, false)])
    (sound : s.locPoison f false b.rtab (4 * b.ntok * b.k) = none) :
    let u := s.hostReadFill f b.rtab (4 * b.ntok * b.k)
    let v := u.hostReadFill f b.emap (2 * b.nexp)
    Usable u f [(b.emap, 2 * b.nexp, false)] → u.locPoison f false b.emap (2 * b.nexp) = none →
    tablesBad b (v.herd f b.herd).size (s.hostBytes f b.rtab (4 * b.ntok * b.k)) (u.hostBytes f b.emap (2 * b.nexp)) = false →
    ∀ k : State → State, s.collTables f id op b k = k v := by
  intro u v mapThere mapSound legal k
  rw [State.collTables, rows, if_neg (not_not.mpr rfl), readHostFor_ok there sound, readHostFor_ok mapThere mapSound,
    checked_ok (ck_false _ _ (by rw [legal]; exact Bool.false_ne_true))]

section
variable (ready : Ready s e len2 false) (new : (s.herd e.fn.idx b.herd).holds (s.opId e) = false)
  (arm : exec c s = .next (s.startEntry e op len2 c (effColl op e b e.fn.idx)).settle)
  (checks : (s.begun e op c).collChecks e.fn.idx e.ring op b = [])
include ready new arm checks

/-- A collective of no rows is queued once its checks pass. -/
theorem coll_dense_ready (dense : isRows op = false) (whole : (s.herd e.fn.idx b.herd).state ≠ .broken)
    (stays : (s.herd e.fn.idx b.herd).state ≠ .draining) :
    exec c s = .next ((s.begun e op c).collQueued e.fn.idx (s.opId e) op b).settle := by
  rw [← begun_herd s e op c] at new whole stays
  rw [arm, startEntry_ready ready rfl, effColl_queued new checks (collTables_dense dense) whole stays]

/-- R257: DISPATCH and COMBINE are queued once their tables are read and are legal too. -/
theorem coll_rows_ready (rows : isRows op = true) (there : Usable s e.fn.idx [(b.rtab, 4 * b.ntok * b.k, false)])
    (sound : (s.begun e op c).locPoison e.fn.idx false b.rtab (4 * b.ntok * b.k) = none) :
    let t := s.begun e op c
    let u := t.hostReadFill e.fn.idx b.rtab (4 * b.ntok * b.k)
    let v := u.hostReadFill e.fn.idx b.emap (2 * b.nexp)
    Usable u e.fn.idx [(b.emap, 2 * b.nexp, false)] → u.locPoison e.fn.idx false b.emap (2 * b.nexp) = none →
    tablesBad b (v.herd e.fn.idx b.herd).size (t.hostBytes e.fn.idx b.rtab (4 * b.ntok * b.k)) (u.hostBytes e.fn.idx b.emap (2 * b.nexp)) = false →
    (v.herd e.fn.idx b.herd).state ≠ .broken → (v.herd e.fn.idx b.herd).state ≠ .draining →
    exec c s = .next (v.collQueued e.fn.idx (s.opId e) op b).settle := by
  intro t u v mapThere mapSound legal whole stays
  rw [← begun_herd s e op c] at new
  rw [arm, startEntry_ready ready rfl,
    effColl_queued new checks (collTables_rows rows (usable_begun there) sound mapThere mapSound legal) whole stays]

end
end

/-! ### Starting (R242, R243, R253) -/

/-- A collective as it starts: it takes the herd's number, and its plan under the herd's epoch; `s` holds its residual (R228). -/
def Coll.started (c : Coll) (s : State) (f : Nat) (h : Herd) : Coll :=
  let b := c.body
  let c1 := { c with cseq := h.cseq, sig := b.sig c.opcode (b.clog h), clog := b.clog h, alg := b.runAlg c.opcode h.size (evenGroups h.groups),
                     owners := h.members, epochs := [(h.mepoch, h.rank, 0)], rowsOut := if isRows c.opcode then h.members else [],
                     cur := if b.qen ∧ b.qblk.ef ∧ ¬ b.qblk.reset then leNat (s.sliceRead f b.qblk.resOff 1) % 2 else 0 }
  { c1 with pieces := (planOf h c1).pieces, chunks := (planOf h c1).chunkCount }

/-- The herd runs the started collective c2, and q is what is left of its queue: c2 halts where the quota leaves no connection. -/
def State.collRun (s : State) (f i : Nat) (c2 : Coll) (q : List Coll) : State :=
  let h := s.herd f i
  let t := s.modHerd f i fun h => { h with state := .running, run := some c2, queue := q, cseq := (h.cseq + 1) % 2 ^ 32 }
  let opened := (((t.resetResidual f c2 h.size).collCircuits f i).wakeBlocks h.blockMask).herdOpenAll f i ((c2.peers h).map h.orig)
  if opened.2 then (opened.1.collHeld f i).collAdvance f i else opened.1.collHalt f i .peerLost 0

/-- Where every connection of its plan is open or being opened, it takes what was held for it and goes on. -/
theorem collRun_opened {s u : State} {f i : Nat} {c2 : Coll} {q : List Coll} :
    let h := s.herd f i
    let t := s.modHerd f i fun h => { h with state := .running, run := some c2, queue := q, cseq := (h.cseq + 1) % 2 ^ 32 }
    (((t.resetResidual f c2 h.size).collCircuits f i).wakeBlocks h.blockMask).herdOpenAll f i ((c2.peers h).map h.orig) = (u, true) →
    s.collRun f i c2 q = (u.collHeld f i).collAdvance f i := by
  intro h t opened
  rw [State.collRun, opened]
  rfl

/-- R242's checks are made again under the epoch that the oldest collective starts in: one that fails ends so and takes no number. -/
theorem collStart_oldest {s : State} {f i : Nat} {c : Coll} {q : List Coll} (free : (s.herd f i).run = none)
    (oldest : (s.herd f i).queue = c :: q) (lives : (s.herd f i).state = .ready ∨ (s.herd f i).state = .running) :
    s.collStart f i = (pick (s.collChecks f (s.herd f i).bd.hring c.opcode c.body)).elim (s.collRun f i (c.started s f (s.herd f i)) q)
      fun st => ((s.modHerd f i fun h => { h with queue := q }).endOp f c.op st 0 0).herdAfter f i := by
  have mayStart : ¬ ((s.herd f i).state ≠ .ready ∧ (s.herd f i).state ≠ .running) :=
    fun ⟨notReady, notRunning⟩ => lives.elim notReady notRunning
  unfold State.collStart
  extract_lets h
  split
  case h_1 d r _ queue =>
    obtain ⟨rfl, rfl⟩ : c = d ∧ q = r := List.cons.inj (oldest.symm.trans queue)
    rw [if_neg mayStart]
    split
    case h_1 st fails => rw [fails, Option.elim_some]
    case h_2 pass => rw [pass, Option.elim_none, State.collRun, Coll.started]
  case h_2 other => exact absurd oldest (other c q free)

/-- Settles O24: a command by whether it is of rows, a start by whether its checks still pass. -/
theorem collectives : Obligations.Collectives := by
  refine ⟨fun e b s ready => ?_, fun fn i c q s u => ?_⟩
  · intro f id queued new whole stays
    have dense {op : Nat} {c : Instr} (arm : exec c s = .next (s.startEntry e op len2 c (effColl op e b f)).settle) (noRows : isRows op = false) :
        ∀ t : State, t = s.begun e op c → t.collChecks f e.ring op b = [] → exec c s = .next (queued op t) := by
      rintro t rfl checks
      exact coll_dense_ready ready new arm checks noRows whole stays
    refine ⟨dense (exec_collAllreduce e b s) rfl, dense (exec_collReduceScatter e b s) rfl, dense (exec_collAllgather e b s) rfl,
      dense (exec_collBcast e b s) rfl, dense (exec_collReduce e b s) rfl, dense (exec_collAlltoall e b s) rfl, ?_, dense (exec_collBarrier e b s) rfl⟩
    rintro op c t u v kind rfl checks there sound rfl mapThere mapSound rfl legal
    rcases kind with ⟨rfl, rfl⟩ | ⟨rfl, rfl⟩
    · exact coll_rows_ready ready new (exec_collDispatch e b s) checks rfl there sound mapThere mapSound legal
    · exact coll_rows_ready ready new (exec_collCombine e b s) checks rfl there sound mapThere mapSound legal
  · intro f h b free oldest lives
    rw [exec_collStart, execCollStart, collStart_oldest free oldest lives]
    refine ⟨fun st fails => ?_, fun pass => ?_⟩
    · rw [fails]
      rfl
    · intro c1 c2 t opened
      rw [pass, Option.elim_none, collRun_opened (c2 := c.started s f (s.herd f i)) opened]

end Sys2Proof.Machine
end

section
/-!
Attention sessions (R259-R283): what each command on a session does once its entry is ready and its checks pass, and what a session does as its
queries load, as an ibex block merges a KV block, and as it writes its rows.
-/

namespace Sys2Proof.Machine

/-! ### Sessions of a started entry -/

@[simp] theorem begun_session (s : State) (e : Entry) (op : Nat) (c : Instr) (f i : Nat) : (s.begun e op c).sess f i = s.sess f i := by
  simp [State.sess]

@[simp] theorem begun_sessMatch (s : State) (e : Entry) (op : Nat) (c : Instr) (f sref : Nat) :
    (s.begun e op c).sessMatch f sref = s.sessMatch f sref := by
  simp [State.sessMatch]

/-! ### Commands (R261, R265-R268, R283) -/

theorem checkedFence_ok {s : State} {f id : Nat} {fenced : Bool} {l : List Status} {k : State → State} (checks : l = []) :
    s.checkedFence f id fenced l k = k s := by
  subst checks
  rfl

section
variable {s : State} {e : Entry}

/-- R265, R266: ATTN_OPEN makes its session LOADING and asks for its circuits, whose number the session notes. -/
theorem attnOpen_ready {b : AttnBody} (ready : Ready s e len2 false) :
    let f := e.fn.idx
    let t := s.begun e 0x280 (.attnOpen e b)
    let u := t.modOp f (s.opId e) fun o => { o with ltally := ltOf b.ltEn b.ltally }
    let v := (u.modSess f b.sess fun _ => { state := .loading, body := some b, key := b.skey, op := s.opId e }).attnCircuits f b.sess b
    t.sessOfOp f (s.opId e) = none → t.attnChecks f b = [] → exec (.attnOpen e b) s =
      .next ((v.modSess f b.sess fun x => { x with circuits := v.mesh.circs.length - s.mesh.circs.length }).wakeBlocks b.blks).settle := by
  intro f t u v new checks
  rw [exec_attnOpen, execAttnOpen, startEntry_ready ready rfl, effAttnOpen, new]
  dsimp only
  rw [checkedFence_ok checks]
  rfl

/-- R268: ATTN_FEED of a new feed sends its blocks, into the function's own session or on its connection. -/
theorem attnFeed_ready {b : FeedBody} (ready : Ready s e len1 false) (new : aget (s.fn e.fn.idx).feeds (s.opId e) = none)
    (checks : (s.begun e 0x281 (.attnFeed e b)).feedChecks e.fn.idx b = []) :
    let f := e.fn.idx
    let u := ((s.begun e 0x281 (.attnFeed e b)).modOp f (s.opId e) fun o =>
      { o with ltally := ltOf b.ltEn b.ltally, conn := if b.local_ then none else some b.conn }).modFn f fun x =>
        { x with feeds := aset x.feeds (s.opId e) { body := b } }
    exec (.attnFeed e b) s = .next (if b.local_ then localGo (ceilDiv b.ntok 128 + 1) u f (s.opId e)
      else feedQueue u f (s.opId e) b (List.range (ceilDiv b.ntok 128))).settle := by
  intro f u
  have unknown : ¬ (aget ((s.begun e 0x281 (.attnFeed e b)).fn f).feeds (s.opId e)).isSome := by simp [f, new]
  rw [exec_attnFeed, execAttnFeed, startEntry_ready ready rfl, effAttnFeed, if_neg unknown, checked_ok checks]

section
variable {sref : Nat} (ready : Ready s e len1 false) (here : s.sessMatch e.fn.idx sref = true)
include ready here

/-- R265: ATTN_FINISH makes a session that loads or accepts FINISHING. -/
theorem attnFinish_ready (notFinishing : (s.sess e.fn.idx (srefIndex sref)).state ≠ .finishing)
    (notWriting : (s.sess e.fn.idx (srefIndex sref)).state ≠ .writing) :
    exec (.attnFinish e sref) s = .next ((((s.begun e 0x282 (.attnFinish e sref)).modSess e.fn.idx (srefIndex sref) fun x =>
      { x with state := .finishing, finish := some (s.opId e) }).sessStep e.fn.idx (srefIndex sref)).localFeeds e.fn.idx).settle := by
  rw [exec_attnFinish, execAttnFinish, startEntry_ready ready rfl, effAttnFinish, checked_ok]
  exact ck_false _ _ (by simp [here, notFinishing, notWriting])

/-- R265: ATTN_ABORT ends a session that does not write yet FLUSHED. -/
theorem attnAbort_ready (notWriting : (s.sess e.fn.idx (srefIndex sref)).state ≠ .writing) :
    exec (.attnAbort e sref) s = .next
      (((s.begun e 0x283 (.attnAbort e sref)).sessFail e.fn.idx (srefIndex sref) .flushed 0).endOp e.fn.idx (s.opId e) .ok 0 0).settle := by
  rw [exec_attnAbort, execAttnAbort, startEntry_ready ready rfl, effAttnAbort, checked_ok]
  exact ck_false _ _ (by simp [here, notWriting])

/-- R283: ATTN_QUERY writes its session's record. -/
theorem attnQuery_ready {addr : Nat} (there : Usable s e.fn.idx [(addr, (s.sess e.fn.idx (srefIndex sref)).record.length, true)]) :
    exec (.attnQuery e sref addr) s = .next
      (((s.begun e 0x284 (.attnQuery e sref addr)).hostWrite e.fn.idx addr (s.sess e.fn.idx (srefIndex sref)).record).endOp e.fn.idx (s.opId e)
        .ok (s.sess e.fn.idx (srefIndex sref)).record.length 0) := by
  rw [exec_attnQuery, execAttnQuery, startEntry_ready ready rfl, effAttnQuery, checked_ok (ck_false _ _ (by simp [here])), begun_session,
    writeRecord_ok (usable_begun there)]

end
end

/-! ### Loading (R265, R270) -/

/-- The ranges that a session's queries are read from: those of the rows, then that of the positions. -/
def attnReads (b : AttnBody) : List (Bool × Nat × Nat × Bool) :=
  (queryRanges b).map (fun r => (b.qspace, r.1, r.2, false)) ++ [(false, b.qpos, 4 * b.nq, false)]

theorem attnReads_read (b : AttnBody) : ∀ y ∈ attnReads b, y.2.2.2 = false := by
  simp [attnReads]

section
variable {s : State} {f i : Nat}

/-- Where no page of ranges to read is missing, the session goes on with what they hold, or ends POISON at the first poisoned granule. -/
theorem sessReach_there {l : List (Bool × Nat × Nat × Bool)} {k : State → State} (reads : ∀ y ∈ l, y.2.2.2 = false)
    (there : l.findSome? (fun y => s.locMiss f y.1 y.2.1 y.2.2.1 false) = none) :
    s.sessReach f i l k = (l.findSome? fun y => s.locPoison f y.1 y.2.1 y.2.2.1).elim (k (l.foldl (fun s y => s.locUse f y.1 y.2.1 y.2.2.1) s))
      fun a => s.sessFail f i .poison (granuleDetail a) := by
  have present : (l.findSome? fun y => (s.locMiss f y.1 y.2.1 y.2.2.1 y.2.2.2).map fun p => (p, y.2.2.2)) = none := by
    rw [List.findSome?_eq_none_iff] at there ⊢
    intro y hy
    rw [reads y hy, there y hy, Option.map_none]
  have allRead : (l.filter fun y => ¬ y.2.2.2) = l := List.filter_eq_self.mpr fun y hy => by simp [reads y hy]
  have used : (l.foldl (fun s y => if y.2.2.2 then s else s.locUse f y.1 y.2.1 y.2.2.1) s) = l.foldl (fun s y => s.locUse f y.1 y.2.1 y.2.2.1) s :=
    List.foldl_ext _ _ _ fun t y hy => by simp [reads y hy]
  rw [State.sessReach, present]
  dsimp only
  rw [allRead, used]
  cases l.findSome? fun y => s.locPoison f y.1 y.2.1 y.2.2.1 <;> rfl

/-- The session takes its converted queries and fresh rows; the blocks that hold the rows count what the conversions count (R233, R262). -/
def State.queriesTaken (t : State) (f i : Nat) (b : AttnBody) : State :=
  let qs := (List.range b.nkvh).map fun k => (k, t.queryRows f b k)
  (qs.foldl (fun s q => s.countRows b q.1 (q.2.map (·.2))) t).modSess f i fun y =>
    { y with loaded := true, state := if y.state = .loading then .accepting else y.state, qs := qs.map (fun q => (q.1, queryTile q.2)),
             rows := (List.range b.nkvh).map (fun k => (k, List.replicate (b.nq * b.g) (freshRow b.d))),
             pos := (List.range b.nq).map fun k => leNat (t.hostBytes f (b.qpos + 4 * k) 4) % 2 ^ 24 }

/-- A session that has not loaded ends POISON at a poisoned query, or takes its queries; one that was LOADING counts RTALLY too. -/
theorem attnLoaded_there (st : (s.sess f i).state = .loading ∨ (s.sess f i).state = .finishing) (new : (s.sess f i).loaded = false) :
    let b := (s.sess f i).bd
    (attnReads b).findSome? (fun y => s.locMiss f y.1 y.2.1 y.2.2.1 false) = none →
    s.attnLoaded f i = ((attnReads b).findSome? fun y => s.locPoison f y.1 y.2.1 y.2.2.1).elim
      (let v := ((attnReads b).foldl (fun s y => s.locUse f y.1 y.2.1 y.2.2.1) s).queriesTaken f i b
       (if b.rtEn = true ∧ (s.sess f i).state = .loading then v.tallyAdd f b.rtally 1 else v).sessStep f i)
      fun a => s.sessFail f i .poison (granuleDetail a) := by
  intro b there
  have loads : ¬ (((s.sess f i).state ≠ .loading ∧ (s.sess f i).state ≠ .finishing) ∨ (s.sess f i).loaded = true) := by
    rintro (⟨notLoading, notFinishing⟩ | loaded)
    · exact st.elim notLoading notFinishing
    · exact Bool.false_ne_true (new.symm.trans loaded)
  rw [State.attnLoaded, if_neg loads]
  exact sessReach_there (attnReads_read b) there

/-! ### Merging (R272-R274) -/

/-- The first complete block of an ibex block's head is merged into its rows. -/
theorem kvMerge_first {blk : Nat} {y : KvBlk} (first : (s.sess f i).firstReady blk = some y) (loaded : (s.sess f i).loaded = true)
    (st : (s.sess f i).state = .accepting ∨ (s.sess f i).state = .finishing) (own : (s.sess f i).bd.blks.testBit blk = true)
    (live : s.regionLive (regionOf blk) = true) :
    let out := (s.sess f i).mergeRows blk y
    s.kvMerge f i blk y.id = (((s.countExc blk ((s.sess f i).mergeExc y out)).modSess f i fun x =>
      x.merged_ blk y (out.map (·.1))).sessStep f i).localFeeds f := by
  intro out
  have merges : ¬ (y.id ≠ y.id ∨ ¬ (s.sess f i).loaded ∨ ((s.sess f i).state ≠ .accepting ∧ (s.sess f i).state ≠ .finishing) ∨
      ¬ (s.sess f i).bd.blks.testBit blk ∨ ¬ s.regionLive (regionOf blk)) := by
    rcases st with st | st <;> simp [loaded, st, own, live]
  rw [State.kvMerge, first]
  exact if_neg merges

/-! ### Output (R278-R281) -/

/-- A session ends OK, its ATTN_FINISH before its ATTN_OPEN. -/
theorem sessDone_eq (s : State) (f i : Nat) : s.sessDone f i =
    ((s.sess f i).finish.elim (s.sessFree f i) fun j => (s.sessFree f i).endOp f j .ok 0 0).endOp f (s.sess f i).op .ok
      ((s.sess f i).bd.nq * (s.sess f i).bd.nqh * scalarBytes (s.sess f i).bd.ofmt (s.sess f i).bd.d) (s.sess f i).emptyRows := by
  unfold State.sessDone
  dsimp only
  cases (s.sess f i).finish <;> rfl

/-- The lower address at which the channels of output and statistics, with these pieces left, halt at a poisoned row (R344). -/
def haltAddr (out stat : List OutPiece) : Option Nat := (((out.take 1 ++ stat.take 1).filter (·.bad)).map (·.addr)).min?

/-- What a session writes: each channel up to its first piece that is missing or poisoned, then by what is left. -/
theorem attnWrite_writing (writing : (s.sess f i).state = .writing) :
    let x := s.sess f i
    let p := putPieces f x.bd.ospace (x.outPieces.drop x.written) s
    let q := putPieces f false (x.statPieces.drop x.statted) p.1
    let v := q.1.modSess f i fun y => { y with written := x.outPieces.length - p.2.length, statted := x.statPieces.length - q.2.length }
    s.attnWrite f i = (haltAddr p.2 q.2).elim
      (if p.2 = [] ∧ q.2 = [] then v.sessDone f i else (v.outPark f x.op x.bd.ospace p.2).outPark f x.op false q.2)
      fun a => v.sessFail f i .poison (granuleDetail a) := by
  intro x p q v
  rw [State.attnWrite, if_neg (not_not.mpr writing)]
  change (match haltAddr p.2 q.2 with
    | some a => v.sessFail f i .poison (granuleDetail a)
    | none => if p.2 = [] ∧ q.2 = [] then v.sessDone f i else (v.outPark f x.op x.bd.ospace p.2).outPark f x.op false q.2) = _
  cases haltAddr p.2 q.2 <;> rfl

end

/-- Settles O25: the commands on a session, then its loading, its merges and its output. -/
theorem attentionSessions : Obligations.AttentionSessions := by
  refine ⟨fun e s => ⟨fun b ready => attnOpen_ready ready, ?feeds, ?references⟩, fun fn i s => ⟨?loads, ?merges, ?writes⟩⟩
  case feeds =>
    intro b ready t u new checks
    rw [attnFeed_ready ready new checks]
    exact ⟨fun onChip => by rw [if_pos onChip], fun remote => by rw [if_neg (by simp [remote])]⟩
  case references =>
    intro sref ready here
    exact ⟨attnFinish_ready ready here, attnAbort_ready ready here, fun addr => attnQuery_ready ready here⟩
  case loads =>
    intro st new l there
    rw [exec_attnLoadingDone, execAttnLoadingDone, attnLoaded_there st new there]
    refine ⟨fun a poisoned => ?_, fun sound => ?_⟩
    · rw [attnReads, poisoned, Option.elim_some]
    · rw [attnReads, sound, Option.elim_none]
      rfl
  case merges =>
    rintro blk slot y first rfl loaded st own live
    rw [exec_kvBlockMerge, execKvBlockMerge, kvMerge_first first loaded st own live]
    rfl
  case writes =>
    intro writing p q v
    rw [exec_attnOutputWrite, execAttnOutputWrite, attnWrite_writing writing]
    refine ⟨fun a poisoned => ?_, fun sound left => ?_, fun outDone statDone => ?_⟩
    · rw [show haltAddr p.2 q.2 = some a from poisoned, Option.elim_some]
    · rw [show haltAddr p.2 q.2 = none from sound, Option.elim_none, if_neg (not_and_or.mpr left)]
    · have sound : haltAddr p.2 q.2 = none := by rw [outDone, statDone]; rfl
      rw [sound, Option.elim_none, if_pos ⟨outDone, statDone⟩, sessDone_eq]

end Sys2Proof.Machine
end

section
/-!
Programs and launches (R303-R313): the loader on what its command reads, PROG_UNLOAD, a launch whose tables pass, and what stops or ends one.
-/

namespace Sys2Proof.Machine

/-! ### Reading leaves the functions alone (R343, R369) -/

/-- Steps that each leave the functions leave them in the end. -/
theorem foldl_fns {α : Type} {step : State → α → State} (keeps : ∀ t x, (step t x).fns = t.fns) (l : List α) (s : State) :
    (l.foldl step s).fns = s.fns := by
  induction l generalizing s with
  | nil => rfl
  | cons x l ih => rw [List.foldl_cons, ih, keeps]

@[simp] theorem recall_fns (s : State) (phys len : Nat) : (s.recall phys len).fns = s.fns := by
  unfold State.recall
  exact foldl_fns (by intros; rfl) _ _

@[simp] theorem useXlate_fns (s : State) (f addr len : Nat) : (s.useXlate f addr len).fns = s.fns := by
  unfold State.useXlate
  split <;> rfl

@[simp] theorem hostReadFill_fns (s : State) (f addr len : Nat) : (s.hostReadFill f addr len).fns = s.fns := by
  unfold State.hostReadFill
  dsimp only
  split
  · exact (foldl_fns (by intros; rfl) _ _).trans (useXlate_fns s f addr len)
  · exact useXlate_fns s f addr len

@[simp] theorem locUse_fn (s : State) (f : Nat) (slice : Bool) (addr len g : Nat) : (s.locUse f slice addr len).fn g = s.fn g := by
  unfold State.fn
  cases slice
  case false => exact congrArg (fun l => agetD l g _) (hostReadFill_fns s f addr len)
  case true => exact congrArg (fun l => agetD l g _) (foldl_fns (fun t _ => recall_fns t _ _) _ s)

/-! ### The loader (R303-R308) -/

section
variable {s : State} {f id : Nat}

/-- R303: the first failure of an image ends PROG_LOAD with its reason and index. -/
theorem loadImage_refused {bs : List Byte} {len off n reason i : Nat} {code : List Status}
    (fails : loadFail bs len n (s.fn f).progs.length = some (reason, i)) :
    s.loadImage f id bs len off n code = s.endOp f id .range 0 (reason + 2 ^ 16 * i) := by
  unfold State.loadImage
  rw [fails]

/-- R306, R307: an image that passes takes the lowest free handle and fills its code area. -/
theorem loadImage_taken {bs : List Byte} {len off n : Nat} (passes : loadFail bs len n (s.fn f).progs.length = none) :
    let h := firstGap ((s.fn f).progs.map (·.1)) 0
    let p := loadProg bs off n
    s.loadImage f id bs len off n [] =
      ((((s.sliceWrite f off (s.openBytes n)).bump).sliceWrite f p.constOff (poolOf bs)).modFn f fun x =>
        { x with progs := aset x.progs h p }).endOp f id .ok p.saveSize h := by
  intro h p
  unfold State.loadImage
  rw [passes]
  rfl

/-- R308: where the image can be read and the code area lies in the slice, PROG_LOAD gives the loader the image, or ends POISON. -/
theorem effProgLoad_readable {slice : Bool} {image len off n : Nat} (min : 64 ≤ len) (max : len ≤ 2 ^ 26) (aligned : off % 4096 = 0)
    (inSlice : slice = true → s.sliceCheck f image len = []) (there : slice = false → Usable s f [(image, len, false)])
    (code : s.sliceCheck f off n = [] ∨ n = 0) :
    effProgLoad slice image len off n f id s = (s.locPoison f slice image len).elim
      ((s.locUse f slice image len).loadImage f id (s.locRead f slice image len) len off n [])
      fun a => s.endOp f id .poison 0 (granuleDetail a) := by
  have codeFits : ck (s.sliceCheck f off n ≠ [] ∧ n ≠ 0) .prot = [] := ck_false _ _ fun ⟨bad, long⟩ => code.elim bad long
  have sized : ¬ (len < 64 ∨ 2 ^ 26 < len) := by omega
  unfold effProgLoad
  dsimp only
  rw [codeFits, if_neg sized, checked_ok (ck_false _ _ (not_not.mpr aligned))]
  cases slice
  case false =>
    rw [if_neg Bool.false_ne_true, withHost_ok (there rfl)]
    cases s.locPoison f false image len <;> rfl
  case true =>
    rw [if_pos rfl, checked_ok (ck_false _ _ (not_not.mpr (inSlice rfl)))]
    cases s.locPoison f true image len <;> rfl

end

section
variable {s : State} {e : Entry}

theorem progLoad_ready {slice : Bool} {image len off n : Nat} (ready : Ready s e len1 false) (min : 64 ≤ len) (max : len ≤ 2 ^ 26)
    (aligned : off % 4096 = 0) (inSlice : slice = true → s.sliceCheck e.fn.idx image len = [])
    (there : slice = false → Usable s e.fn.idx [(image, len, false)]) (code : s.sliceCheck e.fn.idx off n = [] ∨ n = 0) :
    let f := e.fn.idx
    let t := s.begun e 0x300 (.progLoad e slice image len off n)
    exec (.progLoad e slice image len off n) s = .next ((t.locPoison f slice image len).elim
      ((t.locUse f slice image len).loadImage f (s.opId e) (t.locRead f slice image len) len off n [])
      fun a => t.endOp f (s.opId e) .poison 0 (granuleDetail a)) := by
  intro f t
  rw [exec_progLoad, execProgLoad, startEntry_ready ready rfl,
    effProgLoad_readable min max aligned (fun h => (begun_sliceCheck ..).trans (inSlice h)) (fun h => usable_begun (there h))
      (by rwa [begun_sliceCheck])]

/-- R306: PROG_UNLOAD of a program that no launch uses takes it away. -/
theorem progUnload_ready {h : Nat} {p : Prog} (ready : Ready s e len1 false) (loaded : aget (s.fn e.fn.idx).progs h = some p)
    (unused : ((s.fn e.fn.idx).launches.any fun l => l.2.state ≠ .free && l.2.handle = h) = false) :
    exec (.progUnload e h) s = .next
      (((s.begun e 0x301 (.progUnload e h)).modFn e.fn.idx fun x => { x with progs := adel x.progs h }).endOp e.fn.idx (s.opId e) .ok 0 0) := by
  rw [exec_progUnload, execProgUnload, startEntry_ready ready rfl, effProgUnload, checked_ok]
  rw [begun_progs, begun_launches, loaded, unused, ck_false _ _ (by simp), ck_false _ _ Bool.false_ne_true]
  rfl

/-! ### Launching (R302, R309) -/

@[simp] theorem begun_launch (s : State) (e : Entry) (op : Nat) (c : Instr) (f l : Nat) : (s.begun e op c).launch f l = s.launch f l := by
  simp [State.launch]

/-- R309: a launch of a loaded program whose tables are readable, sound and legal starts. -/
theorem progLaunch_ready {b : LaunchBody} {p : Prog} (ready : Ready s e len2 false) (loaded : aget (s.fn e.fn.idx).progs b.handle = some p)
    (there : Usable s e.fn.idx (launchRanges b p)) :
    let f := e.fn.idx
    let t := s.begun e 0x302 (.progLaunch e b)
    let rs := launchRanges b p
    let u := rs.foldl (fun s r => s.hostReadFill f r.1 r.2.1) t
    let rd := fun (r : Nat × Nat × Bool) => u.hostBytes f r.1 r.2.1
    let entry := fun (i : Nat) => ((rd (rs.getD 1 (0, 0, false))).drop (32 * i)).take 32
    let slots := (List.range (popCount 64 b.blks * p.nslot)).map fun i => numAt (rd (rs.getD 2 (0, 0, false))) (2 * i) 2
    t.launchChecks f b = [] → rs.findSome? (fun r => t.locPoison f false r.1 r.2.1) = none → t.initBad f p = none →
    ((List.range p.nport).any fun i => u.portBad f (p.pkind.getD i 0) (entry i)) = false → (slots.any fun t => ¬ u.tallyOk f t) = false →
    exec (.progLaunch e b) s = .next (u.launchStart f (s.opId e) b p ((List.range 16).map fun i => numAt (rd (rs.getD 0 (0, 0, false))) (8 * i) 8)
      ((List.range p.nport).map fun i => portBind (p.pkind.getD i 0) (entry i)) slots) := by
  intro f t rs u rd entry slots checks sound init ports tallies
  rw [exec_progLaunch, execProgLaunch, startEntry_ready ready rfl]
  unfold effProgLaunch
  dsimp only
  rw [checked_ok (by rw [checks]; rfl), begun_progs, loaded]
  dsimp only
  rw [withHost_ok (usable_begun there), sound, init]
  dsimp only [Option.or]
  rw [checkedFence_ok]
  rw [checks, ck_false _ _ (by rw [ports, tallies]; exact Bool.false_ne_true)]
  rfl

/-! ### PROG_STOP and PROG_QUERY (R310, R313) -/

section
variable {lref : Nat} (ready : Ready s e len1 false) (key : (s.launch e.fn.idx (lrefIndex lref)).key = lrefKey lref)
include ready key

theorem progStop_ready (st : (s.launch e.fn.idx (lrefIndex lref)).state = .starting ∨ (s.launch e.fn.idx (lrefIndex lref)).state = .running) :
    exec (.progStop e lref) s = .next
      (((s.begun e 0x303 (.progStop e lref)).modLaunch e.fn.idx (lrefIndex lref) fun l => { l with stop := some (s.opId e) }).stopLaunch
        e.fn.idx (lrefIndex lref)) := by
  rw [exec_progStop, execProgStop, startEntry_ready ready rfl, effProgStop, checked_ok]
  exact ck_false _ _ (by rw [begun_launch]; exact not_not.mpr ⟨st, key⟩)

theorem progQuery_ready {addr : Nat} (used : (s.launch e.fn.idx (lrefIndex lref)).state ≠ .free)
    (there : Usable s e.fn.idx [(addr, (s.launch e.fn.idx (lrefIndex lref)).record.length, true)]) :
    exec (.progQuery e lref addr) s = .next
      (((s.begun e 0x304 (.progQuery e lref addr)).hostWrite e.fn.idx addr (s.launch e.fn.idx (lrefIndex lref)).record).endOp e.fn.idx (s.opId e)
        .ok (s.launch e.fn.idx (lrefIndex lref)).record.length 0) := by
  rw [exec_progQuery, execProgQuery, startEntry_ready ready rfl, effProgQuery, checked_ok (ck_false _ _ (by simp [used, key])), begun_launch,
    writeRecord_ok (usable_begun there)]

end
end

/-! ### The states of a launch (R310, R311) -/

section
variable {s : State} {f i : Nat}

/-- R310: the copies start once their blocks' domains are ACTIVE. -/
theorem launchRun_starting (st : (s.launch f i).state = .starting)
    (live : ((s.launch f i).copies.all fun c => match c.2.block with | some b => s.regionLive (regionOf b) | none => true) = true) :
    s.launchRun f i = s.modLaunch f i fun x => { x with state := .running } :=
  if_pos ⟨st, live⟩

/-- R310: a STOPPING launch with nothing outstanding ends, then the PROG_STOP that waits for it. -/
theorem launchStopped_quiet (st : (s.launch f i).state = .stopping)
    (quiet : (s.launch f i).copies.all (fun c => ¬ c.2.busy ∧ ¬ c.2.ops.any (s.matchedRecv f i c.1)) = true) :
    let l := s.launch f i
    let t := s.endOp f l.op (l.fault.getD (.flushed, 0)).1 0 (l.fault.getD (.flushed, 0)).2
    s.launchStopped f i = (l.stop.elim t fun id => t.endOp f id .ok 0 0).launchFree f i := by
  intro l t
  unfold State.launchStopped
  dsimp only
  rw [if_pos ⟨st, quiet⟩]
  cases l.stop <;> rfl

/-- R311: an ENDING launch with no matched receive left ends OK once, and is FREE where its completion is written. -/
theorem launchEnded_quiet (st : (s.launch f i).state = .ending)
    (quiet : (s.launch f i).copies.all (fun c => ¬ c.2.ops.any (s.matchedRecv f i c.1)) = true) :
    let l := s.launch f i
    let t := if (s.op? f l.op).isSome then s.endOp f l.op .ok l.written l.endDetail else s
    s.launchEnded f i = if (t.fn f).rings.any fun r => r.2.waiting.any fun c => c.op = some l.op then t else t.launchFree f i :=
  if_pos ⟨st, quiet⟩

end

/-- Settles O29: the commands on programs and launches, then the states that a launch goes through. -/
theorem launches : Obligations.Launches := by
  refine ⟨fun e s => ⟨?load, fun h p => progUnload_ready, ?launch, ?references⟩, fun fn i s => ⟨?starts, ?stops, ?ends⟩⟩
  case load =>
    intro slice image len off n ready min max aligned inSlice there code t bs h p u
    rw [progLoad_ready ready min max aligned inSlice there code]
    have progs : (u.fn e.fn.idx).progs = (s.fn e.fn.idx).progs := by rw [locUse_fn, begun_progs]
    refine ⟨fun a poisoned => by rw [poisoned, Option.elim_some], fun sound => ?_⟩
    rw [sound, Option.elim_none]
    refine ⟨fun reason i fails => ?_, fun passes => ?_⟩
    · rw [loadImage_refused (by rwa [progs])]
    · rw [loadImage_taken (by rwa [progs]), progs]
  case launch => exact fun b p ready loaded there => progLaunch_ready ready loaded there
  case references =>
    intro lref ready i l key
    exact ⟨progStop_ready ready key, fun addr => progQuery_ready ready key⟩
  case starts =>
    intro st live
    rw [exec_launchRunning, execLaunchRunning, launchRun_starting st live]
  case stops =>
    intro st quiet t
    rw [exec_launchStopped, execLaunchStopped, launchStopped_quiet st quiet]
    exact ⟨fun id stop => by rw [stop, Option.elim_some], fun stop => by rw [stop, Option.elim_none]⟩
  case ends =>
    intro st quiet t wait
    rw [exec_launchEnded, execLaunchEnded, launchEnded_quiet st quiet]
    refine ⟨fun written => ?_, fun withheld => ?_⟩
    · rw [if_neg (ne_true_of_eq_false written)]
    · rw [if_pos withheld]

end Sys2Proof.Machine
end

section
/-!
Control and scalar instructions (R296, R314): what END, SAFEPOINT and the jumps do by the case they meet, and each instruction where it issues.
-/

namespace Sys2Proof.Machine

/-! ### Instructions with cases (R296, R310, R314, R315) -/

section
variable {s : State} {k : Ctx}

theorem tpfEnd_busy (busy : k.c.busy = true) : tpfEnd k s = s.hold k := if_pos busy

/-- R310: the copy is DONE with its matched receives alone, its posted ones are withdrawn, and the last copy's END makes the launch ENDING. -/
theorem tpfEnd_idle (idle : k.c.busy = false) : tpfEnd k s =
    (((s.retire k fun c =>
      { c with st := .done, endCode := k.x.aux, preempt := none,
               ops := (c.ops.filter (s.matchedRecv k.f k.li k.ci)).map fun a => { a with slot := none } }).modFn k.f fun x =>
        { x with mlists := x.mlists.map fun m => (m.1, { m.2 with posted := m.2.posted.filter fun p =>
          match p.to_ with | .prog l c _ => ¬ (l = k.li ∧ c = k.ci) | _ => true }) }).modLaunch k.f k.li fun l =>
          { l with state := if l.copies.all (fun c => c.2.st = .done) then .ending else l.state }) :=
  if_neg (ne_true_of_eq_false idle)

section
variable (asked : k.c.preempt.isSome = true)
include asked

/-- R315: with WAIT the copy parks at the SAFEPOINT, which it issues again when it resumes. -/
theorem tpfSafepoint_parks_here (wait : k.x.fl.testBit 0 = true) :
    tpfSafepoint k s = s.modCopy k.f k.li k.ci fun c => { c with st := .parking } := by
  rw [tpfSafepoint, if_pos asked, wait]
  rfl

theorem tpfSafepoint_parks_after (noWait : k.x.fl.testBit 0 = false) : tpfSafepoint k s = s.retire k fun c => { c with st := .parking } := by
  rw [tpfSafepoint, if_pos asked, noWait]
  rfl

end

section
variable (unasked : k.c.preempt = none)
include unasked

theorem tpfSafepoint_unasked : tpfSafepoint k s =
    if k.x.fl.testBit 0 = true ∧ s.tallyCount k.f (k.slot k.x.a) < (k.reg k.x.b + k.x.imm) % 2 ^ 64 then s.hold k else s.retire k id := by
  rw [tpfSafepoint, unasked]
  rfl

theorem tpfSafepoint_goes (noWait : k.x.fl.testBit 0 = false) : tpfSafepoint k s = s.retire k id := by
  rw [tpfSafepoint_unasked unasked, if_neg fun h => Bool.false_ne_true (noWait.symm.trans h.1)]

theorem tpfSafepoint_waits (wait : k.x.fl.testBit 0 = true) (below : s.tallyCount k.f (k.slot k.x.a) < (k.reg k.x.b + k.x.imm) % 2 ^ 64) :
    tpfSafepoint k s = s.hold k := by
  rw [tpfSafepoint_unasked unasked, if_pos ⟨wait, below⟩]

end
end

/-! ### Where an instruction issues (R290, R296) -/

section
variable {s : State} {r : CopyRef} {k : Ctx}

/-- A command that issues the instruction of a copy acts where the copy issues that instruction. -/
theorem exec_issues {op : Nat} {act : Ctx → State → State} {c : Instr} (here : Issues s r op k) (arm : exec c s = .next (s.tpf r op act)) :
    exec c s = .next (act k s) :=
  arm.trans (congrArg _ (tpf_issues here))

theorem tpfBr_issues (here : Issues s r 0x03 k) : exec (.tpfBr r) s =
    .next (if brCond (k.x.fl % 8) (k.reg k.x.a) (k.reg k.x.b) then s.jump k id else s.retire k id) :=
  exec_issues here (exec_tpfBr r s)

/-- LOOP counts register A down and jumps while it is not 0. -/
theorem tpfLoop_issues (here : Issues s r 0x04 k) :
    let v := (k.reg k.x.a + (2 ^ 64 - 1)) % 2 ^ 64
    let g := fun c : Copy => { c with regs := aset c.regs k.x.a v }
    exec (.tpfLoop r) s = .next (if v ≠ 0 then s.jump k g else s.retire k g) := by
  intro v g
  rw [exec_issues here (exec_tpfLoop r s)]
  rfl

end

/-- Settles O26: the control instructions by the case that each meets, then the instructions that set register A. -/
theorem programScalars : Obligations.ProgramScalars := by
  intro r s k
  refine ⟨?nop, ?end_, ?jmp, ?br, ?loop, ?safepoint, ?movi, ?alu, ?arg, ?id, ?time, ?exc, ?tread⟩
  case nop => exact fun here => exec_issues here (exec_tpfNop r s)
  case end_ =>
    intro here
    rw [exec_issues here (exec_tpfEnd r s)]
    exact ⟨fun busy => congrArg _ (tpfEnd_busy busy), fun idle => congrArg _ (tpfEnd_idle idle)⟩
  case jmp => exact fun here => exec_issues here (exec_tpfJmp r s)
  case br =>
    intro here
    rw [tpfBr_issues here]
    exact ⟨fun holds => congrArg _ (if_pos holds), fun fails => congrArg _ (if_neg (ne_true_of_eq_false fails))⟩
  case loop =>
    intro here v
    rw [tpfLoop_issues here]
    exact ⟨fun more => congrArg _ (if_pos more), fun last => congrArg _ (if_neg (not_not.mpr last))⟩
  case safepoint =>
    intro here
    rw [exec_issues here (exec_tpfSafepoint r s)]
    exact ⟨fun asked wait => congrArg _ (tpfSafepoint_parks_here asked wait),
      fun asked noWait => congrArg _ (tpfSafepoint_parks_after asked noWait),
      fun unasked noWait => congrArg _ (tpfSafepoint_goes unasked noWait),
      fun unasked wait below => congrArg _ (tpfSafepoint_waits unasked wait below)⟩
  case movi => exact fun here => exec_issues here (exec_tpfMovi r s)
  case alu => exact fun here => exec_issues here (exec_tpfAlu r s)
  case arg => exact fun here => exec_issues here (exec_tpfArg r s)
  case id => exact fun here => exec_issues here (exec_tpfId r s)
  case time => exact fun here => exec_issues here (exec_tpfTime r s)
  case exc => exact fun here => exec_issues here (exec_tpfExc r s)
  case tread => exact fun here => exec_issues here (exec_tpfTread r s)

end Sys2Proof.Machine
end

section
/-!
What a running copy's operations and pre-emption do (R293-R295, R300, R301, R312-R317): each event of a copy by the case it meets.
-/

namespace Sys2Proof.Machine

/-! ### Ends of asynchronous operations (R293, R295, R300, R312) -/

section
variable {s : State} {f l c op : Nat} {p : Prog} {a : Async} (known : s.async? f l c op = some (p, a))
include known

/-- A TLOAD or TSTORE whose status is known ends with it. -/
theorem asyncEnd_move_status {st : Status} (move : a.op = 0x20 ∨ a.op = 0x21) (status : a.status = some st) :
    s.asyncEnd f l c op = s.asyncDone f l c a st := by
  rw [State.asyncEnd, known]
  rcases move with load | store
  · simp [load, status]
  · simp [store, status]

theorem asyncEnd_tload (load : a.op = 0x20) (going : a.status = none) : s.asyncEnd f l c op = s.tloadEnd f l c p a := by
  rw [State.asyncEnd, known]
  simp [load, going]

theorem asyncEnd_tstore (store : a.op = 0x21) (going : a.status = none) : s.asyncEnd f l c op = s.tstoreEnd f l c p a := by
  rw [State.asyncEnd, known]
  simp [store, going]

/-- A SEND that is not to be sent again counts its bytes where its status is good. -/
theorem asyncEnd_send {st : Status} (send : a.op = 0x30) (status : a.status = some st) (final : a.retry = none) :
    s.asyncEnd f l c op =
      (s.modLaunch f l fun x => { x with written := satAdd (2 ^ 64 - 1) x.written (if st.good then a.bytes else 0) }).asyncDone f l c a st := by
  rw [State.asyncEnd, known]
  simp [send, status, final]

section
variable (recv : a.op = 0x31)
include recv

/-- R300, R301: a RECV puts the message that came for it into its tile, else the bytes of its PEER message, else ends with its status. -/
theorem asyncEnd_recv : s.asyncEnd f l c op = ((s.fn f).progRx.find? fun z => z.1 = l ∧ z.2.1 = c ∧ z.2.2.1 = op).elim
    (a.got.elim (a.status.elim s (s.asyncDone f l c a)) (s.recvPut f l c p a))
    fun m => (s.modFn f fun x => { x with progRx := dropFirst x.progRx fun y => y = m }).recvPut f l c p a m.2.2.2.2 := by
  rw [State.asyncEnd, known]
  dsimp only
  rw [if_neg (by simp [recv]), if_neg (by simp [recv]), if_pos recv]
  cases (s.fn f).progRx.find? fun z => z.1 = l ∧ z.2.1 = c ∧ z.2.2.1 = op
  case some m => rfl
  case none =>
    cases a.got
    case some bs => rfl
    case none => cases a.status <;> rfl

end

/-- R295: a refused SEND goes again once its hint has passed. -/
theorem sendAgain_due {t : Nat} (retry : a.retry = some t) (due : t ≤ s.now) :
    s.sendAgain f l c op = s.progSend f l c p (s.launch f l) a := by
  rw [State.sendAgain, known]
  dsimp only
  rw [retry]
  exact if_pos due

/-! ### PEER messages (R301, R491) -/

/-- R301: the target's first queued message of the port and tag is this SEND's, and a posted RECV of that port and tag takes it. -/
theorem peerMove_first {t : Nat} {x : Async} (peer : a.peer = some t) (send : a.op = 0x30) (going : a.status = none)
    (first : ((s.copy f l t).peerQ.find? fun m => m.1 = a.port ∧ m.2.2.2 = a.tag) = some (a.port, c, op, a.tag))
    (posted : ((s.copy f l t).ops.find? fun x =>
      x.op = 0x31 ∧ x.peer.isSome ∧ x.port = a.port ∧ x.tag = a.tag ∧ x.got.isNone ∧ x.status.isNone) = some x) :
    let bs := (p.tiles.getD a.tile ⟨0, 1, 1, none⟩).sendable a.snap
    let taken := s.modCopy f l t fun y => { y with peerQ := dropFirst y.peerQ fun z => z = (a.port, c, op, a.tag) }
    s.peerMove f l c op =
      ((if bs.length < a.bytes then taken else taken.modAsync f l t x.id fun y => { y with got := some bs }).modAsync f l c op fun y =>
        { y with status := some (if bs.length < a.bytes then .poison else .ok) }).peerNext f l t a.port := by
  intro bs taken
  rw [State.peerMove, known]
  dsimp only
  rw [peer]
  dsimp only
  rw [first, posted]
  exact if_pos ⟨send, by rw [going]; rfl, rfl, rfl⟩

end

/-! ### Saving and resuming (R315, R317, R332, R491) -/

section
variable {s : State} {f l c : Nat} {p : Prog} (loaded : aget (s.fn f).progs (s.launch f l).handle = some p)
  (running : (s.launch f l).state = .running)
include loaded running

/-- R315: a PARKING copy with nothing outstanding saves its state and is PARKED without a block, or faults. -/
theorem copySave_parking (parking : (s.copy f l c).st = .parking) (idle : (s.copy f l c).busy = false)
    (live : (match (s.copy f l c).block with | some b => s.regionLive (regionOf b) | none => false) = true) :
    s.copySave f l c = (pick (s.sliceCheck f ((s.launch f l).slotOff p c) p.saveSize ++ ck ((s.copy f l c).poisoned p = true) .poison)).elim
      (((s.slotWrite f l c p).modLaunch f l fun x => { x with preempts := satAdd (2 ^ 64 - 1) x.preempts 1 }).modCopy f l c fun y =>
        { y with st := .parked, block := none, preempt := none })
      fun st => s.faultCopy f l c (s.copy f l c).pc st := by
  unfold State.copySave
  dsimp only
  rw [loaded]
  refine (if_pos ⟨running, parking, by simp [idle], live⟩).trans ?_
  cases pick (s.sliceCheck f ((s.launch f l).slotOff p c) p.saveSize ++ ck ((s.copy f l c).poisoned p = true) .poison) <;> rfl

/-- R317: the launch's lowest PARKED copy takes the lowest free block, with what its slot still holds or with open values; a poisoned slot
faults it. -/
theorem copyResume_lowest {b : Nat} (parked : (s.copy f l c).st = .parked)
    (lowest : ((s.launch f l).copies.find? fun z => z.2.st = .parked).map (·.1) = some c)
    (block : ((List.range 64).find? fun b => s.blockFree f b) = some b) (starts : s.starts f = true) :
    s.copyResume f l c b =
      if (s.locPoison f true ((s.launch f l).slotOff p c) p.saveSize).isSome then s.faultCopy f l c (s.copy f l c).pc .poison
      else ((if s.slotKept f l c p then s else s.bump).modCopy f l c fun _ =>
        { (if s.slotKept f l c p then s.copy f l c else s.openCopy p (s.copy f l c)) with st := .running, block := some b, saved := [] }).wakeBlocks
          (2 ^ b) := by
  unfold State.copyResume
  dsimp only
  rw [loaded]
  exact if_pos ⟨running, parked, lowest, block, starts⟩

end

/-- R316: a copy that has kept its block past SPWAIT stops its launch, which is journalled. -/
theorem spwaitExpiry_due {s : State} {f l c t : Nat} (asked : (s.copy f l c).preempt = some t)
    (active : (s.launch f l).state = .running ∨ (s.launch f l).state = .starting)
    (away : (s.copy f l c).st = .running ∨ (s.copy f l c).st = .waiting) (due : t + 1000 * (s.launch f l).spwait ≤ s.now) :
    s.spwaitExpiry f l c = ((s.modLaunch f l fun x => { x with fault := some (.flushed, 0xFFFF + 2 ^ 16 * c) }).stopLaunch f l).jMust
      (ownerOf f) (.partcmd 0x302 (partOf f) .flushed 0) := by
  unfold State.spwaitExpiry
  dsimp only
  rw [asked]
  exact if_pos ⟨active, away, due⟩

/-- Settles O30: the ends of a copy's operations, its PEER messages, then its pre-emption. -/
theorem copyEvents : Obligations.CopyEvents := by
  intro r s f l c
  refine ⟨fun op p a known => ?ends, fun op now t p a known retry due => ?again, fun op t p a x known peer send going first posted => ?peer,
    fun p loaded running => ⟨?save, ?resume⟩, fun now t asked active away due => ?expiry⟩
  case ends =>
    rw [exec_asyncOpEnd, execAsyncOpEnd]
    refine ⟨fun st move status => ?_, fun load going => ?_, fun store going => ?_, fun st send status final => ?_, fun m recv message => ?_,
      fun recv noMessage => ⟨fun bs got => ?_, fun st nothing status => ?_⟩⟩
    · rw [asyncEnd_move_status known move status]
    · rw [asyncEnd_tload known load going]
    · rw [asyncEnd_tstore known store going]
    · rw [asyncEnd_send known send status final]
    · rw [asyncEnd_recv known recv, message, Option.elim_some]
    · rw [asyncEnd_recv known recv, noMessage, got, Option.elim_none, Option.elim_some]
    · rw [asyncEnd_recv known recv, noMessage, nothing, status, Option.elim_none, Option.elim_none, Option.elim_some]
  case again => rw [exec_sendRetry, execSendRetry, sendAgain_due known retry due]
  case peer =>
    intro bs
    rw [exec_peerMessageTransfer, execPeerMessageTransfer, peerMove_first known peer send going first posted]
    refine ⟨fun poisoned => ?_, fun sound => ?_⟩
    · rw [if_pos poisoned, if_pos poisoned]
    · rw [if_neg (Nat.not_lt.mpr sound), if_neg (Nat.not_lt.mpr sound)]
  case save =>
    intro parking idle live
    rw [exec_copySave, execCopySave, copySave_parking loaded running parking idle live]
    refine ⟨fun st fails => ?_, fun slot sound => ?_⟩
    · rw [fails, Option.elim_some]
    · rw [slot, ck_false _ _ (ne_true_of_eq_false sound)]
      rfl
  case resume =>
    intro b parked lowest block starts
    rw [exec_copyResume, execCopyResume, copyResume_lowest loaded running parked lowest block starts]
    refine ⟨fun poisoned => ?_, fun sound kept => ?_, fun sound lost => ?_⟩
    · rw [if_pos poisoned]
    · rw [if_neg (by simp [sound]), kept]
      rfl
    · rw [if_neg (by simp [sound]), lost]
      rfl
  case expiry =>
    rw [exec_spwaitExpiry, execSpwaitExpiry, spwaitExpiry_due (s := s.tick now) asked active away due]

end Sys2Proof.Machine
end

section
/-!
One step and the canonical form of memory (R328): the laws of every command's meaning, put together over the dispatch.
-/

namespace Sys2Proof.Machine

/-- No command leaves the canonical form of memory, command by command. -/
theorem exec_good {s : State} (c : Instr) (good : s.Good) : OkOut (exec c s) := by
  cases c with
  | nop e => exact good_execNop e s good
  | fence e hostVis remoteVis inst => exact good_execFence e hostVis remoteVis inst s good
  | fenceRelease fn ring => exact good_execFenceRelease fn ring s good
  | ringInval e ring first count => exact good_execRingInval e ring first count s good
  | ringCreate e ring sqLog cqLog cls sqBase cqBase => exact good_execRingCreate e ring sqLog cqLog cls sqBase cqBase s good
  | ringDestroy e ring => exact good_execRingDestroy e ring s good
  | ringDrained fn ring => exact good_execRingDrained fn ring s good
  | ringPause e ring => exact good_execRingPause e ring s good
  | ringResume e ring => exact good_execRingResume e ring s good
  | ringFlush e ring => exact good_execRingFlush e ring s good
  | dbgCfg e group vector => exact good_execDbgCfg e group vector s good
  | cqModerate e ring count time => exact good_execCqModerate e ring count time s good
  | adminRingEnable fn o value => exact good_execAdminRingEnable fn o value s good
  | adminRingResume fn o => exact good_execAdminRingResume fn o s good
  | ringSqdb fn ring tail => exact good_execRingSqdb fn ring tail s good
  | entryStart fn ring => exact good_execEntryStart fn ring s good
  | cqHeadRelease fn ring head => exact good_execCqHeadRelease fn ring head s good
  | cqEventArm fn ring head => exact good_execCqEventArm fn ring head s good
  | dbgRingSet fn group bits => exact good_execDbgRingSet fn group bits s good
  | dbgMaskWrite fn group bits => exact good_execDbgMaskWrite fn group bits s good
  | dbgEvtClear fn group bits => exact good_execDbgEvtClear fn group bits s good
  | dbgEmaskWrite fn group bits => exact good_execDbgEmaskWrite fn group bits s good
  | pendingCompletionWrite fn ring => exact good_execPendingCompletionWrite fn ring s good
  | cqEventTimer fn ring now => exact good_execCqEventTimer fn ring now s good
  | stateRecordCommit now => exact good_execStateRecordCommit now s good
  | registerFence fn o token hostVis remoteVis vector irq => exact good_execRegisterFence fn o token hostVis remoteVis vector irq s good
  | registerFenceDone fn => exact good_execRegisterFenceDone fn s good
  | frameTx e port bp space addr len => exact good_execFrameTx e port bp space addr len s good
  | frameRxbuf e addr len => exact good_execFrameRxbuf e addr len s good
  | rcRegisterRead o off width => exact good_execRcRegisterRead o off width s good
  | setupRegWrite o off width value => exact good_execSetupRegWrite o off width value s good
  | write e b => exact good_execWrite e b s good
  | read e b => exact good_execRead e b s good
  | writeNotify e b imm => exact good_execWriteNotify e b imm s good
  | atFadd e b => exact good_execAtFadd e b s good
  | atFand e b => exact good_execAtFand e b s good
  | atFor e b => exact good_execAtFor e b s good
  | atFxor e b => exact good_execAtFxor e b s good
  | atSwap e b => exact good_execAtSwap e b s good
  | atCas e b => exact good_execAtCas e b s good
  | tsend e b => exact good_execTsend e b s good
  | trecv e b => exact good_execTrecv e b s good
  | trecvCancel e list tag => exact good_execTrecvCancel e list tag s good
  | mlistCreate e list uq => exact good_execMlistCreate e list uq s good
  | mlistDestroy e list => exact good_execMlistDestroy e list s good
  | winOpen e b => exact good_execWinOpen e b s good
  | winRevoke e wref => exact good_execWinRevoke e wref s good
  | tallyAlloc e value => exact good_execTallyAlloc e value s good
  | tallyFree e tally => exact good_execTallyFree e tally s good
  | tallyAdd e tally value => exact good_execTallyAdd e tally value s good
  | tallySet e tally value => exact good_execTallySet e tally value s good
  | tallyRead e tally addr => exact good_execTallyRead e tally addr s good
  | arm e trig emb => exact good_execArm e trig emb s good
  | armCancel e tag => exact good_execArmCancel e tag s good
  | armedTimeFire fn ring tag now => exact good_execArmedTimeFire fn ring tag now s good
  | connConnect e b => exact good_execConnConnect e b s good
  | connListen e service laddrIdx nring maxConn => exact good_execConnListen e service laddrIdx nring maxConn s good
  | connUnlisten e service laddrIdx => exact good_execConnUnlisten e service laddrIdx s good
  | connClose e conn => exact good_execConnClose e conn s good
  | connAbort e conn => exact good_execConnAbort e conn s good
  | connQuery e conn addr => exact good_execConnQuery e conn addr s good
  | connModify e conn ports paths => exact good_execConnModify e conn ports paths s good
  | synReceive x => exact good_execSynReceive x s good
  | synAckReceive x => exact good_execSynAckReceive x s good
  | connAckReceive rx fn grant => exact good_execConnAckReceive rx fn grant s good
  | finReceive rx fn => exact good_execFinReceive rx fn s good
  | finAckReceive rx fn => exact good_execFinAckReceive rx fn s good
  | abortReceive rx fn ext => exact good_execAbortReceive rx fn ext s good
  | synRetryTimer fn conn now => exact good_execSynRetryTimer fn conn now s good
  | slowpathDone fn conn => exact good_execSlowpathDone fn conn s good
  | slowpathFail fn conn => exact good_execSlowpathFail fn conn s good
  | lostTimeExpiry fn conn now => exact good_execLostTimeExpiry fn conn now s good
  | rekeyKeyInstalled fn conn => exact good_execRekeyKeyInstalled fn conn s good
  | dataReceive rx fn wref roff moff mlen notify imm payload => exact good_execDataReceive rx fn wref roff moff mlen notify imm payload s good
  | readReqReceive rx fn wref roff len req => exact good_execReadReqReceive rx fn wref roff len req s good
  | readRespReceive rx fn req moff payload => exact good_execReadRespReceive rx fn req moff payload s good
  | atomicReqReceive rx fn op wref roff opnd1 opnd2 => exact good_execAtomicReqReceive rx fn op wref roff opnd1 opnd2 s good
  | atomicRespReceive rx fn req old => exact good_execAtomicRespReceive rx fn req old s good
  | tsendReceive rx fn list tag mlen moff rdv payload => exact good_execTsendReceive rx fn list tag mlen moff rdv payload s good
  | rdvReqReceive rx fn req moff len => exact good_execRdvReqReceive rx fn req moff len s good
  | rdvRespReceive rx fn req moff payload => exact good_execRdvRespReceive rx fn req moff payload s good
  | nakReceive rx fn msn status detail => exact good_execNakReceive rx fn msn status detail s good
  | abandonNoticeReceive rx fn msn status => exact good_execAbandonNoticeReceive rx fn msn status s good
  | ackDelayTimer fn conn now => exact good_execAckDelayTimer fn conn now s good
  | ackReceive rx fn x => exact good_execAckReceive rx fn x s good
  | retxTimerExpiry fn conn psn now => exact good_execRetxTimerExpiry fn conn psn now s good
  | pathStrikeEval fn conn now => exact good_execPathStrikeEval fn conn now s good
  | pathProbeTimer fn conn path now => exact good_execPathProbeTimer fn conn path now s good
  | probeReceive rx fn => exact good_execProbeReceive rx fn s good
  | silenceProbeTimer fn conn now => exact good_execSilenceProbeTimer fn conn now s good
  | abortRepeatTimer fn conn now => exact good_execAbortRepeatTimer fn conn now s good
  | grantInterval now => exact good_execGrantInterval now s good
  | creditChangeTimer fn conn now => exact good_execCreditChangeTimer fn conn now s good
  | creditGrantReceive rx fn grant => exact good_execCreditGrantReceive rx fn grant s good
  | creditReqReceive rx fn => exact good_execCreditReqReceive rx fn s good
  | creditReqTimer fn conn now => exact good_execCreditReqTimer fn conn now s good
  | packetSelect port now => exact good_execPacketSelect port now s good
  | frameTransmit port bp now => exact good_execFrameTransmit port bp now s good
  | queueEscalationTimer port part cls now => exact good_execQueueEscalationTimer port part cls now s good
  | queueSampleTimer now => exact good_execQueueSampleTimer now s good
  | gateLoad e port count addr start => exact good_execGateLoad e port count addr start s good
  | gateTakeover port now => exact good_execGateTakeover port now s good
  | gateEntryAdvance port now => exact good_execGateEntryAdvance port now s good
  | qStop e scope arg => exact good_execQStop e scope arg s good
  | qStart e scope arg => exact good_execQStart e scope arg s good
  | qSample e addr => exact good_execQSample e addr s good
  | herdCreate e b => exact good_execHerdCreate e b s good
  | herdFormTimeout fn herd now => exact good_execHerdFormTimeout fn herd now s good
  | herdDestroy e herd => exact good_execHerdDestroy e herd s good
  | herdQuery e herd addr => exact good_execHerdQuery e herd addr s good
  | collAllreduce e b => exact good_execCollAllreduce e b s good
  | collReduceScatter e b => exact good_execCollReduceScatter e b s good
  | collAllgather e b => exact good_execCollAllgather e b s good
  | collBcast e b => exact good_execCollBcast e b s good
  | collReduce e b => exact good_execCollReduce e b s good
  | collAlltoall e b => exact good_execCollAlltoall e b s good
  | collDispatch e b => exact good_execCollDispatch e b s good
  | collCombine e b => exact good_execCollCombine e b s good
  | collBarrier e b => exact good_execCollBarrier e b s good
  | collStart fn herd => exact good_execCollStart fn herd s good
  | bulkCollReceive rx fn x npk pidx payload => exact good_execBulkCollReceive rx fn x npk pidx payload s good
  | haltReceive rx fn mepoch cseq origin cause => exact good_execHaltReceive rx fn mepoch cseq origin cause s good
  | barrierTokenReceive rx fn mepoch cseq sig srank step => exact good_execBarrierTokenReceive rx fn mepoch cseq sig srank step s good
  | heartbeatTimer fn herd now => exact good_execHeartbeatTimer fn herd now s good
  | heartbeatMiss fn herd now => exact good_execHeartbeatMiss fn herd now s good
  | tokenProposeReceive rx fn t => exact good_execTokenProposeReceive rx fn t s good
  | tokenCommitReceive rx fn t => exact good_execTokenCommitReceive rx fn t s good
  | proposeLapTimer fn herd now => exact good_execProposeLapTimer fn herd now s good
  | settleTimer fn herd now => exact good_execSettleTimer fn herd now s good
  | agreeTimer fn herd now => exact good_execAgreeTimer fn herd now s good
  | collectiveResume fn herd sources => exact good_execCollectiveResume fn herd sources s good
  | attnOpen e b => exact good_execAttnOpen e b s good
  | attnLoadingDone fn sess => exact good_execAttnLoadingDone fn sess s good
  | attnFeed e b => exact good_execAttnFeed e b s good
  | attnFinish e sref => exact good_execAttnFinish e sref s good
  | attnAbort e sref => exact good_execAttnAbort e sref s good
  | attnQuery e sess addr => exact good_execAttnQuery e sess addr s good
  | bulkKvReceive rx fn x npk pidx payload => exact good_execBulkKvReceive rx fn x npk pidx payload s good
  | kvBlockMerge fn sess block slot => exact good_execKvBlockMerge fn sess block slot s good
  | attnOutputWrite fn sess => exact good_execAttnOutputWrite fn sess s good
  | progLoad e slice image len codeOff codeLen => exact good_execProgLoad e slice image len codeOff codeLen s good
  | progUnload e handle => exact good_execProgUnload e handle s good
  | progLaunch e b => exact good_execProgLaunch e b s good
  | launchRunning fn launch => exact good_execLaunchRunning fn launch s good
  | progStop e lref => exact good_execProgStop e lref s good
  | progQuery e launch addr => exact good_execProgQuery e launch addr s good
  | launchStopped fn launch => exact good_execLaunchStopped fn launch s good
  | launchEnded fn launch => exact good_execLaunchEnded fn launch s good
  | atcPrefetch e addr len wr faultOk => exact good_execAtcPrefetch e addr len wr faultOk s good
  | sliceRekey e first count ksel => exact good_execSliceRekey e first count ksel s good
  | sliceRekeyPage page => exact good_execSliceRekeyPage page s good
  | sliceInfo e addr => exact good_execSliceInfo e addr s good
  | atsTranslationCompletion fn addr reply => exact good_execAtsTranslationCompletion fn addr reply s good
  | pageRequestBatchSend fn now => exact good_execPageRequestBatchSend fn now s good
  | priResponseReceive fn group gen reply => exact good_execPriResponseReceive fn group gen reply s good
  | priTimeout fn group now => exact good_execPriTimeout fn group now s good
  | atsInvalidateRequest fn tag addr len => exact good_execAtsInvalidateRequest fn tag addr len s good
  | atsInvalidateComplete fn tag => exact good_execAtsInvalidateComplete fn tag s good
  | hostReadCompletion link tag gen data ans => exact good_execHostReadCompletion link tag gen data ans s good
  | completionTimeout link tag now => exact good_execCompletionTimeout link tag now s good
  | vfFlr link part => exact good_execVfFlr link part s good
  | pfFlr link => exact good_execPfFlr link s good
  | linkDlDown link => exact good_execLinkDlDown link s good
  | linkUp link speed width cxl => exact good_execLinkUp link speed width cxl s good
  | cxlMemRead link addr => exact good_execCxlMemRead link addr s good
  | cxlMemWrite link addr data => exact good_execCxlMemWrite link addr data s good
  | hostSnoop link addr inval => exact good_execHostSnoop link addr inval s good
  | directoryRecall link addr dirty => exact good_execDirectoryRecall link addr dirty s good
  | lineCacheDisable link o => exact good_execLineCacheDisable link o s good
  | instMbx part link gen opcode tag args deferrable => exact good_execInstMbx part link gen opcode tag args deferrable s good
  | mailboxTake part => exact good_execMailboxTake part s good
  | mailboxReplyWrite part index => exact good_execMailboxReplyWrite part index s good
  | mbxReplyHead fn head => exact good_execMbxReplyHead fn head s good
  | mbxEcho part => exact good_execMbxEcho part s good
  | mbxInfo part => exact good_execMbxInfo part s good
  | mbxQuota part => exact good_execMbxQuota part s good
  | mbxKeystat part => exact good_execMbxKeystat part s good
  | mbxHealth part => exact good_execMbxHealth part s good
  | partApply e part limit ptab => exact good_execPartApply e part limit ptab s good
  | partApplyCommit part => exact good_execPartApplyCommit part s good
  | partApplyLimit part now => exact good_execPartApplyLimit part now s good
  | partReset e part => exact good_execPartReset e part s good
  | instanceResetComplete part => exact good_execInstanceResetComplete part s good
  | partFreeze e part limit => exact good_execPartFreeze e part limit s good
  | freezePoint part now => exact good_execFreezePoint part now s good
  | freezeCancel part now => exact good_execFreezeCancel part now s good
  | partSave e part addr len slot => exact good_execPartSave e part addr len slot s good
  | partRestore e part addr len slot => exact good_execPartRestore e part addr len slot s good
  | partThaw e part => exact good_execPartThaw e part s good
  | partQuery e part addr => exact good_execPartQuery e part addr s good
  | partAddrWrite part o index ip vid pcp ven ports valid => exact good_execPartAddrWrite part o index ip vid pcp ven ports valid s good
  | quietExpiry part now => exact good_execQuietExpiry part now s good
  | keySelSet e sel tsel => exact good_execKeySelSet e sel tsel s good
  | keySelClear e sel => exact good_execKeySelClear e sel s good
  | keyAdvance e conn => exact good_execKeyAdvance e conn s good
  | keySeal e slot ispace ospace src dst len => exact good_execKeySeal e slot ispace ospace src dst len s good
  | keyUnseal e slot ispace ospace src dst len => exact good_execKeyUnseal e slot ispace ospace src dst len s good
  | keyStatus e addr => exact good_execKeyStatus e addr s good
  | contribSet part session kind slot value => exact good_execContribSet part session kind slot value s good
  | contribClear part session kind slot => exact good_execContribClear part session kind slot s good
  | spdmRequest ep r => exact good_execSpdmRequest ep r s good
  | firstContactDatagram peerIp peerDev ok final now => exact good_execFirstContactDatagram peerIp peerDev ok final now s good
  | firstContactRetry peerIp now => exact good_execFirstContactRetry peerIp now s good
  | rxNextKeyDerived fn conn => exact good_execRxNextKeyDerived fn conn s good
  | entropyWindowEnd ok => exact good_execEntropyWindowEnd ok s good
  | drbgReseed now => exact good_execDrbgReseed now s good
  | ideIntegrityFail link stream => exact good_execIdeIntegrityFail link stream s good
  | tdispRequest part r => exact good_execTdispRequest part r s good
  | jrnlExportWrite => exact good_execJrnlExportWrite s good
  | jrnlExportVisible => exact good_execJrnlExportVisible s good
  | jrnlExpHead o head => exact good_execJrnlExpHead o head s good
  | jrnlExpEnable o value => exact good_execJrnlExpEnable o value s good
  | jrnlTailRead o => exact good_execJrnlTailRead o s good
  | portDown port loss now => exact good_execPortDown port loss now s good
  | portUp port bp lanes => exact good_execPortUp port bp lanes s good
  | orderlyFenceProceed region => exact good_execOrderlyFenceProceed region s good
  | fenceWaitExpiry region now => exact good_execFenceWaitExpiry region now s good
  | errFenceReq o mask => exact good_execErrFenceReq o mask s good
  | errFenceUnfence o mask => exact good_execErrFenceUnfence o mask s good
  | errorArrival r strikes => exact good_execErrorArrival r strikes s good
  | errorActionEnd rec_ => exact good_execErrorActionEnd rec_ s good
  | errRecordClear o rec_ => exact good_execErrRecordClear o rec_ s good
  | saigaWatchdogExpiry => exact good_execSaigaWatchdogExpiry s good
  | scrubVisit scrubber f now => exact good_execScrubVisit scrubber f now s good
  | scrubStarve scrubber now => exact good_execScrubStarve scrubber now s good
  | frameReceive f => exact good_execFrameReceive f s good
  | pauseFrameReceive port bp quanta now => exact good_execPauseFrameReceive port bp quanta now s good
  | pfcFrameReceive port bp enables times now => exact good_execPfcFrameReceive port bp enables times now s good
  | pauseTimerExpiry port bp prio now => exact good_execPauseTimerExpiry port bp prio now s good
  | pfcRepeatTimer port bp now => exact good_execPfcRepeatTimer port bp now s good
  | overloadInterval port bp total corr uncorr now => exact good_execOverloadInterval port bp total corr uncorr now s good
  | shedCapReceive port bp lanes => exact good_execShedCapReceive port bp lanes s good
  | shedSample port bp rx now => exact good_execShedSample port bp rx now s good
  | shedReqReceive port bp seq lanes peerMac => exact good_execShedReqReceive port bp seq lanes peerMac s good
  | shedAckReceive port bp seq => exact good_execShedAckReceive port bp seq s good
  | shedNakReceive port bp seq => exact good_execShedNakReceive port bp seq s good
  | shedReqTimeout port bp now => exact good_execShedReqTimeout port bp now s good
  | shedLanesTrained port bp => exact good_execShedLanesTrained port bp s good
  | shedMarkReceive port bp => exact good_execShedMarkReceive port bp s good
  | shedMarkTimeout port bp now => exact good_execShedMarkTimeout port bp now s good
  | moduleInsert port power now => exact good_execModuleInsert port power now s good
  | moduleRemove port => exact good_execModuleRemove port s good
  | moduleIntl port flags => exact good_execModuleIntl port flags s good
  | portModeWrite o port value => exact good_execPortModeWrite o port value s good
  | fltCommit o index => exact good_execFltCommit o index s good
  | fltRetire index => exact good_execFltRetire index s good
  | timeAdj o delta => exact good_execTimeAdj o delta s good
  | ptpSyncReceive port bp domain offset now => exact good_execPtpSyncReceive port bp domain offset now s good
  | timeNowRead o => exact good_execTimeNowRead o s good
  | saigaDoze now => exact good_execSaigaDoze now s good
  | saigaWake source => exact good_execSaigaWake source s good
  | boot bad => exact good_execBoot bad s good
  | trialConfirm now => exact good_execTrialConfirm now s good
  | id node seq => exact good_execId node seq s good
  | regRead node seq addr width session => exact good_execRegRead node seq addr width session s good
  | regWrite node seq addr width value session => exact good_execRegWrite node seq addr width value session s good
  | flashWrite node seq addr data session => exact good_execFlashWrite node seq addr data session s good
  | imageSwitch node seq restart session => exact good_execImageSwitch node seq restart session s good
  | jrnlRead node seq rec_ session => exact good_execJrnlRead node seq rec_ session s good
  | healthMulticast now => exact good_execHealthMulticast now s good
  | telemetrySnapshot now => exact good_execTelemetrySnapshot now s good
  | loadShedWindow busy now => exact good_execLoadShedWindow busy now s good
  | mbusShortRetry ok now => exact good_execMbusShortRetry ok now s good
  | mgmtModeExit o => exact good_execMgmtModeExit o s good
  | mgmtSaEnable o value => exact good_execMgmtSaEnable o value s good
  | bistRegionStart o mask => exact good_execBistRegionStart o mask s good
  | bistRegionEnd region fails spares funit now => exact good_execBistRegionEnd region fails spares funit now s good
  | bistChipStart o bad => exact good_execBistChipStart o bad s good
  | tapScanSelect => exact good_execTapScanSelect s good
  | refStable restarts => exact good_execRefStable restarts s good
  | refLoss => exact good_execRefLoss s good
  | clkRampStep domain => exact good_execClkRampStep domain s good
  | clkSourceSwitch domain => exact good_execClkSourceSwitch domain s good
  | pllLockLoss pll => exact good_execPllLockLoss pll s good
  | clkDomSel o value => exact good_execClkDomSel o value s good
  | regionIdle region now => exact good_execRegionIdle region now s good
  | regionIdleWake region => exact good_execRegionIdleWake region s good
  | regionDoze region now => exact good_execRegionDoze region now s good
  | regionWake region => exact good_execRegionWake region s good
  | railSettled region mv => exact good_execRailSettled region mv s good
  | powerSwitchClosed region => exact good_execPowerSwitchClosed region s good
  | pllLocked region => exact good_execPllLocked region s good
  | pwrSleep o => exact good_execPwrSleep o s good
  | sleepExit source => exact good_execSleepExit source s good
  | powerLimitEval power now => exact good_execPowerLimitEval power now s good
  | powerLimitFence now => exact good_execPowerLimitFence now s good
  | thermalSample temps now => exact good_execThermalSample temps now s good
  | railFault region mv => exact good_execRailFault region mv s good
  | perstAssert link => exact good_execPerstAssert link s good
  | auxVoltageChange mv now => exact good_execAuxVoltageChange mv now s good
  | auxUvRecover now => exact good_execAuxUvRecover now s good
  | auxPowerLoss now => exact good_execAuxPowerLoss now s good
  | cageInsertPower port now => exact good_execCageInsertPower port now s good
  | cageOvercurrent port now => exact good_execCageOvercurrent port now s good
  | cageRetry port now => exact good_execCageRetry port now s good
  | coolantSensorRead x now => exact good_execCoolantSensorRead x now s good
  | coolingCapLift now => exact good_execCoolingCapLift now s good
  | connRefusalReceive rx fn kind hint now => exact good_execConnRefusalReceive rx fn kind hint now s good
  | priReset fn => exact good_execPriReset fn s good
  | vfEnableWrite link on => exact good_execVfEnableWrite link on s good
  | atsEnableWrite fn ctl => exact good_execAtsEnableWrite fn ctl s good
  | sleepExportTimeout now => exact good_execSleepExportTimeout now s good
  | slewAbsorbed now => exact good_execSlewAbsorbed now s good
  | tpfNop r => exact good_execTpfNop r s good
  | tpfEnd r => exact good_execTpfEnd r s good
  | tpfJmp r => exact good_execTpfJmp r s good
  | tpfBr r => exact good_execTpfBr r s good
  | tpfLoop r => exact good_execTpfLoop r s good
  | tpfSafepoint r => exact good_execTpfSafepoint r s good
  | tpfMovi r => exact good_execTpfMovi r s good
  | tpfAlu r => exact good_execTpfAlu r s good
  | tpfArg r => exact good_execTpfArg r s good
  | tpfId r => exact good_execTpfId r s good
  | tpfTime r => exact good_execTpfTime r s good
  | tpfExc r => exact good_execTpfExc r s good
  | tpfTread r => exact good_execTpfTread r s good
  | tpfTload r => exact good_execTpfTload r s good
  | tpfTstore r => exact good_execTpfTstore r s good
  | tpfTcopy r => exact good_execTpfTcopy r s good
  | tpfTfill r => exact good_execTpfTfill r s good
  | tpfMma r => exact good_execTpfMma r s good
  | tpfVop r => exact good_execTpfVop r s good
  | tpfVfn r => exact good_execTpfVfn r s good
  | tpfVred r => exact good_execTpfVred r s good
  | tpfQuant r => exact good_execTpfQuant r s good
  | tpfSend r => exact good_execTpfSend r s good
  | tpfRecv r => exact good_execTpfRecv r s good
  | tpfTadd r => exact good_execTpfTadd r s good
  | tpfTwait r => exact good_execTpfTwait r s good
  | tpfTset r => exact good_execTpfTset r s good
  | asyncOpEnd r op => exact good_execAsyncOpEnd r op s good
  | sendRetry r op now => exact good_execSendRetry r op now s good
  | peerMessageTransfer r op => exact good_execPeerMessageTransfer r op s good
  | copySave r => exact good_execCopySave r s good
  | copyResume r block => exact good_execCopyResume r block s good
  | spwaitExpiry r now => exact good_execSpwaitExpiry r now s good

/-- Settles O57: a step idles, or it runs the front command, which keeps the form. -/
theorem stepKeepsMemory : Obligations.StepKeepsMemory := by
  intro s t good next
  unfold step at next
  split at next
  case h_1 =>
    cases next
    exact good
  case h_2 c rest _ => exact exec_good (s := { s with pending := rest }) c good t next

end Sys2Proof.Machine
end

section
/-!
The memory commands (R350-R353): ATC_PREFETCH, SLICE_REKEY with its pages, and SLICE_INFO, each by the case it meets.
-/

namespace Sys2Proof.Machine

/-- Work that stops at once is done once. -/
theorem loop_stops {α : Type} {work : State → α → State × Option α} {n : Nat} {s t : State} {a : α} (stops : work s a = (t, none)) :
    (loop work (n + 1) s a).1 = t := by
  rw [loop, stops]

/-- Starting an entry leaves the page table. -/
@[simp] theorem begun_rekeyPages (s : State) (e : Entry) (op : Nat) (c : Instr) (f first count ksel : Nat) :
    (s.begun e op c).rekeyPages f first count ksel = s.rekeyPages f first count ksel := rfl

/-- Starting an entry leaves the record of SLICE_INFO. -/
@[simp] theorem begun_sliceRecord (s : State) (e : Entry) (op : Nat) (c : Instr) (f : Nat) : (s.begun e op c).sliceRecord f = s.sliceRecord f := rfl

/-- R353: the record is 64 bytes and a byte for each slice page. -/
theorem sliceRecord_length (s : State) (f : Nat) : (s.sliceRecord f).length = 64 + (s.part (partOf f)).cur.spages := by
  simp [State.sliceRecord]
  omega

/-! ### Commands (R351, R352, R353) -/

section
variable {s : State} {e : Entry} {f id : Nat}

theorem prefetchMiss_off {addr len : Nat} {wr : Bool} {given : List Nat} (off : AtsOff s f) : s.prefetchMiss f addr len wr given = none :=
  if_neg (by simp [off.1])

/-- R351: with translation off nothing is missing. -/
theorem atcPrefetch_off {addr len : Nat} {wr ok : Bool} (ready : Ready s e len1 false) (page : addr % 4096 = 0) (pages : len % 4096 = 0)
    (pos : 0 < len) (max : len ≤ 2 ^ 30) (off : AtsOff s e.fn.idx) :
    let t := s.begun e 0x380 (.atcPrefetch e addr len wr ok)
    exec (.atcPrefetch e addr len wr ok) s =
      .next (t.endOp e.fn.idx (s.opId e) .ok len (match t.op? e.fn.idx (s.opId e) with | some o => o.aux | none => []).length) := by
  intro t
  have off : AtsOff t e.fn.idx := by rwa [AtsOff, begun_ats]
  rw [exec_atcPrefetch, execAtcPrefetch, startEntry_ready ready rfl, effAtcPrefetch, checked_ok (ck_false _ _ (by omega))]
  dsimp only
  rw [prefetchMiss_off off] <;> rfl

/-- R353: SLICE_INFO of a virtual function writes its record. -/
theorem sliceInfo_ready {addr : Nat} (ready : Ready s e len1 false)
    (there : Usable s e.fn.idx [(addr, 64 + (s.part (partOf e.fn.idx)).cur.spages, true)]) (inst : isPf e.fn.idx = false) :
    exec (.sliceInfo e addr) s = .next (((s.begun e 0x382 (.sliceInfo e addr)).hostWrite e.fn.idx addr (s.sliceRecord e.fn.idx)).endOp e.fn.idx
      (s.opId e) .ok (64 + (s.part (partOf e.fn.idx)).cur.spages) 0) := by
  rw [← sliceRecord_length] at there ⊢
  rw [exec_sliceInfo, execSliceInfo, startEntry_ready ready rfl, effSliceInfo, if_neg (by simp [inst]), begun_sliceRecord,
    writeRecord_ok (usable_begun there)]

end

/-! ### SLICE_REKEY and its pages (R352) -/

section
variable {s : State} {f id : Nat}

/-- A command with a page to do marks it, and its record comes to the front. -/
theorem rekeyStart_marks {r : Rekey} (next : s.mem.rekeys.find? (fun r => r.fn = f ∧ r.op = id) = some r) (free : (s.pageEnt r.page).rk = false)
    (old : (s.pageEnt r.page).ksel ≠ r.ksel) :
    s.rekeyStart f id = { s with mem := { s.mem with pages := amod s.mem.pages r.page {} fun p => { p with rk := true },
                                                     rekeys := r :: s.mem.rekeys.erase r } } := by
  refine loop_stops ?_
  rw [State.rekeyNext, next]
  dsimp only
  rw [if_neg (by simp [free]), if_neg old]

/-- A command whose pages are done ends with their bytes. -/
theorem rekeyStart_ends {o : Op} (done : s.mem.rekeys = []) (found : s.op? f id = some o) : s.rekeyStart f id = s.endOp f id .ok o.need 0 := by
  refine loop_stops ?_
  rw [State.rekeyNext, done, found]
  rfl

/-- A page of the range that a command goes through is not yet under its selector. -/
theorem ksel_of_mem_rekeyPages {first count ksel j : Nat} (h : j ∈ s.rekeyPages f first count ksel) : (s.pageEnt j).ksel ≠ ksel := by
  simpa using (List.mem_filter.mp h).2

/-- A range queued behind the pages of other commands: its first page is marked. -/
theorem rekeyStart_queued {j k : Nat} {js : List Nat} (idle : s.mem.rekeys.find? (fun r => r.fn = f ∧ r.op = id) = none)
    (free : (s.pageEnt j).rk = false) (old : (s.pageEnt j).ksel ≠ k) :
    ({ s with mem := { s.mem with rekeys := s.mem.rekeys ++ (j :: js).map fun j => ⟨j, k, f, id⟩ } } : State).rekeyStart f id =
      { s with mem := { s.mem with
        pages := amod s.mem.pages j {} fun p => { p with rk := true },
        rekeys := (⟨j, k, f, id⟩ : Rekey) :: (s.mem.rekeys ++ (j :: js).map fun j => (⟨j, k, f, id⟩ : Rekey)).erase ⟨j, k, f, id⟩ } } := by
  refine rekeyStart_marks (r := ⟨j, k, f, id⟩) ?_ free old
  rw [List.find?_append, idle]
  simp

/-- A range of the slice, under a live selector of its partition, with no page that another command has marked, is gone through. -/
theorem effSliceRekey_goes {first count ksel : Nat} (page : first % 2 ^ 21 = 0) (pos : 0 < count) (fits : first + 2 ^ 21 * count ≤ s.sliceLen f)
    (inst : isPf f = false) (own : ksel / 4 = partOf f) (live : s.keyLive ksel = true)
    (free : ∀ j ∈ s.rekeyPages f first count ksel, (s.pageEnt j).rk = false) :
    effSliceRekey first count ksel f id s =
      let l := s.rekeyPages f first count ksel
      if l = [] then s.endOp f id .ok 0 0
      else ({ s with mem := { s.mem with rekeys := s.mem.rekeys ++ l.map fun j => ⟨j, ksel, f, id⟩ } } : State).rekeyStart f id := by
  rw [effSliceRekey, checked_ok]
  rw [ck_false _ _ (by omega), ck_false _ _ (by simp [inst, own, live]), ck_false _ _ (by simpa using free)]
  rfl

/-- The last line of a command's last page: the page moves to the new selector, and the command ends. -/
theorem sliceRekeyPage_last {page : Nat} {r : Rekey} {o : Op} (only : s.mem.rekeys = [r]) (at_ : r.page = page)
    (marked : (s.pageEnt page).rk = true) (room : s.jrnl.full = false) :
    let t := (({ s with mem := { s.mem with rekeys := [], pages := amod s.mem.pages page {} fun p => { p with ksel := r.ksel, rk := false } } } : State).jCommit
      (ownerOf r.fn) (jKey 9 (partOf r.fn) r.ksel .ok)).modOp r.fn r.op fun o => { o with need := o.need + 2 ^ 21 }
    t.mem.rekeys = [] → t.op? r.fn r.op = some o → s.rekeyPage page = t.endOp r.fn r.op .ok o.need 0 := by
  intro t done found
  have first : s.mem.rekeys.find? (fun r => r.page = page) = some r := by simp [only, at_]
  have rest : s.mem.rekeys.erase r = [] := by simp [only]
  rw [State.rekeyPage, first]
  dsimp only
  rw [if_neg (by simp [room, marked]), rest]
  change (t.mem.rekeys.filter _).foldl _ (t.rekeyStart r.fn r.op) = _
  rw [done, rekeyStart_ends done found]
  rfl

end

/-- Settles O21: ATC_PREFETCH with translation off, SLICE_REKEY by whether its range has a page left, its last page, and SLICE_INFO. -/
theorem memoryCommands : Obligations.MemoryCommands := by
  refine ⟨fun e s ready => ⟨fun addr len wr ok page pages pos max off => atcPrefetch_off ready page pages pos max off,
    fun first count ksel page pos fits inst own live free => ?rekey, fun addr there inst => sliceInfo_ready ready there inst⟩,
    fun page r o s only at_ marked room => ?last⟩
  case rekey =>
    intro t l
    rw [exec_sliceRekey, execSliceRekey, startEntry_ready ready rfl, effSliceRekey_goes (s := t) page pos fits inst own live free]
    dsimp only
    rw [begun_rekeyPages]
    refine ⟨fun done => ?_, fun j l' first idle => ?_⟩
    · rw [if_pos done]
    · have here : j ∈ l := first ▸ List.mem_cons_self
      dsimp only [l] at first ⊢
      rw [if_neg (by simp [first]), first, rekeyStart_queued (s := t) idle (free j here) (ksel_of_mem_rekeyPages here)]
      rfl
  case last =>
    intro t done found
    rw [exec_sliceRekeyPage, execSliceRekeyPage, sliceRekeyPage_last only at_ marked room done found]

end Sys2Proof.Machine
end

section
/-!
Translations, page requests and invalidations (R336-R342): each answer, timer and switch of translation by the case it meets.
-/

namespace Sys2Proof.Machine

/-! ### Page requests and their responses (R340, R341, R342) -/

section
variable {s : State} {f : Nat} {g : PriGroup}

theorem batchSend_due (open_ : (s.fn f).ats.batch ≠ []) (due : (s.fn f).ats.batchAt + priWait (s.fn f).ats.batchCfg ≤ s.now) :
    s.batchSend f = s.closeBatch f := if_pos ⟨open_, due⟩

/-- R341: a success frees the group, and its waiters translate again. -/
theorem priResponse_success (live : (s.fn f).ats.groups.find? (fun x => x.index = g.index ∧ x.gen = g.gen ∧ g.gen = (s.fn f).gen) = some g) :
    s.priResponse f g.index g.gen .success =
      let u := g.reqs.foldl (fun s r => s.askXlate f r.1 r.2) (s.modAts f fun a => { a with groups := a.groups.filter fun x => x ≠ g })
      sendGo ((u.fn f).ats.closed.length) u f := by
  rw [State.priResponse, live]

/-- R341: an invalid request frees the group, and its waiters are refused. -/
theorem priResponse_invalid (live : (s.fn f).ats.groups.find? (fun x => x.index = g.index ∧ x.gen = g.gen ∧ g.gen = (s.fn f).gen) = some g) :
    s.priResponse f g.index g.gen .invalid =
      let u := (s.modAts f fun a => { a with groups := a.groups.filter fun x => x ≠ g }).denyAll f g.reqs
      sendGo ((u.fn f).ats.closed.length) u f := by
  rw [State.priResponse, live]

/-- R342: a response that no group of the present generation waits for is counted. -/
theorem priResponse_late {gr gen : Nat} {rep : PriReply} (late : ∀ g ∈ (s.fn f).ats.groups, g.index = gr → g.gen = gen → gen ≠ (s.fn f).gen) :
    s.priResponse f gr gen rep = { s with mem := { s.mem with stale := satAdd 0xFFFF s.mem.stale 1 } } := by
  have none : (s.fn f).ats.groups.find? (fun g => g.index = gr ∧ g.gen = gen ∧ gen = (s.fn f).gen) = none := by
    simpa using late
  rw [State.priResponse, none]

/-- R342: a group unanswered in time is counted, and its waiters are refused. -/
theorem priTimeout_due (due : (s.fn f).ats.groups.find? (fun x => x.index = g.index ∧ x.sentAt + x.tmo ≤ s.now) = some g)
    (present : g.gen = (s.fn f).gen) :
    let t := s.modAts f fun a => { a with groups := a.groups.filter fun x => x ≠ g }
    s.priTimeout f g.index =
      let u := ({ t with mem := { t.mem with timeouts := satAdd 0xFFFF t.mem.timeouts 1 } } : State).denyAll f g.reqs
      sendGo ((u.fn f).ats.closed.length) u f := by
  intro t
  have still : g.gen = (t.fn f).gen := by simp [t, State.modAts, present]
  rw [State.priTimeout, due]
  exact congrArg (fun u : State => sendGo (u.fn f).ats.closed.length u f) (if_pos still)

end

/-! ### Invalidations (R339) -/

/-- An invalidation completes once no entry, read or packet uses its range. -/
theorem invalDone_unused {s : State} {f tag addr len : Nat} (asked : (s.fn f).ats.invals.find? (fun i => i.1 = tag) = some (tag, addr, len))
    (uncached : (s.mem.atc.any fun e => e.fn = f && decide (e.addr < addr + len ∧ addr < e.addr + e.size)) = false)
    (unread : ((s.link (s.linkOf f)).reads.any fun r => r.fn = f && decide (r.addr < addr + len ∧ addr < r.addr + r.len)) = false)
    (unheld : s.rangeHeld f addr len = false) :
    s.invalDone f tag =
      (s.modAts f fun a => { a with invals := a.invals.filter fun i => i ≠ (tag, addr, len) }).emit (.invalDone f tag) := by
  rw [State.invalDone, asked]
  dsimp only
  rw [if_neg (by simp only [uncached, unread, unheld, Bool.false_eq_true, or_self, not_false_eq_true])]

/-! ### Translation Completions (R337, R338) -/

/-- A function is frozen with its partition, whatever it has cached. -/
@[simp] theorem cacheXlate_frozenFn (s : State) (f page size g : Nat) (r w : Bool) : (s.cacheXlate f page size r w).frozenFn g = s.frozenFn g := rfl

@[simp] theorem modFn_frozenFn (s : State) (f g : Nat) (m : FnState → FnState) : (s.modFn f m).frozenFn g = s.frozenFn g := rfl

section
variable {s : State} {f addr pg size : Nat} {r w wr : Bool}
  (asked : (s.fn f).ats.reqs.find? (fun r => r.1 / 2 ^ (s.fn f).ats.stu = addr / 2 ^ (s.fn f).ats.stu) = some (pg, wr))
  (thawed : s.frozenFn f = false)
include asked thawed

/-- A translation that permits what the page was asked for is cached, and what waited goes on. -/
theorem xlateDone_permits (permits : (if wr then w else r) = true) : s.xlateDone f addr (.granted r w size) =
    (((s.modFn f fun x => { x with ats := { x.ats with reqs := x.ats.reqs.filter fun r => r ≠ (pg, wr) } }).cacheXlate f pg size r w).resumeAt f
      fun p v => p = pg && v = wr).atcSettle f := by
  have grants : (r || w) = true := by
    cases wr with
    | true => rw [show w = true from permits, Bool.or_true]
    | false => rw [show r = true from permits, Bool.true_or]
  unfold State.xlateDone
  extract_lets unit
  rw [asked]
  dsimp only
  rw [if_pos grants, cacheXlate_frozenFn, modFn_frozenFn, thawed, permits, if_neg Bool.false_ne_true, if_pos rfl]

/-- A translation that denies it is cached for what it permits, and does not let it go on. -/
theorem xlateDone_denies (denies : (if wr then w else r) = false) : s.xlateDone f addr (.granted r w size) =
    let t := s.modFn f fun x => { x with ats := { x.ats with reqs := x.ats.reqs.filter fun r => r ≠ (pg, wr) } }
    ((if r || w then t.cacheXlate f pg size r w else t).denyPage f pg wr true).atcSettle f := by
  unfold State.xlateDone
  extract_lets unit
  rw [asked]
  dsimp only
  rw [apply_ite (State.frozenFn · f), cacheXlate_frozenFn, ite_self, modFn_frozenFn, thawed, denies, if_neg Bool.false_ne_true,
    if_neg Bool.false_ne_true]

/-- UR or CA refuses what waits for the page. -/
theorem xlateDone_urca : s.xlateDone f addr .urca =
    ((s.modFn f fun x => { x with ats := { x.ats with reqs := x.ats.reqs.filter fun r => r ≠ (pg, wr) } }).denyPage f pg wr false).atcSettle f := by
  unfold State.xlateDone
  extract_lets unit
  rw [asked]
  dsimp only
  rw [modFn_frozenFn, thawed, if_neg Bool.false_ne_true, if_neg Bool.false_ne_true]

end

/-! ### ATS Enable and Untranslated reads (R336) -/

section
variable {s : State} {f stu pg : Nat}

theorem atsEnable_again (on : (s.fn f).ats.enable = true) :
    s.atsEnable f true stu = s.modAts f fun a => { a with enable := true, pri := true, stu := stu % 32, ur := [] } := by
  rw [State.atsEnable, if_pos rfl]
  exact if_pos (.inl on)

variable (thawed : s.frozenFn f = false)
include thawed

theorem atsEnable_on (off : (s.fn f).ats.enable = false) : s.atsEnable f true stu =
    (s.modAts f fun a => { a with enable := true, pri := true, stu := stu % 32, ur := [] }).resumeAt f fun _ _ => true := by
  rw [State.atsEnable, if_pos rfl]
  exact if_neg (not_or.mpr ⟨ne_true_of_eq_false off, ne_true_of_eq_false thawed⟩)

theorem atsEnable_off : s.atsEnable f false stu =
    ((({ s with mem := { s.mem with atc := s.mem.atc.filter fun e => e.fn ≠ f } } : State).modAts f fun a =>
      { a with enable := false, pri := false, batch := [], closed := [], reqs := [] }).resumeAt f fun _ _ => true) := by
  rw [State.atsEnable, if_neg Bool.false_ne_true]
  exact if_neg (ne_true_of_eq_false thawed)

variable (off : (s.fn f).ats.enable = false)
include off

/-- An Untranslated read answered with UR or CA refuses what waits for its page. -/
theorem untranslated_urca : s.untranslated f pg .urca =
    (s.modAts f fun a => { a with ur := if a.ur.contains pg then a.ur else a.ur ++ [pg] }).denyPage f pg false false := by
  rw [State.untranslated, if_neg (ne_true_of_eq_false off)]
  exact if_neg (ne_true_of_eq_false thawed)

/-- One that succeeds lets it go on. -/
theorem untranslated_data {rep : ReadReply} (data : rep ≠ .urca) : s.untranslated f pg rep =
    (s.modAts f fun a => { a with ur := a.ur.filter fun p => p ≠ pg }).resumeAt f fun p w => p = pg && ! w := by
  cases rep with
  | urca => exact absurd rfl data
  | ok => exact (if_neg (ne_true_of_eq_false off)).trans (if_neg (ne_true_of_eq_false thawed))
  | poison => exact (if_neg (ne_true_of_eq_false off)).trans (if_neg (ne_true_of_eq_false thawed))

end

/-- Settles O22: one lemma an answer, a timer, and a switch of translation. -/
theorem pageRequests : Obligations.PageRequests := by
  intro fn s f a
  refine ⟨fun now open_ due => ?send, fun g live => ⟨?success, ?invalid⟩, fun gr gen rep late => ?late, fun g now due present => ?timeout, rfl,
    fun tag addr len => rfl, fun tag addr len asked uncached unread unheld => ?inval,
    fun addr size pg r w wr asked thawed => ⟨fun permits => ?permits, fun denies => ?denies, ?urca⟩,
    fun stu => ⟨fun on => ?again, fun off thawed => ?on⟩, fun stu thawed => ?off,
    fun l tag gen addr data rep own off thawed => ⟨fun fails => ?fails, fun succeeds => ?succeeds⟩⟩
  case send => rw [exec_pageRequestBatchSend, execPageRequestBatchSend, batchSend_due (s := s.tick now) open_ due]
  case success =>
    rw [exec_priResponseReceive, execPriResponseReceive, priResponse_success live]
    rfl
  case invalid =>
    rw [exec_priResponseReceive, execPriResponseReceive, priResponse_invalid live]
    rfl
  case late => rw [exec_priResponseReceive, execPriResponseReceive, priResponse_late late]
  case timeout =>
    rw [exec_priTimeout, execPriTimeout, priTimeout_due (s := s.tick now) due present]
    rfl
  case inval =>
    rw [exec_atsInvalidateComplete, execAtsInvalidateComplete, invalDone_unused asked uncached unread unheld]
    rfl
  case permits => rw [exec_atsTranslationCompletion, execAtsTranslationCompletion, xlateDone_permits asked thawed permits]
  case denies => rw [exec_atsTranslationCompletion, execAtsTranslationCompletion, xlateDone_denies asked thawed denies]
  case urca => rw [exec_atsTranslationCompletion, execAtsTranslationCompletion, xlateDone_urca asked thawed]
  case again =>
    rw [exec_atsEnableWrite, execAtsEnableWrite, atsEnable_again on]
    rfl
  case on =>
    rw [exec_atsEnableWrite, execAtsEnableWrite, atsEnable_on thawed off]
    rfl
  case off =>
    rw [exec_atsEnableWrite, execAtsEnableWrite, atsEnable_off thawed]
    rfl
  case fails =>
    rw [exec_hostReadCompletion, execHostReadCompletion, fails]
    dsimp only
    rw [if_pos own, untranslated_urca thawed off]
    rfl
  case succeeds =>
    rw [exec_hostReadCompletion, execHostReadCompletion]
    dsimp only
    rw [if_pos own, untranslated_data thawed off succeeds]
    rfl

end Sys2Proof.Machine
end

section
/-!
The key commands (R332, R413, R422, R425-R428): what a command that is taken does, for any state that meets its conditions.
-/

namespace Sys2Proof.Machine

/-! ### Key commands are taken (R426, R440) -/

theorem instAdminOnly_ok {e : Entry} (inst : isPf e.fn.idx = false) (admin : e.ring = 0) : instAdminOnly e = [] := by
  rw [instAdminOnly, ck_false _ _ (ne_true_of_eq_false inst), ck_false _ _ (fun h => h.2 admin)]
  rfl

/-- With room in the journal, a command that no condition refuses goes on. -/
theorem keyCmd_takes {s : State} {f id slot : Nat} {l : List Status} {k : State → State} (room : s.jrnl.full = false) (checks : l = []) :
    s.keyCmd f id slot l k = k s := by
  rw [State.keyCmd, room, checks]
  rfl

/-- A record in the journal leaves what a host range waits for. -/
@[simp] theorem jCommit_missing (s : State) (o : Origin) (b : JBody) (f a n : Nat) (w : Bool) :
    (s.jCommit o b).missing f a n w = s.missing f a n w := by
  unfold State.missing
  simp

/-- Starting an entry leaves the record of KEY_STATUS. -/
@[simp] theorem begun_keyRecord (s : State) (e : Entry) (op : Nat) (c : Instr) (p : Nat) : (s.begun e op c).keyRecord p = s.keyRecord p := by
  have bare : (s.begun e op c).bareConns (4 + p) = s.bareConns (4 + p) := by rw [State.bareConns, begun_conns, State.bareConns]
  rw [State.keyRecord, bare]
  rfl

@[simp] theorem keyRecord_length (s : State) (p : Nat) : (s.keyRecord p).length = 64 := by simp [State.keyRecord]

/-- A local range to read and one to write that are there, with no poison in what is read: the data is read. -/
theorem sealIo_there {s : State} {f id src len dst olen : Nat} {isp osp : Bool} {k : List Byte → State → State}
    (input : s.locMiss f isp src len false = none) (output : s.locMiss f osp dst olen true = none) (sound : s.locPoison f isp src len = none) :
    s.sealIo f id isp osp src len dst olen k = k (s.locRead f isp src len) (s.locUse f isp src len) := by
  rw [State.sealIo, input, output, sound]

/-! ### What each key command does (R332, R422, R425-R428) -/

section
variable {s : State} {e : Entry} {f id : Nat} (inst : isPf e.fn.idx = false) (admin : e.ring = 0) (room : s.jrnl.full = false)
include inst admin room

/-- R332: KEY_SEL_SET installs a contribution, or none, with a new install nonce. -/
theorem effKeySelSet_installs {sel tsel : Nat} (free : s.keyLive (4 * partOf f + sel % 4) = false) (keys : s.noKeys = false)
    (source : tsel = 0xFF ∨ (tsel ≤ 7 ∧ (agetD (s.part (partOf f)).slots tsel {}).value.isSome = true)) :
    effKeySelSet e sel tsel f id s =
      let k := 4 * partOf f + sel % 4
      let u := s.jCommit (s.originOf f) (jKey 3 (partOf f) k .ok)
      { u.bump.bump with mem := { u.mem with
        keys := aset u.mem.keys k (if tsel = 0xFF then none else (agetD (s.part (partOf f)).slots tsel {}).value, u.freeVal + 2 ^ 64 * u.bump.freeVal) } }.endOp
        f id .ok 0 0 := by
  rw [effKeySelSet, keyCmd_takes room]
  rw [instAdminOnly_ok inst admin, ck_false _ _ (ne_true_of_eq_false free), ck_false _ _ ?_, ck_false _ _ (ne_true_of_eq_false keys)]
  · rfl
  · rintro ⟨named, bad⟩
    obtain ⟨small, held⟩ := source.resolve_left named
    rcases bad with out | unset
    · omega
    · rw [Option.isNone_iff_eq_none.mp unset] at held
      exact absurd held Bool.false_ne_true

/-- R332: KEY_SEL_CLEAR erases a key that no page names. -/
theorem effKeySelClear_erases {sel : Nat} (live : s.keyLive (4 * partOf f + sel % 4) = true) (unnamed : s.selNamed (4 * partOf f + sel % 4) = false) :
    effKeySelClear e sel f id s =
      let k := 4 * partOf f + sel % 4
      let u := s.jCommit (s.originOf f) (jKey 4 (partOf f) k .ok)
      { u with mem := { u.mem with keys := adel u.mem.keys k } }.endOp f id .ok 0 0 := by
  rw [effKeySelClear, keyCmd_takes room]
  rw [instAdminOnly_ok inst admin, ck_false _ _ (by simp [live, unnamed])]
  rfl

/-- R422: KEY_ADVANCE starts the next epoch of what the connection sends. -/
theorem effKeyAdvance_enters {conn : Nat} (st : (s.conn f (conn % 2 ^ 20)).state = .established)
    (plain : (s.conn f (conn % 2 ^ 20)).cid.herd = none) (epochs : (s.conn f (conn % 2 ^ 20)).tx.kepoch ≠ 0xFFFF) :
    effKeyAdvance e conn f id s = s.rekeyEnter f (conn % 2 ^ 20) := by
  rw [effKeyAdvance, keyCmd_takes room]
  generalize conn % 2 ^ 20 = h at st plain epochs
  rw [instAdminOnly_ok inst admin, ck_false _ _ (by simp [st, plain]), ck_false _ _ (by simp [epochs])]
  rfl

/-- R428: KEY_STATUS writes its record. -/
theorem effKeyStatus_writes {addr : Nat} (there : Usable s f [(addr, 64, true)]) : effKeyStatus e addr f id s =
    ((s.jCommit (s.originOf f) (jKey 0 (partOf f) 0 .ok)).hostWrite f addr (s.keyRecord (partOf f))).endOp f id .ok 64 0 := by
  rw [effKeyStatus, keyCmd_takes room (instAdminOnly_ok inst admin), withHost_ok there, writeRecord_ok, keyRecord_length]
  intro r range
  rw [jCommit_missing]
  exact there r (by rwa [keyRecord_length] at range)

variable {slot src dst len : Nat} {isp osp : Bool} {v : Nat} (slots : slot ≤ 7) (keys : s.noKeys = false)
  (input : s.locMiss f isp src len false = none) (sound : s.locPoison f isp src len = none) (inside : s.locCheck f isp src len = [])
  (contrib : (agetD (s.part (partOf f)).slots slot {}).value = some v)
include slots keys input sound inside contrib

/-- R427: KEY_SEAL writes the blob and counts a seal of the slot. -/
theorem effKeySeal_seals (max : len ≤ 2 ^ 24) (fits : s.locCheck f osp dst (len + 48) = []) (output : s.locMiss f osp dst (len + 48) true = none)
    (seals : (agetD (s.part (partOf f)).slots slot {}).seals < 2 ^ 32) :
    effKeySeal e slot isp osp src dst len f id s =
      let x := agetD (s.part (partOf f)).slots slot {}
      let u := s.locUse f isp src len
      let w := (u.bump.jCommit (u.originOf f) (jKey 0 (partOf f) slot .ok)).modPart (partOf f) fun y =>
        { y with slots := aset y.slots slot { x with seals := x.seals + 1 } }
      (w.locWrite f osp dst (blobOf (partOf f) slot v (u.openBytes 12) (s.locRead f isp src len))).endOp f id .ok (len + 48) 0 := by
  have checks : instAdminOnly e ++ ck (2 ^ 24 < len) .range ++ s.locCheck f isp src len ++ s.locCheck f osp dst (len + 48) ++
      ck (7 < slot ∨ (agetD (s.part (partOf f)).slots slot {}).value.isNone = true) .prot ++
      ck (slot ≤ 7 ∧ (agetD (s.part (partOf f)).slots slot {}).value.isSome = true ∧ 2 ^ 32 ≤ (agetD (s.part (partOf f)).slots slot {}).seals) .exhausted ++
      ck (s.noKeys = true) .internal = [] := by
    rw [instAdminOnly_ok inst admin, ck_false _ _ (by omega), inside, fits, ck_false _ _ (by simp [slots, contrib]), ck_false _ _ (by omega),
      ck_false _ _ (ne_true_of_eq_false keys)]
    rfl
  have value : (agetD (s.part (partOf f)).slots slot {}).value.getD 0 = v := by rw [contrib, Option.getD_some]
  rw [effKeySeal, keyCmd_takes room checks, sealIo_there input output sound, value]

/-- R425, R427: KEY_UNSEAL of a blob that can be read goes by its header and its tag. -/
theorem effKeyUnseal_reads (min : 48 ≤ len) (max : len ≤ 2 ^ 24 + 48) (fits : s.locCheck f osp dst (len - 48) = [])
    (output : s.locMiss f osp dst (len - 48) true = none) :
    effKeyUnseal e slot isp osp src dst len f id s =
      let b := s.locRead f isp src len
      let u := s.locUse f isp src len
      let key := sealKey (partOf f) slot v
      let iv := beNat ((b.drop 8).take 12)
      let ct := (b.take (len - 16)).drop 32
      if ! blobFits (partOf f) len b then (u.jCommit (u.originOf f) (jKey 0 (partOf f) slot .range)).endOp f id .range 0 0
      else if gcmTag key iv (b.take 32) ct = b.drop (len - 16) then
        ((u.jCommit (u.originOf f) (jKey 0 (partOf f) slot .ok)).locWrite f osp dst (gcmXor key iv ct)).endOp f id .ok (len - 48) 0
      else ((u.jCommit (u.originOf f) (jKey 0 (partOf f) slot .auth)).locWrite f osp dst (List.replicate (len - 48) 0)).endOp f id .auth 0 0 := by
  have checks : instAdminOnly e ++ ck (len < 48 ∨ 2 ^ 24 + 48 < len) .range ++ s.locCheck f isp src len ++ s.locCheck f osp dst (len - 48) ++
      ck (7 < slot ∨ (agetD (s.part (partOf f)).slots slot {}).value.isNone = true) .prot ++ ck (s.noKeys = true) .internal = [] := by
    rw [instAdminOnly_ok inst admin, ck_false _ _ (by omega), inside, fits, ck_false _ _ (by simp [slots, contrib]),
      ck_false _ _ (ne_true_of_eq_false keys)]
    rfl
  rw [effKeyUnseal, keyCmd_takes room checks, sealIo_there input output sound, contrib]
  rfl

end

/-- Settles O34: one lemma a command, at the state that starting its entry leaves. -/
theorem keyCommands : Obligations.KeyCommands := by
  intro e s inst admin ready room f id p
  refine ⟨fun sel tsel => ?set, fun sel => ?clear, fun conn st plain epochs => ?advance, fun addr there => ?status,
    fun slot src dst len isp osp slots => ?blobs⟩
  case set =>
    intro k v free keys source u
    rw [exec_keySelSet, execKeySelSet, startEntry_ready ready rfl]
    exact congrArg _ (effKeySelSet_installs (s := s.begun e 0x480 (.keySelSet e sel tsel)) inst admin room free keys source)
  case clear =>
    intro k live unnamed u
    rw [exec_keySelClear, execKeySelClear, startEntry_ready ready rfl]
    exact congrArg _ (effKeySelClear_erases (s := s.begun e 0x481 (.keySelClear e sel)) inst admin room live unnamed)
  case advance =>
    let t := s.begun e 0x482 (.keyAdvance e conn)
    have same : t.conn f (conn % 2 ^ 20) = s.conn f (conn % 2 ^ 20) := begun_conn ..
    rw [exec_keyAdvance, execKeyAdvance, startEntry_ready ready rfl]
    exact congrArg _ (effKeyAdvance_enters (s := t) inst admin room (same ▸ st) (same ▸ plain) (same ▸ epochs))
  case status =>
    intro u
    rw [exec_keyStatus, execKeyStatus, startEntry_ready ready rfl,
      effKeyStatus_writes (s := s.begun e 0x485 (.keyStatus e addr)) inst admin room (usable_begun there), begun_keyRecord]
    rfl
  case blobs =>
    intro x keys input sound inside
    refine ⟨fun v max fits output contrib seals => ?sealing, fun v min max fits output contrib => ?unsealing⟩
    case sealing =>
      intro t u w
      rw [exec_keySeal, execKeySeal, startEntry_ready ready rfl]
      exact congrArg _ (effKeySeal_seals (s := t) inst admin room slots keys ((begun_locMiss ..).trans input) ((begun_locPoison ..).trans sound)
        ((begun_locCheck ..).trans inside) contrib max ((begun_locCheck ..).trans fits) ((begun_locMiss ..).trans output) seals)
    case unsealing =>
      intro t b u key iv ct
      rw [exec_keyUnseal, execKeyUnseal, startEntry_ready ready rfl,
        effKeyUnseal_reads (s := t) inst admin room slots keys ((begun_locMiss ..).trans input) ((begun_locPoison ..).trans sound)
          ((begun_locCheck ..).trans inside) contrib min max ((begun_locCheck ..).trans fits) ((begun_locMiss ..).trans output)]
      refine ⟨fun odd => ?_, fun fit tag => ?_, fun fit tag => ?_⟩
      · exact congrArg _ (if_pos (by rw [odd]; rfl))
      · exact congrArg _ ((if_neg (by rw [fit]; exact Bool.false_ne_true)).trans (if_pos tag))
      · exact congrArg _ ((if_neg (by rw [fit]; exact Bool.false_ne_true)).trans (if_neg tag))

end Sys2Proof.Machine
end

section
/-!
Host links (R355-R369, R378-R382, R491): completions of reads and their time-out, resets and training, CXL.mem, snoops and the directory.
-/

namespace Sys2Proof.Machine

/-! ### Host reads (R380, R382, R491) -/

section
variable {s : State} {l tag : Nat} {r : HRead}

section
variable {link : Fin 4} {data : List Byte} {reply : ReadReply} (held : (s.link link.val).reads.find? (fun x => x.tag = r.tag) = some r)
include held

/-- The completion of a read that the link holds, with the read's own tag and generation, is taken. -/
theorem exec_hostReadCompletion_held :
    exec (.hostReadCompletion link r.tag r.gen data ⟨reply, none⟩) s = .next (s.hostReadCpl link.val r.tag data reply).settle := by
  have live : ((s.link link.val).reads.any fun x => x.tag = r.tag ∧ x.gen = r.gen) = true :=
    List.any_eq_true.mpr ⟨r, List.mem_of_find?_eq_some held, by simp⟩
  rw [exec_hostReadCompletion, execHostReadCompletion]
  exact congrArg _ (if_pos live)

/-- R380: where its generation is stale, it is discarded and counted. -/
theorem exec_hostReadCompletion_stale (stale : (s.freeRead link.val r).staleRead r = true) :
    exec (.hostReadCompletion link r.tag r.gen data ⟨reply, none⟩) s =
      .next ((s.freeRead link.val r).modLink link.val fun x => { x with staleCpl := satAdd 0xFF x.staleCpl 1 }).settle := by
  rw [exec_hostReadCompletion_held held, State.hostReadCpl, held]
  exact congrArg (fun t : State => Host.Outcome.next t.settle) (if_pos stale)

/-- Where its generation is current, it fills the packet that waits for it, or fails it. -/
theorem exec_hostReadCompletion_current (current : (s.freeRead link.val r).staleRead r = false) :
    exec (.hostReadCompletion link r.tag r.gen data ⟨reply, none⟩) s = .next (State.settle (match reply with
      | .ok => (s.freeRead link.val r).modFifo r.port r.fifo fun e =>
          { e with ready := true, pkt := e.pkt.map fun p => { p with payload := data.take r.len } }
      | .poison => (s.freeRead link.val r).readFails r true
      | .urca => ((s.freeRead link.val r).readFails r false).refusedCount)) := by
  rw [exec_hostReadCompletion_held held, State.hostReadCpl, held]
  exact congrArg (fun t : State => Host.Outcome.next t.settle) (if_neg (ne_true_of_eq_false current))

end

/-- R382: the read of the current generation that CTO ends. -/
theorem readTimeout_current (due : (s.link l).reads.find? (fun x => x.tag = tag ∧ x.at_ + s.ctoNs l ≤ s.now) = some r)
    (current : s.staleRead r = false) :
    s.readTimeout l tag =
      (((((s.freeRead l r).modLink l fun x => { x with cto := satAdd 0xFF x.cto 1 }).aer r.fn 14).readFails r false).refusedCount) := by
  rw [State.readTimeout, due]
  exact if_neg (ne_true_of_eq_false current)

end

/-! ### Resets and training (R356, R357, R378) -/

section
variable {s : State} {l : Fin 4}

/-- R378: an FLR of the VF of a partition of this link. -/
theorem exec_vfFlr_own {p : Fin 16} (used : (s.part p.val).state ≠ .empty) (own : (s.part p.val).cur.link = l.val) :
    exec (.vfFlr l p) s = .next ((s.journalLink 1 l.val (p.val + 1)).tdiReset p.val).settle := by
  rw [exec_vfFlr, execVfFlr]
  exact congrArg _ (if_neg (not_or.mpr ⟨used, not_not.mpr own⟩))

/-- R356: training that nothing prevents ends with the link up. -/
theorem exec_linkUp_trained {speed width : Nat} {cxl : Bool} (hs : 0 < speed) (maxSpeed : speed ≤ 6) (hw : 0 < width) (maxWidth : width ≤ 16)
    (perst : (s.link l.val).perst = false) (enabled : (s.link l.val).disabled = false) (detect : (s.link l.val).detect = true)
    (powered : s.powered = true) (runs : s.mgmt.recovery = false) :
    exec (.linkUp l speed width cxl) s = .next
      ((if cxl then s.journalLink 4 l.val 0 else (s.journalLink 4 l.val 0).noCxl l.val).modLink l.val fun x =>
        { x with up := true, speed := speed, width := width, cxl := cxl }) := by
  rw [exec_linkUp, execLinkUp]
  refine congrArg _ (if_neg ?_)
  simp [perst, enabled, detect, powered, runs]
  omega

/-- R357: outside stand-alone operation a write of VF Enable acts. -/
theorem exec_vfEnableWrite_attached {on : Bool} (attached : s.mgmt.sa = false) :
    exec (.vfEnableWrite l on) s = .next (s.modLink l.val fun x => { x with vfEnable := on }) := by
  rw [exec_vfEnableWrite, execVfEnableWrite]
  exact congrArg _ (if_neg fun h => absurd h.1 (ne_true_of_eq_false attached))

end

/-! ### CXL.mem (R367, R368, R491) -/

section
variable {s : State} {l : Fin 4} {addr : Nat}

section
variable (serves : s.cxlServes l.val addr = true)
include serves

theorem exec_cxlMemWrite_served {data : List Byte} :
    exec (.cxlMemWrite l addr data) s = .next
      (({ s with mem := (s.mem.touch (s.cxlPhys addr) 64).write (cellKey dramSpace (s.cxlPhys addr)) (data.take 64) } : State).emit
        (.memCmp l.val addr)) := by
  rw [exec_cxlMemWrite, execCxlMemWrite]
  exact congrArg _ (if_pos serves)

/-- A read of an offset that is served: the line is tracked, and it goes out with its bytes, or as zeros where it holds poison. -/
theorem exec_cxlMemRead_served :
    let k := cellKey dramSpace (s.cxlPhys addr)
    let t := s.track l.val (s.cxlPhys addr / 64)
    let bad := (t.mem.firstPoison k 64).isSome
    exec (.cxlMemRead l addr) s = .next (t.emit (.memData l.val addr bad (if bad then List.replicate 64 0 else cellsGet t.mem.bytes k 64))) := by
  rw [exec_cxlMemRead, execCxlMemRead]
  exact congrArg _ (if_pos serves)

end

section
variable (refuses : s.cxlServes l.val addr = false)
include refuses

theorem exec_cxlMemWrite_refused {data : List Byte} :
    exec (.cxlMemWrite l addr data) s = .next ((s.cxlRefuse l.val).emit (.memCmp l.val addr)) := by
  rw [exec_cxlMemWrite, execCxlMemWrite]
  exact congrArg _ (if_neg (ne_true_of_eq_false refuses))

theorem exec_cxlMemRead_refused :
    exec (.cxlMemRead l addr) s = .next ((s.cxlRefuse l.val).emit (.memData l.val addr true (List.replicate 64 0))) := by
  rw [exec_cxlMemRead, execCxlMemRead]
  exact congrArg _ (if_neg (ne_true_of_eq_false refuses))

end

/-! ### The directory and the line cache (R365, R369) -/

/-- R369: the recall of a tracked line, and what its answer writes. -/
theorem exec_directoryRecall_tracked {dirty : Option (List Byte)} (tracked : (l.val, addr / 64) ∈ s.mem.dir) :
    let t := s.biSnp (l.val, addr / 64)
    exec (.directoryRecall l addr dirty) s = .next (match dirty with
      | some d => { t with mem := (t.mem.touch (addr / 64 * 64) 64).write (cellKey dramSpace (addr / 64 * 64)) (d.take 64) }
      | none => t) := by
  rw [exec_directoryRecall, execDirectoryRecall]
  exact congrArg _ ((if_pos (List.contains_iff_mem.mpr tracked)).trans (by cases dirty <;> rfl))

/-- R365: with room in the journal, clearing CACHE_EN drops the link's lines. -/
theorem exec_lineCacheDisable_journalled {o : Origin} (room : s.jrnl.full = false) :
    let off := 0x1000008 + 0x10000 * l.val
    let v := s.reg off
    exec (.lineCacheDisable l o) s =
      .next (((s.jCommit o (.setup off 8 false v (v - v % 2))).dropLink l.val).setReg off (v - v % 2)) := by
  rw [exec_lineCacheDisable, execLineCacheDisable]
  exact congrArg _ (setupWrite_acts room)

end

/-- Settles O20: one lemma an event, by the case it meets; the resets of the physical function and of the link have one case. -/
theorem hostLinks : Obligations.HostLinks := by
  intro l s
  refine ⟨fun r data held =>
      ⟨exec_hostReadCompletion_current held, exec_hostReadCompletion_stale held, exec_hostReadCompletion_current held,
        exec_hostReadCompletion_current held⟩,
    fun r now due => ?timeout, fun p used own => exec_vfFlr_own used own, rfl, rfl,
    fun speed width cxl hs ms hw mw perst enabled detect powered runs => exec_linkUp_trained hs ms hw mw perst enabled detect powered runs,
    fun on attached => exec_vfEnableWrite_attached attached, fun addr data serves => ?served, fun addr data refuses => ?refused,
    fun addr => ⟨rfl, rfl⟩, fun addr d tracked => ⟨exec_directoryRecall_tracked tracked, exec_directoryRecall_tracked tracked⟩,
    fun o room => exec_lineCacheDisable_journalled room⟩
  case timeout =>
    intro t current
    rw [exec_completionTimeout, execCompletionTimeout, readTimeout_current (s := s.tick now) due current]
    rfl
  case served =>
    refine ⟨exec_cxlMemWrite_served serves, fun sound => ?_, fun poison => ?_⟩
    · rw [exec_cxlMemRead_served serves, sound]
      rfl
    · rw [exec_cxlMemRead_served serves, poison]
      rfl
  case refused => exact ⟨exec_cxlMemWrite_refused refuses, exec_cxlMemRead_refused refuses⟩

end Sys2Proof.Machine
end

section
/-!
The instance mailbox (R370-R377): a message goes into the queue, is taken and answered, and its reply goes into the reply ring.
-/

namespace Sys2Proof.Machine

section
variable {s : State} {p : Nat}

/-- R372: a well-formed message of 64 bytes is queued while an entry is free, and wakes the saiga. -/
theorem instMbx_queues {l : Nat} {msg : MbxMsg} {defer : Bool} (domain : s.power.saiga ≠ 2) (answers : s.answers (4 + p) = true)
    (own : (s.part p).cur.link = l) (size : msg.args.length = 56) (enabled : (s.fn (4 + p)).mbx.enabled = true)
    (space : (s.fn (4 + p)).mbx.used < 16) (thawed : (s.part p).state ≠ .frozen) :
    s.instMbx p l msg defer =
      (let t := s.modMbx (4 + p) fun m => { m with queue := m.queue ++ [msg] }
       let u : State := { t with power := { t.power with saiga := 0 } }
       if defer then u.emit (.mbxStatus p false) else u) := by
  rw [State.instMbx, if_neg (by simp [answers, own]), if_neg domain, if_neg (by simp [size, enabled]), if_neg (by simp [thawed]; omega)]

/-- R375: a message of the current generation that keeps to R377 is taken when it is the oldest. -/
theorem mbxTake_takes {t : MbxMsg} {q : List MbxMsg} (idle : (s.fn (4 + p)).mbx.taken = none) (oldest : (s.fn (4 + p)).mbx.queue = t :: q)
    (serves : s.serves = true) (current : t.gen = (s.fn (4 + p)).gen) (known : mbxKnown t.cmd = true) (clear : t.rsv = false)
    (calm : s.mgmt.shed = false) (room : s.jrnl.full = false) :
    s.mbxTake p = s.modMbx (4 + p) fun m => { m with queue := q, taken := some t } := by
  rw [State.mbxTake, idle, oldest]
  dsimp only
  rw [if_neg (by simp [serves]), if_neg (not_not.mpr current), if_neg (by simp [known, clear])]
  exact (if_neg (ne_true_of_eq_false calm)).trans (if_neg (ne_true_of_eq_false room))

/-- R377: the message being served is answered by its own command. -/
theorem mbxServe_answers {t : MbxMsg} {cmd : Nat} {result : State → MbxMsg → List Nat} (taken : (s.fn (4 + p)).mbx.taken = some t)
    (serves : s.serves = true) (own : t.cmd = cmd) : s.mbxServe p cmd result = s.mbxAnswer (4 + p) .ok 0 (result s t) := by
  rw [State.mbxServe, taken]
  exact if_pos ⟨own, serves⟩

/-- R375: a reply whose entry is released and whose page is there is written, and signals. -/
theorem mbxWrite_writes {i : Nat} {r : MbxReply} (answered : (s.fn (4 + p)).mbx.replies[i]? = some r)
    (enabled : (s.fn (4 + p)).mbx.enabled = true) (serves : s.serves = true) (thawed : (s.part p).state ≠ .frozen)
    (current : r.gen = (s.fn (4 + p)).gen)
    (released : ((s.fn (4 + p)).mbx.tail + 1) % 2 ^ (s.fn (4 + p)).mbx.rlog ≠ (s.fn (4 + p)).mbx.head % 2 ^ (s.fn (4 + p)).mbx.rlog)
    (there : s.missing (4 + p) (2 ^ 12 * (s.fn (4 + p)).mbx.rbase + 64 * (s.fn (4 + p)).mbx.tail) 64 true = none) :
    s.mbxWrite p i =
      (let m := (s.fn (4 + p)).mbx
       let n := 2 ^ m.rlog
       ((s.hostWrite (4 + p) (2 ^ 12 * m.rbase + 64 * m.tail) (r.bytes64 m.phase)).modMbx (4 + p) fun x =>
         { x with replies := x.replies.eraseIdx i, tail := (x.tail + 1) % n, park := none, tries := 0,
                  phase := if x.tail + 1 = n then ! x.phase else x.phase }).msix (4 + p) m.vector) := by
  rw [State.mbxWrite]
  dsimp only
  rw [answered]
  dsimp only
  rw [if_neg (by simp [enabled, serves, thawed]), if_neg (not_not.mpr current), if_neg released, there]

end

/-- R370: with room in the journal, the write that carries HEAD is journalled and releases entries. -/
theorem exec_mbxReplyHead_journalled {s : State} {part : Fin 16} {head : Nat} (answers : s.answers (4 + part.val) = true)
    (room : s.jrnl.full = false) :
    let m := (s.fn (4 + part.val)).mbx
    let t := s.jCommit (s.originOf (4 + part.val)) (.setup 0x2050 8 false m.rcfg (m.rlog + 2 ^ 8 * m.vector + 2 ^ 16 * (head % 2 ^ 12)))
    exec (.mbxReplyHead (.vf part) head) s = .next (t.modMbx (4 + part.val) fun m => { m with head := head % 2 ^ 12 }) := by
  have inst : ¬ isPf (4 + part.val) = true := by simp [isPf]
  rw [exec_mbxReplyHead, execMbxReplyHead]
  exact congrArg _ (((if_neg inst).trans (onBar_answers answers)).trans (setupWrite_acts room))

/-- Settles O41: one lemma a stage of a message, and one for the five commands. -/
theorem mailbox : Obligations.Mailbox := by
  refine ⟨fun part link gen opcode tag args s => ?queue, fun part t q s => ?take, fun part t s taken serves => ?answer,
    fun part i r s => ?reply, fun part head s answers room => exec_mbxReplyHead_journalled answers room⟩
  case queue =>
    intro p f m domain answers own size enabled space thawed t u
    have queued : ∀ defer : Bool, s.instMbx p link.val ⟨opcode % 2 ^ 16, gen % 2 ^ 16, tag % 2 ^ 32, args⟩ defer =
        if defer then u.emit (.mbxStatus p false) else u := fun _ => instMbx_queues domain answers own size enabled space thawed
    exact ⟨congrArg _ (queued false), congrArg _ (queued true)⟩
  case take =>
    intro f idle oldest serves current known clear calm room
    exact congrArg _ (mbxTake_takes idle oldest serves current known clear calm room)
  case answer =>
    exact ⟨fun echo => congrArg _ (mbxServe_answers taken serves echo), fun info => congrArg _ (mbxServe_answers taken serves info),
      fun quota => congrArg _ (mbxServe_answers taken serves quota), fun keystat => congrArg _ (mbxServe_answers taken serves keystat),
      fun health => congrArg _ (mbxServe_answers taken serves health)⟩
  case reply =>
    intro p f m answered enabled serves thawed current released there n next
    exact congrArg _ (mbxWrite_writes answered enabled serves thawed current released there)

end Sys2Proof.Machine
end

section
/-!
Partition commands (R391-R407): what a command that is taken does, for any state that meets its conditions.
-/

namespace Sys2Proof.Machine

/-! ### What the ends of a change leave of a partition -/

theorem Kept.part {s t : State} (kept : Kept s t) (p : Nat) : t.part p = s.part p := by rw [State.part, kept.parts, State.part]

@[simp] theorem partEnd_part (s : State) (f id q : Nat) (st : Status) (n d p : Nat) : (s.partEnd f id q st n d).part p = s.part p :=
  (kept_partEnd s f id q st n d).part p

@[simp] theorem bump_part (s : State) (p : Nat) : s.bump.part p = s.part p := rfl

@[simp] theorem atcTrim_part (s : State) (f share p : Nat) : (s.atcTrim f share).part p = s.part p := rfl

/-! ### A partition command is taken (R391, R440) -/

/-- Operation id of function f is a command of partition p where R391 lets it stand, the journal has room for it, and it is not
journalled yet. -/
structure PartCommand (s : State) (f id p : Nat) : Prop where
  room  : s.jrnl.full = false
  place : s.partPlace f id p = []
  fresh : ∃ o, s.op? f id = some o ∧ o.aux = []

theorem partCommand_begun {s : State} {e : Entry} {p op : Nat} {c : Instr} (ready : PartReady s e p) :
    PartCommand (s.begun e op c) e.fn.idx (s.opId e) p :=
  ⟨ready.room, part_place ready, newOp s e op c, begun_op ready.fresh, rfl⟩

/-- It stays one while its partition changes. -/
theorem PartCommand.modPart {s : State} {f id p : Nat} (cmd : PartCommand s f id p) (q : Nat) (g : Part → Part) :
    PartCommand (s.modPart q g) f id p :=
  ⟨cmd.room, cmd.place, cmd.fresh⟩

/-- One that no condition refuses is journalled and goes on. -/
theorem PartCommand.takes {s : State} {f id p opcode : Nat} {more : List Nat} {l : List Status} {k : State → State} (cmd : PartCommand s f id p)
    (checks : l = []) : s.partCmd f id opcode p more l k = k (s.partTaken f id opcode p more) := by
  obtain ⟨o, found, unjournalled⟩ := cmd.fresh
  simp [State.partCmd, State.partTaken, found, unjournalled, cmd.room, checks]

/-! ### The extents of an image (R402, R405) -/

/-- Ranges that can be used hold a command back on no page. -/
theorem withTaken_there {s : State} {f id p opcode : Nat} {r : List (Nat × Nat × Bool)} {k : State → State} (there : Usable s f r) :
    s.withTaken f id p opcode r k = k s := by
  refine if_neg fun waits => ?_
  obtain ⟨x, mem, miss⟩ := List.any_eq_true.mp waits
  rw [there x mem] at miss
  exact absurd miss Bool.false_ne_true

/-- The list of n extents at an address can be read, and the extents that it names are aligned and can be used. -/
structure ExtentsThere (s : State) (f addr n : Nat) (wr : Bool) (ext : List (Nat × Nat)) : Prop where
  pos     : 0 < n
  max     : n ≤ 4096
  list    : Usable s f [(addr, 16 * n, false)]
  sound   : s.locPoison f false addr (16 * n) = none
  read    : extentsOf n (s.hostBytes f addr (16 * n)) = ext
  aligned : extentsBad ext = false
  there   : Usable s f (ext.map fun y => (y.1, y.2, wr))

/-- R402, R405: a command whose extents are there goes on with them. -/
theorem withExtents_there {s : State} {f id p opcode addr n : Nat} {wr : Bool} {l : List Status} {ext : List (Nat × Nat)}
    {k : List (Nat × Nat) → State → State} (checks : l = []) (extents : ExtentsThere s f addr n wr ext) :
    s.withExtents f id p opcode addr n wr l k = k ext s := by
  have counts : l ++ ck (n = 0 ∨ 4096 < n) .range = [] := by
    rw [checks, ck_false _ _ (not_or.mpr ⟨extents.pos.ne', extents.max.not_gt⟩)]
    rfl
  rw [State.withExtents, counts, if_neg (not_not.mpr rfl), withTaken_there extents.list, extents.sound, extents.read]
  dsimp only
  rw [extents.aligned]
  exact withTaken_there extents.there

/-! ### The partition commands (R391-R407) -/

section
variable {s : State} {f id p : Nat} (cmd : PartCommand s f id p)
include cmd

/-- R393-R396: PART_APPLY of a record that fits begins to release the partition, or to change it. -/
theorem effPartApply_begins {limit ptab n : Nat} {bs : List Byte} {l : List Nat}
    (size : (if ptab = 0 then 0 else 8 * (s.partNext p).spages) = n) (table : s.hostBytes f ptab n = bs)
    (entries : (if ptab = 0 then [] else (List.range (s.partNext p).spages).map fun i => leNat ((bs.drop (8 * i)).take 8)) = l)
    (there : n ≠ 0 → Usable s f [(ptab, n, false)]) (fits : s.applyRange p (s.partNext p) ptab l = false)
    (sound : s.locPoison f false ptab n = none ∨ n = 0) (st : s.applyState p (s.partNext p) = false) :
    effPartApply p limit ptab f id s =
      let r := s.partNext p
      let x := s.part p
      let u := s.partTaken f id 0x400 p (((List.range 8).flatMap fun i => leBytes 8 (r.word i)).map (·.toNat) ++ bs.map (·.toNat))
      let a : Applying := ⟨r, l, f, id, u.now + 1000000 * (if limit = 0 then 1000 else limit), ! r.holds, decide (ptab ≠ 0),
        decide (x.state = .empty)⟩
      let v := u.modPart p fun y => { y with apply := some a }
      let w := v.modPart p fun y => { y with state := .resizing }
      if ! r.holds then (v.modPart p fun y => { y with release := true }).tdiReset p
      else (if (x.tdi = 1 ∨ x.tdi = 2) ∧ ¬ (x.cur.mild r = true ∧ ptab = 0) then w.tdiReset p else w).preemptBlocks (4 + p) fun b =>
        ! r.blks.testBit b := by
  have present : (if n = 0 then none else s.missing f ptab n false) = none := by
    split
    · rfl
    · next nonempty => exact there nonempty _ (List.mem_singleton.mpr rfl)
  have checks : ck (s.applyRange p (s.partNext p) ptab l = true) .range ++ ck ((s.locPoison f false ptab n).isSome = true ∧ n ≠ 0) .prot ++
      ck (s.applyState p (s.partNext p) = true) .state = [] := by
    rw [ck_false _ _ (ne_true_of_eq_false fits), ck_false _ _ (ne_true_of_eq_false st), ck_false]
    · rfl
    · rintro ⟨poisoned, nonempty⟩
      rw [sound.resolve_right nonempty] at poisoned
      exact Bool.false_ne_true poisoned
  rw [effPartApply, cmd.place, if_neg (not_not.mpr rfl)]
  dsimp only
  rw [size, present]
  dsimp only
  rw [table, entries, cmd.takes checks, partTaken_part]

/-- R398: PART_RESET resets the instance, with its TDI. -/
theorem effPartReset_resets (used : (s.part p).state ≠ .empty) :
    effPartReset p f id s = (s.partTaken f id 0x401 p []).tdiReset p := by
  rw [effPartReset, cmd.place, if_pos rfl, cmd.takes (ck_false _ _ used)]

/-- R399: PART_FREEZE makes the partition FREEZING and stops its peers; an attention session cancels it, and else its copies are
pre-empted. -/
theorem effPartFreeze_begins {limit : Nat} (st : (s.part p).state = .active) (settled : (s.part p).apply = none) (unlocked : (s.part p).tdi ≠ 1)
    (idle : (s.part p).tdi ≠ 2) : effPartFreeze p limit f id s =
      let u := s.partTaken f id 0x402 p []
      let z : Freezing := ⟨f, id, u.now + 1000000 * (if limit = 0 then 1000 else limit), 0⟩
      let v := (u.modPart p fun y => { y with state := .freezing, freeze := some z, saved := false, restored := false }).stopAll (4 + p) true
      if (v.fn (4 + p)).sess.any (fun y => y.2.state ≠ .free) then v.freezeCancel p else v.preemptBlocks (4 + p) fun _ => true := by
  rw [effPartFreeze, cmd.place]
  dsimp only
  rw [if_pos rfl, cmd.takes]
  exact ck_false _ _ (by simp [st, settled, unlocked, idle])

/-- R406: PART_THAW of an instance that has not been saved makes it ACTIVE and counts its connections. -/
theorem effPartThaw_thaws (st : (s.part p).state = .frozen) (unsaved : (s.part p).saved = false) (settled : (s.part p).apply = none) :
    effPartThaw p f id s =
      let u := s.partTaken f id 0x405 p []
      let n := if (s.part p).restored = true then
          ((u.fn (4 + p)).conns.filter fun c => c.2.state.live || c.2.state = .connecting || c.2.state = .slowpath).length
        else u.connCount (4 + p)
      (u.thaw p).partEnd f id p .ok 0 n := by
  have checks : ck ((s.part p).state ≠ .frozen ∨ (s.part p).saved = true ∨ (s.part p).apply.isSome = true) .state = [] :=
    ck_false _ _ (by simp [st, unsaved, settled])
  rw [effPartThaw, cmd.place, if_pos rfl, cmd.takes checks, partTaken_part]

/-- R392: PART_QUERY writes the partition's record. -/
theorem effPartQuery_writes {addr : Nat} {u : State} (taken : s.partTaken f id 0x406 p [] = u)
    (there : Usable u f [(addr, (u.partRecord p).length, true)]) :
    effPartQuery p addr f id s = (u.hostWrite f addr (u.partRecord p)).endOp f id .ok (u.partRecord p).length 0 := by
  rw [effPartQuery, cmd.takes cmd.place, taken, writeRecord_ok there]

/-- R402, R403: PART_SAVE of a FROZEN instance keeps its image, writes it over the extents and is journalled. -/
theorem effPartSave_saves {addr n m : Nat} {ext : List (Nat × Nat)} (st : (s.part p).state = .frozen) (slot : m < 4)
    (extents : ExtentsThere s f addr n true ext) (room : (s.part p).imgLen ≤ extentsLen ext) (contrib : (s.mslot p m).isSome = true) :
    effPartSave p addr n m f id s =
      let u := s.partTaken f id 0x403 p []
      let x := s.part p
      let bs := u.imageBytes p m
      let im : Image := ⟨bs, (u.mslot p m).getD 0, u.fn (4 + p), x.cur.spages, u.sliceCells p, u.slicePoison p,
        (List.range x.cur.spages).map fun i => (u.pageEnt (x.cur.sbase + i)).ksel % 4⟩
      let v := (writeExtents { u with images := u.images ++ [im] }.bump.bump f ext bs).modPart p fun y => { y with saved := true }
      (v.jCommit (v.originOf f) (jKey 10 p m .ok 0 0 0 1 0 (leNat u.saltBytes))).partEnd f id p .ok bs.length 0 := by
  have before : ([] : List Status) ++ ck (4 ≤ m) .range ++ (if ([] : List Status) = [] then ck ((s.part p).state ≠ .frozen) .state else []) = [] := by
    rw [if_pos rfl, ck_false _ _ slot.not_ge, ck_false _ _ (not_not.mpr st)]
    rfl
  have after : ck (extentsLen ext < (s.part p).imgLen) .range ++ ck ((s.mslot p m).isNone = true) .prot = [] := by
    rw [ck_false _ _ room.not_gt, ck_false _ _ (by rw [← Option.not_isSome, contrib]; exact Bool.false_ne_true)]
    rfl
  rw [effPartSave, cmd.place, withExtents_there before extents, cmd.takes after, partTaken_part]

end

/-- Settles O31: one lemma a command, at the state that starting its entry leaves. -/
theorem partitionCommands : Obligations.PartitionCommands := by
  intro e p s ready f id x
  refine ⟨fun limit ptab => ?apply, fun used => ?reset, fun limit st settled unlocked idle => ?freeze, fun st unsaved settled => ?thaw,
    fun addr => ?query, fun addr n m st slot pos max => ?save⟩
  case apply =>
    intro t r n bs l there fits sound st u a v w
    have begins := effPartApply_begins (s := t) (limit := limit) (partCommand_begun ready) rfl rfl rfl
      (fun nonempty => usable_begun (there nonempty)) fits sound st
    rw [exec_partApply, execPartApply, startEntry_ready ready.ready rfl]
    refine ⟨fun empty => congrArg _ (begins.trans (if_pos ?_)), fun holds => congrArg _ (begins.trans (if_neg ?_))⟩
    · show (! r.holds) = true
      rw [empty, Bool.not_false]
    · show ¬ (! r.holds) = true
      rw [holds]
      exact Bool.false_ne_true
  case reset =>
    rw [exec_partReset, execPartReset, startEntry_ready ready.ready rfl]
    exact congrArg _ (effPartReset_resets (partCommand_begun ready) used)
  case freeze =>
    rw [exec_partFreeze, execPartFreeze, startEntry_ready ready.ready rfl]
    exact congrArg _ (effPartFreeze_begins (partCommand_begun ready) st settled unlocked idle)
  case thaw =>
    rw [exec_partThaw, execPartThaw, startEntry_ready ready.ready rfl]
    exact congrArg (fun t : State => Host.Outcome.next t.settle) (effPartThaw_thaws (partCommand_begun ready) st unsaved settled)
  case query =>
    intro u there
    rw [exec_partQuery, execPartQuery, startEntry_ready ready.ready rfl]
    exact congrArg _ (effPartQuery_writes (partCommand_begun ready) rfl there)
  case save =>
    intro t ext list there sound aligned room contrib u bs im v
    rw [exec_partSave, execPartSave, startEntry_ready ready.ready rfl]
    exact congrArg _ (effPartSave_saves (partCommand_begun ready) st slot ⟨pos, max, list, sound, rfl, aligned, there⟩ room contrib)

end Sys2Proof.Machine
end

section
/-!
PART_RESTORE (R397, R403-R405): what becomes of an image, by what its bytes authenticate as.
-/

namespace Sys2Proof.Machine

/-! ### The image that the extents hold (R403, R405) -/

/-- The extents hold MITT, version 1 and a length that fits, with no poison in them: what R405 checks before the image's own bytes. -/
structure ImageThere (s : State) (f : Nat) (ext : List (Nat × Nat)) : Prop where
  magic   : leNat ((s.readExtents f ext).take 4) = 0x4D495454
  version : leNat (((s.readExtents f ext).drop 4).take 2) = 1
  fits    : leNat (((s.readExtents f ext).drop 40).take 8) ≤ extentsLen ext
  min     : 64 ≤ leNat (((s.readExtents f ext).drop 40).take 8)
  sound   : ext.any (fun y => (s.locPoison f false y.1 y.2).isSome) = false

/-- The state with the partition RESTORING for operation id of function f. -/
def State.restoring (s : State) (f id p : Nat) : State := s.modPart p fun y => { y with state := .restoring, restoreOp := some (f, id) }

/-- R405: the image is loaded into the instance and journalled, and the command ends OK. -/
def State.restored (s : State) (f id p m : Nat) (i : Image) (bs : List Byte) (len : Nat) : State :=
  let w := ((s.imageLoad p i).modPart p fun y => { y with imgLen := imageLen s.free, imgSeed := s.free }).bump
  (w.jCommit (w.originOf f) (jKey 11 p m .ok 0 0 0 1 0 (leNat ((bs.drop 16).take 16)))).partEnd f id p .ok len 0

section
variable {s : State} {f id p m v len : Nat} {ext : List (Nat × Nat)} {bs : List Byte} (image : ImageThere s f ext)
include image

/-- No condition on the header refuses such an image. -/
theorem ImageThere.head : ¬ (leNat ((s.readExtents f ext).take 4) ≠ 0x4D495454 ∨ leNat (((s.readExtents f ext).drop 4).take 2) ≠ 1 ∨
    extentsLen ext < leNat (((s.readExtents f ext).drop 40).take 8) ∨ leNat (((s.readExtents f ext).drop 40).take 8) < 64) := by
  obtain ⟨magic, version, fits, min, -⟩ := image
  simp [magic, version, fits, min]

variable (read : s.readExtents f ext = bs) (size : leNat ((bs.drop 40).take 8) = len) (slot : s.mslot p m = some v)
include read size slot

/-- R405: an image whose head does not authenticate ends AUTH, and nothing is loaded. -/
theorem restoreFrom_unauthentic (auth : s.imageFor (bs.take len) v = none) :
    s.restoreFrom f id p m ext = s.partCmd f id 0x404 p [] [.auth] fun s => s := by
  subst size read
  simp only [State.restoreFrom, slot, auth, decide_eq_false image.head, image.sound]
  rfl

variable {i : Image} (cmd : PartCommand s f id p) (covers : s.covers p i = true) (live : (i.ksels.all fun k => s.keyLive (4 * p + k)) = true)
include cmd covers live

/-- R405: an image whose head authenticates, that the record covers and whose selectors are live is loaded and journalled; if its later
records do not authenticate, the slice is cleared and it ends AUTH. -/
theorem restoreFrom_authentic {whole : Bool} (auth : s.imageFor (bs.take len) v = some (i, false, whole)) :
    s.restoreFrom f id p m ext =
      let u := s.partTaken f id 0x404 p []
      if whole then u.restored f id p m i bs len else (u.sliceClear p).partEnd f id p .auth 0 0 := by
  subst size read
  simp only [State.restoreFrom, slot, auth, decide_eq_false image.head, image.sound, covers, live]
  cases whole
  case true => exact cmd.takes rfl
  case false => exact cmd.takes rfl

end

/-- A restore that has loaded an image is over. -/
theorem restored_restoreOp (s : State) (f id p m : Nat) (i : Image) (bs : List Byte) (len : Nat) :
    ((s.restored f id p m i bs len).part p).restoreOp = none := by
  simp [State.restored, State.imageLoad]

/-- R397: it leaves the partition as it is. -/
theorem restoreBack_over {s : State} {f id p : Nat} (ended : (s.part p).restoreOp = none) : s.restoreBack f id p = s :=
  if_neg fun pending => Option.some_ne_none _ (pending.2.symm.trans ended)

/-! ### The command (R397, R405) -/

/-- R405: PART_RESTORE into a clean ACTIVE partition makes it RESTORING and reads its extents. -/
theorem effPartRestore_reads {s : State} {f id p addr n m : Nat} {ext : List (Nat × Nat)} (cmd : PartCommand s f id p)
    (st : (s.part p).state = .active) (clean : (s.part p).clean = true) (settled : (s.part p).apply = none) (slot : m < 4)
    (extents : ExtentsThere (s.restoring f id p) f addr n false ext) :
    effPartRestore p addr n m f id s = ((s.restoring f id p).restoreFrom f id p m ext).restoreBack f id p := by
  have checks : ([] : List Status) ++ ck (4 ≤ m) .range ++ (if ([] : List Status) = [] then
      ck (¬ ((s.part p).state = .restoring ∧ (s.part p).restoreOp = some (f, id)) ∧
        ((s.part p).state ≠ .active ∨ (s.part p).clean = false ∨ (s.part p).apply.isSome = true)) .state else []) = [] := by
    rw [if_pos rfl, ck_false _ _ slot.not_ge, ck_false _ _ (by simp [st, clean, settled])]
    rfl
  rw [effPartRestore, cmd.place, checks, if_pos ⟨rfl, cmd.room⟩]
  exact congrArg (State.restoreBack · f id p) (withExtents_there rfl extents)

/-- Settles O32: the extents are read, and the image goes by what its bytes authenticate as. -/
theorem partitionRestore : Obligations.PartitionRestore := by
  intro e p addr n m s ready f id x t ext bs len list there st clean settled slot pos max sound aligned magic version fits min healthy v contrib
  have cmd : PartCommand t f id p := (partCommand_begun ready).modPart p _
  have image : ImageThere t f ext := ⟨magic, version, fits, min, healthy⟩
  have reads : exec (.partRestore e p addr n m) s = .next ((t.restoreFrom f id p m ext).restoreBack f id p) := by
    rw [exec_partRestore, execPartRestore, startEntry_ready ready.ready rfl]
    exact congrArg _ (effPartRestore_reads (partCommand_begun ready) st clean settled slot ⟨pos, max, list, sound, rfl, aligned, there⟩)
  rw [reads]
  refine ⟨fun auth => ?head, fun i whole auth covers live => ⟨fun good => ?loads, fun bad => ?clears⟩⟩
  case head => rw [restoreFrom_unauthentic image rfl rfl contrib auth]
  case loads =>
    subst good
    rw [restoreFrom_authentic image rfl rfl contrib cmd covers live auth]
    exact congrArg _ (restoreBack_over (restored_restoreOp ..))
  case clears =>
    subst bad
    rw [restoreFrom_authentic image rfl rfl contrib cmd covers live auth]
    rfl

end Sys2Proof.Machine
end

section
/-!
Partition events (R389, R394-R400, R407, R434): what happens to a partition in time, and a write of an address entry.
-/

namespace Sys2Proof.Machine

/-! ### Each event where it is due -/

section
variable {s : State} {p : Nat}

/-- R394: a pending record whose removed blocks are clear becomes the partition's record. -/
theorem applyCommit_commits {a : Applying} (pending : (s.part p).apply = some a) (stays : a.release = false)
    (st : (s.part p).state = .resizing ∨ (s.part p).state = .active) (clear : s.blocksClear p a.rec_ = true) :
    ((s.applyCommit p).part p).cur = a.rec_ ∧ ((s.applyCommit p).part p).apply = none ∧ ((s.applyCommit p).part p).state = .active := by
  have goes : ¬ (a.release = true ∨ ((s.part p).state ≠ .resizing ∧ (s.part p).state ≠ .active) ∨ s.blocksClear p a.rec_ = false) := by
    rintro (releases | ⟨fixed, inactive⟩ | busy)
    · exact absurd releases (ne_true_of_eq_false stays)
    · exact st.elim fixed inactive
    · exact absurd clear (ne_true_of_eq_false busy)
  rw [State.applyCommit, pending]
  dsimp only
  rw [if_neg goes]
  simp only [partEnd_part, atcTrim_part, part_modPart, and_self]

/-- R396: a pending record whose LIMIT has passed ends BUSY. -/
theorem applyLimit_due {a : Applying} (pending : (s.part p).apply = some a) (stays : a.release = false) (due : a.limitAt ≤ s.now) :
    s.applyLimit p =
      let st := if (s.part p).state = .resizing then (if a.wasEmpty then .empty else .active) else (s.part p).state
      ((s.modPart p fun y => { y with apply := none, state := st }).unpreempt (4 + p)).partEnd a.fn a.op p .busy 0 1000 := by
  rw [State.applyLimit, pending]
  dsimp only
  rw [if_neg (by simp [stays, due])]
  rfl

/-- R398: a reset is complete once no operation in flight has the generation that it gives. -/
theorem resetDone_due {g : Nat} (next : (s.part p).newGen = some g) (st : (s.part p).state = .resetting)
    (unused : (s.fn (4 + p)).ops.any (fun o => o.gen = g) = false) :
    s.resetDone p =
      let u := (s.modFn (4 + p) fun y => { y with gen := g, resetting := false }).modPart p fun y =>
        { y with newGen := none, clean := true, saved := false, state := .active, imgLen := 0 }
      let w := if (s.part p).release = true then u.releaseEnd p else u
      (w.resetOps p).foldl (fun s o => s.partEnd o.1 o.2 p .ok 0 0) w := by
  rw [State.resetDone, next]
  dsimp only
  rw [if_neg (by simp [st, unused]), part_modPart, part_modFn]

section
variable {z : Freezing} (asked : (s.part p).freeze = some z) (st : (s.part p).state = .freezing) (still : s.freezeStill (4 + p) = true)
include asked st still

/-- R399: an instance that stands still is FROZEN once its connections are drained or the drain has had its time. -/
theorem freezePoint_reached
    (drained : s.drained (4 + p) = true ∨ (z.drainAt ≠ 0 ∧ (if z.drainAt = 0 then s.now else z.drainAt) + s.drainNs ≤ s.now)) :
    s.freezePoint p =
      let u := s.modAts (4 + p) fun a => { a with reqs := [], batch := [], closed := [], groups := [] }
      let v := (u.modPart p fun y => { y with state := .frozen, freeze := none, imgLen := imageLen u.free, imgSeed := u.free }).bump
      v.partEnd z.fn z.op p .ok 0 (v.connCount (4 + p)) := by
  rw [State.freezePoint, asked]
  dsimp only
  rw [if_neg (by simp [st, still]), if_pos drained]

/-- R399: else its drain begins. -/
theorem freezePoint_drains (open_ : s.drained (4 + p) = false) (first : z.drainAt = 0) :
    s.freezePoint p = s.modPart p fun y => { y with freeze := some { z with drainAt := s.now } } := by
  rw [State.freezePoint, asked]
  dsimp only
  rw [if_neg (by simp [st, still]), if_neg (by simp [open_, first]), if_pos first]

end

/-- R400: past its LIMIT a freeze is cancelled. -/
theorem exec_freezeCancel_due {part : Fin 16} {now : Nat} {z : Freezing} (asked : (s.part part.val).freeze = some z)
    (st : (s.part part.val).state = .freezing) (due : z.limitAt ≤ (s.tick now).now) :
    exec (.freezeCancel part now) s = .next ((s.tick now).freezeCancel part.val) := by
  rw [exec_freezeCancel, execFreezeCancel, tick_part, asked]
  exact congrArg _ (if_pos ⟨st, due⟩)

/-- R389, R434: a write of an entry that nothing uses is journalled and puts a locked TDI into ERROR. -/
theorem addrWrite_acts {o : Origin} {off width i old new : Nat} {en : AddrEntry} (room : s.jrnl.full = false) (unused : s.addrUsed p i = false)
    (unique : en.valid = true → s.addrClash p i { en with ports := en.ports &&& (s.part p).cur.ports } = false) :
    s.addrWrite p o off width i old new en =
      ((s.jCommit o (.setup off width false old new)).tdiError p).modPart p fun y =>
        { y with addrs := aset y.addrs i { en with ports := en.ports &&& (s.part p).cur.ports } } := by
  have good : (s.addrUsed p i || (en.valid && s.addrClash p i { en with ports := en.ports &&& (s.part p).cur.ports })) = false := by
    rw [unused, Bool.false_or, Bool.and_eq_false_imp]
    exact unique
  rw [State.addrWrite, good, setupWrite_acts room]

end

/-- Settles O33: one lemma an event, at the state that its time leaves. -/
theorem partitionEvents : Obligations.PartitionEvents := by
  intro part now s p x t
  refine ⟨fun a pending stays => ⟨fun st clear => ?commit, fun due => ?limit⟩, fun g next st unused => ?reset, fun z asked st => ?freeze,
    fun due => ?quiet, fun o index ip vid pcp ports ven valid room => ?addr⟩
  case commit => exact ⟨_, rfl, applyCommit_commits pending stays st clear⟩
  case limit => exact congrArg _ (applyLimit_due (s := t) pending stays due)
  case reset => exact congrArg _ (resetDone_due next st unused)
  case freeze =>
    refine ⟨fun still => ⟨fun drained => ?_, fun open_ first => ?_⟩, fun due => ?_⟩
    · exact congrArg _ (freezePoint_reached (s := t) asked st still drained)
    · exact congrArg _ (freezePoint_drains (s := t) asked st still open_ first)
    · exact exec_freezeCancel_due asked st due
  case quiet => exact congrArg _ (if_pos due)
  case addr =>
    intro i en u unused unique
    exact congrArg _ (addrWrite_acts room unused unique)

end Sys2Proof.Machine
end

section
/-!
One step (95_what_each_step_holds.md): every command answers a next state, ENTRY_START through the command that its entry's bytes spell.
-/

namespace Sys2Proof.Machine

/-! ### What the fetch path answers (R51, R75) -/

theorem safe_ite {c : Prop} [Decidable c] {a b : Host.Outcome State Fault Refusal} (ha : Safe a) (hb : Safe b) : Safe (if c then a else b) := by
  split
  · exact ha
  · exact hb

/-- R51: the bytes at the head spell a command that answers a next state, or a reserved opcode, which ends RANGE. -/
theorem startBytes_safe (s : State) (fn : Fn) (k n : Nat) : Safe (s.startBytes fn k n) := by
  unfold State.startBytes
  dsimp only
  split
  case h_1 i spelt =>
    have command := decodeEntry_runs fn k _ i spelt
    obtain ⟨t, next⟩ := command.next s
    rw [command.same, next]
    trivial
  case h_2 => trivial

theorem fetchEntry_safe (s : State) (fn : Fn) (k : Nat) : Safe (s.fetchEntry fn k) := by
  unfold State.fetchEntry
  refine safe_ite trivial ?_
  dsimp only
  split
  · trivial
  refine safe_ite trivial (safe_ite trivial ?_)
  split
  · trivial
  · exact safe_ite trivial (startBytes_safe s fn k _)

theorem entryStart_safe (s : State) (fn : Fn) (k : Nat) : Safe (s.entryStart fn k) := by
  unfold State.entryStart
  dsimp only
  split
  · trivial
  · exact safe_ite trivial (fetchEntry_safe _ fn k)

/-- Every arm of the dispatch but ENTRY_START's is written as a next state. -/
theorem exec_safe (c : Instr) (s : State) : Safe (exec c s) := by
  cases c with
  | entryStart fn ring => exact entryStart_safe s fn ring
  | _ => trivial

/-- Settles O55: by whether the queue is empty, and by the command. -/
theorem stepRunsFront : Obligations.StepRunsFront := by
  refine ⟨fun c rest s queue => ?_, fun c s => rfl, fun s empty => ?_, exec_safe⟩
  · rw [step, queue]
  · rw [step, empty]

end Sys2Proof.Machine
end

section
/-!
The change journal (R435-R437): the fields of a record's bytes, the record that an event commits, and the first record of a boot.
-/

namespace Sys2Proof.Machine

/-! ### The fields of a record (R436) -/

theorem JBody.bytes_length (b : JBody) : b.bytes.length = 52 := by
  cases b with
  | _ => simp [JBody.bytes]

/-- The fields of R436's table, in order. -/
def JRec.fields (r : JRec) : List (List Byte) :=
  [leBytes 8 r.seq, leBytes 8 r.time, leBytes 1 r.tepoch, leBytes 1 r.body.type, leBytes 1 r.origin.code, leBytes 1 r.origin.link,
    leBytes 2 r.origin.idNum, leBytes 1 (bit r.mixed + 2 * bit r.final), leBytes 1 0, leBytes 4 r.count, r.body.bytes, chainBytes r.chain]

/-- Their widths. -/
def recWidths : List Nat := [8, 8, 1, 1, 1, 1, 2, 1, 1, 4, 52, 48]

theorem JRec.fields_widths (r : JRec) : r.fields.map List.length = recWidths := by
  simp [JRec.fields, recWidths, JBody.bytes_length, chainBytes]

theorem JRec.bytes_fields (r : JRec) : r.bytes = r.fields.flatten := by
  simp [JRec.bytes, JRec.head, JRec.fields]

/-! ### Their places -/

/-- A part of a joined list stands at the sum of the lengths before it. -/
theorem flatten_part {α : Type} (l : List (List α)) (i : Nat) (h : i < l.length) :
    (l.flatten.drop ((l.map List.length).take i).sum).take l[i].length = l[i] := by
  have part := l.drop_take_succ_flatten_eq_getElem i h
  rw [List.drop_take, List.sum_take_succ _ _ (by simpa using h), Nat.add_sub_cancel_left, List.getElem_map] at part
  exact part

/-- Each field stands at the sum of the widths before it. -/
theorem JRec.bytes_field (r : JRec) (i : Fin 12) :
    (r.bytes.drop (recWidths.take i).sum).take recWidths[i.val] = r.fields[i.val]'i.isLt := by
  have part := flatten_part r.fields i i.isLt
  have width : recWidths[i.val] = (r.fields[i.val]'i.isLt).length :=
    (List.getElem_of_eq r.fields_widths.symm i.isLt).trans (List.getElem_map _)
  rw [r.fields_widths, ← r.bytes_fields] at part
  rw [width]
  exact part

@[simp] theorem JRec.head_length (r : JRec) : r.head.length = 80 := by simp [JRec.head, JBody.bytes_length]

theorem JRec.bytes_head (r : JRec) : r.bytes.take 80 = r.head := by
  rw [JRec.bytes, List.take_left' r.head_length]

theorem JRec.bytes_chain (r : JRec) : r.bytes.drop 80 = chainBytes r.chain := by
  rw [JRec.bytes, List.drop_left' r.head_length]

theorem JRec.bytes_length (r : JRec) : r.bytes.length = 128 := by simp [JRec.bytes, chainBytes]

/-! ### Commits (R435, R437) -/

@[simp] theorem msix_jrnl (s : State) (f v : Nat) : (s.msix f v).jrnl = s.jrnl := by
  unfold State.msix
  split <;> rfl

/-- Signalling the vector of exports takes the journal's own note of it back, and nothing else of the journal. -/
theorem jrnlSignal_jrnl (s : State) : s.jrnlSignal.jrnl = { s.jrnl with signal := false } := by
  unfold State.jrnlSignal
  split
  case isTrue => rw [msix_jrnl]
  case isFalse quiet => rw [← Bool.eq_false_of_not_eq_true quiet]

/-- The record that an event commits (R435, R437). -/
def State.jRec (s : State) (o : Origin) (b : JBody) : JRec :=
  let r := { s.newRec o b with seq := s.jrnl.next }
  { r with chain := r.chainFrom s.jrnl.chain }

/-- R437: CHAIN is over the CHAIN before it and bytes 0 to 79 of the record. -/
theorem jRec_chain (s : State) (o : Origin) (b : JBody) : (s.jRec o b).chain =
    Config.sha384 ((leBytes 48 s.jrnl.chain.toNat ++ (s.jRec o b).bytes.take 80).map fun x => x.toNat) := by
  rw [JRec.bytes_head]
  rfl

theorem jCommit_jrnl (s : State) (o : Origin) (b : JBody) : (s.jCommit o b).jrnl =
    { s.jrnl with recs := s.jrnl.recs ++ [s.jRec o b], next := s.jrnl.next + 1, chain := (s.jRec o b).chain, signal := false } := by
  rw [State.jCommit, jrnlSignal_jrnl]
  rfl

/-- R437: record 0 of a boot starts its chain from DEVID and the nonce. -/
theorem bootRecord_first {s : State} (first : s.jrnl.next = 0) : s.bootRecord =
    let start := Config.sha384 ((leBytes 8 Config.devId.toNat ++ leBytes 32 s.nonce256).map fun x => x.toNat)
    let u := { s with jrnl := { s.jrnl with chain := start } }
    { u.jCommit .firmware (.boot s.nonce256 s.mgmt.slot s.mgmt.svn) with free := s.free + 4 } := by
  unfold State.bootRecord
  dsimp only
  rw [if_pos first]

/-- Settles O59: the table by the places of a record's fields, then the record that a commit appends, and the boot's by the chain it starts from. -/
theorem journalRecords : Obligations.JournalRecords := by
  refine ⟨fun r => ?fields, fun o b s => ?commit, fun s first => ?boot⟩
  case fields =>
    exact ⟨r.bytes_length, r.bytes_field 0, r.bytes_field 1, r.bytes_field 2, r.bytes_field 3, r.bytes_field 4, r.bytes_field 5, r.bytes_field 6,
      r.bytes_field 7, r.bytes_field 8, r.bytes_field 9, r.bytes_field 10, r.bytes_chain⟩
  case commit =>
    refine ⟨s.jRec o b, ?_, ?_, ?_, rfl, rfl, rfl, rfl, rfl, rfl, jRec_chain s o b, kept_jCommit s o b, jCommit_mem s o b, jCommit_links s o b,
      jCommit_fn s o b⟩ <;> rw [jCommit_jrnl]
  case boot =>
    intro nonce
    rw [bootRecord_first first]
    refine ⟨_, congrArg Jrnl.recs (jCommit_jrnl _ _ _), first, rfl, jRec_chain _ _ _⟩

end Sys2Proof.Machine
end

section
/-!
Register reads (R580, R599, R602): what a read through a link's physical function gives and clears.
-/

namespace Sys2Proof.Machine

/-! ### Reads of PF BAR0 -/

section
variable {s : State} {l : Fin 4} {off width : Nat}

/-- A powered device answers a read through a link's physical function from the map of PF BAR0. -/
theorem exec_rcRegisterRead_pf (powered : s.powered = true) (below : off < 0x3000000) :
    exec (.rcRegisterRead (.host l 0) off width) s = .next ((s.pfRead off width).1.readDone (.host l 0) off (s.pfRead off width).2) := by
  have pf : isPf l.val = true := by simp [isPf, l.isLt]
  have answers : s.answers l.val = true := by simp [State.answers, powered, pf]
  have bar0 : bar2Off off = none := if_neg (by omega)
  have reached : s.anyRead (.host l 0) off width = s.pfRead off width := by
    simp [State.anyRead, originFn, answers, State.carries, bar0, pf]
  rw [exec_rcRegisterRead, execRcRegisterRead, reached]

theorem pfRead_misaligned (below : off < 0x3000000) (misaligned : alignedAccess off width = false) : s.pfRead off width = (s, .ur) := by
  rw [State.pfRead, if_neg (by simp [misaligned]), saigaTouch_below below, State.mapRead, misaligned]
  rfl

theorem pfRead_stopped (aligned : alignedAccess off width = true) (stopped : s.regDown off = true) : s.pfRead off width = (s, .ca) :=
  if_pos ⟨aligned, stopped⟩

section
variable (below : off < 0x3000000) (aligned : alignedAccess off width = true) (works : s.regDown off = false)
include below aligned works

theorem pfRead_unmapped (unmapped : regOf (off / 8 * 8) = none) : s.pfRead off width = (s, .val 0) := by
  rw [State.pfRead, if_neg (by simp [works]), saigaTouch_below below, State.mapRead, aligned, unmapped]
  rfl

/-- R599, R602: an aligned read of a register gives its value or half, and clears the fields that it returns whole. -/
theorem pfRead_mapped {r : Reg} (mapped : regOf (off / 8 * 8) = some r) :
    s.pfRead off width = (s.regClear r (decide (width = 8) || off % 8 = 0) (decide (width = 8) || off % 8 = 4),
      .val (halfOf off width (s.regVal (off / 8 * 8) r))) := by
  rw [State.pfRead, if_neg (by simp [works]), saigaTouch_below below, State.mapRead, aligned, mapped]
  rfl

end
end

/-- Settles O50: a read by its alignment, its edge and its register; GLB_ID and JRNL_STAT by what they hold. -/
theorem registerReads : Obligations.RegisterReads := by
  intro l off width s powered below o
  refine ⟨fun misaligned => ?_, fun aligned stopped => ?_, fun aligned works unmapped => ?_, ?_, ?_⟩
  · rw [exec_rcRegisterRead_pf powered below, pfRead_misaligned below misaligned]
    rfl
  · rw [exec_rcRegisterRead_pf powered below, pfRead_stopped aligned stopped]
    rfl
  · rw [exec_rcRegisterRead_pf powered below, pfRead_unmapped below aligned works unmapped]
    rfl
  · rw [exec_rcRegisterRead_pf powered (by decide), pfRead_mapped (by decide) rfl rfl rfl]
    have id : halfOf 0 8 (s.regVal 0 .glbId) = 0x8160 + 2 ^ 16 + 2 ^ 24 * bit Config.cardIsCE := by
      have small := bit_le_one Config.cardIsCE
      exact Nat.mod_eq_of_lt (show 0x8160 + 2 ^ 16 + 2 ^ 24 * bit Config.cardIsCE < 2 ^ 64 by omega)
    rw [← id]
    rfl
  · intro v t
    refine ⟨?_, ?_, ?_⟩
    · rw [exec_rcRegisterRead_pf powered (by decide), pfRead_mapped (by decide) rfl rfl rfl]
      rfl
    · rw [exec_rcRegisterRead_pf powered (by decide), pfRead_mapped (by decide) rfl rfl rfl]
      rfl
    · rw [exec_rcRegisterRead_pf powered (by decide), pfRead_mapped (by decide) rfl rfl rfl]
      rfl

end Sys2Proof.Machine
end

section
/-!
The SPDM endpoints (R414, R432-R434, R521): what each request does once its responder answers in its turn, and a failed integrity check.
-/

namespace Sys2Proof.Machine

section
variable {s : State}

/-- R432, R521: a responder answers in its turn. -/
theorem asked_answers {ep : SpdmEnd} {k : State → State} (answers : s.responds ep = true) (turn : s.fwTurn 4 = true) : s.asked ep k = k s :=
  if_pos (by simp [answers, turn])

/-! ### Contributions (R414) -/

/-- R414: a contribution request on a slot that exists, in the session that locked the TDI or, where the part takes them so, in any. -/
theorem contrib_goes {code p session kind slot : Nat} {g : Slot} (room : s.jrnl.full = false) (opens : s.contribOpen p session = true)
    (known : kind ≤ 1) (exists_ : slot < (if kind = 0 then 8 else 4)) :
    s.contrib code p session kind slot g =
      ((s.jCommit (s.originOf (4 + p)) (jKey code p slot .ok 0 0 0 kind)).modPart p fun x =>
        if kind = 0 then { x with slots := aset x.slots slot g } else { x with mslots := aset x.mslots slot g }).emit (.spdm code .ok 0 []) := by
  rw [State.contrib, if_neg (ne_true_of_eq_false room), if_neg (by simp [opens]), if_neg (by omega)]
  rfl

/-! ### Sessions, measurements and IDE keys (R432, R433) -/

section
variable {ep : SpdmEnd}

theorem spdm_opens (room : s.jrnl.full = false) (few : (s.sec.sessions.filter fun x => x.1 = ep).length < 4) (keys : s.noKeys = false) :
    let u := s.jCommit (s.endOrigin ep) (jKey 12 (endPart ep) 0 .ok)
    s.spdm ep .openSession =
      { u with sec := { u.sec with sessions := u.sec.sessions ++ [(ep, s.sec.nextSess)], nextSess := s.sec.nextSess + 1 } }.emit
        (.spdm 3 .ok 0 [s.sec.nextSess]) := by
  have free : ¬ (s.jrnl.full = true ∨ 4 ≤ (s.sec.sessions.filter fun x => x.1 = ep).length) := by
    simp [room]
    omega
  rw [State.spdm]
  exact (if_neg free).trans (if_neg (ne_true_of_eq_false keys))

theorem spdm_closes {id : Nat} (open_ : s.session ep id = true) (room : s.jrnl.full = false) :
    let u := s.jCommit (s.endOrigin ep) (jKey 13 (endPart ep) 0 .ok)
    s.spdm ep (.closeSession id) =
      { u with sec := { u.sec with sessions := u.sec.sessions.filter fun x => x ≠ (ep, id) } }.emit (.spdm 4 .ok 0 []) := by
  rw [State.spdm]
  exact (if_neg (by simp [open_])).trans (if_neg (ne_true_of_eq_false room))

theorem spdm_measures {i d : Nat} (block : s.measurement ep i = some d) : s.spdm ep (.measurement i) = s.emit (.spdm 5 .ok 0 [d]) := by
  rw [State.spdm, block]
  rfl

/-- R433: the key of a stream that there is, in a session of the link's own physical function. -/
theorem spdm_ideKey {l : Fin 4} {stream : Nat} (own : ep = .pf l) (session : s.sec.sessions.any (fun x => x.1 = ep) = true) (max : stream ≤ 18)
    (room : s.jrnl.full = false) :
    s.spdm ep (.ideKey l stream) = ((s.jCommit (s.endOrigin ep) (jKey 14 0 stream .ok)).modLink l.val fun x =>
      { x with ideKeys := if x.ideKeys.contains stream then x.ideKeys else x.ideKeys ++ [stream], ideBad := x.ideBad.filter fun y => y ≠ stream }).emit
        (.spdm 6 .ok 0 []) := by
  have permitted : ¬ (ep ≠ .pf l ∨ (! s.sec.sessions.any (fun x => x.1 = ep)) = true) := by simp [own, own ▸ session]
  rw [State.spdm, if_neg permitted, if_neg (by omega), if_neg (ne_true_of_eq_false room)]
  rfl

end

/-! ### TDISP (R434) -/

section
variable {part : Fin 16} (room : s.jrnl.full = false)
include room

theorem tdisp_locks {n : Nat} (unlocked : (s.part part.val).tdi = 0) (session : s.session (.vf part) n = true) :
    s.tdisp part.val (.lock n) = ((s.tdiSet part.val 1).modPart part.val fun x => { x with lockedBy := some n }).emit (.spdm 7 .ok 0 []) := by
  have same : (⟨part.val % 16, Nat.mod_lt _ (by decide)⟩ : Fin 16) = part := Fin.ext (Nat.mod_eq_of_lt part.isLt)
  rw [State.tdisp, if_neg (ne_true_of_eq_false room)]
  rw [same, if_pos ⟨unlocked, session⟩]
  rfl

theorem tdisp_starts (locked : (s.part part.val).tdi = 1) : s.tdisp part.val .start = (s.tdiSet part.val 2).emit (.spdm 7 .ok 0 []) := by
  rw [State.tdisp, if_neg (ne_true_of_eq_false room)]
  exact if_pos locked

theorem tdisp_stops : s.tdisp part.val .stop = (s.tdiSet part.val 0).emit (.spdm 7 .ok 0 []) := by
  rw [State.tdisp, if_neg (ne_true_of_eq_false room)]
  rfl

end
end

/-- Settles O35: one lemma a request, where its responder answers; a failed integrity check has one case. -/
theorem securityRequests : Obligations.SecurityRequests := by
  refine ⟨fun part session kind slot value s answers turn room opens known exists_ => ?contribution, fun ep s answers turn => ?session,
    fun link stream s => rfl, fun part s answers turn room => ?tdisp⟩
  case contribution =>
    intro p put
    constructor
    · rw [exec_contribSet, execContribSet, asked_answers answers turn, contrib_goes room opens known exists_]
    · rw [exec_contribClear, execContribClear, asked_answers answers turn, contrib_goes room opens known exists_]
  case session =>
    have asked (r : SpdmReq) : exec (.spdmRequest ep r) s = .next (s.spdm ep r) := by
      rw [exec_spdmRequest, execSpdmRequest, asked_answers answers turn]
    refine ⟨fun room few keys => ?_, fun id open_ room => ?_, fun i d block => ?_, fun l stream own session max room => ?_⟩
    · exact (asked _).trans (congrArg _ (spdm_opens room few keys))
    · exact (asked _).trans (congrArg _ (spdm_closes open_ room))
    · exact (asked _).trans (congrArg _ (spdm_measures block))
    · exact (asked _).trans (congrArg _ (spdm_ideKey own session max room))
  case tdisp =>
    have asked (r : TdispReq) : exec (.tdispRequest part r) s = .next (s.tdisp part.val r) := by
      rw [exec_tdispRequest, execTdispRequest, asked_answers answers turn]
    exact ⟨fun n unlocked session => (asked _).trans (congrArg _ (tdisp_locks room unlocked session)),
      fun locked => (asked _).trans (congrArg _ (tdisp_starts room locked)), (asked _).trans (congrArg _ (tdisp_stops room))⟩

end Sys2Proof.Machine
end

section
/-!
The journal's exports (R439, R442, R489): the next record goes to its place in the ring or waits for its page, and the writes that let a refused
attempt be tried again.
-/

namespace Sys2Proof.Machine

/-! ### The next record (R439, R489) -/

section
variable {s : State} {r : JRec} (may : s.mayExport = true) (room : s.jrnl.written < s.jrnlHead + 2 ^ s.jrnlLog / 128)
  (next : (s.jrnl.recs.find? fun r => r.seq = s.jrnl.written) = some r)
include may room next

/-- R439: where the page of its place is missing, it waits for it. -/
theorem exportWrite_waits {p : Nat}
    (miss : s.missing s.jrnlLink (s.jrnlBase + s.jrnl.written % (2 ^ s.jrnlLog / 128) * 128) 128 true = some p) :
    s.exportWrite = { s with jrnl := { s.jrnl with park := some p, retry := false } }.askXlate s.jrnlLink p true := by
  rw [State.exportWrite]
  dsimp only
  rw [if_neg (by simp [may, room]), next]
  dsimp only
  rw [miss]

/-- R439, R489: else it is written, one word of it zeros where it was lost on die. -/
theorem exportWrite_writes (there : s.missing s.jrnlLink (s.jrnlBase + s.jrnl.written % (2 ^ s.jrnlLog / 128) * 128) 128 true = none) :
    s.exportWrite =
      let t := (if r.bad = true then s.bump else s).hostWrite s.jrnlLink (s.jrnlBase + s.jrnl.written % (2 ^ s.jrnlLog / 128) * 128)
        (if r.bad = true then loseWord (s.freeVal % 16) r.bytes else r.bytes)
      { t with jrnl := { t.jrnl with written := s.jrnl.written + 1, experr := false, retry := false, tries := 0 } } := by
  rw [State.exportWrite]
  dsimp only
  rw [if_neg (by simp [may, room]), next]
  dsimp only
  rw [there]

end

/-! ### The registers of exports (R442) -/

theorem testBit_set (v i : Nat) : (v ||| 2 ^ i).testBit i = true := by simp

/-- A write that sets bit i of a register sets the one-bit field there. -/
theorem bitsOf_set (v i : Nat) : bitsOf (v ||| 2 ^ i) i 1 = 1 := by
  rw [bitsOf, Nat.shiftRight_eq_div_pow, Nat.pow_one, ← Nat.toNat_testBit, testBit_set]
  rfl

/-- R442: setting EN is journalled from the reserve, keeps LOG and LINK where it was set, and lets a refused attempt be tried again. -/
theorem jrnlCfgWrite_enables (s : State) (o : Origin) (width v : Nat) :
    let w := v ||| 2 ^ 31
    let old := s.reg 0x2400008
    let t := (s.jMust o (.setup 0x2400008 width false old (w % 2 ^ 32))).setReg 0x2400008
      ((if s.jrnlEn then old % 128 else w % 128) + 2 ^ 8 * bitsOf w 8 8 + 2 ^ 31)
    s.jrnlCfgWrite o width w = t.exportRetry := by
  intro w old t
  rw [State.jrnlCfgWrite, State.jrnlRegWrite, bitsOf_set]
  exact (if_neg Bool.false_ne_true).trans (if_pos (testBit_set v 31))

/-- Settles O37: the next record by whether its page is there; visible records and the registers have one case. -/
theorem journalExport : Obligations.JournalExport := by
  refine ⟨fun r s => ?write, fun s written => ?visible, fun o v s => ⟨rfl, ?enable, rfl⟩⟩
  case write =>
    intro n size f addr may room next
    rw [exec_jrnlExportWrite, execJrnlExportWrite]
    exact ⟨fun p miss => congrArg _ (exportWrite_waits may room next miss), fun there => congrArg _ (exportWrite_writes may room next there)⟩
  case visible =>
    rw [exec_jrnlExportVisible, execJrnlExportVisible]
    exact congrArg _ (if_pos written)
  case enable =>
    rw [exec_jrnlExpEnable, execJrnlExpEnable]
    exact congrArg _ (jrnlCfgWrite_enables s o 8 v)

end Sys2Proof.Machine
end

section
/-!
Ports, fences and error records (R444-R446, R457, R458, R461, R464-R472): each event where it is due, and the writes that ask for a fence, lift one
or clear a record.
-/

namespace Sys2Proof.Machine

/-! ### Ports (R444-R446) -/

section
variable {s : State} {q k : Nat}

theorem bpLost_up {code info : Nat} (up : (s.bp q k).up = true) : s.bpLost q k code info =
    (((s.portLoses q k).modBp q k fun b => b.downed).report (64 + q) 0xFF code info).noteHealth :=
  if_neg (by simp [up])

/-- R446: a port that nothing holds down comes up on its full lanes, and offers shedding where SHED is set. -/
theorem bpUp_free (exists_ : k < (s.port q).bpCount) (unfenced : aget s.err.fences (q / 2) = none) (powered : s.powered = true)
    (alive : s.err.fatal = false) (normal : s.mgmt.recovery = false) (runs : s.mgmt.running = true) (down : (s.bp q k).up = false)
    (cabled : (s.cage q).present = true) (on : (s.cage q).on = true) (full : (s.cage q).lowpwr = false) :
    let lanes := modeLanes (s.port q).mode
    let u := s.modBp q k fun b => { b.downed with up := true, lanes := lanes, upAt := s.now }
    s.bpUp q k lanes =
      (if u.fld (0xC00000 + 0x20000 * q) 4 1 = 1 then u.emit (.shed q k (shedFrame (u.mac q k) 1 0 lanes)) else u).noteHealth := by
  intro lanes u
  rw [State.bpUp, unfenced]
  refine if_neg ?_
  simp [exists_, powered, alive, normal, runs, down, cabled, on, full, lanes]

end

/-! ### Fences (R457, R458, R461) -/

section
variable {s : State}

/-- R457, R461: a write of ERR_FENCE that asks for a fence or lifts one. -/
theorem fenceWrite_acts {o : Origin} {width v : Nat} (room : s.jrnl.full = false)
    (meant : ((bitList 4 (bitsOf v 8 4)).filter fun n => (aget s.err.fences n).isNone) ≠ [] ∨
      ((bitList 4 (bitsOf v 12 4)).filter fun n => s.mayLift n) ≠ []) :
    s.fenceWrite o width v = ((bitList 4 (bitsOf v 12 4)).filter fun n => s.mayLift n).foldl (fun s n => s.fenceLift n)
      (((bitList 4 (bitsOf v 8 4)).filter fun n => (aget s.err.fences n).isNone).foldl (fun s n => s.report (0xF0 + n) 0xFF 0x65 0)
        (s.jCommit o (.setup 0x1C00010 width false s.fenceReg v))) := by
  have acts : decide (((bitList 4 (bitsOf v 8 4)).filter fun n => (aget s.err.fences n).isNone) = [] ∧
      ((bitList 4 (bitsOf v 12 4)).filter fun n => s.mayLift n) = []) = false :=
    decide_eq_false (not_and_or.mpr meant)
  rw [State.fenceWrite, acts, setupWrite_acts room]

end

/-- Settles O38: a port that goes down or comes up, a fence that closes, and the two writes of ERR_FENCE. -/
theorem portsAndFences : Obligations.PortsAndFences := by
  refine ⟨fun port k now s => ⟨fun up => ?down, ?up⟩, fun region x now s => ?fence, fun o mask s room => ?write⟩
  case down =>
    have lost (code info : Nat) := bpLost_up (s := s.tick now) (code := code) (info := info) up
    intro u
    exact ⟨congrArg _ (lost 0x21 port.val), fun lane => congrArg _ (lost 0x20 lane)⟩
  case up =>
    intro x exists_ unfenced powered alive normal runs down cabled on full u
    exact congrArg _ (bpUp_free exists_ unfenced powered alive normal runs down cabled on full)
  case fence =>
    intro n t found
    refine ⟨fun moved => ?_, fun due open_ => ?_⟩
    · rw [exec_orderlyFenceProceed, execOrderlyFenceProceed, found]
      exact congrArg _ (if_pos (by simp [n, moved]))
    · have found' : aget (s.tick now).err.fences region.val = some x := found
      rw [exec_fenceWaitExpiry, execFenceWaitExpiry, found']
      exact congrArg _ (if_pos ⟨due, by simp [open_]⟩)
  case write =>
    intro v w req lift
    exact ⟨fun some_ => congrArg _ (fenceWrite_acts room (.inl some_)), fun some_ => congrArg _ (fenceWrite_acts room (.inr some_))⟩

/-! ### Error records (R464, R467, R468, R471, R472) -/

@[simp] theorem rec_modRec (s : State) (k : Nat) (g : ErrRec → ErrRec) : (s.modRec k g).rec_ k = g (s.rec_ k) := by
  simp [State.rec_, State.modRec]

section
variable {s : State} {k sev unit syn : Nat}

/-- R468: the first error at a record fills its fields; one that needs no action there starts none. -/
theorem atRecord_first (fresh : (s.rec_ k).valid = false) :
    s.atRecord k sev unit syn false = (s.modRec k fun _ => { (s.rec_ k).first sev unit syn s.clk.time with run := none }, false) := by
  simp [State.atRecord, ErrRec.arrive, fresh]

/-- R472: an action that is over hands its error to the chip record, unless it was the chip's own, and the next one runs. -/
theorem actionEnd_over {a : ErrAct} (runs : (s.rec_ k).run = some a) (ended : s.actionOver k = true) :
    let t := s.modRec k fun r => { r with run := r.waits.head?, waits := r.waits.drop 1 }
    let u := if k = 0xFF then t else t.atChip a.sev a.unit a.syn
    ((s.rec_ k).waits = [] → s.actionEnd k = u) ∧
    (∀ (b : ErrAct) (l : List ErrAct), (s.rec_ k).waits = b :: l → s.actionEnd k = u.runAction k b) := by
  refine ⟨fun last => ?_, fun b l waiting => ?_⟩
  · rw [State.actionEnd, runs]
    dsimp only
    rw [if_neg (by simp [ended]), last]
    rfl
  · rw [State.actionEnd, runs]
    dsimp only
    rw [if_neg (by simp [ended]), waiting]
    rfl

/-- R471: a record without an action in progress is cleared, and the cells beneath it. -/
theorem recClear_idle {o : Origin} {r : RecRef} (room : s.jrnl.full = false) (idle : (s.rec_ r.key).run = none) :
    let t := s.jCommit o (.setup r.off 8 false ((s.rec_ r.key).word 0) 1)
    s.recClear o r 1 =
      { t with err := { t.err with recs := adel t.err.recs r.key, cells := t.err.cells.filter fun c => ! recHolds r c.1 } } := by
  have clears : decide ((s.rec_ r.key).run.isSome = true ∨ 1 % 2 = 0) = false := by simp [idle]
  rw [State.recClear, clears, setupWrite_acts room]

end

section
variable {s : State} {r : ErrReport} (other : r.code ≠ 8)
include other

/-- R464: a cell handles a CORRECTED error that it detects. -/
theorem arrival_cell (block : r.block < 93) (cell : r.cell ≠ 0xFF) (corrected : severity r.code r.block = 0) :
    (s.arrival r).err.recs = s.err.recs ∧ (agetD (s.arrival r).err.cells r.unit {}).valid = true := by
  have atCell : r.block < 93 ∧ r.cell ≠ 0xFF := ⟨block, cell⟩
  rw [State.arrival]
  dsimp only
  rw [if_neg other, if_pos atCell, if_pos ⟨atCell, corrected⟩]
  refine ⟨rfl, ?_⟩
  rw [agetD_amod_same]
  split
  case isTrue valid => exact valid
  case isFalse => rfl

/-- A report is taken from those on their way. -/
def State.unbox (s : State) (r : ErrReport) : State := { s with err := { s.err with inbox := dropFirst s.err.inbox fun x => x = r } }

/-- R468: a block's own error of severity CORRECTED or lower is the first at its record, and goes no further. -/
theorem arrival_first (block : r.block < 64) (own : r.cell = 0xFF) (low : severity r.code r.block < 2) (fresh : (s.rec_ r.block).valid = false) :
    (s.arrival r).rec_ r.block = { (s.rec_ r.block).first (severity r.code r.block) r.unit r.syn s.clk.time with run := none } ∧
    (s.arrival r).err.inbox = dropFirst s.err.inbox fun x => x = r := by
  have notHang : r.code ≠ 0x41 := fun hang => by
    rw [hang] at low
    exact absurd low (show ¬ severity 0x41 r.block < 2 from by simp [severity])
  have needless : decide (severity r.code r.block = 2) = false := decide_eq_false (by omega)
  have arrives : s.arrival r = (s.unbox r).modRec r.block fun _ =>
      { (s.rec_ r.block).first (severity r.code r.block) r.unit r.syn s.clk.time with run := none } := by
    have notCell : ¬ (r.block < 93 ∧ r.cell ≠ 0xFF) := fun h => h.2 own
    have notCorrected : ¬ ((r.block < 93 ∧ r.cell ≠ 0xFF) ∧ severity r.code r.block = 0) := fun h => notCell h.1
    have first : (s.unbox r).atRecord r.block (severity r.code r.block) r.unit r.syn (decide (severity r.code r.block = 2)) =
        ((s.unbox r).modRec r.block fun _ =>
          { (s.rec_ r.block).first (severity r.code r.block) r.unit r.syn s.clk.time with run := none }, false) := by
      rw [needless]
      exact atRecord_first fresh
    rw [State.arrival]
    dsimp only
    rw [if_neg other, if_neg notCell, if_neg notCorrected, if_neg (show ¬ r.block = 0xFF by omega), if_neg (show ¬ 0xF0 ≤ r.block by omega)]
    unfold State.unbox at first ⊢
    rw [first]
    dsimp only
    rw [if_neg (show ¬ 3 ≤ severity r.code r.block by omega), if_neg notHang]
  rw [arrives]
  exact ⟨rec_modRec _ _ _, rfl⟩

end

/-- Settles O39: a report by what detects it, an action's end by what waits, and a record's clearing. -/
theorem errorRecords : Obligations.ErrorRecords := by
  refine ⟨fun r c s => rfl, fun r s block cell corrected other => arrival_cell other block cell corrected,
    fun r s block own low other fresh => arrival_first other block own low fresh, fun k a s runs ended => ?_, fun o k s room idle => ?_⟩
  · obtain ⟨last, waiting⟩ := actionEnd_over runs ended
    intro t u
    rw [exec_errorActionEnd, execErrorActionEnd]
    exact ⟨fun none_ => by rw [last none_], fun b l some_ => by rw [waiting b l some_]⟩
  · intro t
    rw [exec_errRecordClear, execErrRecordClear, recClear_idle room idle]

end Sys2Proof.Machine
end

section
/-!
Scrubbers (R480-R487, R493): a visit by what the scrubber visits next, and a lap that takes too long.
-/

namespace Sys2Proof.Machine

section
variable {s : State} {k : Nat} {f : ScrubFind} (runs : s.scrubRuns k = true)
include runs

/-- R485: a visit to the next line of a region's macros; after the last line the lap ends. -/
theorem scrubVisit_sram (region : k < 4) :
    let u := (s.scrubFound k (s.scrub k).next f).modScrub k fun x => { x with next := (s.scrub k).next + 1 }
    s.scrubVisit k f = if sramLines ≤ (s.scrub k).next + 1 then u.lapEnd k else u := by
  have visits : ¬ (6 ≤ k ∨ (! s.scrubRuns k) = true) := by
    simp [runs]
    omega
  exact (if_neg visits).trans (if_pos region)

/-- R483: a visit of a DRAM scrubber. -/
theorem scrubVisit_dram (stack : 4 ≤ k) (max : k < 6) :
    s.scrubVisit k f = (s.dramLine k).elim (s.lapEnd k) fun l => (s.scrubFound k l f).modScrub k fun x => { x with next := l + 1 } := by
  have visits : ¬ (6 ≤ k ∨ (! s.scrubRuns k) = true) := by
    simp [runs]
    omega
  refine (if_neg visits).trans ((if_neg (by omega)).trans ?_)
  cases s.dramLine k with
  | none => rfl
  | some l => rfl

end

/-- R485: a lap that has taken longer than LIMIT goes on as urgent scrub. -/
theorem scrubStarve_late {s : State} {k : Nat} (max : k < 6) (calm : (s.scrub k).urgent = false) (late : (s.scrub k).lapAt + s.scrubLimit < s.now)
    (powered : s.powered = true) :
    s.scrubStarve k = (s.modScrub k fun x => { x with urgent := true, urgLaps := satAdd 0xFFFF x.urgLaps 1 }).scrubWake k := by
  refine if_neg ?_
  simp [calm, powered]
  omega

/-- Settles O40: a visit by the kind of its scrubber and by the line that is next, then a lap beyond its LIMIT. -/
theorem scrubbing : Obligations.Scrubbing := by
  intro k now s t
  refine ⟨fun f region runs => ?sram, fun f stack max runs => ?dram, fun max calm late powered => congrArg _ (scrubStarve_late max calm late powered)⟩
  case sram =>
    intro n u
    rw [exec_scrubVisit, execScrubVisit, scrubVisit_sram runs region]
    exact ⟨fun more => by rw [if_neg (Nat.not_le.mpr more)], fun last => by rw [if_pos last]⟩
  case dram =>
    rw [exec_scrubVisit, execScrubVisit, scrubVisit_dram runs stack max]
    exact ⟨fun none_ => by rw [none_]; rfl, fun l some_ => by rw [some_]; rfl⟩

end Sys2Proof.Machine
end

section
/-!
The saiga domain (R463, R520, R524, R525): when it dozes and wakes, what a watchdog expiry does by the boot control block, when an image is
confirmed, and what a boot does by the slot it picks.
-/

namespace Sys2Proof.Machine

section
variable {s : State}

/-! ### Doze and wake (R520) -/

theorem saigaDoze_due (runs : s.mgmt.running = true) (powered : s.powered = true) (on : s.power.saiga = 0) (dozes : s.fld 0x3000070 0 16 ≠ 0)
    (due : s.mgmt.idleAt + 1000 * s.fld 0x3000070 0 16 ≤ s.now) (idle : s.saigaWork = false) (quiet : s.taskSoon = false) :
    s.saigaDoze = { s with power := { s.power with saiga := 1 } } :=
  if_pos (by simp [runs, powered, on, dozes, due, idle, quiet])

/-- R520: with an idle time of 0 it never dozes. -/
theorem saigaDoze_never (never : s.fld 0x3000070 0 16 = 0) : s.saigaDoze = s := if_neg (by simp [never])

theorem saigaOn_dozing (dozes : s.power.saiga = 1) :
    s.saigaOn = { s with power := { s.power with saiga := 0 }, mgmt := { s.mgmt with idleAt := s.now } } := by
  rw [State.saigaOn, if_pos dozes]

/-! ### The watchdog (R463, R525) -/

section
variable (runs : s.mgmt.running = true) (powered : s.powered = true) (free : s.jrnl.full = false ∨ s.willSwitch = false)
include runs powered free

/-- R463: an expiry of the running firmware is reported, and its started messages are answered INTERNAL; then it goes by the boot control block. -/
theorem watchdog_acts :
    let b := s.mgmt.bcbCurrent.getD {}
    let t := (s.report 90 0xFF 0x80 (s.freeVal % 2 ^ 48)).bump.mbxInternal
    s.watchdog = if b.trial = false then t.fwRestart
      else if b.tries < 2 then { t with mgmt := t.mgmt.bcbWrite fun b => { b with tries := b.tries + 1 } }.fwRestart
      else (State.fwRecord { t with mgmt := t.mgmt.bcbWrite fun b => { b with trial := false, tries := 0, active := 1 - b.active % 2 } } 1).fwRestart := by
  have acts : ¬ ((! s.mgmt.running) = true ∨ (! s.powered) = true ∨ (s.jrnl.full = true ∧ s.willSwitch = true)) := by
    rcases free with room | stays
    · simp [runs, powered, room]
    · simp [runs, powered, stays]
  intro b t
  rw [State.watchdog, if_neg acts]
  simp only [Bool.not_eq_true']
  rfl

end

/-! ### Confirmation and boot (R524, R525) -/

/-- R525: 60 s of health OK. -/
theorem trialOk_due {b : Bcb} (current : s.mgmt.bcbCurrent = some b) (trial : b.trial = true) (runs : s.mgmt.running = true) (ok : s.health = 1)
    (due : s.mgmt.okAt + 60000000000 ≤ s.now) : s.trialOk = { s with mgmt := s.mgmt.bcbWrite fun b => { b with trial := false } } := by
  rw [State.trialOk, current]
  exact if_pos ⟨trial, runs, ok, due⟩

section
variable (stopped : s.mgmt.running = false) (normal : s.mgmt.recovery = false) (powered : s.powered = true) (stable : s.power.stable = true)
  (bad : List Nat)
include stopped normal powered stable

/-- R524: no slot's image verifies. -/
theorem bootUp_recovery (none_ : s.pickSlot = none) : s.bootUp bad = s.toRecovery := by
  rw [State.bootUp, if_neg (by simp [stopped, normal, powered, stable]), none_]

/-- R524, R571: the active image starts again without self-test. -/
theorem bootUp_active {i : Nat} {b : Bcb} (active : s.pickSlot = some (i, false)) (again : s.jrnl.next ≠ 0) (current : s.mgmt.bcbCurrent = some b)
    (attached : b.sa = false) :
    let u := s.runSlot i
    let v := { u with mem := { u.mem with devKey := if u.mem.drk then some u.mem.powerOns else none }, sec := { u.sec with drbg := if u.sec.failed then 2 else 1 } }
    s.bootUp bad = v.bootRecord.bootMacs.noteHealth := by
  have tested : ¬ (s.jrnl.next = 0 ∧ (! s.bist.kept) = true) := fun h => again h.1
  have alone : ¬ ((some b).getD { sa := true }).sa = true := by simp [attached]
  intro u v
  rw [State.bootUp, if_neg (by simp [stopped, normal, powered, stable]), active, current]
  dsimp only
  rw [if_neg Bool.false_ne_true, if_neg tested, if_neg alone]

end
end

/-- Settles O53: doze and wake, the watchdog by the boot control block, a confirmation, and a boot by the slot it picks. -/
theorem saigaDomain : Obligations.SaigaDomain := by
  refine ⟨fun now s => ?doze, fun source s dozes known => ?wake, fun s runs powered free => ?watchdog,
    fun b now s current trial runs ok due => congrArg _ (trialOk_due (s := s.tick now) current trial runs ok due),
    fun bad s stopped normal powered stable => ?boot⟩
  case doze =>
    intro t d
    exact ⟨fun runs powered on dozes due idle quiet => congrArg _ (saigaDoze_due (s := t) runs powered on dozes due idle quiet),
      fun never => congrArg _ (saigaDoze_never (s := t) never)⟩
  case wake =>
    rw [exec_saigaWake, execSaigaWake, if_pos ⟨dozes, known⟩, saigaOn_dozing dozes]
  case watchdog =>
    intro b t
    rw [exec_saigaWatchdogExpiry, execSaigaWatchdogExpiry, watchdog_acts runs powered free]
    exact ⟨fun untried => congrArg _ (if_pos untried), fun trial again => congrArg _ ((if_neg (by simp [b, trial])).trans (if_pos again)),
      fun trial third => congrArg _ ((if_neg (by simp [b, trial])).trans (if_neg (Nat.not_lt.mpr third)))⟩
  case boot =>
    rw [exec_boot, execBoot]
    refine ⟨fun none_ => by rw [bootUp_recovery stopped normal powered stable bad none_], fun i b active again current attached => ?_⟩
    rw [bootUp_active stopped normal powered stable bad active again current attached]

end Sys2Proof.Machine
end

section
/-!
Management bus commands (R521, R524, R526, R536, R537, R543): a request is answered from memory, refused without its session, or does what its
row says.
-/

namespace Sys2Proof.Machine

/-! ### Requests (R521, R524, R536) -/

@[simp] theorem saigaOn_answers (s : State) : s.saigaOn.mgmt.answers = s.mgmt.answers := rfl

section
variable {s : State} {node seq : Nat} {boot : Bool} {k : State → State}

section
variable (powered : s.powered = true) (alive : s.mgmt.running = true ∨ s.mgmt.recovery = true ∧ boot = true)
  (turn : s.mgmt.running = true → s.fwTurn 6 = true)
include powered alive turn

/-- The running firmware takes a request in its turn, and the boot ROM in recovery. -/
theorem busCmd_reached : ¬ ((! s.powered) = true ∨ ((! s.mgmt.running) = true ∧ (! (s.mgmt.recovery ∧ boot)) = true) ∨
    (s.mgmt.running = true ∧ (! s.fwTurn 6) = true)) := by
  rcases alive with runs | ⟨recovery, rom⟩
  · simp [powered, runs, turn runs]
  · simpa [powered, recovery, rom] using turn

/-- R536: a repeated request gets the stored response. -/
theorem busCmd_again {session : Option Nat} {a : BusAns} (stored : (s.mgmt.answers.find? fun a => a.node = node ∧ a.seq = seq) = some a)
    (whole : s.mgmt.short = false) : s.busCmd node seq boot session k = s.saigaOn.emit (.busReply node seq a.status a.data) := by
  rw [State.busCmd, if_neg (busCmd_reached powered alive turn)]
  dsimp only
  rw [saigaOn_answers, stored]
  exact if_neg (ne_true_of_eq_false whole)

section
variable (fresh : (s.mgmt.answers.find? fun a => a.node = node ∧ a.seq = seq) = none)
include fresh

theorem busCmd_open : s.busCmd node seq boot none k = k s.saigaOn := by
  rw [State.busCmd, if_neg (busCmd_reached powered alive turn)]
  dsimp only
  rw [saigaOn_answers, fresh]

/-- R536: every command but ID runs in a session, and ends PROT outside one. -/
theorem busCmd_session {n : Nat} : s.busCmd node seq boot (some n) k =
    if s.session .bus n = true then k s.saigaOn else s.saigaOn.busReply node seq Status.prot.code [] := by
  rw [State.busCmd, if_neg (busCmd_reached powered alive turn)]
  dsimp only
  rw [saigaOn_answers, fresh]
  rfl

end
end

theorem busCmd_ready {n : Nat} (ready : BusReady s node seq n) : s.busCmd node seq boot (some n) k = k s.saigaOn :=
  (busCmd_session ready.powered (.inl ready.running) (fun _ => ready.turn) ready.fresh).trans (if_pos ready.secure)

end

/-! ### What each row says (R526, R537, R543) -/

section
variable {s : State} {node seq : Nat}

/-- R543. -/
theorem busRead_shed {addr width : Nat} (shed : s.mgmt.shed = true) : s.busRead node seq addr width = s.busShed node seq := if_pos shed

theorem busJrnl_shed {n : Nat} (shed : s.mgmt.shed = true) : s.busJrnl node seq n = s.busShed node seq := if_pos shed

theorem busRead_value {addr width v : Nat} {t : State} (calm : s.mgmt.shed = false) (width_ : width = 4 ∨ width = 8)
    (value : s.pfRead addr width = (t, .val v)) : s.busRead node seq addr width = t.busReply node seq 0 [v] := by
  rw [State.busRead, if_neg (ne_true_of_eq_false calm), if_neg (by omega), value]

theorem busWrite_works {addr width v : Nat} (width_ : width = 4 ∨ width = 8) (room : s.jrnl.full = false) (works : s.regDown addr = false) :
    s.busWrite node seq addr width v = (s.pfWrite s.busOrigin addr width v).busReply node seq 0 [] := by
  rw [State.busWrite, if_neg (by omega), if_neg (fun h => absurd h.1 (ne_true_of_eq_false room)), works]
  rfl

/-- R526: the card data lies behind both slots. -/
theorem touchesSlot_cardData {addr : Nat} (card : 0x1810000 ≤ addr) (i : Nat) : touchesSlot addr 1024 i = false := by
  have base : slotBase i ≤ 0xC10000 := by
    unfold slotBase
    split <;> omega
  unfold touchesSlot slotSize
  exact decide_eq_false (by omega)

section
variable {addr : Nat} {data : List Byte} (whole : data.length = 1024) (fits : addr + 1024 ≤ 0x2000000)
include whole fits

theorem busFlash_card (card : 0x1810000 ≤ addr) (room : s.jrnl.full = false) :
    let flash := ((List.range 1024).zip data).foldl (fun (l : List Host.Cell) (b : Nat × Byte) => aset l (addr + b.1) b.2) s.mgmt.flash
    s.busFlash node seq addr data = { s with mgmt := { s.mgmt with flash := flash } }.busReply node seq 0 [] := by
  have part : flashPart addr 1024 = some 2 := by
    rw [flashPart, if_neg (by omega), if_neg (by omega), if_neg (by omega), if_pos ⟨card, fits⟩]
  have apart : ¬ (addr < 0x10000 ∨ touchesSlot addr 1024 s.mgmt.slot = true) := by
    rw [touchesSlot_cardData card]
    simp only [Bool.false_eq_true, or_false]
    omega
  rw [State.busFlash, if_neg (by omega), if_neg apart, if_neg (ne_true_of_eq_false room), part]
  rfl

theorem busFlash_prot (touches : addr < 0x10000 ∨ touchesSlot addr 1024 s.mgmt.slot = true) :
    s.busFlash node seq addr data = s.busReply node seq Status.prot.code [] := by
  rw [State.busFlash, if_neg (by omega), if_pos touches]

end

/-- R525: the other slot becomes the active one, under TRIAL. -/
theorem busSwitch_room {restart : Bool} {other : Nat} (room : s.jrnl.full = false) (slot : other = 1 - s.mgmt.slot % 2) :
    let w := s.fwRecord 1
    let m := w.mgmt.bcbWrite fun b => { b with active := other, trial := true, tries := 0 }
    let t := { w with mgmt := { m with slot := other, written := [] } }.busReply node seq 0 []
    s.busSwitch node seq restart = if restart = true then t.mbxInternal.fwRestart else t := by
  subst slot
  exact if_neg (ne_true_of_eq_false room)

theorem busJrnl_held {n : Nat} {r : JRec} (calm : s.mgmt.shed = false) (held : (s.jrnl.recs.find? fun x => x.seq = n) = some r)
    (sound : r.bad = false) : s.busJrnl node seq n = s.busReply node seq 0 (nats r.bytes) := by
  rw [State.busJrnl, if_neg (ne_true_of_eq_false calm), held]
  dsimp only
  rw [sound]
  rfl

end

/-- Settles O52: a request by what is stored and by its session, then one lemma a row. -/
theorem busCommands : Obligations.BusCommands := by
  refine ⟨fun node seq s powered alive turn => ?id, fun node seq addr width value session rec_ restart s powered runs turn fresh closed => ?closed,
    fun node seq session s ready => ?row⟩
  case id =>
    have rom : s.mgmt.running = true ∨ s.mgmt.recovery = true ∧ true = true := by simpa using alive
    intro u
    refine ⟨fun fresh => congrArg _ (busCmd_open powered rom turn fresh), fun a stored whole => ⟨congrArg _ (busCmd_again powered rom turn stored whole),
      fun runs addr width value session restart => ⟨?_, congrArg _ (busCmd_again powered (.inl runs) turn stored whole)⟩⟩⟩
    exact congrArg (fun t : State => Host.Outcome.next t.settle) (busCmd_again powered (.inl runs) turn stored whole)
  case closed =>
    have refused {boot : Bool} {k : State → State} : s.busCmd node seq boot (some session) k =
        s.saigaOn.busReply node seq Status.prot.code [] :=
      (busCmd_session powered (.inl runs) (fun _ => turn) fresh).trans (if_neg (ne_true_of_eq_false closed))
    exact ⟨congrArg _ refused, congrArg (fun t : State => Host.Outcome.next t.settle) refused, congrArg _ refused, congrArg _ refused,
      fun data => congrArg _ refused⟩
  case row =>
    intro u
    refine ⟨fun addr width rec_ shed => ⟨congrArg _ ((busCmd_ready ready).trans (busRead_shed (s := u) shed)),
        congrArg _ ((busCmd_ready ready).trans (busJrnl_shed (s := u) shed))⟩,
      fun addr width v t calm width_ value => congrArg _ ((busCmd_ready ready).trans (busRead_value (s := u) calm width_ value)),
      fun addr width v width_ room works => ?write,
      fun addr data whole card fits _ room => congrArg _ ((busCmd_ready ready).trans (busFlash_card (s := u) whole fits card room)),
      fun addr data whole fits touches => congrArg _ ((busCmd_ready ready).trans (busFlash_prot (s := u) whole fits touches)),
      fun room => ?switch,
      fun r calm sound held => congrArg _ ((busCmd_ready ready).trans (busJrnl_held (s := u) calm held sound))⟩
    case write =>
      exact congrArg (fun t : State => Host.Outcome.next t.settle) ((busCmd_ready ready).trans (busWrite_works (s := u) width_ room works))
    case switch =>
      intro other w m t
      have slot : other = 1 - u.mgmt.slot % 2 := rfl
      have switch (restart : Bool) : s.busCmd node seq false (some session) (fun s => s.busSwitch node seq restart) =
          if restart = true then t.mbxInternal.fwRestart else t :=
        (busCmd_ready ready).trans (busSwitch_room room slot)
      rw [exec_imageSwitch, execImageSwitch, switch, exec_imageSwitch, execImageSwitch, switch]
      exact ⟨congrArg _ (if_neg Bool.false_ne_true), congrArg _ (if_pos rfl)⟩

end Sys2Proof.Machine
end

section
/-!
Timed work of the firmware (R521, R534, R535, R538, R539, R542): the health multicast, the telemetry snapshot, windows of load shedding and
attempts on a shorted pair, each by whether it is due.
-/

namespace Sys2Proof.Machine

section
variable {s : State}

/-! ### The health multicast (R538) -/

theorem healthCast_due (runs : s.mgmt.running = true) (powered : s.powered = true) (whole : s.mgmt.short = false)
    (due : s.mgmt.healthAt + 1000000000 * atLeast1 (s.fld 0x3000040 24 8) ≤ s.now) :
    let u := { s.saigaOn with mgmt := { s.saigaOn.mgmt with healthAt := s.now } }
    s.healthCast = u.emit (.busMulticast u.idData) :=
  (if_pos ⟨runs, powered, due⟩).trans (if_neg (ne_true_of_eq_false whole))

theorem healthCast_early (early : s.now < s.mgmt.healthAt + 1000000000 * atLeast1 (s.fld 0x3000040 24 8)) : s.healthCast = s :=
  if_neg fun h => absurd h.2.2 (Nat.not_le.mpr early)

/-! ### Telemetry (R521, R539, R543) -/

/-- PERIOD in ms, four times as long under load shedding. -/
def State.telPeriod (s : State) : Nat := atLeast1 (bitsOf (s.reg 0x3000058) 8 16) * (if s.mgmt.shed then 4 else 1)

theorem telemetry_due (runs : s.mgmt.running = true) (powered : s.powered = true) (on : s.telEn = true)
    (min : 16 ≤ bitsOf (s.reg 0x3000058) 0 5) (max : bitsOf (s.reg 0x3000058) 0 5 ≤ 30) (turn : s.fwTurn 7 = true)
    (due : s.mgmt.telAt + 1000000 * s.telPeriod ≤ s.now) :
    let v := s.saigaOn
    let u := { v with mgmt := { v.mgmt with telAt := v.now } }.meshSample
    s.telemetry = telWrite u.meshRead (bitsOf (s.reg 0x3000058) 5 2) (u.reg 0x3000050 / 4096 * 4096) (2 ^ bitsOf (s.reg 0x3000058) 0 5 / 64)
      u.telView.telRecs :=
  if_pos ⟨on, min, max, runs, powered, turn, due⟩

theorem telemetry_early (early : s.now < s.mgmt.telAt + 1000000 * s.telPeriod) : s.telemetry = s :=
  if_neg fun ⟨_, _, _, _, _, _, due⟩ => absurd due (Nat.not_le.mpr early)

/-! ### Load shedding (R542) -/

/-- What a window of 10 ms leaves of the two runs of windows. -/
def State.shedCount (s : State) (busy hi lo : Nat) : State := { s with mgmt := { s.mgmt with busyPct := busy, hiRuns := hi, loRuns := lo } }

section
variable {busy : Nat} (runs : s.mgmt.running = true) (room : s.jrnl.full = false)
include runs room

/-- A window is counted among those above HI and those below LO; the third of the ones, or the tenth of the others, changes the state. -/
theorem shedWindow_counts {hi lo : Nat} (above : hi = if s.shedHi < busy then s.mgmt.hiRuns + 1 else 0)
    (below : lo = if busy < s.shedLo then s.mgmt.loRuns + 1 else 0) :
    let t := s.shedCount busy hi lo
    s.shedWindow busy =
      if s.mgmt.shed = false ∧ 3 ≤ hi then State.noteHealth { t.fwRecord 3 with mgmt := { t.mgmt with shed := true } }
      else if s.mgmt.shed = true ∧ 10 ≤ lo then State.noteHealth { t.fwRecord 4 with mgmt := { t.mgmt with shed := false } }
      else t := by
  subst above below
  intro t
  rw [State.shedWindow]
  dsimp only
  rw [if_neg (by simp [runs]), if_neg (ne_true_of_eq_false room)]
  simp only [Bool.not_eq_true']
  rfl

end

/-! ### The bus pair (R534, R535) -/

theorem shortRetry_early {x : MbusTry} (short : s.mgmt.short = true) (early : s.now < s.mgmt.shortAt + 1000000000) : s.shortRetry x = s :=
  if_pos ⟨short, early⟩

/-- R535: an attempt is counted, and leaves what it detected. -/
theorem shortRetry_tries {x : MbusTry} (due : s.mgmt.short = false ∨ s.mgmt.shortAt + 1000000000 ≤ s.now) : s.shortRetry x =
    { s with mgmt := { s.mgmt with
        short := x.short, polrev := x.rev, open_ := x.open_, shortAt := if x.short then s.now else s.mgmt.shortAt,
        coll := satAdd 0xFFFF s.mgmt.coll x.colls,
        excess := if s.fld 0x3000040 8 1 = 0 ∧ 16 ≤ x.colls then satAdd 0xFFFF s.mgmt.excess 1 else s.mgmt.excess } } := by
  refine if_neg fun ⟨short, early⟩ => ?_
  rcases due with whole | passed
  · exact absurd short (ne_true_of_eq_false whole)
  · exact absurd early (Nat.not_lt.mpr passed)

end

/-- Settles O54: each by whether its period has passed, and a window by the runs that it continues. -/
theorem timedWork : Obligations.TimedWork := by
  refine ⟨fun now s => ?timed, fun x now s => ?pair⟩
  case timed =>
    intro t runs powered
    refine ⟨fun due whole => congrArg _ (healthCast_due (s := t) runs powered whole due), fun early => congrArg _ (healthCast_early (s := t) early),
      ⟨fun on min max turn due => congrArg _ (telemetry_due (s := t) runs powered on min max turn due),
        fun early => congrArg _ (telemetry_early (s := t) early)⟩, fun busy room => ?_⟩
    intro m b set
    have window {hi lo : Nat} (above : hi = if t.shedHi < b then m.hiRuns + 1 else 0) (below : lo = if b < t.shedLo then m.loRuns + 1 else 0) :=
      congrArg (Host.Outcome.next (φ := Fault) (ρ := Refusal)) (shedWindow_counts runs room above below)
    refine ⟨fun calm high notLow few => ?_, fun calm high notLow many => ?_, fun shed notHigh low many => ?_⟩
    · refine (window (if_pos high).symm (if_neg (Nat.not_lt.mpr notLow)).symm).trans (congrArg _ ?_)
      rw [if_neg (by omega), if_neg (fun h => absurd h.1 (ne_true_of_eq_false calm))]
      rfl
    · refine (window (if_pos high).symm (if_neg (Nat.not_lt.mpr notLow)).symm).trans (congrArg _ ?_)
      exact if_pos ⟨calm, by omega⟩
    · refine (window (if_neg (Nat.not_lt.mpr notHigh)).symm (if_pos low).symm).trans (congrArg _ ?_)
      rw [if_neg (by omega)]
      exact if_pos ⟨shed, by omega⟩
  case pair =>
    intro t
    exact ⟨fun short early => congrArg _ (shortRetry_early (s := t) short early), fun due => congrArg _ (shortRetry_tries (s := t) due)⟩

end Sys2Proof.Machine
end

section
/-!
Flow control and receiver overload (R499, R505-R507): what a PAUSE or PFC frame gives, when PFC goes out, and what a 100 µs interval does.
-/

namespace Sys2Proof.Machine

/-! ### Breakout ports -/

@[simp] theorem bp_modBp (s : State) (q k : Nat) (g : Bp → Bp) : (s.modBp q k g).bp q k = g (s.bp q k) := by
  simp [State.bp, State.modBp]

theorem modBp_congr {s : State} {q k : Nat} {g g' : Bp → Bp} (h : g (s.bp q k) = g' (s.bp q k)) : s.modBp q k g = s.modBp q k g' :=
  congrArg (fun b : Bp => s.modPort q fun x => { x with bps := aset x.bps k b }) h

section
variable {s : State} {q k : Nat}

/-! ### Pauses (R505, R506) -/

theorem pauseIn_taken {quanta : Nat} (up : (s.bp q k).up = true) (takes : s.fc q = 1) :
    s.pauseIn q k quanta = s.modBp q k fun b => { b with pauseAll := s.now + s.pauseNs q k quanta } := if_pos ⟨up, takes⟩

theorem pfcIn_taken {en : Nat} {times : List Nat} (up : (s.bp q k).up = true) (takes : s.fc q = 2) : s.pfcIn q k en times =
    (bitList 8 en).foldl (fun (s : State) i => s.modBp q k fun b => { b with pauseEnd := aset b.pauseEnd i (s.now + s.pauseNs q k (times.getD i 0)) }) s :=
  if_pos ⟨up, takes⟩

theorem pauseOver_due {prio : Nat} (all : (s.bp q k).pauseAll ≤ s.now) (one : agetD (s.bp q k).pauseEnd prio 0 ≤ s.now) :
    s.pauseOver q k prio = s.modBp q k fun b => { b with pauseAll := 0, pauseEnd := adel b.pauseEnd prio } :=
  modBp_congr (by rw [if_pos all, if_pos one])

/-! ### PFC sent (R507) -/

/-- Frames of PFC for the priorities of the port, with a pause time or to end it. -/
def State.sayPfc (s : State) (q k : Nat) (on : Bool) : State :=
  (bitList 8 (s.fld (portOff q + 0x20) 0 8)).foldl (fun s i => s.emit (.pfc q k i on)) s

section
variable (up : (s.bp q k).up = true) (sends : s.fc q = 2) (some_ : bitList 8 (s.fld (portOff q + 0x20) 0 8) ≠ [])
include up sends some_

theorem pfcOut_sends : ¬ ((! (s.bp q k).up) = true ∨ s.fc q ≠ 2 ∨ bitList 8 (s.fld (portOff q + 0x20) 0 8) = []) := by
  simp [up, sends, some_]

theorem pfcOut_begins (off : (s.bp q k).pfcOn = false) (above : s.xoff q < s.ingressHeld q) :
    s.pfcOut q k = (s.sayPfc q k true).modBp q k fun b => { b with pfcOn := true, pfcAt := s.now } := by
  rw [State.pfcOut, if_neg (pfcOut_sends up sends some_), if_pos (by simp [off]), if_pos above]
  rfl

section
variable (on : (s.bp q k).pfcOn = true)
include on

theorem pfcOut_ends (below : s.ingressHeld q < s.xon q) :
    s.pfcOut q k = (s.sayPfc q k false).modBp q k fun b => { b with pfcOn := false } := by
  rw [State.pfcOut, if_neg (pfcOut_sends up sends some_), if_neg (by simp [on]), if_pos below]
  rfl

theorem pfcOut_repeats (above : s.xon q < s.ingressHeld q) (due : (s.bp q k).pfcAt + 20000 ≤ s.now) :
    s.pfcOut q k = (s.sayPfc q k true).modBp q k fun b => { b with pfcAt := s.now } := by
  rw [State.pfcOut, if_neg (pfcOut_sends up sends some_), if_neg (by simp [on]), if_neg (Nat.not_lt.mpr (Nat.le_of_lt above)), if_pos ⟨due, above⟩]
  rfl

end
end

/-! ### Receiver overload (R499) -/

/-- An interval is overloaded by an alarm, or by an uncorrectable codeword in 1,000. -/
def Bp.overloaded (b : Bp) (total uncorr : Nat) : Bool := b.alarm || decide (0 < uncorr ∧ total ≤ 1000 * uncorr)

/-- An interval is counted. -/
def Bp.counted (b : Bp) (corr uncorr : Nat) (bad : Bool) : Bp :=
  { b with corr := satAdd 0xFFFFFFFF b.corr corr, uncorr := satAdd 0xFFFFFFFF b.uncorr uncorr, alarm := false,
           overs := if bad then b.overs + 1 else 0, clear := if bad then 0 else b.clear + 1 }

theorem overload_counts {total corr uncorr : Nat} (up : (s.bp q k).up = true) :
    let b := (s.bp q k).counted corr uncorr ((s.bp q k).overloaded total uncorr)
    let u := s.modBp q k fun x => x.counted corr uncorr ((s.bp q k).overloaded total uncorr)
    s.overload q k total corr uncorr =
      if b.degraded = false ∧ 100 ≤ b.overs then u.bpDegrade q k
      else if b.degraded = true ∧ 1000 ≤ b.clear then (u.modBp q k fun b => { b with degraded := false }).noteHealth
      else u := by
  intro b u
  have counted : u.bp q k = b := bp_modBp _ _ _ _
  rw [State.overload, if_neg (by simp [up]), ← counted]
  simp only [Bool.not_eq_true']
  rfl

end

/-- Settles O43: what a frame gives, when PFC begins, repeats and ends, and an interval by the run that it continues. -/
theorem flowControl : Obligations.FlowControl := by
  intro port k now s q t b up
  refine ⟨fun quanta takes => congrArg _ (pauseIn_taken (s := t) up takes), fun en times takes => congrArg _ (pfcIn_taken (s := t) up takes),
    fun prio all one => congrArg _ (pauseOver_due (s := t) all one), ?pfc, fun total corr uncorr => ?interval⟩
  case pfc =>
    intro prios level sends some_
    exact ⟨fun off above => congrArg _ (pfcOut_begins (s := t) up sends some_ off above),
      fun on below => congrArg _ (pfcOut_ends (s := t) up sends some_ on below),
      fun on above due => congrArg _ (pfcOut_repeats (s := t) up sends some_ on above due)⟩
  case interval =>
    intro bad overs clear next u
    rw [exec_overloadInterval, execOverloadInterval, overload_counts (s := t) up]
    refine ⟨fun fine many => congrArg _ (if_pos ⟨fine, many⟩), fun degraded long => congrArg _ ?_, fun fine few => congrArg _ ?_⟩
    · exact (if_neg fun h => absurd h.1 (ne_false_of_eq_true degraded)).trans (if_pos ⟨degraded, long⟩)
    · exact (if_neg fun h => absurd h.2 (Nat.not_le.mpr few)).trans (if_neg fun h => absurd h.1 (ne_true_of_eq_false fine))

end Sys2Proof.Machine
end

section
/-!
Lane shedding (R508-R511): what a sample asks for, what a request and its answer do, and how a change of lanes begins and ends.
-/

namespace Sys2Proof.Machine

section
variable {s : State} {q k : Nat}

/-! ### Samples (R510) -/

/-- The port sends above UP, in what has left it or in what has been selected for it, since the last sample. -/
def State.shedBusy (s : State) (q k : Nat) : Bool :=
  let b := s.bp q k
  let d := s.now - b.sampAt
  s.overPct q k (b.sentBytes - b.sampTx) d (s.shedUp q) ||
    s.overPct q k (b.sentBytes + (s.port q).waitingBytes k - b.sampSel) d (s.shedUp q)

/-- Since when both rates have been below DOWN, judged every 1 ms. -/
def State.shedBelow (s : State) (q k rx : Nat) : Option Nat :=
  let b := s.bp q k
  let md := s.now - b.msAt
  let low := s.underPct q k (b.msTx + (b.sentBytes - b.sampTx)) md (s.shedDown q) && s.underPct q k (b.msRx + rx) md (s.shedDown q)
  if md < 1000000 then b.belowAt else if low then some (b.belowAt.getD b.msAt) else none

/-- A sample is taken. -/
def State.sampled (s : State) (q k rx : Nat) : State :=
  let b := s.bp q k
  let new := decide (1000000 ≤ s.now - b.msAt)
  s.modBp q k fun x =>
    { x with sampAt := s.now, sampTx := x.sentBytes, sampSel := b.sentBytes + (s.port q).waitingBytes k, belowAt := s.shedBelow q k rx,
             msAt := if new then s.now else x.msAt, msTx := if new then 0 else x.msTx + (b.sentBytes - b.sampTx),
             msRx := if new then 0 else x.msRx + rx }

theorem sampled_mode (s : State) (q k rx : Nat) : ((s.sampled q k rx).port q).mode = (s.port q).mode := by
  simp [State.sampled, State.modBp]

/-- R510: a sample asks for the full lanes, for half of them, or for nothing. -/
theorem shedSample_due {rx : Nat} (up : (s.bp q k).up = true) (due : 100000 ≤ s.now - (s.bp q k).sampAt) :
    let b := s.bp q k
    let u := s.sampled q k rx
    s.shedSample q k rx =
      if b.shedReq.isSome = true ∨ b.target.isSome = true ∨ s.now < b.holdTil then u
      else if b.lanes < modeLanes (s.port q).mode ∧ (s.shedBusy q k = true ∨ u.canShed q k = false) then u.shedRequest q k (modeLanes (s.port q).mode)
      else if 2 ≤ b.lanes ∧ u.canShed q k = true ∧ u.belowLong q k = true then u.shedRequest q k (b.lanes / 2)
      else u := by
  intro b u
  rw [State.shedSample, if_neg (by simp [up]; omega), ← sampled_mode s q k rx]
  simp only [Bool.not_eq_true']
  rfl

/-! ### Requests and answers (R509, R510) -/

/-- R510: a legal request that meets none outstanding is agreed to for more lanes, or where the port itself is below DOWN for HOLD. -/
theorem shedReqIn_of_none {seq lanes mac : Nat} (up : (s.bp q k).up = true) (idle : (s.bp q k).target = none)
    (lane : lanes = 1 ∨ lanes = 2 ∨ lanes = 4) (le : lanes ≤ modeLanes (s.port q).mode) (ne : lanes ≠ (s.bp q k).lanes)
    (alone : (s.bp q k).shedReq = none) :
    s.shedReqIn q k seq lanes mac =
      s.shedAnswer q k seq lanes (decide ((s.bp q k).lanes < lanes) || (s.canShed q k && s.belowLong q k)) := by
  simp [State.shedReqIn, up, idle, lane, le, ne, alone]

/-- R510: of two requests that cross, the one for more lanes wins, then the one from the lower MAC address. -/
theorem shedReqIn_of_some {seq lanes mac : Nat} {r : Nat × Nat × Nat} (up : (s.bp q k).up = true) (idle : (s.bp q k).target = none)
    (lane : lanes = 1 ∨ lanes = 2 ∨ lanes = 4) (le : lanes ≤ modeLanes (s.port q).mode) (ne : lanes ≠ (s.bp q k).lanes)
    (crosses : (s.bp q k).shedReq = some r) :
    s.shedReqIn q k seq lanes mac = s.shedAnswer q k seq lanes (decide (r.2.1 < lanes ∨ (r.2.1 = lanes ∧ mac < s.mac q k))) := by
  simp [State.shedReqIn, up, idle, lane, le, ne, crosses]

theorem shedAnswer_yes {seq lanes : Nat} {yes : Bool} (h : yes = true) :
    s.shedAnswer q k seq lanes yes = (s.emit (.shed q k (shedFrame (s.mac q k) 3 seq lanes))).shedStart q k seq lanes := if_pos h

theorem shedAnswer_no {seq lanes : Nat} {yes : Bool} (h : yes = false) :
    s.shedAnswer q k seq lanes yes = s.emit (.shed q k (shedFrame (s.mac q k) 4 seq lanes)) := if_neg (ne_true_of_eq_false h)

/-- R511: the peer's ACK of the request outstanding. -/
theorem exec_shedAckReceive_of {port : Fin 8} {n lanes t : Nat} (h : (s.bp port.val k).shedReq = some (n, lanes, t)) :
    exec (.shedAckReceive port k n) s = .next (s.shedStart port.val k n lanes) := by
  simp [exec_shedAckReceive, execShedAckReceive, h]

/-- R510: the peer's NAK of the request outstanding. -/
theorem exec_shedNakReceive_of {port : Fin 8} {n lanes t : Nat} (h : (s.bp port.val k).shedReq = some (n, lanes, t)) :
    exec (.shedNakReceive port k n) s = .next (s.modBp port.val k fun b => { b with shedReq := none, belowAt := none }) := by
  simp [exec_shedNakReceive, execShedNakReceive, h]

theorem shedTimeout_of {n lanes t : Nat} (h : (s.bp q k).shedReq = some (n, lanes, t)) (late : t + 1000000 ≤ s.now) :
    s.shedTimeout q k = s.modBp q k fun b => { b with shedReq := none, holdTil := s.now + s.shedHold q } := by
  simp [State.shedTimeout, h, late]

/-! ### A change of lanes (R511) -/

theorem lanesTrained_of {n : Nat} (h : (s.bp q k).target = some n) (lt : (s.bp q k).lanes < n) (first : (s.bp q k).markSent = false) :
    s.lanesTrained q k = ((s.modBp q k fun b => { b with trained := true }).sendMark q k n).restripe q k := by
  simp [State.lanesTrained, h, lt, first]

end

/-- Settles O44: a case for each command; a sample by `shedSample_due`, a request by what was outstanding. -/
theorem laneShedding : Obligations.LaneShedding := by
  intro port k s q b
  refine ⟨?cap, ?sample, ?request, ?answer, ?change, ?markLost⟩
  case cap =>
    intro lanes up nonzero inTime
    rw [exec_shedCapReceive, execShedCapReceive]
    exact congrArg _ (if_pos ⟨up, nonzero, inTime⟩)
  case sample =>
    intro rx now t b d tx sel busy md low below new next u full up due
    rw [exec_shedSample, execShedSample]
    have due := shedSample_due (s := t) (q := q) (k := k) (rx := rx) up due
    refine ⟨fun h => ?_, fun req idle held => ⟨fun lt h => ?_, fun h two can below => ?_⟩⟩
    · exact congrArg _ (due.trans (if_pos h))
    · have free : ¬ (b.shedReq.isSome = true ∨ b.target.isSome = true ∨ t.now < b.holdTil) := by simp [req, idle]; omega
      exact congrArg _ (due.trans ((if_neg free).trans (if_pos ⟨lt, h⟩)))
    · have free : ¬ (b.shedReq.isSome = true ∨ b.target.isSome = true ∨ t.now < b.holdTil) := by simp [req, idle]; omega
      have calm : ¬ (b.lanes < full ∧ (busy = true ∨ u.canShed q k = false)) := by
        rcases h with le | ⟨calm, can⟩
        · omega
        · simp [calm, can]
      exact congrArg _ (due.trans ((if_neg free).trans ((if_neg calm).trans (if_pos ⟨two, can, below⟩))))
  case request =>
    intro seq lanes mac up idle lane le ne
    rw [exec_shedReqReceive, execShedReqReceive]
    refine ⟨fun alone h => ?_, fun alone lt h => ?_, fun r crosses => ⟨fun h => ?_, fun h => ?_⟩⟩
    · rw [shedReqIn_of_none up idle lane le ne alone, shedAnswer_yes (by simpa using h)]
    · have fewer : decide (b.lanes < lanes) = false := decide_eq_false (by omega)
      have refused : (s.canShed q k && s.belowLong q k) = false := Bool.and_eq_false_iff.mpr h
      rw [shedReqIn_of_none up idle lane le ne alone, shedAnswer_no (Bool.or_eq_false_iff.mpr ⟨fewer, refused⟩)]
    · rw [shedReqIn_of_some up idle lane le ne crosses, shedAnswer_yes (by simpa using h)]
    · rw [shedReqIn_of_some up idle lane le ne crosses, shedAnswer_no (by simp; omega)]
  case answer =>
    intro n lanes t0 req
    refine ⟨exec_shedAckReceive_of req, exec_shedNakReceive_of req, ?_⟩
    intro now t late
    rw [exec_shedReqTimeout, execShedReqTimeout]
    exact congrArg _ (shedTimeout_of (s := s.tick now) req late)
  case change =>
    intro n target
    refine ⟨fun lt first => ?_, ?_⟩
    · rw [exec_shedLanesTrained, execShedLanesTrained, lanesTrained_of target lt first]
    · rw [exec_shedMarkReceive, execShedMarkReceive]
      exact congrArg _ (if_pos (Option.isSome_of_eq_some target))
  case markLost =>
    intro now t sent missing late
    rw [exec_shedMarkTimeout, execShedMarkTimeout]
    exact congrArg _ (if_pos ⟨sent, (Bool.not_eq_true' _).mpr missing, late⟩)

end Sys2Proof.Machine
end

section
/-!
Modules, port modes and device time (R495, R496, R512-R516, R519): what inserting and removing a module does, a mode write, and the corrections of
time.
-/

namespace Sys2Proof.Machine

section
variable {s : State}

/-! ### Modules and modes (R496, R512) -/

/-- R496: a mode write that the journal takes, where the port's registers are powered. -/
theorem portCfgWrite_acts {o : Origin} {q v : Nat} (room : s.jrnl.full = false) (live : s.edgeDown (q / 2) = false) :
    let t := (s.jCommit o (.setup (portOff q) 8 false (s.reg (portOff q)) v)).setReg (portOff q) (v &&& 0x3FFF1F)
    s.portCfgWrite o q 8 v = if v % 4 = 3 ∨ v % 4 = (t.port q).mode then t else (t.portAllDown q).modPort q fun x => { x with mode := v % 4 } := by
  intro t
  rw [State.portCfgWrite, if_neg (ne_true_of_eq_false live), setupWrite_acts room]

/-! ### Device time (R514-R516) -/

/-- R514, R516: a write of TIME_ADJ with SRC = 2. -/
theorem timeAdj_acts {o : Origin} {d : Int} (room : s.jrnl.full = false) (src : s.timeSrc = 2) :
    s.timeAdj o d = (s.jCommit o (.setup 0x2800018 8 false 0 (unsignedOf 64 d))).correct o d := by
  have acts : decide (s.timeSrc ≠ 2) = false := decide_eq_false (not_not_intro src)
  rw [State.timeAdj, acts, setupWrite_acts room]

/-- R514: a correction of up to 1 ms is slewed. -/
theorem correct_slews {o : Origin} {d : Int} (lo : -1000000 ≤ d) (hi : d ≤ 1000000) :
    s.correct o d = { s with clk := { s.clk with slew := d, slewRes := 0 } } := if_pos ⟨lo, hi⟩

/-- R514: a correction beyond 1 ms is a step. -/
theorem correct_steps {o : Origin} {d : Int} (far : 1000000 < d ∨ d < -1000000) : s.correct o d = s.stepTime o d :=
  if_neg (by omega)

/-- Elapsed time never goes back. -/
theorem tick_now (s : State) (now : Nat) : (s.tick now).now = max s.now now := by
  unfold State.now
  rw [tick_clk, Clock.tick]
  split
  case isTrue h => exact (max_eq_left h).symm
  case isFalse h => exact (max_eq_right (le_of_not_ge h)).symm

end

/-- Settles O45: a module by whether one is in the cage, a mode write and a correction by their values. -/
theorem modulesAndTime : Obligations.ModulesAndTime := by
  refine ⟨fun port s => ⟨fun power now absent => ?insert, fun present => ?remove, fun _ => rfl, fun o v room live => ?mode⟩,
    fun o d s room src => ?adj, fun port k domain now d s => ?sync, fun _ _ => rfl, fun now s => ⟨rfl, tick_now s now⟩⟩
  case insert =>
    rw [exec_moduleInsert, execModuleInsert]
    exact congrArg _ (if_neg (ne_true_of_eq_false absent))
  case remove =>
    rw [exec_moduleRemove, execModuleRemove]
    exact congrArg _ (if_pos present)
  case mode =>
    intro w t
    have acts := portCfgWrite_acts (o := o) (v := w) room live
    rw [exec_portModeWrite, execPortModeWrite]
    exact ⟨fun known new => congrArg _ (acts.trans (if_neg (not_or.mpr ⟨known, new⟩))), fun same => congrArg _ (acts.trans (if_pos same))⟩
  case adj =>
    intro x t
    have acts : s.timeAdj o x = t.correct o x := timeAdj_acts room src
    rw [exec_timeAdj, execTimeAdj, acts]
    exact ⟨fun lo hi => by rw [correct_slews lo hi], fun far => by rw [correct_steps far]⟩
  case sync =>
    intro t turn src atPort atBp inDomain up good
    rw [exec_ptpSyncReceive, execPtpSyncReceive]
    exact congrArg (fun u : State => Host.Outcome.next u.settle) (if_pos ⟨turn, src, atPort, atBp, inDomain, up⟩)

end Sys2Proof.Machine
end

section
/-!
Clocks and the power states of a region (R557-R568, R581): each command where it is due.
-/

namespace Sys2Proof.Machine

section
variable {s : State} {n : Nat}

/-! ### Ramps and rails (R561-R563) -/

theorem rampStep_may (lt : n < 4) (may : s.mayStep n = true) : s.rampStep n = s.modDom n fun d => { d with k := s.nextK n, hold := true } :=
  (if_neg (not_le.mpr lt)).trans (if_pos may)

theorem rampStep_holds (lt : n < 4) (may : s.mayStep n = false) (hold : (s.dom n).hold = true) :
    s.rampStep n = s.modDom n fun d => { d with hold := false } :=
  (if_neg (not_le.mpr lt)).trans ((if_neg (ne_true_of_eq_false may)).trans (if_pos hold))

/-- R563, R568: a rail at its setpoint lets a waking region's switch close; the step of the wake is the one before the reading. -/
theorem railSettled_near {mv : Nat} (live : (s.dom n).powered = true ∨ (s.dom n).wake ≠ 0) (near : railNear mv (s.setpoint n) = true) :
    s.railSettled n mv = s.modDom n fun d => { d with rail := mv, railSet := true, wake := if d.wake = 1 then 2 else d.wake } :=
  if_pos ⟨live, near⟩

/-- Two changes of a domain are one where they make the same of it as it stands. -/
theorem modDom_congr {f g : RegPow → RegPow} (h : f (s.dom n) = g (s.dom n)) : s.modDom n f = s.modDom n g :=
  congrArg (fun d : RegPow => { s with power := { s.power with regions := aset s.power.regions n d } }) h

/-! ### The reference and the sources (R557, R564, R565) -/

/-- R565: a PLL that loses lock puts its domain on the reference. -/
theorem pllLoss_locked (lt : n < 6) (locked : s.power.lock.testBit n = true) (onPll : s.onRef n = false) :
    let p := { s.power with ref := s.power.ref ||| 2 ^ n, refPend := (s.power.refPend ||| 2 ^ n) - 2 ^ n, switches := satAdd 0xFFFF s.power.switches 1 }
    s.pllLoss n = ({ s with power := p }.setLock n false).report (if n < 4 then 0xF0 + n else 0xFF) 0xFF 0x61 n := by
  intro p
  have live : ¬ (6 ≤ n ∨ (! s.power.lock.testBit n) = true) := by simp [locked, lt]
  rw [State.pllLoss, if_neg live, onPll]
  rfl

/-- R565: a write of CLK_DOM_SEL of which something is left. -/
theorem domSel_acts {o : Origin} {v : Nat} (room : s.jrnl.full = false) :
    let old := s.power.ref
    let held := (bitList 6 old).filter fun d => ! v.testBit d && ! s.mayReturn d
    let new := held.foldl (fun n d => n ||| 2 ^ d) (v % 64)
    let t := s.jCommit o (.setup 0x100008 8 false (old + 2 ^ 16 * s.power.lock) v)
    held = [] ∨ new ≠ old →
      s.domSel o 8 v = { t with power := { t.power with ref := new, refPend := t.power.refPend ^^^ (old ^^^ new) } } := by
  intro old held new t left
  have acts : decide (held ≠ [] ∧ new = old) = false := decide_eq_false (by tauto)
  rw [State.domSel]
  exact (congrArg (fun ignored => s.setupWrite o 0x100008 8 ignored _ v _) acts).trans (setupWrite_acts room)

/-! ### Power states (R566-R568) -/

/-- R566: an idle domain goes to IDLE. -/
theorem regionIdle_due (st : (s.dom n).st = 0) (awake : (s.dom n).wake = 0) (on : s.idleNs n ≠ 0) (late : (s.dom n).since + s.idleNs n ≤ s.now)
    (idle : s.regionBusy n = false) (powered : s.powered = true) : s.regionIdle n = s.modDom n fun d => { d with st := 1, since := s.now } :=
  if_pos ⟨st, awake, on, late, (Bool.not_eq_true' _).mpr idle, powered⟩

/-- R566, R567: an idle domain goes on to DOZE. -/
theorem regionDoze_due (st : (s.dom n).st = 1) (idleOn : s.idleNs n ≠ 0) (dozeOn : s.dozeNs n ≠ 0) (late : (s.dom n).since + s.dozeNs n ≤ s.now)
    (idle : s.regionBusy n = false) :
    s.regionDoze n = (s.modDom n fun d => { d with st := 2, k := 0, rail := railV 4, wake := 0, since := s.now }).setLock n false :=
  if_pos ⟨st, idleOn, dozeOn, late, (Bool.not_eq_true' _).mpr idle⟩

end

/-- Settles O46: a case for each command, by the guard that holds. -/
theorem clocksAndRegions : Obligations.ClocksAndRegions := by
  refine ⟨fun n s lt may => ?ramp, fun n s lt may hold => ?hold, fun r mv s live near => ?rail, fun n s stable powered => ?stable,
    fun s stable => ?loss, fun d s lt pend free => ?switch, fun n s lt locked onPll => ?pll, fun o v s room => ?select, fun r s => ?region⟩
  case ramp => rw [exec_clkRampStep, execClkRampStep, rampStep_may lt may]
  case hold => rw [exec_clkRampStep, execClkRampStep, rampStep_holds lt may hold]
  case rail =>
    rw [exec_railSettled, execRailSettled, railSettled_near live near]
    exact congrArg _ (modDom_congr rfl)
  case stable =>
    rw [exec_refStable, execRefStable]
    exact congrArg _ (if_neg (by simp [stable, powered]))
  case loss =>
    rw [exec_refLoss, execRefLoss]
    exact congrArg (fun u : State => Host.Outcome.next u.settle) (if_neg (by simp [stable]))
  case switch =>
    rw [exec_clkSourceSwitch, execClkSourceSwitch]
    refine congrArg _ (if_pos ⟨lt, pend, ?_⟩)
    rcases free with h | h
    · simp [not_lt.mpr h]
    · simp [h]
  case pll => rw [exec_pllLockLoss, execPllLockLoss, pllLoss_locked lt locked onPll]
  case select =>
    intro w old held new left t
    rw [exec_clkDomSel, execClkDomSel]
    exact congrArg _ (domSel_acts room left)
  case region =>
    intro n d
    refine ⟨fun now => ⟨fun st awake on late idle powered => ?_, fun st idleOn dozeOn late idle => ?_⟩, fun st => ?_, fun st awake powered => ?_,
      fun wake => ?_, fun wake => ?_⟩
    · rw [exec_regionIdle, execRegionIdle]
      exact congrArg _ (regionIdle_due (s := s.tick now) st awake on late idle powered)
    · rw [exec_regionDoze, execRegionDoze]
      exact congrArg _ (regionDoze_due (s := s.tick now) st idleOn dozeOn late idle)
    · rw [exec_regionIdleWake, execRegionIdleWake]
      exact congrArg _ (if_pos st)
    · rw [exec_regionWake, execRegionWake]
      exact congrArg _ (if_pos ⟨st, awake, powered⟩)
    · rw [exec_powerSwitchClosed, execPowerSwitchClosed]
      exact congrArg _ (if_pos wake)
    · rw [exec_pllLocked, execPllLocked]
      exact congrArg _ (if_pos wake)

end Sys2Proof.Machine
end

section
/-!
P-Sleep, the power limit and the rails (R570-R573, R577): what an evaluation of the measured power makes of the caps, and each event where it is due.
-/

namespace Sys2Proof.Machine

section
variable {s : State}

/-! ### P-Sleep (R570, R571) -/

/-- R570: a write of PWR_CTL.SLEEP while the device may sleep. -/
theorem sleepWrite_acts {o : Origin} (room : s.jrnl.full = false) (may : s.maySleep = true) :
    let t := s.jCommit o (.setup 0x200000 8 false 0 1)
    s.sleepWrite o 8 1 = { t with power := { t.power with sleepAsk := some (t.jrnl.next - 1, t.now) } } := by
  intro t
  have acts : decide (1 % 2 = 0 ∨ (! s.maySleep) = true) = false := decide_eq_false (by simp [may])
  rw [State.sleepWrite, acts, setupWrite_acts room]

theorem sleepTimeout_late {seq t : Nat} (ask : s.power.sleepAsk = some (seq, t)) (late : t + 10000000 ≤ s.now) :
    s.sleepTimeout = { s with power := { s.power with sleepAsk := none } } := by
  simp [State.sleepTimeout, ask, late]

/-- The device leaves P-Sleep: the reference starts again. -/
def State.woken (s : State) : State := { s with power := { s.power with sleeping := false, saiga := 0, stable := false } }.refStable 0

/-- R571: energy on the management bus pair and WAKE_N wake a sleeping device. -/
theorem sleepExit_wakes {source : Nat} (sleeping : s.power.sleeping = true) (wakes : source = 1 ∨ source = 2) : s.sleepExit source = s.woken := by
  rcases wakes with rfl | rfl <;> simp [State.sleepExit, sleeping, State.woken]

/-- R571: the end of an assertion of PERST# of link 0 wakes it, and the assertion is forgotten. -/
theorem sleepExit_perst (sleeping : s.power.sleeping = true) (perst : (s.link 0).perst = true) :
    s.sleepExit 0 = (s.modLink 0 fun l => { l with perst := false }).woken := by
  simp [State.sleepExit, sleeping, perst, State.woken]

/-! ### The power limit (R572, R573) -/

/-- The measured power is taken. -/
def State.measured (s : State) (w : Nat) : State := { s with power := { s.power with watts := w, evalAt := s.now } }

/-- R572: above the limit the hottest domain's PCAP goes down; below it, by HYST, the last one lowered goes up. -/
def State.capped (s : State) (w : Nat) : State :=
  if s.limitW < w then
    match s.hottest with
    | some n => let s := s.modDom n fun d => { d with pcap := d.pcap - 1 }
                { s with power := { s.power with lowered := n :: s.power.lowered } }
    | none => s
  else if w + s.hystW < s.limitW then
    match s.power.lowered with
    | n :: t => let s := s.modDom n fun d => { d with pcap := d.pcap + 1 }
                { s with power := { s.power with lowered := t } }
    | [] => s
  else s

/-- R573: since when the device has been above its limit with every PCAP at 4. -/
def State.judged (s : State) (w : Nat) : State :=
  { s with power := { s.power with overAt := if decide (s.limitW < w) && s.allLow then some (s.power.overAt.getD s.now) else none } }

/-- R572: an evaluation takes the reading, changes the caps and judges the rest. -/
theorem powerEval_due {w : Nat} (due : s.power.evalAt + 100000 ≤ s.now) : s.powerEval w = ((s.measured w).capped w).judged w :=
  if_neg (not_lt.mpr due)

theorem capped_lowers {w n : Nat} (high : s.limitW < w) (hot : s.hottest = some n) :
    let v := s.modDom n fun d => { d with pcap := d.pcap - 1 }
    s.capped w = { v with power := { v.power with lowered := n :: v.power.lowered } } := by
  intro v
  rw [State.capped, if_pos high, hot]

theorem capped_all_low {w : Nat} (high : s.limitW < w) (cold : s.hottest = none) : s.capped w = s := by
  rw [State.capped, if_pos high, cold]

theorem capped_raises {w n : Nat} {l : List Nat} (low : w + s.hystW < s.limitW) (last : s.power.lowered = n :: l) :
    let v := s.modDom n fun d => { d with pcap := d.pcap + 1 }
    s.capped w = { v with power := { v.power with lowered := l } } := by
  intro v
  rw [State.capped, if_neg (by omega), if_pos low, last]

theorem capped_within {w : Nat} (le : w ≤ s.limitW) (near : s.limitW ≤ w + s.hystW) : s.capped w = s := by
  rw [State.capped, if_neg (not_lt.mpr le), if_neg (not_lt.mpr near)]

/-- R573: 10 ms above the limit report POWER_LIMIT for the highest unfenced powered region. -/
theorem powerFence_due {t n : Nat} (since : s.power.overAt = some t)
    (last : ((List.range 4).filter fun n => (s.dom n).powered && (aget s.err.fences n).isNone).getLast? = some n)
    (late : t + 10000000 ≤ s.now) (free : s.power.fencing = none) :
    s.powerFence = { s with power := { s.power with fencing := some n } }.report (0xF0 + n) 0xFF 0x66 s.power.watts := by
  rw [State.powerFence, since, last]
  exact if_pos ⟨late, by rw [free]; rfl⟩

/-! ### Rails (R577) -/

/-- The powered neighbour whose rail is more than 60 mV away. -/
def State.farRail (s : State) (n mv : Nat) : Option Nat :=
  (s.near n).find? fun m => decide (mv + 60 < (s.dom m).rail ∨ (s.dom m).rail + 60 < mv)

/-- A rail beyond 30 mV of its setpoint is reported. -/
def State.railOff (s : State) (n mv : Nat) : State := (s.modDom n fun d => { d with rail := mv }).report (0xF0 + n) 0xFF 0x60 mv

theorem railFault_none {n mv : Nat} (powered : (s.dom n).powered = true) (off : mv + 30 < s.setpoint n ∨ s.setpoint n + 30 < mv)
    (near : s.farRail n mv = none) : s.railFault n mv = s.railOff n mv := by
  rw [State.farRail] at near
  simp only [State.railFault, powered, decide_eq_true off, near, Bool.not_true, Bool.false_eq_true, if_false, if_true, State.railOff]

theorem railFault_some {n mv m : Nat} (powered : (s.dom n).powered = true) (off : mv + 30 < s.setpoint n ∨ s.setpoint n + 30 < mv)
    (far : s.farRail n mv = some m) : s.railFault n mv = (s.railOff n mv).report (0xF0 + n) 0xFF 0x63 (m + 2 ^ 8) := by
  rw [State.farRail] at far
  simp only [State.railFault, powered, decide_eq_true off, far, Bool.not_true, Bool.false_eq_true, if_false, if_true, State.railOff]

end

/-- Settles O47: P-Sleep by what wakes, an evaluation by `powerEval_due` and what it makes of the caps, a rail by its neighbours. -/
theorem sleepAndLimits : Obligations.SleepAndLimits := by
  refine ⟨fun o s room may => ?sleep, fun seq t0 now s ask late => ?lapse, fun s sleeping => ?wake, fun w now s due => ?eval,
    fun now t0 n s since last late free => ?fence, fun _ _ _ => rfl, fun mv s => ⟨rfl, rfl, rfl, rfl⟩, fun r mv s powered off => ?rail⟩
  case sleep =>
    rw [exec_pwrSleep, execPwrSleep]
    exact congrArg _ (sleepWrite_acts room may)
  case lapse =>
    rw [exec_sleepExportTimeout, execSleepExportTimeout]
    exact congrArg _ (sleepTimeout_late (s := s.tick now) ask late)
  case wake =>
    simp only [exec_sleepExit, execSleepExit]
    exact ⟨congrArg _ (sleepExit_wakes sleeping (.inl rfl)), congrArg _ (sleepExit_wakes sleeping (.inr rfl)),
      fun perst => congrArg _ (sleepExit_perst sleeping perst)⟩
  case eval =>
    intro u fin
    rw [exec_powerLimitEval, execPowerLimitEval, powerEval_due due]
    refine ⟨?_, fun high cold => ?_, ?_, fun le near => ?_⟩
    · intro n high hot v
      exact congrArg (fun v : State => Host.Outcome.next (fin v)) (capped_lowers (s := u) high hot)
    · exact congrArg (fun v : State => Host.Outcome.next (fin v)) (capped_all_low (s := u) high cold)
    · intro n l low last v
      exact congrArg (fun v : State => Host.Outcome.next (fin v)) (capped_raises (s := u) low last)
    · exact congrArg (fun v : State => Host.Outcome.next (fin v)) (capped_within (s := u) le near)
  case fence =>
    rw [exec_powerLimitFence, execPowerLimitFence]
    exact congrArg _ (powerFence_due (s := s.tick now) since last late free)
  case rail =>
    intro t far
    exact ⟨fun near => congrArg _ (railFault_none powered off near), fun m far => congrArg _ (railFault_some powered off far)⟩

end Sys2Proof.Machine
end

section
/-!
The card (R584, R588, R590, R591, R593, R594): PERST# of a link, the J8 voltage by its range, the cages' switches and the coolant's readings.
-/

namespace Sys2Proof.Machine

section
variable {s : State}

/-! ### PERST# (R584) -/

theorem perst_unpowered {l : Nat} (off : s.powered = false) : s.perst l = s.modLink l fun x => { x with perst := true } :=
  if_pos (by simp [off])

theorem perst_up {l : Nat} (powered : s.powered = true) (up : (s.link l).up = true) :
    s.perst l = (s.linkDown l).report (72 + l) 0xFF 0x51 (l + 3 * 2 ^ 8) :=
  (if_neg (by simp [powered])).trans (if_pos up)

theorem perst_down {l : Nat} (powered : s.powered = true) (down : (s.link l).up = false) : s.perst l = s.linkReset l :=
  (if_neg (by simp [powered])).trans (if_neg (ne_true_of_eq_false down))

/-! ### J8 (R588, R590) -/

/-- A J8 voltage is seen: the time it was last at most 41 V, and whether it is above the upper limit. -/
def State.auxSeen (s : State) (mv : Int) (high : Bool) : State :=
  let c := s.card
  { s with card := { c with mv := mv, revSeen := c.revSeen || decide (mv < -500),
                            uvAt := if c.mv ≤ 41000 ∨ mv ≤ 41000 then s.now else c.uvAt, overs := high } }

/-- R588: a voltage outside 59 V to 60 V says by itself whether it is above the upper limit. -/
theorem auxVolts_eq {mv : Int} {high : Bool} (h : (if 60000 < mv then true else if mv < 59000 then false else s.card.overs) = high) :
    let t := s.auxSeen mv high
    s.auxVolts mv =
      if s.power.off = true then (if 42000 < mv ∧ (! high) = true then t.powerOn else t)
      else if 60000 < mv then t.powerOff
      else if mv < 36000 then { t with card := { t.card with lowAt := some (t.card.lowAt.getD t.now) } }
      else if mv < 40000 then { t with card := { t.card with lowAt := none, auxLow := true, uv := true } }
      else { t with card := { t.card with lowAt := none } } := by
  subst h
  rfl

theorem auxVolts_below {mv : Int} (lt : mv < 59000) :
    let t := s.auxSeen mv false
    s.auxVolts mv =
      if s.power.off = true then (if 42000 < mv then t.powerOn else t)
      else if mv < 36000 then { t with card := { t.card with lowAt := some (t.card.lowAt.getD t.now) } }
      else if mv < 40000 then { t with card := { t.card with lowAt := none, auxLow := true, uv := true } }
      else { t with card := { t.card with lowAt := none } } := by
  have notHigh : ¬ 60000 < mv := by omega
  intro t
  rw [auxVolts_eq (high := false) (by rw [if_neg notHigh, if_pos lt]), if_neg notHigh]
  simp only [Bool.not_false, and_true]
  rfl

theorem auxVolts_above {mv : Int} (on : s.power.off = false) (high : 60000 < mv) : s.auxVolts mv = (s.auxSeen mv true).powerOff := by
  rw [auxVolts_eq (high := true) (if_pos high), if_neg (ne_true_of_eq_false on), if_pos high]

theorem auxLoss_late {t : Nat} (low : s.card.lowAt = some t) (on : s.power.off = false) (late : t + 100000 ≤ s.now) : s.auxLoss = s.powerOff := by
  simp [State.auxLoss, low, on, late]

/-! ### Cages (R591) -/

/-- R591: the switch of a cage closes. -/
def Cage.closed (x : Cage) : Cage := { x with on := true, lowpwr := decide (20 < x.power) }

theorem cagePower_due {q : Nat} (present : (s.cage q).present = true) (off : (s.cage q).on = false) (sound : (s.cage q).fault = false)
    (untripped : (s.cage q).tripped = false) (late : (s.cage q).insAt + 50000000 ≤ s.now) : s.cagePower q = s.modCage q Cage.closed :=
  if_pos (by simp [present, off, sound, untripped, late])

theorem cageRetry_due {q t : Nat} (last : (s.cage q).trips.getLast? = some t) (present : (s.cage q).present = true)
    (tripped : (s.cage q).tripped = true) (sound : (s.cage q).fault = false) (late : t + 1000000000 ≤ s.now) :
    s.cageRetry q = s.modCage q Cage.closed := by
  simp [State.cageRetry, last, present, tripped, sound, late]
  rfl

/-! ### Coolant (R593) -/

/-- R593: a reading takes the flow where its line is seen OK. -/
theorem reading_flow (c : Card) (x : Sensors) (now : Nat) :
    (c.reading x now).flow = if flowLine x.flowUa x.held = 0 then x.flow % 65536 else c.flow := rfl

/-- R593: a reading takes the inlet temperature where its line is seen OK. -/
theorem reading_tin (c : Card) (x : Sensors) (now : Nat) : (c.reading x now).tin = if tempLine x.tinPm = 0 then x.tin else c.tin := rfl

/-- R593: the flow line is OK within its currents and not held. -/
theorem flowLine_ok_iff (ua : Nat) (held : Bool) : flowLine ua held = 0 ↔ 500 ≤ ua ∧ ua ≤ 50000 ∧ held = false := by
  unfold flowLine
  split <;> simp <;> omega

end

/-- Settles O48: PERST# by the link's state, J8 by the range of its voltage, a cage and the coolant by what is due. -/
theorem card : Obligations.Card := by
  refine ⟨fun l s => ?perst, fun mv now s => ?volts, fun port now s => ?cage, fun x now s => ?coolant⟩
  case perst =>
    rw [exec_perstAssert, execPerstAssert]
    exact ⟨fun off => by rw [perst_unpowered off], fun powered up => by rw [perst_up powered up], fun powered down => by rw [perst_down powered down]⟩
  case volts =>
    intro t c uv set
    rw [exec_auxVoltageChange, execAuxVoltageChange, exec_auxUvRecover, execAuxUvRecover, exec_auxPowerLoss, execAuxPowerLoss]
    have below (lt : mv < 59000) := auxVolts_below (s := t) lt
    refine ⟨fun off lo hi => ?_, fun on high => congrArg _ (auxVolts_above on high), fun on lt => ?_, fun on ge lt => ?_, fun on ge lt => ?_,
      fun low high late => congrArg _ (if_pos ⟨low, high, late⟩), fun t0 low on late => congrArg _ (auxLoss_late low on late)⟩
    · exact congrArg _ ((below hi).trans ((if_pos off).trans (if_pos lo)))
    · exact congrArg _ ((below (by omega)).trans ((if_neg (ne_true_of_eq_false on)).trans (if_pos lt)))
    · exact congrArg _ ((below (by omega)).trans ((if_neg (ne_true_of_eq_false on)).trans ((if_neg (by omega)).trans (if_pos lt))))
    · exact congrArg _ ((below lt).trans ((if_neg (ne_true_of_eq_false on)).trans ((if_neg (by omega)).trans (if_neg (by omega)))))
  case cage =>
    intro q t c close
    refine ⟨fun present off sound untripped late => ?_, ?_, fun t0 last present tripped sound late => ?_⟩
    · rw [exec_cageInsertPower, execCageInsertPower]
      exact congrArg _ (cagePower_due (s := t) present off sound untripped late)
    · intro on l trip
      rw [exec_cageOvercurrent, execCageOvercurrent]
      exact congrArg _ (if_neg (by simpa using on))
    · rw [exec_cageRetry, execCageRetry]
      exact congrArg _ (cageRetry_due (s := t) last present tripped sound late)
  case coolant =>
    intro t c
    refine ⟨rfl, fun lo hi free => ?_, fun bad => ?_, fun lo hi => ?_, fun cap clear late => ?_⟩
    · exact (reading_flow _ _ _).trans (if_pos ((flowLine_ok_iff _ _).mpr ⟨lo, hi, free⟩))
    · refine (reading_flow _ _ _).trans (if_neg fun ok => ?_)
      obtain ⟨lo, hi, free⟩ := (flowLine_ok_iff _ _).mp ok
      rcases bad with h | h | h
      · omega
      · omega
      · simp [free] at h
    · have ok : tempLine x.tinPm = 0 := by rw [tempLine, if_neg (by omega), if_neg (by omega)]
      exact (reading_tin _ _ _).trans (if_pos ok)
    · rw [exec_coolingCapLift, execCoolingCapLift]
      exact congrArg _ (if_pos ⟨cap, (Bool.not_eq_true' _).mpr clear, late⟩)

end Sys2Proof.Machine
end

section
/-!
Self-test (R548, R549, R551-R553): what a write of BIST_CTL starts, what the end of a region's test leaves, and the TAP.
-/

namespace Sys2Proof.Machine

section
variable {s : State}

/-! ### BIST_CTL (R548, R549) -/

/-- R548: a write for a region that may be tested starts its test. -/
theorem bistCtl_region {o : Origin} {v n : Nat} {bad : List Nat} (room : s.jrnl.full = false) (may : s.mayTest (v % 16) = some n) :
    s.bistCtl o 8 v bad = (s.jCommit o (.setup 0x2000000 8 false 0 v)).testStart n := by
  rw [State.bistCtl, may]
  exact setupWrite_acts room

/-- No region is tested by a write that names none. -/
theorem mayTest_zero (s : State) : s.mayTest 0 = none := by
  unfold State.mayTest
  split <;> rfl

/-- R549: a write of CHIP starts the chip test. -/
theorem bistCtl_chip {o : Origin} {bad : List Nat} (room : s.jrnl.full = false) (may : s.mayTestChip = true) :
    s.bistCtl o 8 256 bad = (s.jCommit o (.setup 0x2000000 8 false 0 256)).testChip bad := by
  have acts : (! ((256 : Nat).testBit 8 && s.mayTestChip)) = false := by rw [may]; rfl
  rw [State.bistCtl, mayTest_zero, acts]
  exact setupWrite_acts room

/-! ### The end of a region's test (R548) -/

theorem testEnd_pass {n t spares unit : Nat} (room : s.jrnl.full = false) (run : s.bist.run = some (n, t)) :
    let u := s.bistEnd 1 0 (spares % 2 ^ 16) 0xFFFF
    s.testEnd n 0 spares unit = { u with err := { u.err with tested := u.err.tested ++ [n] } } := by
  simp [State.testEnd, run, room]

theorem testEnd_fail {n t fails spares unit : Nat} (room : s.jrnl.full = false) (run : s.bist.run = some (n, t)) (failed : 0 < fails) :
    s.testEnd n fails spares unit = s.bistEnd 2 (min 0xFFFF fails) (spares % 2 ^ 16) unit := by
  simp [State.testEnd, run, room, Nat.pos_iff_ne_zero.mp failed]

end

/-- Settles O49: the two writes of BIST_CTL, the two ends of a region's test, and the TAP by the card. -/
theorem selfTest : Obligations.SelfTest := by
  refine ⟨fun o mask n s room may => ?region, fun r t0 spares now s run room => ?ends, fun o bad s room may => ?chip, fun s room ce => ?tap,
    fun s cl => ?noTap⟩
  case region =>
    rw [exec_bistRegionStart, execBistRegionStart, bistCtl_region room (by rwa [Nat.mod_mod])]
  case ends =>
    refine ⟨fun unit => ?_, fun fails unit failed => ?_⟩
    · rw [exec_bistRegionEnd, execBistRegionEnd]
      exact congrArg _ (testEnd_pass (s := s.tick now) room run)
    · rw [exec_bistRegionEnd, execBistRegionEnd]
      exact congrArg _ (testEnd_fail (s := s.tick now) room run failed)
  case chip => rw [exec_bistChipStart, execBistChipStart, bistCtl_chip room may]
  case tap =>
    rw [exec_tapScanSelect, execTapScanSelect]
    exact congrArg _ (if_neg (by simp [ce, room]))
  case noTap =>
    rw [exec_tapScanSelect, execTapScanSelect]
    exact congrArg _ (if_pos (by simp [cl]))

end Sys2Proof.Machine
end
